-- ==== Sys2Proof/Word.lean ====
section
/-!
DEFINITION. The word types of the block and their plainest arithmetic (R5): bits are numbered from 0 at the least
significant end, multi-byte values are little-endian.
-/

namespace Sys2Proof

/-- A byte. -/
abbrev Byte := BitVec 8

/-- A 64-bit word. -/
abbrev Word := BitVec 64

/-- A 512-bit vector register or 64-byte block. -/
abbrev Vec := BitVec 512

/-- A 128-byte line (R5). -/
abbrev LineData := BitVec 1024

/-- A core, package-wide: 25,600 p + 64 b + c (R18). -/
abbrev CoreId := Fin 307200

/-- A bed, package-wide: 400 p + b (R18). -/
abbrev BedId := Fin 4800

/-- A bed group, package-wide: 16 p + g (R18). -/
abbrev BgId := Fin 192

/-- A plot (R13). -/
abbrev PlotId := Fin 12

/-- A DRAM stack (R13). -/
abbrev StackId := Fin 24

/-- A die slot (R34). -/
abbrev SlotId := Fin 16

/-- A partition (R26). -/
abbrev PartId := Fin 32

/-- A ring of the command front end (R254). -/
abbrev RingId := Fin 1024

/-- A Halene port (R13). -/
abbrev PortId := Fin 16

/-- A translation context, 0 to 32 (R231). -/
abbrev CtxId := Fin 33

/-- A package number, 1 to 511, with 0 for the local package (R19). -/
abbrev PkgId := Fin 512

end Sys2Proof
end

