-- ==== Sys2Proof/Syntax.lean ====
section
/-!
DEFINITION. The commands of the block, one constructor per row of the table of operations and events, with the operands
each takes. What only the world outside the package can know (a reading, an error on a link, a signature's validity, a
message's bits) stands among the operands of the command that reports it.
-/

namespace Sys2Proof

/-- The five slots of a bundle (R80). -/
inductive Slot where
  | grid | vec | scalar | lm | sync
  deriving DecidableEq, Repr

/-- Fields of the grid slot (R83); `depth` is K − 1. -/
structure OrderF where
  xbase : BitVec 5
  a : BitVec 11
  b : BitVec 11
  d : BitVec 11
  depth : BitVec 12
  tcfg : BitVec 2
  keep : Bool
  hold : Bool
  flag : BitVec 5
  deriving DecidableEq, Repr

/-- Fields of a vector slot of form A (R90). -/
structure VecA where
  vt : BitVec 3
  vd : BitVec 5
  mask : BitVec 3
  sat : Bool
  vs1 : BitVec 5
  vs2 : BitVec 5
  vs3 : BitVec 5
  rnd : BitVec 2
  aux : BitVec 3
  deriving DecidableEq, Repr

/-- Fields of a vector slot of form M (R90); `ngran` is NGRAN − 1. -/
structure VecM where
  vt : BitVec 3
  vd : BitVec 5
  mask : BitVec 3
  sat : Bool
  xbase : BitVec 5
  gran : BitVec 11
  ngran : BitVec 2
  rpart : BitVec 2
  vs1 : BitVec 5
  deriving DecidableEq, Repr

/-- Fields of a vector slot of form I (R90). -/
structure VecI where
  vt : BitVec 3
  vd : BitVec 5
  mask : BitVec 3
  sat : Bool
  imm : BitVec 32
  deriving DecidableEq, Repr

/-- Fields of a vector slot of form X (R90). -/
structure VecX where
  vt : BitVec 3
  vd : BitVec 5
  mask : BitVec 3
  sat : Bool
  xreg : BitVec 5
  lane : BitVec 6
  deriving DecidableEq, Repr

/-- Fields of a scalar slot in register form (R91). -/
structure ScR where
  xd : BitVec 5
  xs1 : BitVec 5
  xs2 : BitVec 5
  deriving DecidableEq, Repr

/-- Fields of a scalar slot in immediate form (R91). -/
structure ScI where
  xd : BitVec 5
  xs1 : BitVec 5
  imm : BitVec 24
  deriving DecidableEq, Repr

/-- Fields of COPY and FILL (R92); `len` is the granule count less one. FILL names no source. -/
structure MoveF where
  xsrc : BitVec 5
  srcGran : BitVec 11
  xdst : BitVec 5
  dstGran : BitVec 11
  len : BitVec 6
  flag : BitVec 5
  raise : Bool
  deriving DecidableEq, Repr

/-- Fields of LOOP (R93): the body is LEN + 1 bundles; the count is COUNT, or x[XREG] when FROMX is 1. -/
structure LoopF where
  len : BitVec 7
  fromx : Bool
  count : BitVec 12
  deriving DecidableEq, Repr

/-- The standing of a request (R28): its partition, or host standing, and whether it comes from another package. -/
structure Who where
  part : PartId
  host : Bool
  remote : Bool
  deriving DecidableEq, Repr

/-- The address form of an outside scratchpad access (R32): the plain window, the bit-set or the bit-clear alias. -/
inductive Form where
  | plain | bitSet | bitClear
  deriving DecidableEq, Repr

/-- An outside request to one scratchpad (R118): 1 to 128 bytes within one aligned 128-byte line. `brw` is true for the
bed's own barrow. Byte i of the request is byte i of `data`. -/
structure OutReq where
  id : Nat
  brw : Bool
  off : BitVec 15
  len : Nat
  write : Bool
  form : Form
  data : BitVec 1024
  who : Who
  deriving DecidableEq, Repr

/-- An atomic operation (R160): AOP, size, whether the old value is returned, operand and compare value. -/
structure Atom where
  aop : BitVec 4
  size8 : Bool
  fetch : Bool
  operand : BitVec 64
  compare : BitVec 64
  deriving DecidableEq, Repr

/-- What reaches a scratchpad (R118): an access already under way in the package, by its number, or one given whole. -/
inductive SpadIn where
  | under (id : Nat)
  | direct (r : OutReq)
  deriving DecidableEq, Repr

/-- The policy of a line as its leaf entry gives it (R125). -/
inductive Policy where
  | stable | shared | uncached
  deriving DecidableEq, Repr

/-- How a bed cache looks a line up (R125, R142): the policy of the line, and whether the bed sequencer asks or the barrow. -/
structure LookF where
  pol : Policy
  bsq : Bool
  deriving DecidableEq, Repr

/-- Which cores a SYNC release covers (R95): a bed, the launch of a partition on this package, or a grove launch. -/
inductive SyncScope where
  | bed (b : BedId)
  | part (p : PartId)
  | grove (p : PartId)
  deriving DecidableEq, Repr

/-- Status codes of completion records (R12). -/
inductive Status where
  | ok | completed | tooLate | dieAbsent | dataLost | pageFault | featureMissing | cfgAbandoned | deadlineFallback
  | capUnattainable | groveExcluded | aborted
  deriving DecidableEq, Repr

/-- A write of the bed to DRAM (R132): the line, its byte mask and bytes, its policy, and whose it is. -/
structure BedWrite where
  id : Nat
  pa : BitVec 61
  mask : BitVec 128
  data : BitVec 1024
  pol : Policy
  part : PartId
  owner : Nat
  deriving DecidableEq, Repr

/-- One who asks for a translation (R231): a barrow, a bed sequencer, the command front end or the guest die. -/
inductive Asker where
  | barrow (b : BedId)
  | bsq (b : BedId)
  | cmd
  | guest
  deriving DecidableEq, Repr

/-- A translated access (R231, R235): who asks, in which context, for which address and access, and the step of its move (all ones
outside a step). -/
structure XltReq where
  id : Nat
  who : Asker
  ctx : CtxId
  va : BitVec 64
  r : Bool
  w : Bool
  a : Bool
  step : BitVec 32
  deriving DecidableEq, Repr

/-- An XINVAL command (R240). -/
structure XInvF where
  ctx : BitVec 6
  count : BitVec 16
  epoch : BitVec 32
  vpn : BitVec 39
  bedc : Bool
  deriving DecidableEq, Repr

/-- A source of requests (R142): the bed cache and merging buffer of a bed, the barrow itself, a bed sequencer, a ring of the command front
end (R258), an Opsan core, a PCIe endpoint, the guest die, the management controller, the IOMMU, a requester whose access is given whole, or a source of another package by its die
slot and bed. -/
inductive Src where
  | bed (b : Nat)
  | brw (b : Nat)
  | bsq (b : Nat)
  | iommu
  | cmd (ring : Nat)
  | opsan (core : Nat)
  | pcie
  | guest
  | mgt
  | ext
  | pkg (n slot bed : Nat)
  deriving DecidableEq, Repr

/-- A request to stacked DRAM as its controller receives it: `pa` is a local address, byte i of `data` goes to byte `pa` + i where
bit i of `mask` is 1; a read asks for `len` bytes of one line; `step` and `key` order a floating-point add (R165). -/
structure DramReq where
  id : Nat
  src : Src
  who : Who
  pa : BitVec 52
  len : Nat
  write : Bool
  data : BitVec 1024
  mask : BitVec 128
  atom : Option Atom
  step : BitVec 32
  key : BitVec 16
  deriving DecidableEq, Repr

/-- The request that reaches a controller: one already under way in the package, by its number, or one given whole. -/
inductive Arrival where
  | under (id : Nat)
  | direct (r : DramReq)
  deriving DecidableEq, Repr

/-- What training a stack comes to (R190, R191): the step that failed, if one did, and what was read and measured. -/
structure TrainRes where
  failed : Option (Fin 5)
  lanes : BitVec 8
  mfr : BitVec 8
  height : BitVec 8
  density : BitVec 8
  rev : BitVec 8
  us : BitVec 16
  deriving DecidableEq, Repr

/-- What befalls a laser module (R287). -/
inductive LaserEvent where
  | inserted (temp : BitVec 8) (mw : BitVec 16) (hours : BitVec 32)
  | removed | supplyLost | supplyGood | enabled | disabled
  | overTemp (temp : BitVec 8)
  deriving DecidableEq, Repr

/-- What training a Halene port comes to (R286, R289, R293): up, with its measured delay in CLK_MESH cycles and its neighbour, or
failed: no light, a lane, more than three closed bypasses, or a peer that is no Halene port. -/
inductive PortTrain where
  | up (delay : BitVec 12) (peer : PkgId) (peerPort : PortId)
  | noLight | lane | budget | peerKind
  deriving DecidableEq, Repr

/-- Why a port goes down (R287, R293): three milliseconds with too many replays, one flit sent eight times, a failed lane, no light,
or a laser lost. -/
inductive PortFail where
  | replays | eightTimes | lane | noLight | laser
  deriving DecidableEq, Repr

/-- A flit as received (R290, R291): its 256 bytes after correction, byte i at bits 8i and up, the granules that the guard code corrected
(syndrome and nibble of each), and whether a granule could not be corrected. -/
structure Flit where
  bytes : BitVec 2048
  corrected : List (BitVec 16 × Fin 36)
  uncorrectable : Bool
  deriving DecidableEq, Repr

/-- The header of a message (R295); `len` is its BYTES, and `id` the request that a RESP answers at its origin. -/
structure MsgHdr where
  src : PkgId
  dst : PkgId
  part : PartId
  slot : SlotId
  bed : BitVec 9
  bsq : Bool
  chan : Fin 16
  e2e : BitVec 11
  addr : BitVec 61
  len : Nat
  deriving DecidableEq, Repr

/-- What a RESP carries after its header (R296): nothing, a line's bytes, or the old value of an atomic. -/
inductive RespData where
  | none
  | line (data : BitVec 1024)
  | old (value : BitVec 64)
  deriving DecidableEq, Repr

/-- A message of the data network between packages (R295, R296): byte i of `data` is the byte at the header's address + i. -/
inductive Msg where
  | read (h : MsgHdr)
  | write (h : MsgHdr) (data : BitVec 1024)
  | atomic (h : MsgHdr) (a : Atom) (step : BitVec 32) (key : BitVec 16)
  | resp (h : MsgHdr) (id : Nat) (st : Status) (data : RespData)
  deriving DecidableEq, Repr

/-- A RESP: one that arrives for request `id` of this package, or the answer of request `id` of another package, which leaves. -/
inductive RespF where
  | arrive (h : MsgHdr) (id : Nat) (st : Status) (data : RespData)
  | leave (id : Nat)
  deriving DecidableEq, Repr

/-- A grove card (R304) with the counter of its message (R300). -/
structure Card where
  major : BitVec 8
  minor : BitVec 8
  pkg : BitVec 16
  req : BitVec 16
  flags : BitVec 8
  agree : BitVec 8
  slip : BitVec 8
  depth : BitVec 8
  portsUp : BitVec 16
  features : BitVec 64
  epoch : BitVec 64
  time : BitVec 64
  residual : BitVec 32
  charter : BitVec 32
  serial : BitVec 128
  digest : BitVec 512
  counter : BitVec 11
  deriving DecidableEq, Repr

/-- A member entry of a charter (R306); `links` holds the neighbour of port n in bytes 2n and 2n + 1. -/
structure Member where
  serial : BitVec 128
  pkg : BitVec 16
  flags : BitVec 16
  links : BitVec 256
  deriving DecidableEq, Repr

/-- A charter (R306): the author's card, its sequence, the low 32 bits of the tick at which it takes effect, and its members. -/
structure Charter where
  author : Card
  seq : BitVec 32
  effective : BitVec 32
  members : List Member
  deriving DecidableEq, Repr

/-- What an AGREE message reports (R222, R313, R371): a package not ready by the check tick of a step, with the tick P; a fallback set
late; a point saved; a point whose save failed. -/
inductive AgreeF where
  | short (step : BitVec 32) (p : BitVec 64)
  | fallback (step : BitVec 32) (group decide : BitVec 16)
  | saved (step : BitVec 32)
  | failed (step : BitVec 32)
  deriving DecidableEq, Repr

/-- A READY message (R297). -/
structure ReadyF where
  src : PkgId
  digest : BitVec 512
  tick : BitVec 64
  stepNew : BitVec 32
  stepOld : BitVec 32
  refused : Bool
  resume : Bool
  deriving DecidableEq, Repr

/-- A control message that the package floods or sends. -/
inductive Flood where
  | card (c : Card)
  | charter (c : Charter)
  | agree (part : PartId) (f : AgreeF)
  | ready (r : ReadyF)
  | diverge (digest : BitVec 512) (step : BitVec 32) (tick : BitVec 64)
  | lockAsk (src : PkgId)
  | lockNo (dst : PkgId) (cause : Fin 5)
  | lockAt (tick : BitVec 64)
  | unlock
  deriving DecidableEq, Repr

/-- A TIME exchange (R303): the two one-way times in picoseconds and the parent's residual. -/
structure TimeF where
  there : Int
  back : Int
  parent : Int
  deriving DecidableEq, Repr

/-- The header of a control message: the port it came in by, its origin and the origin's message counter (R295, R300). -/
structure CtlHdr where
  port : PortId
  src : PkgId
  counter : BitVec 11
  deriving DecidableEq, Repr

/-- A link of the grove as its author knows it: port `port` of the package with serial `a` faces the package with serial `b`, with the
delay D_port in nanoseconds. -/
structure Wire where
  a : BitVec 128
  port : PortId
  b : BitVec 128
  delay : Nat
  deriving DecidableEq, Repr

/-- A request for locked mode (R311): written here, arriving at the timekeeper, and its answers. -/
inductive LockF where
  | ask
  | asked (h : CtlHdr)
  | granted (h : CtlHdr) (tick : BitVec 64)
  | refused (h : CtlHdr) (cause : Fin 5)
  deriving DecidableEq, Repr

/-- Leaving locked mode (R311): written here, or asked by another member. -/
inductive UnlockF where
  | ask
  | asked (h : CtlHdr)
  deriving DecidableEq, Repr

/-- What a die reports of itself in training (R325, R326, R35). -/
structure DieInfo where
  kind : BitVec 4
  rev : BitVec 8
  feats : BitVec 64
  deriving DecidableEq, Repr

/-- What training a UCIe link comes to (R325): up at a rate (0 32 GT/s, 1 16 GT/s), with what the dies at its near and far end report; or
failed. -/
inductive LinkTrain where
  | up (rate : Fin 2) (near far : DieInfo)
  | failed
  deriving DecidableEq, Repr

/-- A mesh flit as received (R323): the granules corrected, whether it is sent again, and whether it could not be checked. -/
structure DFlit where
  corrected : List (BitVec 16 × Fin 36)
  again : Bool
  bad : Bool
  deriving DecidableEq, Repr

/-- Why a UCIe link is failing (R324). -/
inductive LinkFail where
  | replays | eightTimes | clock
  deriving DecidableEq, Repr

/-- Why a die is fenced (R340). -/
inductive FenceWhy where
  | command
  | reset (ordered : Bool)
  | clock
  | link
  | power
  deriving DecidableEq, Repr

/-- How far discovery of the guest die comes (R336): the straps, the step that failed, or the descriptor read with the rate of the link
(0 32 GT/s, 1 16 GT/s, 2 below). -/
inductive GuestStep where
  | bridged | empty | noRail | noTrain | noDesc
  | read (desc : BitVec 2048) (rate : Fin 3)
  deriving DecidableEq, Repr

/-- A request of the guest die (R338), within one line. -/
structure GuestF where
  id : Nat
  va : BitVec 64
  len : Nat
  write : Bool
  data : BitVec 1024
  atom : Option Atom
  deriving DecidableEq, Repr

/-- An access of one of the 96 Opsan cores that leaves the processor die (R329 to R331), within one line. `rel` tells that it is a store or
AMO with .rl, or that a FENCE whose predecessor set holds W comes before it in its core's program since the access before it; `acq` that
a FENCE whose successor set holds R does; a FENCE.TSO is both; `aq` that it is a load or AMO with .aq (R155). -/
structure OpsanF where
  id : Nat
  core : Fin 96
  rel : Bool
  acq : Bool
  aq : Bool
  pa : BitVec 56
  len : Nat
  write : Bool
  data : BitVec 1024
  atom : Option Atom
  deriving DecidableEq, Repr

/-- A DMA access of a PCIe endpoint (R334), within one line: the physical address that its device context gives, none where the context
does not permit it. -/
structure DmaF where
  id : Nat
  pa : Option (BitVec 61)
  len : Nat
  write : Bool
  data : BitVec 1024
  deriving DecidableEq, Repr

/-- The meters over one interval, in mW (R346): the twelve plots, the processor die, I/O dies A and B, the stacks and the guest site. -/
structure Meters where
  plots : List Nat
  host : Nat
  ioA : Nat
  ioB : Nat
  stks : Nat
  guest : Nat
  deriving DecidableEq, Repr

/-- The sensors of the package in °C (R362, R363): the hottest of each die slot, each stack, each bed group, and the cold plate's inlet and
outlet. -/
structure Temps where
  dies : List Nat
  stks : List Nat
  groups : List Nat
  inlet : Nat
  outlet : Nat
  deriving DecidableEq, Repr

/-- A copy of the identity record as boot reads it (R36, R37): bytes 0x000 to 0x29F, and whether its signature is valid under the vendor
identity key. -/
structure IdCopy where
  body : BitVec 5376
  sig : BitVec 22560
  sigOk : Bool
  deriving DecidableEq, Repr

/-- What keys and flash parts decide of an image (R413, R415): whether SHAKE256 of PUBKEY equals the ROM digest of KEY_INDEX, whether
SIGNATURE is valid under PUBKEY, and whether what is written to the flash reads back. -/
structure ImgIn where
  keyOk : Bool
  sigOk : Bool
  flashOk : Bool
  deriving DecidableEq, Repr

/-- What boot finds: both copies of the identity record, whether the attestation seeds open (R422), and what decides of the image of the
slot that is chosen. -/
structure BootIn where
  a : IdCopy
  b : IdCopy
  keyOpen : Bool
  img : ImgIn
  deriving DecidableEq, Repr

/-- A correction as a unit reports it (R389 to R394): of a site with its die slot, unit, address, syndrome and corrected nibble; or a parity
error in a block of the instruction buffer of a core (R390). -/
inductive CeF where
  | unit (site : Fin 8) (slot : SlotId) (unit : BitVec 16) (addr : BitVec 52) (synd : BitVec 16) (nib : Fin 36)
  | ib (c : CoreId) (block : Nat)
  deriving DecidableEq, Repr

/-- An uncorrectable error that is met (R138, R390, R395, R397): in a granule of stacked DRAM or of a scratchpad that an operation needs,
in a register, grid bank or tile flag that a core reads, in a merging-buffer entry, in a line that a bed holds, in a line that an Opsan core
reads or evicts, or in the memories of the management controller. -/
inductive UeF where
  | dram (pa : BitVec 52) (who : Who)
  | spad (c : CoreId) (gran : BitVec 11)
  | parity (c : CoreId)
  | merge (b : BedId) (id : Nat)
  | line (b : BedId) (pa : BitVec 61)
  | hostRead (id : Nat) (pa : BitVec 52)
  | hostEvict (pa : BitVec 52)
  | mgt (ci : Fin 4)
  deriving DecidableEq, Repr

/-- A restart of the management controller (R400): it begins, by the check that failed (R425: 1 heartbeat, 2 loop deadline, 3 second
computation, 4 code integrity, 5 memory, 6 watchdog), or ends. -/
inductive RestartF where
  | begins (check : Fin 7)
  | ends
  deriving DecidableEq, Repr

/-- An access to the CSR window: one under way in the package, by its number, or one given whole, at a local address. -/
inductive CsrIn where
  | under (id : Nat)
  | direct (id : Nat) (addr : BitVec 52) (len : Nat) (data : BitVec 1024) (who : Who)
  deriving DecidableEq, Repr

/-- What the I3C target does with an in-band interrupt (R438): it raises one that waits again, or the board controller acknowledges one. -/
inductive IbiF where
  | again
  | acknowledged (byte : BitVec 8)
  deriving DecidableEq, Repr

/-- One constructor per row of the table. -/
inductive Instr where
  /-- REGISTER_WRITE (R7). A write to a register that has no row of its own sets RW fields, clears W1C bits, sets W1S bits and clamps out-of-range values. -/
  | registerWrite (x : CsrIn)
  /-- REGISTER_READ_CLEAR (R7). A read of an RC field returns its value and clears it to reset, with a same-cycle hardware event taking effect after the clear. -/
  | registerReadClear (x : CsrIn)
  /-- DIE_FENCE (R341). An orderly fence command, a clock loss, an unordered reset, a failing link or guest over-power fences a plot or the guest die; traffic is held, the die is marked FENCED, new routes are written and the held traffic is released. -/
  | dieFence (d : SlotId) (why : FenceWhy)
  /-- FENCE_RETURN (R342). A D2D_FENCE_CMD RETURN resets and retrains a fenced plot, restores its configuration and routes, or repeats guest discovery from step 2. -/
  | fenceReturn (d : SlotId)
  /-- BG_OWNER_WRITE (R29). A write to MGT_BG_OWNER changes a bed group's owner when the group is idle, and otherwise is ignored and recorded in MGT_PART_ERR. -/
  | bgOwnerWrite (g : BgId) (v : BitVec 32)
  /-- NOP (R81). A bundle slot holding opcode 0, or a reserved opcode, issues nothing. -/
  | nop (c : CoreId) (slot : Slot)
  /-- ORDER (R43). A grid-slot ORDER is taken as the grid's pending order, or is discarded with DROPPED set when an order is already pending. -/
  | order (c : CoreId) (o : OrderF)
  /-- GRID_PRESENT_START (R43). A pending order begins presentation at S = max(I + 4, S_prev + P_prev), padded to the drain length. -/
  | gridPresentStart (c : CoreId)
  /-- GRID_DRAIN (R45). After presentation ends, each cell snapshots and rounds its bank, the rows are written to the scratchpad and the tile flag rises. -/
  | gridDrain (c : CoreId)
  /-- VADD (R85). Lane-wise vector add. -/
  | vadd (c : CoreId) (a : VecA)
  /-- VSUB (R85). Lane-wise vector subtract. -/
  | vsub (c : CoreId) (a : VecA)
  /-- VMUL (R85). Lane-wise vector multiply. -/
  | vmul (c : CoreId) (a : VecA)
  /-- VFMA (R85). Lane-wise fused multiply-add with a single rounding. -/
  | vfma (c : CoreId) (a : VecA)
  /-- VMIN (R85). Lane-wise minimum, which ignores a single NaN operand. -/
  | vmin (c : CoreId) (a : VecA)
  /-- VMAX (R85). Lane-wise maximum, which ignores a single NaN operand. -/
  | vmax (c : CoreId) (a : VecA)
  /-- VABS (R90). Lane-wise absolute value. -/
  | vabs (c : CoreId) (a : VecA)
  /-- VNEG (R90). Lane-wise negation. -/
  | vneg (c : CoreId) (a : VecA)
  /-- VCMPLT (R90). Sets a mask bit for each lane where vs1 < vs2. -/
  | vcmplt (c : CoreId) (a : VecA)
  /-- VCMPLE (R90). Sets a mask bit for each lane where vs1 <= vs2. -/
  | vcmple (c : CoreId) (a : VecA)
  /-- VCMPEQ (R90). Sets a mask bit for each lane where vs1 = vs2. -/
  | vcmpeq (c : CoreId) (a : VecA)
  /-- VSEL (R90). Selects each lane from vs1 or vs2 by the mask. -/
  | vsel (c : CoreId) (a : VecA)
  /-- VAND (R90). Bitwise AND of two vector registers. -/
  | vand (c : CoreId) (a : VecA)
  /-- VOR (R90). Bitwise OR of two vector registers. -/
  | vor (c : CoreId) (a : VecA)
  /-- VXOR (R90). Bitwise XOR of two vector registers. -/
  | vxor (c : CoreId) (a : VecA)
  /-- VCVT (R90). Converts lanes between vector types, narrowing or widening into one part, with saturating integer conversion. -/
  | vcvt (c : CoreId) (a : VecA)
  /-- VEXP2 (R86). Correctly rounded 2^x per lane. -/
  | vexp2 (c : CoreId) (a : VecA)
  /-- VLOG2 (R86). Correctly rounded log2 x per lane. -/
  | vlog2 (c : CoreId) (a : VecA)
  /-- VRCP (R86). Correctly rounded reciprocal per lane. -/
  | vrcp (c : CoreId) (a : VecA)
  /-- VRSQRT (R86). Correctly rounded reciprocal square root per lane. -/
  | vrsqrt (c : CoreId) (a : VecA)
  /-- VSQRT (R86). Correctly rounded square root per lane. -/
  | vsqrt (c : CoreId) (a : VecA)
  /-- VTANH (R86). Correctly rounded tanh per lane. -/
  | vtanh (c : CoreId) (a : VecA)
  /-- VRED (R87). Segment reduction by a fixed pairwise tree. -/
  | vred (c : CoreId) (a : VecA)
  /-- VHALF (R87). Half fold that combines lane j with lane j + N/2. -/
  | vhalf (c : CoreId) (a : VecA)
  /-- VPERM (R90). Permutes the lanes of vs1 by the byte indices in vs2. -/
  | vperm (c : CoreId) (a : VecA)
  /-- VADD128 (R88). Adds four 128-bit integers per register, with optional saturation and a sticky RAW128 NaN. -/
  | vadd128 (c : CoreId) (a : VecA)
  /-- VLD (R89). Loads 1 to 4 scratchpad granules into a vector register, or is discarded when the vector memory port is busy. -/
  | vld (c : CoreId) (m : VecM)
  /-- VST (R89). Stores 1 to 4 register granules to the scratchpad at I + 2, with masked lanes kept. -/
  | vst (c : CoreId) (m : VecM)
  /-- VGATHER (R89). Gathers 16 32-bit lanes from computed scratchpad addresses, one lane per cycle. -/
  | vgather (c : CoreId) (m : VecM)
  /-- VSCATTER (R89). Scatters 16 32-bit lanes to computed scratchpad addresses, the higher lane winning on a collision. -/
  | vscatter (c : CoreId) (m : VecM)
  /-- VBCASTI (R90). Broadcasts the immediate to every lane. -/
  | vbcasti (c : CoreId) (v : VecI)
  /-- VFROMX (R90). Broadcasts a scalar register to every lane. -/
  | vfromx (c : CoreId) (v : VecX)
  /-- VTOX (R90). Moves one vector lane into a scalar register. -/
  | vtox (c : CoreId) (v : VecX)
  /-- ADD (R91). Scalar add. -/
  | add (c : CoreId) (r : ScR)
  /-- SUB (R91). Scalar subtract. -/
  | sub (c : CoreId) (r : ScR)
  /-- AND (R91). Scalar AND. -/
  | and (c : CoreId) (r : ScR)
  /-- OR (R91). Scalar OR. -/
  | or (c : CoreId) (r : ScR)
  /-- XOR (R91). Scalar XOR. -/
  | xor (c : CoreId) (r : ScR)
  /-- SLL (R91). Scalar shift left logical. -/
  | sll (c : CoreId) (r : ScR)
  /-- SRL (R91). Scalar shift right logical. -/
  | srl (c : CoreId) (r : ScR)
  /-- SRA (R91). Scalar shift right arithmetic. -/
  | sra (c : CoreId) (r : ScR)
  /-- MUL (R91). Low 64 bits of a scalar product. -/
  | mul (c : CoreId) (r : ScR)
  /-- MULHU (R91). High 64 bits of an unsigned scalar product. -/
  | mulhu (c : CoreId) (r : ScR)
  /-- MIN (R91). Signed scalar minimum. -/
  | min (c : CoreId) (r : ScR)
  /-- MAX (R91). Signed scalar maximum. -/
  | max (c : CoreId) (r : ScR)
  /-- MINU (R91). Unsigned scalar minimum. -/
  | minu (c : CoreId) (r : ScR)
  /-- MAXU (R91). Unsigned scalar maximum. -/
  | maxu (c : CoreId) (r : ScR)
  /-- SLT (R91). Signed set-less-than. -/
  | slt (c : CoreId) (r : ScR)
  /-- SLTU (R91). Unsigned set-less-than. -/
  | sltu (c : CoreId) (r : ScR)
  /-- SEL (R91). Selects xs1 or xs2 by whether x[XD] is nonzero. -/
  | sel (c : CoreId) (r : ScR)
  /-- ADDI (R91). Scalar add of an immediate. -/
  | addi (c : CoreId) (r : ScI)
  /-- ANDI (R91). Scalar AND with an immediate. -/
  | andi (c : CoreId) (r : ScI)
  /-- ORI (R91). Scalar OR with an immediate. -/
  | ori (c : CoreId) (r : ScI)
  /-- XORI (R91). Scalar XOR with an immediate. -/
  | xori (c : CoreId) (r : ScI)
  /-- SLLI (R91). Shift left logical by an immediate. -/
  | slli (c : CoreId) (r : ScI)
  /-- SRLI (R91). Shift right logical by an immediate. -/
  | srli (c : CoreId) (r : ScI)
  /-- SRAI (R91). Shift right arithmetic by an immediate. -/
  | srai (c : CoreId) (r : ScI)
  /-- LUI (R91). Loads a sign-extended immediate shifted left by 24. -/
  | lui (c : CoreId) (r : ScI)
  /-- CSRR (R91). Reads a 64-bit word of the core's CORE_ block into a scalar register. -/
  | csrr (c : CoreId) (r : ScI)
  /-- LDX (R92). 64-bit scalar load from the scratchpad. -/
  | ldx (c : CoreId) (xd xbase : BitVec 5) (off : BitVec 15)
  /-- STX (R92). 64-bit scalar store to the scratchpad. -/
  | stx (c : CoreId) (xs xbase : BitVec 5) (off : BitVec 15)
  /-- COPY (R92). Copies 1 to 64 granules within the scratchpad, optionally raising a tile flag. -/
  | copy (c : CoreId) (m : MoveF)
  /-- FILL (R92). Writes 1 to 64 zero granules, optionally raising a tile flag. -/
  | fill (c : CoreId) (m : MoveF)
  /-- CSRW (R92). Writes a scalar register to a word of the core's own CSR page. -/
  | csrw (c : CoreId) (xs : BitVec 5) (off : BitVec 12)
  /-- WAITF (R93). The bundle waits until a tile flag is at least 1, then issues and decrements the flag unless KEEP is set. -/
  | waitf (c : CoreId) (flag : BitVec 5) (keep : Bool)
  /-- POST (R93). Releases at BED scope and adds 1 to a tile flag of a core of the same bed at I + 3. -/
  | post (c : CoreId) (target : BitVec 6) (flag : BitVec 5)
  /-- SYNC (R95). The core arrives and waits at a bed, partition or grove sync point. -/
  | sync (c : CoreId) (level : BitVec 2)
  /-- SYNC_RELEASE (R95). Once every covered core has arrived, the sync point releases, which ends a step, counts CORE_STEP and performs release and acquire. -/
  | syncRelease (scope : SyncScope)
  /-- SKIP (R97). The core issues no bundle for the next N + 1 cycles. -/
  | skip (c : CoreId) (n : BitVec 12)
  /-- LOOP (R97). Repeats the next LEN + 1 bundles a counted number of times, up to two deep. -/
  | loop (c : CoreId) (l : LoopF)
  /-- KICK (R209). Arms a barrow program of the bed, or is discarded when 64 programs are armed. -/
  | kick (c : CoreId) (program : BitVec 12)
  /-- PHASE (R98). Sets the core's phase tag, and a change of bed phase is reported to the plot supervisor. -/
  | phase (c : CoreId) (tag : BitVec 8)
  /-- HALT (R97). Ends the core's stream and closes any open loops. -/
  | halt (c : CoreId)
  /-- CORE_FINISH (R99). When a core has halted and all its operations have completed, it has finished, and a finished bed reports complete to its plot supervisor. -/
  | coreFinish (c : CoreId)
  /-- IB_REFILL (R100). The bed sequencer fetches a 32-bundle block of a stream through the bed cache ahead of issue. -/
  | ibRefill (b : BedId) (stream : Nat) (block : Nat)
  /-- IB_REFILL_RETURN (R102). Returned bundle lines fill the instruction buffers, or a failed refill ends the launch with PAGE_FAULT, DATA_LOST or DIE_ABSENT. -/
  | ibRefillReturn (b : BedId) (stream : Nat) (block : Nat) (line : Fin 8) (parity : Bool)
  /-- SPAD_OUTSIDE_ACCESS (R118). A barrow or window request reaches a scratchpad, is checked for partition and region, and waits for its bank grant. -/
  | spadOutsideAccess (c : CoreId) (x : SpadIn)
  /-- SPAD_OUTSIDE_GRANT (R112). A waiting outside access is granted its bank and reads or writes its 64-byte block. -/
  | spadOutsideGrant (c : CoreId) (bank : Fin 16)
  /-- SPAD_ALIAS_WRITE (R122). A bit-set or bit-clear write performs a read-modify-write at the bank, reading again if an intervening write touched it. -/
  | spadAliasWrite (c : CoreId) (bank : Fin 16)
  /-- SPAD_ATOMIC (R161). A scratchpad-window atomic of AOP 0x1 to 0xA is performed as a bank read-modify-write. -/
  | spadAtomic (c : CoreId) (id : Nat) (off : BitVec 15) (a : Option Atom) (w : Who)
  /-- BG_RETENTION_ENTER (R124). On order, a bed group drains its merging buffers, empties its bed caches and lowers its scratchpad arrays to 0.45 V. -/
  | bgRetentionEnter (g : BgId)
  /-- BG_WAKE (R124). A WAKE order starts raising the array supply of a retained bed group. -/
  | bgWake (g : BgId)
  /-- BG_WAKE_DONE (R124). Fifty ticks after the WAKE order, the bed group is ON with an empty bed cache. -/
  | bgWakeDone (g : BgId)
  /-- BEDC_LOOKUP (R127). The bed cache looks up a line in the cache, side buffer, victim cache and merging buffer, and delivers it or sends a fill. -/
  | bedcLookup (b : BedId) (id : Nat) (pa : BitVec 61) (f : LookF)
  /-- BEDC_FILL_RETURN (R128). Fill granules arrive with early restart to the waiters, and the line is installed on its last granule. -/
  | bedcFillReturn (b : BedId) (id : Nat)
  /-- BEDC_PREFETCH (R130). A prefetched line enters the side buffer, or is dropped. -/
  | bedcPrefetch (b : BedId) (pa : BitVec 61) (pol : Policy)
  /-- MERGE_WRITE (R132). A DRAM write enters the merging buffer, merging into an entry or taking a new one, or waiting when the buffer is full. -/
  | mergeWrite (b : BedId) (w : BedWrite)
  /-- MERGE_IDLE_EXPIRY (R133). An entry not written for MERGE_IDLE cycles drains. -/
  | mergeIdleExpiry (b : BedId)
  /-- MERGE_ACK (R133). The acknowledgement of a drained entry frees it. -/
  | mergeAck (b : BedId) (id : Nat)
  /-- INV_SHARED (R140). BEDC_CMD INV_SHARED flash-invalidates the SHARED lines. -/
  | invShared (b : BedId)
  /-- INV_ALL (R140). BEDC_CMD INV_ALL invalidates every line and resets every pseudo-LRU tree. -/
  | invAll (b : BedId)
  /-- DRAIN (R140). BEDC_CMD DRAIN drains every merging-buffer entry. -/
  | drain (b : BedId)
  /-- DRAM_REQUEST (R177). A request reaches a stack controller, is admitted by region, partition and regulator, and is queued; a write is performed at acceptance. -/
  | dramRequest (a : Arrival)
  /-- DRAM_ATOMIC (R161). An atomic is performed as an indivisible read-modify-write at its home stack controller. -/
  | dramAtomic (a : Arrival)
  /-- BISNP (R332). A processor fill into a full snoop-filter set back-invalidates the least recently filled entry. -/
  | bisnp (pa : BitVec 52) (owned : Bool) (dirty : Option (BitVec 512))
  /-- DRAM_WRITE_ACK (R181). A write is acknowledged once its command and data have gone out on the stack interface. -/
  | dramWriteAck (id : Nat)
  /-- DRAM_READ_RETURN (R182). A pseudo-channel serves a queued read and returns its data. -/
  | dramReadReturn (id : Nat)
  /-- OADD_ACCEPT (R165). In locked mode, a floating-point add is held in the ordered-add buffer with its step and key and acknowledged with zero, or waits when the buffer is full. -/
  | oaddAccept (a : Arrival)
  /-- STK_REGION_WRITE (R176). A region-table write is clamped, checked and applied to every copy, or ignored with a status bit set. -/
  | stkRegionWrite (i : Fin 64) (v : BitVec 64)
  /-- REGION_INVALID_DONE (R176). Once every accepted access to a region being invalidated is acknowledged, VALID clears in every copy. -/
  | regionInvalidDone (i : Fin 64)
  /-- CLEAR_FAULT (R193). STK_REGION_CMD CLEAR_FAULT clears FAULTED of a region whose stacks all serve. -/
  | clearFault (i : Fin 64)
  /-- REGULATOR_PERIOD (R185). Every 10 ns each regulator adds RATE/16 tokens up to BURST, and waiting requests are admitted or borrow idle bandwidth. -/
  | regulatorPeriod (st : StackId)
  /-- REFRESH_DUE (R188). A per-bank refresh or refresh-management command falls due and is scheduled. -/
  | refreshDue (st : StackId)
  /-- PATROL_READ (R189). Patrol scrub reads a granule in an idle slot, writes back a corrected one and records an uncorrectable one. -/
  | patrolRead (st : StackId)
  /-- CE_WRITEBACK (R391). A queued write-back of a corrected DRAM granule issues, unless a newer write was accepted first. -/
  | ceWriteback (st : StackId)
  /-- STACK_TRAIN (R190). A plot's controllers train both near stacks through supply, identity, calibration and data training, or mark a stack FAILED. -/
  | stackTrain (p : PlotId) (a b : TrainRes)
  /-- STACK_RECALIBRATE (R190). Every 128 ms the controller recalibrates impedance, stalling each pseudo-channel briefly. -/
  | stackRecalibrate (st : StackId)
  /-- SELF_REFRESH_ENTRY (R192). A stack enters self-refresh on order or when its base die sees no command clock for 100 ns, completing the writes it has received. -/
  | selfRefreshEntry (st : StackId) (ordered : Bool)
  /-- PROGRAM_START (R210). An armed barrow program starts when fewer than 16 run, reading its table entry and moves. -/
  | programStart (b : BedId)
  /-- MOVE_ISSUE (R210). The barrow issues one line request per cycle for a running move, within the outstanding limit. -/
  | moveIssue (b : BedId)
  /-- MOVE_NOP (R212). A NOP move completes at once and raises its flag if RAISE is set. -/
  | moveNop (b : BedId) (prog idx : Nat)
  /-- MOVE_LOAD (R212). Loads tiles from any tier into T0 form in the placed cores. -/
  | moveLoad (b : BedId) (prog idx : Nat)
  /-- MOVE_STORE (R212). Splits a T0 run into tiles and writes them to DRAM with computed headers. -/
  | moveStore (b : BedId) (prog idx : Nat)
  /-- MOVE_TCOPY (R212). Copies tiles within DRAM with a transpose applied. -/
  | moveTcopy (b : BedId) (prog idx : Nat)
  /-- MOVE_COPY (R212). Copies LEN bytes unchanged. -/
  | moveCopy (b : BedId) (prog idx : Nat)
  /-- MOVE_ATOMIC (R215). Applies the attribute AOP to each element of LEN bytes, using the step and key for ordered adds. -/
  | moveAtomic (b : BedId) (prog idx : Nat)
  /-- MOVE_PREFETCH (R212). Prefetches LEN bytes of lines into the side buffer. -/
  | movePrefetch (b : BedId) (prog idx : Nat)
  /-- MOVE_FETCH4 (R216). Writes a storage request to the storage queue and waits for the host's done write. -/
  | moveFetch4 (b : BedId) (prog idx : Nat)
  /-- T4_DONE (R217). A write to BRW_T4_DONE acquires at GROVE scope and completes the tagged FETCH4, or fails it on ERROR. -/
  | t4Done (b : BedId) (tag : Fin 16) (error : Bool)
  /-- MOVE_COMPLETE (R214). After the last write of a move is performed, its flag rises, and lateness against DUE is counted. -/
  | moveComplete (b : BedId) (prog idx : Nat)
  /-- MOVE_ERROR (R228). A move that cannot be performed stops, raises no flag and ends its launch with its status. -/
  | moveError (b : BedId) (prog idx : Nat)
  /-- FB_DECIDE (R222). At the decision tick, a move whose primary is not fully performed reports its fallback set late. -/
  | fbDecide (p : PartId) (group decide : BitVec 16)
  /-- FB_AGREE (R223). At the agreement tick, the set takes its fallback if any move reported late, otherwise primary flags may rise. -/
  | fbAgree (p : PartId) (group decide : BitVec 16)
  /-- XLT_WALK (R234). A translation miss at every level starts an IOMMU walk of the context's tables. -/
  | xltWalk (x : XltReq)
  /-- XLT_FILL_RETURN (R244). A completed walk fills the caches it passed through, or is discarded when an invalidation overtook it. -/
  | xltFillReturn (id : Nat)
  /-- FAULT_RECORD_OPEN (R246). A faulting request joins an open record for its page or opens a new one, and waits. -/
  | faultRecordOpen (x : XltReq) (cause : Fin 8)
  /-- FQ_HEAD_WRITE (R248). Software advancing XLT_FQ_HEAD frees entries and lets held records be written. -/
  | fqHeadWrite (v : BitVec 16)
  /-- FAULT_TIMEOUT (R250). A record open longer than TIMEOUT_MS closes as if answered with FAIL. -/
  | faultTimeout (slot : Fin 256)
  /-- XINVAL_PAGE (R241). XINVAL PAGE removes cached translations of one page of a context. -/
  | xinvalPage (f : XInvF)
  /-- XINVAL_RANGE (R241). XINVAL RANGE removes cached translations of a range of pages of a context. -/
  | xinvalRange (f : XInvF)
  /-- XINVAL_CONTEXT (R241). XINVAL CONTEXT removes every cached translation of a context. -/
  | xinvalContext (f : XInvF)
  /-- XINVAL_ALL (R241). XINVAL ALL removes every cached translation of every context. -/
  | xinvalAll (f : XInvF)
  /-- XINVAL_DRAINED (R242). A receiver reports drained once its old-generation transfer count reaches zero. -/
  | xinvalDrained (id : Nat) (recv : Fin 4802)
  /-- XINVAL_COMPLETE (R243). When all receivers have drained, the IOMMU advances the epoch, writes the epoch word with release and completes waiting IOFENCEs. -/
  | xinvalComplete (id : Nat)
  /-- XRESP_RETRY (R249). XRESP RETRY closes a record and lets every waiting requester walk again. -/
  | xrespRetry (id : BitVec 16)
  /-- XRESP_FAIL (R249). XRESP FAIL closes a record and completes every waiting request with PAGE_FAULT. -/
  | xrespFail (id : BitVec 16)
  /-- CTX_DISABLE (R244). Clearing XLT_CTX_ROOT EN acts as an XINVAL CONTEXT without an epoch. -/
  | ctxDisable (i : CtxId)
  /-- CMD_DB_TAIL (R256). A doorbell TAIL write is clamped, acquires at GROVE scope and makes new descriptors fetchable. -/
  | cmdDbTail (ring : RingId) (v : BitVec 32) (who : Who)
  /-- CMD_DB_CQ_HEAD (R256). A CQ_HEAD write is clamped between its current value and CQ_TAIL. -/
  | cmdDbCqHead (ring : RingId) (v : BitVec 32) (who : Who)
  /-- CMD_DB_HEAD (R258). The host's HEAD write on a storage queue is clamped and frees request slots. -/
  | cmdDbHead (ring : RingId) (v : BitVec 32) (who : Who)
  /-- RING_CFG_WRITE (R282). A CMD_RING_CFG write that sets EN zeroes the indices, and one that clears EN stops fetching. -/
  | ringCfgWrite (ring : RingId) (v : BitVec 32)
  /-- DESC_FETCH (R263). The front end fetches one descriptor per cycle round-robin over rings, which starts it unless it is held. -/
  | descFetch
  /-- DESC_NOP (R263). A NOP descriptor completes with status OK when it starts. -/
  | descNop (ring : RingId) (idx : BitVec 32)
  /-- LAUNCH (R266). A LAUNCH waits until its partition is free, then checks partition, grove, storage queue and image header before it starts. -/
  | launch (ring : RingId) (idx : BitVec 32)
  /-- LAUNCH_STOP (R268). A launch that stops early is ordered to stop at every bed, and its cores and barrows quiesce and drain. -/
  | launchStop (p : PartId)
  /-- LAUNCH_DRAINED (R268). When the last bed has drained, held adds are applied, bed groups become idle and the end is recorded. -/
  | launchDrained (p : PartId)
  /-- MOVE (R269). A MOVE descriptor arms a program on a named bed and completes when the program ends. -/
  | move (ring : RingId) (idx : BitVec 32)
  /-- FENCE (R270). Waits for the ring's earlier descriptors, then releases and acquires at SCOPE. -/
  | fence (ring : RingId) (idx : BitVec 32)
  /-- SIGNAL (R270). Performs a write or atomic with release at SCOPE. -/
  | signal (ring : RingId) (idx : BitVec 32)
  /-- WAIT (R270). Reads a location and compares it under mask and condition, completing with acquire when satisfied. -/
  | wait (ring : RingId) (idx : BitVec 32)
  /-- WAIT_POLL (R270). Every POLL_TICKS ticks an unsatisfied WAIT reads its location again. -/
  | waitPoll (ring : RingId) (idx : BitVec 32)
  /-- CONFIG_STAGE (R277). Appends a list of shelvable register writes to a shelf entry, or refuses the whole list. -/
  | configStage (ring : RingId) (idx : BitVec 32)
  /-- CONFIG_COMMIT (R278). Commits a shelf entry and sends each write to its participant for a vote. -/
  | configCommit (ring : RingId) (idx : BitVec 32)
  /-- SHELF_PARTICIPANT_REPORT (R278). A participant checks its writes, reports ready or unable, and holds back conflicting writes and launches. -/
  | shelfParticipantReport (e : Fin 16) (q : Fin 13)
  /-- SHELF_VOTE_CLOSE (R279). At the SYNC ending the step before TARGET_STEP, the vote closes and carries APPLY or ABANDON. -/
  | shelfVoteClose (e : Fin 16)
  /-- QUIESCE (R376). Waits for the next quiesce point and completes there, holding the launch when HOLD is 1. -/
  | quiesce (ring : RingId) (idx : BitVec 32)
  /-- DORMANT_RETENTION (R377). At a committed quiesce point, puts the partition's bed groups into RETENTION. -/
  | dormantRetention (ring : RingId) (idx : BitVec 32)
  /-- DORMANT_IMAGE (R378). At a quiesce point, writes a dormancy image to DEST and ends the launch. -/
  | dormantImage (ring : RingId) (idx : BitVec 32)
  /-- WAKE_RETENTION (R377). Wakes retained bed groups, restores header and state blocks and releases the SYNC. -/
  | wakeRetention (ring : RingId) (idx : BitVec 32)
  /-- WAKE_IMAGE (R379). Checks a dormancy image and resumes it as a launch on the partition's beds. -/
  | wakeImage (ring : RingId) (idx : BitVec 32)
  /-- WAKE_HOLD (R376). Releases a QUIESCE hold at the next tick, or resumes a rolled-back partition as a launch. -/
  | wakeHold (ring : RingId) (idx : BitVec 32)
  /-- DESC_WAIT_PARTITION_READY (R452). A QUIESCE, DORMANT or WAKE waiting on a transitional partition acts once the condition ends. -/
  | descWaitPartitionReady (ring : RingId) (idx : BitVec 32)
  /-- ABORT (R273). An ABORT is checked for authority and waits until its target has been fetched. -/
  | abort (ring : RingId) (idx : BitVec 32)
  /-- ABORT_RESOLVE (R274). The target ring's arbiter takes the abort and ends the target, or reports TOO_LATE. -/
  | abortResolve (ring : RingId)
  /-- COMMIT_REPORT (R272). The arbiter takes a report that commits a descriptor, ahead of an abort arriving in the same cycle. -/
  | commitReport (ring : RingId)
  /-- COMPLETION_RECORD (R260). Once its effects are performed, a descriptor's record is written at CQ_TAIL with release and an interrupt is signalled as configured. -/
  | completionRecord (ring : RingId)
  /-- IRQ_SIGNAL (R335). A source signals an interrupt identity and the bridge writes the mapped MSI, or sets PENDING. -/
  | irqSignal (iid : Fin 2048)
  /-- IRQ_MAP_WRITE (R335). Setting EN of a D2D_IRQ_MAP entry delivers a pending signal and clears PENDING. -/
  | irqMapWrite (i : Fin 2048) (v : BitVec 32)
  /-- LASER_EVENT (R287). A laser module is inserted, removed, loses supply, is enabled or disabled, or overheats, and its four ports go down or train. -/
  | laserEvent (m : Fin 4) (e : LaserEvent)
  /-- BYPASS_CLOSE (R288). HAL_BYPASS CLOSE closes a bypass pair. -/
  | bypassClose (k : Fin 8)
  /-- BYPASS_OPEN (R288). HAL_BYPASS OPEN opens a bypass pair when auxiliary power is present and reset is released. -/
  | bypassOpen (k : Fin 8)
  /-- BYPASS_SWITCH_DONE (R288). A switching bypass pair settles, and the crossing links retrain. -/
  | bypassSwitchDone (k : Fin 8)
  /-- PORT_TRAIN (R293). A Halene port trains through light, lock, alignment, delay measurement and card exchange to UP. -/
  | portTrain (n : PortId) (r : PortTrain)
  /-- PORT_DOWN (R293). A port with excess replays, a failed lane or a lost laser goes DOWN or RETIRED and its groups shrink. -/
  | portDown (n : PortId) (why : PortFail)
  /-- RETRAIN (R319). HAL_PORT_CFG RETRAIN takes a port down and retrains it. -/
  | retrain (n : PortId)
  /-- CLEAR_RETIRED (R319). HAL_PORT_CFG CLEAR_RETIRED returns a RETIRED port to DOWN and retrains it. -/
  | clearRetired (n : PortId)
  /-- FLIT_RECEIVE (R291). A flit is corrected and checked, then delivered at fixed delay or discarded with a NAK. -/
  | flitReceive (n : PortId) (f : Flit)
  /-- FLIT_REPLAY (R291). On NAK, the sender resends from the first unacknowledged flit out of its replay buffer. -/
  | flitReplay (n : PortId) (start : BitVec 12) (count : Nat)
  /-- MSG_READ (R316). A READ message is forwarded, or is served at the destination with its admission checks. -/
  | msgRead (n : PortId) (h : MsgHdr)
  /-- MSG_WRITE (R316). A WRITE message is forwarded, or is performed at the destination. -/
  | msgWrite (n : PortId) (h : MsgHdr) (data : BitVec 1024)
  /-- MSG_ATOMIC (R317). An ATOMIC message carrying its step and key is performed or ordered at its home. -/
  | msgAtomic (n : PortId) (h : MsgHdr) (a : Atom) (step : BitVec 32) (key : BitVec 16)
  /-- MSG_RESP (R295). A RESP message returns the status and data of a remote request. -/
  | msgResp (n : PortId) (f : RespF)
  /-- E2E_ACK (R299). A cumulative acknowledgement frees held messages for a destination and channel. -/
  | e2eAck (src : PkgId) (chan : Fin 16) (seq : BitVec 11)
  /-- E2E_REISSUE (R299). Messages unacknowledged for 10 µs, or held across a route change, are reissued in order. -/
  | e2eReissue (dst : PkgId) (chan : Fin 16)
  /-- CARD (R304). A received grove card is flooded onward and compared against the grove. -/
  | card (n : PortId) (c : Card)
  /-- CARD_SEND (R304). Every 1 ms a package sends its grove card on every UP port. -/
  | cardSend
  /-- CHARTER (R306). A received charter message is recorded for adoption at EFFECTIVE. -/
  | charter (h : CtlHdr) (c : Charter)
  /-- CHARTER_ISSUE (R305). After 20 ms with no new card, the author numbers the packages and floods a charter. -/
  | charterIssue (ws : List Wire)
  /-- CHARTER_EFFECTIVE (R306). At EFFECTIVE, members adopt the charter and its routes, A and slip. -/
  | charterEffective
  /-- TIME (R303). A TIME exchange every 1 ms measures and steers the offset to the timing parent. -/
  | time (t : TimeF)
  /-- AGREE (R313). An AGREE message carries a SHORT, fallback, SAVED or FAILED report for a step. -/
  | agree (h : CtlHdr) (p : PartId) (f : AgreeF)
  /-- READY (R310). A READY message for a grove launch is recorded, fixing step 0 or ending the launch on REFUSED. -/
  | ready (h : CtlHdr) (r : ReadyF)
  /-- READY_TIMEOUT (R310). A span member that sends no READY in time ends the grove launch with GROVE_EXCLUDED. -/
  | readyTimeout (p : PartId)
  /-- DIVERGE (R314). A DIVERGE message ends the grove launch with DATA_LOST and rolls back its locked partitions. -/
  | diverge (h : CtlHdr) (digest : BitVec 512) (step : BitVec 32) (tick : BitVec 64)
  /-- MEMBER_LOST (R309). A member whose cards stop for 10 ms is removed, the epoch advances and its grove launches end. -/
  | memberLost (q : PkgId)
  /-- JOIN (R305). HAL_GROVE_CMD JOIN forms or joins a grove. -/
  | join
  /-- LEAVE (R309). HAL_GROVE_CMD LEAVE removes the package from the grove. -/
  | leave
  /-- LOCK (R311). HAL_GROVE_CMD LOCK requests locked mode from the timekeeper, which grants it or sets LOCK_REFUSED. -/
  | lock (f : LockF)
  /-- LOCK_ENTRY (R311). On the flooded entry tick, every member becomes LOCKED. -/
  | lockEntry
  /-- UNLOCK (R311). HAL_GROVE_CMD UNLOCK leaves locked mode at the first tick with no locked grove launch. -/
  | unlock (f : UnlockF)
  /-- ADOPT (R309). HAL_GROVE_CMD ADOPT makes a STALE member take the grove's epoch. -/
  | adopt
  /-- LOCK_CHECK_TICK (R313). At the check tick, a package that is not ready for the step end floods SHORT. -/
  | lockCheckTick (p : PartId)
  /-- LOCK_STEP_TICK (R313). At tick P, the step slips by sigma if a SHORT was seen, or else the next step starts. -/
  | lockStepTick (p : PartId)
  /-- EXT_TIME_CHANGE (R435). TK_10M or TK_PPS becomes present or absent after its qualifying time, and the timekeeper source changes. -/
  | extTimeChange (pps present : Bool)
  /-- LINK_TRAIN (R325). A UCIe link trains through sideband, parameters and mainband, and reports the die's features. -/
  | linkTrain (d : SlotId) (l : Fin 4) (r : LinkTrain)
  /-- D2D_FLIT_RECEIVE (R323). A mesh flit is corrected and checked, or discarded with a replay from the sender. -/
  | d2dFlitReceive (d : SlotId) (l : Fin 4) (f : DFlit)
  /-- LINK_FAILING (R324). A link that exceeds its replay limit or loses clock is failing and fences the die by number. -/
  | linkFailing (d : SlotId) (l : Fin 4) (why : LinkFail)
  /-- D2D_RETRAIN (R343). D2D_LINK_CFG RETRAIN retrains an UP link with its traffic held. -/
  | d2dRetrain (d : SlotId) (l : Fin 4)
  /-- ATOMIC_DIVERT (R328). On an older I/O die, an ATOMIC message is diverted to the management controller and performed or sent with its key. -/
  | atomicDivert
  /-- OPSAN_ACCESS (R330). An Opsan access reaches the package through the aperture map, and a failed load faults or a failed store is recorded. -/
  | opsanAccess (o : OpsanF)
  /-- CXL_FENCE_INVALIDATE (R333). After a plot fence, the processor die invalidates its lines homed on that plot's stacks. -/
  | cxlFenceInvalidate (p : PlotId) (dirty : Nat)
  /-- GUEST_DISCOVERY (R336). I/O die B discovers the guest die through straps, rail, training, descriptor and grants. -/
  | guestDiscovery (g : GuestStep)
  /-- GUEST_POWER_SAMPLE (R339). Every 10 µs the guest rail is sampled, and over-grant draw is flagged or fences the guest. -/
  | guestPowerSample (ms us : Nat)
  /-- POWER_INTERVAL (R353). Every 1 ms the controller computes budgets, chooses points and fallow duties, and pauses or resumes partitions. -/
  | powerInterval (m : Meters)
  /-- PAUSE_RESUME_ISSUE (R355). Issue restarts on the first tick after a resumed partition's rail reaches its point's voltage. -/
  | pauseResumeIssue (p : PartId)
  /-- OPP_CHANGE (R350). A plot retunes by slewing its rails, imposing one fallow tick and gliding its root PLL. -/
  | oppChange (p : PlotId)
  /-- PEAK_LIMITER (R358). Every 100 ns a plot limiter projects its 1 ms energy and stretches or releases CLK_ARITH. -/
  | peakLimiter (p : PlotId) (mw : Nat)
  /-- DROOP_DETECT (R359). A sagging logic rail stretches the bed group's cycles until it recovers for 256 cycles. -/
  | droopDetect (g : BgId) (mv n : Nat)
  /-- THERMAL_SAMPLE (R362). Every 10 µs sensors are read, and hot dies throttle. -/
  | thermalSample (t : Temps)
  /-- BUDGET_MESSAGE (R364). A budget message sets or clears a self-managed die's wattage and highest point. -/
  | budgetMessage (d : SlotId) (b : Option (Nat × Fin 8))
  /-- PWR_CAP_WRITE (R356). A write to PWR_CAP is clamped and takes effect at the end of the interval. -/
  | pwrCapWrite (v : BitVec 32)
  /-- LEARN_CLEAR (R352). PWR_LEARN_SEL CLEAR returns every learning entry to the firmware defaults. -/
  | learnClear
  /-- QUIESCE_SAVE (R371). At a quiesce point, each bed sequencer writes its bed record to the free slot. -/
  | quiesceSave (b : BedId)
  /-- SAVE_COMPLETE (R371). When every save write of a bed is acknowledged, the bed's save is complete and is reported. -/
  | saveComplete (b : BedId)
  /-- POINT_COMMIT (R371). The point is committed when all beds have saved and every span package has reported SAVED, or abandoned on a failure. -/
  | pointCommit (p : PartId)
  /-- ROLLBACK (R374). After the launch drains, the partition chooses a point, places and restores its beds and is held. -/
  | rollback (p : PartId)
  /-- CE_REPORT (R393). A unit reports a correction, which raises its level and writes a CE_RATE entry at THRESH. -/
  | ceReport (f : CeF)
  /-- CE_WINDOW (R393). At the end of each WINDOW_S seconds every unit's level falls by THRESH. -/
  | ceWindow (site : Fin 8)
  /-- UE_CONSUMED (R395). An uncorrectable granule needed by an operation completes it with DATA_LOST and is logged. -/
  | ueConsumed (f : UeF)
  /-- ERR_INJECT_ARM (R403). Setting ARM plants an error in the next write of the granule at ADDR. -/
  | errInjectArm (v : BitVec 32)
  /-- HOST_LOSS (R399). A fenced processor die is reported and the package holds or runs the reset sequence. -/
  | hostLoss
  /-- MGT_RESTART (R400). A failed check or uncorrectable memory word restarts the management controller. -/
  | mgtRestart (r : RestartF)
  /-- MGT_CHECK (R425). A periodic heartbeat, code integrity or watchdog check of the controllers runs and may fail. -/
  | mgtCheck (check : Fin 6) (ok : Bool)
  /-- AUX_POWER_ON (R406). The auxiliary input becomes present and boot starts at stage 1. -/
  | auxPowerOn (strap : BitVec 2)
  /-- AUX_LOSS (R407). Auxiliary below 10.8 V for 100 µs turns everything off. -/
  | auxLoss
  /-- MAIN_PRESENT (R406). The main input in range for 10 ms lets boot continue from stage 6. -/
  | mainPresent
  /-- MAIN_LOSS (R407). Loss of main power turns off the converters and resets every other die. -/
  | mainLoss
  /-- PKG_RESET_ASSERT (R436). PKG_RESET_N low for 10 µs holds every die in reset. -/
  | pkgResetAssert
  /-- PKG_RESET_RELEASE (R436). Release of PKG_RESET_N begins boot at stage 1. -/
  | pkgResetRelease (scanning : Bool)
  /-- BOOT (R408). Boot runs its stages from identity, firmware and settings through training to hand-off. -/
  | boot (b : BootIn)
  /-- STAGE_IMAGE (R417). Copies and verifies an image into the inactive slot. -/
  | stageImage (x : ImgIn)
  /-- ACTIVATE (R417). Makes the staged slot a graft and resets the package to boot it. -/
  | activate (flashOk : Bool)
  /-- CONFIRM (R418). Records the host's confirmation of the graft. -/
  | confirm (flashOk : Bool)
  /-- ABANDON_GRAFT (R419). Ends the graft at once as unconfirmed. -/
  | abandonGraft (flashOk : Bool)
  /-- WRITE_SETTINGS (R420). Stores a settings record in flash. -/
  | writeSettings (flashOk : Bool)
  /-- ATTEST (R424). Writes a signed quote over the nonce and package state. -/
  | attest (sig : BitVec 79144) (flashOk : Bool)
  /-- GRAFT_WINDOW_END (R419). When the graft window ends, the graft is confirmed or ends unconfirmed with a fallback reboot. -/
  | graftWindowEnd (flashOk : Bool)
  /-- STATUS (R437). I3C STATUS returns the status words. -/
  | status
  /-- RESET (R437). I3C RESET resets the package as PKG_RESET_N does. -/
  | reset
  /-- READ (R437). I3C READ returns a management controller register. -/
  | read (off : BitVec 32)
  /-- RECOVERY_WRITE (R437). Writes image bytes into slot A in ROM recovery. -/
  | recoveryWrite (off : BitVec 32) (n : Nat) (data : BitVec 1920)
  /-- RECOVERY_DONE (R437). Verifies the recovery image and boots it as a graft. -/
  | recoveryDone (len : BitVec 64) (x : ImgIn)
  /-- I3C_IBI (R438). The target raises an in-band interrupt for an event, and repeats it every 100 ms until acknowledged. -/
  | i3cIbi (f : IbiF)
  /-- TFTP_WRITE (R439). In ROM recovery, a TFTP write of slot-a is accepted and handled as RECOVERY_DONE. -/
  | tftpWrite (data : List (BitVec 8)) (x : ImgIn)
  /-- TAP_DIE_ENTER (R449). Setting a DIE_EN bit fences the die, self-manages it and puts it in test. -/
  | tapDieEnter (d : SlotId)
  /-- TAP_DIE_LEAVE (R449). Clearing a DIE_EN bit resets the die's TAP and returns the die. -/
  | tapDieLeave (d : SlotId)
  /-- TAP_RESET (R450). TRST_N low, or five TMS-high clocks, puts every TAP in Test-Logic-Reset. -/
  | tapReset
  /-- STANDIN_SWITCH (R447). The chain router switches a segment to or from a stand-in at a safe controller state. -/
  | standinSwitch
  /-- EXTEST (R448). Drives and captures the boundary register in test. -/
  | extest (d : SlotId) (drive pads : BitVec 64)
  /-- SAMPLE_PRELOAD (R448). Samples or preloads the boundary register. -/
  | samplePreload (d : SlotId) (load pads : BitVec 64)
  /-- IDCODE (R448). Selects the IDCODE register. -/
  | idcode (d : SlotId)
  /-- CLAMP (R448). Holds the boundary outputs and selects bypass. -/
  | clamp (d : SlotId)
  /-- HIGHZ (R448). Floats the outputs and selects bypass. -/
  | highz (d : SlotId)
  /-- IJTAG (R448). Selects the IEEE 1687 instrument network. -/
  | ijtag (d : SlotId)
  /-- STACK (R448). Selects the IEEE 1838 secondary ports to the stacks. -/
  | stack (d : SlotId) (ports : BitVec 2)
  /-- LANE_LOOP (R448). Loops every UCIe lane back at the die's bumps. -/
  | laneLoop (d : SlotId)
  /-- BYPASS (R448). Selects the 1-bit bypass register. -/
  | bypass (d : SlotId)
  /-- GUEST_REQUEST (R338). A request from the guest die reaches the guest bridge, which checks it against the request range, translates it in context 32 and credits it against OUTSTANDING. -/
  | guestRequest (g : GuestF)
  /-- PCIE_DMA (R334). A DMA access from a PCIe endpoint arrives at a root port and is carried as a CXL.mem request with host standing, confined by its IOMMU device context and regulated by regulator 32. -/
  | pcieDma (d : DmaF)
  /-- SNOOP_RESPONSE (R332). The processor die's answer to a SnpData or SnpInv reaches the stack controller, whose waiting read or write then proceeds, with returned dirty data written or merged. -/
  | snoopResponse (id : Nat) (lo hi : Option (BitVec 512))
  /-- IOFENCE_C (R243). An IOFENCE.C command on the IOMMU command queue waits for the preceding XINVAL and completes when that XINVAL completes. -/
  | iofenceC (id : Nat)
  /-- DYNAMIC_ADDRESS_ASSIGNMENT (R437). The board controller assigns the I3C target's dynamic address with SETDASA or ENTDAA. -/
  | dynamicAddressAssignment (a : BitVec 7)
  /-- E2E_ACK_TIMER (R299). When 1 µs has passed since a destination last acknowledged a source's messages, it sends a cumulative E2E_ACK. -/
  | e2eAckTimer (src : PkgId) (chan : Fin 16)
  /-- GROVE_LAUNCH_START (R310). On tick T0, the largest READY tick plus A in locked mode, step 0 of a grove launch starts on every package and its first bundles issue. -/
  | groveLaunchStart (p : PartId)
  deriving DecidableEq, Repr

end Sys2Proof
end

