-- ==== Sys2Proof/Decode.lean ====
section
/-!
DEFINITION. The words that spell commands: the five slots of a bundle (R80, R81, R83, R90 to R93), cut from its 256 bits and decoded
into the commands of the table. The table itself gives no command any bits (every row's list of fields is empty), so that no
word of the table spells one.
-/

namespace Sys2Proof

/-- The command that a word spells by the table's bits: none, since the table gives no row any. -/
def decodeTableWord (_nbits _w : Nat) : Option Instr := none

/-! ## Fields of a word -/

/-- The `n` bits of a word from bit `lo` on. -/
def bitsAt {w : Nat} (v : BitVec w) (lo n : Nat) : BitVec n := v.extractLsb' lo n

/-- One bit of a word. -/
def bitAt {w : Nat} (v : BitVec w) (i : Nat) : Bool := v.getLsbD i

/-! ## The slots of a bundle (R80) -/

/-- The first bit of a slot in its bundle, and its width (R80). -/
def Slot.place : Slot → Nat × Nat
  | .grid => (0, 64)
  | .vec => (64, 64)
  | .scalar => (128, 40)
  | .lm => (168, 56)
  | .sync => (224, 32)

/-- The grid slot (R83): opcodes 0, 2 and 3 are NOP. -/
def gridCmd (c : CoreId) (v : BitVec 64) : Instr :=
  if bitsAt v 0 2 = 1 then
    .order c ⟨bitsAt v 2 5, bitsAt v 7 11, bitsAt v 18 11, bitsAt v 29 11, bitsAt v 40 12, bitsAt v 52 2, bitAt v 54, bitAt v 55,
      bitsAt v 56 5⟩
  else .nop c .grid

/-- The fields of form A (R90). -/
def vecFormA (v : BitVec 64) : VecA :=
  ⟨bitsAt v 8 3, bitsAt v 11 5, bitsAt v 16 3, bitAt v 19, bitsAt v 20 5, bitsAt v 25 5, bitsAt v 30 5, bitsAt v 35 2, bitsAt v 37 3⟩

/-- The fields of form M. -/
def vecFormM (v : BitVec 64) : VecM :=
  ⟨bitsAt v 8 3, bitsAt v 11 5, bitsAt v 16 3, bitAt v 19, bitsAt v 20 5, bitsAt v 25 11, bitsAt v 36 2, bitsAt v 38 2, bitsAt v 40 5⟩

/-- The fields of form I. -/
def vecFormI (v : BitVec 64) : VecI := ⟨bitsAt v 8 3, bitsAt v 11 5, bitsAt v 16 3, bitAt v 19, bitsAt v 32 32⟩

/-- The fields of form X. -/
def vecFormX (v : BitVec 64) : VecX := ⟨bitsAt v 8 3, bitsAt v 11 5, bitsAt v 16 3, bitAt v 19, bitsAt v 20 5, bitsAt v 25 6⟩

/-- The vector slot (R90): opcodes that the table does not list are NOP. -/
def vecCmd (c : CoreId) (v : BitVec 64) : Instr :=
  match (bitsAt v 0 8).toNat with
  | 0x01 => .vadd c (vecFormA v)
  | 0x02 => .vsub c (vecFormA v)
  | 0x03 => .vmul c (vecFormA v)
  | 0x04 => .vfma c (vecFormA v)
  | 0x05 => .vmin c (vecFormA v)
  | 0x06 => .vmax c (vecFormA v)
  | 0x07 => .vabs c (vecFormA v)
  | 0x08 => .vneg c (vecFormA v)
  | 0x09 => .vcmplt c (vecFormA v)
  | 0x0A => .vcmple c (vecFormA v)
  | 0x0B => .vcmpeq c (vecFormA v)
  | 0x0C => .vsel c (vecFormA v)
  | 0x0D => .vand c (vecFormA v)
  | 0x0E => .vor c (vecFormA v)
  | 0x0F => .vxor c (vecFormA v)
  | 0x10 => .vcvt c (vecFormA v)
  | 0x11 => .vexp2 c (vecFormA v)
  | 0x12 => .vlog2 c (vecFormA v)
  | 0x13 => .vrcp c (vecFormA v)
  | 0x14 => .vrsqrt c (vecFormA v)
  | 0x15 => .vsqrt c (vecFormA v)
  | 0x16 => .vtanh c (vecFormA v)
  | 0x18 => .vred c (vecFormA v)
  | 0x19 => .vhalf c (vecFormA v)
  | 0x1A => .vperm c (vecFormA v)
  | 0x1B => .vadd128 c (vecFormA v)
  | 0x20 => .vld c (vecFormM v)
  | 0x21 => .vst c (vecFormM v)
  | 0x22 => .vgather c (vecFormM v)
  | 0x23 => .vscatter c (vecFormM v)
  | 0x24 => .vbcasti c (vecFormI v)
  | 0x25 => .vfromx c (vecFormX v)
  | 0x26 => .vtox c (vecFormX v)
  | _ => .nop c .vec

/-- The fields of the register form (R91). -/
def scalarFormR (v : BitVec 40) : ScR := ⟨bitsAt v 6 5, bitsAt v 11 5, bitsAt v 16 5⟩

/-- The fields of the immediate form. -/
def scalarFormI (v : BitVec 40) : ScI := ⟨bitsAt v 6 5, bitsAt v 11 5, bitsAt v 16 24⟩

/-- The scalar slot (R91): opcodes that the table does not list are NOP. -/
def scalarCmd (c : CoreId) (v : BitVec 40) : Instr :=
  match (bitsAt v 0 6).toNat with
  | 0x01 => .add c (scalarFormR v)
  | 0x02 => .sub c (scalarFormR v)
  | 0x03 => .and c (scalarFormR v)
  | 0x04 => .or c (scalarFormR v)
  | 0x05 => .xor c (scalarFormR v)
  | 0x06 => .sll c (scalarFormR v)
  | 0x07 => .srl c (scalarFormR v)
  | 0x08 => .sra c (scalarFormR v)
  | 0x09 => .mul c (scalarFormR v)
  | 0x0A => .mulhu c (scalarFormR v)
  | 0x0B => .min c (scalarFormR v)
  | 0x0C => .max c (scalarFormR v)
  | 0x0D => .minu c (scalarFormR v)
  | 0x0E => .maxu c (scalarFormR v)
  | 0x0F => .slt c (scalarFormR v)
  | 0x10 => .sltu c (scalarFormR v)
  | 0x11 => .sel c (scalarFormR v)
  | 0x20 => .addi c (scalarFormI v)
  | 0x21 => .andi c (scalarFormI v)
  | 0x22 => .ori c (scalarFormI v)
  | 0x23 => .xori c (scalarFormI v)
  | 0x24 => .slli c (scalarFormI v)
  | 0x25 => .srli c (scalarFormI v)
  | 0x26 => .srai c (scalarFormI v)
  | 0x27 => .lui c (scalarFormI v)
  | 0x28 => .csrr c (scalarFormI v)
  | _ => .nop c .scalar

/-- The fields of COPY and FILL (R92); FILL has no source. -/
def moveForm (fill : Bool) (v : BitVec 56) : MoveF :=
  ⟨if fill then 0 else bitsAt v 4 5, if fill then 0 else bitsAt v 9 11, bitsAt v 20 5, bitsAt v 25 11, bitsAt v 36 6, bitsAt v 42 5,
    bitAt v 47⟩

/-- The local-move slot (R92): opcodes that the table does not list are NOP. -/
def lmCmd (c : CoreId) (v : BitVec 56) : Instr :=
  match (bitsAt v 0 4).toNat with
  | 0x1 => .ldx c (bitsAt v 4 5) (bitsAt v 9 5) (bitsAt v 14 15)
  | 0x2 => .stx c (bitsAt v 4 5) (bitsAt v 9 5) (bitsAt v 14 15)
  | 0x3 => .copy c (moveForm false v)
  | 0x4 => .fill c (moveForm true v)
  | 0x5 => .csrw c (bitsAt v 4 5) (bitsAt v 9 12)
  | _ => .nop c .lm

/-- The sync slot (R93): opcodes 0 and 0x9 to 0xF are NOP. With FROMX the count field of a LOOP names a register. -/
def syncCmd (c : CoreId) (v : BitVec 32) : Instr :=
  match (bitsAt v 0 4).toNat with
  | 0x1 => .waitf c (bitsAt v 4 5) (bitAt v 9)
  | 0x2 => .post c (bitsAt v 4 6) (bitsAt v 10 5)
  | 0x3 => .sync c (bitsAt v 4 2)
  | 0x4 => .skip c (bitsAt v 4 12)
  | 0x5 => .loop c ⟨bitsAt v 4 7, bitAt v 11, if bitAt v 11 then (bitsAt v 12 5).setWidth 12 else bitsAt v 12 12⟩
  | 0x6 => .kick c (bitsAt v 4 12)
  | 0x7 => .phase c (bitsAt v 4 8)
  | 0x8 => .halt c
  | _ => .nop c .sync

/-- The command that a slot of a bundle holds for core `c` (R80, R81). -/
def slotCmd (c : CoreId) (slot : Slot) (bundle : BitVec 256) : Instr :=
  match slot with
  | .grid => gridCmd c (bitsAt bundle 0 64)
  | .vec => vecCmd c (bitsAt bundle 64 64)
  | .scalar => scalarCmd c (bitsAt bundle 128 40)
  | .lm => lmCmd c (bitsAt bundle 168 56)
  | .sync => syncCmd c (bitsAt bundle 224 32)

/-! ## The commands of the IOMMU's queue (R240, R249) -/

/-- The fields of an XINVAL (R240). -/
def xinvFields (w : BitVec 128) : XInvF := ⟨bitsAt w 10 6, bitsAt w 16 16, bitsAt w 32 32, bitsAt w 64 39, bitAt w 103⟩

/-- The command that a word of the IOMMU's command queue spells: XINVAL by opcode 56, whose FUNC 4 to 7 act as 3, and XRESP by opcode 57,
whose FUNC 2 to 7 act as 0. The other opcodes are those of the standard queue, which the specification does not lay out. -/
def iommuCmd (w : BitVec 128) : Option Instr :=
  match (bitsAt w 0 7).toNat, (bitsAt w 7 3).toNat with
  | 56, 0 => some (.xinvalPage (xinvFields w))
  | 56, 1 => some (.xinvalRange (xinvFields w))
  | 56, 2 => some (.xinvalContext (xinvFields w))
  | 56, _ => some (.xinvalAll (xinvFields w))
  | 57, 1 => some (.xrespFail (bitsAt w 10 16))
  | 57, _ => some (.xrespRetry (bitsAt w 10 16))
  | _, _ => none

/-! ## The same words written -/

/-- A field put at its place. -/
def fieldAt (lo : Nat) {n : Nat} (v : BitVec n) : Nat := v.toNat * 2 ^ lo

/-- A bit put at its place. -/
def flagAt (lo : Nat) (b : Bool) : Nat := if b then 2 ^ lo else 0

/-- A vector slot of form A. -/
def packA (op : Nat) (a : VecA) : Nat :=
  op + fieldAt 8 a.vt + fieldAt 11 a.vd + fieldAt 16 a.mask + flagAt 19 a.sat + fieldAt 20 a.vs1 + fieldAt 25 a.vs2 + fieldAt 30 a.vs3 +
  fieldAt 35 a.rnd + fieldAt 37 a.aux

/-- A vector slot of form M. -/
def packM (op : Nat) (m : VecM) : Nat :=
  op + fieldAt 8 m.vt + fieldAt 11 m.vd + fieldAt 16 m.mask + flagAt 19 m.sat + fieldAt 20 m.xbase + fieldAt 25 m.gran +
  fieldAt 36 m.ngran + fieldAt 38 m.rpart + fieldAt 40 m.vs1

/-- A scalar slot in register form. -/
def packR (op : Nat) (r : ScR) : Nat := op + fieldAt 6 r.xd + fieldAt 11 r.xs1 + fieldAt 16 r.xs2

/-- A scalar slot in immediate form. -/
def packI (op : Nat) (r : ScI) : Nat := op + fieldAt 6 r.xd + fieldAt 11 r.xs1 + fieldAt 16 r.imm

/-- COPY or FILL. -/
def packMove (op : Nat) (m : MoveF) : Nat :=
  op + fieldAt 4 m.xsrc + fieldAt 9 m.srcGran + fieldAt 20 m.xdst + fieldAt 25 m.dstGran + fieldAt 36 m.len + fieldAt 42 m.flag +
  flagAt 47 m.raise

/-- The bits of the slot that holds a command, reserved fields zero; 0 for NOP and for a command that is no slot of a bundle. -/
def slotWord : Instr → Nat
  | .order _ o =>
    1 + fieldAt 2 o.xbase + fieldAt 7 o.a + fieldAt 18 o.b + fieldAt 29 o.d + fieldAt 40 o.depth + fieldAt 52 o.tcfg +
    flagAt 54 o.keep + flagAt 55 o.hold + fieldAt 56 o.flag
  | .vadd _ a => packA 0x01 a
  | .vsub _ a => packA 0x02 a
  | .vmul _ a => packA 0x03 a
  | .vfma _ a => packA 0x04 a
  | .vmin _ a => packA 0x05 a
  | .vmax _ a => packA 0x06 a
  | .vabs _ a => packA 0x07 a
  | .vneg _ a => packA 0x08 a
  | .vcmplt _ a => packA 0x09 a
  | .vcmple _ a => packA 0x0A a
  | .vcmpeq _ a => packA 0x0B a
  | .vsel _ a => packA 0x0C a
  | .vand _ a => packA 0x0D a
  | .vor _ a => packA 0x0E a
  | .vxor _ a => packA 0x0F a
  | .vcvt _ a => packA 0x10 a
  | .vexp2 _ a => packA 0x11 a
  | .vlog2 _ a => packA 0x12 a
  | .vrcp _ a => packA 0x13 a
  | .vrsqrt _ a => packA 0x14 a
  | .vsqrt _ a => packA 0x15 a
  | .vtanh _ a => packA 0x16 a
  | .vred _ a => packA 0x18 a
  | .vhalf _ a => packA 0x19 a
  | .vperm _ a => packA 0x1A a
  | .vadd128 _ a => packA 0x1B a
  | .vld _ m => packM 0x20 m
  | .vst _ m => packM 0x21 m
  | .vgather _ m => packM 0x22 m
  | .vscatter _ m => packM 0x23 m
  | .vbcasti _ v => 0x24 + fieldAt 8 v.vt + fieldAt 11 v.vd + fieldAt 16 v.mask + flagAt 19 v.sat + fieldAt 32 v.imm
  | .vfromx _ v =>
    0x25 + fieldAt 8 v.vt + fieldAt 11 v.vd + fieldAt 16 v.mask + flagAt 19 v.sat + fieldAt 20 v.xreg + fieldAt 25 v.lane
  | .vtox _ v =>
    0x26 + fieldAt 8 v.vt + fieldAt 11 v.vd + fieldAt 16 v.mask + flagAt 19 v.sat + fieldAt 20 v.xreg + fieldAt 25 v.lane
  | .add _ r => packR 0x01 r
  | .sub _ r => packR 0x02 r
  | .and _ r => packR 0x03 r
  | .or _ r => packR 0x04 r
  | .xor _ r => packR 0x05 r
  | .sll _ r => packR 0x06 r
  | .srl _ r => packR 0x07 r
  | .sra _ r => packR 0x08 r
  | .mul _ r => packR 0x09 r
  | .mulhu _ r => packR 0x0A r
  | .min _ r => packR 0x0B r
  | .max _ r => packR 0x0C r
  | .minu _ r => packR 0x0D r
  | .maxu _ r => packR 0x0E r
  | .slt _ r => packR 0x0F r
  | .sltu _ r => packR 0x10 r
  | .sel _ r => packR 0x11 r
  | .addi _ r => packI 0x20 r
  | .andi _ r => packI 0x21 r
  | .ori _ r => packI 0x22 r
  | .xori _ r => packI 0x23 r
  | .slli _ r => packI 0x24 r
  | .srli _ r => packI 0x25 r
  | .srai _ r => packI 0x26 r
  | .lui _ r => packI 0x27 r
  | .csrr _ r => packI 0x28 r
  | .ldx _ xd xb off => 0x1 + fieldAt 4 xd + fieldAt 9 xb + fieldAt 14 off
  | .stx _ xs xb off => 0x2 + fieldAt 4 xs + fieldAt 9 xb + fieldAt 14 off
  | .copy _ m => packMove 0x3 m
  | .fill _ m => packMove 0x4 m
  | .csrw _ xs off => 0x5 + fieldAt 4 xs + fieldAt 9 off
  | .waitf _ f keep => 0x1 + fieldAt 4 f + flagAt 9 keep
  | .post _ t f => 0x2 + fieldAt 4 t + fieldAt 10 f
  | .sync _ l => 0x3 + fieldAt 4 l
  | .skip _ n => 0x4 + fieldAt 4 n
  | .loop _ l => 0x5 + fieldAt 4 l.len + flagAt 11 l.fromx + fieldAt 12 l.count
  | .kick _ p => 0x6 + fieldAt 4 p
  | .phase _ t => 0x7 + fieldAt 4 t
  | .halt _ => 0x8
  | _ => 0

/-- An XINVAL with its FUNC. -/
def packX (func : Nat) (f : XInvF) : Nat :=
  56 + func * 2 ^ 7 + fieldAt 10 f.ctx + fieldAt 16 f.count + fieldAt 32 f.epoch + fieldAt 64 f.vpn + flagAt 103 f.bedc

/-- The word of the IOMMU's command queue that holds a command of it, its zero bits zero; 0 for any other command. -/
def iommuWord : Instr → Nat
  | .xinvalPage f => packX 0 f
  | .xinvalRange f => packX 1 f
  | .xinvalContext f => packX 2 f
  | .xinvalAll f => packX 3 f
  | .xrespRetry i => 57 + fieldAt 10 i
  | .xrespFail i => 57 + 2 ^ 7 + fieldAt 10 i
  | _ => 0

/-! ## The header granule of a message (R295) -/

/-- The header of a message read from its granule; in a RESP the place of the address holds the status. -/
def MsgHdr.ofWord (w : BitVec 128) : MsgHdr :=
  { src := Fin.ofNat 512 (bitsAt w 12 9).toNat, dst := Fin.ofNat 512 (bitsAt w 21 9).toNat, part := Fin.ofNat 32 (bitsAt w 30 5).toNat,
    slot := Fin.ofNat 16 (bitsAt w 35 4).toNat, bed := bitsAt w 39 9, bsq := bitAt w 48, chan := Fin.ofNat 16 (bitsAt w 49 4).toNat,
    e2e := bitsAt w 53 11, addr := bitsAt w 64 61, len := (bitsAt w 4 8).toNat + 1 }

/-- A header granule with its MTYPE: 1 READ, 2 WRITE, 3 ATOMIC, 4 RESP. -/
def MsgHdr.word (mtype : BitVec 4) (h : MsgHdr) : BitVec 128 :=
  BitVec.ofNat 128 (mtype.toNat + (h.len - 1) * 2 ^ 4 + h.src.val * 2 ^ 12 + h.dst.val * 2 ^ 21 + h.part.val * 2 ^ 30 + h.slot.val * 2 ^ 35 +
    fieldAt 39 h.bed + flagAt 48 h.bsq + h.chan.val * 2 ^ 49 + fieldAt 53 h.e2e + fieldAt 64 h.addr)

/-- The bundle that holds a command in its slot and NOP in the others. -/
def bundleOf (slot : Slot) (i : Instr) : BitVec 256 := BitVec.ofNat 256 (slotWord i * 2 ^ slot.place.1)

end Sys2Proof
end

