-- ==== Sys2Proof/Machine/Fp.lean ====
section
/-!
DEFINITION. Number formats and their exact arithmetic: the operand types of the grid (R60), the lane types of the
vector unit (R84), the rounding modes and the conversion of an exact value to a type (R71, R85). A finite value is an
exact dyadic number, so every rounding happens once, where the rules place it.
-/

namespace Sys2Proof.Machine

/-- An exact value: NaN, an infinity, or (-1)^neg × mag × 2^e. -/
inductive Fval where
  | nan
  | inf (neg : Bool)
  | fin (neg : Bool) (mag : Nat) (e : Int)
  deriving DecidableEq, Repr

/-- A binary floating-point type: total width, exponent and fraction widths, bias, the largest finite magnitude code, and
whether it has infinities and NaNs. `nan` is its canonical NaN (R72). -/
structure Fmt where
  w : Nat
  mb : Nat
  bias : Int
  maxCode : Nat
  hasInf : Bool
  hasNan : Bool
  nan : Nat
  deriving DecidableEq, Repr

namespace Fmt
/-- FP32 (R84). -/
def fp32 : Fmt := ⟨32, 23, 127, 0x7F7FFFFF, true, true, 0x7FC00000⟩
/-- BF16 (R60, R84). -/
def bf16 : Fmt := ⟨16, 7, 127, 0x7F7F, true, true, 0x7FC0⟩
/-- FP16, IEEE 754 binary16 (R60, R84). -/
def fp16 : Fmt := ⟨16, 10, 15, 0x7BFF, true, true, 0x7E00⟩
/-- FP8 E4M3: largest magnitude 448, NaN only (R60). -/
def e4m3 : Fmt := ⟨8, 3, 7, 0x7E, false, true, 0x7F⟩
/-- FP8 E5M2 (R60). -/
def e5m2 : Fmt := ⟨8, 2, 15, 0x7B, true, true, 0x7E⟩
/-- FP6 E2M3: no special values (R60). -/
def e2m3 : Fmt := ⟨6, 3, 1, 0x1F, false, false, 0⟩
/-- FP6 E3M2: no special values (R60). -/
def e3m2 : Fmt := ⟨6, 2, 3, 0x1F, false, false, 0⟩
/-- FP4 E2M1: no special values (R60). -/
def e2m1 : Fmt := ⟨4, 1, 1, 0x7, false, false, 0⟩
end Fmt

/-- The value of a code of a type (R60). Subnormals are used at their value. -/
def Fmt.decode (f : Fmt) (code : Nat) : Fval :=
  let neg := code.testBit (f.w - 1)
  let m := code % 2 ^ (f.w - 1)
  if f.hasNan && decide (m > f.maxCode) then
    (if f.hasInf && decide (m = f.maxCode + 1) then .inf neg else .nan)
  else
    let ex := m / 2 ^ f.mb
    let fr := m % 2 ^ f.mb
    if ex = 0 then .fin neg fr (1 - f.bias - f.mb)
    else .fin neg (2 ^ f.mb + fr) (ex - f.bias - f.mb)

/-- A two's-complement integer of `w` bits as a value. -/
def decodeInt (w : Nat) (code : Nat) (e : Int) : Fval :=
  let c := code % 2 ^ w
  if c < 2 ^ (w - 1) then .fin false c e else .fin true (2 ^ w - c) e

/-- Rounding modes (R71): to nearest with ties to even, toward zero, toward +Inf, toward −Inf. -/
inductive Rnd where
  | near | zero | up | down
  deriving DecidableEq, Repr

/-- The mode a two-bit field names (R74, R90). -/
def Rnd.ofBits (n : Nat) : Rnd :=
  match n % 4 with
  | 0 => .near
  | 1 => .zero
  | 2 => .up
  | _ => .down

/-- mag / 2^s rounded to an integer. -/
def roundShr (r : Rnd) (neg : Bool) (mag s : Nat) : Nat :=
  let q := mag / 2 ^ s
  let rem := mag % 2 ^ s
  if rem = 0 then q else
    match r with
    | .near => if 2 * rem > 2 ^ s || (decide (2 * rem = 2 ^ s) && decide (q % 2 = 1)) then q + 1 else q
    | .zero => q
    | .up => if neg then q else q + 1
    | .down => if neg then q + 1 else q

/-- mag × 2^e rounded to an integer number of units of 2^E. -/
def roundUnits (r : Rnd) (neg : Bool) (mag : Nat) (e E : Int) : Nat :=
  if E ≤ e then mag * 2 ^ (e - E).toNat else roundShr r neg mag (E - e).toNat

/-- What a conversion reports: a NaN result, and an overflow (R85). -/
structure FpFlags where
  inv : Bool
  ovf : Bool
  deriving DecidableEq, Repr

/-- No flag. -/
def FpFlags.none : FpFlags := ⟨false, false⟩

/-- Both sets of flags. -/
def FpFlags.or (a b : FpFlags) : FpFlags := ⟨a.inv || b.inv, a.ovf || b.ovf⟩

/-- Whether a mode rounds an overflow away from zero, as IEEE 754 gives it (R71). -/
def Rnd.toInf (r : Rnd) (neg : Bool) : Bool :=
  match r with
  | .near => true
  | .zero => false
  | .up => !neg
  | .down => neg

/-- A sign bit in front of a magnitude code. -/
def Fmt.signed (f : Fmt) (neg : Bool) (m : Nat) : Nat := if neg then 2 ^ (f.w - 1) + m else m

/-- An infinity in a type: ±Inf, and where the type has none ±largest when SAT is 1 and NaN when it is 0 (R71). -/
def Fmt.encodeInf (f : Fmt) (sat neg : Bool) : Nat × FpFlags :=
  if f.hasInf then (f.signed neg (f.maxCode + 1), .none)
  else if sat then (f.signed neg f.maxCode, .none)
  else (f.nan, ⟨true, false⟩)

/-- A finite value rounded once to a type, with its overflow judged on the value rounded to an unbounded exponent range
(R71). -/
def Fmt.encodeFin (f : Fmt) (r : Rnd) (sat neg : Bool) (mag : Nat) (e : Int) : Nat × FpFlags :=
  if mag = 0 then (f.signed neg 0, .none)
  else
    let emin : Int := 1 - f.bias - f.mb
    let q : Int := max (e + (Nat.log2 mag : Int) - f.mb) emin
    let n := roundUnits r neg mag e q
    let code := (q - emin).toNat * 2 ^ f.mb + n
    if code ≤ f.maxCode then (f.signed neg code, .none)
    else if sat then (f.signed neg f.maxCode, ⟨false, true⟩)
    else if r.toInf neg then
      (if f.hasInf then (f.signed neg (f.maxCode + 1), ⟨false, true⟩) else (f.nan, ⟨true, true⟩))
    else (f.signed neg f.maxCode, ⟨false, true⟩)

/-- A value converted to a type (R71, R72, R85). -/
def Fmt.encode (f : Fmt) (r : Rnd) (sat : Bool) (v : Fval) : Nat × FpFlags :=
  match v with
  | .nan => (f.nan, ⟨true, false⟩)
  | .inf neg => f.encodeInf sat neg
  | .fin neg mag e => f.encodeFin r sat neg mag e

/-- The signed integer mag × 2^e counted in units of 2^E, where E ≤ e. -/
def alignTo (neg : Bool) (mag : Nat) (e E : Int) : Int :=
  let m : Int := (mag * 2 ^ (e - E).toNat : Nat)
  if neg then -m else m

/-- The exact product. -/
def Fval.mul (a b : Fval) : Fval :=
  match a, b with
  | .nan, _ => .nan
  | _, .nan => .nan
  | .inf s, .inf t => .inf (s != t)
  | .inf s, .fin t m _ => if m = 0 then .nan else .inf (s != t)
  | .fin s m _, .inf t => if m = 0 then .nan else .inf (s != t)
  | .fin s m e, .fin t n k => .fin (s != t) (m * n) (e + k)

/-- The exact sum. An exact zero sum of operands of unlike sign is −0 only when rounding toward −Inf, as IEEE 754 gives
it. -/
def Fval.add (r : Rnd) (a b : Fval) : Fval :=
  match a, b with
  | .nan, _ => .nan
  | _, .nan => .nan
  | .inf s, .inf t => if s = t then .inf s else .nan
  | .inf s, .fin _ _ _ => .inf s
  | .fin _ _ _, .inf t => .inf t
  | .fin s m e, .fin t n k =>
    let E := min e k
    let v := alignTo s m e E + alignTo t n k E
    if v = 0 then .fin (if s = t then s else decide (r = .down)) 0 E
    else .fin (decide (v < 0)) v.natAbs E

/-- The value with its sign inverted. -/
def Fval.negate : Fval → Fval
  | .nan => .nan
  | .inf s => .inf (!s)
  | .fin s m e => .fin (!s) m e

/-- The absolute value. -/
def Fval.abs : Fval → Fval
  | .nan => .nan
  | .inf _ => .inf false
  | .fin _ m e => .fin false m e

/-- Whether a < b; false where either is NaN (R90). -/
def Fval.lt (a b : Fval) : Bool :=
  match a, b with
  | .nan, _ => false
  | _, .nan => false
  | .inf s, .inf t => s && !t
  | .inf s, .fin _ _ _ => s
  | .fin _ _ _, .inf t => !t
  | .fin s m e, .fin t n k => decide (alignTo s m e (min e k) < alignTo t n k (min e k))

/-- Whether a = b; false where either is NaN (R90). -/
def Fval.eq (a b : Fval) : Bool :=
  match a, b with
  | .nan, _ => false
  | _, .nan => false
  | .inf s, .inf t => s = t
  | .inf _, .fin _ _ _ => false
  | .fin _ _ _, .inf _ => false
  | .fin s m e, .fin t n k => decide (alignTo s m e (min e k) = alignTo t n k (min e k))

/-- A value converted to an integer of `w` bits, always saturating; a NaN gives the most negative value (R72, R90). -/
def encodeInt (w : Nat) (r : Rnd) (v : Fval) : Nat × FpFlags :=
  match v with
  | .nan => (2 ^ (w - 1), ⟨true, false⟩)
  | .inf neg => (if neg then 2 ^ (w - 1) else 2 ^ (w - 1) - 1, .none)
  | .fin neg mag e =>
    let n := roundUnits r neg mag e 0
    if neg then ((2 ^ w - min n (2 ^ (w - 1))) % 2 ^ w, .none)
    else (min n (2 ^ (w - 1) - 1), .none)

/-- A signed integer held in `w` bits: wrapped, or saturated (R85). -/
def narrowInt (w : Nat) (sat : Bool) (v : Int) : Nat :=
  let lo : Int := -(2 ^ (w - 1) : Nat)
  let hi : Int := (2 ^ (w - 1) - 1 : Nat)
  let u := if sat then max lo (min hi v) else v
  (u % (2 ^ w : Nat)).toNat

/-- The signed integer of a code of `w` bits. -/
def intOf (w : Nat) (code : Nat) : Int :=
  let c := code % 2 ^ w
  if c < 2 ^ (w - 1) then c else (c : Int) - (2 ^ w : Nat)

/-- Lane `l` of width `w` of a register (R84). -/
def lane (w : Nat) (v l : Nat) : Nat := v / 2 ^ (w * l) % 2 ^ w

/-- The register whose lane `l` of width `w` holds `f l`, for l < n. -/
def joinLanes (w n : Nat) (f : Nat → Nat) : Nat :=
  match n with
  | 0 => 0
  | k + 1 => joinLanes w k f + f k % 2 ^ w * 2 ^ (w * k)

end Sys2Proof.Machine
end

