-- ==== Sys2Proof/Machine/Atomic.lean ====
section
/-!
DEFINITION. The arithmetic of atomics (R160 to R163).
-/

namespace Sys2Proof.Machine

/-- A floating-point sum rounded once to nearest with ties to even; an exact zero is +0 unless both are −0 (R163). -/
def fadd (f : Fmt) (v d : Nat) : Nat := (f.encode .near false (Fval.add .near (f.decode v) (f.decode d))).1

end Sys2Proof.Machine

namespace Sys2Proof

open Machine

/-- The size in bytes of an atomic's operand. -/
def Atom.bytes (a : Atom) : Nat :=
  if a.aop = 0xB then 4 else if a.aop = 0xC then 2 else if a.size8 then 8 else 4

/-- Whether an atomic is a floating-point add. -/
def Atom.isFadd (a : Atom) : Bool := decide (a.aop = 0xB) || decide (a.aop = 0xC)

/-- The new value of an operand `v` of an atomic (R160); 0xD to 0xF act as 0x0. -/
def Atom.apply (a : Atom) (v : Nat) : Nat :=
  let w := 8 * a.bytes
  let d := a.operand.toNat % 2 ^ w
  match a.aop.toNat with
  | 1 => d
  | 2 => if v = a.compare.toNat % 2 ^ w then d else v
  | 3 => (v + d) % 2 ^ w
  | 4 => v &&& d
  | 5 => v ||| d
  | 6 => v ^^^ d
  | 7 => if intOf w v ≤ intOf w d then v else d
  | 8 => if intOf w v ≤ intOf w d then d else v
  | 9 => min v d
  | 10 => max v d
  | 11 => fadd .fp32 v d
  | 12 => fadd .bf16 v d
  | _ => v

/-- Whether an atomic returns the old value: FETCH, or any CAS. -/
def Atom.returns (a : Atom) : Bool := a.fetch || decide (a.aop = 2)

end Sys2Proof
end

