-- ==== Sys2Proof/Config.lean ====
section
/-!
DEFINITION. What the specification leaves open: free values. Each is an opaque constant, so nothing can be proved of the
value it gives. Values that change from one use to the next are applied to a counter of the state.
-/

namespace Sys2Proof.Config

/-- The n-th undefined value met (R59, R89): log entry 3. -/
opaque freeValue : Nat → BitVec 128

/-- Whether the minimum or maximum of two zeros of unlike sign is −0 (R85 does not say): log entry 4. -/
opaque zeroSign : Bool → Nat → Nat → Bool

/-- The part of a register that a VCVT uses when its AUX names more parts than the register has (R90 does not say): log
entry 5. -/
opaque freePart : Nat → Nat → Nat

/-- The draw in mW per running bed that the management firmware carries as the default of a phase at a point (R352): log entry 32. -/
opaque learnDefault : Nat → Nat → Nat

/-- The idle draw in mW of a plot at a point, before one is learned (R352): log entry 32. -/
opaque idleDefault : Nat → Nat

end Sys2Proof.Config
end

