-- ==== Sys2Proof/Machine/Guard.lean ====
section
/-!
DEFINITION. The guard code: a 144/128 code over GF(16) that corrects one nibble and detects two (R384 to R388). A stored
granule is held as its correct data and the 144-bit pattern by which the stored codeword differs from the correct one;
since the code is linear, the syndrome of what is read is the syndrome of that pattern.
-/

namespace Sys2Proof.Machine

/-- Multiplication by α in GF(16), defined by x^4 + x + 1 (R384). -/
def gdbl (a : Nat) : Nat := if a < 8 then 2 * a else (2 * a) ^^^ 0x13

/-- Multiplication in GF(16) (R384). -/
def gmul (a b : Nat) : Nat :=
  (if b.testBit 0 then a else 0) ^^^ (if b.testBit 1 then gdbl a else 0) ^^^
  (if b.testBit 2 then gdbl (gdbl a) else 0) ^^^ (if b.testBit 3 then gdbl (gdbl (gdbl a)) else 0)

/-- f(x, y) = x^2 + xy + 0x8 · y^2 (R385). -/
def gquad (x y : Nat) : Nat := gmul x x ^^^ gmul x y ^^^ gmul 8 (gmul y y)

/-- Four elements of GF(16): a column or a syndrome. -/
structure G4 where
  e0 : Nat
  e1 : Nat
  e2 : Nat
  e3 : Nat
  deriving DecidableEq, Repr

/-- Sum of two columns. -/
def G4.add (a b : G4) : G4 := ⟨a.e0 ^^^ b.e0, a.e1 ^^^ b.e1, a.e2 ^^^ b.e2, a.e3 ^^^ b.e3⟩

/-- A column times an element. -/
def G4.scale (c : Nat) (a : G4) : G4 := ⟨gmul c a.e0, gmul c a.e1, gmul c a.e2, gmul c a.e3⟩

/-- The column h_n of nibble n (R385). -/
def gcolumn (n : Nat) : G4 :=
  if n < 16 then ⟨1, n, 2, gquad n 2⟩
  else if n < 32 then ⟨1, n - 16, 3, gquad (n - 16) 3⟩
  else if n = 32 then ⟨1, 0, 0, 0⟩
  else if n = 33 then ⟨0, 0, 0, 1⟩
  else if n = 34 then ⟨1, 1, 0, 1⟩
  else ⟨1, 0, 1, 8⟩

/-- Nibble n of a codeword of 36 nibbles (R384). -/
def nibbleOf (w : BitVec 144) (n : Nat) : Nat := (w.extractLsb' (4 * n) 4).toNat

/-- Σ r_n · h_n over the first k nibbles. -/
def gsum (w : BitVec 144) (k : Nat) : G4 :=
  match k with
  | 0 => ⟨0, 0, 0, 0⟩
  | n + 1 => (gsum w n).add (G4.scale (nibbleOf w n) (gcolumn n))

/-- The syndrome of a received codeword (R387). -/
def syndrome (w : BitVec 144) : G4 := gsum w 36

/-- The check bits the writer gives 128 bits of data (R386). -/
def gcheck (d : BitVec 128) : BitVec 16 :=
  let s := gsum (d.setWidth 144) 32
  let c0 := s.e0 ^^^ s.e1 ^^^ s.e2
  let c1 := s.e3 ^^^ s.e1 ^^^ gmul 8 s.e2
  BitVec.ofNat 16 (c0 + 16 * c1 + 256 * s.e1 + 4096 * s.e2)

/-- The codeword of 128 bits of data: check nibble k is codeword nibble 32 + k (R384, R386). -/
def codeword (d : BitVec 128) : BitVec 144 := (gcheck d) ++ d

/-- What the reader finds (R387). -/
inductive GuardRead where
  | clean
  | correct (nib : Nat) (x : Nat)
  | uncorrectable
  deriving DecidableEq, Repr

/-- The first nibble among 0 … k-1 of which the syndrome is a nonzero multiple with a nonzero first element. -/
def findNibble (s : G4) (k : Nat) : Option Nat :=
  match k with
  | 0 => none
  | n + 1 =>
    match findNibble s n with
    | some i => some i
    | none => if decide (n ≠ 33) && decide (G4.scale s.e0 (gcolumn n) = s) then some n else none

/-- Decoding of a syndrome by the first matching row of R387. -/
def guardDecode (s : G4) : GuardRead :=
  if s = ⟨0, 0, 0, 0⟩ then .clean
  else if s.e0 ≠ 0 then
    match findNibble s 36 with
    | some n => .correct n s.e0
    | none => .uncorrectable
  else if s.e1 = 0 ∧ s.e2 = 0 then .correct 33 s.e3
  else .uncorrectable

/-- The pattern with nibble n XORed with x. -/
def flipNibble (w : BitVec 144) (n x : Nat) : BitVec 144 := w ^^^ (BitVec.ofNat 144 (x % 16) <<< (4 * n))

/-- The pattern that remains after the reader's correction: 0 where it corrects the error, nonzero in the data where it
miscorrects one (R388). -/
def residue (p : BitVec 144) : BitVec 144 :=
  match guardDecode (syndrome p) with
  | .correct n x => flipNibble p n x
  | _ => p

/-- SYNDROME as the log holds it: S3 in [15:12] down to S0 in [3:0] (R401). -/
def G4.code (s : G4) : Nat := s.e0 + 16 * s.e1 + 256 * s.e2 + 4096 * s.e3

end Sys2Proof.Machine
end

