-- ==== Sys2Proof/Machine/RegSpec.lean ====
section
/-!
DEFINITION. The registers of the CSR window: for each, the block that holds it (R34), its offset, how many
there are and how far apart, and its fields with bits, access code (R7), reset value and the bounds to which a
write is clamped (R10). Written from the field tables of the chapters; a reserved bit is in no field (R9).
-/

namespace Sys2Proof.Machine

/-- Access codes (R7). -/
inductive Access where
  | rw | ro | w1c | w1s | rc | wo
  deriving DecidableEq, Repr

/-- The blocks of R34, R195, R251, R252, R319, R343, R365 and R451. -/
inductive Block where
  | hdr | mgt | grid | core | spad | bsq | bedc | brw | utlb | stk | reg | ptc | iommu | cmd | db | port | halDie | hal | link | d2d12 | d2d13 | d2d14 | pwr | pwrPlot | sec | tap | tapPlot
  deriving DecidableEq, Repr

/-- The registers, under the names the specification gives them. -/
inductive Reg where
  | MGT_DIE_INFO
  | MGT_DIE_FEATURES
  | MGT_BG_OWNER
  | MGT_PART_ERR
  | MGT_ID_STATUS
  | GRID_MODE
  | GRID_STATUS
  | GRID_TCFG
  | GRID_BUSY_CYCLES
  | GRID_TILES
  | GRID_PAD_CYCLES
  | GRID_CLASH_COUNT
  | CORE_ID
  | CORE_STATUS
  | CORE_FLAGS
  | CORE_PC
  | CORE_STEP
  | CORE_ISSUED
  | CORE_STALL_FLAG
  | CORE_STALL_SYNC
  | CORE_STALL_IB
  | CORE_LOSS_COUNT
  | CORE_BSQ_STATUS
  | CORE_BSQ_PHASE
  | CORE_BSQ_CTRL
  | CORE_BSQ_REFILL
  | CORE_BSQ_STARVE
  | CORE_BSQ_STEP
  | SPAD_STATUS
  | SPAD_CONFLICT
  | SPAD_RMW
  | SPAD_CE_COUNT
  | SPAD_REGION
  | BEDC_CTRL
  | BEDC_CMD
  | BEDC_STATUS
  | BEDC_HIT
  | BEDC_MISS
  | BEDC_PF_HIT
  | BEDC_PF_WASTED
  | BEDC_VICTIM_HIT
  | BEDC_MERGED
  | BEDC_DRAINED
  | BEDC_FLASH_INV
  | BEDC_MERGE_FULL
  | BEDC_CE_COUNT
  | BEDC_PROBE
  | BEDC_PROBE_DATA
  | STK_CTRL
  | STK_STATUS
  | STK_TRAIN
  | STK_IDENT
  | STK_REG
  | STK_REG_LEVEL
  | STK_REG_BYTES
  | STK_REG_WAIT
  | STK_OADD_LATE
  | STK_OADD_FULL
  | STK_OADD_OVF
  | STK_RD_BYTES
  | STK_WR_BYTES
  | STK_ROW_HIT
  | STK_ROW_MISS
  | STK_REFRESH
  | STK_ATOMIC
  | STK_CE_COUNT
  | STK_SCRUB_PASS
  | STK_OADD
  | STK_REGION
  | STK_REGION_CTL
  | STK_REGION_CMD
  | BRW_CTRL
  | BRW_STATUS
  | BRW_OUT
  | BRW_LAST_ERR
  | BRW_T4_DONE
  | BRW_STALL
  | BRW_LATE
  | BRW_BYTES
  | BRW_MOVES
  | BRW_FB_TAKEN
  | BRW_KICKS
  | XLT_CTRL
  | XLT_STATUS
  | XLT_FQ_BASE
  | XLT_FQ_HEAD
  | XLT_FQ_TAIL
  | XLT_FQ_CTRL
  | XLT_CTX_ROOT
  | XLT_CTX_EPADDR
  | XLT_CTX_EPOCH
  | XLT_IOTLB_HIT
  | XLT_WALKS
  | XLT_FAULTS
  | XLT_JOINS
  | XLT_INVALS
  | XLT_TIMEOUTS
  | XLT_PTC_STATUS
  | XLT_UTLB_STATUS
  | XLT_PTC_HIT
  | XLT_PTC_MISS
  | XLT_PTC_JOINED
  | XLT_PTC_INVAL
  | XLT_UTLB_HIT
  | XLT_UTLB_MISS
  | XLT_UTLB_FAULT_CYCLES
  | XLT_UTLB_DRAIN_CYCLES
  | CMD_CTRL
  | CMD_STATUS
  | CMD_RING_CFG
  | CMD_RING_BASE
  | CMD_RING_CQ
  | CMD_RING_STAT
  | CMD_SHELF
  | CMD_FETCHED
  | CMD_RECORDS
  | CMD_ABORT_LATE
  | CMD_CFG_APPLIED
  | CMD_CFG_ABANDONED
  | CMD_DB_TAIL
  | CMD_DB_CQ_HEAD
  | CMD_DB_HEAD
  | CMD_DB_CQ_TAIL
  | HAL_PORT_CFG
  | HAL_PORT_STATUS
  | HAL_PORT_DELAY
  | HAL_PORT_TX
  | HAL_PORT_RX
  | HAL_PORT_REPLAY
  | HAL_PORT_BAD
  | HAL_PORT_CE
  | HAL_PORT_HOLD
  | HAL_BYPASS
  | HAL_LASER
  | HAL_GROVE_CFG
  | HAL_GROVE_CMD
  | HAL_GROVE_STATUS
  | HAL_STATE_EPOCH
  | HAL_TIME
  | HAL_TIME_STATUS
  | HAL_LOCK_CFG
  | HAL_LOCK_PARTS
  | HAL_WIN_OPEN
  | HAL_LOCK_STATUS
  | HAL_MARGIN_MIN
  | HAL_MEMBERS
  | HAL_SLIPS
  | HAL_SHORT
  | HAL_LATE_AGREE
  | HAL_REISSUE
  | HAL_CHARTERS
  | HAL_FWD_BYTES
  | D2D_LINK_CFG
  | D2D_LINK_STATUS
  | D2D_LINK_FLITS
  | D2D_LINK_RETRY
  | D2D_LINK_CE
  | D2D_LINK_BAD
  | D2D_FENCE_CMD
  | D2D_FENCE_STATUS
  | D2D_PKG_FEATURES
  | D2D_EVENT_IRQ
  | D2D_GUEST_CFG
  | D2D_GUEST_STATUS
  | D2D_APERTURE
  | D2D_HOST_ERR
  | D2D_IRQ_MAP
  | D2D_CXL_SNOOP
  | D2D_CXL_BISNP
  | D2D_CXL_LOST
  | D2D_HOST_ERR_COUNT
  | D2D_IRQ_SENT
  | PWR_CTRL
  | PWR_CAP
  | PWR_HOST_PEAK
  | PWR_STATUS
  | PWR_DRAW
  | PWR_COOLANT
  | PWR_DROOP_CFG
  | PWR_PART
  | PWR_PART_STATUS
  | PWR_LEARN_SEL
  | PWR_LEARN_DATA
  | PWR_PLOT_STATUS
  | PWR_PLOT_DRAW
  | PWR_BG
  | PWR_STRETCH_NS
  | PWR_DROOP_EVENTS
  | PWR_LIMIT_NS
  | PWR_FALLOW_CYCLES
  | PWR_RETUNES
  | PWR_THROTTLE_MS
  | PWR_ENERGY
  | MGT_QSAVE
  | MGT_QSTATUS
  | MGT_QTIME
  | MGT_QCOUNT
  | MGT_ERR_CTRL
  | MGT_ERR_STATUS
  | MGT_ERR_LOG_HEAD
  | MGT_ERR_LOG_TAIL
  | MGT_ERR_CE_CFG
  | MGT_ERR_CE_TOTAL
  | MGT_ERR_UE_TOTAL
  | MGT_ERR_INJ_ADDR
  | MGT_ERR_INJ_CTL
  | SEC_CMD
  | SEC_CMD_ADDR
  | SEC_CMD_LEN
  | SEC_STATUS
  | SEC_IRQ
  | SEC_SLOT
  | SEC_GRAFT
  | SEC_ATTEST_INDEX
  | SEC_ATTEST_LIMIT
  | MGT_BOOT_STATUS
  | MGT_HEALTH
  | TAP_CTRL
  | TAP_STATUS
  | TAP_PLOT_STATUS
  | PWR_PART_ENERGY
  | D2D_GUEST_DESC
  | MGT_ERR_LOG
  deriving DecidableEq, Repr

/-- A field of a register: its low bit, its width, its access code, its reset value, and the least and
greatest value a write leaves in it. -/
structure Fld where
  reg : Reg
  lo : Nat
  w : Nat
  acc : Access
  reset : Nat
  mn : Nat
  mx : Nat
  deriving DecidableEq, Repr

def F.MGT_DIE_INFO_SLOT : Fld := ⟨.MGT_DIE_INFO, 0, 4, .ro, 0, 0, 15⟩
def F.MGT_DIE_INFO_KIND : Fld := ⟨.MGT_DIE_INFO, 4, 4, .ro, 0, 0, 15⟩
def F.MGT_DIE_INFO_REVISION : Fld := ⟨.MGT_DIE_INFO, 8, 8, .ro, 0, 0, 255⟩
def F.MGT_DIE_INFO_STATE : Fld := ⟨.MGT_DIE_INFO, 16, 3, .ro, 4, 0, 7⟩
def F.MGT_DIE_INFO_SELF_MANAGED : Fld := ⟨.MGT_DIE_INFO, 19, 1, .ro, 1, 0, 1⟩
def F.MGT_DIE_FEATURES_BITMAP : Fld := ⟨.MGT_DIE_FEATURES, 0, 64, .ro, 0, 0, 0xffffffffffffffff⟩
def F.MGT_BG_OWNER_PART : Fld := ⟨.MGT_BG_OWNER, 0, 5, .rw, 0, 0, 31⟩
def F.MGT_BG_OWNER_VALID : Fld := ⟨.MGT_BG_OWNER, 5, 1, .rw, 0, 0, 1⟩
def F.MGT_BG_OWNER_BUSY : Fld := ⟨.MGT_BG_OWNER, 6, 1, .ro, 0, 0, 1⟩
def F.MGT_PART_ERR_BUSY_WRITE : Fld := ⟨.MGT_PART_ERR, 0, 1, .w1c, 0, 0, 1⟩
def F.MGT_PART_ERR_LAST_BG : Fld := ⟨.MGT_PART_ERR, 8, 8, .ro, 0, 0, 255⟩
def F.MGT_ID_STATUS_SOURCE : Fld := ⟨.MGT_ID_STATUS, 0, 2, .ro, 0, 0, 3⟩
def F.MGT_ID_STATUS_CAUSE : Fld := ⟨.MGT_ID_STATUS, 2, 3, .ro, 0, 0, 7⟩
def F.MGT_ID_STATUS_MISMATCH_SLOT : Fld := ⟨.MGT_ID_STATUS, 8, 6, .ro, 0, 0, 63⟩
def F.GRID_MODE_ESPALIER : Fld := ⟨.GRID_MODE, 0, 1, .ro, 0, 0, 1⟩
def F.GRID_MODE_CORE : Fld := ⟨.GRID_MODE, 4, 6, .ro, 0, 0, 63⟩
def F.GRID_MODE_WEST_EDGE : Fld := ⟨.GRID_MODE, 10, 1, .ro, 0, 0, 1⟩
def F.GRID_MODE_NORTH_EDGE : Fld := ⟨.GRID_MODE, 11, 1, .ro, 0, 0, 1⟩
def F.GRID_MODE_LEADER : Fld := ⟨.GRID_MODE, 12, 1, .ro, 0, 0, 1⟩
def F.GRID_STATUS_BANK : Fld := ⟨.GRID_STATUS, 0, 1, .ro, 0, 0, 1⟩
def F.GRID_STATUS_PRESENTING : Fld := ⟨.GRID_STATUS, 1, 1, .ro, 0, 0, 1⟩
def F.GRID_STATUS_DRAINING : Fld := ⟨.GRID_STATUS, 2, 1, .ro, 0, 0, 1⟩
def F.GRID_STATUS_PENDING : Fld := ⟨.GRID_STATUS, 3, 1, .ro, 0, 0, 1⟩
def F.GRID_STATUS_NAN : Fld := ⟨.GRID_STATUS, 8, 1, .w1c, 0, 0, 1⟩
def F.GRID_STATUS_INF : Fld := ⟨.GRID_STATUS, 9, 1, .w1c, 0, 0, 1⟩
def F.GRID_STATUS_OVF : Fld := ⟨.GRID_STATUS, 10, 1, .w1c, 0, 0, 1⟩
def F.GRID_STATUS_PROD_SAT : Fld := ⟨.GRID_STATUS, 11, 1, .w1c, 0, 0, 1⟩
def F.GRID_STATUS_DROPPED : Fld := ⟨.GRID_STATUS, 12, 1, .w1c, 0, 0, 1⟩
def F.GRID_STATUS_IGNORED : Fld := ⟨.GRID_STATUS, 13, 1, .w1c, 0, 0, 1⟩
def F.GRID_STATUS_SELF_CLASH : Fld := ⟨.GRID_STATUS, 14, 1, .w1c, 0, 0, 1⟩
def F.GRID_STATUS_PADDED : Fld := ⟨.GRID_STATUS, 15, 1, .w1c, 0, 0, 1⟩
def F.GRID_TCFG_A_TYPE : Fld := ⟨.GRID_TCFG, 0, 4, .rw, 0, 0, 15⟩
def F.GRID_TCFG_B_TYPE : Fld := ⟨.GRID_TCFG, 4, 4, .rw, 0, 0, 15⟩
def F.GRID_TCFG_OUT_TYPE : Fld := ⟨.GRID_TCFG, 8, 3, .rw, 0, 0, 7⟩
def F.GRID_TCFG_RND : Fld := ⟨.GRID_TCFG, 12, 2, .rw, 0, 0, 3⟩
def F.GRID_TCFG_SAT : Fld := ⟨.GRID_TCFG, 14, 1, .rw, 0, 0, 1⟩
def F.GRID_TCFG_SPARSE_B : Fld := ⟨.GRID_TCFG, 15, 1, .rw, 0, 0, 1⟩
def F.GRID_TCFG_SCALE_A : Fld := ⟨.GRID_TCFG, 16, 1, .rw, 0, 0, 1⟩
def F.GRID_TCFG_SCALE_B : Fld := ⟨.GRID_TCFG, 17, 1, .rw, 0, 0, 1⟩
def F.GRID_TCFG_ANCHOR_SRC : Fld := ⟨.GRID_TCFG, 18, 2, .rw, 0, 0, 3⟩
def F.GRID_TCFG_ANCHOR : Fld := ⟨.GRID_TCFG, 32, 10, .rw, 1006, 0, 1023⟩
def F.GRID_BUSY_CYCLES_COUNT : Fld := ⟨.GRID_BUSY_CYCLES, 0, 48, .rc, 0, 0, 0xffffffffffff⟩
def F.GRID_TILES_COUNT : Fld := ⟨.GRID_TILES, 0, 32, .rc, 0, 0, 0xffffffff⟩
def F.GRID_PAD_CYCLES_COUNT : Fld := ⟨.GRID_PAD_CYCLES, 0, 32, .rc, 0, 0, 0xffffffff⟩
def F.GRID_CLASH_COUNT_COUNT : Fld := ⟨.GRID_CLASH_COUNT, 0, 32, .rc, 0, 0, 0xffffffff⟩
def F.CORE_ID_CORE : Fld := ⟨.CORE_ID, 0, 6, .ro, 0, 0, 63⟩
def F.CORE_ID_LBED : Fld := ⟨.CORE_ID, 6, 13, .ro, 0, 0, 8191⟩
def F.CORE_ID_PART : Fld := ⟨.CORE_ID, 19, 5, .ro, 0, 0, 31⟩
def F.CORE_ID_ACTIVE : Fld := ⟨.CORE_ID, 24, 1, .ro, 0, 0, 1⟩
def F.CORE_STATUS_ISSUING : Fld := ⟨.CORE_STATUS, 0, 1, .ro, 0, 0, 1⟩
def F.CORE_STATUS_WAIT : Fld := ⟨.CORE_STATUS, 1, 2, .ro, 0, 0, 3⟩
def F.CORE_STATUS_HALTED : Fld := ⟨.CORE_STATUS, 3, 1, .ro, 0, 0, 1⟩
def F.CORE_STATUS_VEC_LOSS : Fld := ⟨.CORE_STATUS, 8, 1, .w1c, 0, 0, 1⟩
def F.CORE_STATUS_LM_LOSS : Fld := ⟨.CORE_STATUS, 9, 1, .w1c, 0, 0, 1⟩
def F.CORE_STATUS_VEC_DROPPED : Fld := ⟨.CORE_STATUS, 10, 1, .w1c, 0, 0, 1⟩
def F.CORE_STATUS_LM_DROPPED : Fld := ⟨.CORE_STATUS, 11, 1, .w1c, 0, 0, 1⟩
def F.CORE_STATUS_FLAG_OVF : Fld := ⟨.CORE_STATUS, 12, 1, .w1c, 0, 0, 1⟩
def F.CORE_STATUS_FP_INVALID : Fld := ⟨.CORE_STATUS, 13, 1, .w1c, 0, 0, 1⟩
def F.CORE_STATUS_FP_OVF : Fld := ⟨.CORE_STATUS, 14, 1, .w1c, 0, 0, 1⟩
def F.CORE_STATUS_LOOP_ERR : Fld := ⟨.CORE_STATUS, 15, 1, .w1c, 0, 0, 1⟩
def F.CORE_FLAGS_FLAG0 : Fld := ⟨.CORE_FLAGS, 0, 6, .ro, 0, 0, 63⟩
def F.CORE_FLAGS_FLAG1 : Fld := ⟨.CORE_FLAGS, 8, 6, .ro, 0, 0, 63⟩
def F.CORE_FLAGS_FLAG2 : Fld := ⟨.CORE_FLAGS, 16, 6, .ro, 0, 0, 63⟩
def F.CORE_FLAGS_FLAG3 : Fld := ⟨.CORE_FLAGS, 24, 6, .ro, 0, 0, 63⟩
def F.CORE_FLAGS_FLAG4 : Fld := ⟨.CORE_FLAGS, 32, 6, .ro, 0, 0, 63⟩
def F.CORE_FLAGS_FLAG5 : Fld := ⟨.CORE_FLAGS, 40, 6, .ro, 0, 0, 63⟩
def F.CORE_FLAGS_FLAG6 : Fld := ⟨.CORE_FLAGS, 48, 6, .ro, 0, 0, 63⟩
def F.CORE_FLAGS_FLAG7 : Fld := ⟨.CORE_FLAGS, 56, 6, .ro, 0, 0, 63⟩
def F.CORE_PC_BUNDLE : Fld := ⟨.CORE_PC, 0, 32, .ro, 0, 0, 0xffffffff⟩
def F.CORE_PC_LOOP_DEPTH : Fld := ⟨.CORE_PC, 32, 2, .ro, 0, 0, 3⟩
def F.CORE_STEP_STEP : Fld := ⟨.CORE_STEP, 0, 32, .ro, 0, 0, 0xffffffff⟩
def F.CORE_ISSUED_COUNT : Fld := ⟨.CORE_ISSUED, 0, 48, .rc, 0, 0, 0xffffffffffff⟩
def F.CORE_STALL_FLAG_COUNT : Fld := ⟨.CORE_STALL_FLAG, 0, 48, .rc, 0, 0, 0xffffffffffff⟩
def F.CORE_STALL_SYNC_COUNT : Fld := ⟨.CORE_STALL_SYNC, 0, 48, .rc, 0, 0, 0xffffffffffff⟩
def F.CORE_STALL_IB_COUNT : Fld := ⟨.CORE_STALL_IB, 0, 48, .rc, 0, 0, 0xffffffffffff⟩
def F.CORE_LOSS_COUNT_COUNT : Fld := ⟨.CORE_LOSS_COUNT, 0, 48, .rc, 0, 0, 0xffffffffffff⟩
def F.CORE_BSQ_STATUS_RUNNING : Fld := ⟨.CORE_BSQ_STATUS, 0, 1, .ro, 0, 0, 1⟩
def F.CORE_BSQ_STATUS_ESPALIER : Fld := ⟨.CORE_BSQ_STATUS, 1, 1, .ro, 0, 0, 1⟩
def F.CORE_BSQ_STATUS_HALTED : Fld := ⟨.CORE_BSQ_STATUS, 2, 7, .ro, 0, 0, 127⟩
def F.CORE_BSQ_STATUS_SYNC_WAIT : Fld := ⟨.CORE_BSQ_STATUS, 9, 1, .ro, 0, 0, 1⟩
def F.CORE_BSQ_STATUS_SYNC_LEVEL : Fld := ⟨.CORE_BSQ_STATUS, 10, 2, .ro, 0, 0, 3⟩
def F.CORE_BSQ_STATUS_LBED : Fld := ⟨.CORE_BSQ_STATUS, 16, 13, .ro, 0, 0, 8191⟩
def F.CORE_BSQ_PHASE_PHASE : Fld := ⟨.CORE_BSQ_PHASE, 0, 8, .ro, 0, 0, 255⟩
def F.CORE_BSQ_CTRL_FALLOW : Fld := ⟨.CORE_BSQ_CTRL, 0, 6, .ro, 0, 0, 63⟩
def F.CORE_BSQ_CTRL_OPP : Fld := ⟨.CORE_BSQ_CTRL, 6, 3, .ro, 0, 0, 7⟩
def F.CORE_BSQ_REFILL_COUNT : Fld := ⟨.CORE_BSQ_REFILL, 0, 48, .rc, 0, 0, 0xffffffffffff⟩
def F.CORE_BSQ_STARVE_COUNT : Fld := ⟨.CORE_BSQ_STARVE, 0, 48, .rc, 0, 0, 0xffffffffffff⟩
def F.CORE_BSQ_STEP_STEP : Fld := ⟨.CORE_BSQ_STEP, 0, 32, .ro, 0, 0, 0xffffffff⟩
def F.SPAD_STATUS_POWER : Fld := ⟨.SPAD_STATUS, 0, 2, .ro, 3, 0, 3⟩
def F.SPAD_STATUS_REGION_VIOL : Fld := ⟨.SPAD_STATUS, 8, 5, .w1c, 0, 0, 31⟩
def F.SPAD_STATUS_RMW_RETRY : Fld := ⟨.SPAD_STATUS, 13, 1, .w1c, 0, 0, 1⟩
def F.SPAD_STATUS_UE : Fld := ⟨.SPAD_STATUS, 14, 1, .w1c, 0, 0, 1⟩
def F.SPAD_CONFLICT_COUNT : Fld := ⟨.SPAD_CONFLICT, 0, 48, .rc, 0, 0, 0xffffffffffff⟩
def F.SPAD_RMW_DONE : Fld := ⟨.SPAD_RMW, 0, 32, .rc, 0, 0, 0xffffffff⟩
def F.SPAD_RMW_RETRY : Fld := ⟨.SPAD_RMW, 32, 32, .rc, 0, 0, 0xffffffff⟩
def F.SPAD_CE_COUNT_COUNT : Fld := ⟨.SPAD_CE_COUNT, 0, 32, .rc, 0, 0, 0xffffffff⟩
def F.SPAD_REGION_BASE_GRAN : Fld := ⟨.SPAD_REGION, 0, 11, .rw, 0, 0, 2047⟩
def F.SPAD_REGION_LIMIT_GRAN : Fld := ⟨.SPAD_REGION, 16, 11, .rw, 0, 0, 2047⟩
def F.SPAD_REGION_READ : Fld := ⟨.SPAD_REGION, 28, 1, .rw, 0, 0, 1⟩
def F.SPAD_REGION_WRITE : Fld := ⟨.SPAD_REGION, 29, 1, .rw, 0, 0, 1⟩
def F.SPAD_REGION_EN : Fld := ⟨.SPAD_REGION, 31, 1, .rw, 0, 0, 1⟩
def F.BEDC_CTRL_PF_EN : Fld := ⟨.BEDC_CTRL, 0, 1, .rw, 1, 0, 1⟩
def F.BEDC_CTRL_VICTIM_EN : Fld := ⟨.BEDC_CTRL, 1, 1, .rw, 1, 0, 1⟩
def F.BEDC_CTRL_MERGE_EN : Fld := ⟨.BEDC_CTRL, 2, 1, .rw, 1, 0, 1⟩
def F.BEDC_CTRL_MERGE_IDLE : Fld := ⟨.BEDC_CTRL, 8, 8, .rw, 64, 0, 255⟩
def F.BEDC_CMD_INV_SHARED : Fld := ⟨.BEDC_CMD, 0, 1, .wo, 0, 0, 1⟩
def F.BEDC_CMD_INV_ALL : Fld := ⟨.BEDC_CMD, 1, 1, .wo, 0, 0, 1⟩
def F.BEDC_CMD_DRAIN : Fld := ⟨.BEDC_CMD, 2, 1, .wo, 0, 0, 1⟩
def F.BEDC_STATUS_MERGE_OCC : Fld := ⟨.BEDC_STATUS, 0, 6, .ro, 0, 0, 63⟩
def F.BEDC_STATUS_PF_OCC : Fld := ⟨.BEDC_STATUS, 6, 7, .ro, 0, 0, 127⟩
def F.BEDC_STATUS_VICTIM_OCC : Fld := ⟨.BEDC_STATUS, 13, 5, .ro, 0, 0, 31⟩
def F.BEDC_STATUS_BUSY : Fld := ⟨.BEDC_STATUS, 18, 1, .ro, 0, 0, 1⟩
def F.BEDC_STATUS_UE : Fld := ⟨.BEDC_STATUS, 19, 1, .w1c, 0, 0, 1⟩
def F.BEDC_HIT_COUNT : Fld := ⟨.BEDC_HIT, 0, 48, .rc, 0, 0, 0xffffffffffff⟩
def F.BEDC_MISS_COUNT : Fld := ⟨.BEDC_MISS, 0, 48, .rc, 0, 0, 0xffffffffffff⟩
def F.BEDC_PF_HIT_COUNT : Fld := ⟨.BEDC_PF_HIT, 0, 48, .rc, 0, 0, 0xffffffffffff⟩
def F.BEDC_PF_WASTED_COUNT : Fld := ⟨.BEDC_PF_WASTED, 0, 48, .rc, 0, 0, 0xffffffffffff⟩
def F.BEDC_VICTIM_HIT_COUNT : Fld := ⟨.BEDC_VICTIM_HIT, 0, 48, .rc, 0, 0, 0xffffffffffff⟩
def F.BEDC_MERGED_COUNT : Fld := ⟨.BEDC_MERGED, 0, 48, .rc, 0, 0, 0xffffffffffff⟩
def F.BEDC_DRAINED_COUNT : Fld := ⟨.BEDC_DRAINED, 0, 48, .rc, 0, 0, 0xffffffffffff⟩
def F.BEDC_FLASH_INV_COUNT : Fld := ⟨.BEDC_FLASH_INV, 0, 48, .rc, 0, 0, 0xffffffffffff⟩
def F.BEDC_MERGE_FULL_COUNT : Fld := ⟨.BEDC_MERGE_FULL, 0, 48, .rc, 0, 0, 0xffffffffffff⟩
def F.BEDC_CE_COUNT_COUNT : Fld := ⟨.BEDC_CE_COUNT, 0, 48, .rc, 0, 0, 0xffffffffffff⟩
def F.BEDC_PROBE_SET : Fld := ⟨.BEDC_PROBE, 0, 10, .rw, 0, 0, 1023⟩
def F.BEDC_PROBE_DATA_PLRU : Fld := ⟨.BEDC_PROBE_DATA, 0, 15, .ro, 0, 0, 32767⟩
def F.BEDC_PROBE_DATA_VALID : Fld := ⟨.BEDC_PROBE_DATA, 16, 16, .ro, 0, 0, 65535⟩
def F.BEDC_PROBE_DATA_SHARED : Fld := ⟨.BEDC_PROBE_DATA, 32, 16, .ro, 0, 0, 65535⟩
def F.STK_CTRL_PATROL_EN : Fld := ⟨.STK_CTRL, 0, 1, .rw, 1, 0, 1⟩
def F.STK_CTRL_PATROL_HOURS : Fld := ⟨.STK_CTRL, 8, 8, .rw, 24, 1, 255⟩
def F.STK_STATUS_STATE : Fld := ⟨.STK_STATUS, 0, 3, .ro, 4, 0, 7⟩
def F.STK_STATUS_TEMP : Fld := ⟨.STK_STATUS, 8, 8, .ro, 0, 0, 255⟩
def F.STK_STATUS_HOT : Fld := ⟨.STK_STATUS, 16, 1, .ro, 0, 0, 1⟩
def F.STK_STATUS_UE : Fld := ⟨.STK_STATUS, 17, 1, .w1c, 0, 0, 1⟩
def F.STK_TRAIN_LAST_STEP : Fld := ⟨.STK_TRAIN, 0, 3, .ro, 0, 0, 7⟩
def F.STK_TRAIN_FAILED : Fld := ⟨.STK_TRAIN, 3, 1, .ro, 0, 0, 1⟩
def F.STK_TRAIN_LANES_REPAIRED : Fld := ⟨.STK_TRAIN, 8, 8, .ro, 0, 0, 255⟩
def F.STK_TRAIN_DURATION_US : Fld := ⟨.STK_TRAIN, 16, 16, .ro, 0, 0, 65535⟩
def F.STK_IDENT_MFR : Fld := ⟨.STK_IDENT, 0, 8, .ro, 0, 0, 255⟩
def F.STK_IDENT_HEIGHT : Fld := ⟨.STK_IDENT, 8, 8, .ro, 0, 0, 255⟩
def F.STK_IDENT_DENSITY : Fld := ⟨.STK_IDENT, 16, 8, .ro, 0, 0, 255⟩
def F.STK_IDENT_REVISION : Fld := ⟨.STK_IDENT, 24, 8, .ro, 0, 0, 255⟩
def F.STK_REG_RATE : Fld := ⟨.STK_REG, 0, 13, .rw, 7040, 0, 7040⟩
def F.STK_REG_BURST : Fld := ⟨.STK_REG, 16, 16, .rw, 65535, 2, 65535⟩
def F.STK_REG_BORROW : Fld := ⟨.STK_REG, 32, 1, .rw, 1, 0, 1⟩
def F.STK_REG_EN : Fld := ⟨.STK_REG, 33, 1, .rw, 0, 0, 1⟩
def F.STK_REG_LEVEL_LEVEL : Fld := ⟨.STK_REG_LEVEL, 0, 16, .ro, 65535, 0, 65535⟩
def F.STK_REG_BYTES_COUNT : Fld := ⟨.STK_REG_BYTES, 0, 48, .rc, 0, 0, 0xffffffffffff⟩
def F.STK_REG_WAIT_COUNT : Fld := ⟨.STK_REG_WAIT, 0, 48, .rc, 0, 0, 0xffffffffffff⟩
def F.STK_OADD_LATE_COUNT : Fld := ⟨.STK_OADD_LATE, 0, 48, .rc, 0, 0, 0xffffffffffff⟩
def F.STK_OADD_FULL_COUNT : Fld := ⟨.STK_OADD_FULL, 0, 48, .rc, 0, 0, 0xffffffffffff⟩
def F.STK_OADD_OVF_COUNT : Fld := ⟨.STK_OADD_OVF, 0, 48, .rc, 0, 0, 0xffffffffffff⟩
def F.STK_RD_BYTES_COUNT : Fld := ⟨.STK_RD_BYTES, 0, 48, .rc, 0, 0, 0xffffffffffff⟩
def F.STK_WR_BYTES_COUNT : Fld := ⟨.STK_WR_BYTES, 0, 48, .rc, 0, 0, 0xffffffffffff⟩
def F.STK_ROW_HIT_COUNT : Fld := ⟨.STK_ROW_HIT, 0, 48, .rc, 0, 0, 0xffffffffffff⟩
def F.STK_ROW_MISS_COUNT : Fld := ⟨.STK_ROW_MISS, 0, 48, .rc, 0, 0, 0xffffffffffff⟩
def F.STK_REFRESH_COUNT : Fld := ⟨.STK_REFRESH, 0, 48, .rc, 0, 0, 0xffffffffffff⟩
def F.STK_ATOMIC_COUNT : Fld := ⟨.STK_ATOMIC, 0, 48, .rc, 0, 0, 0xffffffffffff⟩
def F.STK_CE_COUNT_COUNT : Fld := ⟨.STK_CE_COUNT, 0, 48, .rc, 0, 0, 0xffffffffffff⟩
def F.STK_SCRUB_PASS_COUNT : Fld := ⟨.STK_SCRUB_PASS, 0, 48, .rc, 0, 0, 0xffffffffffff⟩
def F.STK_OADD_OCC : Fld := ⟨.STK_OADD, 0, 13, .ro, 0, 0, 8191⟩
def F.STK_REGION_BASE : Fld := ⟨.STK_REGION, 0, 11, .rw, 0, 0, 2047⟩
def F.STK_REGION_SIZE : Fld := ⟨.STK_REGION, 16, 11, .rw, 0, 0, 2047⟩
def F.STK_REGION_WIDE : Fld := ⟨.STK_REGION, 28, 1, .rw, 0, 0, 1⟩
def F.STK_REGION_PLOT : Fld := ⟨.STK_REGION, 32, 4, .rw, 0, 0, 15⟩
def F.STK_REGION_STACK_BASE : Fld := ⟨.STK_REGION, 40, 7, .rw, 0, 0, 127⟩
def F.STK_REGION_PART : Fld := ⟨.STK_REGION, 48, 5, .rw, 0, 0, 31⟩
def F.STK_REGION_ALL_PARTS : Fld := ⟨.STK_REGION, 53, 1, .rw, 0, 0, 1⟩
def F.STK_REGION_GROVE_OPEN : Fld := ⟨.STK_REGION, 54, 1, .rw, 0, 0, 1⟩
def F.STK_REGION_FAULTED : Fld := ⟨.STK_REGION, 61, 1, .ro, 0, 0, 1⟩
def F.STK_REGION_VALID : Fld := ⟨.STK_REGION, 63, 1, .rw, 0, 0, 1⟩
def F.STK_REGION_CTL_BUSY : Fld := ⟨.STK_REGION_CTL, 0, 1, .ro, 0, 0, 1⟩
def F.STK_REGION_CTL_OVERLAP : Fld := ⟨.STK_REGION_CTL, 1, 1, .w1c, 0, 0, 1⟩
def F.STK_REGION_CTL_LOCKED_WRITE : Fld := ⟨.STK_REGION_CTL, 2, 1, .w1c, 0, 0, 1⟩
def F.STK_REGION_CTL_BUSY_WRITE : Fld := ⟨.STK_REGION_CTL, 3, 1, .w1c, 0, 0, 1⟩
def F.STK_REGION_CTL_LAST_INDEX : Fld := ⟨.STK_REGION_CTL, 8, 6, .ro, 0, 0, 63⟩
def F.STK_REGION_CMD_INDEX : Fld := ⟨.STK_REGION_CMD, 0, 6, .wo, 0, 0, 63⟩
def F.STK_REGION_CMD_CLEAR_FAULT : Fld := ⟨.STK_REGION_CMD, 8, 1, .wo, 0, 0, 1⟩
def F.BRW_CTRL_OUT_LIMIT : Fld := ⟨.BRW_CTRL, 0, 13, .rw, 4096, 1, 4096⟩
def F.BRW_STATUS_RUNNING : Fld := ⟨.BRW_STATUS, 0, 1, .ro, 0, 0, 1⟩
def F.BRW_STATUS_ARMED : Fld := ⟨.BRW_STATUS, 1, 7, .ro, 0, 0, 127⟩
def F.BRW_STATUS_ACTIVE : Fld := ⟨.BRW_STATUS, 8, 5, .ro, 0, 0, 31⟩
def F.BRW_STATUS_REPLAY : Fld := ⟨.BRW_STATUS, 13, 1, .ro, 0, 0, 1⟩
def F.BRW_STATUS_KICK_DROPPED : Fld := ⟨.BRW_STATUS, 16, 1, .w1c, 0, 0, 1⟩
def F.BRW_STATUS_XPOSE_IGNORED : Fld := ⟨.BRW_STATUS, 17, 1, .w1c, 0, 0, 1⟩
def F.BRW_STATUS_TIER_MIX : Fld := ⟨.BRW_STATUS, 18, 1, .w1c, 0, 0, 1⟩
def F.BRW_STATUS_RUN_MISMATCH : Fld := ⟨.BRW_STATUS, 19, 1, .w1c, 0, 0, 1⟩
def F.BRW_STATUS_LATE : Fld := ⟨.BRW_STATUS, 20, 1, .w1c, 0, 0, 1⟩
def F.BRW_STATUS_FB_TAKEN : Fld := ⟨.BRW_STATUS, 21, 1, .w1c, 0, 0, 1⟩
def F.BRW_STATUS_UE : Fld := ⟨.BRW_STATUS, 22, 1, .w1c, 0, 0, 1⟩
def F.BRW_OUT_LINES : Fld := ⟨.BRW_OUT, 0, 13, .ro, 0, 0, 8191⟩
def F.BRW_OUT_T4 : Fld := ⟨.BRW_OUT, 16, 5, .ro, 0, 0, 31⟩
def F.BRW_LAST_ERR_PROGRAM : Fld := ⟨.BRW_LAST_ERR, 0, 12, .ro, 0, 0, 4095⟩
def F.BRW_LAST_ERR_STATUS : Fld := ⟨.BRW_LAST_ERR, 12, 4, .ro, 0, 0, 15⟩
def F.BRW_LAST_ERR_RECORD : Fld := ⟨.BRW_LAST_ERR, 16, 32, .ro, 0, 0, 0xffffffff⟩
def F.BRW_LAST_ERR_VALID : Fld := ⟨.BRW_LAST_ERR, 48, 1, .w1c, 0, 0, 1⟩
def F.BRW_T4_DONE_TAG : Fld := ⟨.BRW_T4_DONE, 0, 4, .wo, 0, 0, 15⟩
def F.BRW_T4_DONE_ERROR : Fld := ⟨.BRW_T4_DONE, 8, 1, .wo, 0, 0, 1⟩
def F.BRW_STALL_COUNT : Fld := ⟨.BRW_STALL, 0, 48, .rc, 0, 0, 0xffffffffffff⟩
def F.BRW_LATE_COUNT : Fld := ⟨.BRW_LATE, 0, 48, .rc, 0, 0, 0xffffffffffff⟩
def F.BRW_BYTES_COUNT : Fld := ⟨.BRW_BYTES, 0, 48, .rc, 0, 0, 0xffffffffffff⟩
def F.BRW_MOVES_COUNT : Fld := ⟨.BRW_MOVES, 0, 48, .rc, 0, 0, 0xffffffffffff⟩
def F.BRW_FB_TAKEN_COUNT : Fld := ⟨.BRW_FB_TAKEN, 0, 48, .rc, 0, 0, 0xffffffffffff⟩
def F.BRW_KICKS_COUNT : Fld := ⟨.BRW_KICKS, 0, 48, .rc, 0, 0, 0xffffffffffff⟩
def F.XLT_CTRL_DEV_EN : Fld := ⟨.XLT_CTRL, 0, 1, .rw, 1, 0, 1⟩
def F.XLT_CTRL_TIMEOUT_MS : Fld := ⟨.XLT_CTRL, 16, 10, .rw, 100, 0, 1023⟩
def F.XLT_STATUS_FQ_FULL : Fld := ⟨.XLT_STATUS, 0, 1, .ro, 0, 0, 1⟩
def F.XLT_STATUS_STALE_RESP : Fld := ⟨.XLT_STATUS, 1, 1, .w1c, 0, 0, 1⟩
def F.XLT_STATUS_TIMEOUT : Fld := ⟨.XLT_STATUS, 2, 1, .w1c, 0, 0, 1⟩
def F.XLT_STATUS_BAD_TABLE : Fld := ⟨.XLT_STATUS, 3, 1, .w1c, 0, 0, 1⟩
def F.XLT_STATUS_OPEN : Fld := ⟨.XLT_STATUS, 8, 9, .ro, 0, 0, 511⟩
def F.XLT_FQ_BASE_LOG2_SIZE : Fld := ⟨.XLT_FQ_BASE, 0, 5, .rw, 4, 4, 16⟩
def F.XLT_FQ_BASE_BASE : Fld := ⟨.XLT_FQ_BASE, 12, 49, .rw, 0, 0, 0x1ffffffffffff⟩
def F.XLT_FQ_HEAD_INDEX : Fld := ⟨.XLT_FQ_HEAD, 0, 16, .rw, 0, 0, 65535⟩
def F.XLT_FQ_TAIL_INDEX : Fld := ⟨.XLT_FQ_TAIL, 0, 16, .ro, 0, 0, 65535⟩
def F.XLT_FQ_CTRL_IE : Fld := ⟨.XLT_FQ_CTRL, 0, 1, .rw, 0, 0, 1⟩
def F.XLT_FQ_CTRL_IID : Fld := ⟨.XLT_FQ_CTRL, 16, 11, .rw, 0, 0, 2047⟩
def F.XLT_CTX_ROOT_EN : Fld := ⟨.XLT_CTX_ROOT, 0, 1, .rw, 0, 0, 1⟩
def F.XLT_CTX_ROOT_ROOT : Fld := ⟨.XLT_CTX_ROOT, 16, 45, .rw, 0, 0, 0x1fffffffffff⟩
def F.XLT_CTX_EPADDR_ADDR : Fld := ⟨.XLT_CTX_EPADDR, 2, 59, .rw, 0, 0, 0x7ffffffffffffff⟩
def F.XLT_CTX_EPOCH_EPOCH : Fld := ⟨.XLT_CTX_EPOCH, 0, 32, .ro, 0, 0, 0xffffffff⟩
def F.XLT_CTX_EPOCH_BUSY : Fld := ⟨.XLT_CTX_EPOCH, 32, 1, .ro, 0, 0, 1⟩
def F.XLT_IOTLB_HIT_COUNT : Fld := ⟨.XLT_IOTLB_HIT, 0, 48, .rc, 0, 0, 0xffffffffffff⟩
def F.XLT_WALKS_COUNT : Fld := ⟨.XLT_WALKS, 0, 48, .rc, 0, 0, 0xffffffffffff⟩
def F.XLT_FAULTS_COUNT : Fld := ⟨.XLT_FAULTS, 0, 48, .rc, 0, 0, 0xffffffffffff⟩
def F.XLT_JOINS_COUNT : Fld := ⟨.XLT_JOINS, 0, 48, .rc, 0, 0, 0xffffffffffff⟩
def F.XLT_INVALS_COUNT : Fld := ⟨.XLT_INVALS, 0, 48, .rc, 0, 0, 0xffffffffffff⟩
def F.XLT_TIMEOUTS_COUNT : Fld := ⟨.XLT_TIMEOUTS, 0, 48, .rc, 0, 0, 0xffffffffffff⟩
def F.XLT_PTC_STATUS_VALID : Fld := ⟨.XLT_PTC_STATUS, 0, 15, .ro, 0, 0, 32767⟩
def F.XLT_PTC_STATUS_INVAL_BUSY : Fld := ⟨.XLT_PTC_STATUS, 15, 1, .ro, 0, 0, 1⟩
def F.XLT_UTLB_STATUS_VALID : Fld := ⟨.XLT_UTLB_STATUS, 0, 8, .ro, 0, 0, 255⟩
def F.XLT_UTLB_STATUS_DRAINING : Fld := ⟨.XLT_UTLB_STATUS, 8, 1, .ro, 0, 0, 1⟩
def F.XLT_PTC_HIT_COUNT : Fld := ⟨.XLT_PTC_HIT, 0, 48, .rc, 0, 0, 0xffffffffffff⟩
def F.XLT_PTC_MISS_COUNT : Fld := ⟨.XLT_PTC_MISS, 0, 48, .rc, 0, 0, 0xffffffffffff⟩
def F.XLT_PTC_JOINED_COUNT : Fld := ⟨.XLT_PTC_JOINED, 0, 48, .rc, 0, 0, 0xffffffffffff⟩
def F.XLT_PTC_INVAL_COUNT : Fld := ⟨.XLT_PTC_INVAL, 0, 48, .rc, 0, 0, 0xffffffffffff⟩
def F.XLT_UTLB_HIT_COUNT : Fld := ⟨.XLT_UTLB_HIT, 0, 48, .rc, 0, 0, 0xffffffffffff⟩
def F.XLT_UTLB_MISS_COUNT : Fld := ⟨.XLT_UTLB_MISS, 0, 48, .rc, 0, 0, 0xffffffffffff⟩
def F.XLT_UTLB_FAULT_CYCLES_COUNT : Fld := ⟨.XLT_UTLB_FAULT_CYCLES, 0, 48, .rc, 0, 0, 0xffffffffffff⟩
def F.XLT_UTLB_DRAIN_CYCLES_COUNT : Fld := ⟨.XLT_UTLB_DRAIN_CYCLES, 0, 48, .rc, 0, 0, 0xffffffffffff⟩
def F.CMD_CTRL_EN : Fld := ⟨.CMD_CTRL, 0, 1, .rw, 0, 0, 1⟩
def F.CMD_CTRL_POLL_TICKS : Fld := ⟨.CMD_CTRL, 8, 8, .rw, 16, 1, 255⟩
def F.CMD_STATUS_TAIL_CLAMP : Fld := ⟨.CMD_STATUS, 0, 1, .w1c, 0, 0, 1⟩
def F.CMD_STATUS_CQ_LOST : Fld := ⟨.CMD_STATUS, 1, 1, .w1c, 0, 0, 1⟩
def F.CMD_STATUS_DISABLED_WRITE : Fld := ⟨.CMD_STATUS, 2, 1, .w1c, 0, 0, 1⟩
def F.CMD_STATUS_LAST_RING : Fld := ⟨.CMD_STATUS, 16, 10, .ro, 0, 0, 1023⟩
def F.CMD_RING_CFG_EN : Fld := ⟨.CMD_RING_CFG, 0, 1, .rw, 0, 0, 1⟩
def F.CMD_RING_CFG_DIR : Fld := ⟨.CMD_RING_CFG, 1, 1, .rw, 0, 0, 1⟩
def F.CMD_RING_CFG_HOST : Fld := ⟨.CMD_RING_CFG, 2, 1, .rw, 0, 0, 1⟩
def F.CMD_RING_CFG_IRQ_ERR : Fld := ⟨.CMD_RING_CFG, 3, 1, .rw, 1, 0, 1⟩
def F.CMD_RING_CFG_LOG2_SIZE : Fld := ⟨.CMD_RING_CFG, 4, 4, .rw, 4, 4, 12⟩
def F.CMD_RING_CFG_PART : Fld := ⟨.CMD_RING_CFG, 8, 5, .rw, 0, 0, 31⟩
def F.CMD_RING_CFG_IID : Fld := ⟨.CMD_RING_CFG, 16, 11, .rw, 0, 0, 2047⟩
def F.CMD_RING_CFG_BUSY : Fld := ⟨.CMD_RING_CFG, 31, 1, .ro, 0, 0, 1⟩
def F.CMD_RING_BASE_BASE : Fld := ⟨.CMD_RING_BASE, 12, 40, .rw, 0, 0, 0xffffffffff⟩
def F.CMD_RING_CQ_BASE : Fld := ⟨.CMD_RING_CQ, 12, 40, .rw, 0, 0, 0xffffffffff⟩
def F.CMD_RING_STAT_INFLIGHT : Fld := ⟨.CMD_RING_STAT, 0, 13, .ro, 0, 0, 8191⟩
def F.CMD_RING_STAT_CQ_LOST : Fld := ⟨.CMD_RING_STAT, 16, 1, .w1c, 0, 0, 1⟩
def F.CMD_RING_STAT_TAIL_CLAMP : Fld := ⟨.CMD_RING_STAT, 17, 1, .w1c, 0, 0, 1⟩
def F.CMD_RING_STAT_STOPPED : Fld := ⟨.CMD_RING_STAT, 18, 1, .ro, 0, 0, 1⟩
def F.CMD_SHELF_STATE : Fld := ⟨.CMD_SHELF, 0, 2, .ro, 0, 0, 3⟩
def F.CMD_SHELF_COUNT : Fld := ⟨.CMD_SHELF, 2, 11, .ro, 0, 0, 2047⟩
def F.CMD_SHELF_PART : Fld := ⟨.CMD_SHELF, 13, 5, .ro, 0, 0, 31⟩
def F.CMD_SHELF_LAST_CAUSE : Fld := ⟨.CMD_SHELF, 20, 4, .ro, 0, 0, 15⟩
def F.CMD_SHELF_TARGET_STEP : Fld := ⟨.CMD_SHELF, 32, 32, .ro, 0, 0, 0xffffffff⟩
def F.CMD_FETCHED_COUNT : Fld := ⟨.CMD_FETCHED, 0, 48, .rc, 0, 0, 0xffffffffffff⟩
def F.CMD_RECORDS_COUNT : Fld := ⟨.CMD_RECORDS, 0, 48, .rc, 0, 0, 0xffffffffffff⟩
def F.CMD_ABORT_LATE_COUNT : Fld := ⟨.CMD_ABORT_LATE, 0, 48, .rc, 0, 0, 0xffffffffffff⟩
def F.CMD_CFG_APPLIED_COUNT : Fld := ⟨.CMD_CFG_APPLIED, 0, 48, .rc, 0, 0, 0xffffffffffff⟩
def F.CMD_CFG_ABANDONED_COUNT : Fld := ⟨.CMD_CFG_ABANDONED, 0, 48, .rc, 0, 0, 0xffffffffffff⟩
def F.CMD_DB_TAIL_TAIL : Fld := ⟨.CMD_DB_TAIL, 0, 32, .rw, 0, 0, 0xffffffff⟩
def F.CMD_DB_CQ_HEAD_CQ_HEAD : Fld := ⟨.CMD_DB_CQ_HEAD, 0, 32, .rw, 0, 0, 0xffffffff⟩
def F.CMD_DB_HEAD_HEAD : Fld := ⟨.CMD_DB_HEAD, 0, 32, .rw, 0, 0, 0xffffffff⟩
def F.CMD_DB_CQ_TAIL_CQ_TAIL : Fld := ⟨.CMD_DB_CQ_TAIL, 0, 32, .ro, 0, 0, 0xffffffff⟩
def F.HAL_PORT_CFG_EN : Fld := ⟨.HAL_PORT_CFG, 0, 1, .rw, 1, 0, 1⟩
def F.HAL_PORT_CFG_RETRAIN : Fld := ⟨.HAL_PORT_CFG, 1, 1, .wo, 0, 0, 1⟩
def F.HAL_PORT_CFG_CLEAR_RETIRED : Fld := ⟨.HAL_PORT_CFG, 2, 1, .wo, 0, 0, 1⟩
def F.HAL_PORT_CFG_REPLAY_LIMIT : Fld := ⟨.HAL_PORT_CFG, 8, 8, .rw, 64, 1, 255⟩
def F.HAL_PORT_STATUS_STATE : Fld := ⟨.HAL_PORT_STATUS, 0, 3, .ro, 0, 0, 7⟩
def F.HAL_PORT_STATUS_CAUSE : Fld := ⟨.HAL_PORT_STATUS, 3, 4, .ro, 0, 0, 15⟩
def F.HAL_PORT_STATUS_PEER : Fld := ⟨.HAL_PORT_STATUS, 7, 9, .ro, 0, 0, 511⟩
def F.HAL_PORT_STATUS_PEER_PORT : Fld := ⟨.HAL_PORT_STATUS, 16, 4, .ro, 0, 0, 15⟩
def F.HAL_PORT_STATUS_TIMING : Fld := ⟨.HAL_PORT_STATUS, 20, 1, .ro, 0, 0, 1⟩
def F.HAL_PORT_DELAY_CYCLES : Fld := ⟨.HAL_PORT_DELAY, 0, 12, .ro, 0, 0, 4095⟩
def F.HAL_PORT_TX_COUNT : Fld := ⟨.HAL_PORT_TX, 0, 48, .rc, 0, 0, 0xffffffffffff⟩
def F.HAL_PORT_RX_COUNT : Fld := ⟨.HAL_PORT_RX, 0, 48, .rc, 0, 0, 0xffffffffffff⟩
def F.HAL_PORT_REPLAY_COUNT : Fld := ⟨.HAL_PORT_REPLAY, 0, 48, .rc, 0, 0, 0xffffffffffff⟩
def F.HAL_PORT_BAD_COUNT : Fld := ⟨.HAL_PORT_BAD, 0, 48, .rc, 0, 0, 0xffffffffffff⟩
def F.HAL_PORT_CE_COUNT : Fld := ⟨.HAL_PORT_CE, 0, 48, .rc, 0, 0, 0xffffffffffff⟩
def F.HAL_PORT_HOLD_COUNT : Fld := ⟨.HAL_PORT_HOLD, 0, 48, .rc, 0, 0, 0xffffffffffff⟩
def F.HAL_BYPASS_CLOSED : Fld := ⟨.HAL_BYPASS, 0, 4, .ro, 0, 0, 15⟩
def F.HAL_BYPASS_CLOSE : Fld := ⟨.HAL_BYPASS, 4, 4, .wo, 0, 0, 15⟩
def F.HAL_BYPASS_OPEN : Fld := ⟨.HAL_BYPASS, 8, 4, .wo, 0, 0, 15⟩
def F.HAL_BYPASS_BUSY : Fld := ⟨.HAL_BYPASS, 12, 1, .ro, 0, 0, 1⟩
def F.HAL_LASER_PRESENT : Fld := ⟨.HAL_LASER, 0, 1, .ro, 0, 0, 1⟩
def F.HAL_LASER_POWER_OK : Fld := ⟨.HAL_LASER, 1, 1, .ro, 0, 0, 1⟩
def F.HAL_LASER_EN : Fld := ⟨.HAL_LASER, 2, 1, .rw, 1, 0, 1⟩
def F.HAL_LASER_TEMP : Fld := ⟨.HAL_LASER, 8, 8, .ro, 0, 0, 255⟩
def F.HAL_LASER_OPT_MW : Fld := ⟨.HAL_LASER, 16, 16, .ro, 0, 0, 65535⟩
def F.HAL_LASER_HOURS : Fld := ⟨.HAL_LASER, 32, 32, .ro, 0, 0, 0xffffffff⟩
def F.HAL_GROVE_CFG_REQ_NUM : Fld := ⟨.HAL_GROVE_CFG, 0, 9, .rw, 0, 0, 511⟩
def F.HAL_GROVE_CFG_JOIN_AUTO : Fld := ⟨.HAL_GROVE_CFG, 9, 1, .rw, 1, 0, 1⟩
def F.HAL_GROVE_CFG_BYPASS_ON_EXCLUDE : Fld := ⟨.HAL_GROVE_CFG, 10, 1, .rw, 0, 0, 1⟩
def F.HAL_GROVE_CFG_REMOTE_REG : Fld := ⟨.HAL_GROVE_CFG, 16, 6, .rw, 32, 0, 32⟩
def F.HAL_GROVE_CFG_READY_10MS : Fld := ⟨.HAL_GROVE_CFG, 22, 10, .rw, 100, 1, 1023⟩
def F.HAL_GROVE_CMD_JOIN : Fld := ⟨.HAL_GROVE_CMD, 0, 1, .wo, 0, 0, 1⟩
def F.HAL_GROVE_CMD_LEAVE : Fld := ⟨.HAL_GROVE_CMD, 1, 1, .wo, 0, 0, 1⟩
def F.HAL_GROVE_CMD_LOCK : Fld := ⟨.HAL_GROVE_CMD, 2, 1, .wo, 0, 0, 1⟩
def F.HAL_GROVE_CMD_UNLOCK : Fld := ⟨.HAL_GROVE_CMD, 3, 1, .wo, 0, 0, 1⟩
def F.HAL_GROVE_CMD_ADOPT : Fld := ⟨.HAL_GROVE_CMD, 4, 1, .wo, 0, 0, 1⟩
def F.HAL_GROVE_STATUS_STATE : Fld := ⟨.HAL_GROVE_STATUS, 0, 2, .ro, 0, 0, 3⟩
def F.HAL_GROVE_STATUS_LOCKED : Fld := ⟨.HAL_GROVE_STATUS, 2, 1, .ro, 0, 0, 1⟩
def F.HAL_GROVE_STATUS_STALE : Fld := ⟨.HAL_GROVE_STATUS, 3, 1, .ro, 0, 0, 1⟩
def F.HAL_GROVE_STATUS_TIMEKEEPER : Fld := ⟨.HAL_GROVE_STATUS, 4, 1, .ro, 0, 0, 1⟩
def F.HAL_GROVE_STATUS_DIGEST_MISMATCH : Fld := ⟨.HAL_GROVE_STATUS, 5, 1, .ro, 0, 0, 1⟩
def F.HAL_GROVE_STATUS_NUM_CONFLICT : Fld := ⟨.HAL_GROVE_STATUS, 6, 1, .w1c, 0, 0, 1⟩
def F.HAL_GROVE_STATUS_EXCL_CAUSE : Fld := ⟨.HAL_GROVE_STATUS, 7, 3, .ro, 0, 0, 7⟩
def F.HAL_GROVE_STATUS_LOCK_REFUSED : Fld := ⟨.HAL_GROVE_STATUS, 10, 3, .w1c, 0, 0, 7⟩
def F.HAL_GROVE_STATUS_PKG : Fld := ⟨.HAL_GROVE_STATUS, 13, 9, .ro, 0, 0, 511⟩
def F.HAL_GROVE_STATUS_TK : Fld := ⟨.HAL_GROVE_STATUS, 22, 9, .ro, 0, 0, 511⟩
def F.HAL_GROVE_STATUS_MEMBERS : Fld := ⟨.HAL_GROVE_STATUS, 32, 10, .ro, 0, 0, 1023⟩
def F.HAL_GROVE_STATUS_AGREE : Fld := ⟨.HAL_GROVE_STATUS, 42, 8, .ro, 0, 0, 255⟩
def F.HAL_GROVE_STATUS_DEPTH : Fld := ⟨.HAL_GROVE_STATUS, 50, 4, .ro, 0, 0, 15⟩
def F.HAL_STATE_EPOCH_EPOCH : Fld := ⟨.HAL_STATE_EPOCH, 0, 64, .ro, 0, 0, 0xffffffffffffffff⟩
def F.HAL_TIME_TICKS : Fld := ⟨.HAL_TIME, 0, 64, .ro, 0, 0, 0xffffffffffffffff⟩
def F.HAL_TIME_STATUS_EXT_10M : Fld := ⟨.HAL_TIME_STATUS, 0, 1, .ro, 0, 0, 1⟩
def F.HAL_TIME_STATUS_EXT_PPS : Fld := ⟨.HAL_TIME_STATUS, 1, 1, .ro, 0, 0, 1⟩
def F.HAL_TIME_STATUS_DPLL_LOCK : Fld := ⟨.HAL_TIME_STATUS, 2, 1, .ro, 0, 0, 1⟩
def F.HAL_TIME_STATUS_HOLDOVER : Fld := ⟨.HAL_TIME_STATUS, 3, 1, .ro, 0, 0, 1⟩
def F.HAL_TIME_STATUS_RESIDUAL : Fld := ⟨.HAL_TIME_STATUS, 32, 32, .ro, 0, 0, 0xffffffff⟩
def F.HAL_LOCK_CFG_SLIP_TICKS : Fld := ⟨.HAL_LOCK_CFG, 0, 8, .rw, 16, 1, 255⟩
def F.HAL_LOCK_CFG_SLIP_IRQ : Fld := ⟨.HAL_LOCK_CFG, 8, 8, .rw, 4, 1, 255⟩
def F.HAL_LOCK_PARTS_PARTS : Fld := ⟨.HAL_LOCK_PARTS, 0, 32, .rw, 0, 0, 0xffffffff⟩
def F.HAL_WIN_OPEN_OPEN : Fld := ⟨.HAL_WIN_OPEN, 0, 32, .rw, 0, 0, 0xffffffff⟩
def F.HAL_LOCK_STATUS_DIVERGED : Fld := ⟨.HAL_LOCK_STATUS, 0, 1, .w1c, 0, 0, 1⟩
def F.HAL_LOCK_STATUS_SLIP_IRQ : Fld := ⟨.HAL_LOCK_STATUS, 1, 1, .w1c, 0, 0, 1⟩
def F.HAL_MARGIN_MIN_TICKS : Fld := ⟨.HAL_MARGIN_MIN, 0, 32, .rc, 0x7fffffff, 0, 0xffffffff⟩
def F.HAL_MARGIN_MIN_STEP : Fld := ⟨.HAL_MARGIN_MIN, 32, 32, .rc, 0, 0, 0xffffffff⟩
def F.HAL_MEMBERS_BITS : Fld := ⟨.HAL_MEMBERS, 0, 64, .ro, 0, 0, 0xffffffffffffffff⟩
def F.HAL_SLIPS_COUNT : Fld := ⟨.HAL_SLIPS, 0, 48, .rc, 0, 0, 0xffffffffffff⟩
def F.HAL_SHORT_COUNT : Fld := ⟨.HAL_SHORT, 0, 48, .rc, 0, 0, 0xffffffffffff⟩
def F.HAL_LATE_AGREE_COUNT : Fld := ⟨.HAL_LATE_AGREE, 0, 48, .rc, 0, 0, 0xffffffffffff⟩
def F.HAL_REISSUE_COUNT : Fld := ⟨.HAL_REISSUE, 0, 48, .rc, 0, 0, 0xffffffffffff⟩
def F.HAL_CHARTERS_COUNT : Fld := ⟨.HAL_CHARTERS, 0, 48, .rc, 0, 0, 0xffffffffffff⟩
def F.HAL_FWD_BYTES_COUNT : Fld := ⟨.HAL_FWD_BYTES, 0, 48, .rc, 0, 0, 0xffffffffffff⟩
def F.D2D_LINK_CFG_RETRY_LIMIT : Fld := ⟨.D2D_LINK_CFG, 0, 8, .rw, 16, 1, 255⟩
def F.D2D_LINK_CFG_RETRAIN : Fld := ⟨.D2D_LINK_CFG, 8, 1, .wo, 0, 0, 1⟩
def F.D2D_LINK_STATUS_STATE : Fld := ⟨.D2D_LINK_STATUS, 0, 3, .ro, 1, 0, 7⟩
def F.D2D_LINK_STATUS_RATE : Fld := ⟨.D2D_LINK_STATUS, 3, 2, .ro, 0, 0, 3⟩
def F.D2D_LINK_STATUS_CAUSE : Fld := ⟨.D2D_LINK_STATUS, 5, 3, .ro, 0, 0, 7⟩
def F.D2D_LINK_STATUS_PEER_SLOT : Fld := ⟨.D2D_LINK_STATUS, 8, 4, .ro, 0, 0, 15⟩
def F.D2D_LINK_FLITS_COUNT : Fld := ⟨.D2D_LINK_FLITS, 0, 48, .rc, 0, 0, 0xffffffffffff⟩
def F.D2D_LINK_RETRY_COUNT : Fld := ⟨.D2D_LINK_RETRY, 0, 48, .rc, 0, 0, 0xffffffffffff⟩
def F.D2D_LINK_CE_COUNT : Fld := ⟨.D2D_LINK_CE, 0, 48, .rc, 0, 0, 0xffffffffffff⟩
def F.D2D_LINK_BAD_COUNT : Fld := ⟨.D2D_LINK_BAD, 0, 48, .rc, 0, 0, 0xffffffffffff⟩
def F.D2D_FENCE_CMD_SLOT : Fld := ⟨.D2D_FENCE_CMD, 0, 4, .wo, 0, 0, 15⟩
def F.D2D_FENCE_CMD_FENCE : Fld := ⟨.D2D_FENCE_CMD, 4, 1, .wo, 0, 0, 1⟩
def F.D2D_FENCE_CMD_RETURN : Fld := ⟨.D2D_FENCE_CMD, 5, 1, .wo, 0, 0, 1⟩
def F.D2D_FENCE_STATUS_FENCED : Fld := ⟨.D2D_FENCE_STATUS, 0, 16, .ro, 0, 0, 65535⟩
def F.D2D_FENCE_STATUS_LAST_CAUSE : Fld := ⟨.D2D_FENCE_STATUS, 16, 3, .ro, 0, 0, 7⟩
def F.D2D_FENCE_STATUS_BUSY : Fld := ⟨.D2D_FENCE_STATUS, 19, 1, .ro, 0, 0, 1⟩
def F.D2D_FENCE_STATUS_LAST_SLOT : Fld := ⟨.D2D_FENCE_STATUS, 20, 4, .ro, 0, 0, 15⟩
def F.D2D_PKG_FEATURES_BITMAP : Fld := ⟨.D2D_PKG_FEATURES, 0, 64, .ro, 0, 0, 0xffffffffffffffff⟩
def F.D2D_EVENT_IRQ_IE : Fld := ⟨.D2D_EVENT_IRQ, 0, 1, .rw, 0, 0, 1⟩
def F.D2D_EVENT_IRQ_IID : Fld := ⟨.D2D_EVENT_IRQ, 16, 11, .rw, 0, 0, 2047⟩
def F.D2D_GUEST_CFG_POWER_W : Fld := ⟨.D2D_GUEST_CFG, 0, 7, .rw, 75, 1, 75⟩
def F.D2D_GUEST_STATUS_STEP : Fld := ⟨.D2D_GUEST_STATUS, 0, 3, .ro, 0, 0, 7⟩
def F.D2D_GUEST_STATUS_OVER : Fld := ⟨.D2D_GUEST_STATUS, 3, 1, .w1c, 0, 0, 1⟩
def F.D2D_GUEST_STATUS_GRANT_W : Fld := ⟨.D2D_GUEST_STATUS, 8, 7, .ro, 0, 0, 127⟩
def F.D2D_GUEST_STATUS_DRAW_DW : Fld := ⟨.D2D_GUEST_STATUS, 16, 10, .ro, 0, 0, 1023⟩
def F.D2D_APERTURE_PKG : Fld := ⟨.D2D_APERTURE, 0, 9, .rw, 0, 0, 511⟩
def F.D2D_APERTURE_EN : Fld := ⟨.D2D_APERTURE, 16, 1, .rw, 0, 0, 1⟩
def F.D2D_HOST_ERR_ADDR : Fld := ⟨.D2D_HOST_ERR, 0, 52, .ro, 0, 0, 0xfffffffffffff⟩
def F.D2D_HOST_ERR_APERTURE : Fld := ⟨.D2D_HOST_ERR, 52, 4, .ro, 0, 0, 15⟩
def F.D2D_HOST_ERR_STATUS : Fld := ⟨.D2D_HOST_ERR, 56, 4, .ro, 0, 0, 15⟩
def F.D2D_HOST_ERR_VALID : Fld := ⟨.D2D_HOST_ERR, 60, 1, .w1c, 0, 0, 1⟩
def F.D2D_IRQ_MAP_HART : Fld := ⟨.D2D_IRQ_MAP, 0, 7, .rw, 0, 0, 127⟩
def F.D2D_IRQ_MAP_FILE : Fld := ⟨.D2D_IRQ_MAP, 8, 4, .rw, 0, 0, 15⟩
def F.D2D_IRQ_MAP_EIID : Fld := ⟨.D2D_IRQ_MAP, 12, 11, .rw, 0, 0, 2047⟩
def F.D2D_IRQ_MAP_EN : Fld := ⟨.D2D_IRQ_MAP, 23, 1, .rw, 0, 0, 1⟩
def F.D2D_IRQ_MAP_PENDING : Fld := ⟨.D2D_IRQ_MAP, 24, 1, .ro, 0, 0, 1⟩
def F.D2D_CXL_SNOOP_COUNT : Fld := ⟨.D2D_CXL_SNOOP, 0, 48, .rc, 0, 0, 0xffffffffffff⟩
def F.D2D_CXL_BISNP_COUNT : Fld := ⟨.D2D_CXL_BISNP, 0, 48, .rc, 0, 0, 0xffffffffffff⟩
def F.D2D_CXL_LOST_COUNT : Fld := ⟨.D2D_CXL_LOST, 0, 48, .rc, 0, 0, 0xffffffffffff⟩
def F.D2D_HOST_ERR_COUNT_COUNT : Fld := ⟨.D2D_HOST_ERR_COUNT, 0, 48, .rc, 0, 0, 0xffffffffffff⟩
def F.D2D_IRQ_SENT_COUNT : Fld := ⟨.D2D_IRQ_SENT, 0, 48, .rc, 0, 0, 0xffffffffffff⟩
def F.PWR_CTRL_BOOST_EN : Fld := ⟨.PWR_CTRL, 0, 1, .rw, 1, 0, 1⟩
def F.PWR_CTRL_LEARN_EN : Fld := ⟨.PWR_CTRL, 1, 1, .rw, 1, 0, 1⟩
def F.PWR_CAP_SUSTAINED_W : Fld := ⟨.PWR_CAP, 0, 13, .rw, 6800, 1000, 6800⟩
def F.PWR_CAP_PEAK_W : Fld := ⟨.PWR_CAP, 16, 13, .rw, 7500, 0, 7500⟩
def F.PWR_HOST_PEAK_W : Fld := ⟨.PWR_HOST_PEAK, 0, 10, .rw, 500, 100, 800⟩
def F.PWR_STATUS_SELF_MANAGED : Fld := ⟨.PWR_STATUS, 0, 1, .ro, 1, 0, 1⟩
def F.PWR_STATUS_AT_FLOOR : Fld := ⟨.PWR_STATUS, 1, 1, .ro, 0, 0, 1⟩
def F.PWR_STATUS_THROTTLE : Fld := ⟨.PWR_STATUS, 2, 1, .ro, 0, 0, 1⟩
def F.PWR_STATUS_TRIPPED : Fld := ⟨.PWR_STATUS, 3, 1, .w1c, 0, 0, 1⟩
def F.PWR_STATUS_OVER_SUSTAINED : Fld := ⟨.PWR_STATUS, 4, 1, .w1c, 0, 0, 1⟩
def F.PWR_STATUS_HOTTEST_C : Fld := ⟨.PWR_STATUS, 8, 8, .ro, 0, 0, 255⟩
def F.PWR_STATUS_HOTTEST_SRC : Fld := ⟨.PWR_STATUS, 16, 6, .ro, 0, 0, 63⟩
def F.PWR_DRAW_MEAN_1MS : Fld := ⟨.PWR_DRAW, 0, 16, .ro, 0, 0, 65535⟩
def F.PWR_DRAW_PEAK_1MS : Fld := ⟨.PWR_DRAW, 16, 16, .rc, 0, 0, 65535⟩
def F.PWR_DRAW_MEAN_1S : Fld := ⟨.PWR_DRAW, 32, 16, .ro, 0, 0, 65535⟩
def F.PWR_COOLANT_INLET_C : Fld := ⟨.PWR_COOLANT, 0, 8, .ro, 0, 0, 255⟩
def F.PWR_COOLANT_OUTLET_C : Fld := ⟨.PWR_COOLANT, 8, 8, .ro, 0, 0, 255⟩
def F.PWR_COOLANT_INLET_HIGH : Fld := ⟨.PWR_COOLANT, 16, 1, .w1c, 0, 0, 1⟩
def F.PWR_DROOP_CFG_MV : Fld := ⟨.PWR_DROOP_CFG, 0, 7, .rw, 40, 10, 100⟩
def F.PWR_PART_SHARE_W : Fld := ⟨.PWR_PART, 0, 13, .rw, 0, 0, 6800⟩
def F.PWR_PART_PRIORITY : Fld := ⟨.PWR_PART, 13, 3, .rw, 0, 0, 7⟩
def F.PWR_PART_DEFAULT_OPP : Fld := ⟨.PWR_PART, 16, 3, .rw, 5, 0, 7⟩
def F.PWR_PART_STEADY : Fld := ⟨.PWR_PART, 19, 1, .rw, 0, 0, 1⟩
def F.PWR_PART_BORROW : Fld := ⟨.PWR_PART, 20, 1, .rw, 1, 0, 1⟩
def F.PWR_PART_STATUS_FALLOW : Fld := ⟨.PWR_PART_STATUS, 0, 6, .ro, 0, 0, 63⟩
def F.PWR_PART_STATUS_PAUSED : Fld := ⟨.PWR_PART_STATUS, 6, 1, .ro, 0, 0, 1⟩
def F.PWR_PART_STATUS_AT_FLOOR : Fld := ⟨.PWR_PART_STATUS, 7, 1, .w1c, 0, 0, 1⟩
def F.PWR_PART_STATUS_BUDGET_W : Fld := ⟨.PWR_PART_STATUS, 16, 16, .ro, 0, 0, 65535⟩
def F.PWR_LEARN_SEL_PART : Fld := ⟨.PWR_LEARN_SEL, 0, 5, .rw, 0, 0, 31⟩
def F.PWR_LEARN_SEL_PHASE : Fld := ⟨.PWR_LEARN_SEL, 5, 8, .rw, 0, 0, 255⟩
def F.PWR_LEARN_SEL_OPP : Fld := ⟨.PWR_LEARN_SEL, 13, 3, .rw, 0, 0, 7⟩
def F.PWR_LEARN_SEL_CLEAR : Fld := ⟨.PWR_LEARN_SEL, 16, 1, .wo, 0, 0, 1⟩
def F.PWR_LEARN_DATA_MW_PER_BED : Fld := ⟨.PWR_LEARN_DATA, 0, 16, .ro, 0, 0, 65535⟩
def F.PWR_LEARN_DATA_SAMPLES : Fld := ⟨.PWR_LEARN_DATA, 16, 16, .ro, 0, 0, 65535⟩
def F.PWR_LEARN_DATA_ENERGY_J : Fld := ⟨.PWR_LEARN_DATA, 32, 32, .ro, 0, 0, 0xffffffff⟩
def F.PWR_PLOT_STATUS_OPP : Fld := ⟨.PWR_PLOT_STATUS, 0, 3, .ro, 0, 0, 7⟩
def F.PWR_PLOT_STATUS_RETUNING : Fld := ⟨.PWR_PLOT_STATUS, 3, 1, .ro, 0, 0, 1⟩
def F.PWR_PLOT_STATUS_STRETCH : Fld := ⟨.PWR_PLOT_STATUS, 4, 4, .ro, 0, 0, 15⟩
def F.PWR_PLOT_STATUS_TEMP_C : Fld := ⟨.PWR_PLOT_STATUS, 8, 8, .ro, 0, 0, 255⟩
def F.PWR_PLOT_STATUS_ALLOT_W : Fld := ⟨.PWR_PLOT_STATUS, 16, 16, .ro, 150, 0, 65535⟩
def F.PWR_PLOT_DRAW_NOW_W : Fld := ⟨.PWR_PLOT_DRAW, 0, 16, .ro, 0, 0, 65535⟩
def F.PWR_PLOT_DRAW_MEAN_1MS : Fld := ⟨.PWR_PLOT_DRAW, 16, 16, .ro, 0, 0, 65535⟩
def F.PWR_BG_STATE : Fld := ⟨.PWR_BG, 0, 3, .ro, 3, 0, 7⟩
def F.PWR_BG_FALLOW : Fld := ⟨.PWR_BG, 8, 6, .ro, 0, 0, 63⟩
def F.PWR_BG_TEMP_C : Fld := ⟨.PWR_BG, 16, 8, .ro, 0, 0, 255⟩
def F.PWR_STRETCH_NS_COUNT : Fld := ⟨.PWR_STRETCH_NS, 0, 48, .rc, 0, 0, 0xffffffffffff⟩
def F.PWR_DROOP_EVENTS_COUNT : Fld := ⟨.PWR_DROOP_EVENTS, 0, 48, .rc, 0, 0, 0xffffffffffff⟩
def F.PWR_LIMIT_NS_COUNT : Fld := ⟨.PWR_LIMIT_NS, 0, 48, .rc, 0, 0, 0xffffffffffff⟩
def F.PWR_FALLOW_CYCLES_COUNT : Fld := ⟨.PWR_FALLOW_CYCLES, 0, 48, .rc, 0, 0, 0xffffffffffff⟩
def F.PWR_RETUNES_COUNT : Fld := ⟨.PWR_RETUNES, 0, 48, .rc, 0, 0, 0xffffffffffff⟩
def F.PWR_THROTTLE_MS_COUNT : Fld := ⟨.PWR_THROTTLE_MS, 0, 48, .rc, 0, 0, 0xffffffffffff⟩
def F.PWR_ENERGY_COUNT : Fld := ⟨.PWR_ENERGY, 0, 48, .rc, 0, 0, 0xffffffffffff⟩
def F.MGT_QSAVE_EN : Fld := ⟨.MGT_QSAVE, 0, 1, .rw, 0, 0, 1⟩
def F.MGT_QSAVE_MIRROR : Fld := ⟨.MGT_QSAVE, 1, 1, .rw, 0, 0, 1⟩
def F.MGT_QSAVE_MAP : Fld := ⟨.MGT_QSAVE, 12, 40, .rw, 0, 0, 0xffffffffff⟩
def F.MGT_QSTATUS_STATE : Fld := ⟨.MGT_QSTATUS, 0, 3, .ro, 0, 0, 7⟩
def F.MGT_QSTATUS_SLOT : Fld := ⟨.MGT_QSTATUS, 3, 1, .ro, 0, 0, 1⟩
def F.MGT_QSTATUS_VALID : Fld := ⟨.MGT_QSTATUS, 4, 1, .ro, 0, 0, 1⟩
def F.MGT_QSTATUS_ROLLED_BACK : Fld := ⟨.MGT_QSTATUS, 5, 1, .ro, 0, 0, 1⟩
def F.MGT_QSTATUS_SAVE_FAIL : Fld := ⟨.MGT_QSTATUS, 6, 1, .w1c, 0, 0, 1⟩
def F.MGT_QSTATUS_MIRROR_USED : Fld := ⟨.MGT_QSTATUS, 7, 1, .w1c, 0, 0, 1⟩
def F.MGT_QSTATUS_STEP : Fld := ⟨.MGT_QSTATUS, 32, 32, .ro, 0, 0, 0xffffffff⟩
def F.MGT_QTIME_SAVE_US : Fld := ⟨.MGT_QTIME, 0, 32, .ro, 0, 0, 0xffffffff⟩
def F.MGT_QTIME_RESTORE_US : Fld := ⟨.MGT_QTIME, 32, 32, .ro, 0, 0, 0xffffffff⟩
def F.MGT_QCOUNT_SAVES : Fld := ⟨.MGT_QCOUNT, 0, 24, .rc, 0, 0, 0xffffff⟩
def F.MGT_QCOUNT_ROLLBACKS : Fld := ⟨.MGT_QCOUNT, 24, 24, .rc, 0, 0, 0xffffff⟩
def F.MGT_ERR_CTRL_IE : Fld := ⟨.MGT_ERR_CTRL, 0, 1, .rw, 0, 0, 1⟩
def F.MGT_ERR_CTRL_HOST_LOSS : Fld := ⟨.MGT_ERR_CTRL, 1, 1, .rw, 1, 0, 1⟩
def F.MGT_ERR_CTRL_IID : Fld := ⟨.MGT_ERR_CTRL, 16, 11, .rw, 0, 0, 2047⟩
def F.MGT_ERR_STATUS_RESTARTING : Fld := ⟨.MGT_ERR_STATUS, 0, 1, .ro, 0, 0, 1⟩
def F.MGT_ERR_STATUS_HOST_LOST : Fld := ⟨.MGT_ERR_STATUS, 1, 1, .w1c, 0, 0, 1⟩
def F.MGT_ERR_STATUS_LOG_OVERFLOW : Fld := ⟨.MGT_ERR_STATUS, 2, 1, .w1c, 0, 0, 1⟩
def F.MGT_ERR_STATUS_INJ_ARMED : Fld := ⟨.MGT_ERR_STATUS, 3, 1, .ro, 0, 0, 1⟩
def F.MGT_ERR_LOG_HEAD_SEQ : Fld := ⟨.MGT_ERR_LOG_HEAD, 0, 32, .rw, 0, 0, 0xffffffff⟩
def F.MGT_ERR_LOG_TAIL_SEQ : Fld := ⟨.MGT_ERR_LOG_TAIL, 0, 32, .ro, 0, 0, 0xffffffff⟩
def F.MGT_ERR_CE_CFG_THRESH : Fld := ⟨.MGT_ERR_CE_CFG, 0, 16, .rw, 0, 1, 65535⟩
def F.MGT_ERR_CE_CFG_WINDOW_S : Fld := ⟨.MGT_ERR_CE_CFG, 16, 8, .rw, 60, 1, 255⟩
def F.MGT_ERR_CE_TOTAL_COUNT : Fld := ⟨.MGT_ERR_CE_TOTAL, 0, 48, .rc, 0, 0, 0xffffffffffff⟩
def F.MGT_ERR_UE_TOTAL_COUNT : Fld := ⟨.MGT_ERR_UE_TOTAL, 0, 48, .rc, 0, 0, 0xffffffffffff⟩
def F.MGT_ERR_INJ_ADDR_ADDR : Fld := ⟨.MGT_ERR_INJ_ADDR, 4, 48, .rw, 0, 0, 0xffffffffffff⟩
def F.MGT_ERR_INJ_CTL_NIB_A : Fld := ⟨.MGT_ERR_INJ_CTL, 0, 6, .rw, 0, 0, 35⟩
def F.MGT_ERR_INJ_CTL_NIB_B : Fld := ⟨.MGT_ERR_INJ_CTL, 6, 6, .rw, 1, 0, 35⟩
def F.MGT_ERR_INJ_CTL_TWO : Fld := ⟨.MGT_ERR_INJ_CTL, 12, 1, .rw, 0, 0, 1⟩
def F.MGT_ERR_INJ_CTL_PATTERN : Fld := ⟨.MGT_ERR_INJ_CTL, 16, 4, .rw, 1, 1, 15⟩
def F.MGT_ERR_INJ_CTL_ARM : Fld := ⟨.MGT_ERR_INJ_CTL, 20, 1, .rw, 0, 0, 1⟩
def F.SEC_CMD_OP : Fld := ⟨.SEC_CMD, 0, 4, .wo, 0, 0, 15⟩
def F.SEC_CMD_ADDR_ADDR : Fld := ⟨.SEC_CMD_ADDR, 6, 46, .rw, 0, 0, 0x3fffffffffff⟩
def F.SEC_CMD_LEN_LEN : Fld := ⟨.SEC_CMD_LEN, 0, 28, .rw, 0, 0, 0xf000000⟩
def F.SEC_STATUS_BUSY : Fld := ⟨.SEC_STATUS, 0, 1, .ro, 0, 0, 1⟩
def F.SEC_STATUS_BUSY_WRITE : Fld := ⟨.SEC_STATUS, 1, 1, .w1c, 0, 0, 1⟩
def F.SEC_STATUS_LATE_CONFIRM : Fld := ⟨.SEC_STATUS, 2, 1, .w1c, 0, 0, 1⟩
def F.SEC_STATUS_KEY_OK : Fld := ⟨.SEC_STATUS, 3, 1, .ro, 0, 0, 1⟩
def F.SEC_STATUS_RESULT : Fld := ⟨.SEC_STATUS, 4, 4, .ro, 0, 0, 15⟩
def F.SEC_IRQ_IE : Fld := ⟨.SEC_IRQ, 0, 1, .rw, 0, 0, 1⟩
def F.SEC_IRQ_IID : Fld := ⟨.SEC_IRQ, 16, 11, .rw, 0, 0, 2047⟩
def F.SEC_SLOT_STATE : Fld := ⟨.SEC_SLOT, 0, 3, .ro, 0, 0, 7⟩
def F.SEC_SLOT_ACTIVE : Fld := ⟨.SEC_SLOT, 3, 1, .ro, 0, 0, 1⟩
def F.SEC_SLOT_TRIES : Fld := ⟨.SEC_SLOT, 4, 2, .ro, 0, 0, 3⟩
def F.SEC_SLOT_VERSION : Fld := ⟨.SEC_SLOT, 32, 32, .ro, 0, 0, 0xffffffff⟩
def F.SEC_GRAFT_REMAINING_S : Fld := ⟨.SEC_GRAFT, 0, 12, .ro, 0, 0, 4095⟩
def F.SEC_GRAFT_HOST_DONE : Fld := ⟨.SEC_GRAFT, 12, 1, .ro, 0, 0, 1⟩
def F.SEC_ATTEST_INDEX_NEXT : Fld := ⟨.SEC_ATTEST_INDEX, 0, 41, .ro, 0, 0, 0x1ffffffffff⟩
def F.SEC_ATTEST_LIMIT_LIMIT : Fld := ⟨.SEC_ATTEST_LIMIT, 0, 41, .ro, 0, 0, 0x1ffffffffff⟩
def F.MGT_BOOT_STATUS_STAGE : Fld := ⟨.MGT_BOOT_STATUS, 0, 4, .ro, 1, 0, 15⟩
def F.MGT_BOOT_STATUS_REASON : Fld := ⟨.MGT_BOOT_STATUS, 4, 3, .ro, 0, 0, 7⟩
def F.MGT_BOOT_STATUS_RECOVERY : Fld := ⟨.MGT_BOOT_STATUS, 7, 1, .ro, 0, 0, 1⟩
def F.MGT_BOOT_STATUS_FAIL : Fld := ⟨.MGT_BOOT_STATUS, 8, 2, .ro, 0, 0, 3⟩
def F.MGT_BOOT_STATUS_SETTINGS_RESET : Fld := ⟨.MGT_BOOT_STATUS, 10, 1, .w1c, 0, 0, 1⟩
def F.MGT_BOOT_STATUS_FLASH_ERR : Fld := ⟨.MGT_BOOT_STATUS, 11, 1, .w1c, 0, 0, 1⟩
def F.MGT_BOOT_STATUS_BOOT_MS : Fld := ⟨.MGT_BOOT_STATUS, 32, 32, .ro, 0, 0, 0xffffffff⟩
def F.MGT_HEALTH_ALIVE : Fld := ⟨.MGT_HEALTH, 0, 4, .ro, 0, 0, 15⟩
def F.MGT_HEALTH_REDUCED : Fld := ⟨.MGT_HEALTH, 4, 1, .ro, 0, 0, 1⟩
def F.MGT_HEALTH_RESTARTS : Fld := ⟨.MGT_HEALTH, 8, 8, .rc, 0, 0, 255⟩
def F.MGT_HEALTH_LAST_CHECK : Fld := ⟨.MGT_HEALTH, 16, 4, .ro, 0, 0, 15⟩
def F.TAP_CTRL_DIE_EN : Fld := ⟨.TAP_CTRL, 0, 16, .rw, 0, 0, 65535⟩
def F.TAP_CTRL_BUSY : Fld := ⟨.TAP_CTRL, 16, 1, .ro, 0, 0, 1⟩
def F.TAP_STATUS_STANDIN : Fld := ⟨.TAP_STATUS, 0, 16, .ro, 0, 0, 65535⟩
def F.TAP_STATUS_IR_LEN : Fld := ⟨.TAP_STATUS, 16, 8, .ro, 128, 0, 255⟩
def F.TAP_STATUS_DR_BYPASS : Fld := ⟨.TAP_STATUS, 24, 5, .ro, 16, 0, 31⟩
def F.TAP_STATUS_RESET_TEST : Fld := ⟨.TAP_STATUS, 29, 1, .ro, 0, 0, 1⟩
def F.TAP_PLOT_STATUS_IN_TEST : Fld := ⟨.TAP_PLOT_STATUS, 0, 1, .ro, 0, 0, 1⟩
def F.TAP_PLOT_STATUS_INSTR : Fld := ⟨.TAP_PLOT_STATUS, 8, 8, .ro, 2, 0, 255⟩
def F.TAP_PLOT_STATUS_STACK_PORTS : Fld := ⟨.TAP_PLOT_STATUS, 16, 2, .ro, 0, 0, 3⟩
def F.PWR_PART_ENERGY_COUNT : Fld := ⟨.PWR_PART_ENERGY, 0, 48, .rc, 0, 0, 0xffffffffffff⟩
def F.D2D_GUEST_DESC_WORD : Fld := ⟨.D2D_GUEST_DESC, 0, 64, .ro, 0, 0, 0xffffffffffffffff⟩
def F.MGT_ERR_LOG_WORD : Fld := ⟨.MGT_ERR_LOG, 0, 64, .ro, 0, 0, 0xffffffffffffffff⟩

/-- The fields of a register. -/
def Reg.flds : Reg → List Fld
  | .MGT_DIE_INFO => [F.MGT_DIE_INFO_SLOT, F.MGT_DIE_INFO_KIND, F.MGT_DIE_INFO_REVISION, F.MGT_DIE_INFO_STATE, F.MGT_DIE_INFO_SELF_MANAGED]
  | .MGT_DIE_FEATURES => [F.MGT_DIE_FEATURES_BITMAP]
  | .MGT_BG_OWNER => [F.MGT_BG_OWNER_PART, F.MGT_BG_OWNER_VALID, F.MGT_BG_OWNER_BUSY]
  | .MGT_PART_ERR => [F.MGT_PART_ERR_BUSY_WRITE, F.MGT_PART_ERR_LAST_BG]
  | .MGT_ID_STATUS => [F.MGT_ID_STATUS_SOURCE, F.MGT_ID_STATUS_CAUSE, F.MGT_ID_STATUS_MISMATCH_SLOT]
  | .GRID_MODE => [F.GRID_MODE_ESPALIER, F.GRID_MODE_CORE, F.GRID_MODE_WEST_EDGE, F.GRID_MODE_NORTH_EDGE, F.GRID_MODE_LEADER]
  | .GRID_STATUS => [F.GRID_STATUS_BANK, F.GRID_STATUS_PRESENTING, F.GRID_STATUS_DRAINING, F.GRID_STATUS_PENDING, F.GRID_STATUS_NAN, F.GRID_STATUS_INF, F.GRID_STATUS_OVF, F.GRID_STATUS_PROD_SAT, F.GRID_STATUS_DROPPED, F.GRID_STATUS_IGNORED, F.GRID_STATUS_SELF_CLASH, F.GRID_STATUS_PADDED]
  | .GRID_TCFG => [F.GRID_TCFG_A_TYPE, F.GRID_TCFG_B_TYPE, F.GRID_TCFG_OUT_TYPE, F.GRID_TCFG_RND, F.GRID_TCFG_SAT, F.GRID_TCFG_SPARSE_B, F.GRID_TCFG_SCALE_A, F.GRID_TCFG_SCALE_B, F.GRID_TCFG_ANCHOR_SRC, F.GRID_TCFG_ANCHOR]
  | .GRID_BUSY_CYCLES => [F.GRID_BUSY_CYCLES_COUNT]
  | .GRID_TILES => [F.GRID_TILES_COUNT]
  | .GRID_PAD_CYCLES => [F.GRID_PAD_CYCLES_COUNT]
  | .GRID_CLASH_COUNT => [F.GRID_CLASH_COUNT_COUNT]
  | .CORE_ID => [F.CORE_ID_CORE, F.CORE_ID_LBED, F.CORE_ID_PART, F.CORE_ID_ACTIVE]
  | .CORE_STATUS => [F.CORE_STATUS_ISSUING, F.CORE_STATUS_WAIT, F.CORE_STATUS_HALTED, F.CORE_STATUS_VEC_LOSS, F.CORE_STATUS_LM_LOSS, F.CORE_STATUS_VEC_DROPPED, F.CORE_STATUS_LM_DROPPED, F.CORE_STATUS_FLAG_OVF, F.CORE_STATUS_FP_INVALID, F.CORE_STATUS_FP_OVF, F.CORE_STATUS_LOOP_ERR]
  | .CORE_FLAGS => [F.CORE_FLAGS_FLAG0, F.CORE_FLAGS_FLAG1, F.CORE_FLAGS_FLAG2, F.CORE_FLAGS_FLAG3, F.CORE_FLAGS_FLAG4, F.CORE_FLAGS_FLAG5, F.CORE_FLAGS_FLAG6, F.CORE_FLAGS_FLAG7]
  | .CORE_PC => [F.CORE_PC_BUNDLE, F.CORE_PC_LOOP_DEPTH]
  | .CORE_STEP => [F.CORE_STEP_STEP]
  | .CORE_ISSUED => [F.CORE_ISSUED_COUNT]
  | .CORE_STALL_FLAG => [F.CORE_STALL_FLAG_COUNT]
  | .CORE_STALL_SYNC => [F.CORE_STALL_SYNC_COUNT]
  | .CORE_STALL_IB => [F.CORE_STALL_IB_COUNT]
  | .CORE_LOSS_COUNT => [F.CORE_LOSS_COUNT_COUNT]
  | .CORE_BSQ_STATUS => [F.CORE_BSQ_STATUS_RUNNING, F.CORE_BSQ_STATUS_ESPALIER, F.CORE_BSQ_STATUS_HALTED, F.CORE_BSQ_STATUS_SYNC_WAIT, F.CORE_BSQ_STATUS_SYNC_LEVEL, F.CORE_BSQ_STATUS_LBED]
  | .CORE_BSQ_PHASE => [F.CORE_BSQ_PHASE_PHASE]
  | .CORE_BSQ_CTRL => [F.CORE_BSQ_CTRL_FALLOW, F.CORE_BSQ_CTRL_OPP]
  | .CORE_BSQ_REFILL => [F.CORE_BSQ_REFILL_COUNT]
  | .CORE_BSQ_STARVE => [F.CORE_BSQ_STARVE_COUNT]
  | .CORE_BSQ_STEP => [F.CORE_BSQ_STEP_STEP]
  | .SPAD_STATUS => [F.SPAD_STATUS_POWER, F.SPAD_STATUS_REGION_VIOL, F.SPAD_STATUS_RMW_RETRY, F.SPAD_STATUS_UE]
  | .SPAD_CONFLICT => [F.SPAD_CONFLICT_COUNT]
  | .SPAD_RMW => [F.SPAD_RMW_DONE, F.SPAD_RMW_RETRY]
  | .SPAD_CE_COUNT => [F.SPAD_CE_COUNT_COUNT]
  | .SPAD_REGION => [F.SPAD_REGION_BASE_GRAN, F.SPAD_REGION_LIMIT_GRAN, F.SPAD_REGION_READ, F.SPAD_REGION_WRITE, F.SPAD_REGION_EN]
  | .BEDC_CTRL => [F.BEDC_CTRL_PF_EN, F.BEDC_CTRL_VICTIM_EN, F.BEDC_CTRL_MERGE_EN, F.BEDC_CTRL_MERGE_IDLE]
  | .BEDC_CMD => [F.BEDC_CMD_INV_SHARED, F.BEDC_CMD_INV_ALL, F.BEDC_CMD_DRAIN]
  | .BEDC_STATUS => [F.BEDC_STATUS_MERGE_OCC, F.BEDC_STATUS_PF_OCC, F.BEDC_STATUS_VICTIM_OCC, F.BEDC_STATUS_BUSY, F.BEDC_STATUS_UE]
  | .BEDC_HIT => [F.BEDC_HIT_COUNT]
  | .BEDC_MISS => [F.BEDC_MISS_COUNT]
  | .BEDC_PF_HIT => [F.BEDC_PF_HIT_COUNT]
  | .BEDC_PF_WASTED => [F.BEDC_PF_WASTED_COUNT]
  | .BEDC_VICTIM_HIT => [F.BEDC_VICTIM_HIT_COUNT]
  | .BEDC_MERGED => [F.BEDC_MERGED_COUNT]
  | .BEDC_DRAINED => [F.BEDC_DRAINED_COUNT]
  | .BEDC_FLASH_INV => [F.BEDC_FLASH_INV_COUNT]
  | .BEDC_MERGE_FULL => [F.BEDC_MERGE_FULL_COUNT]
  | .BEDC_CE_COUNT => [F.BEDC_CE_COUNT_COUNT]
  | .BEDC_PROBE => [F.BEDC_PROBE_SET]
  | .BEDC_PROBE_DATA => [F.BEDC_PROBE_DATA_PLRU, F.BEDC_PROBE_DATA_VALID, F.BEDC_PROBE_DATA_SHARED]
  | .STK_CTRL => [F.STK_CTRL_PATROL_EN, F.STK_CTRL_PATROL_HOURS]
  | .STK_STATUS => [F.STK_STATUS_STATE, F.STK_STATUS_TEMP, F.STK_STATUS_HOT, F.STK_STATUS_UE]
  | .STK_TRAIN => [F.STK_TRAIN_LAST_STEP, F.STK_TRAIN_FAILED, F.STK_TRAIN_LANES_REPAIRED, F.STK_TRAIN_DURATION_US]
  | .STK_IDENT => [F.STK_IDENT_MFR, F.STK_IDENT_HEIGHT, F.STK_IDENT_DENSITY, F.STK_IDENT_REVISION]
  | .STK_REG => [F.STK_REG_RATE, F.STK_REG_BURST, F.STK_REG_BORROW, F.STK_REG_EN]
  | .STK_REG_LEVEL => [F.STK_REG_LEVEL_LEVEL]
  | .STK_REG_BYTES => [F.STK_REG_BYTES_COUNT]
  | .STK_REG_WAIT => [F.STK_REG_WAIT_COUNT]
  | .STK_OADD_LATE => [F.STK_OADD_LATE_COUNT]
  | .STK_OADD_FULL => [F.STK_OADD_FULL_COUNT]
  | .STK_OADD_OVF => [F.STK_OADD_OVF_COUNT]
  | .STK_RD_BYTES => [F.STK_RD_BYTES_COUNT]
  | .STK_WR_BYTES => [F.STK_WR_BYTES_COUNT]
  | .STK_ROW_HIT => [F.STK_ROW_HIT_COUNT]
  | .STK_ROW_MISS => [F.STK_ROW_MISS_COUNT]
  | .STK_REFRESH => [F.STK_REFRESH_COUNT]
  | .STK_ATOMIC => [F.STK_ATOMIC_COUNT]
  | .STK_CE_COUNT => [F.STK_CE_COUNT_COUNT]
  | .STK_SCRUB_PASS => [F.STK_SCRUB_PASS_COUNT]
  | .STK_OADD => [F.STK_OADD_OCC]
  | .STK_REGION => [F.STK_REGION_BASE, F.STK_REGION_SIZE, F.STK_REGION_WIDE, F.STK_REGION_PLOT, F.STK_REGION_STACK_BASE, F.STK_REGION_PART, F.STK_REGION_ALL_PARTS, F.STK_REGION_GROVE_OPEN, F.STK_REGION_FAULTED, F.STK_REGION_VALID]
  | .STK_REGION_CTL => [F.STK_REGION_CTL_BUSY, F.STK_REGION_CTL_OVERLAP, F.STK_REGION_CTL_LOCKED_WRITE, F.STK_REGION_CTL_BUSY_WRITE, F.STK_REGION_CTL_LAST_INDEX]
  | .STK_REGION_CMD => [F.STK_REGION_CMD_INDEX, F.STK_REGION_CMD_CLEAR_FAULT]
  | .BRW_CTRL => [F.BRW_CTRL_OUT_LIMIT]
  | .BRW_STATUS => [F.BRW_STATUS_RUNNING, F.BRW_STATUS_ARMED, F.BRW_STATUS_ACTIVE, F.BRW_STATUS_REPLAY, F.BRW_STATUS_KICK_DROPPED, F.BRW_STATUS_XPOSE_IGNORED, F.BRW_STATUS_TIER_MIX, F.BRW_STATUS_RUN_MISMATCH, F.BRW_STATUS_LATE, F.BRW_STATUS_FB_TAKEN, F.BRW_STATUS_UE]
  | .BRW_OUT => [F.BRW_OUT_LINES, F.BRW_OUT_T4]
  | .BRW_LAST_ERR => [F.BRW_LAST_ERR_PROGRAM, F.BRW_LAST_ERR_STATUS, F.BRW_LAST_ERR_RECORD, F.BRW_LAST_ERR_VALID]
  | .BRW_T4_DONE => [F.BRW_T4_DONE_TAG, F.BRW_T4_DONE_ERROR]
  | .BRW_STALL => [F.BRW_STALL_COUNT]
  | .BRW_LATE => [F.BRW_LATE_COUNT]
  | .BRW_BYTES => [F.BRW_BYTES_COUNT]
  | .BRW_MOVES => [F.BRW_MOVES_COUNT]
  | .BRW_FB_TAKEN => [F.BRW_FB_TAKEN_COUNT]
  | .BRW_KICKS => [F.BRW_KICKS_COUNT]
  | .XLT_CTRL => [F.XLT_CTRL_DEV_EN, F.XLT_CTRL_TIMEOUT_MS]
  | .XLT_STATUS => [F.XLT_STATUS_FQ_FULL, F.XLT_STATUS_STALE_RESP, F.XLT_STATUS_TIMEOUT, F.XLT_STATUS_BAD_TABLE, F.XLT_STATUS_OPEN]
  | .XLT_FQ_BASE => [F.XLT_FQ_BASE_LOG2_SIZE, F.XLT_FQ_BASE_BASE]
  | .XLT_FQ_HEAD => [F.XLT_FQ_HEAD_INDEX]
  | .XLT_FQ_TAIL => [F.XLT_FQ_TAIL_INDEX]
  | .XLT_FQ_CTRL => [F.XLT_FQ_CTRL_IE, F.XLT_FQ_CTRL_IID]
  | .XLT_CTX_ROOT => [F.XLT_CTX_ROOT_EN, F.XLT_CTX_ROOT_ROOT]
  | .XLT_CTX_EPADDR => [F.XLT_CTX_EPADDR_ADDR]
  | .XLT_CTX_EPOCH => [F.XLT_CTX_EPOCH_EPOCH, F.XLT_CTX_EPOCH_BUSY]
  | .XLT_IOTLB_HIT => [F.XLT_IOTLB_HIT_COUNT]
  | .XLT_WALKS => [F.XLT_WALKS_COUNT]
  | .XLT_FAULTS => [F.XLT_FAULTS_COUNT]
  | .XLT_JOINS => [F.XLT_JOINS_COUNT]
  | .XLT_INVALS => [F.XLT_INVALS_COUNT]
  | .XLT_TIMEOUTS => [F.XLT_TIMEOUTS_COUNT]
  | .XLT_PTC_STATUS => [F.XLT_PTC_STATUS_VALID, F.XLT_PTC_STATUS_INVAL_BUSY]
  | .XLT_UTLB_STATUS => [F.XLT_UTLB_STATUS_VALID, F.XLT_UTLB_STATUS_DRAINING]
  | .XLT_PTC_HIT => [F.XLT_PTC_HIT_COUNT]
  | .XLT_PTC_MISS => [F.XLT_PTC_MISS_COUNT]
  | .XLT_PTC_JOINED => [F.XLT_PTC_JOINED_COUNT]
  | .XLT_PTC_INVAL => [F.XLT_PTC_INVAL_COUNT]
  | .XLT_UTLB_HIT => [F.XLT_UTLB_HIT_COUNT]
  | .XLT_UTLB_MISS => [F.XLT_UTLB_MISS_COUNT]
  | .XLT_UTLB_FAULT_CYCLES => [F.XLT_UTLB_FAULT_CYCLES_COUNT]
  | .XLT_UTLB_DRAIN_CYCLES => [F.XLT_UTLB_DRAIN_CYCLES_COUNT]
  | .CMD_CTRL => [F.CMD_CTRL_EN, F.CMD_CTRL_POLL_TICKS]
  | .CMD_STATUS => [F.CMD_STATUS_TAIL_CLAMP, F.CMD_STATUS_CQ_LOST, F.CMD_STATUS_DISABLED_WRITE, F.CMD_STATUS_LAST_RING]
  | .CMD_RING_CFG => [F.CMD_RING_CFG_EN, F.CMD_RING_CFG_DIR, F.CMD_RING_CFG_HOST, F.CMD_RING_CFG_IRQ_ERR, F.CMD_RING_CFG_LOG2_SIZE, F.CMD_RING_CFG_PART, F.CMD_RING_CFG_IID, F.CMD_RING_CFG_BUSY]
  | .CMD_RING_BASE => [F.CMD_RING_BASE_BASE]
  | .CMD_RING_CQ => [F.CMD_RING_CQ_BASE]
  | .CMD_RING_STAT => [F.CMD_RING_STAT_INFLIGHT, F.CMD_RING_STAT_CQ_LOST, F.CMD_RING_STAT_TAIL_CLAMP, F.CMD_RING_STAT_STOPPED]
  | .CMD_SHELF => [F.CMD_SHELF_STATE, F.CMD_SHELF_COUNT, F.CMD_SHELF_PART, F.CMD_SHELF_LAST_CAUSE, F.CMD_SHELF_TARGET_STEP]
  | .CMD_FETCHED => [F.CMD_FETCHED_COUNT]
  | .CMD_RECORDS => [F.CMD_RECORDS_COUNT]
  | .CMD_ABORT_LATE => [F.CMD_ABORT_LATE_COUNT]
  | .CMD_CFG_APPLIED => [F.CMD_CFG_APPLIED_COUNT]
  | .CMD_CFG_ABANDONED => [F.CMD_CFG_ABANDONED_COUNT]
  | .CMD_DB_TAIL => [F.CMD_DB_TAIL_TAIL]
  | .CMD_DB_CQ_HEAD => [F.CMD_DB_CQ_HEAD_CQ_HEAD]
  | .CMD_DB_HEAD => [F.CMD_DB_HEAD_HEAD]
  | .CMD_DB_CQ_TAIL => [F.CMD_DB_CQ_TAIL_CQ_TAIL]
  | .HAL_PORT_CFG => [F.HAL_PORT_CFG_EN, F.HAL_PORT_CFG_RETRAIN, F.HAL_PORT_CFG_CLEAR_RETIRED, F.HAL_PORT_CFG_REPLAY_LIMIT]
  | .HAL_PORT_STATUS => [F.HAL_PORT_STATUS_STATE, F.HAL_PORT_STATUS_CAUSE, F.HAL_PORT_STATUS_PEER, F.HAL_PORT_STATUS_PEER_PORT, F.HAL_PORT_STATUS_TIMING]
  | .HAL_PORT_DELAY => [F.HAL_PORT_DELAY_CYCLES]
  | .HAL_PORT_TX => [F.HAL_PORT_TX_COUNT]
  | .HAL_PORT_RX => [F.HAL_PORT_RX_COUNT]
  | .HAL_PORT_REPLAY => [F.HAL_PORT_REPLAY_COUNT]
  | .HAL_PORT_BAD => [F.HAL_PORT_BAD_COUNT]
  | .HAL_PORT_CE => [F.HAL_PORT_CE_COUNT]
  | .HAL_PORT_HOLD => [F.HAL_PORT_HOLD_COUNT]
  | .HAL_BYPASS => [F.HAL_BYPASS_CLOSED, F.HAL_BYPASS_CLOSE, F.HAL_BYPASS_OPEN, F.HAL_BYPASS_BUSY]
  | .HAL_LASER => [F.HAL_LASER_PRESENT, F.HAL_LASER_POWER_OK, F.HAL_LASER_EN, F.HAL_LASER_TEMP, F.HAL_LASER_OPT_MW, F.HAL_LASER_HOURS]
  | .HAL_GROVE_CFG => [F.HAL_GROVE_CFG_REQ_NUM, F.HAL_GROVE_CFG_JOIN_AUTO, F.HAL_GROVE_CFG_BYPASS_ON_EXCLUDE, F.HAL_GROVE_CFG_REMOTE_REG, F.HAL_GROVE_CFG_READY_10MS]
  | .HAL_GROVE_CMD => [F.HAL_GROVE_CMD_JOIN, F.HAL_GROVE_CMD_LEAVE, F.HAL_GROVE_CMD_LOCK, F.HAL_GROVE_CMD_UNLOCK, F.HAL_GROVE_CMD_ADOPT]
  | .HAL_GROVE_STATUS => [F.HAL_GROVE_STATUS_STATE, F.HAL_GROVE_STATUS_LOCKED, F.HAL_GROVE_STATUS_STALE, F.HAL_GROVE_STATUS_TIMEKEEPER, F.HAL_GROVE_STATUS_DIGEST_MISMATCH, F.HAL_GROVE_STATUS_NUM_CONFLICT, F.HAL_GROVE_STATUS_EXCL_CAUSE, F.HAL_GROVE_STATUS_LOCK_REFUSED, F.HAL_GROVE_STATUS_PKG, F.HAL_GROVE_STATUS_TK, F.HAL_GROVE_STATUS_MEMBERS, F.HAL_GROVE_STATUS_AGREE, F.HAL_GROVE_STATUS_DEPTH]
  | .HAL_STATE_EPOCH => [F.HAL_STATE_EPOCH_EPOCH]
  | .HAL_TIME => [F.HAL_TIME_TICKS]
  | .HAL_TIME_STATUS => [F.HAL_TIME_STATUS_EXT_10M, F.HAL_TIME_STATUS_EXT_PPS, F.HAL_TIME_STATUS_DPLL_LOCK, F.HAL_TIME_STATUS_HOLDOVER, F.HAL_TIME_STATUS_RESIDUAL]
  | .HAL_LOCK_CFG => [F.HAL_LOCK_CFG_SLIP_TICKS, F.HAL_LOCK_CFG_SLIP_IRQ]
  | .HAL_LOCK_PARTS => [F.HAL_LOCK_PARTS_PARTS]
  | .HAL_WIN_OPEN => [F.HAL_WIN_OPEN_OPEN]
  | .HAL_LOCK_STATUS => [F.HAL_LOCK_STATUS_DIVERGED, F.HAL_LOCK_STATUS_SLIP_IRQ]
  | .HAL_MARGIN_MIN => [F.HAL_MARGIN_MIN_TICKS, F.HAL_MARGIN_MIN_STEP]
  | .HAL_MEMBERS => [F.HAL_MEMBERS_BITS]
  | .HAL_SLIPS => [F.HAL_SLIPS_COUNT]
  | .HAL_SHORT => [F.HAL_SHORT_COUNT]
  | .HAL_LATE_AGREE => [F.HAL_LATE_AGREE_COUNT]
  | .HAL_REISSUE => [F.HAL_REISSUE_COUNT]
  | .HAL_CHARTERS => [F.HAL_CHARTERS_COUNT]
  | .HAL_FWD_BYTES => [F.HAL_FWD_BYTES_COUNT]
  | .D2D_LINK_CFG => [F.D2D_LINK_CFG_RETRY_LIMIT, F.D2D_LINK_CFG_RETRAIN]
  | .D2D_LINK_STATUS => [F.D2D_LINK_STATUS_STATE, F.D2D_LINK_STATUS_RATE, F.D2D_LINK_STATUS_CAUSE, F.D2D_LINK_STATUS_PEER_SLOT]
  | .D2D_LINK_FLITS => [F.D2D_LINK_FLITS_COUNT]
  | .D2D_LINK_RETRY => [F.D2D_LINK_RETRY_COUNT]
  | .D2D_LINK_CE => [F.D2D_LINK_CE_COUNT]
  | .D2D_LINK_BAD => [F.D2D_LINK_BAD_COUNT]
  | .D2D_FENCE_CMD => [F.D2D_FENCE_CMD_SLOT, F.D2D_FENCE_CMD_FENCE, F.D2D_FENCE_CMD_RETURN]
  | .D2D_FENCE_STATUS => [F.D2D_FENCE_STATUS_FENCED, F.D2D_FENCE_STATUS_LAST_CAUSE, F.D2D_FENCE_STATUS_BUSY, F.D2D_FENCE_STATUS_LAST_SLOT]
  | .D2D_PKG_FEATURES => [F.D2D_PKG_FEATURES_BITMAP]
  | .D2D_EVENT_IRQ => [F.D2D_EVENT_IRQ_IE, F.D2D_EVENT_IRQ_IID]
  | .D2D_GUEST_CFG => [F.D2D_GUEST_CFG_POWER_W]
  | .D2D_GUEST_STATUS => [F.D2D_GUEST_STATUS_STEP, F.D2D_GUEST_STATUS_OVER, F.D2D_GUEST_STATUS_GRANT_W, F.D2D_GUEST_STATUS_DRAW_DW]
  | .D2D_APERTURE => [F.D2D_APERTURE_PKG, F.D2D_APERTURE_EN]
  | .D2D_HOST_ERR => [F.D2D_HOST_ERR_ADDR, F.D2D_HOST_ERR_APERTURE, F.D2D_HOST_ERR_STATUS, F.D2D_HOST_ERR_VALID]
  | .D2D_IRQ_MAP => [F.D2D_IRQ_MAP_HART, F.D2D_IRQ_MAP_FILE, F.D2D_IRQ_MAP_EIID, F.D2D_IRQ_MAP_EN, F.D2D_IRQ_MAP_PENDING]
  | .D2D_CXL_SNOOP => [F.D2D_CXL_SNOOP_COUNT]
  | .D2D_CXL_BISNP => [F.D2D_CXL_BISNP_COUNT]
  | .D2D_CXL_LOST => [F.D2D_CXL_LOST_COUNT]
  | .D2D_HOST_ERR_COUNT => [F.D2D_HOST_ERR_COUNT_COUNT]
  | .D2D_IRQ_SENT => [F.D2D_IRQ_SENT_COUNT]
  | .PWR_CTRL => [F.PWR_CTRL_BOOST_EN, F.PWR_CTRL_LEARN_EN]
  | .PWR_CAP => [F.PWR_CAP_SUSTAINED_W, F.PWR_CAP_PEAK_W]
  | .PWR_HOST_PEAK => [F.PWR_HOST_PEAK_W]
  | .PWR_STATUS => [F.PWR_STATUS_SELF_MANAGED, F.PWR_STATUS_AT_FLOOR, F.PWR_STATUS_THROTTLE, F.PWR_STATUS_TRIPPED, F.PWR_STATUS_OVER_SUSTAINED, F.PWR_STATUS_HOTTEST_C, F.PWR_STATUS_HOTTEST_SRC]
  | .PWR_DRAW => [F.PWR_DRAW_MEAN_1MS, F.PWR_DRAW_PEAK_1MS, F.PWR_DRAW_MEAN_1S]
  | .PWR_COOLANT => [F.PWR_COOLANT_INLET_C, F.PWR_COOLANT_OUTLET_C, F.PWR_COOLANT_INLET_HIGH]
  | .PWR_DROOP_CFG => [F.PWR_DROOP_CFG_MV]
  | .PWR_PART => [F.PWR_PART_SHARE_W, F.PWR_PART_PRIORITY, F.PWR_PART_DEFAULT_OPP, F.PWR_PART_STEADY, F.PWR_PART_BORROW]
  | .PWR_PART_STATUS => [F.PWR_PART_STATUS_FALLOW, F.PWR_PART_STATUS_PAUSED, F.PWR_PART_STATUS_AT_FLOOR, F.PWR_PART_STATUS_BUDGET_W]
  | .PWR_LEARN_SEL => [F.PWR_LEARN_SEL_PART, F.PWR_LEARN_SEL_PHASE, F.PWR_LEARN_SEL_OPP, F.PWR_LEARN_SEL_CLEAR]
  | .PWR_LEARN_DATA => [F.PWR_LEARN_DATA_MW_PER_BED, F.PWR_LEARN_DATA_SAMPLES, F.PWR_LEARN_DATA_ENERGY_J]
  | .PWR_PLOT_STATUS => [F.PWR_PLOT_STATUS_OPP, F.PWR_PLOT_STATUS_RETUNING, F.PWR_PLOT_STATUS_STRETCH, F.PWR_PLOT_STATUS_TEMP_C, F.PWR_PLOT_STATUS_ALLOT_W]
  | .PWR_PLOT_DRAW => [F.PWR_PLOT_DRAW_NOW_W, F.PWR_PLOT_DRAW_MEAN_1MS]
  | .PWR_BG => [F.PWR_BG_STATE, F.PWR_BG_FALLOW, F.PWR_BG_TEMP_C]
  | .PWR_STRETCH_NS => [F.PWR_STRETCH_NS_COUNT]
  | .PWR_DROOP_EVENTS => [F.PWR_DROOP_EVENTS_COUNT]
  | .PWR_LIMIT_NS => [F.PWR_LIMIT_NS_COUNT]
  | .PWR_FALLOW_CYCLES => [F.PWR_FALLOW_CYCLES_COUNT]
  | .PWR_RETUNES => [F.PWR_RETUNES_COUNT]
  | .PWR_THROTTLE_MS => [F.PWR_THROTTLE_MS_COUNT]
  | .PWR_ENERGY => [F.PWR_ENERGY_COUNT]
  | .MGT_QSAVE => [F.MGT_QSAVE_EN, F.MGT_QSAVE_MIRROR, F.MGT_QSAVE_MAP]
  | .MGT_QSTATUS => [F.MGT_QSTATUS_STATE, F.MGT_QSTATUS_SLOT, F.MGT_QSTATUS_VALID, F.MGT_QSTATUS_ROLLED_BACK, F.MGT_QSTATUS_SAVE_FAIL, F.MGT_QSTATUS_MIRROR_USED, F.MGT_QSTATUS_STEP]
  | .MGT_QTIME => [F.MGT_QTIME_SAVE_US, F.MGT_QTIME_RESTORE_US]
  | .MGT_QCOUNT => [F.MGT_QCOUNT_SAVES, F.MGT_QCOUNT_ROLLBACKS]
  | .MGT_ERR_CTRL => [F.MGT_ERR_CTRL_IE, F.MGT_ERR_CTRL_HOST_LOSS, F.MGT_ERR_CTRL_IID]
  | .MGT_ERR_STATUS => [F.MGT_ERR_STATUS_RESTARTING, F.MGT_ERR_STATUS_HOST_LOST, F.MGT_ERR_STATUS_LOG_OVERFLOW, F.MGT_ERR_STATUS_INJ_ARMED]
  | .MGT_ERR_LOG_HEAD => [F.MGT_ERR_LOG_HEAD_SEQ]
  | .MGT_ERR_LOG_TAIL => [F.MGT_ERR_LOG_TAIL_SEQ]
  | .MGT_ERR_CE_CFG => [F.MGT_ERR_CE_CFG_THRESH, F.MGT_ERR_CE_CFG_WINDOW_S]
  | .MGT_ERR_CE_TOTAL => [F.MGT_ERR_CE_TOTAL_COUNT]
  | .MGT_ERR_UE_TOTAL => [F.MGT_ERR_UE_TOTAL_COUNT]
  | .MGT_ERR_INJ_ADDR => [F.MGT_ERR_INJ_ADDR_ADDR]
  | .MGT_ERR_INJ_CTL => [F.MGT_ERR_INJ_CTL_NIB_A, F.MGT_ERR_INJ_CTL_NIB_B, F.MGT_ERR_INJ_CTL_TWO, F.MGT_ERR_INJ_CTL_PATTERN, F.MGT_ERR_INJ_CTL_ARM]
  | .SEC_CMD => [F.SEC_CMD_OP]
  | .SEC_CMD_ADDR => [F.SEC_CMD_ADDR_ADDR]
  | .SEC_CMD_LEN => [F.SEC_CMD_LEN_LEN]
  | .SEC_STATUS => [F.SEC_STATUS_BUSY, F.SEC_STATUS_BUSY_WRITE, F.SEC_STATUS_LATE_CONFIRM, F.SEC_STATUS_KEY_OK, F.SEC_STATUS_RESULT]
  | .SEC_IRQ => [F.SEC_IRQ_IE, F.SEC_IRQ_IID]
  | .SEC_SLOT => [F.SEC_SLOT_STATE, F.SEC_SLOT_ACTIVE, F.SEC_SLOT_TRIES, F.SEC_SLOT_VERSION]
  | .SEC_GRAFT => [F.SEC_GRAFT_REMAINING_S, F.SEC_GRAFT_HOST_DONE]
  | .SEC_ATTEST_INDEX => [F.SEC_ATTEST_INDEX_NEXT]
  | .SEC_ATTEST_LIMIT => [F.SEC_ATTEST_LIMIT_LIMIT]
  | .MGT_BOOT_STATUS => [F.MGT_BOOT_STATUS_STAGE, F.MGT_BOOT_STATUS_REASON, F.MGT_BOOT_STATUS_RECOVERY, F.MGT_BOOT_STATUS_FAIL, F.MGT_BOOT_STATUS_SETTINGS_RESET, F.MGT_BOOT_STATUS_FLASH_ERR, F.MGT_BOOT_STATUS_BOOT_MS]
  | .MGT_HEALTH => [F.MGT_HEALTH_ALIVE, F.MGT_HEALTH_REDUCED, F.MGT_HEALTH_RESTARTS, F.MGT_HEALTH_LAST_CHECK]
  | .TAP_CTRL => [F.TAP_CTRL_DIE_EN, F.TAP_CTRL_BUSY]
  | .TAP_STATUS => [F.TAP_STATUS_STANDIN, F.TAP_STATUS_IR_LEN, F.TAP_STATUS_DR_BYPASS, F.TAP_STATUS_RESET_TEST]
  | .TAP_PLOT_STATUS => [F.TAP_PLOT_STATUS_IN_TEST, F.TAP_PLOT_STATUS_INSTR, F.TAP_PLOT_STATUS_STACK_PORTS]
  | .PWR_PART_ENERGY => [F.PWR_PART_ENERGY_COUNT]
  | .D2D_GUEST_DESC => [F.D2D_GUEST_DESC_WORD]
  | .MGT_ERR_LOG => [F.MGT_ERR_LOG_WORD]

/-- The block that holds a register. -/
def Reg.block : Reg → Block
  | .MGT_DIE_INFO | .MGT_DIE_FEATURES => .hdr
  | .MGT_BG_OWNER | .MGT_PART_ERR | .MGT_ID_STATUS | .MGT_QSAVE | .MGT_QSTATUS | .MGT_QTIME | .MGT_QCOUNT | .MGT_ERR_CTRL | .MGT_ERR_STATUS | .MGT_ERR_LOG_HEAD | .MGT_ERR_LOG_TAIL | .MGT_ERR_CE_CFG | .MGT_ERR_CE_TOTAL | .MGT_ERR_UE_TOTAL | .MGT_ERR_INJ_ADDR | .MGT_ERR_INJ_CTL | .MGT_BOOT_STATUS | .MGT_HEALTH | .MGT_ERR_LOG => .mgt
  | .GRID_MODE | .GRID_STATUS | .GRID_TCFG | .GRID_BUSY_CYCLES | .GRID_TILES | .GRID_PAD_CYCLES | .GRID_CLASH_COUNT => .grid
  | .CORE_ID | .CORE_STATUS | .CORE_FLAGS | .CORE_PC | .CORE_STEP | .CORE_ISSUED | .CORE_STALL_FLAG | .CORE_STALL_SYNC | .CORE_STALL_IB | .CORE_LOSS_COUNT => .core
  | .CORE_BSQ_STATUS | .CORE_BSQ_PHASE | .CORE_BSQ_CTRL | .CORE_BSQ_REFILL | .CORE_BSQ_STARVE | .CORE_BSQ_STEP => .bsq
  | .SPAD_STATUS | .SPAD_CONFLICT | .SPAD_RMW | .SPAD_CE_COUNT | .SPAD_REGION => .spad
  | .BEDC_CTRL | .BEDC_CMD | .BEDC_STATUS | .BEDC_HIT | .BEDC_MISS | .BEDC_PF_HIT | .BEDC_PF_WASTED | .BEDC_VICTIM_HIT | .BEDC_MERGED | .BEDC_DRAINED | .BEDC_FLASH_INV | .BEDC_MERGE_FULL | .BEDC_CE_COUNT | .BEDC_PROBE | .BEDC_PROBE_DATA => .bedc
  | .STK_CTRL | .STK_STATUS | .STK_TRAIN | .STK_IDENT | .STK_REG | .STK_REG_LEVEL | .STK_REG_BYTES | .STK_REG_WAIT | .STK_OADD_LATE | .STK_OADD_FULL | .STK_OADD_OVF | .STK_RD_BYTES | .STK_WR_BYTES | .STK_ROW_HIT | .STK_ROW_MISS | .STK_REFRESH | .STK_ATOMIC | .STK_CE_COUNT | .STK_SCRUB_PASS | .STK_OADD => .stk
  | .STK_REGION | .STK_REGION_CTL | .STK_REGION_CMD => .reg
  | .BRW_CTRL | .BRW_STATUS | .BRW_OUT | .BRW_LAST_ERR | .BRW_T4_DONE | .BRW_STALL | .BRW_LATE | .BRW_BYTES | .BRW_MOVES | .BRW_FB_TAKEN | .BRW_KICKS => .brw
  | .XLT_CTRL | .XLT_STATUS | .XLT_FQ_BASE | .XLT_FQ_HEAD | .XLT_FQ_TAIL | .XLT_FQ_CTRL | .XLT_CTX_ROOT | .XLT_CTX_EPADDR | .XLT_CTX_EPOCH | .XLT_IOTLB_HIT | .XLT_WALKS | .XLT_FAULTS | .XLT_JOINS | .XLT_INVALS | .XLT_TIMEOUTS => .iommu
  | .XLT_PTC_STATUS | .XLT_PTC_HIT | .XLT_PTC_MISS | .XLT_PTC_JOINED | .XLT_PTC_INVAL => .ptc
  | .XLT_UTLB_STATUS | .XLT_UTLB_HIT | .XLT_UTLB_MISS | .XLT_UTLB_FAULT_CYCLES | .XLT_UTLB_DRAIN_CYCLES => .utlb
  | .CMD_CTRL | .CMD_STATUS | .CMD_RING_CFG | .CMD_RING_BASE | .CMD_RING_CQ | .CMD_RING_STAT | .CMD_SHELF | .CMD_FETCHED | .CMD_RECORDS | .CMD_ABORT_LATE | .CMD_CFG_APPLIED | .CMD_CFG_ABANDONED => .cmd
  | .CMD_DB_TAIL | .CMD_DB_CQ_HEAD | .CMD_DB_HEAD | .CMD_DB_CQ_TAIL => .db
  | .HAL_PORT_CFG | .HAL_PORT_STATUS | .HAL_PORT_DELAY | .HAL_PORT_TX | .HAL_PORT_RX | .HAL_PORT_REPLAY | .HAL_PORT_BAD | .HAL_PORT_CE | .HAL_PORT_HOLD => .port
  | .HAL_BYPASS | .HAL_LASER => .halDie
  | .HAL_GROVE_CFG | .HAL_GROVE_CMD | .HAL_GROVE_STATUS | .HAL_STATE_EPOCH | .HAL_TIME | .HAL_TIME_STATUS | .HAL_LOCK_CFG | .HAL_LOCK_PARTS | .HAL_WIN_OPEN | .HAL_LOCK_STATUS | .HAL_MARGIN_MIN | .HAL_MEMBERS | .HAL_SLIPS | .HAL_SHORT | .HAL_LATE_AGREE | .HAL_REISSUE | .HAL_CHARTERS | .HAL_FWD_BYTES => .hal
  | .D2D_LINK_CFG | .D2D_LINK_STATUS | .D2D_LINK_FLITS | .D2D_LINK_RETRY | .D2D_LINK_CE | .D2D_LINK_BAD => .link
  | .D2D_FENCE_CMD | .D2D_FENCE_STATUS | .D2D_PKG_FEATURES | .D2D_EVENT_IRQ => .d2d12
  | .D2D_GUEST_CFG | .D2D_GUEST_STATUS | .D2D_GUEST_DESC => .d2d13
  | .D2D_APERTURE | .D2D_HOST_ERR | .D2D_IRQ_MAP | .D2D_CXL_SNOOP | .D2D_CXL_BISNP | .D2D_CXL_LOST | .D2D_HOST_ERR_COUNT | .D2D_IRQ_SENT => .d2d14
  | .PWR_CTRL | .PWR_CAP | .PWR_HOST_PEAK | .PWR_STATUS | .PWR_DRAW | .PWR_COOLANT | .PWR_DROOP_CFG | .PWR_PART | .PWR_PART_STATUS | .PWR_LEARN_SEL | .PWR_LEARN_DATA | .PWR_PART_ENERGY => .pwr
  | .PWR_PLOT_STATUS | .PWR_PLOT_DRAW | .PWR_BG | .PWR_STRETCH_NS | .PWR_DROOP_EVENTS | .PWR_LIMIT_NS | .PWR_FALLOW_CYCLES | .PWR_RETUNES | .PWR_THROTTLE_MS | .PWR_ENERGY => .pwrPlot
  | .SEC_CMD | .SEC_CMD_ADDR | .SEC_CMD_LEN | .SEC_STATUS | .SEC_IRQ | .SEC_SLOT | .SEC_GRAFT | .SEC_ATTEST_INDEX | .SEC_ATTEST_LIMIT => .sec
  | .TAP_CTRL | .TAP_STATUS => .tap
  | .TAP_PLOT_STATUS => .tapPlot

/-- Offset of a register (of its element 0) in its block. -/
def Reg.off : Reg → Nat
  | .MGT_DIE_INFO => 0x0
  | .MGT_DIE_FEATURES => 0x8
  | .MGT_BG_OWNER => 0x1000
  | .MGT_PART_ERR => 0x1400
  | .MGT_ID_STATUS => 0x100
  | .GRID_MODE => 0x0
  | .GRID_STATUS => 0x8
  | .GRID_TCFG => 0x10
  | .GRID_BUSY_CYCLES => 0x40
  | .GRID_TILES => 0x48
  | .GRID_PAD_CYCLES => 0x50
  | .GRID_CLASH_COUNT => 0x58
  | .CORE_ID => 0x0
  | .CORE_STATUS => 0x8
  | .CORE_FLAGS => 0x10
  | .CORE_PC => 0x30
  | .CORE_STEP => 0x38
  | .CORE_ISSUED => 0x40
  | .CORE_STALL_FLAG => 0x48
  | .CORE_STALL_SYNC => 0x50
  | .CORE_STALL_IB => 0x58
  | .CORE_LOSS_COUNT => 0x60
  | .CORE_BSQ_STATUS => 0x0
  | .CORE_BSQ_PHASE => 0x8
  | .CORE_BSQ_CTRL => 0x10
  | .CORE_BSQ_REFILL => 0x18
  | .CORE_BSQ_STARVE => 0x20
  | .CORE_BSQ_STEP => 0x28
  | .SPAD_STATUS => 0x0
  | .SPAD_CONFLICT => 0x8
  | .SPAD_RMW => 0x30
  | .SPAD_CE_COUNT => 0x38
  | .SPAD_REGION => 0x100
  | .BEDC_CTRL => 0x0
  | .BEDC_CMD => 0x8
  | .BEDC_STATUS => 0x10
  | .BEDC_HIT => 0x40
  | .BEDC_MISS => 0x48
  | .BEDC_PF_HIT => 0x50
  | .BEDC_PF_WASTED => 0x58
  | .BEDC_VICTIM_HIT => 0x60
  | .BEDC_MERGED => 0x68
  | .BEDC_DRAINED => 0x70
  | .BEDC_FLASH_INV => 0x78
  | .BEDC_MERGE_FULL => 0x80
  | .BEDC_CE_COUNT => 0x88
  | .BEDC_PROBE => 0x100
  | .BEDC_PROBE_DATA => 0x108
  | .STK_CTRL => 0x0
  | .STK_STATUS => 0x8
  | .STK_TRAIN => 0x10
  | .STK_IDENT => 0x18
  | .STK_REG => 0x1000
  | .STK_REG_LEVEL => 0x1200
  | .STK_REG_BYTES => 0x1400
  | .STK_REG_WAIT => 0x1600
  | .STK_OADD_LATE => 0x2008
  | .STK_OADD_FULL => 0x2010
  | .STK_OADD_OVF => 0x2018
  | .STK_RD_BYTES => 0x3000
  | .STK_WR_BYTES => 0x3008
  | .STK_ROW_HIT => 0x3010
  | .STK_ROW_MISS => 0x3018
  | .STK_REFRESH => 0x3020
  | .STK_ATOMIC => 0x3028
  | .STK_CE_COUNT => 0x3030
  | .STK_SCRUB_PASS => 0x3038
  | .STK_OADD => 0x2000
  | .STK_REGION => 0x40000
  | .STK_REGION_CTL => 0x40200
  | .STK_REGION_CMD => 0x40208
  | .BRW_CTRL => 0x0
  | .BRW_STATUS => 0x8
  | .BRW_OUT => 0x10
  | .BRW_LAST_ERR => 0x18
  | .BRW_T4_DONE => 0x20
  | .BRW_STALL => 0x100
  | .BRW_LATE => 0x180
  | .BRW_BYTES => 0x1c0
  | .BRW_MOVES => 0x200
  | .BRW_FB_TAKEN => 0x208
  | .BRW_KICKS => 0x210
  | .XLT_CTRL => 0x1000
  | .XLT_STATUS => 0x1008
  | .XLT_FQ_BASE => 0x1010
  | .XLT_FQ_HEAD => 0x1018
  | .XLT_FQ_TAIL => 0x1020
  | .XLT_FQ_CTRL => 0x1028
  | .XLT_CTX_ROOT => 0x1100
  | .XLT_CTX_EPADDR => 0x1108
  | .XLT_CTX_EPOCH => 0x1110
  | .XLT_IOTLB_HIT => 0x1800
  | .XLT_WALKS => 0x1808
  | .XLT_FAULTS => 0x1810
  | .XLT_JOINS => 0x1818
  | .XLT_INVALS => 0x1820
  | .XLT_TIMEOUTS => 0x1828
  | .XLT_PTC_STATUS => 0x0
  | .XLT_UTLB_STATUS => 0x0
  | .XLT_PTC_HIT => 0x40
  | .XLT_PTC_MISS => 0x48
  | .XLT_PTC_JOINED => 0x50
  | .XLT_PTC_INVAL => 0x58
  | .XLT_UTLB_HIT => 0x40
  | .XLT_UTLB_MISS => 0x48
  | .XLT_UTLB_FAULT_CYCLES => 0x50
  | .XLT_UTLB_DRAIN_CYCLES => 0x58
  | .CMD_CTRL => 0x0
  | .CMD_STATUS => 0x8
  | .CMD_RING_CFG => 0x1000
  | .CMD_RING_BASE => 0x1008
  | .CMD_RING_CQ => 0x1010
  | .CMD_RING_STAT => 0x1018
  | .CMD_SHELF => 0x9000
  | .CMD_FETCHED => 0xa000
  | .CMD_RECORDS => 0xa008
  | .CMD_ABORT_LATE => 0xa010
  | .CMD_CFG_APPLIED => 0xa018
  | .CMD_CFG_ABANDONED => 0xa020
  | .CMD_DB_TAIL => 0x0
  | .CMD_DB_CQ_HEAD => 0x8
  | .CMD_DB_HEAD => 0x10
  | .CMD_DB_CQ_TAIL => 0x18
  | .HAL_PORT_CFG => 0x0
  | .HAL_PORT_STATUS => 0x8
  | .HAL_PORT_DELAY => 0x10
  | .HAL_PORT_TX => 0x40
  | .HAL_PORT_RX => 0x48
  | .HAL_PORT_REPLAY => 0x50
  | .HAL_PORT_BAD => 0x58
  | .HAL_PORT_CE => 0x60
  | .HAL_PORT_HOLD => 0x68
  | .HAL_BYPASS => 0x800
  | .HAL_LASER => 0x810
  | .HAL_GROVE_CFG => 0x2000
  | .HAL_GROVE_CMD => 0x2008
  | .HAL_GROVE_STATUS => 0x2010
  | .HAL_STATE_EPOCH => 0x2018
  | .HAL_TIME => 0x2020
  | .HAL_TIME_STATUS => 0x2028
  | .HAL_LOCK_CFG => 0x2030
  | .HAL_LOCK_PARTS => 0x2038
  | .HAL_WIN_OPEN => 0x2040
  | .HAL_LOCK_STATUS => 0x2048
  | .HAL_MARGIN_MIN => 0x2050
  | .HAL_MEMBERS => 0x2100
  | .HAL_SLIPS => 0x3000
  | .HAL_SHORT => 0x3008
  | .HAL_LATE_AGREE => 0x3010
  | .HAL_REISSUE => 0x3018
  | .HAL_CHARTERS => 0x3020
  | .HAL_FWD_BYTES => 0x3028
  | .D2D_LINK_CFG => 0x0
  | .D2D_LINK_STATUS => 0x8
  | .D2D_LINK_FLITS => 0x40
  | .D2D_LINK_RETRY => 0x48
  | .D2D_LINK_CE => 0x50
  | .D2D_LINK_BAD => 0x58
  | .D2D_FENCE_CMD => 0x1000
  | .D2D_FENCE_STATUS => 0x1008
  | .D2D_PKG_FEATURES => 0x1010
  | .D2D_EVENT_IRQ => 0x1018
  | .D2D_GUEST_CFG => 0x2000
  | .D2D_GUEST_STATUS => 0x2008
  | .D2D_APERTURE => 0x3000
  | .D2D_HOST_ERR => 0x3100
  | .D2D_IRQ_MAP => 0x10000
  | .D2D_CXL_SNOOP => 0x3200
  | .D2D_CXL_BISNP => 0x3208
  | .D2D_CXL_LOST => 0x3210
  | .D2D_HOST_ERR_COUNT => 0x3218
  | .D2D_IRQ_SENT => 0x3220
  | .PWR_CTRL => 0x0
  | .PWR_CAP => 0x8
  | .PWR_HOST_PEAK => 0x10
  | .PWR_STATUS => 0x18
  | .PWR_DRAW => 0x20
  | .PWR_COOLANT => 0x28
  | .PWR_DROOP_CFG => 0x30
  | .PWR_PART => 0x100
  | .PWR_PART_STATUS => 0x200
  | .PWR_LEARN_SEL => 0x400
  | .PWR_LEARN_DATA => 0x408
  | .PWR_PLOT_STATUS => 0x0
  | .PWR_PLOT_DRAW => 0x8
  | .PWR_BG => 0x100
  | .PWR_STRETCH_NS => 0x200
  | .PWR_DROOP_EVENTS => 0x208
  | .PWR_LIMIT_NS => 0x210
  | .PWR_FALLOW_CYCLES => 0x218
  | .PWR_RETUNES => 0x220
  | .PWR_THROTTLE_MS => 0x228
  | .PWR_ENERGY => 0x230
  | .MGT_QSAVE => 0x2000
  | .MGT_QSTATUS => 0x2008
  | .MGT_QTIME => 0x2010
  | .MGT_QCOUNT => 0x2018
  | .MGT_ERR_CTRL => 0x3000
  | .MGT_ERR_STATUS => 0x3008
  | .MGT_ERR_LOG_HEAD => 0x3010
  | .MGT_ERR_LOG_TAIL => 0x3018
  | .MGT_ERR_CE_CFG => 0x3100
  | .MGT_ERR_CE_TOTAL => 0x3200
  | .MGT_ERR_UE_TOTAL => 0x3280
  | .MGT_ERR_INJ_ADDR => 0x3300
  | .MGT_ERR_INJ_CTL => 0x3308
  | .SEC_CMD => 0x0
  | .SEC_CMD_ADDR => 0x8
  | .SEC_CMD_LEN => 0x10
  | .SEC_STATUS => 0x18
  | .SEC_IRQ => 0x20
  | .SEC_SLOT => 0x40
  | .SEC_GRAFT => 0x50
  | .SEC_ATTEST_INDEX => 0x58
  | .SEC_ATTEST_LIMIT => 0x60
  | .MGT_BOOT_STATUS => 0x6000
  | .MGT_HEALTH => 0x6008
  | .TAP_CTRL => 0x0
  | .TAP_STATUS => 0x8
  | .TAP_PLOT_STATUS => 0x0
  | .PWR_PART_ENERGY => 0x300
  | .D2D_GUEST_DESC => 0x2100
  | .MGT_ERR_LOG => 0x4000

/-- How many elements the register has in its block. -/
def Reg.cnt : Reg → Nat
  | .MGT_BG_OWNER => 192
  | .GRID_TCFG => 4
  | .CORE_FLAGS => 4
  | .SPAD_CONFLICT => 5
  | .SPAD_REGION => 40
  | .STK_REG => 33
  | .STK_REG_LEVEL => 33
  | .STK_REG_BYTES => 33
  | .STK_REG_WAIT => 33
  | .STK_REGION => 64
  | .BRW_STALL => 13
  | .BRW_LATE => 5
  | .BRW_BYTES => 5
  | .XLT_CTX_ROOT => 33
  | .XLT_CTX_EPADDR => 33
  | .XLT_CTX_EPOCH => 33
  | .CMD_RING_CFG => 1024
  | .CMD_RING_BASE => 1024
  | .CMD_RING_CQ => 1024
  | .CMD_RING_STAT => 1024
  | .CMD_SHELF => 16
  | .HAL_LASER => 2
  | .HAL_MEMBERS => 8
  | .D2D_APERTURE => 16
  | .D2D_IRQ_MAP => 2048
  | .PWR_PART => 32
  | .PWR_PART_STATUS => 32
  | .PWR_BG => 16
  | .MGT_QSAVE => 32
  | .MGT_QSTATUS => 32
  | .MGT_QTIME => 32
  | .MGT_QCOUNT => 32
  | .MGT_ERR_CE_CFG => 8
  | .MGT_ERR_CE_TOTAL => 9
  | .MGT_ERR_UE_TOTAL => 9
  | .SEC_SLOT => 2
  | .PWR_PART_ENERGY => 32
  | .D2D_GUEST_DESC => 32
  | .MGT_ERR_LOG => 1024
  | _ => 1

/-- Distance in bytes from one element to the next. -/
def Reg.stride : Reg → Nat
  | .MGT_BG_OWNER => 4
  | .XLT_CTX_ROOT => 32
  | .XLT_CTX_EPADDR => 32
  | .XLT_CTX_EPOCH => 32
  | .CMD_RING_CFG => 32
  | .CMD_RING_BASE => 32
  | .CMD_RING_CQ => 32
  | .CMD_RING_STAT => 32
  | .CMD_SHELF => 16
  | .MGT_QSAVE => 32
  | .MGT_QSTATUS => 32
  | .MGT_QTIME => 32
  | .MGT_QCOUNT => 32
  | _ => 8

/-- The registers of a block. -/
def Block.regs : Block → List Reg
  | .hdr => [.MGT_DIE_INFO, .MGT_DIE_FEATURES]
  | .mgt => [.MGT_BG_OWNER, .MGT_PART_ERR, .MGT_ID_STATUS, .MGT_QSAVE, .MGT_QSTATUS, .MGT_QTIME, .MGT_QCOUNT, .MGT_ERR_CTRL, .MGT_ERR_STATUS, .MGT_ERR_LOG_HEAD, .MGT_ERR_LOG_TAIL, .MGT_ERR_CE_CFG, .MGT_ERR_CE_TOTAL, .MGT_ERR_UE_TOTAL, .MGT_ERR_INJ_ADDR, .MGT_ERR_INJ_CTL, .MGT_BOOT_STATUS, .MGT_HEALTH, .MGT_ERR_LOG]
  | .grid => [.GRID_MODE, .GRID_STATUS, .GRID_TCFG, .GRID_BUSY_CYCLES, .GRID_TILES, .GRID_PAD_CYCLES, .GRID_CLASH_COUNT]
  | .core => [.CORE_ID, .CORE_STATUS, .CORE_FLAGS, .CORE_PC, .CORE_STEP, .CORE_ISSUED, .CORE_STALL_FLAG, .CORE_STALL_SYNC, .CORE_STALL_IB, .CORE_LOSS_COUNT]
  | .spad => [.SPAD_STATUS, .SPAD_CONFLICT, .SPAD_RMW, .SPAD_CE_COUNT, .SPAD_REGION]
  | .bsq => [.CORE_BSQ_STATUS, .CORE_BSQ_PHASE, .CORE_BSQ_CTRL, .CORE_BSQ_REFILL, .CORE_BSQ_STARVE, .CORE_BSQ_STEP]
  | .bedc => [.BEDC_CTRL, .BEDC_CMD, .BEDC_STATUS, .BEDC_HIT, .BEDC_MISS, .BEDC_PF_HIT, .BEDC_PF_WASTED, .BEDC_VICTIM_HIT, .BEDC_MERGED, .BEDC_DRAINED, .BEDC_FLASH_INV, .BEDC_MERGE_FULL, .BEDC_CE_COUNT, .BEDC_PROBE, .BEDC_PROBE_DATA]
  | .brw => [.BRW_CTRL, .BRW_STATUS, .BRW_OUT, .BRW_LAST_ERR, .BRW_T4_DONE, .BRW_STALL, .BRW_LATE, .BRW_BYTES, .BRW_MOVES, .BRW_FB_TAKEN, .BRW_KICKS]
  | .utlb => [.XLT_UTLB_STATUS, .XLT_UTLB_HIT, .XLT_UTLB_MISS, .XLT_UTLB_FAULT_CYCLES, .XLT_UTLB_DRAIN_CYCLES]
  | .stk => [.STK_CTRL, .STK_STATUS, .STK_TRAIN, .STK_IDENT, .STK_REG, .STK_REG_LEVEL, .STK_REG_BYTES, .STK_REG_WAIT, .STK_OADD_LATE, .STK_OADD_FULL, .STK_OADD_OVF, .STK_RD_BYTES, .STK_WR_BYTES, .STK_ROW_HIT, .STK_ROW_MISS, .STK_REFRESH, .STK_ATOMIC, .STK_CE_COUNT, .STK_SCRUB_PASS, .STK_OADD]
  | .reg => [.STK_REGION, .STK_REGION_CTL, .STK_REGION_CMD]
  | .ptc => [.XLT_PTC_STATUS, .XLT_PTC_HIT, .XLT_PTC_MISS, .XLT_PTC_JOINED, .XLT_PTC_INVAL]
  | .iommu => [.XLT_CTRL, .XLT_STATUS, .XLT_FQ_BASE, .XLT_FQ_HEAD, .XLT_FQ_TAIL, .XLT_FQ_CTRL, .XLT_CTX_ROOT, .XLT_CTX_EPADDR, .XLT_CTX_EPOCH, .XLT_IOTLB_HIT, .XLT_WALKS, .XLT_FAULTS, .XLT_JOINS, .XLT_INVALS, .XLT_TIMEOUTS]
  | .cmd => [.CMD_CTRL, .CMD_STATUS, .CMD_RING_CFG, .CMD_RING_BASE, .CMD_RING_CQ, .CMD_RING_STAT, .CMD_SHELF, .CMD_FETCHED, .CMD_RECORDS, .CMD_ABORT_LATE, .CMD_CFG_APPLIED, .CMD_CFG_ABANDONED]
  | .db => [.CMD_DB_TAIL, .CMD_DB_CQ_HEAD, .CMD_DB_HEAD, .CMD_DB_CQ_TAIL]
  | .port => [.HAL_PORT_CFG, .HAL_PORT_STATUS, .HAL_PORT_DELAY, .HAL_PORT_TX, .HAL_PORT_RX, .HAL_PORT_REPLAY, .HAL_PORT_BAD, .HAL_PORT_CE, .HAL_PORT_HOLD]
  | .halDie => [.HAL_BYPASS, .HAL_LASER]
  | .hal => [.HAL_GROVE_CFG, .HAL_GROVE_CMD, .HAL_GROVE_STATUS, .HAL_STATE_EPOCH, .HAL_TIME, .HAL_TIME_STATUS, .HAL_LOCK_CFG, .HAL_LOCK_PARTS, .HAL_WIN_OPEN, .HAL_LOCK_STATUS, .HAL_MARGIN_MIN, .HAL_MEMBERS, .HAL_SLIPS, .HAL_SHORT, .HAL_LATE_AGREE, .HAL_REISSUE, .HAL_CHARTERS, .HAL_FWD_BYTES]
  | .link => [.D2D_LINK_CFG, .D2D_LINK_STATUS, .D2D_LINK_FLITS, .D2D_LINK_RETRY, .D2D_LINK_CE, .D2D_LINK_BAD]
  | .d2d12 => [.D2D_FENCE_CMD, .D2D_FENCE_STATUS, .D2D_PKG_FEATURES, .D2D_EVENT_IRQ]
  | .d2d13 => [.D2D_GUEST_CFG, .D2D_GUEST_STATUS, .D2D_GUEST_DESC]
  | .d2d14 => [.D2D_APERTURE, .D2D_HOST_ERR, .D2D_IRQ_MAP, .D2D_CXL_SNOOP, .D2D_CXL_BISNP, .D2D_CXL_LOST, .D2D_HOST_ERR_COUNT, .D2D_IRQ_SENT]
  | .pwr => [.PWR_CTRL, .PWR_CAP, .PWR_HOST_PEAK, .PWR_STATUS, .PWR_DRAW, .PWR_COOLANT, .PWR_DROOP_CFG, .PWR_PART, .PWR_PART_STATUS, .PWR_LEARN_SEL, .PWR_LEARN_DATA, .PWR_PART_ENERGY]
  | .pwrPlot => [.PWR_PLOT_STATUS, .PWR_PLOT_DRAW, .PWR_BG, .PWR_STRETCH_NS, .PWR_DROOP_EVENTS, .PWR_LIMIT_NS, .PWR_FALLOW_CYCLES, .PWR_RETUNES, .PWR_THROTTLE_MS, .PWR_ENERGY]
  | .sec => [.SEC_CMD, .SEC_CMD_ADDR, .SEC_CMD_LEN, .SEC_STATUS, .SEC_IRQ, .SEC_SLOT, .SEC_GRAFT, .SEC_ATTEST_INDEX, .SEC_ATTEST_LIMIT]
  | .tap => [.TAP_CTRL, .TAP_STATUS]
  | .tapPlot => [.TAP_PLOT_STATUS]

/-- Registers of the shelf: those a CONFIG_STAGE entry may write (R277, R319, R365, R382). -/
def Reg.shelvable : Reg → Bool
  | .STK_REGION | .STK_REG | .STK_CTRL | .MGT_BG_OWNER | .BEDC_CTRL | .BRW_CTRL | .SPAD_REGION
  | .HAL_LOCK_PARTS | .HAL_WIN_OPEN | .PWR_PART | .MGT_QSAVE => true
  | _ => false

end Sys2Proof.Machine
end

