-- ==== Sys2Proof/Machine/Sparse.lean ====
section
/-!
DEFINITION. Sparse maps from Nat keys in one canonical form: keys strictly rising, and no entry equal to what an
unlisted key reads as. Memories, registers and units are held in this form, so equal contents are equal data.
-/

namespace Sys2Proof.Machine

/-- What key `k` reads as; `d` where it is not listed. -/
def sget {α : Type} (d : α) (l : List (Nat × α)) (k : Nat) : α :=
  match l with
  | [] => d
  | (i, v) :: t => if i = k then v else sget d t k

/-- The map with key `k` reading as `v`. Writing the value an unlisted key reads as removes the entry. -/
def sput {α : Type} [DecidableEq α] (d : α) (l : List (Nat × α)) (k : Nat) (v : α) : List (Nat × α) :=
  match l with
  | [] => if v = d then [] else [(k, v)]
  | (i, w) :: t =>
    if k < i then (if v = d then (i, w) :: t else (k, v) :: (i, w) :: t)
    else if k = i then (if v = d then t else (k, v) :: t)
    else (i, w) :: sput d t k v

/-- All keys of `l` lie above `b`, they rise strictly, and no entry holds `d`. -/
def swfFrom {α : Type} [DecidableEq α] (d : α) (b : Option Nat) (l : List (Nat × α)) : Bool :=
  match l with
  | [] => true
  | (i, v) :: t =>
    (match b with
      | none => true
      | some j => decide (j < i)) && decide (v ≠ d) && swfFrom d (some i) t

/-- The canonical form. -/
def swf {α : Type} [DecidableEq α] (d : α) (l : List (Nat × α)) : Bool := swfFrom d none l

/-- Apply `f` to every listed entry. -/
def smap {α : Type} [DecidableEq α] (d : α) (f : Nat → α → α) (l : List (Nat × α)) : List (Nat × α) :=
  match l with
  | [] => []
  | (i, v) :: t => let w := f i v; if w = d then smap d f t else (i, w) :: smap d f t

/-- A plain association list without a default: the value of key `k`. -/
def look {α : Type} (l : List (Nat × α)) (k : Nat) : Option α :=
  match l with
  | [] => none
  | (i, v) :: t => if i = k then some v else look t k

/-- The list with the entry of key `k` replaced by `v`, or with `v` added at the end. -/
def lput {α : Type} (l : List (Nat × α)) (k : Nat) (v : α) : List (Nat × α) :=
  match l with
  | [] => [(k, v)]
  | (i, w) :: t => if i = k then (k, v) :: t else (i, w) :: lput t k v

/-- The list without the entries of key `k`. -/
def ldel {α : Type} (l : List (Nat × α)) (k : Nat) : List (Nat × α) :=
  l.filter fun p => decide (p.1 ≠ k)

end Sys2Proof.Machine
end

