-- ==== Sys2Proof/Machine/State.lean ====
section
/-!
DEFINITION. The state of the package as plain data: every register (held in one sparse map), memory, scratchpad, buffer,
queue and mode that the specification gives it, with the queue of commands that wait (first in, first out). Units are held
in sparse maps by their package-wide number; a unit that is not listed is as it is at reset.
-/

namespace Sys2Proof.Machine

/-- Why the block stops. Nothing the specification describes stops it. -/
inductive Fault where
  /-- Raised by `exec` for a command whose operands are not well formed (`Sys2Proof.WellFormed`): a length or a field that
  no such request can carry (R118, R295). Safe: the hardware never receives such a command. -/
  | illFormed (what : String)
  deriving DecidableEq, Repr

/-- Why a command has no meaning. -/
inductive Refusal where
  /-- Answered only by an arm of `exec` whose command has no meaning yet. Safe. -/
  | notModelled (mnemonic : String)
  deriving DecidableEq, Repr

/-- An open loop of a core (R97, R373): the first bundle index of the body, its length, and the
passes not yet begun. -/
structure Loop where
  first : Nat
  len : Nat
  left : Nat
  deriving DecidableEq, Repr

/-- Why a core does not issue (CORE_STATUS.WAIT, R107): nothing, a tile flag, or a sync point at which it arrived in an active
cycle of its bed. -/
inductive Wait where
  | none
  | flag (f : BitVec 5) (keep : Bool)
  | sync (level : BitVec 2) (at0 : Nat)
  deriving DecidableEq, Repr

/-- Where a result in flight arrives (R77, R78): a register, a tile flag, or a word of the core's CSR page. -/
inductive Dest where
  | x (r : BitVec 5) (v : BitVec 64)
  | v (r : BitVec 5) (val mask : BitVec 512)
  | m (r : BitVec 3) (val mask : BitVec 64)
  | flag (f : BitVec 5) (tile : Bool)
  | csr (off : BitVec 12) (v : BitVec 64)
  deriving DecidableEq, Repr

/-- One result in flight: it is readable from active cycle `due` on; `issue` and `prio` (0 vector, 1 local move, 2 scalar)
decide a collision (R78). -/
structure Infl where
  due : Nat
  issue : Nat
  prio : Nat
  dst : Dest
  deriving DecidableEq, Repr

/-- What becomes of a scratchpad access of the vector or local-move slot once its bank is granted: a write of masked
bytes, a VLD of granules into parts of a register, one gathered lane, an LDX, or the read half of a COPY. -/
inductive AccKind where
  | write (data : BitVec 512) (bytes : BitVec 64)
  | vread (r : BitVec 5) (part : Nat) (mask : BitVec 512) (due issue : Nat)
  | lane (r : BitVec 5) (j sub : Nat) (due issue : Nat)
  | xread (r : BitVec 5) (sub : Nat) (due issue : Nat)
  | copy (dest : Nat)
  deriving DecidableEq, Repr

/-- A scheduled scratchpad access of a core master (R89, R92): the active cycle in which it asks for its bank, the
master (1 VEC, 2 LM), its first granule and its granules, all in one bank (R109). -/
structure Acc where
  cyc : Nat
  master : Nat
  gran : Nat
  n : Nat
  kind : AccKind
  deriving DecidableEq, Repr

/-- A grid order as issued (R83), with what its issue cycle fixes: its granules and drain destination, its depth K, the
GRID_TCFG value (R74), and the tensor scale maxima with the mark that their header granules were read (R205) and that one of
them was uncorrectable. -/
structure Order where
  issue : Nat
  aGran : Nat
  bGran : Nat
  dAddr : Nat
  depth : Nat
  tcfg : BitVec 64
  keep : Bool
  hold : Bool
  flag : BitVec 5
  hdr : Bool
  xa : Nat
  xb : Nat
  bad : Bool
  deriving DecidableEq, Repr

/-- An operand stream of an order in the scratchpad of one core (R57): its first granule, its rate of 16 num / den granule
cycles, its granules, those read so far with their value, and which of them were uncorrectable (R59). -/
structure Strm where
  core : Nat
  gran : Nat
  num : Nat
  den : Nat
  total : Nat
  n : Nat
  val : Nat
  bads : List Nat
  deriving DecidableEq, Repr

/-- An order with its presentation (R43, R44, R50, R51): first cycle S, presentation length P, the bank it uses with the anchor of its
products and whether its first adds replace the contents, and its streams. -/
structure Pres where
  o : Order
  start : Nat
  len : Nat
  bank : Nat
  anchor : Int
  clear : Bool
  a : List Strm
  b : List Strm
  deriving DecidableEq, Repr

/-- A drain of one core (R45, R46): its order's issue cycle, its destination, the cycle of its first write, the bytes of one value, the
values rounded so far by cell, the piece of a row (at most 32 bytes) to be written next, and its tile flag. -/
structure Drain where
  id : Nat
  dest : Nat
  at0 : Nat
  width : Nat
  codes : List (Nat × Nat)
  next : Nat
  flag : BitVec 5
  deriving DecidableEq, Repr

/-- One accumulator bank of one cell: the 152-bit value and its flags (R64, R65, R373). -/
structure Cell where
  val : BitVec 152
  nan : Bool
  pinf : Bool
  ninf : Bool
  ovf : Bool
  psat : Bool
  deriving DecidableEq, Repr

/-- The grid of a core (R43, R50): the pending order, the orders that present or whose operands still flow through the cells
(oldest first), the drains under way, the bank of the last order, whether the next order is the launch's first, the banks (sparse,
keyed by 2 (8 i + j) + bank) with an anchor each, and the cycles by which drains were deferred (R58). -/
structure Grid where
  pending : Option Pres
  flow : List Pres
  drains : List Drain
  bank : Nat
  first : Bool
  banks : List (Nat × Cell)
  anchor0 : Int
  anchor1 : Int
  shift : Nat
  deriving DecidableEq, Repr

/-- A waiting outside access of a scratchpad (R118, R120, R122, R161): its number, whether it is a request under way in the package, whether
the bed's own barrow makes it, its standing, its bytes with their mask, what it does, the bytes of it already done, the data read so
far, its combined status, and the value read by an open read-modify-write with the mark that a later write spoiled it. -/
structure Outside where
  id : Nat
  net : Bool
  brw : Bool
  who : Who
  off : Nat
  len : Nat
  write : Bool
  mask : BitVec 128
  data : BitVec 1024
  form : Form
  atom : Option Atom
  pos : Nat
  rdata : BitVec 1024
  status : Status
  opened : Option (BitVec 512)
  spoiled : Bool
  deriving DecidableEq, Repr

/-- A write granted to an outside master in the present cycle (R113): its first granule, its granules, its mask and data. -/
structure LateWrite where
  gran : Nat
  n : Nat
  mask : BitVec 64
  data : BitVec 512
  deriving DecidableEq, Repr

/-- The bundle of the present cycle: the active cycle in which it issued, its index, its 256 bits, the loops open before it, and
the slots that have issued. -/
structure Opened where
  cyc : Nat
  idx : BitVec 32
  bits : BitVec 256
  loops : List Loop
  used : List Slot
  deriving DecidableEq, Repr

/-- A core: its architectural state (R103, R369) and what is in flight in it. `passed` marks that the SYNC at its stream position has been
released, `haltAt` is the active cycle of its HALT, `rises` are the rises of its tile flags in the present cycle and `took` the flag that a
WAITF takes in it (R94). `lastOut` is the outside master that each bank granted last (R111), `granted` the banks granted to one in the
present cycle, and `late` what those grants write at its end (R113). -/
structure Core where
  active : Bool
  lbed : Nat
  part : Nat
  x : Vector (BitVec 64) 32
  v : Vector (BitVec 512) 32
  m : Vector (BitVec 64) 8
  flags : Vector (BitVec 6) 32
  phase : BitVec 8
  step : BitVec 32
  pc : BitVec 32
  loops : List Loop
  wait : Wait
  passed : Bool
  rises : List (BitVec 5)
  took : Option (BitVec 5)
  skip : Nat
  halted : Bool
  haltAt : Nat
  finished : Bool
  stopped : Bool
  opened : Option Opened
  vmBusy : Nat
  lmBusy : Nat
  infl : List Infl
  accs : List Acc
  grid : Grid
  ib : List (Nat × BitVec 256)
  ibWanted : List Nat
  stream : Nat
  streamVA : Nat
  streamLen : Nat
  outside : List Outside
  lastOut : List (Nat × Nat)
  granted : List (Nat × Nat)
  late : List LateWrite
  deriving DecidableEq, Repr

/-- A line held in a bed cache structure: its physical line number PA[60:7], its SHARED mark and its bytes. -/
structure Line where
  line : Nat
  shared : Bool
  data : BitVec 1024
  deriving DecidableEq, Repr

/-- A set of a tree pseudo-LRU array: the tree bits and the valid ways (R129). -/
structure CacheSet where
  plru : Nat
  ways : List (Nat × Line)
  deriving DecidableEq, Repr

/-- A merging-buffer entry, oldest first in the buffer (R132, R133): its destination (a stack, or 24 + the package of a
remote line), its last write cycle, whether its write has been sent, and the partition that wrote it. -/
structure Merge where
  id : Nat
  line : Nat
  mask : BitVec 128
  data : BitVec 1024
  dest : Nat
  never : Bool
  touched : Nat
  sent : Bool
  part : PartId
  owners : List Nat
  deriving DecidableEq, Repr

/-- A fill in flight of a bed cache (R127, R128, R130): its request, its policy, whether it is a prefetch, whether it is
still to be installed, the requesters waiting on it, and the bytes that the bed has written to the line since. -/
structure Fill where
  id : Nat
  line : Nat
  pol : Policy
  prefetch : Bool
  install : Bool
  waiters : List Nat
  pmask : BitVec 128
  pdata : BitVec 1024
  deriving DecidableEq, Repr

/-- The fallback state of a move (R222 to R225): none or undecided, reported late, decided primary, decided fallback. -/
inductive FbState where
  | open | late | primary | fallback
  deriving DecidableEq, Repr

/-- A move record as read from memory (R211), after its clamps. -/
structure MoveRec where
  kind : Nat
  waitPrev : Bool
  noAlloc : Bool
  raise : Bool
  hasDue : Bool
  hasFb : Bool
  attr : BitVec 12
  xpose : Nat
  place : Nat
  flag : BitVec 5
  core : Nat
  count : Nat
  src : Nat
  dst : Nat
  len : Nat
  srcStride : Nat
  due : Nat
  decide : Nat
  fbGroup : Nat
  key : BitVec 16
  fbSrc : Nat
  operand : BitVec 64
  lines : Nat
  tileBand : Nat
  tileSlot : Nat
  deriving DecidableEq, Repr

/-- Progress of a move: queued, issuing its requests, every request of it issued, completed, or failed with a status (R210, R214, R228). -/
inductive MoveState where
  | queued | issuing | written | done
  | failed (status : Status)
  deriving DecidableEq, Repr

/-- What an access of a move does: a read into the move's bytes, a write from them, the atomics of a line of elements (R215), or a line
read ahead (R130). -/
inductive Act where
  | read | write | atom | ahead
  deriving DecidableEq, Repr

/-- A range that a move is still to access, piece by piece in ascending order: where it begins, by virtual (`virt`) or physical address, its
bytes, and the place of its first byte among the bytes of the move. -/
structure Seg where
  act : Act
  virt : Bool
  at0 : Nat
  n : Nat
  off : Nat
  deriving DecidableEq, Repr

/-- An access of a move under way: its request, whether it is a line request (R219) and which line of the move it counts for, what it does
with which bytes of the move and of its request, the tier it reads, and whether its data are discarded (R223). -/
structure Fly where
  id : Nat
  line : Bool
  key : Nat
  act : Act
  off : Nat
  lo : Nat
  n : Nat
  tier : Nat
  dead : Bool
  deriving DecidableEq, Repr

/-- A move of a running program: its record and state, the stage of its kind that it has reached (0 its source is read), the ranges still to
access, its accesses under way, its bytes, the physical address that its stage works on, its tier (R197) once a source line gave it, its
fallback state, the first request number that its flag does not wait for (R151), that its first write does not wait for (R160), its storage
tag with the first request number of its generation, the cores whose flag it raises, its number as a requester, whether an address of it was
remote (R145), whether its acquire is complete, whether an uncorrectable line failed it, and its first failure. -/
structure Move where
  idx : Nat
  r : MoveRec
  st : MoveState
  stage : Nat
  todo : List Seg
  fly : List Fly
  buf : Nat
  base : Nat
  tier : Nat
  tiered : Bool
  fb : FbState
  waits : Option Nat
  rel : Option Nat
  tag : Option (Nat × Nat)
  cores : List Nat
  xid : Nat
  far : Bool
  acquired : Bool
  ue : Bool
  bad : Option Status
  deriving DecidableEq, Repr

/-- A barrow program, armed or running (R209, R210): its table address and index, its partition, the step of its KICK, the
storage queue of its launch or descriptor, the MOVE descriptor that armed it if one did (R218), the VA of its records, the
moves read so far, the cycle and core of its KICK, its number as a requester, whether it has been told to stop, and the status with which it
failed. -/
structure Prog where
  id : Nat
  at0 : Nat
  core : Nat
  table : Nat
  prog : Nat
  part : PartId
  step : BitVec 32
  stepTick : Nat
  storeQ : Option Nat
  desc : Option (Nat × Nat)
  base : Nat
  count : Nat
  moves : List Move
  stop : Bool
  failed : Option Status
  deriving DecidableEq, Repr

/-- A cached translation (R237): context, virtual page number above the leaf size, leaf level (0 4 TiB, 1 512 MiB,
2 64 KiB), physical base, permissions, policy. -/
structure Tlb where
  ctx : Nat
  vpn : Nat
  level : Nat
  pa : Nat
  r : Bool
  w : Bool
  atom : Bool
  pol : Policy
  deriving DecidableEq, Repr

/-- A set of translations: tree bits and valid ways. -/
structure TlbSet where
  plru : Nat
  ways : List (Nat × Tlb)
  deriving DecidableEq, Repr

/-- A bed: its cycle counts, the launch placed on it, the bed cache with its side buffer, victim cache and merging buffer, the writes that
wait for it, whether its bundles may issue, the barrow, the micro-TLB, the region registers kept at the start of a launch (R367), and the
state of its save (R371), with the merging-buffer entries that a BEDC_CMD drains. `lineAt` is one more than the cycle in which the bed
sequencer last delivered a line of bundles (R100). `act` counts active CLK_ARITH cycles (R49, R77), `cyc` the cycles of the launch (R354).
-/
structure Bed where
  act : Nat
  cyc : Nat
  running : Bool
  go : Bool
  lbed : Nat
  part : Nat
  espalier : Bool
  reported : Bool
  stopping : Bool
  phase : BitVec 8
  cache : List (Nat × CacheSet)
  side : List Line
  victim : List Line
  merge : List Merge
  mergeWait : List BedWrite
  fills : List Fill
  armed : List Prog
  progs : List Prog
  turn : Option Nat
  utlb : TlbSet
  kept : List (Nat × BitVec 64)
  saving : Bool
  saved : Bool
  draining : List Nat
  lineAt : Nat
  deriving DecidableEq, Repr

/-- What orders a request at its source (R155): a release before it, an acquire before it, and whether it is itself an acquire. -/
structure Gate where
  rel : Bool
  acq : Bool
  aq : Bool
  deriving DecidableEq, Repr

/-- Progress of a request: held at its source (R155), waiting for its translation (R231), on its way, waiting at its controller (R186),
waiting for a snoop (R332), queued in its pseudo-channel, queued at a scratchpad (R120), waiting in its bed's cache (R127), or answered. -/
inductive ReqState where
  | held | walking | sent | waiting | snooping | queued | banked | cached | answered
  deriving DecidableEq, Repr

/-- A request to stacked DRAM under way (R142, R148): source, standing, local physical address, length within one line,
what it does, its step and order key (R165), its state, its status, the data it returns, the tick it was admitted, its hold marks (R221),
the number by which a sender outside the package knows it, whether nobody waits for its answer any more, the sequence number that its source
gave it, the dies of its route with both ends (none for one that has not left its die's unit), and whether a copy of it, sent again on a new
route, is on its way to where it has already arrived (R14 to R17), and what orders it at its source. -/
structure Req where
  id : Nat
  src : Src
  who : Who
  pkg : Nat
  pa : Nat
  len : Nat
  write : Bool
  data : BitVec 1024
  mask : BitVec 128
  atom : Option Atom
  step : BitVec 32
  key : BitVec 16
  st : ReqState
  status : Status
  rdata : BitVec 1024
  tick : Nat
  regMark : Bool
  oaddMark : Bool
  linkMark : Bool
  ext : Option Nat
  orphan : Bool
  seq : Nat
  route : List Nat
  again : Bool
  gate : Gate
  deriving DecidableEq, Repr

/-- A floating-point add held in an ordered-add buffer (R165): its stack byte address, size in bytes, operand, partition,
step, key, and source for equal keys. -/
structure OAdd where
  id : Nat
  loc : Nat
  pa : Nat
  bytes : Nat
  data : BitVec 32
  part : PartId
  step : BitVec 32
  key : BitVec 16
  pkg : Nat
  slot : Nat
  bed : Nat
  deriving DecidableEq, Repr

/-- A stack and its controller: the ordered-add buffer, open rows by bank, the snoop-filter entries oldest fill first (R332), token
fractions of its regulators with EN and BORROW as they act in the present period (R185, R187), tokens admitted in the present period, the
recently corrected granules with their counts (R394), write-backs queued (R391), the position of patrol (R189), and the thermal cap (R362).
-/
structure Stack where
  oadd : List OAdd
  rows : List (Nat × Nat)
  snoop : List (Nat × Bool)
  frac : List (Nat × Nat)
  regOn : List (Nat × Nat)
  used : Nat
  recent : List (Nat × Nat)
  weakAt : List (Nat × Nat)
  writeback : List Nat
  patrolAt : Nat
  hotCap : Bool
  deriving DecidableEq, Repr

/-- A non-leaf entry of the walk cache (R237): context, level (1 or 2), the VA bits that select it, and the table it names. -/
structure WalkEnt where
  ctx : Nat
  level : Nat
  vpn : Nat
  next : Nat
  deriving DecidableEq, Repr

/-- What a walk finds (R234): a leaf, a fault with its cause, or a table that cannot be read, with the status
that this gives. -/
inductive WalkRes where
  | leaf (t : Tlb)
  | fault (cause : Nat)
  | lost (st : Status)
  deriving DecidableEq, Repr

/-- One that waits on a translation: who asks, the request's number, its access, its step and its address
(R246, R247), whether it is answered with a response of its own, and whether a failure of it opens no record (R235). -/
structure XWait where
  who : Asker
  id : Nat
  r : Bool
  w : Bool
  a : Bool
  step : BitVec 32
  va : Nat
  ext : Bool
  quiet : Bool
  deriving DecidableEq, Repr

/-- Where a walk is (R234, R237): waiting for one of the 64 to end, reading an entry by a request of the IOMMU, or at its end. -/
inductive WalkAt where
  | queued
  | read (req : Nat)
  | ended (r : WalkRes)
  deriving DecidableEq, Repr

/-- A walk (R237, R239): its context and virtual address, the requesters that share it, where it is, the level of the entry that it reads,
the non-leaf entries passed, and whether an invalidation has overtaken it (R244). -/
structure Walk where
  id : Nat
  ctx : Nat
  va : Nat
  waiters : List XWait
  now : WalkAt
  level : Nat
  path : List WalkEnt
  stale : Bool
  deriving DecidableEq, Repr

/-- A fault that waits for one of the 256 records to close (R246). -/
structure FaultWait where
  ctx : Nat
  cause : Nat
  w : XWait
  deriving DecidableEq, Repr

/-- A translation that failed, for its requester to take: who asked, the request's number, and the status. -/
structure XAns where
  who : Asker
  id : Nat
  st : Status
  deriving DecidableEq, Repr

/-- An open fault record (R246, R247): slot and generation, context and address of the first fault, its cause, the requesters waiting still,
the accesses joined, the epoch and time of opening, the fault-queue entry once it is written, every requester counted with the first first,
and the step of the first. -/
structure FaultRec where
  slot : Nat
  gen : Nat
  ctx : Nat
  va : Nat
  cause : Nat
  waiters : List XWait
  access : Nat
  epoch : BitVec 32
  tick : Nat
  entry : Option Nat
  counted : List Asker
  step : BitVec 32
  deriving DecidableEq, Repr

/-- An XINVAL or a context disable under way (R240 to R244): its context (none for ALL), the epoch it brings, the first request
number of the new generation, the receivers still to report (beds by number, 4800 the command front end, 4801 the guest
bridge), and the write of its epoch word once it has been sent. -/
structure XInv where
  id : Nat
  ctx : Option Nat
  epoch : Option (BitVec 32)
  floor : Nat
  waiting : List Nat
  wr : Option Nat
  deriving DecidableEq, Repr

/-- An AGREE or READY report held for a launch: the package it came from, the step it names, its kind and its values
(R310, R313). -/
structure Report where
  pkg : Nat
  step : Nat
  kind : Nat
  a : Nat
  b : Nat
  deriving DecidableEq, Repr

/-- A fallback set whose decision tick has passed (R222, R223): its step with the tick on which that began, its group and DECIDE, the beds
of this package that reported late, and the decision once it is agreed. -/
structure FbSet where
  step : Nat
  stepTick : Nat
  group : Nat
  decide : Nat
  lateBeds : Nat
  outcome : Option Bool
  deriving DecidableEq, Repr

/-- The launch of a partition (R265 to R268, R310 to R313): the descriptor that started it, the image and its tables, the
placement of logical beds, the step and its start tick, the grove it joined with its span and reports, the statuses met so
far with the bed of the first failure, whether it has been told to stop or rolls back, the tick P to which the step has slipped and
the tick on which it was ready (R313), the slips of the step, the fallbacks
decided and dropped, the tick of its READY, whether it resumes, the steps of the points that it holds, each earlier
step with the ticks on which it began and ended, and whether it has met a divergence (R314). The sets decided are those of every step. -/
structure Launch where
  ring : Nat
  idx : Nat
  image : Nat
  digest : BitVec 512
  beds : List (Nat × Nat)
  syncs : List (Nat × Nat × Bool)
  phases : List (Nat × Nat)
  streams : Nat
  streamTable : Nat
  barrowTable : Nat
  storeQ : Option Nat
  fbLog : Nat
  fbCap : Nat
  fbCount : Nat
  replayLog : Nat
  mode : Nat
  espalier : Bool
  grove : Bool
  epoch : BitVec 64
  locked : Bool
  span : List Nat
  reports : List Report
  step : Nat
  stepTick : Nat
  nextTick : Option Nat
  readyTick : Option Nat
  started : Bool
  statuses : List Status
  detail : Nat
  stop : Bool
  stopSent : Bool
  rollback : Bool
  slips : Nat
  short : Bool
  fbDropped : Nat
  decided : List FbSet
  readyAt : Option Nat
  resumed : Bool
  holds : List Nat
  past : List (Nat × Nat × Nat)
  diverged : Bool
  deriving DecidableEq, Repr

/-- What a partition is doing between launches (R374, R376, R377). -/
inductive Hold where
  | none
  | quiesce
  | rolledBack
  | retained
  | rolling
  deriving DecidableEq, Repr

/-- A write of the management controller to the fallback log of a partition (R226): its virtual address, its bytes and their value. -/
structure LogWrite where
  part : Nat
  va : Nat
  n : Nat
  value : Nat
  deriving DecidableEq, Repr

/-- A descriptor waiting on a partition: its ring and its index. -/
structure DescRef where
  ring : Nat
  idx : Nat
  deriving DecidableEq, Repr

/-- Progress of a descriptor (R263, R272): held, waiting for its partition, started, committed to a status with its effects still to
be performed, or done with its status, its record still to be written. -/
inductive DescState where
  | held | waiting | started
  | committed (st : Status)
  | done (st : Status)
  deriving DecidableEq, Repr

/-- A descriptor in flight (R262, R263): its index, its bytes, the status of a read that failed (R264), its progress, the fields of
its record, the tick of its next poll, its number as a requester, the descriptor whose record
must be performed before its own (R275), the cycle in which it completed, and whether its record is being written. -/
structure Desc where
  idx : Nat
  bytes : BitVec 512
  unread : Option Status
  st : DescState
  detail : Nat
  info : Nat
  pollAt : Nat
  xid : Nat
  after : Option (Nat × Nat)
  doneAt : Nat
  recording : Bool
  deriving DecidableEq, Repr

/-- A report that commits a descriptor, on its way to the ring's arbiter (R272), with the cycle of its arrival. -/
structure RingReport where
  idx : Nat
  status : Status
  detail : Nat
  info : Nat
  cyc : Nat
  deriving DecidableEq, Repr

/-- An abort on its way to the arbiter of its target's ring: the ring and index of the ABORT, the target's index, the cycle of its
arrival. -/
structure RingAbort where
  ring : Nat
  idx : Nat
  seq : Nat
  cyc : Nat
  deriving DecidableEq, Repr

/-- A submission ring (R254, R272): descriptors in flight in order of fetch, and the events at its arbiter. -/
structure Ring where
  descs : List Desc
  reports : List RingReport
  aborts : List RingAbort
  deriving DecidableEq, Repr

/-- A partition (R26, R266, R367 to R378): its launch, the LAUNCHes and other descriptors waiting for it in fetch order, its
hold, the launch it resumes, the committed point (slot 0 A, 1 B, and step), the step that each slot holds, the
point being saved with the tick at which its save began, whether that save failed, FB_COUNT of the point, the DORMANT
that writes an image, whether every bed here has ended the save of the
point, and the WAKE that completes with the next release. -/
structure Part where
  launch : Option Launch
  queue : List DescRef
  waiting : List DescRef
  hold : Hold
  resume : Option Launch
  committed : Option (Nat × Nat)
  slotSteps : List (Nat × Nat)
  saving : Option Nat
  saveAt : Nat
  saveBad : Bool
  pointFb : Nat
  imaging : Option DescRef
  saveOver : Bool
  woken : Option DescRef
  deriving DecidableEq, Repr

/-- A register write held on the shelf (R276). -/
structure ShelfWrite where
  addr : Nat
  value : BitVec 64
  mask : BitVec 64
  deriving DecidableEq, Repr

/-- A direct write to a register of a committed shelf entry, held back (R278). -/
structure HeldWrite where
  reg : Reg
  unit : Nat
  idx : Nat
  value : BitVec 64
  mask : BitVec 64
  deriving DecidableEq, Repr

/-- A shelf entry (R276, R278): its writes in list order, the CONFIG_COMMIT that it waits for (ring, index, partition, target step),
the participants that have reported, each with the list index of a write refused and the tick of its report, and whether its vote has
closed with the entry to be applied at the next tick boundary. -/
structure Shelf where
  writes : List ShelfWrite
  commit : Option (Nat × Nat × Nat × Nat)
  reports : List (Nat × Option Nat × Nat)
  closed : Bool
  deriving DecidableEq, Repr

/-- An error-log entry (R401). -/
structure LogEntry where
  seq : Nat
  tick : Nat
  kind : Nat
  site : Nat
  slot : Nat
  part : Nat
  unit : Nat
  syndrome : Nat
  addr : Nat
  status : Nat
  nibble : Nat
  count : Nat
  deriving DecidableEq, Repr

/-- A change of operating point ordered or under way (R350): the plot, the point, its stage (0 ordered, 1 rails rising, 2 gliding in its
fallow tick, 3 rails falling) and the tick at which the stage ends. -/
structure Retune where
  plot : Nat
  opp : Nat
  stage : Nat
  ready : Nat
  deriving DecidableEq, Repr

/-- A response returned to a requester: the request's id, its status and its data. -/
structure Resp where
  id : Nat
  status : Status
  data : BitVec 1024
  deriving DecidableEq, Repr

/-- The identity record in use (R36, R37): its signed bytes and their signature, and in the signed bytes the product code, the serial, and
KIND and REVISION of the die entries of slots 0 to 15 and stacks 0 to 23. -/
structure Ident where
  body : BitVec 5376
  sig : BitVec 22560
  product : BitVec 64
  serial : BitVec 128
  dies : List (Nat × Nat)
  deriving DecidableEq, Repr

/-- The sending side of end-to-end numbering toward one package and channel (R299): the next number, the messages held with their
request, those that wait for room, the tick of the last send or acknowledgement, and whether the routes have changed since. -/
structure E2eTx where
  dst : Nat
  chan : Nat
  next : Nat
  held : List (Nat × Nat)
  waiting : List Nat
  since : Nat
  due : Bool
  deriving DecidableEq, Repr

/-- The receiving side from one package and channel: the next number expected and the messages not yet acknowledged. -/
structure E2eRx where
  src : Nat
  chan : Nat
  expect : Nat
  owed : Nat
  deriving DecidableEq, Repr

/-- A Halene port or the end of a UCIe link (R290 to R294, R323, R324): the next sequence number expected, whether flits are discarded
until a replay, the last CONTROL flit used, the last number acknowledged, whether a NAK is owed, its credit, the millisecond of its
last replay with the replays in it, milliseconds in a row with too many, the flit sent again last with the times it was sent, and
the ticks of its ERRORS. -/
structure Port where
  rxSeq : Nat
  discarding : Bool
  lastCtl : Option Nat
  acked : Nat
  nak : Bool
  credit : Nat
  ms : Nat
  replays : Nat
  badMs : Nat
  again : Option (Nat × Nat)
  errorsAt : List Nat
  deriving DecidableEq, Repr

/-- A card as last seen, with the tick and whether its package is known to the grove. -/
structure SeenCard where
  card : Card
  tick : Nat
  port : Nat
  deriving DecidableEq, Repr

/-- What an ATOMIC diverted by an older I/O die is or holds (R328): a message that arrived, or request `id` that leaves toward a package by
a channel, with the mark of an atomic. -/
inductive Diverted where
  | come (m : Msg)
  | go (dst chan id : Nat) (atom : Bool)
  deriving DecidableEq, Repr

/-- A READY with the tick of its arrival, and the members when the first READY of its digest was sent. -/
structure ReadyAt where
  r : ReadyF
  tick : Nat
  span : List Nat
  deriving DecidableEq, Repr

/-- The grove side of the package (R302 to R314): cards seen, the tick of the newest card, the charter in force and the one to come, the
tick of entry into locked mode, whether leaving it was asked, the counter of its messages, the copies already seen, READY messages, the
residual, its measurements above a tick, the tick of joining, the member's features, end-to-end numbering, the control messages sent, the
messages held for a diverted atomic (R328), and the bypass pairs that switch, with the mark of those that close. -/
structure Grove where
  cards : List SeenCard
  newAt : Nat
  charter : Option Charter
  next : Option Charter
  lockAt : Option Nat
  unlock : Bool
  counter : Nat
  seen : List (Nat × Nat)
  readys : List ReadyAt
  residual : Int
  residualBad : Nat
  joinedAt : Nat
  tx : List E2eTx
  rx : List E2eRx
  floods : List Flood
  diverted : List Diverted
  switching : List (Nat × Bool)
  deriving DecidableEq, Repr

/-- The lands that the package watches and drives (R406, R430, R436, R437): VMAIN and VAUX12 present, PKG_RESET_N asserted, the hold after
a trip, THERMTRIP_N driven low, PE0_PERST_N and PE1_PERST_N low, and the I3C_ADDR straps. -/
structure Pins where
  vmain : Bool
  aux : Bool
  resetLow : Bool
  tripHold : Bool
  thermTrip : Bool
  perst0 : Bool
  perst1 : Bool
  strap : BitVec 2
  deriving DecidableEq, Repr

/-- The I3C target (R437, R438): its static and dynamic address, the response that waits to be read with its bytes, and the in-band
interrupts not yet acknowledged. -/
structure I3c where
  static : BitVec 7
  addr : Option (BitVec 7)
  resp : Option (Nat × Nat)
  ibi : List (BitVec 8)
  deriving DecidableEq, Repr

/-- A firmware slot of the flash (R412, R416): its bytes, each held as its complement so that an erased byte is not listed, its state (0
EMPTY, 1 STAGED, 2 GRAFT, 3 GOOD, 4 SPARE, 5 BAD) and the tries of a graft. -/
structure FwSlot where
  bytes : List Host.Cell
  st : Nat
  tries : Nat
  deriving DecidableEq, Repr

/-- The flash (R412, R413), which alone outlives the auxiliary supply: both slots, the newest valid settings record with the SEQ of the
next, the LIMIT of the index journals, the trip records (source and tick), and the identity record of each device (R36) from the first
time that it is read, and the lane repairs of each stack (R190) likewise. -/
structure Flash where
  a : FwSlot
  b : FwSlot
  settings : Option (BitVec 2048)
  seq : Nat
  limit : Nat
  trips : List (Nat × Nat)
  ids : Option (IdCopy × IdCopy)
  lanes : List (Nat × Nat)
  deriving DecidableEq, Repr

/-- The firmware image that runs (R414): its slot, VERSION, SEC_VERSION, SETTINGS_FMT and PAYLOAD_DIGEST. -/
structure Image where
  slot : Nat
  version : Nat
  secVersion : Nat
  fmt : Nat
  digest : BitVec 512
  deriving DecidableEq, Repr

/-- The management controller (R400, R408, R413 to R426): the image that runs, the settings in use, the SEC_ command that runs, the tick
at which the graft window ends, the tick of hand-off, whether every check has passed since stage 4, the ticks of its restarts, the
tick at which stage 1 began, what each die reported at its last training (R327), NEXT and LIMIT of the attestation indices, the fences
that wait for a restart to end (slot, cause, whether orderly), the reset that waits for every launch to end (reason and first boot
stage), the HOST_LOSS datagrams sent, the slot that stage 3 chose, a quote that is being written, and whether the loss
of the processor die has been reported. Ticks are of the package's own clock. -/
structure Mgt where
  image : Option Image
  chosen : Option Nat
  settings : BitVec 2048
  secOp : Nat
  graftEnd : Option Nat
  handoff : Option Nat
  sound : Bool
  restarts : List Nat
  bootTick : Nat
  feats : List (Nat × BitVec 64)
  next : Nat
  limit : Nat
  fences : List (Nat × Nat × Bool)
  resetTo : Option (Nat × Nat)
  mail : List LogEntry
  quote : Option (BitVec 83240)
  lossSeen : Bool
  deriving DecidableEq, Repr

/-- The test access port (R446 to R450): the instruction of each die other than IDCODE, the cells of each boundary register, and whether
dies leave test when the scan under way has passed Update. -/
structure Tap where
  ir : List (Nat × BitVec 8)
  cells : List (Nat × BitVec 64)
  leaving : Bool
  deriving DecidableEq, Repr

/-- The guest site (R336 to R339): the descriptor read, and whether its rail is raised. -/
structure Guest where
  desc : BitVec 2048
  rail : Bool
  deriving DecidableEq, Repr

/-- An entry of the learning table (R352): its partition, phase and point, mW per running bed, intervals that updated it, and μJ. -/
structure Learn where
  part : Nat
  phase : Nat
  opp : Nat
  mw : Nat
  samples : Nat
  uj : Nat
  deriving DecidableEq, Repr

/-- The power loop (R351 to R364): the means of the last 1,000 intervals in mW, newest first, intervals in a row above SUSTAINED_W, the
learning table, learned idle draws (8 × plot + point, in mW), the SUSTAINED_W in force, the one that binds 1 s windows with those lowered
that are to bind (watts, intervals left), intervals missed and completed in a row, the partitions to be paused at the next tick boundary,
those that resume with the tick on which issue restarts, the last points of paused ones, droop by bed group (stretch in halves of a period,
cycles above the threshold), the die slots that throttle and the steps by which each plot's point is lowered, the percentage left to every
budget, budget messages (slot, watts, highest point), the slices of each plot's limiter in mW, newest first, and the cycles that running
beds have taken in the interval, by plot, partition and phase. -/
structure Power where
  means : List Nat
  above : Nat
  learn : List Learn
  idle : List (Nat × Nat)
  cap : Nat
  bound : Nat
  lowered : List (Nat × Nat)
  missed : Nat
  good : Nat
  pausing : List Nat
  resuming : List (Nat × Nat)
  points : List (Nat × Nat)
  droop : List (Nat × Nat × Nat)
  hot : List Nat
  steps : List (Nat × Nat)
  percent : Nat
  budgets : List (Nat × Nat × Nat)
  windows : List (Nat × List Nat)
  ran : List (Nat × Nat)
  deriving DecidableEq, Repr

/-- The state of the package: the commands that wait, the clock and the free-value counter, the responses returned (newest first),
registers, memory and scratchpads with the parity patterns of their bad granules, the units, requests under way, the error log, partitions,
rings and shelf, translation, and the units of the later chapters. -/
structure State where
  pending : List Instr
  cyc : Nat
  free : Nat
  nextId : Nat
  nextSeq : Nat
  resp : List Resp
  regs : List (Nat × BitVec 64)
  mem : List Host.Cell
  spad : List Host.Cell
  memErr : List (Nat × BitVec 144)
  spadErr : List (Nat × BitVec 144)
  cores : List (Nat × Core)
  beds : List (Nat × Bed)
  stks : List (Nat × Stack)
  net : List Req
  routes : List (Nat × List Nat)
  log : List LogEntry
  logSeq : Nat
  levels : List (Nat × Nat)
  flashErr : List LogEntry
  heldCe : List (Nat × Nat × Nat × Nat × Nat × Nat)
  msis : List (Nat × Nat × Nat)
  timeOff : Int
  parts : List (Nat × Part)
  rings : List (Nat × Ring)
  served : Nat
  shelf : List (Nat × Shelf)
  heldWrites : List HeldWrite
  retunes : List Retune
  regClear : Option Nat
  regBusy : Nat
  wakes : List (Nat × Nat)
  retains : List Nat
  ptc : List (Nat × TlbSet)
  iotlb : List (Nat × TlbSet)
  walkc : List WalkEnt
  walks : List Walk
  faults : List FaultRec
  faultGens : List (Nat × Nat)
  faultWait : List FaultWait
  xans : List XAns
  xinvs : List XInv
  iofences : List (Nat × List Nat)
  logq : List LogWrite
  ident : Option Ident
  ports : List (Nat × Port)
  dlinks : List (Nat × Port)
  grove : Grove
  pins : Pins
  i3c : I3c
  flash : Flash
  mgt : Mgt
  tap : Tap
  guest : Guest
  power : Power
  deriving DecidableEq, Repr

/-- The grid at a launch (R50, R52). -/
def Grid.reset : Grid := ⟨none, [], [], 0, true, [], 0, 0, 0⟩

/-- A core at rest: every register, flag and counter zero (R103; at package reset DESIGN CHOICE, log entry 1). -/
def Core.reset : Core :=
  { active := false, lbed := 0, part := 0, x := .replicate 32 0, v := .replicate 32 0, m := .replicate 8 0,
    flags := .replicate 32 0, phase := 0, step := 0, pc := 0, loops := [], wait := .none, passed := false, rises := [], took := none, skip := 0,
    halted := false, haltAt := 0,
    finished := false, stopped := false, opened := none, vmBusy := 0, lmBusy := 0, infl := [], accs := [],
    grid := Grid.reset, ib := [], ibWanted := [], stream := 0, streamVA := 0, streamLen := 0, outside := [], lastOut := [],
    granted := [], late := [] }

/-- A bed at rest. -/
def Bed.reset : Bed :=
  { act := 0, cyc := 0, running := false, go := false, lbed := 0, part := 0, espalier := false, reported := false, stopping := false,
    phase := 0, cache := [], side := [], victim := [], merge := [], mergeWait := [], fills := [], armed := [], progs := [], turn := none,
    utlb := ⟨0, []⟩, kept := [], saving := false, saved := false, draining := [], lineAt := 0 }

/-- A port before its first flit. -/
def Port.reset : Port :=
  { rxSeq := 0, discarding := false, lastCtl := none, acked := 4095, nak := false, credit := 512, ms := 0, replays := 0, badMs := 0,
    again := none, errorsAt := [] }

/-- The grove side at power-on (R309): no cards, no charter. -/
def Grove.reset : Grove :=
  { cards := [], newAt := 0, charter := none, next := none, lockAt := none, unlock := false, counter := 0,
    seen := [], readys := [], residual := 0, residualBad := 0, joinedAt := 0, tx := [], rx := [], floods := [], diverted := [],
    switching := [] }

/-- A free shelf entry. -/
def Shelf.reset : Shelf := ⟨[], none, [], false⟩

/-- A ring with nothing in flight. -/
def Ring.reset : Ring := ⟨[], [], []⟩

/-- A stack with nothing queued. -/
def Stack.reset : Stack :=
  { oadd := [], rows := [], snoop := [], frac := [], regOn := [], used := 0, recent := [], weakAt := [], writeback := [], patrolAt := 0,
    hotCap := false }

/-- An accumulator bank holding zero with no flag (R52). -/
def Cell.zero : Cell := ⟨0, false, false, false, false, false⟩

/-- A partition with nothing to run. -/
def Part.reset : Part :=
  { launch := none, queue := [], waiting := [], hold := .none, resume := none, committed := none, slotSteps := [], saving := none,
    saveAt := 0, saveBad := false, pointFb := 0, imaging := none, saveOver := false, woken := none }

/-- Power control before its first interval: SUSTAINED_W as it resets (R365). -/
def Power.reset : Power :=
  { means := [], above := 0, learn := [], idle := [], cap := 6800, bound := 6800, lowered := [], missed := 0, good := 0, pausing := [], resuming := [],
    points := [], droop := [], hot := [], steps := [], percent := 100, budgets := [], windows := [], ran := [] }

/-- The management controller at the start of boot. -/
def Mgt.reset : Mgt :=
  { image := none, chosen := none, settings := 0, secOp := 0, graftEnd := none, handoff := none, sound := false, restarts := [], bootTick := 0, feats := [],
    next := 0, limit := 0, fences := [], resetTo := none, mail := [], quote := none, lossSeen := false }

/-- An empty slot. -/
def FwSlot.empty : FwSlot := ⟨[], 0, 0⟩

/-- Ticks of the package's own clock, which no step of grove time moves. -/
def State.ownTick (s : State) : Nat := s.cyc / 64

/-- The package right after its reset is released: boot at stage 1 from the auxiliary input, main and laser absent, memory without a
listed byte, the flash erased (DESIGN CHOICE, log entry 27: what the specification states of neither). -/
def State.reset : State :=
  { pending := [], cyc := 0, free := 0, nextId := 0, nextSeq := 0, resp := [], regs := [], mem := [], spad := [], memErr := [], spadErr := [],
    cores := [], beds := [], stks := [], net := [], routes := [], log := [], logSeq := 0, levels := [], flashErr := [], heldCe := [], msis := [],
    timeOff := 0, parts := [], rings := [], served := 1023, shelf := [], heldWrites := [], retunes := [], regClear := none, regBusy := 0, wakes := [], retains := [],
    ptc := [], iotlb := [], walkc := [], walks := [], faults := [], faultGens := [], faultWait := [], xans := [], xinvs := [], iofences := [],
    logq := [], ident := none, ports := [], dlinks := [],
    grove := Grove.reset,
    pins := { vmain := false, aux := true, resetLow := false, tripHold := false, thermTrip := false, perst0 := true, perst1 := true,
              strap := 0 },
    i3c := { static := 0x58, addr := none, resp := none, ibi := [] },
    flash := { a := FwSlot.empty, b := FwSlot.empty, settings := none, seq := 0, limit := 0, trips := [], ids := none, lanes := [] },
    mgt := Mgt.reset, tap := { ir := [], cells := [], leaving := false }, guest := { desc := 0, rail := false },
    power := Power.reset }

end Sys2Proof.Machine
end

