-- ==== Sys2Proof/Machine/Regs.lean ====
section
/-!
DEFINITION. Registers: one home for every register of the CSR window, with the one read, the one software write and the one
hardware update that every command uses (R5 to R11). A register is held as its difference from its reset value, so that the
sparse map lists no register at reset. An instance is the unit a block belongs to (a core, a bed, a stack, a port, a slot);
an index selects an element of a register array.
-/

namespace Sys2Proof.Machine

/-- The key of element `idx` of register `r` of instance `inst`. -/
def regKey (r : Reg) (inst idx : Nat) : Nat := (inst * 2048 + idx) * 256 + r.ctorIdx

/-- The KIND of a die slot (R34, R35): slot 15 is absent on the bridged part. -/
def slotKind (slot : Nat) : Nat :=
  if slot < 12 then 1 else if slot < 14 then 2 else if slot = 14 then 3 else 0

/-- THRESH of a site at reset (R389). -/
def threshReset (site : Nat) : Nat :=
  match site with
  | 0 => 16 | 1 => 16 | 2 => 16 | 3 => 1024 | 4 => 4096 | 5 => 4096 | 6 => 64 | _ => 4

/-- What a field resets to, where its table says 'per unit' (R35, R74, R107, R389). -/
def Fld.resetAt (f : Fld) (inst idx : Nat) : Nat :=
  if f = F.MGT_DIE_INFO_SLOT then inst
  else if f = F.MGT_DIE_INFO_KIND then slotKind inst
  else if f = F.MGT_DIE_INFO_STATE then (if inst = 15 then 3 else 4)
  else if f = F.GRID_MODE_CORE then inst % 64
  else if f = F.GRID_MODE_WEST_EDGE then (if inst % 8 = 0 then 1 else 0)
  else if f = F.GRID_MODE_NORTH_EDGE then (if inst % 64 / 8 = 0 then 1 else 0)
  else if f = F.GRID_MODE_LEADER then (if inst % 64 = 0 then 1 else 0)
  else if f = F.CORE_ID_CORE then inst % 64
  else if f = F.MGT_ERR_CE_CFG_THRESH then threshReset idx
  else if f = F.HAL_BYPASS_CLOSED then 15
  else if f = F.TAP_STATUS_STANDIN then 0xEFFF
  else f.reset

/-- The fields of a list put together at their reset values. -/
def packReset (fs : List Fld) (inst idx : Nat) : BitVec 64 :=
  match fs with
  | [] => 0
  | f :: t => BitVec.ofNat 64 (f.resetAt inst idx * 2 ^ f.lo) ||| packReset t inst idx

/-- The reset value of a register. -/
def Reg.resetVal (r : Reg) (inst idx : Nat) : BitVec 64 := packReset r.flds inst idx

/-- The value of a register. -/
def readReg (r : Reg) (inst idx : Nat) (s : State) : BitVec 64 :=
  sget 0 s.regs (regKey r inst idx) ^^^ r.resetVal inst idx

/-- The state with a register holding `v`. -/
def writeReg (r : Reg) (inst idx : Nat) (v : BitVec 64) (s : State) : State :=
  { s with regs := sput 0 s.regs (regKey r inst idx) (v ^^^ r.resetVal inst idx) }

/-- A field of a 64-bit value. -/
def Fld.of (f : Fld) (v : BitVec 64) : Nat := v.toNat / 2 ^ f.lo % 2 ^ f.w

/-- The bits of a field. -/
def Fld.bits (f : Fld) : BitVec 64 := BitVec.ofNat 64 ((2 ^ f.w - 1) * 2 ^ f.lo)

/-- A value with a field replaced. -/
def Fld.put (f : Fld) (v : BitVec 64) (x : Nat) : BitVec 64 :=
  (v &&& ~~~f.bits) ||| BitVec.ofNat 64 (x % 2 ^ f.w * 2 ^ f.lo)

/-- The value of a field. -/
def getF (f : Fld) (inst idx : Nat) (s : State) : Nat := f.of (readReg f.reg inst idx s)

/-- Whether a one-bit field is 1. -/
def bitF (f : Fld) (inst idx : Nat) (s : State) : Bool := decide (getF f inst idx s = 1)

/-- The state with a field set by hardware. -/
def setF (f : Fld) (inst idx v : Nat) (s : State) : State :=
  writeReg f.reg inst idx (f.put (readReg f.reg inst idx s) v) s

/-- A hardware event that sets a sticky bit. -/
def flagF (f : Fld) (inst idx : Nat) (s : State) : State := setF f inst idx 1 s

/-- A sticky bit set when `b` holds. -/
def flagIf (b : Bool) (f : Fld) (inst idx : Nat) (s : State) : State := if b then flagF f inst idx s else s

/-- A hardware event that counts `n` into a counter, which saturates at all ones. -/
def incF (f : Fld) (inst idx n : Nat) (s : State) : State :=
  setF f inst idx (min (getF f inst idx s + n) (2 ^ f.w - 1)) s

/-- A software write to one field of `old`: `new` are the written bits, `mask` those bits of the register that the access
writes (R7, R10). -/
def Fld.swWrite (f : Fld) (new mask old : BitVec 64) : BitVec 64 :=
  let o := f.of old
  let n := f.of ((new &&& mask) ||| (old &&& ~~~mask))
  if mask &&& f.bits = 0 then old
  else
    match f.acc with
    | .rw => f.put old (max f.mn (min f.mx n))
    | .w1c => f.put old (f.of (old &&& ~~~(new &&& mask)))
    | .w1s => f.put old (f.of (old ||| (new &&& mask)))
    | .ro | .rc | .wo => f.put old o

/-- A software write to the fields of a list. -/
def swWriteAll (fs : List Fld) (new mask old : BitVec 64) : BitVec 64 :=
  match fs with
  | [] => old
  | f :: t => swWriteAll t new mask (f.swWrite new mask old)

/-- A software write to a register that has no action of its own (R7): RW fields are set and clamped, W1C bits cleared,
W1S bits set; RO, RC, WO fields and reserved bits are left. -/
def swWriteReg (r : Reg) (inst idx : Nat) (new mask : BitVec 64) (s : State) : State :=
  writeReg r inst idx (swWriteAll r.flds new mask (readReg r inst idx s)) s

/-- The register's value with every RC field of a list at its reset value. -/
def clearRc (fs : List Fld) (inst idx : Nat) (v : BitVec 64) : BitVec 64 :=
  match fs with
  | [] => v
  | f :: t => clearRc t inst idx (if f.acc = .rc then f.put v (f.resetAt inst idx) else v)

/-- What a read of a register returns: WO fields read as 0 (R7). -/
def maskWo (fs : List Fld) (v : BitVec 64) : BitVec 64 :=
  match fs with
  | [] => v
  | f :: t => maskWo t (if f.acc = .wo then f.put v 0 else v)

/-- The state after a read of a register: its RC fields are cleared (R7). -/
def readClearReg (r : Reg) (inst idx : Nat) (s : State) : State :=
  writeReg r inst idx (clearRc r.flds inst idx (readReg r inst idx s)) s

/-- Cores, beds, bed groups and stacks by their package-wide number. -/
def State.core (s : State) (c : Nat) : Core := sget Core.reset s.cores c
/-- The state with core `c` replaced. -/
def State.putCore (s : State) (c : Nat) (k : Core) : State := { s with cores := sput Core.reset s.cores c k }
/-- The bed with number `b`. -/
def State.bed (s : State) (b : Nat) : Bed := sget Bed.reset s.beds b
/-- The state with bed `b` replaced. -/
def State.putBed (s : State) (b : Nat) (k : Bed) : State := { s with beds := sput Bed.reset s.beds b k }
/-- The stack with number `i`. -/
def State.stack (s : State) (i : Nat) : Stack := sget Stack.reset s.stks i
/-- The state with stack `i` replaced. -/
def State.putStack (s : State) (i : Nat) (k : Stack) : State := { s with stks := sput Stack.reset s.stks i k }
/-- The power state of a bed group, held in PWR_BG.STATE of its plot: 0 ON, 1 PAUSED, 2 RETENTION, 3 OFF, 4 WAKING (R123,
R355). -/
def State.bgPower (s : State) (g : Nat) : Nat := getF F.PWR_BG_STATE (g / 16) (g % 16) s
/-- The state with the power state of bed group `g` replaced. -/
def State.putBgPower (s : State) (g p : Nat) : State := setF F.PWR_BG_STATE (g / 16) (g % 16) p s

/-- The bed of a core, the bed group of a bed, the plot of a bed (R18). -/
def bedOf (c : Nat) : Nat := c / 64
/-- The package-wide bed group of a bed (R18). -/
def bgOf (b : Nat) : Nat := b / 25
/-- The plot of a bed (R18). -/
def plotOf (b : Nat) : Nat := b / 400
/-- The die slot STATE field is PRESENT (R35). -/
def slotPresent (slot : Nat) (s : State) : Bool := decide (getF F.MGT_DIE_INFO_STATE slot 0 s = 0)

/-- The partition that owns a bed group, if any (R29). -/
def bgOwner (g : Nat) (s : State) : Option Nat :=
  if bitF F.MGT_BG_OWNER_VALID 0 g s then some (getF F.MGT_BG_OWNER_PART 0 g s) else none

end Sys2Proof.Machine
end

