-- ==== Sys2Proof/Machine/Ops.lean ====
section
/-!
DEFINITION. The named operations every family uses: time, memories with their guard code, the error log and the counting of
corrections (R389 to R404), interrupts (R335), and the reports that end a launch (R267).
-/

namespace Sys2Proof

/-- The code of a status (R12). -/
def Status.code : Status → Nat
  | .ok => 0 | .completed => 1 | .tooLate => 2 | .dieAbsent => 3 | .dataLost => 4 | .pageFault => 5 | .featureMissing => 6
  | .cfgAbandoned => 7 | .deadlineFallback => 8 | .capUnattainable => 9 | .groveExcluded => 10 | .aborted => 11

/-- The precedence number of a status (R12): the lowest is reported. -/
def Status.prec : Status → Nat
  | .ok => 12 | .completed => 11 | .tooLate => 10 | .dieAbsent => 2 | .dataLost => 1 | .pageFault => 3 | .featureMissing => 4
  | .cfgAbandoned => 5 | .deadlineFallback => 9 | .capUnattainable => 8 | .groveExcluded => 6 | .aborted => 7

/-- The status reported where two apply (R12). -/
def Status.join (a b : Status) : Status := if b.prec < a.prec then b else a

/-- The status reported for a list of conditions, beside `d` (R12). -/
def Status.joinAll (d : Status) (l : List Status) : Status := l.foldl Status.join d

/-- Whether a launch that meets a status stops at once (R267). -/
def Status.stops : Status → Bool
  | .deadlineFallback | .capUnattainable | .completed | .ok | .tooLate | .cfgAbandoned => false
  | _ => true

end Sys2Proof

namespace Sys2Proof.Machine

/-! ## Time -/

/-- Grove time in ticks of 40 ns: 64 arithmetic cycles each (R5, R302). -/
def State.tick (s : State) : Nat := ((s.cyc / 64 : Nat) + s.timeOff).toNat

/-- A fresh undefined value, and the state that has used it. -/
def State.takeFree (s : State) : BitVec 128 × State := (Config.freeValue s.free, { s with free := s.free + 1 })

/-- A fresh request number. -/
def State.takeId (s : State) : Nat × State := (s.nextId, { s with nextId := s.nextId + 1 })

/-- The response to a request, the newest first. -/
def respond (id : Nat) (st : Status) (data : BitVec 1024) (s : State) : State :=
  { s with resp := ⟨id, st, data⟩ :: s.resp }

/-! ## Interrupts -/

/-- A source signals interrupt identity `iid` (R335): the bridge of the processor die writes the MSI, or PENDING is set. -/
def irq (iid : Nat) (s : State) : State :=
  if !slotPresent 14 s then s
  else if bitF F.D2D_IRQ_MAP_EN 0 iid s then
    let eiid := getF F.D2D_IRQ_MAP_EIID 0 iid s
    if eiid = 0 then s
    else
      incF F.D2D_IRQ_SENT_COUNT 0 0 1
        { s with msis := s.msis ++ [(min 95 (getF F.D2D_IRQ_MAP_HART 0 iid s), getF F.D2D_IRQ_MAP_FILE 0 iid s, eiid)] }
  else flagF F.D2D_IRQ_MAP_PENDING 0 iid s

/-- The event interrupt of D2D_EVENT_IRQ. -/
def eventIrq (s : State) : State :=
  if bitF F.D2D_EVENT_IRQ_IE 0 0 s then irq (getF F.D2D_EVENT_IRQ_IID 0 0 s) s else s

/-! ## The error log (R401, R402) -/

/-- What an event brings to the log. -/
structure Event where
  kind : Nat
  site : Nat
  slot : Nat
  part : Nat
  unit : Nat
  syndrome : Nat
  addr : Nat
  status : Nat
  nibble : Nat
  deriving DecidableEq, Repr

/-- Whether an event raises COUNT of an entry: the same kind, place and address within 1 ms (R402). -/
def LogEntry.matches (e : LogEntry) (v : Event) (tick : Nat) : Bool :=
  decide (e.kind = v.kind) && decide (e.site = v.site) && decide (e.slot = v.slot) && decide (e.unit = v.unit) &&
  decide (e.addr = v.addr) && decide (tick ≤ e.tick + 25000)

/-- The kinds that are also appended to the error record in the flash (R402). -/
def keptInFlash (kind : Nat) : Bool :=
  decide (kind = 3) || decide (kind = 7) || decide (kind = 9) || decide (kind = 10)

/-- A new entry in the log: the oldest of 256 is overwritten, unread ones with LOG_OVERFLOW set. -/
def logNew (v : Event) (s : State) : State :=
  let seq := s.logSeq + 1
  let e : LogEntry := ⟨seq, s.tick, v.kind, v.site, v.slot, v.part, v.unit, v.syndrome, v.addr, v.status, v.nibble, 1⟩
  let s1 := flagIf (decide (256 < seq) && decide (getF F.MGT_ERR_LOG_HEAD_SEQ 0 0 s < seq - 256))
    F.MGT_ERR_STATUS_LOG_OVERFLOW 0 0 s
  let s2 := setF F.MGT_ERR_LOG_TAIL_SEQ 0 0 seq
    { s1 with log := (e :: s1.log).take 256, logSeq := seq,
              flashErr := if keptInFlash v.kind then s1.flashErr ++ [e] else s1.flashErr }
  if bitF F.MGT_ERR_CTRL_IE 0 0 s2 then irq (getF F.MGT_ERR_CTRL_IID 0 0 s2) s2 else s2

/-- The package's own number (R19). -/
def ownPkg (s : State) : Nat := getF F.HAL_GROVE_STATUS_PKG 0 0 s

/-- An event reaches the log (R402); its address carries the package number (R401), and only a granule of a stack or of a cache
lies at local address 0. -/
def logEvent (v0 : Event) (s : State) : State :=
  let v := if v0.addr = 0 ∧ v0.site ≠ 1 ∧ v0.site ≠ 3 ∧ v0.site ≠ 6 then v0 else { v0 with addr := v0.addr + ownPkg s * 2 ^ 52 }
  match s.log with
  | e :: t => if e.matches v s.tick then { s with log := { e with count := min 65535 (e.count + 1) } :: t } else logNew v s
  | [] => logNew v s

/-! ## Corrections and uncorrectable errors (R391 to R396) -/

/-- Where an error is: its site, die slot, unit and address (R401). -/
structure ErrAt where
  site : Nat
  slot : Nat
  unit : Nat
  addr : Nat
  deriving DecidableEq, Repr

/-- The key of a unit's level. -/
def ErrAt.key (a : ErrAt) : Nat := (a.site * 64 + a.slot) * 65536 + a.unit

/-- A unit reports a correction (R392, R393): the total counts, the level rises, and at THRESH a CE_RATE entry is written
and the level returns to zero. -/
def ceNow (a : ErrAt) (synd nib : Nat) (s : State) : State :=
  let s1 := incF F.MGT_ERR_CE_TOTAL_COUNT 0 a.site 1 s
  let l := sget 0 s1.levels a.key + 1
  if l ≥ getF F.MGT_ERR_CE_CFG_THRESH 0 a.site s1 then
    logEvent ⟨1, a.site, a.slot, 255, a.unit, synd, a.addr, 255, nib⟩ { s1 with levels := sput 0 s1.levels a.key 0 }
  else { s1 with levels := sput 0 s1.levels a.key l }

/-- A report of a correction, held by its unit while the management controller restarts (R400). -/
def ceReport (a : ErrAt) (synd nib : Nat) (s : State) : State :=
  if bitF F.MGT_ERR_STATUS_RESTARTING 0 0 s then
    { s with heldCe := s.heldCe ++ [(a.site, a.slot, a.unit, a.addr, synd, nib)] }
  else ceNow a synd nib s

/-- An uncorrectable granule is consumed: counted and logged with the status its consumer gets (R395). -/
def ueConsume (a : ErrAt) (synd part : Nat) (st : Status) (s : State) : State :=
  logEvent ⟨3, a.site, a.slot, part, a.unit, synd, a.addr, st.code, 255⟩ (incF F.MGT_ERR_UE_TOTAL_COUNT 0 a.site 1 s)

/-- An uncorrectable granule is found, not consumed: counted and logged (R395). -/
def ueFound (a : ErrAt) (synd : Nat) (s : State) : State :=
  logEvent ⟨4, a.site, a.slot, 255, a.unit, synd, a.addr, 255, 255⟩ (incF F.MGT_ERR_UE_TOTAL_COUNT 0 a.site 1 s)

/-! ## Launches -/

/-- The partition with number `p`. -/
def State.part (s : State) (p : Nat) : Part := sget Part.reset s.parts p

/-- The state with partition `p` replaced. -/
def State.putPart (s : State) (p : Nat) (k : Part) : State := { s with parts := sput Part.reset s.parts p k }

/-- A launch meets a status (R12, R267): it is kept for the record; where it stops the launch at once the stop is due, and
DATA_LOST rolls the partition back (R168). -/
def Launch.meet (l : Launch) (st : Status) : Launch :=
  { l with statuses := st :: l.statuses, stop := l.stop || st.stops, rollback := l.rollback || decide (st = .dataLost) }

/-- The launch of partition `p`, if it runs one, meets a status. -/
def failLaunch (p : Nat) (st : Status) (s : State) : State :=
  match (s.part p).launch with
  | none => s
  | some l => s.putPart p { s.part p with launch := some (l.meet st) }

/-- The bed of the first failure of a launch (R262). -/
def noteBed (p b : Nat) (s : State) : State :=
  match (s.part p).launch with
  | none => s
  | some l => if l.detail = 0xFFFF then s.putPart p { s.part p with launch := some { l with detail := b } } else s

/-- A status that the launch of partition `p` meets at bed `b`. -/
def failLaunchAt (b p : Nat) (st : Status) (s : State) : State := failLaunch p st (noteBed p b s)

/-- The partition must roll back, whatever its launch's own status (R31, R168). -/
def rollbackPart (p : Nat) (st : Status) (s : State) : State :=
  match (s.part p).launch with
  | none => s
  | some l => s.putPart p { s.part p with launch := some { l.meet st with rollback := true } }

/-! ## Bytes -/

/-- `n` bytes from byte `a` of a memory, little-endian; a byte not listed reads 0x00 (DESIGN CHOICE, log entry 2). -/
def getBytes (l : List Host.Cell) (a n : Nat) : Nat :=
  match n with
  | 0 => 0
  | k + 1 => getBytes l a k + (sget (0 : BitVec 8) l (a + k)).toNat * 256 ^ k

/-- The memory with the `n` bytes from byte `a` replaced by those of `v` whose bit of `mask` is 1. -/
def putBytes (l : List Host.Cell) (a n : Nat) (mask v : Nat) : List Host.Cell :=
  match n with
  | 0 => l
  | k + 1 =>
    let l' := putBytes l a k mask v
    if mask.testBit k then sput (0 : BitVec 8) l' (a + k) (BitVec.ofNat 8 (v / 256 ^ k)) else l'

/-- A mask of `n` ones from bit `lo` on. -/
def onesAt (lo n : Nat) : Nat := (2 ^ n - 1) * 2 ^ lo

/-- The bytes of `v` selected by `mask`, byte by byte, the others from `w`. -/
def mixBytes (n mask v w : Nat) : Nat :=
  match n with
  | 0 => 0
  | k + 1 => mixBytes k mask v w + (if mask.testBit k then v / 256 ^ k % 256 else w / 256 ^ k % 256) * 256 ^ k

/-! ## Error injection (R403) -/

/-- The pattern that the armed injection plants. -/
def injectPattern (s : State) : BitVec 144 :=
  let a := getF F.MGT_ERR_INJ_CTL_NIB_A 0 0 s
  let b := getF F.MGT_ERR_INJ_CTL_NIB_B 0 0 s
  let p := getF F.MGT_ERR_INJ_CTL_PATTERN 0 0 s
  let w := flipNibble 0 a p
  if bitF F.MGT_ERR_INJ_CTL_TWO 0 0 s && decide (a ≠ b) then flipNibble w b p else w

/-- The error pattern that a write of the granule at local address `pa` stores, and the state after it: the armed pattern
where the injection fires, else none. -/
def writePattern (pa : Nat) (a : ErrAt) (s : State) : BitVec 144 × State :=
  if bitF F.MGT_ERR_INJ_CTL_ARM 0 0 s && decide (getF F.MGT_ERR_INJ_ADDR_ADDR 0 0 s = pa / 16) then
    (injectPattern s,
      logEvent ⟨11, a.site, a.slot, 255, a.unit, 0, pa / 16 * 16, 255, 255⟩
        (setF F.MGT_ERR_STATUS_INJ_ARMED 0 0 0 (setF F.MGT_ERR_INJ_CTL_ARM 0 0 0 s)))
  else (0, s)

/-! ## Scratchpads (R109, R138) -/

/-- The local physical address of byte `off` of the scratchpad of core `c` (R32). -/
def spadPA (c off : Nat) : Nat :=
  0x2000000000000 + c / 25600 * 0x40000000 + c % 25600 / 64 * 0x200000 + c % 64 * 0x8000 + off % 32768

/-- Where an error in granule `g` of the scratchpad of core `c` is. -/
def spadErrAt (c g : Nat) : ErrAt := ⟨0, c / 25600, c % 25600, spadPA c (16 * g)⟩

/-- A granule of a scratchpad as its reader decodes it (R387): its data, what the guard code found, and the state in which
a correction has been counted and written back (R138, R391). An uncorrectable granule gives no data. -/
def spadRead (c g : Nat) (s : State) : Option (BitVec 128) × State :=
  let k := c * 2048 + g % 2048
  let p := sget 0 s.spadErr k
  let d := BitVec.ofNat 128 (getBytes s.spad (16 * k) 16)
  match guardDecode (syndrome p) with
  | .clean => (some (d ^^^ p.setWidth 128), s)
  | .correct n x =>
    let e := d ^^^ (flipNibble p n x).setWidth 128
    let s1 := { s with spadErr := sput 0 s.spadErr k 0, spad := putBytes s.spad (16 * k) 16 65535 e.toNat }
    (some e, ceReport (spadErrAt c (g % 2048)) (syndrome p).code n (incF F.SPAD_CE_COUNT_COUNT c 0 1 s1))
  | .uncorrectable => (none, s)

/-- Bytes of one granule of a scratchpad written (R110): a whole granule gets a fresh codeword, a part of a granule merges
with its stored bytes. The caller has dealt with an uncorrectable granule (R396). -/
def spadWrite (c g : Nat) (mask : Nat) (v : Nat) (s : State) : State :=
  let k := c * 2048 + g % 2048
  let (pat, s1) := writePattern (spadPA c (16 * (g % 2048))) (spadErrAt c (g % 2048)) s
  let e := residue (sget 0 s.spadErr k)
  let spad1 := putBytes s1.spad (16 * k) 16 65535 (getBytes s1.spad (16 * k) 16 ^^^ (e.setWidth 128).toNat)
  { s1 with spad := putBytes spad1 (16 * k) 16 mask v, spadErr := sput 0 s1.spadErr k pat }

/-- Whether a granule of a scratchpad reads as uncorrectable. -/
def spadBad (c g : Nat) (s : State) : Bool :=
  decide (guardDecode (syndrome (sget 0 s.spadErr (c * 2048 + g % 2048))) = .uncorrectable)

/-- The partition of an uncorrectable scratchpad granule consumed by a core of a launch: DATA_LOST (R59, R138). -/
def spadConsume (c g part : Nat) (s : State) : State :=
  let a := spadErrAt c (g % 2048)
  let sy := (syndrome (sget 0 s.spadErr (c * 2048 + g % 2048))).code
  ueConsume a sy part .dataLost (flagF F.SPAD_STATUS_UE c 0 s)

/-- Whether a waiting access has an open read-modify-write whose granules include granule `g` (R122). -/
def Outside.opens (o : Outside) (g : Nat) : Bool :=
  let lo := o.off + o.pos
  let hi := min (lo / 64 * 64 + 63) (o.off + o.len - 1)
  o.opened.isSome && decide (lo / 16 ≤ g) && decide (g ≤ hi / 16)

/-- A write to granule `g` of core `c` discards the read of an open read-modify-write on it (R122). -/
def spoil (c g : Nat) (s : State) : State :=
  let k := s.core c
  if k.outside.any (fun o => o.opened.isSome) then
    s.putCore c { k with outside := k.outside.map fun o => if o.opens (g % 2048) then { o with spoiled := true } else o }
  else s

/-- Granule `i` of a masked write: the bytes of the mask that lie in it. -/
def granMask (mask i : Nat) : Nat := mask / 2 ^ (16 * i) % 65536

/-- Whether granule `i` of a write from granule `g` is a partial write of an uncorrectable granule (R396). -/
def meetsBad (c g mask i : Nat) (s : State) : Bool :=
  decide (granMask mask i ≠ 0) && decide (granMask mask i ≠ 65535) && spadBad c (g + i) s

/-- The granules of a write whose aligned 64-byte block holds such a granule. -/
def blockBad (c g n mask i : Nat) (s : State) : Bool :=
  (List.range n).any (fun j => decide ((g + j) % 2048 / 4 = (g + i) % 2048 / 4) && meetsBad c g mask j s)

/-- One granule of a masked write: dropped where its block is left whole, consumed where it is the bad one. -/
def storeGran (c g n mask v i : Nat) (s0 s : State) : State :=
  if granMask mask i = 0 then s
  else if meetsBad c g mask i s0 then spadConsume c (g + i) (s.core c).part s
  else if blockBad c g n mask i s0 then s
  else spoil c (g + i) (spadWrite c (g + i) (granMask mask i) (v / 2 ^ (128 * i) % 2 ^ 128) s)

/-- A write of `n` granules of the scratchpad of core `c` from granule `g`: the bytes of `v` whose bit of `mask` is 1 (R110).
Where it meets an uncorrectable granule that it does not cover, every byte in the aligned 64-byte block is dropped and the
writer has DATA_LOST (R396): the answer is then false. -/
def spadStore (c g n mask v : Nat) (s : State) : Bool × State :=
  (!((List.range n).any fun i => meetsBad c g mask i s),
   (List.range n).foldl (fun z i => storeGran c g n mask v i s z) s)

/-- Whether an access of master `m` to granules lo … hi of the scratchpad of core `c` passes the region check (R114). -/
def regionOk (c m lo hi : Nat) (rd wr : Bool) (s : State) : Bool :=
  let en := (List.range 8).filter fun r => bitF F.SPAD_REGION_EN c (m * 8 + r) s
  en.isEmpty || en.any fun r =>
    decide (getF F.SPAD_REGION_BASE_GRAN c (m * 8 + r) s ≤ lo) && decide (hi ≤ getF F.SPAD_REGION_LIMIT_GRAN c (m * 8 + r) s) &&
    (!rd || bitF F.SPAD_REGION_READ c (m * 8 + r) s) && (!wr || bitF F.SPAD_REGION_WRITE c (m * 8 + r) s)

/-- A failed region check of master `m` is recorded (R115). -/
def regionViol (c m : Nat) (s : State) : State :=
  setF F.SPAD_STATUS_REGION_VIOL c 0 (getF F.SPAD_STATUS_REGION_VIOL c 0 s ||| 2 ^ m) s

/-- Bank of a granule (R109). -/
def bankOf (g : Nat) : Nat := g % 2048 / 128

/-- Ports of a bank (R110). -/
def ports (bank : Nat) : Nat := if bank = 0 then 2 else 1

end Sys2Proof.Machine
end

