-- ==== Sys2Proof/Machine/Mem.lean ====
section
/-!
DEFINITION. Stacked DRAM: where a byte lives (R175 to R180), admission (R177, R193), granules with their guard code (R168, R387,
R391 to R396). The bytes of all stacks are one memory: byte `a` of stack `s` has the
key s × 2^37 + a.
-/

namespace Sys2Proof.Machine

/-! ## Where a byte lives -/

/-- The home of a DRAM byte: its region entry, its stack and its stack byte address. -/
structure Home where
  region : Nat
  stack : Nat
  addr : Nat
  deriving DecidableEq, Repr

/-- XOR of `t` fields of `b` bits of `w`, from the lowest. -/
def foldBits (b w : Nat) : Nat → Nat
  | 0 => 0
  | t + 1 => foldBits b w t ^^^ (w / 2 ^ (b * t) % 2 ^ b)

/-- Stack and stack-local granule of hash granule `n` of a package-wide region (R178). -/
def wideHome (n : Nat) : Nat × Nat :=
  let v := n / 3
  let w := v / 8
  (8 * (n % 3) + ((v % 8) ^^^ foldBits 3 w 10), w)

/-- Stack and stack-local granule of hash granule `n` of a near-only region of plot `p` (R179). -/
def nearHome (p n : Nat) : Nat × Nat :=
  (2 * p + (n ^^^ n / 2 ^ 9 ^^^ n / 2 ^ 18 ^^^ n / 2 ^ 27) % 2, n / 2)

/-- Whether a local DRAM address lies in region entry `i` (R175). -/
def inRegion (i pa : Nat) (s : State) : Bool :=
  bitF F.STK_REGION_VALID 0 i s && decide (getF F.STK_REGION_BASE 0 i s * 2 ^ 30 ≤ pa) &&
  decide (pa < (getF F.STK_REGION_BASE 0 i s + getF F.STK_REGION_SIZE 0 i s) * 2 ^ 30)

/-- The valid region of a local DRAM address. -/
def regionOf (pa : Nat) (s : State) : Option Nat := (List.range 64).find? fun i => inRegion i pa s

/-- The home of a local DRAM address; none where no valid region holds it (R175). -/
def homeOf (pa : Nat) (s : State) : Option Home :=
  match regionOf pa s with
  | none => none
  | some i =>
    let o := pa - getF F.STK_REGION_BASE 0 i s * 2 ^ 30
    let h := if bitF F.STK_REGION_WIDE 0 i s then wideHome (o / 256) else nearHome (getF F.STK_REGION_PLOT 0 i s) (o / 256)
    some ⟨i, h.1, 256 * (getF F.STK_REGION_STACK_BASE 0 i s * 2 ^ 22 + h.2) + o % 256⟩

/-- Whether region entry `i` holds byte `a` of a stack, and the local address of that byte: the inverse of R178 to R180. -/
def regionByte (i st a : Nat) (s : State) : Option Nat :=
  let wide := bitF F.STK_REGION_WIDE 0 i s
  let plot := getF F.STK_REGION_PLOT 0 i s
  let base := getF F.STK_REGION_STACK_BASE 0 i s * 2 ^ 22
  let size := getF F.STK_REGION_SIZE 0 i s / (if wide then 24 else 2) * 2 ^ 22
  let w := a / 256 - base
  if bitF F.STK_REGION_VALID 0 i s ∧ base ≤ a / 256 ∧ w < size ∧ (wide ∨ st / 2 = plot) then
    let n := if wide then 3 * (8 * w + ((st % 8) ^^^ foldBits 3 w 10)) + st / 8
      else 2 * w + (st ^^^ w / 2 ^ 8 ^^^ w / 2 ^ 17 ^^^ w / 2 ^ 26) % 2
    some (getF F.STK_REGION_BASE 0 i s * 2 ^ 30 + 256 * n + a % 256)
  else none

/-- The local address of byte `a` of a stack; 0 where no valid region holds it. -/
def paOfStack (st a : Nat) (s : State) : Nat := ((List.range 64).findSome? fun i => regionByte i st a s).getD 0

/-- Pseudo-channel of an absolute granule (R180). -/
def pcOf (w : Nat) : Nat := foldBits 6 w 5

/-- The bank of a pseudo-channel, with its die, and the row, of an absolute granule (R180): (pseudo-channel, die, bank) as one
number, and the row. -/
def bankRow (w : Nat) : Nat × Nat :=
  let j := w / 64 / 4
  let k := j / 16
  ((pcOf w * 32 + k / 4096) * 16 + foldBits 4 j 5, k % 4096)

/-- The stack is SERVING and its plot PRESENT. -/
def stackUp (st : Nat) (s : State) : Bool :=
  decide (getF F.STK_STATUS_STATE st 0 s = 1) && slotPresent (st / 2) s

/-- Whether a standing is admitted to a region (R177, R316). -/
def regionAdmits (w : Who) (i : Nat) (s : State) : Bool :=
  if w.remote then bitF F.STK_REGION_GROVE_OPEN 0 i s
  else w.host || decide (w.part.val = getF F.STK_REGION_PART 0 i s) || bitF F.STK_REGION_ALL_PARTS 0 i s

/-- The status that stops an access at its home, if any (R168, R175, R177, R190, R193). -/
def homeBad (w : Who) (h : Home) (s : State) : Option Status :=
  if bitF F.STK_REGION_FAULTED 0 h.region s || !stackUp h.stack s then some .dieAbsent
  else if !regionAdmits w h.region s then some .pageFault
  else none

/-! ## Granules -/

/-- The key of a stack byte. -/
def memKey (st a : Nat) : Nat := st * 2 ^ 37 + a

/-- Where a granule error of a stack is (R401): the address is that of the granule in the requester's map when it is known. -/
def memErrAt (st pa : Nat) : ErrAt := ⟨3, st / 2, st % 2, pa / 16 * 16⟩

/-- A correction is noted in the list of the 64 most recently corrected granules; the fourth while it stays there makes the
granule weak, logged once in 24 hours (R394). -/
def noteRecent (st key : Nat) (a : ErrAt) (s : State) : State :=
  let k := s.stack st
  let n := (look k.recent key).getD 0 + 1
  let k1 := { k with recent := ((key, n) :: ldel k.recent key).take 64 }
  let day : Nat := 2160000000000
  if n = 4 ∧ ((look k.weakAt key).map fun t => decide (t + day ≤ s.tick)).getD true = true then
    logEvent ⟨2, 3, a.slot, 255, a.unit, 0, a.addr, 255, 255⟩
      (s.putStack st { k1 with weakAt := lput k1.weakAt key s.tick })
  else s.putStack st k1

/-- A granule of a stack as the controller decodes it: a correction is counted, reported and queued for write-back (R391 to
R394); an uncorrectable granule gives no data. -/
def memGran (st a pa : Nat) (s : State) : Option (BitVec 128) × State :=
  let key := memKey st a / 16
  let p := sget 0 s.memErr key
  let d := BitVec.ofNat 128 (getBytes s.mem (16 * key) 16)
  match guardDecode (syndrome p) with
  | .clean => (some (d ^^^ p.setWidth 128), s)
  | .correct n x =>
    let e := d ^^^ (flipNibble p n x).setWidth 128
    let at0 := memErrAt st pa
    let s1 := noteRecent st key at0 (ceReport at0 (syndrome p).code n (incF F.STK_CE_COUNT_COUNT st 0 1 s))
    let k := s1.stack st
    (some e, if k.writeback.contains key then s1 else s1.putStack st { k with writeback := k.writeback ++ [key] })
  | .uncorrectable => (none, s)

/-- Whether a granule of a stack reads as uncorrectable. -/
def memBad (st a : Nat) (s : State) : Bool :=
  decide (guardDecode (syndrome (sget 0 s.memErr (memKey st a / 16))) = .uncorrectable)

/-- A consumed uncorrectable granule of a stack (R395): counted and logged, and the partition of a requester without host
standing rolls back (R168, R397). -/
def memConsume (st a pa : Nat) (w : Who) (s : State) : State :=
  let sy := (syndrome (sget 0 s.memErr (memKey st a / 16))).code
  let s1 := ueConsume (memErrAt st pa) sy (if w.host then 255 else w.part.val) .dataLost
    (flagF F.STK_STATUS_UE st 0 s)
  if w.host || w.remote then s1 else failLaunch w.part.val .dataLost s1

/-- `n` granules from the granule of byte `a`, whose address is `pa`: their data, and whether all could be read. -/
def memGrans (st a pa : Nat) (w : Who) (n : Nat) (s : State) : Nat × Bool × State :=
  match n with
  | 0 => (0, true, s)
  | m + 1 =>
    let r := memGrans st a pa w m s
    match memGran st (a / 16 * 16 + 16 * m) (pa / 16 * 16 + 16 * m) r.2.2 with
    | (some v, s2) => (r.1 + v.toNat * 2 ^ (128 * m), r.2.1, s2)
    | (none, s2) => (r.1, false, memConsume st (a / 16 * 16 + 16 * m) (pa / 16 * 16 + 16 * m) w s2)

/-- `n` bytes of a stack from byte `a`, within one line: the data at bit 0, or none where a granule is uncorrectable. -/
def memRead (st a pa : Nat) (w : Who) (n : Nat) (s : State) : Option Nat × State :=
  let r := memGrans st a pa w ((a % 16 + n + 15) / 16) s
  (if r.2.1 then some (r.1 / 2 ^ (8 * (a % 16)) % 2 ^ (8 * n)) else none, r.2.2)

/-- One granule of a masked write that can be performed: a fresh codeword with the armed injection (R403); a queued write-back
of it is dropped (R391). -/
def memWriteGran (st a pa mask v : Nat) (s : State) : State :=
  let key := memKey st a / 16
  let r := writePattern pa (memErrAt st pa) s
  let e := residue (sget 0 s.memErr key)
  let mem1 := putBytes r.2.mem (16 * key) 16 65535 (getBytes r.2.mem (16 * key) 16 ^^^ (e.setWidth 128).toNat)
  let s1 := { r.2 with mem := putBytes mem1 (16 * key) 16 mask v, memErr := sput 0 r.2.memErr key r.1 }
  let k := s1.stack st
  if k.writeback.contains key then s1.putStack st { k with writeback := k.writeback.filter (· ≠ key) } else s1

/-- Whether granule `i` of a masked write is a partial write of an uncorrectable granule (R396). -/
def memMeetsBad (st a mask i : Nat) (s : State) : Bool :=
  decide (granMask mask i ≠ 0) && decide (granMask mask i ≠ 65535) && memBad st (a + 16 * i) s

/-- Whether the aligned 64-byte block of granule `i` holds such a granule. -/
def memBlockBad (st a n mask i : Nat) (s : State) : Bool :=
  (List.range n).any (fun j => decide ((a / 16 + j) / 4 = (a / 16 + i) / 4) && memMeetsBad st a mask j s)

/-- One granule of a write of `n` granules from byte `a` (16-byte aligned). -/
def memStoreGran (st a pa : Nat) (w : Who) (n mask v i : Nat) (s0 s : State) : State :=
  if granMask mask i = 0 then s
  else if memMeetsBad st a mask i s0 then memConsume st (a + 16 * i) (pa + 16 * i) w s
  else if memBlockBad st a n mask i s0 then s
  else memWriteGran st (a + 16 * i) (pa + 16 * i) (granMask mask i) (v / 2 ^ (128 * i) % 2 ^ 128) s

/-- A masked write of `n` granules of a stack from byte `a` (16-byte aligned): false where it meets an uncorrectable granule that
it does not cover (R396). -/
def memStore (st a pa : Nat) (w : Who) (n mask v : Nat) (s : State) : Bool × State :=
  (!((List.range n).any fun i => memMeetsBad st a mask i s),
   (List.range n).foldl (fun z i => memStoreGran st a pa w n mask v i s z) s)

/-! ## Accesses performed at their home -/

/-- Row hits and misses of an access (R180, R195). -/
def countRow (h : Home) (s : State) : State :=
  let b := bankRow (h.addr / 256)
  let k := s.stack h.stack
  if look k.rows b.1 = some b.2 then incF F.STK_ROW_HIT_COUNT h.stack 0 1 s
  else incF F.STK_ROW_MISS_COUNT h.stack 0 1 (s.putStack h.stack { k with rows := lput k.rows b.1 b.2 })

/-- The regulator of a standing (R184, R317). -/
def regOf (w : Who) (s : State) : Nat :=
  if w.remote then getF F.HAL_GROVE_CFG_REMOTE_REG 0 0 s else if w.host then 32 else w.part.val

/-- A read of `n` bytes served at its home. -/
def homeRead (h : Home) (pa : Nat) (w : Who) (n : Nat) (s : State) : Option Nat × State :=
  let r := memRead h.stack h.addr pa w n s
  (r.1, incF F.STK_RD_BYTES_COUNT h.stack 0 n (countRow h r.2))

/-- A masked write performed at its home: byte i of `v` goes to byte i from the home address. -/
def homeWrite (h : Home) (pa : Nat) (w : Who) (n mask v : Nat) (s : State) : Bool × State :=
  let sh := h.addr % 16
  let r := memStore h.stack (h.addr / 16 * 16) (pa / 16 * 16) w ((sh + n + 15) / 16) (mask * 2 ^ sh) (v * 2 ^ (8 * sh)) s
  (r.1, incF F.STK_WR_BYTES_COUNT h.stack 0 n r.2)

/-- An atomic performed at its home: the old value, or none where the location is uncorrectable (R168). -/
def homeAtomic (h : Home) (pa : Nat) (w : Who) (a : Atom) (s : State) : Option Nat × State :=
  let n := a.bytes
  let off := h.addr % n
  let h1 := { h with addr := h.addr - off }
  let r := memRead h1.stack h1.addr (pa - off) w n (countRow h1 s)
  match r.1 with
  | none => (none, r.2)
  | some v =>
    let z := homeWrite h1 (pa - off) w n (2 ^ n - 1) (a.apply v) r.2
    (some v, incF F.STK_ATOMIC_COUNT h.stack 0 1 z.2)

end Sys2Proof.Machine
end

