-- ==== Sys2Proof/Machine/Route.lean ====
section
/-!
DEFINITION. The links of the package and the routes over them (R14 to R16, R343): who faces whom, and the path of a pair of dies, which
depends on the fenced dies alone.
-/

namespace Sys2Proof.Machine

/-- The die slot and link number at the far end of link `l` of a die (R15, R343). -/
def peerLink (slot l : Nat) : Option (Nat × Nat) :=
  if slot < 12 then
    let col := slot % 4
    match l with
    | 0 => if col < 3 then some (slot + 1, 2) else none
    | 1 => if slot < 8 then some (slot + 4, 3) else none
    | 2 => if 0 < col then some (slot - 1, 0) else none
    | 3 => if 4 ≤ slot then some (slot - 4, 1) else some (12 + slot / 2, slot % 2)
    | _ => none
  else match slot, l with
    | 12, 0 => some (0, 3)
    | 12, 1 => some (1, 3)
    | 12, 2 => some (14, 0)
    | 13, 0 => some (2, 3)
    | 13, 1 => some (3, 3)
    | 13, 2 => some (14, 1)
    | 13, 3 => some (15, 0)
    | 14, 0 => some (12, 2)
    | 14, 1 => some (13, 2)
    | _, _ => none

/-- The unit number of a link's registers. -/
def linkUnit (slot l : Nat) : Nat := 4 * slot + l

/-- The links of a die that lead to another. -/
def linksOfDie (slot : Nat) : List (Nat × Nat × Nat) :=
  (List.range 4).filterMap fun l => (peerLink slot l).map fun q => (l, q.1, q.2)

/-- The STATE of a die (R35): 0 PRESENT, 1 FENCED, 2 ABSENT, 3 BRIDGED, 4 TRAINING. -/
def dieState (d : Nat) (s : State) : Nat := getF F.MGT_DIE_INFO_STATE d 0 s

/-- The dies of slots 0 to 14 that are fenced. -/
def fencedDies (s : State) : List Nat := (List.range 15).filter fun d => decide (dieState d s = 1)

/-- The dies next to a die, fenced ones and the guest left out. -/
def nextDies (out : List Nat) (d : Nat) : List Nat :=
  ((linksOfDie d).map fun e => e.2.1).filter fun q => decide (q ≠ 15) && !out.contains q

/-- Distances in links from the dies of `front` to those that they reach. -/
def spread (out seen front : List Nat) (d : Nat) : Nat → List (Nat × Nat)
  | 0 => []
  | f + 1 =>
    if front.isEmpty then []
    else
      let next := ((front.flatMap (nextDies out)).eraseDups).filter fun q => !seen.contains q && !front.contains q
      front.map (fun q => (q, d)) ++ spread out (seen ++ front) next (d + 1) f

/-- The distance of two dies over surviving links, none where no path survives. -/
def dieHops (out : List Nat) (a b : Nat) : Option Nat :=
  if out.contains a || out.contains b then none else look (spread out [] [b] 0 15) a

/-- Every shortest path from `a` to `b`, as the dies after `a`. -/
def shortPaths (out : List Nat) (a b : Nat) : Nat → List (List Nat)
  | 0 => if a = b then [[]] else []
  | n + 1 =>
    ((nextDies out a).filter fun q => decide (dieHops out q b = some n)).flatMap fun q => (shortPaths out q b n).map fun t => q :: t

/-- Column and row of a plot. -/
def colOf (p : Nat) : Nat := p % 4
/-- The row of a plot. -/
def rowOf (p : Nat) : Nat := p / 4

/-- The plot at which an I/O die or the processor die meets the mesh toward a column, and the I/O die on the way (R15). -/
def entryPlot (die col : Nat) : Nat × Nat :=
  if die = 12 then (12, if col = 0 then 0 else 1)
  else if die = 13 then (13, if col = 3 then 3 else 2)
  else (if col < 2 then 12 else 13, min 3 col)

/-- The plot of a path nearest to its end off the mesh, and the I/O die next to it. -/
def meetsMesh (path : List Nat) : Option (Nat × Nat) :=
  match path with
  | x :: y :: t =>
    if x < 12 ∧ 12 ≤ y then some (y, x) else if 12 ≤ x ∧ y < 12 then some (x, y) else meetsMesh (y :: t)
  | _ => none

/-- The order of the links of a path where two are compared (R16, rules 2 and 3): toward the column, toward the row, away from the
column, away from the row, off the mesh; east before west and north before south. -/
def linkRank (tgt x y : Nat) : Nat :=
  if 12 ≤ x ∨ 12 ≤ y then 8
  else if rowOf x = rowOf y then
    let east := if colOf x < colOf y then 0 else 1
    let toward := (colOf x < colOf y ∧ colOf x < colOf tgt) ∨ (colOf y < colOf x ∧ colOf tgt < colOf x)
    if toward then east else 4 + east
  else
    let north := if rowOf x < rowOf y then 0 else 1
    let toward := (rowOf x < rowOf y ∧ rowOf x < rowOf tgt) ∨ (rowOf y < rowOf x ∧ rowOf tgt < rowOf x)
    if toward then 2 + north else 6 + north

/-- The ranks of the links of a path. -/
def pathRanks (tgt : Nat) : List Nat → List Nat
  | x :: y :: t => linkRank tgt x y :: pathRanks tgt (y :: t)
  | _ => []

/-- Lists compared from their first element. -/
def listLess : List Nat → List Nat → Bool
  | x :: s, y :: t => if x = y then listLess s t else decide (x < y)
  | _, _ => false

/-- The plot toward which a path's links count: its end, or the plot at which it leaves the mesh. -/
def pathTarget (path : List Nat) : Nat :=
  match path.getLast? with
  | some q => if q < 12 then q else ((meetsMesh path).map (·.2)).getD q
  | none => 0

/-- What rule 1 prefers in a path between the mesh and a die off it: 0 for the plot and I/O die of R15, else one more than the plot. -/
def entryRank (a b : Nat) (path : List Nat) : Nat :=
  let want := if 12 ≤ a ∧ b < 12 then some (entryPlot a (colOf b)) else if a < 12 ∧ 12 ≤ b then some (entryPlot b (colOf a)) else none
  match want, meetsMesh path with
  | some w, some m => if w = m then 0 else 1 + m.2
  | none, some m => if a < 12 then 0 else m.2
  | _, none => 0

/-- The better of two paths. -/
def betterPath (a b : Nat) (x y : List Nat) : List Nat :=
  let kx := entryRank a b x :: pathRanks (pathTarget x) x
  let ky := entryRank a b y :: pathRanks (pathTarget y) y
  if listLess ky kx then y else x

/-- The path of a pair by the rules of R16 with the dies `out` fenced, both ends included. -/
def bestPath (out : List Nat) (a b : Nat) : Option (List Nat) :=
  match dieHops out a b with
  | none => none
  | some n =>
    match (shortPaths out a b n).map fun t => a :: t with
    | [] => none
    | p :: t => some (t.foldl (betterPath a b) p)

/-! ## The routes while every die is present (R14, R15) -/

/-- The plots after `p` on the way along its row to column `col`. -/
def alongRow (p col : Nat) : Nat → List Nat
  | 0 => []
  | f + 1 => if colOf p < col then (p + 1) :: alongRow (p + 1) col f else if col < colOf p then (p - 1) :: alongRow (p - 1) col f else []

/-- The plots after `p` on the way along its column to row `row`. -/
def alongCol (p row : Nat) : Nat → List Nat
  | 0 => []
  | f + 1 => if rowOf p < row then (p + 4) :: alongCol (p + 4) row f else if row < rowOf p then (p - 4) :: alongCol (p - 4) row f else []

/-- The route of two plots: along the row, then along the column (R14). -/
def meshRoute (a b : Nat) : List Nat :=
  let turn := 4 * rowOf a + colOf b
  a :: alongRow a (colOf b) 3 ++ alongCol turn (rowOf b) 2

/-- The route of a die off the mesh to a plot (R15). -/
def entryRoute (die b : Nat) : List Nat :=
  let e := entryPlot die (colOf b)
  (if die = 14 then [14, e.1] else [die]) ++ meshRoute e.2 b

/-- The route of a pair while every die is present, both ends included (R14, R15): from the mesh to a die off it, the reverse of the path
that comes. -/
def fullRoute (a b : Nat) : List Nat :=
  if a = b then [a]
  else if a < 12 ∧ b < 12 then meshRoute a b
  else if a < 12 then (entryRoute b a).reverse
  else if b < 12 then entryRoute a b
  else if a = 14 ∨ b = 14 then [a, b]
  else [a, 14, b]

/-! ## The routers' tables (R16) -/

/-- The key of a pair of dies. -/
def pairKey (a b : Nat) : Nat := 16 * a + b

/-- The route in force for a pair of dies of slots 0 to 14; empty where no path survives. -/
def pairRoute (a b : Nat) (s : State) : List Nat := (look s.routes (pairKey a b)).getD (fullRoute a b)

/-- The routes that the management controller writes into the routers (R16): a pair whose route of R14 and R15 crosses a fenced die takes
the best path that survives, or none. -/
def newRoutes (out : List Nat) : List (Nat × List Nat) :=
  (List.range 15).flatMap fun a => (List.range 15).filterMap fun b =>
    if a ≠ b ∧ (fullRoute a b).any (fun d => out.contains d) then some (pairKey a b, (bestPath out a b).getD []) else none

/-- The set of fenced dies has changed: the routers' tables are written. -/
def writeRoutes (s : State) : State := { s with routes := newRoutes (fencedDies s) }

/-- The route in force from die `a` to die `b`, the guest die reached over I/O die B. -/
def routeOf (a b : Nat) (s : State) : List Nat :=
  if a = b then [a]
  else if a = 15 then (let l := pairRoute 13 b s; if l.isEmpty then [] else 15 :: l)
  else if b = 15 then (let l := pairRoute a 13 s; if l.isEmpty then [] else l ++ [15])
  else pairRoute a b s

/-- Whether a pair of dies has a surviving path (R16). -/
def joined (a b : Nat) (s : State) : Bool := !(routeOf a b s).isEmpty

/-- The plot supervisors that relay a control message of the management controller to a plot, along the route of that pair (R21). -/
def relays (plot : Nat) (s : State) : List Nat := ((routeOf 12 plot s).drop 1).dropLast

/-- Whether a control message of the management controller reaches a die: a plot only over a surviving route, relayed by each plot
supervisor on it (R21). -/
def reached (d : Nat) (s : State) : Bool :=
  decide (12 ≤ d) || (joined 12 d s && (relays d s).all fun q => decide (12 ≤ q) || decide (dieState q s ≠ 1))

end Sys2Proof.Machine
end

