-- ==== Sys2Proof/Machine/Net.lean ====
section
/-!
DEFINITION. Requests under way between the units of the package and their homes (R142, R148): posting, finding and answering
them, and what makes an address local (R19, R32).
-/

namespace Sys2Proof.Machine

/-- The package field of a physical address (R32). -/
def pkgOf (pa : Nat) : Nat := pa / 2 ^ 52 % 512

/-- The local address of a physical address. -/
def localOf (pa : Nat) : Nat := pa % 2 ^ 52

/-- Whether a package number names the local package (R19). -/
def isLocal (pkg : Nat) (s : State) : Bool := decide (pkg = 0) || decide (pkg = ownPkg s)

/-- Where an address leads (R32, R33). -/
inductive Place where
  | dram
  | spad (c off : Nat) (form : Form)
  | csr
  | away
  | gone
  deriving DecidableEq, Repr

/-- The scratchpad byte that a local address of the window or an alias names; none where no such scratchpad exists (R33). -/
def windowOf (l : Nat) : Option (Nat × Nat) :=
  let d := l % 2 ^ 48
  let plot := d / 2 ^ 30
  let bed := d / 2 ^ 21 % 512
  if plot < 12 ∧ bed < 400 then some (25600 * plot + 64 * bed + d / 2 ^ 15 % 64, d % 32768) else none

/-- Where a physical address leads. -/
def placeOf (pa : Nat) (s : State) : Place :=
  let l := localOf pa
  let win (f : Form) : Place := match windowOf l with
    | some (c, o) => .spad c o f
    | none => .gone
  if !isLocal (pkgOf pa) s then .away
  else match l / 2 ^ 48 with
    | 0 => .dram
    | 2 => win .plain
    | 3 => win .bitSet
    | 4 => win .bitClear
    | 15 => if l % 2 ^ 48 < 2 ^ 36 then .csr else .gone
    | _ => .gone

/-- Whether an address, local or remote, is one of stacked DRAM. -/
def isDram (pa : Nat) : Bool := decide (localOf pa / 2 ^ 48 = 0)

/-- The request with number `id`. -/
def netGet (id : Nat) (s : State) : Option Req := s.net.find? fun r => decide (r.id = id)

/-- A request replaced. -/
def netPut (r : Req) (s : State) : State := { s with net := s.net.map fun x => if x.id = r.id then r else x }

/-- A request taken away. -/
def netDel (id : Nat) (s : State) : State := { s with net := s.net.filter fun x => decide (x.id ≠ id) }

/-! ## Routes between packages (R298) -/

/-- Whether a package is a member of the grove, and this package with it (R316). -/
def isMember (pkg : Nat) (s : State) : Bool :=
  decide (getF F.HAL_GROVE_STATUS_STATE 0 0 s = 2) && (getF F.HAL_MEMBERS_BITS 0 (pkg / 64) s).testBit (pkg % 64)

/-- The neighbours of a member that are members, by the charter. -/
def neighbours (c : Charter) (p : Nat) : List Nat :=
  match c.members.find? fun m => decide (m.pkg.toNat = p) with
  | none => []
  | some m => ((List.range 16).map fun n => m.links.toNat / 2 ^ (16 * n) % 65536).filter fun q =>
      decide (q ≠ 0) && c.members.any fun x => decide (x.pkg.toNat = q)

/-- The members reached from a frontier in up to `fuel` hops, each with its distance. -/
def reach (c : Charter) (seen front : List Nat) (d : Nat) : Nat → List (Nat × Nat)
  | 0 => []
  | f + 1 =>
    if front.isEmpty then []
    else
      let next := ((front.flatMap (neighbours c)).eraseDups).filter fun q => !seen.contains q && !front.contains q
      front.map (fun q => (q, d)) ++ reach c (seen ++ front) next (d + 1) f

/-- Hops from member `a` to member `b` (R298). -/
def hopsTo (c : Charter) (a b : Nat) : Option Nat := look (reach c [] [a] 0 512) b

/-- The next hop of the route to a member: the shortest path, ties to the lowest number (R298). -/
def nextHop (c : Charter) (own dst : Nat) : Option Nat :=
  let l := (neighbours c own).eraseDups.filterMap fun q => (hopsTo c q dst).map fun d => (d, q)
  (l.foldl (fun z x => match z with
    | none => some x
    | some y => if x.1 < y.1 ∨ (x.1 = y.1 ∧ x.2 < y.2) then some x else some y) none).map (·.2)

/-- The port group toward a neighbour: its UP ports in ascending order (R298, R301). -/
def portGroup (peer : Nat) (s : State) : List Nat :=
  (List.range 16).filter fun n => decide (getF F.HAL_PORT_STATUS_STATE n 0 s = 3) && decide (getF F.HAL_PORT_STATUS_PEER n 0 s = peer)

/-- The port group of the route to a package. -/
def routeGroup (dst : Nat) (s : State) : List Nat :=
  match s.grove.charter with
  | none => []
  | some c =>
    match nextHop c (ownPkg s) dst with
    | some q => portGroup q s
    | none => []

/-- The I/O die of the port that a channel toward a package uses (R298). -/
def ioDie (pkg chan : Nat) (s : State) : Nat := 12 + ((routeGroup pkg s)[chan]?).getD 0 / 8

/-- Die slot and bed of a source, as a message header names them (R295). -/
def srcPlace (x : Src) : Nat × Nat :=
  match x with
  | .bed b => (plotOf b, b % 400)
  | .brw b => (plotOf b, b % 400)
  | .bsq b => (plotOf b, b % 400)
  | .opsan _ => (14, 511)
  | .pcie => (14, 511)
  | .iommu => (14, 511)
  | .guest => (15, 511)
  | _ => (12, 511)

/-- The channel of a place of this package toward a package (R298). -/
def chanAt (slot bed dst : Nat) (s : State) : Nat :=
  let g := (routeGroup dst s).length
  if g = 0 then 0 else (slot + 16 * bed) % g

/-- The channel of a source toward a package. -/
def chanOf (x : Src) (dst : Nat) (s : State) : Nat := chanAt (srcPlace x).1 (srcPlace x).2 dst s

/-- The die on which a request of a source enters the package's routes. -/
def srcDie (x : Src) (s : State) : Nat :=
  match x with
  | .pkg n slot bed => ioDie n (chanAt slot bed n s) s
  | y => (srcPlace y).1

/-- The die to which a request goes: that of its home, of its scratchpad or of its registers; for another package the I/O die of its port.
-/
def destDie (x : Src) (pkg l : Nat) (s : State) : Option Nat :=
  if !isLocal pkg s then some (ioDie pkg (chanOf x pkg s) s)
  else match placeOf l s with
    | .dram => (homeOf l s).map fun h => h.stack / 2
    | .spad c _ _ => some (c / 25600)
    | .csr => some (l / 2 ^ 32 % 16)
    | _ => none

/-- The route that a request takes (R14); none where it has no place to go. -/
def reqRoute (x : Src) (pkg l : Nat) (s : State) : List Nat :=
  match destDie x pkg l s with
  | some d => routeOf (srcDie x s) d s
  | none => []

/-- Whether no path joins the die of a request's source to the one to which it goes (R16). -/
def cutOff (x : Src) (pkg l : Nat) (s : State) : Bool :=
  match destDie x pkg l s with
  | some d => !joined (srcDie x s) d s
  | none => false

/-- The status of a new request of a source at its home: DIE_ABSENT where no path joins their dies (R16), or while its region is being
cleared (R176). -/
def homeBadFor (x : Src) (w : Who) (h : Home) (s : State) : Option Status :=
  if joined (srcDie x s) (h.stack / 2) s && decide (s.regClear ≠ some h.region) then homeBad w h s else some .dieAbsent

/-! ## End-to-end numbering (R299) -/

/-- The sending side toward a package and channel. -/
def getTx (dst chan : Nat) (s : State) : E2eTx :=
  (s.grove.tx.find? fun e => decide (e.dst = dst) && decide (e.chan = chan)).getD ⟨dst, chan, 0, [], [], s.tick, false⟩

/-- The sending side replaced. -/
def putTx (e : E2eTx) (s : State) : State :=
  let g := s.grove
  let l := g.tx.filter fun x => !(decide (x.dst = e.dst) && decide (x.chan = e.chan))
  { s with grove := { g with tx := l ++ [e] } }

/-- A message of request `id` numbered and held until it is acknowledged; with 1,024 held it waits (R299). -/
def E2eTx.send (e : E2eTx) (id tick : Nat) : E2eTx :=
  if 1024 ≤ e.held.length then { e with waiting := e.waiting ++ [id] }
  else
    { e with next := (e.next + 1) % 2048, held := e.held ++ [(e.next, id)], since := if e.held.isEmpty then tick else e.since }

/-- Whether the I/O die of a port forwards GROVE-scope atomics: bits 1 and 2 of its features (R328). -/
def forwardsAtomics (n : Nat) (s : State) : Bool :=
  let f := getF F.MGT_DIE_FEATURES_BITMAP (12 + n / 8) 0 s
  f.testBit 1 && f.testBit 2

/-- Whether the port by which a message leaves toward a package forwards atomics. -/
def outForwards (dst chan : Nat) (s : State) : Bool := ((routeGroup dst s)[chan]?).all fun n => forwardsAtomics n s

/-- Source package, destination package and channel of what is diverted. -/
def Diverted.flow (own : Nat) (x : Diverted) : Nat × Nat × Nat :=
  match x with
  | .come (.read h) => (h.src.val, h.dst.val, h.chan.val)
  | .come (.write h _) => (h.src.val, h.dst.val, h.chan.val)
  | .come (.atomic h _ _ _) => (h.src.val, h.dst.val, h.chan.val)
  | .come (.resp h _ _ _) => (h.src.val, h.dst.val, h.chan.val)
  | .go dst chan _ _ => (own, dst, chan)

/-- Whether a diverted atomic holds a flow. -/
def flowHeld (x : Diverted) (s : State) : Bool :=
  let own := ownPkg s
  s.grove.diverted.any fun y => decide (y.flow own = x.flow own)

/-- A message or request put behind what is diverted. -/
def divert (x : Diverted) (s : State) : State := { s with grove := { s.grove with diverted := s.grove.diverted ++ [x] } }

/-- A message of request `id` sent toward a package; an atomic that would leave by an older I/O die is diverted, and holds its flow (R328).
-/
def sendMsg (x : Src) (dst id : Nat) (atom : Bool) (s : State) : State :=
  let chan := chanOf x dst s
  let d : Diverted := .go dst chan id atom
  if (atom && !outForwards dst chan s) || flowHeld d s then divert d s else putTx ((getTx dst chan s).send id s.tick) s

/-- The requests of messages held for the link (R221). -/
def markLink (ids : List Nat) (s : State) : State :=
  { s with net := s.net.map fun r => if ids.contains r.id then { r with linkMark := true } else r }

/-- Whether a message toward a package waits at its source: for room, or for a route (R299, R301). -/
def linkWaits (x : Src) (dst : Nat) (s : State) : Bool :=
  decide (1024 ≤ (getTx dst (chanOf x dst s) s).held.length) || (routeGroup dst s).isEmpty

/-- The port groups have changed (R299, R301): what is held may be reissued, and requests toward an empty group carry the hold mark. -/
def groupsChanged (s : State) : State :=
  let g := s.grove
  let s1 := { s with grove := { g with tx := g.tx.map fun e => { e with due := true } } }
  g.tx.foldl (fun z e => if (routeGroup e.dst z).isEmpty then markLink (e.held.map Prod.snd ++ e.waiting) z else z) s1

/-- The status that stops a request before it leaves (R16, R316): another package that is no current member, or an I/O die that no path
reaches. -/
def leaveBad (x : Src) (pkg l : Nat) (s : State) : Option Status :=
  if isLocal pkg s then none
  else if !isMember pkg s then some .groveExcluded
  else if cutOff x pkg l s then some .dieAbsent
  else none

/-- A request leaves its source: it is numbered and takes its route (R14, R17); one for another package leaves as a message. -/
def depart (r : Req) (s : State) : Req × State :=
  match leaveBad r.src r.pkg r.pa s with
  | some st => ({ r with st := .answered, status := st }, s)
  | none =>
    let s1 := { s with nextSeq := s.nextSeq + 1 }
    ({ r with st := .sent, status := .ok, seq := s.nextSeq, route := reqRoute r.src r.pkg r.pa s,
              linkMark := r.linkMark || (!isLocal r.pkg s && linkWaits r.src r.pkg s) },
      if isLocal r.pkg s then s1 else sendMsg r.src r.pkg r.id r.atom.isSome s1)

/-- A request of `src` put on its way under the number `id`. -/
def postAs (id : Nat) (src : Src) (who : Who) (pa len : Nat) (write : Bool) (data : BitVec 1024) (mask : BitVec 128)
    (atom : Option Atom) (step : BitVec 32) (key : BitVec 16) (s : State) : State :=
  let z := depart ⟨id, src, who, pkgOf pa, localOf pa, len, write, data, mask, atom, step, key, .sent, .ok, 0, s.tick, false, false, false, none,
    false, 0, [], false, ⟨false, false, false⟩⟩ s
  { z.2 with net := z.2.net ++ [z.1] }

/-- A request put on its way under the next number of the package. -/
def post (src : Src) (who : Who) (pa len : Nat) (write : Bool) (data : BitVec 1024) (mask : BitVec 128) (atom : Option Atom)
    (step : BitVec 32) (key : BitVec 16) (s : State) : Nat × State :=
  let (id, s1) := s.takeId
  (id, postAs id src who pa len write data mask atom step key s1)

/-- A request answered. -/
def answer (r : Req) (st : Status) (data : BitVec 1024) (s : State) : State :=
  netPut { r with st := .answered, status := st, rdata := data } s

/-- The standing of a partition of this package. -/
def partWho (p : Nat) : Who := ⟨Fin.ofNat 32 p, false, false⟩

/-- Host standing (R28). -/
def hostWho : Who := ⟨0, true, false⟩

/-! ## Changes of route (R16, R17) -/

/-- The copy of a request that was sent again, at a destination that has the request already, is known by its sequence number and discarded
(R17). -/
def dropCopy (r : Req) (s : State) : State := if r.again then netPut { r with again := false } s else s

/-! ## The snoop filter (R332) -/

/-- The stack line of 64 bytes of a home address. -/
def halfKey (h : Home) (off : Nat) : Nat := (h.addr + off) / 64

/-- The 64-byte halves that a request touches, as offsets from its first byte. -/
def halves (h : Home) (len : Nat) : List Nat :=
  let n := (h.addr + max len 1 - 1) / 64 - h.addr / 64 + 1
  (List.range n).map fun i => if i = 0 then 0 else 64 * i - h.addr % 64

/-- Whether the snoop filter holds any half of an access. -/
def filterHolds (h : Home) (n : Nat) (s : State) : Bool :=
  (halves h n).any fun o => (look (s.stack h.stack).snoop (halfKey h o)).isSome

/-- Whether the processor die owns any half of an access. -/
def filterOwned (h : Home) (n : Nat) (s : State) : Bool :=
  (halves h n).any fun o => look (s.stack h.stack).snoop (halfKey h o) = some true

/-- The halves that a request must snoop: an OWNED one for a read, any one of the filter for a write or an atomic. -/
def snooped (r : Req) (h : Home) (s : State) : List Nat :=
  (halves h r.len).filter fun o =>
    match look (s.stack h.stack).snoop (halfKey h o) with
    | some owned => owned || r.write || r.atom.isSome
    | none => false

/-- Whether a request must snoop. -/
def mustSnoop (r : Req) (h : Home) (s : State) : Bool := !(snooped r h s).isEmpty

/-- Whether a request comes from the processor die, whose lines the filter itself keeps. -/
def srcHost (x : Src) : Bool :=
  match x with
  | .opsan _ => true
  | _ => false

/-- Whether a source waits for its answer inside the package. -/
def srcInside (x : Src) : Bool :=
  match x with
  | .bed _ => true
  | .brw _ => true
  | .bsq _ => true
  | .cmd _ => true
  | .iommu => true
  | .mgt => true
  | .pkg _ _ _ => true
  | _ => false

/-- Whether the die of a source is fenced: a response to it is discarded (R341). -/
def srcFenced (x : Src) (s : State) : Bool :=
  let at1 (slot : Nat) : Bool := decide (getF F.MGT_DIE_INFO_STATE slot 0 s = 1)
  match x with
  | .bed b => at1 (plotOf b)
  | .brw b => at1 (plotOf b)
  | .bsq b => at1 (plotOf b)
  | .opsan _ => at1 14
  | .pcie => at1 14
  | .iommu => at1 14
  | .guest => at1 15
  | _ => false

/-- A failed Opsan store is recorded where none is held, counted, and signalled (R330). -/
def hostError (aperture l : Nat) (st : Status) (s : State) : State :=
  let s1 := if bitF F.D2D_HOST_ERR_VALID 0 0 s then s
    else
      flagF F.D2D_HOST_ERR_VALID 0 0 (setF F.D2D_HOST_ERR_STATUS 0 0 st.code
        (setF F.D2D_HOST_ERR_APERTURE 0 0 aperture (setF F.D2D_HOST_ERR_ADDR 0 0 l s)))
  eventIrq (incF F.D2D_HOST_ERR_COUNT_COUNT 0 0 1 s1)

/-- Whether a request is an Opsan store that failed. -/
def storeFailed (r : Req) (st : Status) : Bool :=
  srcHost r.src && r.write && r.atom.isNone && decide (st ≠ .ok) && decide (st ≠ .completed)

/-- Whether nobody waits for the answer of a request: a write of the IOMMU, or one whose unit has left it. -/
def Req.posted (r : Req) : Bool := r.orphan || (decide (r.src = .iommu) && r.write)

/-- A request completed: kept with its answer for a unit of the package or a message, returned at once to any other source by the number
that the source knows it by; dropped where its source is fenced. -/
def complete (r : Req) (st : Status) (data : BitVec 1024) (s : State) : State :=
  if srcFenced r.src s || r.posted then netDel r.id s
  else if srcInside r.src then answer r st data s
  else
    let s1 := respond (r.ext.getD r.id) st data (netDel r.id s)
    if storeFailed r st then hostError r.key.toNat r.pa st s1 else s1

/-- A unit leaves requests of its own: those answered go with it, and nobody waits for the others. -/
def disown (mine : Req → Bool) (s : State) : State :=
  { s with net := (s.net.filter fun r => !(mine r && decide (r.st = .answered))).map fun r => if mine r then { r with orphan := true } else r }

/-! ## Requests held at their source (R155, R231) -/

/-- A request that waited at its source put on its way; one that nothing answers, or that may not leave, completes at once. -/
def sendOn (r : Req) (pa : Nat) (s : State) : State :=
  let z := depart { r with pkg := pkgOf pa, pa := localOf pa } s
  let s1 := netPut z.1 z.2
  if placeOf pa s = .gone then complete z.1 .dieAbsent 0 s1
  else if z.1.st = .answered then complete z.1 z.1.status 0 s1
  else s1

/-- Whether a request has been performed: answered, or a write that its controller has accepted (R181). -/
def Req.performed (r : Req) : Bool := decide (r.st = .answered) || (r.write && r.atom.isNone && decide (r.st = .queued))

/-- The requests sent before a request. -/
def before (r : Req) (s : State) : List Req := s.net.takeWhile fun x => decide (x.id ≠ r.id)

/-- Whether what orders a request at its source has been met: a release before it asks that the earlier writes and atomics of its source
have been performed, an acquire before it the earlier reads and atomics. -/
def gateOpen (r : Req) (s : State) : Bool :=
  (before r s).all fun x =>
    !decide (x.src = r.src) || x.performed ||
    (!(r.gate.rel && (x.write || x.atom.isSome)) && !(r.gate.acq && (!x.write || x.atom.isSome)))

/-- Whether a request stays at its source: for what orders it, or for an earlier request that is an acquire or stays there itself. -/
def heldAtSource (r : Req) (s : State) : Bool :=
  !gateOpen r s || (before r s).any fun x => decide (x.src = r.src) && ((x.gate.aq && !x.performed) || !gateOpen x s)

/-- A request held at its source leaves once nothing holds it. -/
def releaseOne (id : Nat) (s : State) : State :=
  match netGet id s with
  | some r => if decide (r.st = .held) && !heldAtSource r s then sendOn r (r.pkg * 2 ^ 52 + r.pa) s else s
  | none => s

/-- Every request held at its source looks again, in order. -/
def releaseHeld (s : State) : State :=
  if s.net.any fun r => decide (r.st = .held) then (s.net.map (·.id)).foldl (fun z i => releaseOne i z) s else s

end Sys2Proof.Machine
end

