-- ==== Sys2Proof/Machine/Bus.lean ====
section
/-!
DEFINITION. Accesses of the units of the package to any address (R32, R33, R142), each by a request under way within one line. A unit asks
again with the same tag until the answer is there.
-/

namespace Sys2Proof.Machine

/-- What an access comes to: done with its data, failed with its status, or still under way. -/
inductive Got where
  | ok (v : Nat)
  | bad (st : Status)
  | wait
  deriving DecidableEq, Repr

/-! ## Requests asked for by tag -/

/-- Whether a request is the one that a unit asked for under a tag. -/
def Req.isAsk (r : Req) (src : Src) (tag : Nat) (pa n : Nat) (write : Bool) : Bool :=
  decide (r.src = src) && decide (r.step = BitVec.ofNat 32 tag) && r.atom.isNone && decide (r.write = write) &&
  decide (r.pkg = pkgOf pa) && decide (r.pa = localOf pa) && decide (r.len = n)

/-- A read asked for: its answer once it is there. -/
def ask (src : Src) (tag : Nat) (w : Who) (pa n : Nat) (s : State) : Got × State :=
  match s.net.find? fun r => r.isAsk src tag pa n false with
  | some r =>
    if r.st = .answered then (if r.status = .ok then .ok r.rdata.toNat else .bad r.status, s) else (.wait, s)
  | none => (.wait, (post src w pa n false 0 0 none (BitVec.ofNat 32 tag) 0 s).2)

/-- A write asked for. -/
def tell (src : Src) (tag : Nat) (w : Who) (pa n mask v : Nat) (s : State) : Got × State :=
  match s.net.find? fun r => r.isAsk src tag pa n true with
  | some r =>
    if r.st = .answered then (if r.status = .ok then .ok 0 else .bad r.status, s) else (.wait, s)
  | none =>
    (.wait, (post src w pa n true (BitVec.ofNat 1024 v) (BitVec.ofNat 128 mask) none (BitVec.ofNat 32 tag) 0 s).2)

/-- The requests of a unit under a tag. -/
def asked (src : Src) (tag : Nat) (s : State) : List Req :=
  s.net.filter fun r => decide (r.src = src) && decide (r.step = BitVec.ofNat 32 tag) && r.atom.isNone

/-- The answered requests of a unit under a tag taken away. -/
def askDone (src : Src) (tag : Nat) (s : State) : State :=
  { s with net := s.net.filter fun r =>
      !(decide (r.src = src) && decide (r.step = BitVec.ofNat 32 tag) && r.atom.isNone && decide (r.st = .answered)) }

/-! ## Any address -/

/-- A read of any address by a unit, within one line: refused where nothing answers (R33). -/
def busRead (src : Src) (tag : Nat) (w : Who) (pa n : Nat) (s : State) : Got × State :=
  if placeOf pa s = .gone then (.bad .dieAbsent, s) else ask src tag w pa n s

/-- A write of any address by a unit, within one line. -/
def busWrite (src : Src) (tag : Nat) (w : Who) (pa n mask v : Nat) (s : State) : Got × State :=
  if placeOf pa s = .gone then (.bad .dieAbsent, s) else tell src tag w pa n mask v s

/-- A range cut at the lines of 128 bytes: each piece's address and length; `fuel` bounds the pieces. -/
def pieces (a n : Nat) : Nat → List (Nat × Nat)
  | 0 => []
  | f + 1 => if n = 0 then [] else let k := min n (128 - a % 128); (a, k) :: pieces (a + k) (n - k) f

/-- The pieces of a range. -/
def piecesOf (a n : Nat) : List (Nat × Nat) := pieces a n (n / 128 + 2)

/-- One more piece of a range taken into its value: a wait lasts, and failures combine by their precedence (R12). -/
def Got.add (g : Got) (off : Nat) (x : Got) : Got :=
  match g, x with
  | .wait, _ => .wait
  | _, .wait => .wait
  | .bad a, .bad b => .bad (a.join b)
  | .bad a, .ok _ => .bad a
  | .ok _, .bad b => .bad b
  | .ok v, .ok d => .ok (v + d * 256 ^ off)

/-- A read of a range by physical address. -/
def busReadRange (src : Src) (tag : Nat) (w : Who) (pa n : Nat) (s : State) : Got × State :=
  (piecesOf pa n).foldl (fun z p =>
    let r := busRead src tag w p.1 p.2 z.2
    (z.1.add (p.1 - pa) r.1, r.2)) (.ok 0, s)

/-- A write of a range by physical address. -/
def busWriteRange (src : Src) (tag : Nat) (w : Who) (pa n v : Nat) (s : State) : Got × State :=
  (piecesOf pa n).foldl (fun z p =>
    let r := busWrite src tag w p.1 p.2 (2 ^ p.2 - 1) (v / 256 ^ (p.1 - pa) % 256 ^ p.2) z.2
    (z.1.add 0 r.1, r.2)) (.ok 0, s)

end Sys2Proof.Machine
end

