-- ==== Sys2Proof/Machine/Rings.lean ====
section
/-!
DEFINITION. What other units need of the rings of the command front end (R256 to R258, R272): indices, entries of a storage queue,
and the reports that commit descriptors.
-/

namespace Sys2Proof.Machine

/-- The ring with number `n`. -/
def State.ring (s : State) (n : Nat) : Ring := sget Ring.reset s.rings n

/-- The state with ring `n` replaced. -/
def State.putRing (s : State) (n : Nat) (r : Ring) : State := { s with rings := sput Ring.reset s.rings n r }

/-- A difference of ring indices, modulo 2^32 (R256). -/
def idxDiff (a b : Nat) : Nat := (a + 2 ^ 32 - b % 2 ^ 32) % 2 ^ 32

/-- Entries of a ring. -/
def ringSize (n : Nat) (s : State) : Nat := 2 ^ getF F.CMD_RING_CFG_LOG2_SIZE 0 n s

/-- The base of a ring's array, as a local physical address. -/
def ringBase (n : Nat) (s : State) : Nat := getF F.CMD_RING_BASE_BASE 0 n s * 4096

/-- Whether a ring is an enabled storage queue of partition `p` (R216, R266). -/
def storeQueueOk (n p : Nat) (s : State) : Bool :=
  bitF F.CMD_RING_CFG_EN 0 n s && bitF F.CMD_RING_CFG_DIR 0 n s && decide (getF F.CMD_RING_CFG_PART 0 n s = p)

/-- Whether a storage queue is full (R258). -/
def storeFull (n : Nat) (s : State) : Bool :=
  decide (ringSize n s ≤ idxDiff (getF F.CMD_DB_TAIL_TAIL 0 n s) (getF F.CMD_DB_HEAD_HEAD 0 n s))

/-- The address of the entry at TAIL of a storage queue. -/
def storeEntry (n : Nat) (s : State) : Nat := ringBase n s + 64 * (getF F.CMD_DB_TAIL_TAIL 0 n s % ringSize n s)

/-- A storage request has been written: TAIL advances and the ring's interrupt is raised (R258). -/
def storeAdvance (n : Nat) (s : State) : State :=
  irq (getF F.CMD_RING_CFG_IID 0 n s)
    (setF F.CMD_DB_TAIL_TAIL 0 n ((getF F.CMD_DB_TAIL_TAIL 0 n s + 1) % 2 ^ 32) s)

/-- The CLK_MESH cycle in which an event reaches an arbiter (R272): every second cycle begins one. -/
def meshCycle (s : State) : Nat := s.cyc / 2

/-- A report that commits a descriptor is sent to its ring's arbiter (R272). -/
def sendReport (n idx : Nat) (st : Status) (detail info : Nat) (s : State) : State :=
  let r := s.ring n
  s.putRing n { r with reports := r.reports ++ [⟨idx, st, detail, info, meshCycle s⟩] }

/-- A control message leaves, flooded on every UP port (R300). -/
def flood (f : Flood) (s : State) : State :=
  let g := s.grove
  { s with grove := { g with floods := g.floods ++ [f], counter := (g.counter + 1) % 2048 } }

/-- The members of the grove that holds this package. -/
def memberList (s : State) : List Nat := (List.range 512).filter fun q => isMember q s

/-- The READY messages of a digest forgotten once its launch has started or ended. -/
def forgetReady (d : BitVec 512) (s : State) : State :=
  { s with grove := { s.grove with readys := s.grove.readys.filter fun r => decide (r.r.digest ≠ d) } }

end Sys2Proof.Machine
end

