-- ==== Sys2Proof/Machine/Halene.lean ====
section
/-!
DEFINITION. Halene ports (R284 to R294, R301, R319): laser modules, bypass pairs, training, and the link layer.
-/

namespace Sys2Proof

/-! ## The header of a flit (R290) -/

/-- `n` bytes of a flit from offset `o`, lowest first. -/
def Flit.field (f : Flit) (o n : Nat) : Nat := f.bytes.toNat / 2 ^ (8 * o) % 2 ^ (8 * n)

/-- A data flit: TYPE 1. -/
def Flit.isData (f : Flit) : Bool := decide (f.field 0 1 = 1)
/-- A CONTROL flit: TYPE 2. -/
def Flit.isControl (f : Flit) : Bool := decide (f.field 0 1 = 2)
/-- A flit without payload: TYPE 0 and every value above 2. -/
def Flit.isIdle (f : Flit) : Bool := !f.isData && !f.isControl
/-- COPY: the second copy of a CONTROL flit. -/
def Flit.copy (f : Flit) : Bool := (f.field 1 1).testBit 0
/-- REPLAY: sent again. -/
def Flit.again (f : Flit) : Bool := (f.field 1 1).testBit 1
/-- SEQ. -/
def Flit.seq (f : Flit) : Nat := f.field 2 2 % 4096
/-- ACK: the last sequence number that the far end received in order. -/
def Flit.ack (f : Flit) : Nat := f.field 4 2 % 4096
/-- NAK: the far end asks for a replay. -/
def Flit.nak (f : Flit) : Bool := (f.field 4 2).testBit 15
/-- CREDIT: receive-buffer flits freed. -/
def Flit.credit (f : Flit) : Nat := f.field 6 2
/-- CRC. -/
def Flit.crc (f : Flit) : Nat := f.field 0xC 4

/-- One bit of data enters a CRC register, whose polynomial is that of CRC-32C with its lowest term highest. -/
def crcStep (c : BitVec 32) (bit : Bool) : BitVec 32 :=
  let moved := c >>> 1
  if c.getLsbD 0 == bit then moved else moved ^^^ 0x82F63B78

/-- CRC-32C of `n` bytes of a number, byte 0 first and each byte from its lowest bit (PRESUMED, log entry 101: the spec names the code
alone). -/
def crc32c (v n : Nat) : BitVec 32 := ~~~((List.range (8 * n)).foldl (fun c i => crcStep c (v.testBit i)) (BitVec.allOnes 32))

/-- The bytes of a flit with its CRC field taken as zero. -/
def Flit.checked (f : Flit) : Nat := f.bytes.toNat - f.crc * 2 ^ (8 * 0xC)

/-- Whether a flit cannot be checked: a granule that the guard code could not correct, or a CRC mismatch (R291). -/
def Flit.bad (f : Flit) : Bool := f.uncorrectable || decide (crc32c f.checked 256 ≠ BitVec.ofNat 32 f.crc)

end Sys2Proof

namespace Sys2Proof.Machine

/-! ## Ports -/

/-- The link side of port `n`. -/
def State.port (s : State) (n : Nat) : Port := sget Port.reset s.ports n

/-- The state with the link side of port `n` replaced. -/
def State.putPort (s : State) (n : Nat) (k : Port) : State := { s with ports := sput Port.reset s.ports n k }

/-- The state of port `n` (R292): 0 OFF, 1 BYPASS, 2 TRAINING, 3 UP, 4 DOWN, 5 RETIRED. -/
def portState (n : Nat) (s : State) : Nat := getF F.HAL_PORT_STATUS_STATE n 0 s

/-- A port in a state with a cause. -/
def setPort (n st cause : Nat) (s : State) : State := setF F.HAL_PORT_STATUS_CAUSE n 0 cause (setF F.HAL_PORT_STATUS_STATE n 0 st s)

/-- Whether the bypass pair of a port is closed (R288). -/
def pairClosed (k : Nat) (s : State) : Bool := (getF F.HAL_BYPASS_CLOSED (k / 4) 0 s).testBit (k % 4)

/-- Whether laser module `m` emits (R287). -/
def laserOn (m : Nat) (s : State) : Bool :=
  bitF F.HAL_LASER_PRESENT (m / 2) (m % 2) s && bitF F.HAL_LASER_POWER_OK (m / 2) (m % 2) s && bitF F.HAL_LASER_EN (m / 2) (m % 2) s

/-- Whether the package is held in reset (R407). -/
def inReset (s : State) : Bool := s.pins.resetLow || s.pins.tripHold || !s.pins.aux

/-- Whether a port may train: enabled, out of reset, its pair open. -/
def mayTrain (n : Nat) (s : State) : Bool := bitF F.HAL_PORT_CFG_EN n 0 s && !inReset s && !pairClosed (n / 2) s

/-- A port that is no longer closed, disabled or retired begins to train; without light from its module it is DOWN with cause LASER
(R287, R292). -/
def startTrain (n : Nat) (s : State) : State :=
  if portState n s = 5 then s
  else if !bitF F.HAL_PORT_CFG_EN n 0 s || inReset s then setPort n 0 0 s
  else if pairClosed (n / 2) s then setPort n 1 0 s
  else if laserOn (n / 4) s then setPort n 2 0 s
  else setPort n 4 5 s

/-- A port taken down with a cause: nothing it held is delivered twice, and its group shrinks (R301): what is held goes out again on the
routes that remain, and requests toward a group that became empty are held for the link. -/
def portDown (n cause : Nat) (s : State) : State :=
  let was := decide (portState n s = 3)
  let s1 := (setPort n 4 cause (setF F.HAL_PORT_STATUS_TIMING n 0 0 s)).putPort n { Port.reset with errorsAt := (s.port n).errorsAt }
  if was then groupsChanged s1 else s1

/-- The four ports of a laser module (R286). -/
def laserPorts (m : Nat) : List Nat := (List.range 4).map fun i => 4 * m + i

/-- The ports of a module after its light changed: those in TRAINING or UP go DOWN with cause LASER where it emits no longer, those
DOWN with cause LASER train where it emits. -/
def laserSettle (m : Nat) (s : State) : State :=
  (laserPorts m).foldl (fun z n =>
    if laserOn m z then
      (if decide (portState n z = 4) && decide (getF F.HAL_PORT_STATUS_CAUSE n 0 z = 5) then startTrain n z else z)
    else if portState n z = 2 ∨ portState n z = 3 ∨ portState n z = 4 then portDown n 5 z else z) s

/-- A module's own readings (R319). -/
def laserRead (m : Nat) (temp mw hours : Nat) (s : State) : State :=
  let d := m / 2
  let i := m % 2
  setF F.HAL_LASER_HOURS d i hours (setF F.HAL_LASER_OPT_MW d i mw (setF F.HAL_LASER_TEMP d i temp s))

/-- LASER_EVENT (R287): over-temperature clears EN; an absent module gives no readings. -/
def laserEvent (m : Nat) (e : LaserEvent) (s : State) : State :=
  let d := m / 2
  let i := m % 2
  laserSettle m (match e with
    | .inserted t mw h => laserRead m t.toNat mw.toNat h.toNat (setF F.HAL_LASER_PRESENT d i 1 s)
    | .removed => laserRead m 0 0 0 (setF F.HAL_LASER_PRESENT d i 0 s)
    | .supplyLost => setF F.HAL_LASER_POWER_OK d i 0 s
    | .supplyGood => setF F.HAL_LASER_POWER_OK d i 1 s
    | .enabled => setF F.HAL_LASER_EN d i 1 s
    | .disabled => setF F.HAL_LASER_EN d i 0 s
    | .overTemp t => setF F.HAL_LASER_EN d i 0 (setF F.HAL_LASER_TEMP d i t.toNat s))

def execLaserEvent (m : Fin 4) (e : LaserEvent) (s : State) : Host.Outcome State Fault Refusal := .next (laserEvent m.val e s)

/-! ## Bypass pairs (R288) -/

/-- BUSY of an I/O die: a pair of it switches. -/
def bypassBusy (d : Nat) (s : State) : State :=
  setF F.HAL_BYPASS_BUSY d 0 (if s.grove.switching.any fun e => decide (e.1 / 4 = d) then 1 else 0) s

/-- Pair `k` begins to switch: the links that cross it drop. A pair that stands as asked stays. -/
def bypassSwitch (k : Nat) (close : Bool) (s : State) : State :=
  if s.grove.switching.all (fun e => decide (e.1 ≠ k)) && decide (pairClosed k s = close) then s
  else
    let g := s.grove
    let s1 := { s with grove := { g with switching := lput g.switching k close } }
    let down (n : Nat) (z : State) : State := if portState n z = 2 ∨ portState n z = 3 then portDown n 1 z else z
    bypassBusy (k / 4) (down (2 * k + 1) (down (2 * k) s1))

/-- HAL_BYPASS.CLOSE of pair `k`. -/
def execBypassClose (k : Fin 8) (s : State) : Host.Outcome State Fault Refusal := .next (bypassSwitch k.val true s)

/-- HAL_BYPASS.OPEN of pair `k`: ignored without auxiliary power or while reset is asserted. -/
def bypassOpen (k : Nat) (s : State) : State := if inReset s then s else bypassSwitch k false s

def execBypassOpen (k : Fin 8) (s : State) : Host.Outcome State Fault Refusal := .next (bypassOpen k.val s)

/-- A port whose pair has settled: BYPASS where it closed, else it trains. -/
def settlePort (n : Nat) (close : Bool) (s : State) : State :=
  if !close then startTrain n s else if portState n s = 5 ∨ portState n s = 0 then s else setPort n 1 0 s

/-- Pair `k` comes to rest closed or open. -/
def bypassAt (k : Nat) (close : Bool) (s : State) : State :=
  let g := s.grove
  let old := getF F.HAL_BYPASS_CLOSED (k / 4) 0 s
  let bit := 2 ^ (k % 4)
  let v := if close then old ||| bit else old ^^^ (old &&& bit)
  let s1 := setF F.HAL_BYPASS_CLOSED (k / 4) 0 v { s with grove := { g with switching := ldel g.switching k } }
  bypassBusy (k / 4) (settlePort (2 * k + 1) close (settlePort (2 * k) close s1))

/-- BYPASS_SWITCH_DONE. -/
def bypassDone (k : Nat) (s : State) : State :=
  match look s.grove.switching k with
  | none => s
  | some close => bypassAt k close s

def execBypassSwitchDone (k : Fin 8) (s : State) : Host.Outcome State Fault Refusal := .next (bypassDone k.val s)

/-- Every pair closes (R288, R407). -/
def closePairs (s : State) : State := (List.range 8).foldl (fun z k => bypassAt k true z) s

/-! ## Training and loss of a port (R289, R292, R293, R398) -/

/-- A port trained: UP with its delay and neighbour. -/
def portUp (n delay peer peerPort : Nat) (s : State) : State :=
  (setF F.HAL_PORT_DELAY_CYCLES n 0 delay (setF F.HAL_PORT_STATUS_PEER_PORT n 0 peerPort (setF F.HAL_PORT_STATUS_PEER n 0 peer
    (groupsChanged (setPort n 3 0 s))))).putPort n { Port.reset with errorsAt := (s.port n).errorsAt }

/-- PORT_TRAIN: the sequence of R293 runs on a port in TRAINING or DOWN that may train; a port waits for the light of its module. -/
def portTrain (n : Nat) (r : PortTrain) (s : State) : State :=
  if !(decide (portState n s = 2) || decide (portState n s = 4)) || !mayTrain n s || !laserOn (n / 4) s then s
  else match r with
    | .up delay peer peerPort => portUp n delay.toNat peer.val peerPort.val s
    | .noLight => portDown n 1 s
    | .lane => portDown n 2 s
    | .budget => portDown n 3 s
    | .peerKind => portDown n 6 s

def execPortTrain (n : PortId) (r : PortTrain) (s : State) : Host.Outcome State Fault Refusal := .next (portTrain n.val r s)

/-- One millisecond in ticks. -/
def msTicks : Nat := 25000

/-- The replays of a link counted up to the present millisecond (R293, R324): a millisecond with more than `limit` replays adds to
those in a row, any other ends the row. -/
def Port.roll (k : Port) (limit tick : Nat) : Port :=
  let now := tick / msTicks
  if k.ms = now then k
  else
    let bad := if limit < k.replays then k.badMs + 1 else 0
    { k with ms := now, replays := 0, badMs := if k.ms + 1 = now then bad else 0 }

/-- Whether a link has replayed too often in each of three milliseconds in a row. -/
def Port.tooMany (k : Port) (limit tick : Nat) : Bool :=
  let r := k.roll limit tick
  decide (3 ≤ r.badMs + (if limit < r.replays then 1 else 0))

/-- Whether a link has sent one flit eight times. -/
def Port.eightTimes (k : Port) : Bool :=
  match k.again with
  | some (_, n) => decide (8 ≤ n)
  | none => false

/-- A replay from sequence number `q` on. -/
def Port.replay (k : Port) (q limit tick : Nat) : Port :=
  let r := k.roll limit tick
  let times := match k.again with
    | some (x, n) => if x = q then n + 1 else 2
    | none => 2
  { r with replays := r.replays + 1, again := some (q, times) }

/-- A link escalation written to the log before it acts (R398). -/
def logLinkDown (n : Nat) (s : State) : State := logEvent ⟨6, 5, 12 + n / 8, 255, n, 0, 0, 255, 255⟩ s

/-- A port goes DOWN with cause ERRORS; the third time within one hour it is RETIRED. -/
def portErrors (n : Nat) (s : State) : State :=
  let hour : Nat := 90000000000
  let l := (s.tick :: (s.port n).errorsAt).filter fun t => decide (s.tick < t + hour)
  let s1 := portDown n 4 (logLinkDown n s)
  let s2 := s1.putPort n { s1.port n with errorsAt := l }
  if 3 ≤ l.length then setPort n 5 4 s2 else s2

/-- PORT_DOWN (R287, R293): the replay rules are judged by what the port has replayed. -/
def portFail (n : Nat) (why : PortFail) (s : State) : State :=
  let k := s.port n
  if portState n s ≠ 3 then s
  else match why with
    | .replays => if k.tooMany (getF F.HAL_PORT_CFG_REPLAY_LIMIT n 0 s) s.tick then portErrors n s else s
    | .eightTimes => if k.eightTimes then portErrors n s else s
    | .lane => portDown n 2 s
    | .noLight => portDown n 1 s
    | .laser => if laserOn (n / 4) s then s else portDown n 5 s

def execPortDown (n : PortId) (why : PortFail) (s : State) : Host.Outcome State Fault Refusal := .next (portFail n.val why s)

/-- HAL_PORT_CFG.RETRAIN: an UP or DOWN port goes down by command and retrains. -/
def portRetrain (n : Nat) (s : State) : State :=
  if portState n s = 3 ∨ portState n s = 4 then
    (if laserOn (n / 4) s then portDown n 7 s else portDown n 5 s)
  else s

def execRetrain (n : PortId) (s : State) : Host.Outcome State Fault Refusal := .next (portRetrain n.val s)

/-- HAL_PORT_CFG.CLEAR_RETIRED: a RETIRED port goes DOWN and retrains. -/
def clearRetired (n : Nat) (s : State) : State :=
  if portState n s ≠ 5 then s
  else
    let s1 := s.putPort n { s.port n with errorsAt := [] }
    if laserOn (n / 4) s1 then portDown n 7 s1 else portDown n 5 s1

def execClearRetired (n : PortId) (s : State) : Host.Outcome State Fault Refusal := .next (clearRetired n.val s)

/-- A write of HAL_PORT_CFG.EN takes the port OFF or lets it train (R292). -/
def portEnabled (n : Nat) (s : State) : State :=
  if bitF F.HAL_PORT_CFG_EN n 0 s then (if portState n s = 0 then startTrain n s else s)
  else if portState n s = 5 then s
  else setPort n 0 0 (portDown n 0 s)

/-! ## Flits (R290, R291, R294) -/

/-- Corrections of a flit counted at its receiver and reported (R291, R392). -/
def flitCorrect (ce : Fld) (inst : Nat) (a : ErrAt) (l : List (BitVec 16 × Fin 36)) (s : State) : State :=
  l.foldl (fun z e => ceReport a e.1.toNat e.2.val (incF ce inst 0 1 z)) s

/-- Whether a link takes a flit: the next in sequence, sent again where the link waits for a replay. -/
def Port.takes (k : Port) (seq : Nat) (again : Bool) : Bool := decide (seq = k.rxSeq) && (!k.discarding || again)

/-- A checked flit taken in order: what it acknowledges and the credit it returns are noted, and a flit with payload is delivered, a
CONTROL flit once for its two copies. -/
def flitTake (n : Nat) (f : Flit) (s : State) : State :=
  let k := s.port n
  let k1 := { k with rxSeq := (f.seq + 1) % 4096, discarding := false, nak := false, acked := f.ack,
                     credit := min 512 (k.credit + f.credit), lastCtl := if f.isControl then some f.seq else none }
  let second := f.copy && decide (k.lastCtl = some ((f.seq + 4095) % 4096))
  let s1 := s.putPort n k1
  if f.isIdle || second then s1 else incF F.HAL_PORT_RX_COUNT n 0 1 s1

/-- FLIT_RECEIVE: a flit that cannot be checked is discarded with every later one until the replay, and NAK is sent. -/
def flitReceive (n : Nat) (f : Flit) (s : State) : State :=
  if portState n s ≠ 3 then s
  else
    let s1 := flitCorrect F.HAL_PORT_CE_COUNT n ⟨5, 12 + n / 8, n, 0⟩ f.corrected s
    let k := s1.port n
    if f.bad then incF F.HAL_PORT_BAD_COUNT n 0 1 (s1.putPort n { k with discarding := true, nak := true })
    else if k.takes f.seq f.again then flitTake n f s1
    else s1

def execFlitReceive (n : PortId) (f : Flit) (s : State) : Host.Outcome State Fault Refusal := .next (flitReceive n.val f s)

/-- Whether some message of this package is held until it is acknowledged, or waits for room. -/
def messagesHeld (s : State) : Bool := s.grove.tx.any fun e => !e.held.isEmpty || !e.waiting.isEmpty

/-- What a port has sent and held in a tick (R7, R290, R294): its counters gain free numbers, at most one flit of 256 bytes in each 1.28 ns
and at most 32 mesh cycles (DESIGN CHOICE, log entry 41: the model packs no messages into flits). -/
def portCounts (n : Nat) (s : State) : State :=
  if portState n s ≠ 3 then s
  else
    let a := s.takeFree
    let s1 := incF F.HAL_PORT_TX_COUNT n 0 (a.1.toNat % 33) a.2
    if !messagesHeld s then s1
    else let b := s1.takeFree; incF F.HAL_PORT_HOLD_COUNT n 0 (b.1.toNat % 33) b.2

/-- Requests whose messages travel over a port are late by a replay of it (R294). -/
def replayMark (n : Nat) (s : State) : State :=
  s.grove.tx.foldl (fun z e => if (routeGroup e.dst z)[e.chan]? = some n then markLink (e.held.map Prod.snd) z else z) s

/-- FLIT_REPLAY: the sender resends up to the 1,024 flits of its replay buffer from the first not acknowledged; a port that has replayed too
often goes DOWN (R293). -/
def flitReplay (n q count : Nat) (s : State) : State :=
  if portState n s ≠ 3 then s
  else
    let limit := getF F.HAL_PORT_CFG_REPLAY_LIMIT n 0 s
    let k := (s.port n).replay q limit s.tick
    let s1 := incF F.HAL_PORT_TX_COUNT n 0 (min 1024 count) (incF F.HAL_PORT_REPLAY_COUNT n 0 1 (replayMark n (s.putPort n k)))
    if k.eightTimes || k.tooMany limit s.tick then portErrors n s1 else s1

def execFlitReplay (n : PortId) (start : BitVec 12) (count : Nat) (s : State) : Host.Outcome State Fault Refusal :=
  .next (flitReplay n.val start.toNat count s)

end Sys2Proof.Machine
end

