-- ==== Sys2Proof/Machine/Bedc.lean ====
section
/-!
DEFINITION. The bed cache (R125 to R140): lookups, fills, replacement, the side buffer, the victim cache, the merging buffer and
flash invalidation.
-/

namespace Sys2Proof.Machine

/-! ## Replacement (R126, R129) -/

/-- The set of a line number. -/
def setOf (line : Nat) : Nat := (line % 1024) ^^^ (line / 1024 % 1024)

/-- The way that the tree selects. -/
def plruVictim (plru : Nat) : Nat :=
  let b (n : Nat) : Nat := if plru.testBit n then 1 else 0
  let n1 := 1 + b 0
  let n2 := 2 * n1 + 1 + b n1
  let n3 := 2 * n2 + 1 + b n2
  2 * (n3 - 7) + b n3

/-- The tree after a hit or fill of way `w`. -/
def plruTouch (plru w : Nat) : Nat :=
  let put (p n : Nat) (v : Bool) : Nat := if v then p ||| 2 ^ n else (p ||| 2 ^ n) ^^^ 2 ^ n
  let d3 := w.testBit 3
  let d2 := w.testBit 2
  let d1 := w.testBit 1
  let d0 := w.testBit 0
  let n1 := 1 + (if d3 then 1 else 0)
  let n2 := 2 * n1 + 1 + (if d2 then 1 else 0)
  let n3 := 2 * n2 + 1 + (if d1 then 1 else 0)
  put (put (put (put plru 0 (!d3)) n1 (!d2)) n2 (!d1)) n3 (!d0)

/-- An empty set. -/
def CacheSet.empty : CacheSet := ⟨0, []⟩

/-- A set of a bed cache. -/
def Bed.set (k : Bed) (n : Nat) : CacheSet := sget CacheSet.empty k.cache n

/-- A bed cache with a set replaced. -/
def Bed.putSet (k : Bed) (n : Nat) (c : CacheSet) : Bed := { k with cache := sput CacheSet.empty k.cache n c }

/-- The way and line of a set that hold line `line`. -/
def CacheSet.find (c : CacheSet) (line : Nat) : Option (Nat × Line) := c.ways.find? fun w => decide (w.2.line = line)

/-- The way for a line to be installed: the lowest invalid way, else the victim (R129). -/
def CacheSet.wayFor (c : CacheSet) : Nat :=
  match (List.range 16).find? fun w => (look c.ways w).isNone with
  | some w => w
  | none => plruVictim c.plru

/-- A line installed in the cache, and the line that it displaces. -/
def Bed.install (k : Bed) (l : Line) : Bed × Option Line :=
  let n := setOf l.line
  let c := k.set n
  let w := c.wayFor
  (k.putSet n ⟨plruTouch c.plru w, lput c.ways w l⟩, look c.ways w)

/-- The evicted line enters the victim cache, FIFO, while it is enabled (R131). -/
def Bed.evict (k : Bed) (on : Bool) (l : Option Line) : Bed :=
  match l with
  | none => k
  | some x => if on then { k with victim := (if k.victim.length < 16 then k.victim else k.victim.drop 1) ++ [x] } else k

/-- Whether VICTIM_EN is 1. -/
def victimOn (b : Nat) (s : State) : Bool := bitF F.BEDC_CTRL_VICTIM_EN b 0 s

/-- A line installed with its eviction. -/
def installLine (b : Nat) (l : Line) (s : State) : State :=
  let r := (s.bed b).install l
  s.putBed b (r.1.evict (victimOn b s) r.2)

/-! ## Lookup (R127, R130, R131) -/

/-- The bytes of a line with those replaced that a mask selects. -/
def overlay (mask : BitVec 128) (new old : BitVec 1024) : BitVec 1024 :=
  BitVec.ofNat 1024 (mixBytes 128 mask.toNat new.toNat old.toNat)

/-- The bytes that the bed has written to a line and that are not acknowledged, the oldest first: those of the merging buffer, then those
of the writes that wait for it (R127, R149), each with its mask. -/
def Bed.writesOf (k : Bed) (line : Nat) : List (BitVec 128 × BitVec 1024) :=
  ((k.merge.filter fun e => decide (e.line = line)).map fun e => (e.mask, e.data)) ++
  ((k.mergeWait.filter fun w => decide (w.pa.toNat / 128 = line)).map fun w => (w.mask, w.data))

/-- A line's bytes with those that the bed has written (R127, R149). -/
def Bed.merged (k : Bed) (line : Nat) (d : BitVec 1024) : BitVec 1024 :=
  (k.writesOf line).foldl (fun z e => overlay e.1 e.2 z) d

/-- A lookup that hits: the line's bytes, with the line where the hit leaves it (R127, R130, R131). -/
def cacheHit (b line : Nat) (s : State) : Option (BitVec 1024 × State) :=
  let k := s.bed b
  let n := setOf line
  match (k.set n).find line with
  | some (w, l) =>
    some (l.data, incF F.BEDC_HIT_COUNT b 0 1
      (s.putBed b (k.putSet n { k.set n with plru := plruTouch (k.set n).plru w })))
  | none =>
    match k.side.find? fun l => decide (l.line = line) with
    | some l =>
      some (l.data, installLine b l (incF F.BEDC_PF_HIT_COUNT b 0 1
        (s.putBed b { k with side := k.side.filter fun x => decide (x.line ≠ line) })))
    | none =>
      match k.victim.find? fun l => decide (l.line = line) with
      | some l =>
        let r := k.install l
        let vic := match r.2 with
          | some o => k.victim.map fun x => if x.line = line then o else x
          | none => k.victim.filter fun x => decide (x.line ≠ line)
        let vic1 := if victimOn b s then vic else k.victim.filter fun x => decide (x.line ≠ line)
        some (l.data, incF F.BEDC_VICTIM_HIT_COUNT b 0 1 (s.putBed b { r.1 with victim := vic1 }))
      | none => none

/-- Whether the cache, the side buffer or the victim cache holds a line. -/
def Bed.holds (k : Bed) (line : Nat) : Bool :=
  ((k.set (setOf line)).find line).isSome || k.side.any (fun l => decide (l.line = line)) ||
  k.victim.any (fun l => decide (l.line = line))

/-- Bytes of a line as 128-byte data. -/
def lineBits (n : Nat) : BitVec 1024 := BitVec.ofNat 1024 n

/-- A fill sent to DRAM by the requester `src` (R142), with the bytes that the bed has written to its line. -/
def sendFill (b line : Nat) (pol : Policy) (prefetch : Bool) (src : Src) (waiters : List Nat) (s : State) : State :=
  let (id, s1) := post src (partWho (s.bed b).part) (line * 128) 128 false 0 0 none (BitVec.allOnes 32) 0 s
  let k := s1.bed b
  let w := k.writesOf line
  incF F.BEDC_MISS_COUNT b 0 1 (s1.putBed b { k with
    fills := k.fills ++ [⟨id, line, pol, prefetch, decide (pol ≠ .uncached), waiters,
      w.foldl (fun z e => z ||| e.1) 0, w.foldl (fun z e => overlay e.1 e.2 z) 0⟩] })

/-- A line, or a status, delivered to the requester number `id`: to its request where it waits in the bed cache, else by a response. -/
def deliverLine (st : Status) (d : BitVec 1024) (s : State) (id : Nat) : State :=
  match netGet id s with
  | some r => if r.st = .cached then complete r st d s else respond id st d s
  | none => respond id st d s

/-- The fill in flight that a request joins: one of its line that is still to be installed (R127, R134, R137). -/
def Bed.joinable (k : Bed) (line : Nat) : Option Fill := k.fills.find? fun f => decide (f.line = line) && f.install

/-- A lookup by the barrow or the bed sequencer of a line of stacked DRAM (R125, R127): a hit is delivered with the bytes that the bed has
written; a miss joins the fill in flight, or sends one; with 4,096 fills in flight it waits. -/
def bedcLookup (b id line : Nat) (src : Src) (pol : Policy) (s : State) : State :=
  let k := s.bed b
  if !isDram (line * 128) then s
  else match (if pol = .uncached then none else cacheHit b line s) with
  | some (d, s1) => deliverLine .ok (k.merged line d) s1 id
  | none =>
    match (if pol = .uncached then none else k.joinable line) with
    | some f => s.putBed b { k with fills := k.fills.map fun x =>
        if x.id = f.id then { x with waiters := x.waiters ++ [id] } else x }
    | none => if k.fills.length < 4096 then sendFill b line pol false src [id] s else s

def execBedcLookup (b : BedId) (id : Nat) (pa : BitVec 61) (f : LookF) (s : State) :
    Host.Outcome State Fault Refusal :=
  .next (bedcLookup b id (pa.toNat / 128) (if f.bsq then .bsq b else .brw b) f.pol s)

/-- A line taken into the side buffer, FIFO (R130): with 64 lines held the oldest is pushed out unused. -/
def sidePush (b : Nat) (l : Line) (s : State) : State :=
  let k := s.bed b
  if k.side.length < 64 then s.putBed b { k with side := k.side ++ [l] }
  else incF F.BEDC_PF_WASTED_COUNT b 0 1 (s.putBed b { k with side := k.side.drop 1 ++ [l] })

/-- What a returned fill leaves in the bed: a prefetch that a requester has joined is used at once (R130). -/
def landFill (b : Nat) (f : Fill) (d : BitVec 1024) (s : State) : State :=
  let l : Line := ⟨f.line, decide (f.pol = .shared), d⟩
  if !f.install || (s.bed b).holds f.line then s
  else if f.prefetch && f.waiters.isEmpty then sidePush b l s
  else if f.prefetch then incF F.BEDC_PF_HIT_COUNT b 0 1 (installLine b l s)
  else installLine b l s

/-- A fill's answer arrives (R128): its waiters are served, and the line is installed; a failed fill delivers its status. -/
def fillReturn (b id : Nat) (s : State) : State :=
  let k := s.bed b
  match k.fills.find? fun f => decide (f.id = id) with
  | none => s
  | some f =>
    match netGet id s with
    | none => s
    | some r =>
      if r.st ≠ .answered then s
      else
        let s1 := netDel id (s.putBed b { k with fills := k.fills.filter fun x => decide (x.id ≠ id) })
        let d := overlay f.pmask f.pdata r.rdata
        let s2 := f.waiters.foldl (deliverLine r.status (if r.status = .ok then d else 0)) s1
        if r.status = .ok then landFill b f d s2 else s2

def execBedcFillReturn (b : BedId) (id : Nat) (s : State) : Host.Outcome State Fault Refusal := .next (fillReturn b id s)

/-- A prefetch of a line of stacked DRAM (R130). With 4,096 fills in flight it is dropped (DESIGN CHOICE, log entry 97: R130 does not
say). -/
def bedcPrefetch (b line : Nat) (src : Src) (pol : Policy) (s : State) : State :=
  let k := s.bed b
  if !isDram (line * 128) || decide (pol = .uncached) || k.holds line || k.fills.any (fun f => decide (f.line = line)) ||
      !(k.writesOf line).isEmpty || !bitF F.BEDC_CTRL_PF_EN b 0 s || decide (4096 ≤ k.fills.length)
    then s
  else sendFill b line pol true src [] s

def execBedcPrefetch (b : BedId) (pa : BitVec 61) (pol : Policy) (s : State) : Host.Outcome State Fault Refusal :=
  .next (bedcPrefetch b (pa.toNat / 128) (.brw b) pol s)

/-! ## Lines asked for by a unit of the bed -/

/-- A request of a unit of bed `b` that waits in its bed cache, or in its merging buffer. -/
def postBed (src : Src) (p pa n : Nat) (write : Bool) (tag : Nat) (s : State) : Nat × State :=
  let (id, s1) := s.takeId
  (id, { s1 with net := s1.net ++ [⟨id, src, partWho p, pkgOf pa, localOf pa, n, write, 0, 0, none, BitVec.ofNat 32 tag, 0, .cached, .ok, 0, s.tick,
    false, false, false, none, false, 0, [], false, ⟨false, false, false⟩⟩] })

/-- A request that waits in the bed cache for want of room among its fills looks its line up again. -/
def lookAgain (b id line : Nat) (src : Src) (pol : Policy) (s : State) : State :=
  match netGet id s with
  | some r => if decide (r.st = .cached) && !(s.bed b).fills.any (fun f => f.waiters.contains id) then bedcLookup b id line src pol s else s
  | none => s

/-- A line of stacked DRAM read for a unit of the bed: the number of its request. -/
def readLine (src : Src) (b tag p line : Nat) (pol : Policy) (s : State) : Nat × State :=
  let z := postBed src p (line * 128) 128 false tag s
  (z.1, bedcLookup b z.1 line src pol z.2)

/-- What a request has come to. -/
def gotOf (id : Nat) (s : State) : Got :=
  match netGet id s with
  | some r => if r.st = .answered then (if r.status = .ok then .ok r.rdata.toNat else .bad r.status) else .wait
  | none => .wait

/-- A whole line of DRAM asked for by tag through the bed cache (R125, R127, R128). -/
def askLine (src : Src) (b tag p line : Nat) (pol : Policy) (s : State) : Got × State :=
  match s.net.find? fun r => r.isAsk src tag (line * 128) 128 false with
  | some r => let s1 := lookAgain b r.id line src pol s; (gotOf r.id s1, s1)
  | none => let z := readLine src b tag p line pol s; (gotOf z.1 z.2, z.2)

/-! ## The merging buffer (R132, R133) -/

/-- The merging destination of a line: its stack, or 24 and the number of a remote package (R132). A local line in no region has
a destination of its own. -/
def mergeDest (line : Nat) (s : State) : Nat :=
  let pkg := pkgOf (line * 128)
  if isLocal pkg s then
    match homeOf (localOf (line * 128)) s with
    | some h => h.stack
    | none => 24
  else 24 + pkg

/-- A held copy of a line updated in place (R132). -/
def Line.patch (l : Line) (line : Nat) (mask : BitVec 128) (d : BitVec 1024) : Line :=
  if l.line = line then { l with data := overlay mask d l.data } else l

/-- Every copy of a line in a bed updated in place, and the fills of it in flight. -/
def Bed.patch (k : Bed) (line : Nat) (mask : BitVec 128) (d : BitVec 1024) : Bed :=
  let n := setOf line
  let c := k.set n
  { k.putSet n { c with ways := c.ways.map fun w => (w.1, w.2.patch line mask d) } with
    side := k.side.map fun l => l.patch line mask d, victim := k.victim.map fun l => l.patch line mask d,
    fills := k.fills.map fun f =>
      if f.line = line then { f with pmask := f.pmask ||| mask, pdata := overlay mask d f.pdata } else f }

/-- The entry that a write merges into: the same line, not sent, written with a policy that merges, and no entry allocated after
it for the same destination. -/
def mergeTarget (l : List Merge) (line dest : Nat) : Option Nat :=
  match (l.filter fun e => decide (e.dest = dest)).getLast? with
  | some e => if e.line = line ∧ !e.sent ∧ !e.never then some e.id else none
  | none => none

/-- One entry is sent to DRAM as one masked write, under its own number. -/
def sendMerge (b : Nat) (e : Merge) (s : State) : State :=
  let s1 := postAs e.id (.bed b) (partWho e.part.val) (e.line * 128) 128 true e.data e.mask none 0 0 s
  let k := s1.bed b
  incF F.BEDC_DRAINED_COUNT b 0 1
    (s1.putBed b { k with merge := k.merge.map fun x => if x.id = e.id then { x with sent := true } else x })

/-- The entries that `p` selects drain, each after the older entries of its destination (R133). -/
def drainMerge (b : Nat) (p : Merge → Bool) (s : State) : State :=
  let l := (s.bed b).merge
  let rec go (fuel : List Merge) (s : State) : State :=
    match fuel with
    | [] => s
    | e :: r =>
      go r (if !e.sent && (p e || r.any fun x => decide (x.dest = e.dest) && !x.sent && p x) then sendMerge b e s else s)
  go l s

/-- With 24 or more entries occupied, the oldest that has not drained drains (R133). -/
def drainHigh (b : Nat) (s : State) : State :=
  let k := s.bed b
  if k.merge.length < 24 then s
  else match k.merge.find? fun e => !e.sent with
    | some e => drainMerge b (fun x => decide (x.id = e.id)) s
    | none => s

/-- A write takes its place in the merging buffer, which has room for it: merged, or in a new entry (R132). -/
def mergeEnter (b : Nat) (w : BedWrite) (s : State) : State :=
  let line := w.pa.toNat / 128
  let dest := mergeDest line s
  let k := s.bed b
  let cyc := s.cyc
  let tgt := if bitF F.BEDC_CTRL_MERGE_EN b 0 s && decide (w.pol ≠ .uncached) then mergeTarget k.merge line dest else none
  match tgt with
  | some i =>
    let one (e : Merge) : Merge :=
      if e.id = i then
        let l := if e.owners.contains w.owner then e.owners else e.owners ++ [w.owner]
        { e with mask := e.mask ||| w.mask, data := overlay w.mask w.data e.data, touched := cyc, owners := l }
      else e
    incF F.BEDC_MERGED_COUNT b 0 1 (s.putBed b { k with merge := k.merge.map one })
  | none =>
    let (id, s1) := s.takeId
    drainHigh b (s1.putBed b { k with merge := k.merge ++
      [⟨id, line, w.mask, w.data, dest, decide (w.pol = .uncached), cyc, false, w.part, [w.owner]⟩] })

/-- A write of a requester of the bed (R132, R133): every copy of its line is updated, and it enters the buffer; with 32 entries occupied
and none to merge into it waits. -/
def mergeWrite (b : Nat) (w : BedWrite) (s0 : State) : State :=
  let line := w.pa.toNat / 128
  let s := s0.putBed b ((s0.bed b).patch line w.mask w.data)
  let k := s.bed b
  let fits := decide (k.merge.length < 32) || (bitF F.BEDC_CTRL_MERGE_EN b 0 s && decide (w.pol ≠ .uncached) &&
    (mergeTarget k.merge line (mergeDest line s)).isSome)
  if k.mergeWait.isEmpty && fits then mergeEnter b w s
  else s.putBed b { k with mergeWait := k.mergeWait ++ [w] }

def execMergeWrite (b : BedId) (w : BedWrite) (s : State) : Host.Outcome State Fault Refusal := .next (mergeWrite b w s)

/-- Entries not written for MERGE_IDLE cycles drain (R133). -/
def mergeIdle (b : Nat) (s : State) : State :=
  drainMerge b (fun e => decide (e.touched + getF F.BEDC_CTRL_MERGE_IDLE b 0 s ≤ s.cyc)) s

def execMergeIdleExpiry (b : BedId) (s : State) : Host.Outcome State Fault Refusal := .next (mergeIdle b s)

/-- The first waiting write enters once an entry is free. -/
def mergeNext (b : Nat) (s : State) : State :=
  let k := s.bed b
  match k.mergeWait with
  | [] => s
  | w :: r => if k.merge.length < 32 then mergeEnter b w (s.putBed b { k with mergeWait := r }) else s

/-- A write of a requester of the bed is acknowledged (R133): to its request where it is one under way; the failure of any other ends the
launch of the partition that made it (R168). -/
def ackOwner (b : Nat) (part : Nat) (st : Status) (s : State) (id : Nat) : State :=
  match netGet id s with
  | some r => if r.st = .cached then complete r st 0 s else s
  | none => if st = .ok ∨ st = .completed then s else failLaunchAt b part st s

/-- A drained entry is acknowledged (R133): it frees, and the writes that it holds are acknowledged with its status. -/
def mergeAck (b id : Nat) (s : State) : State :=
  let k := s.bed b
  match netGet id s, k.merge.find? fun e => decide (e.id = id) && e.sent with
  | some r, some e =>
    if r.st ≠ .answered then s
    else
      let s1 := netDel id (s.putBed b { k with merge := k.merge.filter fun x => decide (x.id ≠ id) })
      mergeNext b (e.owners.foldl (ackOwner b e.part.val r.status) s1)
  | _, _ => s

def execMergeAck (b : BedId) (id : Nat) (s : State) : Host.Outcome State Fault Refusal := .next (mergeAck b id s)

/-- A write of a line of stacked DRAM by a unit of the bed, through the merging buffer (R132): the number of its request. -/
def writeLine (src : Src) (b tag p pa n mask v : Nat) (pol : Policy) (s : State) : Nat × State :=
  let z := postBed src p pa n true tag s
  let o := pa % 128
  (z.1, mergeWrite b ⟨z.1, BitVec.ofNat 61 pa, BitVec.ofNat 128 (mask * 2 ^ o), BitVec.ofNat 1024 (v * 256 ^ o), pol, Fin.ofNat 32 p, z.1⟩ z.2)

/-- A write of a line of stacked DRAM told by tag; while it waits its entry drains. -/
def tellLine (src : Src) (b tag p pa n mask v : Nat) (pol : Policy) (s : State) : Got × State :=
  match s.net.find? fun r => r.isAsk src tag pa n true with
  | some r => (gotOf r.id s, s)
  | none => let z := writeLine src b tag p pa n mask v pol s; (gotOf z.1 z.2, drainMerge b (fun e => e.owners.contains z.1) z.2)

/-- Whether every write and atomic of bed `b` with a number below `n` has been performed (R151): its requests, and the entries of its
merging buffer. A write is performed once its controller has accepted it. -/
def bedPerformed (b n : Nat) (s : State) : Bool :=
  let k := s.bed b
  !(s.net.any fun r => (decide (r.src = .bed b) || decide (r.src = .brw b)) && (r.write || r.atom.isSome) && decide (r.id < n) &&
    decide (r.st ≠ .answered) && decide (r.st ≠ .queued) && decide (r.st ≠ .cached)) &&
  !(k.merge.any fun e => (decide (e.id < n) || e.owners.any fun i => decide (i < n)) && !e.sent) &&
  !(k.mergeWait.any fun w => decide (w.owner < n))

/-! ## Invalidation (R134, R140) -/

/-- A set without the lines that `p` selects. -/
def CacheSet.drop (c : CacheSet) (p : Line → Bool) : CacheSet := { c with ways := c.ways.filter fun w => !p w.2 }

/-- Flash invalidation of SHARED lines (R134); a SHARED fill in flight is delivered and not installed. -/
def invShared (b : Nat) (s : State) : State :=
  let k := s.bed b
  incF F.BEDC_FLASH_INV_COUNT b 0 1 (s.putBed b { k with
    cache := smap CacheSet.empty (fun _ c => c.drop (·.shared)) k.cache,
    side := k.side.filter fun l => !l.shared, victim := k.victim.filter fun l => !l.shared,
    fills := k.fills.map fun f => if f.pol = .shared then { f with install := false } else f })

def execInvShared (b : BedId) (s : State) : Host.Outcome State Fault Refusal := .next (invShared b s)

/-- Every line invalidated and every tree reset. -/
def invAll (b : Nat) (s : State) : State :=
  s.putBed b { s.bed b with cache := [], side := [], victim := [] }

def execInvAll (b : BedId) (s : State) : Host.Outcome State Fault Refusal := .next (invAll b s)

/-- BEDC_CMD.DRAIN (R140): every entry drains; the action is in progress until all of them are written. -/
def drainAll (b : Nat) (s : State) : State :=
  let s1 := drainMerge b (fun _ => true) s
  s1.putBed b { s1.bed b with draining := (s1.bed b).merge.map (·.id) }

def execDrain (b : BedId) (s : State) : Host.Outcome State Fault Refusal := .next (drainAll b s)

/-- A line invalidated wherever the bed holds it; a fill of it in flight is not installed (R137). -/
def invLine (b line : Nat) (s : State) : State :=
  let k := s.bed b
  let n := setOf line
  s.putBed b { k.putSet n ((k.set n).drop fun l => decide (l.line = line)) with
    side := k.side.filter fun l => decide (l.line ≠ line), victim := k.victim.filter fun l => decide (l.line ≠ line),
    fills := k.fills.map fun f => if f.line = line then { f with install := false } else f }

/-! ## Views (R140) -/

/-- BEDC_STATUS (R140). -/
def viewBedcStatus (b : Nat) (s : State) : BitVec 64 :=
  let k := s.bed b
  let busy := k.merge.any fun e => k.draining.contains e.id
  F.BEDC_STATUS_BUSY.put (F.BEDC_STATUS_VICTIM_OCC.put (F.BEDC_STATUS_PF_OCC.put (F.BEDC_STATUS_MERGE_OCC.put
    (readReg .BEDC_STATUS b 0 s) k.merge.length) k.side.length) k.victim.length) (if busy then 1 else 0)

/-- BEDC_PROBE_DATA (R140): the set that BEDC_PROBE names. -/
def viewBedcProbe (b : Nat) (s : State) : BitVec 64 :=
  let c := (s.bed b).set (getF F.BEDC_PROBE_SET b 0 s)
  let bits (p : Line → Bool) : Nat := c.ways.foldl (fun z w => if p w.2 then z ||| 2 ^ w.1 else z) 0
  F.BEDC_PROBE_DATA_SHARED.put (F.BEDC_PROBE_DATA_VALID.put (F.BEDC_PROBE_DATA_PLRU.put 0 c.plru) (bits fun _ => true))
    (bits (·.shared))

end Sys2Proof.Machine
end

