-- ==== Sys2Proof/Machine/Xlt.lean ====
section
/-!
DEFINITION. Address translation (R230 to R239, R246 to R248): the caches on the way, the walk, permissions, and fault records.
-/

namespace Sys2Proof.Machine

/-! ## Tree pseudo-LRU of any depth (R129, R237) -/

/-- The node reached from node `n` by following the tree `lv` levels down. -/
def treeWalk (plru : Nat) : Nat → Nat → Nat
  | 0, n => n
  | lv + 1, n => treeWalk plru lv (2 * n + 1 + (if plru.testBit n then 1 else 0))

/-- The way that a tree of `lv` levels selects. -/
def treeVictim (lv plru : Nat) : Nat := treeWalk plru lv 0 - (2 ^ lv - 1)

/-- The tree with the nodes above way `w` pointing away from it, from node `n` with `lv` levels to go. -/
def treePoint (plru w : Nat) : Nat → Nat → Nat
  | 0, _ => plru
  | lv + 1, n =>
    let d := w.testBit lv
    let p := treePoint plru w lv (2 * n + 1 + (if d then 1 else 0))
    if d then (p ||| 2 ^ n) ^^^ 2 ^ n else p ||| 2 ^ n

/-- The tree after a hit or fill of way `w`. -/
def treeTouch (lv plru w : Nat) : Nat := treePoint plru w lv 0

/-! ## Cached translations (R237) -/

/-- The bits of an address below a leaf of a level: 4 TiB, 512 MiB, 64 KiB (R232). -/
def leafShift (level : Nat) : Nat := if level = 0 then 42 else if level = 1 then 29 else 16

/-- The significant bits of a virtual address (R232). -/
def vaOf (va : Nat) : Nat := va % 2 ^ 55

/-- Whether an entry translates an address of a context. -/
def Tlb.hits (t : Tlb) (ctx va : Nat) : Bool := decide (t.ctx = ctx) && decide (t.vpn = vaOf va / 2 ^ leafShift t.level)

/-- The physical address that an entry gives. -/
def Tlb.phys (t : Tlb) (va : Nat) : Nat := t.pa + vaOf va % 2 ^ leafShift t.level

/-- The hit of a set, with its way. -/
def TlbSet.find (c : TlbSet) (ctx va : Nat) : Option (Nat × Tlb) := c.ways.find? fun w => w.2.hits ctx va

/-- A set after a hit of way `w`. -/
def TlbSet.touch (c : TlbSet) (lv w : Nat) : TlbSet := { c with plru := treeTouch lv c.plru w }

/-- A set with an entry filled in: the lowest invalid way, else the one the tree selects. -/
def TlbSet.fill (c : TlbSet) (lv : Nat) (t : Tlb) : TlbSet :=
  let w := match c.ways.find? fun x => decide (x.2.ctx = t.ctx) && decide (x.2.vpn = t.vpn) && decide (x.2.level = t.level) with
    | some x => x.1
    | none =>
      match (List.range (2 ^ lv)).find? fun w => (look c.ways w).isNone with
      | some w => w
      | none => treeVictim lv c.plru
  ⟨treeTouch lv c.plru w, lput c.ways w t⟩

/-- No translation. -/
def TlbSet.empty : TlbSet := ⟨0, []⟩

/-- The set number of a translation in a cache of 2^b sets: the VA bits just above its leaf size. -/
def tlbSetOf (b level va : Nat) : Nat := vaOf va / 2 ^ leafShift level % 2 ^ b

/-- A lookup in a set-associative cache: each leaf size is probed in its own set. -/
def probe (l : List (Nat × TlbSet)) (base b lv ctx va : Nat) : Option (Tlb × List (Nat × TlbSet)) :=
  (List.range 3).findSome? fun level =>
    let n := base + tlbSetOf b level va
    let c := sget TlbSet.empty l n
    match c.find ctx va with
    | some (w, t) => if t.level = level then some (t, sput TlbSet.empty l n (c.touch lv w)) else none
    | none => none

/-- A fill of a set-associative cache. -/
def fillTlb (l : List (Nat × TlbSet)) (base b lv : Nat) (t : Tlb) : List (Nat × TlbSet) :=
  let n := base + t.vpn % 2 ^ b
  sput TlbSet.empty l n ((sget TlbSet.empty l n).fill lv t)

/-! ## The walk (R234) -/

/-- A table entry's policy (R233). -/
def polOf (n : Nat) : Policy :=
  match n with
  | 0 => .stable | 1 => .shared | _ => .uncached

/-- The leaf that a table entry gives at a level (R233). -/
def leafOf (ctx va level e : Nat) : Tlb :=
  let sh := leafShift level
  ⟨ctx, vaOf va / 2 ^ sh, level, e / 2 ^ 16 % 2 ^ 45 * 2 ^ 16 / 2 ^ sh * 2 ^ sh, e.testBit 2, e.testBit 3, e.testBit 4,
    polOf (e / 2 ^ 5 % 4)⟩

/-- The entry of a table at `level` for an address. -/
def entryAddr (table level va : Nat) : Nat := table + 8 * (vaOf va / 2 ^ leafShift level % 8192)

/-- What an entry read at a level leads to: the end of the walk, or the next table with its walk-cache entry (R234). -/
def entryLeads (ctx va level e : Nat) : Sum WalkRes WalkEnt :=
  if !e.testBit 0 then .inl (.fault (level + 1))
  else if level = 2 || e.testBit 1 then .inl (.leaf (leafOf ctx va level e))
  else .inr ⟨ctx, level + 1, vaOf va / 2 ^ leafShift level, e / 2 ^ 16 % 2 ^ 45 * 2 ^ 16⟩

/-- Where a walk of a context begins: the deepest non-leaf entry that the walk cache holds, or the root: the level and the table (R234,
R237). -/
def walkFrom (ctx va : Nat) (s : State) : Nat × Nat :=
  let at0 (lv : Nat) : Option WalkEnt :=
    s.walkc.find? fun e => decide (e.ctx = ctx) && decide (e.level = lv) && decide (e.vpn = vaOf va / 2 ^ leafShift (lv - 1))
  match at0 2, at0 1 with
  | some e, _ => (2, e.next)
  | none, some e => (1, e.next)
  | none, none => (0, getF F.XLT_CTX_ROOT_ROOT 0 ctx s * 2 ^ 16)

/-- An entry asked for by the IOMMU, like any other read of it (R238): refused where the table is not of this package (R234). The IOMMU is
on the processor die, and does not answer while that is fenced (R341). -/
def readEntry (table level va : Nat) (s : State) : WalkAt × State :=
  let pa := entryAddr table level va
  if getF F.MGT_DIE_INFO_STATE 14 0 s = 1 then (.ended (.lost .dieAbsent), s)
  else if !isLocal (pkgOf table) s then (.ended (.fault 7), s)
  else if placeOf pa s = .gone then (.ended (.fault 7), s)
  else let r := post .iommu hostWho pa 8 false 0 0 none (BitVec.allOnes 32) 0 s; (.read r.1, r.2)

/-- A walk begins (R234, R237). -/
def Walk.begin (k : Walk) (s : State) : Walk × State :=
  let f := walkFrom k.ctx k.va s
  let r := readEntry f.2 f.1 k.va (incF F.XLT_WALKS_COUNT 0 0 1 s)
  ({ k with now := r.1, level := f.1, path := [], stale := false }, r.2)

/-- A walk whose entry has been answered goes on (R234): a table that answers DIE_ABSENT is a bad one, an uncorrectable one loses the
walk. -/
def Walk.advance (k : Walk) (r : Req) (s : State) : Walk × State :=
  let s1 := netDel r.id s
  if r.status = .dataLost then ({ k with now := .ended (.lost .dataLost) }, s1)
  else if r.status ≠ .ok then ({ k with now := .ended (.fault 7) }, s1)
  else match entryLeads k.ctx k.va k.level (r.rdata.toNat % 2 ^ 64) with
    | .inl e => ({ k with now := .ended e }, s1)
    | .inr w =>
      let z := readEntry w.next w.level k.va s1
      ({ k with now := z.1, level := w.level, path := k.path ++ [w] }, z.2)

/-- Non-leaf entries taken into the walk cache of 4,096; the oldest leave it (DESIGN CHOICE, log entry 14). -/
def cacheWalk (l : List WalkEnt) (s : State) : State :=
  { s with walkc := (s.walkc ++ l.filter fun e => !s.walkc.contains e).drop ((s.walkc ++ l).length - 4096) }

/-! ## Lookups (R237, R238) -/

/-- The bed that an asker's micro-TLB belongs to. -/
def askerBed (w : Asker) : Option Nat :=
  match w with
  | .barrow b => some b.val
  | .bsq b => some b.val
  | _ => none

/-- A translation filled into every cache that the asker's lookup passes (R237). -/
def fillAll (w : Asker) (t : Tlb) (s : State) : State :=
  let s1 := { s with iotlb := fillTlb s.iotlb 0 12 4 t }
  match askerBed w with
  | none => s1
  | some b =>
    let s2 := { s1 with ptc := fillTlb s1.ptc (plotOf b * 2048) 11 3 t }
    s2.putBed b { s2.bed b with utlb := (s2.bed b).utlb.fill 7 t }

/-- The walk under way of a page of a context. -/
def walkOf (ctx va : Nat) (s : State) : Option Walk :=
  s.walks.find? fun k => decide (k.ctx = ctx) && decide (vaOf k.va / 65536 = vaOf va / 65536)

/-- Whether a miss of a plot for a page is already in flight (R239). -/
def plotWaits (b ctx va : Nat) (s : State) : Bool :=
  match walkOf ctx va s with
  | some k => k.waiters.any fun y => decide ((askerBed y.who).map plotOf = some (plotOf b))
  | none => false

/-- The plot translation cache and the IOTLB on the way from a bed; a miss of the plot that is in flight already is joined (R239). -/
def lookPtc (b ctx va : Nat) (s : State) : Option Tlb × State :=
  match probe s.ptc (plotOf b * 2048) 11 3 ctx va with
  | some (t, l) =>
    let s1 := incF F.XLT_PTC_HIT_COUNT (plotOf b) 0 1 { s with ptc := l }
    (some t, s1.putBed b { s1.bed b with utlb := (s1.bed b).utlb.fill 7 t })
  | none =>
    if plotWaits b ctx va s then (none, incF F.XLT_PTC_JOINED_COUNT (plotOf b) 0 1 s)
    else
      let s1 := incF F.XLT_PTC_MISS_COUNT (plotOf b) 0 1 s
      match probe s1.iotlb 0 12 4 ctx va with
      | some (t, l) =>
        let s2 := incF F.XLT_IOTLB_HIT_COUNT 0 0 1 { s1 with iotlb := l }
        let s3 := { s2 with ptc := fillTlb s2.ptc (plotOf b * 2048) 11 3 t }
        (some t, s3.putBed b { s3.bed b with utlb := (s3.bed b).utlb.fill 7 t })
      | none => (none, s1)

/-- A lookup through the caches of the asker: a hit fills the levels above it. -/
def lookTlb (w : Asker) (ctx va : Nat) (s : State) : Option Tlb × State :=
  match askerBed w with
  | some b =>
    match (s.bed b).utlb.find ctx va with
    | some (i, t) =>
      (some t, incF F.XLT_UTLB_HIT_COUNT b 0 1 (s.putBed b { s.bed b with utlb := (s.bed b).utlb.touch 7 i }))
    | none => lookPtc b ctx va (incF F.XLT_UTLB_MISS_COUNT b 0 1 s)
  | none =>
    match probe s.iotlb 0 12 4 ctx va with
    | some (t, l) => (some t, incF F.XLT_IOTLB_HIT_COUNT 0 0 1 { s with iotlb := l })
    | none => (none, s)

/-- Why a leaf does not permit an access, if it does not (R235, R247): 4 READ, 5 WRITE, 6 ATOM. -/
def Tlb.denies (t : Tlb) (r w a : Bool) : Option Nat :=
  if r && !t.r then some 4 else if w && !t.w then some 5 else if a && !t.atom then some 6 else none

/-- Whether a context translates at all (R231). -/
def ctxOn (ctx : Nat) (s : State) : Bool := bitF F.XLT_CTRL_DEV_EN 0 0 s && bitF F.XLT_CTX_ROOT_EN 0 ctx s

/-- A miss at every level joins the walk of its page, or starts one; with 64 under way it waits for one to end (R237, R239). -/
def joinWalk (ctx : Nat) (w : XWait) (s : State) : State :=
  match walkOf ctx w.va s with
  | some k => { s with walks := s.walks.map fun y => if y.id = k.id then { y with waiters := y.waiters ++ [w] } else y }
  | none =>
    let (id, s1) := s.takeId
    let k : Walk := ⟨id, ctx, w.va, [w], .queued, 0, [], false⟩
    let busy := (s.walks.filter fun y => decide (y.now ≠ .queued)).length
    let z := if busy < 64 then k.begin s1 else (k, s1)
    { z.2 with walks := z.2.walks ++ [z.1] }

/-! ## What memory's tables say, without an access -/

/-- The leaf that the tables in memory give an address now. -/
def peekWalk (ctx va : Nat) (s : State) (at0 : Nat × Nat) : Nat → Option Tlb
  | 0 => none
  | f + 1 =>
    let pa := entryAddr at0.2 at0.1 va
    match homeOf (localOf pa) s with
    | none => none
    | some h =>
      match (homeRead h (localOf pa) hostWho 8 s).1 with
      | none => none
      | some e => match entryLeads ctx va at0.1 e with
        | .inl (.leaf t) => some t
        | .inl _ => none
        | .inr w => peekWalk ctx va s (w.level, w.next) f

/-- The leaf of an address as the asker's caches, or the tables, hold it now; nothing changes by it. -/
def peekTlb (w : Asker) (ctx va : Nat) (s : State) : Option Tlb :=
  if !ctxOn ctx s then none
  else match (lookTlb w ctx va s).1 with
    | some t => some t
    | none => peekWalk ctx va s (walkFrom ctx va s) 3

/-- The physical address that a barrow's read, or a write, of an address would reach now. -/
def peekPa (w : Asker) (ctx va : Nat) (s : State) : Option Nat := (peekTlb w ctx va s).map fun t => t.phys va

/-! ## Fault records (R246 to R248) -/

/-- Entries of the fault queue. -/
def fqSize (s : State) : Nat := 2 ^ getF F.XLT_FQ_BASE_LOG2_SIZE 0 0 s

/-- Whether the fault queue is full (R248). -/
def fqFull (s : State) : Bool :=
  decide ((getF F.XLT_FQ_TAIL_INDEX 0 0 s + 1) % fqSize s = getF F.XLT_FQ_HEAD_INDEX 0 0 s % fqSize s)

/-- Bytes written by the IOMMU with host standing, as a request of its own (R142, R248). -/
def hostWrite (pa n v : Nat) (s : State) : Nat × State :=
  post .iommu hostWho pa n true (BitVec.ofNat 1024 v) (BitVec.ofNat 128 (2 ^ n - 1)) none (BitVec.allOnes 32) 0 s

/-- The kind of an asker in a record (R247), and its bed. -/
def askerKind (w : Asker) : Nat × Nat :=
  match w with
  | .barrow b => (0, b.val)
  | .bsq b => (1, b.val)
  | .cmd => (2, 0xFFFF)
  | .guest => (3, 0xFFFF)

/-- COUNT of a record: the distinct requesters that have waited on it. -/
def FaultRec.count (f : FaultRec) : Nat := min 65535 f.counted.length

/-- The word at offset 0x10 of an entry: COUNT and ACCESS. -/
def FaultRec.word10 (f : FaultRec) : Nat := f.count + f.access * 2 ^ 16

/-- The 32-byte entry of a record (R247). -/
def FaultRec.bytes (f : FaultRec) : Nat :=
  let k := (f.counted.head?.map askerKind).getD (2, 0xFFFF)
  f.va + 2 ^ 64 * (f.slot + 2 ^ 8 * f.gen + 2 ^ 16 * f.ctx + 2 ^ 24 * f.cause + 2 ^ 32 * k.1 + 2 ^ 48 * k.2) +
  2 ^ 128 * (f.word10 + 2 ^ 32 * f.epoch.toNat + 2 ^ 64 * f.step.toNat + 2 ^ 96 * (f.tick % 2 ^ 32))

/-- The address of a fault-queue entry. -/
def fqEntry (i : Nat) (s : State) : Nat := getF F.XLT_FQ_BASE_BASE 0 0 s * 4096 + 32 * i

/-- A record replaced. -/
def putFault (f : FaultRec) (s : State) : State :=
  { s with faults := s.faults.map fun x => if x.slot = f.slot then f else x }

/-- A record written to the next entry of the fault queue, with its interrupt (R247, R248). -/
def writeFault (f : FaultRec) (s : State) : State :=
  let t := getF F.XLT_FQ_TAIL_INDEX 0 0 s
  let s1 := setF F.XLT_FQ_TAIL_INDEX 0 0 ((t + 1) % fqSize s) (hostWrite (fqEntry t s) 32 f.bytes s).2
  let s2 := putFault { f with entry := some t } s1
  if bitF F.XLT_FQ_CTRL_IE 0 0 s2 then irq (getF F.XLT_FQ_CTRL_IID 0 0 s2) s2 else s2

/-- Whether an entry still lies between head and tail (R247). -/
def entryLive (i : Nat) (s : State) : Bool :=
  let n := fqSize s
  let h := getF F.XLT_FQ_HEAD_INDEX 0 0 s % n
  decide ((i + n - h) % n < (getF F.XLT_FQ_TAIL_INDEX 0 0 s + n - h) % n)

/-- The access bits of a waiter. -/
def XWait.access (w : XWait) : Nat := (if w.r then 1 else 0) + (if w.w then 2 else 0) + (if w.a then 4 else 0)

/-- A fault joins the open record of its page (R246, R247). -/
def joinFault (f : FaultRec) (w : XWait) (s : State) : State :=
  let f1 := { f with
    waiters := f.waiters ++ [w], access := f.access ||| w.access, counted := if f.counted.contains w.who then f.counted else f.counted ++ [w.who] }
  let s1 := incF F.XLT_JOINS_COUNT 0 0 1 (putFault f1 s)
  match f.entry with
  | some i => if entryLive i s then (hostWrite (fqEntry i s + 16) 4 f1.word10 s1).2 else s1
  | none => s1

/-- The lowest free record slot (DESIGN CHOICE, log entry 15). -/
def freeSlot (s : State) : Option Nat := (List.range 256).find? fun i => !s.faults.any fun f => decide (f.slot = i)

/-- A fault opens a record or joins one (R246 to R248); with 256 open it waits for one to close. The interrupt and the tail follow the
sending of the entry (DESIGN CHOICE, log entry 46). -/
def openFault (ctx va cause : Nat) (w : XWait) (s : State) : State :=
  match s.faults.find? fun f => decide (f.ctx = ctx) && decide (vaOf f.va / 65536 = vaOf va / 65536) with
  | some f => joinFault f w s
  | none =>
    match freeSlot s with
    | none => { s with faultWait := s.faultWait ++ [⟨ctx, cause, w⟩] }
    | some i =>
      let s0 := flagIf (decide (cause = 7)) F.XLT_STATUS_BAD_TABLE 0 0 s
      let g := (sget 0 s.faultGens i)
      let f : FaultRec := ⟨i, g, ctx, vaOf va, cause, [w], w.access, BitVec.ofNat 32 (getF F.XLT_CTX_EPOCH_EPOCH 0 ctx s), s.tick,
        none, [w.who], w.step⟩
      let s1 := incF F.XLT_FAULTS_COUNT 0 0 1
        { s0 with faults := s0.faults ++ [f], faultGens := sput 0 s0.faultGens i ((g + 1) % 256) }
      if fqFull s1 then s1 else writeFault f s1

/-- Held records written while the fault queue has room (R248). -/
def writeHeld (fuel : List FaultRec) (s : State) : State :=
  match fuel with
  | [] => s
  | f :: r => writeHeld r (if f.entry.isNone && !fqFull s then writeFault f s else s)

/-- Software advances the head of the fault queue (R248). -/
def fqHead (v : Nat) (s : State) : State :=
  let s1 := setF F.XLT_FQ_HEAD_INDEX 0 0 v s
  writeHeld s1.faults s1

def execFqHeadWrite (v : BitVec 16) (s : State) : Host.Outcome State Fault Refusal := .next (fqHead v.toNat s)

/-- A translation that fails: answered where its requester awaits a response, or for the requester to take; the request of a guest completes
with it. -/
def giveUp (w : XWait) (st : Status) (s : State) : State :=
  if w.ext then respond w.id st 0 s
  else if w.who = .guest then
    match netGet w.id s with
    | some r => complete r st 0 s
    | none => s
  else { s with xans := s.xans ++ [⟨w.who, w.id, st⟩] }

/-- A fault of an access (R235, R246): recorded, but for a read ahead. -/
def faultFor (ctx cause : Nat) (w : XWait) (s : State) : State :=
  if w.quiet then giveUp w .pageFault s else openFault ctx w.va cause w s

/-- A translation found for its requester: the response where it awaits one; a guest's request leaves for its address, and any other
requester finds it in its caches. -/
def found (w : XWait) (pa : Nat) (s : State) : State :=
  if w.ext then respond w.id .ok (BitVec.ofNat 1024 pa) s
  else if w.who = .guest then
    match netGet w.id s with
    | some r => if r.st = .walking then sendOn r pa s else s
    | none => s
  else s

/-- A leaf's answer to an access (R235). -/
def leafFor (ctx : Nat) (t : Tlb) (w : XWait) (s : State) : State :=
  match t.denies w.r w.w w.a with
  | some c => faultFor ctx c w s
  | none => found w (t.phys w.va) s

/-- A translated access of a requester that does not ask again looks up the caches; a miss at every level joins the walk of its page. -/
def askXlt (ctx : Nat) (w : XWait) (s : State) : State :=
  if !ctxOn ctx s then giveUp w .pageFault s
  else
    match lookTlb w.who ctx w.va s with
    | (some t, s1) => leafFor ctx t w s1
    | (none, s1) => joinWalk ctx w s1

/-- A request for a translation as one that waits. -/
def waitOf (x : XltReq) : XWait := ⟨x.who, x.id, x.r, x.w, x.a, x.step, x.va.toNat, true, false⟩

/-- FAULT_RECORD_OPEN: in a context that does not translate no record opens (R231). -/
def faultRecordOpen (x : XltReq) (cause : Nat) (s : State) : State :=
  if ctxOn x.ctx.val s then openFault x.ctx.val x.va.toNat cause (waitOf x) s else giveUp (waitOf x) .pageFault s

def execFaultRecordOpen (x : XltReq) (cause : Fin 8) (s : State) : Host.Outcome State Fault Refusal :=
  .next (faultRecordOpen x cause.val s)

def execXltWalk (x : XltReq) (s : State) : Host.Outcome State Fault Refusal := .next (askXlt x.ctx.val (waitOf x) s)

/-- Requesters leave the walks and the records that they wait on (R250); a record stays open. -/
def leaveXlt (out : Asker → Nat → Bool) (s : State) : State :=
  let goes (w : XWait) : Bool := out w.who w.id
  { s with
    walks := s.walks.map fun k => { k with waiters := k.waiters.filter fun w => !goes w },
    faults := s.faults.map fun f => { f with waiters := f.waiters.filter fun w => !goes w },
    faultWait := s.faultWait.filter fun f => !goes f.w,
    xans := s.xans.filter fun a => !out a.who a.id }

/-! ## The end of a walk (R236, R239, R244) -/

/-- One requester of a walk that ended: a context disabled meanwhile translates nothing (R231); a leaf fills the caches on its way. -/
def endFor (ctx : Nat) (e : WalkRes) (s : State) (w : XWait) : State :=
  if !ctxOn ctx s then giveUp w .pageFault s
  else match e with
    | .leaf t => leafFor ctx t w (fillAll w.who t s)
    | .fault c => faultFor ctx c w s
    | .lost st => giveUp w st s

/-- The first walk that waits begins. -/
def nextWalk (s : State) : State :=
  match s.walks.find? fun k => decide (k.now = .queued) with
  | none => s
  | some k => let z := k.begin s; { z.2 with walks := z.2.walks.map fun y => if y.id = k.id then z.1 else y }

/-- A walk ends: the path to a leaf is cached, and each requester is served. -/
def endWalk (k : Walk) (e : WalkRes) (s : State) : State :=
  let s1 := { s with walks := s.walks.filter fun y => decide (y.id ≠ k.id) }
  let s2 := match e with
    | .leaf _ => cacheWalk k.path s1
    | _ => s1
  nextWalk (k.waiters.foldl (endFor k.ctx e) s2)

/-- A walk with a new step: ended at once, or under way. -/
def putWalk (k : Walk) (s : State) : State :=
  match k.now with
  | .ended e => endWalk k e s
  | _ => { s with walks := s.walks.map fun y => if y.id = k.id then k else y }

/-- XLT_FILL_RETURN: the entry that a walk reads returns; overtaken by an invalidation it starts its lookup again (R244). A walk
that needed no entry ends. -/
def xltFill (id : Nat) (s : State) : State :=
  match s.walks.find? fun k => decide (k.id = id) with
  | none => s
  | some k =>
    match k.now with
    | .queued => s
    | .ended e => endWalk k e s
    | .read q =>
      match netGet q s with
      | none => endWalk k (.lost .dieAbsent) s
      | some r =>
        if r.st ≠ .answered then s
        else if k.stale && ctxOn k.ctx s then let z := k.begin (netDel q s); putWalk z.1 z.2
        else let z := k.advance r s; putWalk z.1 z.2

def execXltFillReturn (id : Nat) (s : State) : Host.Outcome State Fault Refusal := .next (xltFill id s)

/-! ## Translation for a unit that asks again (R231) -/

/-- What a translation comes to. -/
inductive Xlated where
  | ok (pa : Nat) (pol : Policy)
  | bad (st : Status)
  | wait
  deriving DecidableEq, Repr

/-- Whether a requester waits for a translation: on a walk, on a fault record, or for room for one. -/
def waitsXlt (who : Asker) (id : Nat) (s : State) : Bool :=
  let me (w : XWait) : Bool := decide (w.who = who) && decide (w.id = id)
  s.walks.any (fun k => k.waiters.any me) || s.faults.any (fun f => f.waiters.any me) || s.faultWait.any (fun f => me f.w)

/-- A translation by a requester that asks again until it has it: the failure kept for it, its leaf, or a wait. -/
def translate (ctx : Nat) (w : XWait) (s : State) : Xlated × State :=
  match s.xans.find? fun a => decide (a.who = w.who) && decide (a.id = w.id) with
  | some a => (.bad a.st, { s with xans := s.xans.erase a })
  | none =>
    if !ctxOn ctx s then (.bad .pageFault, s)
    else if waitsXlt w.who w.id s then (.wait, s)
    else match lookTlb w.who ctx w.va s with
      | (none, s1) => (.wait, joinWalk ctx w s1)
      | (some t, s1) =>
        match t.denies w.r w.w w.a with
        | none => (.ok (t.phys w.va) t.pol, s1)
        | some c => if w.quiet then (.bad .pageFault, s1) else (.wait, openFault ctx w.va c w s1)

end Sys2Proof.Machine
end

