-- ==== Sys2Proof/Machine/Reach.lean ====
section
/-!
DEFINITION. Accesses of a unit of the package to virtual ranges (R231, R246, R258): each piece is translated once, when its request is sent,
and the unit asks again until the answer is there.
-/

namespace Sys2Proof.Machine

/-- How a unit reaches virtual addresses: as which asker in which context, from which source under which tag, with which standing, its
number as a requester, the step of its move, and the bed whose cache serves its reads of stacked DRAM, if one does (R125). -/
structure Via where
  who : Asker
  ctx : Nat
  src : Src
  tag : Nat
  std : Who
  id : Nat
  step : BitVec 32
  bed : Option Nat
  deriving DecidableEq, Repr

/-- A piece as it waits for its translation. -/
def Via.wait (v : Via) (va : Nat) (r w : Bool) : XWait := ⟨v.who, v.id, r, w, false, v.step, va, false, false⟩

/-- Whether a unit is a bed sequencer. -/
def Via.isBsq (v : Via) : Bool :=
  match v.who with
  | .bsq _ => true
  | _ => false

/-- A read of a physical address, within one line: stacked DRAM through the bed cache where the unit uses one; a bed sequencer fetches
bundles from nowhere else (R142). -/
def Via.readAt (v : Via) (pa n : Nat) (pol : Policy) (s : State) : Got × State :=
  match v.bed with
  | some b =>
    if isDram pa then
      let r := askLine v.src b v.tag v.ctx (pa % 2 ^ 61 / 128) pol s
      (match r.1 with
        | .ok d => .ok (d / 256 ^ (pa % 128) % 256 ^ n)
        | g => g, r.2)
    else if v.isBsq then (.bad .dieAbsent, s)
    else busRead v.src v.tag v.std pa n s
  | none => busRead v.src v.tag v.std pa n s

/-- Whether a piece has been asked for, and is not to be translated again. -/
def Via.sent (v : Via) (pa n : Nat) (write : Bool) (s : State) : Bool :=
  s.net.any fun r => r.isAsk v.src v.tag pa n write || (v.bed.isSome && r.isAsk v.src v.tag (pa % 2 ^ 61 / 128 * 128) 128 write)

/-- A read of a virtual address, within one line. -/
def Via.get (v : Via) (va n : Nat) (s : State) : Got × State :=
  match translate v.ctx (v.wait va true false) s with
  | (.bad st, s1) => (.bad st, s1)
  | (.wait, s1) => (.wait, s1)
  | (.ok pa pol, s1) => v.readAt pa n pol (if v.sent pa n false s then s else s1)

/-- A write of a virtual address, within one line: through the merging buffer for stacked DRAM where the unit uses a bed's (R132). -/
def Via.put (v : Via) (va n x : Nat) (s : State) : Got × State :=
  match translate v.ctx (v.wait va false true) s with
  | (.bad st, s1) => (.bad st, s1)
  | (.wait, s1) => (.wait, s1)
  | (.ok pa pol, s1) =>
    let s2 := if v.sent pa n true s then s else s1
    match v.bed with
    | some b =>
      if isDram pa then tellLine v.src b v.tag v.ctx pa n (2 ^ n - 1) x pol s2 else busWrite v.src v.tag v.std pa n (2 ^ n - 1) x s2
    | none => busWrite v.src v.tag v.std pa n (2 ^ n - 1) x s2

/-- A read of a virtual range: every piece is asked for, and their failures combine (R12). -/
def Via.getRange (v : Via) (va n : Nat) (s : State) : Got × State :=
  (piecesOf va n).foldl (fun z q => let r := v.get q.1 q.2 z.2; (z.1.add (q.1 - va) r.1, r.2)) (.ok 0, s)

/-- A write of a virtual range. -/
def Via.putRange (v : Via) (va n x : Nat) (s : State) : Got × State :=
  (piecesOf va n).foldl (fun z q =>
    let r := v.put q.1 q.2 (x / 256 ^ (q.1 - va) % 256 ^ q.2) z.2
    (z.1.add 0 r.1, r.2)) (.ok 0, s)

/-- A write of a physical range by the sequencer of bed `b`: through the bed's merging buffer for stacked DRAM (R132). -/
def bsqWriteRange (b tag p pa n x : Nat) (s : State) : Got × State :=
  (piecesOf pa n).foldl (fun z q =>
    let v := x / 256 ^ (q.1 - pa) % 256 ^ q.2
    let r := if isDram q.1 then tellLine (.bsq b) b tag p q.1 q.2 (2 ^ q.2 - 1) v .uncached z.2
      else busWrite (.bsq b) tag (partWho p) q.1 q.2 (2 ^ q.2 - 1) v z.2
    (z.1.add 0 r.1, r.2)) (.ok 0, s)

/-- The answered accesses of a unit taken away. -/
def Via.done (v : Via) (s : State) : State := askDone v.src v.tag s

end Sys2Proof.Machine
end

