-- ==== Sys2Proof/Machine/Layout.lean ====
section
/-!
DEFINITION. Operand types and stream layouts of the grid (R40, R57, R60, R61, R199 to R203): where the element of a lane and
a reduction position lies in a band.
-/

namespace Sys2Proof.Machine

/-- Operand types of the grid (R60); a reserved encoding acts as 0x0. -/
inductive OpTy where
  | e4m3 | e5m2 | e2m3 | e3m2 | e2m1 | int8 | bf16 | fp16
  deriving DecidableEq, Repr

/-- The type a four-bit code names. -/
def OpTy.ofCode (n : Nat) : OpTy :=
  match n with
  | 1 => .e5m2 | 2 => .e2m3 | 3 => .e3m2 | 4 => .e2m1 | 5 => .int8 | 6 => .bf16 | 7 => .fp16 | _ => .e4m3

/-- FP4 and FP6 types. -/
def OpTy.small : OpTy → Bool
  | .e2m3 | .e3m2 | .e2m1 => true
  | _ => false

/-- FP8 types. -/
def OpTy.fp8 : OpTy → Bool
  | .e4m3 | .e5m2 => true
  | _ => false

/-- BF16 and FP16. -/
def OpTy.half : OpTy → Bool
  | .bf16 | .fp16 => true
  | _ => false

/-- Type classes (R40). -/
inductive TyClass where
  | fp4 | fp8 | int8 | bf16
  deriving DecidableEq, Repr

/-- The type that B takes beside A and the class of the pair (R61): any pairing that the table does not list treats B as A's
type. -/
def pairClass (a b : OpTy) : OpTy × TyClass :=
  if a.small && b.small then (b, .fp4)
  else if (a.small || a.fp8) && (b.small || b.fp8) then (b, .fp8)
  else if a = .int8 && b = .int8 then (b, .int8)
  else if a.half && b.half then (b, .bf16)
  else if a.small then (a, .fp4)
  else if a.fp8 then (a, .fp8)
  else if a = .int8 then (a, .int8)
  else (a, .bf16)

/-- Reduction positions of a slot (R40). -/
def slotPos (cl : TyClass) (sparse : Bool) : Nat :=
  if sparse then 4 else match cl with
    | .fp4 => 2
    | _ => 1

/-- Cycles of a slot (R40). -/
def slotCycles (cl : TyClass) (sparse : Bool) : Nat :=
  match cl with
  | .fp4 => 1
  | .fp8 | .int8 => if sparse then 2 else 1
  | .bf16 => if sparse then 4 else 2

/-- The value of an element code; an INT8 element with MX scales weighs 2^-6 (R60). -/
def OpTy.value (t : OpTy) (scaled : Bool) (code : Nat) : Fval :=
  match t with
  | .e4m3 => Fmt.e4m3.decode (code % 256)
  | .e5m2 => Fmt.e5m2.decode (code % 256)
  | .e2m3 => Fmt.e2m3.decode (code % 64)
  | .e3m2 => Fmt.e3m2.decode (code % 64)
  | .e2m1 => Fmt.e2m1.decode (code % 16)
  | .int8 => decodeInt 8 code (if scaled then -6 else 0)
  | .bf16 => Fmt.bf16.decode (code % 65536)
  | .fp16 => Fmt.fp16.decode (code % 65536)

/-- A band's layout (R201, R202): its type, whether FP4 and FP6 are packed, whether E8M0 scales and 2:4 indices are there.
Scales are ignored for BF16 and FP16. -/
structure Layout where
  ty : OpTy
  packed : Bool
  scaled : Bool
  sparse : Bool
  deriving DecidableEq, Repr

/-- Whether two positions share one unit of bytes. -/
def Layout.pairs (y : Layout) : Bool := y.packed && y.ty.small

/-- Positions of a dense unit. -/
def Layout.unitPos (y : Layout) : Nat := if y.pairs then 2 else 1

/-- Bytes of a dense unit (R201). -/
def Layout.unitBytes (y : Layout) : Nat :=
  if y.ty.half then 16 else if y.pairs && y.ty ≠ .e2m1 then 12 else 8

/-- Bits of an element. -/
def Layout.elemBits (y : Layout) : Nat :=
  if y.ty.half then 16 else if y.ty = .e2m1 then 4 else if y.ty.small then 6 else 8

/-- Whether scale bytes stand in the band. -/
def Layout.hasScale (y : Layout) : Bool := y.scaled && !y.ty.half

/-- Positions of a slot in storage (R201). -/
def Layout.slotPos (y : Layout) : Nat := if y.sparse then 4 else y.unitPos

/-- Bytes of a slot (R201): a sparse slot is the dense bytes of two positions, plus 4. -/
def Layout.slotBytes (y : Layout) : Nat :=
  if y.sparse then 4 + 2 / y.unitPos * y.unitBytes else y.unitBytes

/-- Slots of a block of 32 positions. -/
def Layout.blockSlots (y : Layout) : Nat := 32 / y.slotPos

/-- Bytes of `n` slots of a band with the scale bytes of their blocks (R202, R203). -/
def Layout.bytes (y : Layout) (n : Nat) : Nat :=
  n * y.slotBytes + (if y.hasScale then 8 * ((n + y.blockSlots - 1) / y.blockSlots) else 0)

/-- Byte offset of slot `k` of a band. -/
def Layout.slotOff (y : Layout) (k : Nat) : Nat :=
  k * y.slotBytes + (if y.hasScale then 8 * (k / y.blockSlots + 1) else 0)

/-- A field of a band: its first bit and its width. -/
structure Span where
  at0 : Nat
  w : Nat
  deriving DecidableEq, Repr

/-- The value of a field of a band. -/
def Span.get (f : Span) (band : Nat) : Nat := band / 2 ^ f.at0 % 2 ^ f.w

/-- Whether a field lies in one of the granules of a list. -/
def Span.meets (f : Span) (grans : List Nat) : Bool :=
  decide (0 < f.w) && grans.any fun g => decide (f.at0 / 128 ≤ g) && decide (g ≤ (f.at0 + f.w - 1) / 128)

/-- The place of the scale byte of lane `e` for slot `k` (R62, R202); it has no bits where the band carries no scales. -/
def Layout.scaleAt (y : Layout) (e k : Nat) : Span :=
  ⟨8 * (k / y.blockSlots * (8 + y.blockSlots * y.slotBytes) + e), if y.hasScale then 8 else 0⟩

/-- The scale byte of lane `e` for slot `k`; 127 where there are none. -/
def Layout.scale (y : Layout) (band e k : Nat) : Nat := if y.hasScale then (y.scaleAt e k).get band else 127

/-- The place of the element in lane `e`, position `h` of the dense unit at byte `off` (R201). -/
def Layout.unitElem (y : Layout) (off e h : Nat) : Span :=
  if y.pairs then
    (if y.ty = .e2m1 then ⟨8 * (off + e) + 4 * h, 4⟩ else ⟨8 * off + 12 * e + 6 * h, 6⟩)
  else if y.ty.half then ⟨8 * (off + 2 * e), 16⟩
  else ⟨8 * (off + e), y.elemBits⟩

/-- The element of lane `e` at dense position `p` of a band. -/
def Layout.elem (y : Layout) (e p : Nat) : Span := y.unitElem (y.slotOff (p / y.unitPos)) e (p % y.unitPos)

/-- The index of value `h` (0 or 1) of lane `e` in sparse slot `k` (R201). -/
def Layout.sparseIdx (y : Layout) (e k h : Nat) : Span := ⟨8 * y.slotOff k + 4 * e + 2 * h, 2⟩

/-- Value `h` of lane `e` in sparse slot `k`: one packed slot, or two dense slots (R201). -/
def Layout.sparseVal (y : Layout) (e k h : Nat) : Span :=
  if y.pairs then y.unitElem (y.slotOff k + 4) e h else y.unitElem (y.slotOff k + 4 + h * y.unitBytes) e 0

end Sys2Proof.Machine
end

