-- ==== Sys2Proof/Machine/Tile.lean ====
section
/-!
DEFINITION. Engine-ready tiles (R199 to R207): headers, bands, runs, and the transpose of a move. A tile and a band are held as
one number, byte 0 lowest.
-/

namespace Sys2Proof.Machine

/-- Byte range of a number: `n` bytes from byte `a`. -/
def cut (v a n : Nat) : Nat := v / 256 ^ a % 256 ^ n

/-- A header line as the barrow takes it (R199, R200): the raw leading fields, and the lane and slot extents after their clamps. -/
structure Hdr where
  magic : Nat
  format : Nat
  typ : Nat
  form : Nat
  bandExt : Nat
  slotExt : Nat
  tsmax : Nat
  smax : Nat
  emax : Nat
  tensor : Nat
  tileBand : Nat
  tileSlot : Nat
  deriving DecidableEq, Repr

/-- A header read from a line or granule; `lim` bounds SLOT_EXT: 64 in storage, 4,096 in T0. -/
def Hdr.read (v lim : Nat) : Hdr :=
  { magic := cut v 0 2, format := cut v 2 1, typ := cut v 3 1, form := cut v 4 1, bandExt := cut v 5 1 % 64,
    slotExt := max 1 (min lim (cut v 6 2)), tsmax := cut v 8 1, smax := cut v 9 1, emax := cut v 10 2, tensor := cut v 16 8,
    tileBand := cut v 24 2, tileSlot := cut v 26 2 }

/-- The layout that TYPE and FORM give (R201, R202). -/
def Hdr.layout (h : Hdr) : Layout := ⟨.ofCode (h.typ % 16), h.typ.testBit 4, h.form.testBit 1, h.form.testBit 2⟩

/-- Slots of a band: whole slots for its positions. -/
def slotsFor (y : Layout) (pos : Nat) : Nat := (pos + y.slotPos - 1) / y.slotPos

/-- Bytes of a band (R203). -/
def Hdr.bandBytes (h : Hdr) : Nat := h.layout.bytes (slotsFor h.layout h.slotExt)

/-- Granules of a band (R203). -/
def Hdr.bandGran (h : Hdr) : Nat := (h.bandBytes + 15) / 16

/-- Bands of a tile (R203). -/
def Hdr.bands (h : Hdr) : Nat := h.bandExt / 8 + 1

/-- Body lines of a tile in storage (R203). -/
def Hdr.bodyLines (h : Hdr) : Nat := (h.bands * h.bandGran + 7) / 8

/-- Bytes 0x00 to 0x0F of a header as the barrow writes them; `run` is the number of tiles joined and `fb` marks a fallback path
(R199). -/
def Hdr.low (h : Hdr) (run : Nat) (fb : Bool) : Nat :=
  h.magic + h.format * 256 ^ 2 + h.typ * 256 ^ 3 + h.form * 256 ^ 4 + h.bandExt * 256 ^ 5 + h.slotExt * 256 ^ 6 +
  h.tsmax * 256 ^ 8 + h.smax * 256 ^ 9 + h.emax * 256 ^ 10 + h.bandGran % 65536 * 256 ^ 12 + run % 256 * 256 ^ 14 +
  (if fb then 1 else 0) * 256 ^ 15

/-- A header line as the barrow writes it in storage. -/
def Hdr.line (h : Hdr) (fb : Bool) : Nat :=
  h.low 1 fb + h.tensor * 256 ^ 16 + h.tileBand * 256 ^ 24 + h.tileSlot * 256 ^ 26 + h.bodyLines * 256 ^ 28

/-- Band `i` of a body laid out by a header: zero beyond the tile's bands (R203, R204). -/
def Hdr.band (h : Hdr) (body i : Nat) : Nat := if i < h.bands then cut body (16 * i * h.bandGran) (16 * h.bandGran) else 0

/-- A tile or run taken apart: its header and its eight bands. -/
structure Tile where
  h : Hdr
  band : List Nat
  deriving DecidableEq, Repr

/-- The tile that the lines of a LOAD or TCOPY hold. -/
def Tile.read (v : Nat) : Tile :=
  let h := Hdr.read v 64
  ⟨h, (List.range 8).map fun i => h.band (v / 256 ^ 128) i⟩

/-- The body of a tile in storage. -/
def Tile.body (t : Tile) : Nat :=
  (List.range t.h.bands).foldl (fun z i => z + t.band.getD i 0 * 256 ^ (16 * i * t.h.bandGran)) 0

/-- A tile as stored: header line and body lines, and their number of lines. -/
def Tile.lines (t : Tile) (fb : Bool) : Nat × Nat := (t.h.line fb + t.body * 256 ^ 128, 1 + t.h.bodyLines)

/-! ## Elements -/

/-- The bit at which the element of lane `e`, dense position `p` of an unscaled band begins (R201). -/
def Layout.elemBit (y : Layout) (e p : Nat) : Nat :=
  let off := p / y.unitPos * y.unitBytes
  let h := p % y.unitPos
  if y.pairs then (if y.ty = .e2m1 then 8 * (off + e) + 4 * h else 8 * off + 12 * e + 6 * h)
  else if y.ty.half then 8 * (off + 2 * e) else 8 * (off + e)

/-- The element of lane `l` of the tile at position `p`; 0 beyond its lanes or positions. -/
def Tile.elem (t : Tile) (l p : Nat) : Nat :=
  if l ≤ t.h.bandExt ∧ p < t.h.slotExt then (t.h.layout.elem (l % 8) p).get (t.band.getD (l / 8) 0) else 0

/-- FULL: the lane and reduction axes exchanged (R207), the result laid out with `ext` + 1 lanes. -/
def Tile.turnAs (ext : Nat) (t : Tile) : Tile :=
  let h := { t.h with bandExt := ext, slotExt := t.h.bandExt + 1, tileBand := t.h.tileSlot, tileSlot := t.h.tileBand }
  let y := h.layout
  let lane (i e : Nat) : Nat := (List.range h.slotExt).foldl (fun z p => z + t.elem p (8 * i + e) * 2 ^ y.elemBit e p) 0
  let band (i : Nat) : Nat :=
    if i < h.bands then
      (List.range 8).foldl (fun z e => if 8 * i + e ≤ h.bandExt then z + lane i e else z) 0
    else 0
  ⟨h, (List.range 8).map band⟩

/-- Whether a tile has no true transpose (R207). -/
def Hdr.rigid (h : Hdr) : Bool := h.layout.sparse || h.layout.hasScale

/-- The transpose of a move applied to a tile, a FULL one laid out with `ext` + 1 lanes, with the mark that it acted as none (R207). -/
def Tile.xposeAs (x ext : Nat) (t : Tile) : Tile × Bool :=
  match x with
  | 1 => ({ t with h := { t.h with form := t.h.form ^^^ 1 } }, false)
  | 2 => if t.h.rigid then (t, true) else (t.turnAs ext, false)
  | _ => (t, false)

/-- The transpose of a move applied to a tile. -/
def Tile.xpose (x : Nat) (t : Tile) : Tile × Bool := t.xposeAs x (t.h.slotExt - 1)

/-! ## Runs (R206) -/

/-- Positions to a multiple of which each tile of a run is padded. -/
def runPad (y : Layout) : Nat := if y.hasScale then 32 else if y.sparse then 4 else if y.pairs then 2 else 1

/-- Positions rounded up. -/
def roundUp (n m : Nat) : Nat := (n + m - 1) / m * m

/-- The larger of two 16-bit signed numbers. -/
def maxSigned (a b : Nat) : Nat := if intOf 16 a ≤ intOf 16 b then b else a

/-- A joined run under way: the header so far, positions joined, and each band with its bytes. -/
structure Run where
  h : Hdr
  pos : Nat
  band : List Nat
  deriving DecidableEq, Repr

/-- One tile joined to a run; it is laid out as tile 0's. -/
def Run.join (r : Run) (t : Tile) : Run :=
  let y := r.h.layout
  let h := { r.h with slotExt := t.h.slotExt }
  let at0 := y.bytes (slotsFor y r.pos)
  { h := { r.h with smax := max r.h.smax t.h.smax, emax := maxSigned r.h.emax t.h.emax },
    pos := r.pos + roundUp t.h.slotExt (runPad y),
    band := (List.range 8).map fun i => r.band.getD i 0 + t.band.getD i 0 % 256 ^ h.bandBytes * 256 ^ at0 }

/-- Whether a later tile differs from tile 0 in TYPE, FORM or BAND_EXT. -/
def Hdr.differs (a b : Hdr) : Bool := decide (a.typ ≠ b.typ) || decide (a.form ≠ b.form) || decide (a.bandExt ≠ b.bandExt)

/-- A tile read with the layout of tile 0. -/
def Tile.readAs (h0 : Hdr) (v : Nat) : Tile :=
  let h := { Hdr.read v 64 with typ := h0.typ, form := h0.form, bandExt := h0.bandExt }
  ⟨h, (List.range 8).map fun i => h.band (v / 256 ^ 128) i⟩

/-- Whether a later tile of a run differs from tile 0: as stored, or in its lanes once turned (R206; that a turned tile is laid out with the
lanes of tile 0 as turned is a DESIGN CHOICE, log entry 19). -/
def tileDiffers (x : Nat) (h0 h : Hdr) : Bool :=
  h.differs h0 || (decide (x = 2) && !h0.rigid && decide (h.slotExt ≠ h0.slotExt))

/-- What a LOAD makes of the lines of its tiles: the T0 form, and whether tiles differed and a FULL was ignored (R204, R206,
R207). -/
def loadTiles (x : Nat) (l : List Nat) : Tile × Bool × Bool :=
  match l with
  | [] => (⟨Hdr.read 0 64, []⟩, false, false)
  | v :: rest =>
    let t0 := (Tile.read v).xpose x
    if rest.isEmpty then (t0.1, false, t0.2)
    else
      let h0 := Hdr.read v 64
      let start : Run := ⟨{ t0.1.h with smax := 0, emax := 0x8000 }, 0, []⟩
      let r := rest.foldl (fun z w => z.join ((Tile.readAs h0 w).xposeAs x t0.1.h.bandExt).1) (start.join t0.1)
      (⟨{ r.h with slotExt := min 4096 r.pos }, r.band⟩, rest.any fun w => tileDiffers x h0 (Hdr.read w 64), t0.2)

/-! ## Splitting a run into tiles (R206, R212) -/

/-- The exponent of a finite nonzero value, scaled by an E8M0 code; none for any other element. -/
def elemExp (v : Fval) (sc : Nat) : Option Int :=
  match v with
  | .fin _ m e => if m = 0 ∨ sc = 255 then none else some (e + (Nat.log2 m : Int) + ((sc : Int) - 127))
  | _ => none

/-- The elements of a tile with their scales, as exponents. -/
def Tile.exps (t : Tile) : List Int :=
  let y := t.h.layout
  (List.range (t.h.bandExt + 1)).flatMap fun l =>
    let b := t.band.getD (l / 8) 0
    if y.sparse then
      (List.range (2 * slotsFor y t.h.slotExt)).filterMap fun q =>
        elemExp (y.ty.value y.hasScale ((y.sparseVal (l % 8) (q / 2) (q % 2)).get b)) (y.scale b (l % 8) (q / 2))
    else
      (List.range t.h.slotExt).filterMap fun p =>
        elemExp (y.ty.value y.hasScale ((y.elem (l % 8) p).get b)) (y.scale b (l % 8) (p / y.unitPos))

/-- EMAX computed for a tile (R199): the largest exponent, −32,768 without one. -/
def Tile.emax (t : Tile) : Nat :=
  match t.exps with
  | [] => 0x8000
  | a :: r => (BitVec.ofInt 16 (r.foldl max a)).toNat

/-- SMAX computed for a tile (R199): the largest scale, 127 when not scaled. -/
def Tile.smax (t : Tile) : Nat :=
  let y := t.h.layout
  if y.hasScale then
    (List.range (t.h.bandExt + 1)).foldl (fun z l =>
      (List.range ((t.h.slotExt + 31) / 32)).foldl (fun w k =>
        max w (y.scale (t.band.getD (l / 8) 0) (l % 8) (k * y.blockSlots))) z) 0
  else 127

/-- Tile `i` of a STORE of a run (R206): positions 64 i to 64 i + 63. -/
def Tile.slice (t : Tile) (i tensor tileBand tileSlot : Nat) : Tile :=
  let y := t.h.layout
  let n := if 64 * i < t.h.slotExt then min 64 (t.h.slotExt - 64 * i) else 1
  let ts := (tileSlot + i) % 65536
  let h := { t.h with magic := 0x7E1E, format := 1, slotExt := n, tensor := tensor, tileBand := tileBand, tileSlot := ts }
  let band (j : Nat) : Nat :=
    if 64 * i < t.h.slotExt then cut (t.band.getD j 0) (y.bytes (64 * i / y.slotPos)) h.bandBytes else 0
  let u : Tile := ⟨h, (List.range 8).map band⟩
  { u with h := { h with smax := u.smax, emax := u.emax } }

/-- The tiles of a STORE, with the mark that COUNT does not match the run (R206). -/
def storeTiles (t : Tile) (count tensor tileBand tileSlot x : Nat) : List (Tile × Bool) × Bool :=
  ((List.range count).map fun i => (t.slice i tensor tileBand tileSlot).xpose x,
   decide (64 * count < t.h.slotExt) || decide (t.h.slotExt ≤ 64 * (count - 1)))

end Sys2Proof.Machine
end

