-- ==== Sys2Proof/Machine/Issue.lean ====
section
/-!
DEFINITION. Issue: when a core issues, what a bundle does to its stream position, its loops and its counters (R76 to R79,
R93 to R97), the registers and tile flags of a core, and the results in flight. A slot command issues where the bundle of the
present cycle holds that command in its slot; the first to issue opens the bundle, and what no command has issued by the
cycle's end issues then (DESIGN CHOICE, log entry 6).
-/

namespace Sys2Proof.Machine

/-! ## Frozen beds -/

/-- Whether cycle `i` of a launch is fallow under duty `f` (R354). -/
def fallowCycle (f i : Nat) : Bool := decide ((i % 64 + 1) * f / 64 > i % 64 * f / 64)

/-- Whether a plot is in the fallow tick of a change of operating point (R350). -/
def glide (plot : Nat) (s : State) : Bool := s.retunes.any fun r => decide (r.plot = plot) && decide (r.stage = 2)

/-- Whether the present cycle of a bed is frozen: a fallow cycle of its duty (R354) or of a retune (R350), or its bed group
paused, retained, waking or off (R123, R355), or its plot not present. -/
def bedFrozen (b : Nat) (s : State) : Bool :=
  decide (s.bgPower (bgOf b) ≠ 0) || glide (plotOf b) s || !slotPresent (plotOf b) s ||
  ((s.bed b).running && fallowCycle (getF F.CORE_BSQ_CTRL_FALLOW b 0 s) (s.bed b).cyc)

/-! ## Registers of a core -/

/-- A scalar register: x0 reads 0 (R91). -/
def Core.rx (k : Core) (r : BitVec 5) : BitVec 64 := if r = 0 then 0 else k.x[r.toNat]!

/-- A vector register. -/
def Core.rv (k : Core) (r : BitVec 5) : BitVec 512 := k.v[r.toNat]!

/-- A mask register: m0 reads as all ones (R84). -/
def Core.rm (k : Core) (r : BitVec 3) : BitVec 64 := if r = 0 then BitVec.allOnes 64 else k.m[r.toNat]!

/-- A scalar register written; x0 ignores writes (R91). -/
def Core.wx (k : Core) (r : BitVec 5) (v : BitVec 64) : Core :=
  if r = 0 then k else { k with x := k.x.set! r.toNat v }

/-- The masked bits of a vector register written. -/
def Core.wv (k : Core) (r : BitVec 5) (v mask : BitVec 512) : Core :=
  { k with v := k.v.set! r.toNat ((v &&& mask) ||| (k.rv r &&& ~~~mask)) }

/-- The masked bits of a mask register written; m0 ignores writes (R84). -/
def Core.wm (k : Core) (r : BitVec 3) (v mask : BitVec 64) : Core :=
  if r = 0 then k else { k with m := k.m.set! r.toNat ((v &&& mask) ||| (k.m[r.toNat]! &&& ~~~mask)) }

/-- A tile flag (R94). -/
def Core.flag (k : Core) (f : BitVec 5) : Nat := (k.flags[f.toNat]!).toNat

/-- A rise of a tile flag in the present cycle (R94): it takes effect, together with every other event on the flag, at the cycle's
end. -/
def riseFlag (c : Nat) (f : BitVec 5) (s : State) : State :=
  let k := s.core c
  s.putCore c { k with rises := f :: k.rises }

/-- The value that a tile flag has after a cycle (R94): the old value plus all rises, minus one where a WAITF took it. -/
def Core.flagSum (k : Core) (f : BitVec 5) : Nat :=
  k.flag f + k.rises.count f - (if k.took = some f then 1 else 0)

/-- The events of a cycle on the tile flags of a core take effect together (R94): a value that would pass 63 is held there, with
FLAG_OVF set. -/
def settleFlags (c : Nat) (s : State) : State :=
  let k := s.core c
  if k.rises.isEmpty && k.took.isNone then s
  else
    let over63 := (List.range 32).any fun f => decide (63 < k.flagSum (BitVec.ofNat 5 f))
    flagIf over63 F.CORE_STATUS_FLAG_OVF c 0
      (s.putCore c { k with
        flags := (Vector.range 32).map (fun f => BitVec.ofNat 6 (min 63 (k.flagSum (BitVec.ofNat 5 f)))), rises := [], took := none })

/-! ## Stream position and loops (R97) -/

/-- The bundle after bundle `i`, and the loops open then: a loop that ends at `i` starts its next pass while one is left,
and closes otherwise; two loops may end at one bundle. The innermost loop is first in the list. -/
def nextPc (loops : List Loop) (i : Nat) : Nat × List Loop :=
  match loops with
  | [] => (i + 1, [])
  | l :: rest =>
    if i + 1 = l.first + l.len then
      (if l.left = 0 then nextPc rest i else (l.first, { l with left := l.left - 1 } :: rest))
    else (i + 1, l :: rest)

/-- Active cycles of the bed of a core. -/
def actOf (c : Nat) (s : State) : Nat := (s.bed (bedOf c)).act

/-- The core with a number. -/
def coreId (c : Nat) : CoreId := Fin.ofNat 307200 c

/-- The next bundle of a core, where its instruction buffer holds it (R101). -/
def Core.bundle (k : Core) : Option (BitVec 256) := look k.ib k.pc.toNat

/-- Whether the next bundle of a core is in its instruction buffer (R101). -/
def Core.resident (k : Core) : Bool := k.bundle.isSome

/-- Whether a bundle waits for nothing (R76, R93): the flag of its WAITF is at least 1, or its SYNC has been released. -/
def Core.waitOver (k : Core) (bundle : BitVec 256) : Bool :=
  match slotCmd 0 .sync bundle with
  | .waitf _ f _ => decide (1 ≤ k.flag f)
  | .sync _ _ => k.passed
  | _ => true

/-- Whether a core stands before a bundle that it holds and could issue in this cycle but for a wait (R76, R97, R99, R101): it runs a
launch that has started, has not halted, been stopped or reached the end of its stream, skips nothing, and its bed is not
frozen. -/
def atBundle (c : Nat) (s : State) : Bool :=
  let k := s.core c
  k.active && !k.halted && !k.stopped && decide (k.skip = 0) && decide (k.pc.toNat < k.streamLen) && k.resident &&
  (s.bed (bedOf c)).go && !bedFrozen (bedOf c) s

/-- Whether a core can issue a bundle in this cycle. -/
def canOpen (c : Nat) (s : State) : Bool :=
  let k := s.core c
  atBundle c s && (match k.bundle with
    | some w => k.waitOver w
    | none => false)

/-- The bundle of this cycle, if the core has issued one. -/
def Core.bundleAt (k : Core) (act : Nat) : Option Opened :=
  match k.opened with
  | some o => if o.cyc = act then some o else none
  | none => none

/-- The bits of the bundle of this cycle, issued or about to. -/
def bundleNow (c : Nat) (s : State) : Option (BitVec 256) :=
  match (s.core c).bundleAt (actOf c s) with
  | some o => some o.bits
  | none => (s.core c).bundle

/-- Whether a core issues a command of a slot in this cycle: its bundle is open with the slot unused, or can open, and holds that very
command in the slot (R80, R81). -/
def canIssue (c : Nat) (slot : Slot) (i : Instr) (s : State) : Bool :=
  (match (s.core c).bundleAt (actOf c s) with
    | some o => !o.used.contains slot && !bedFrozen (bedOf c) s
    | none => canOpen c s) &&
  decide ((bundleNow c s).map (slotCmd (coreId c) slot) = some i)

/-- The core issues the bundle at its stream position: CORE_ISSUED counts, its wait is over, and the position moves on (R76, R97). The
slot of a SYNC that has been released has done its work. -/
def openBundle (c : Nat) (s : State) : State :=
  let k := s.core c
  let (pc', loops') := nextPc k.loops k.pc.toNat
  let w := k.bundle.getD 0
  incF F.CORE_ISSUED_COUNT c 0 1
    (s.putCore c { k with
      opened := some ⟨actOf c s, k.pc, w, k.loops, if k.passed then [.sync] else []⟩, pc := BitVec.ofNat 32 pc', loops := loops',
      wait := .none, passed := false })

/-- The slot is marked as issued. -/
def useSlot (c : Nat) (slot : Slot) (s : State) : State :=
  let k := s.core c
  s.putCore c { k with opened := k.opened.map fun o => { o with used := slot :: o.used } }

/-- The state in which a slot of a core's bundle issues: its bundle is open and the slot is marked. -/
def beginSlot (c : Nat) (slot : Slot) (s : State) : State :=
  useSlot c slot (match (s.core c).bundleAt (actOf c s) with
    | some _ => s
    | none => openBundle c s)

/-- A slot command: its effect `f` where the core issues it in this cycle, nothing otherwise. -/
def issueSlot (c : Nat) (slot : Slot) (i : Instr) (f : State → State) (s : State) : State :=
  if canIssue c slot i s then f (beginSlot c slot s) else s

/-! ## Results in flight (R77, R78) -/

/-- A result of core `c` that arrives `lat` cycles after this one. -/
def deliver (c lat prio : Nat) (d : Dest) (s : State) : State :=
  let k := s.core c
  let t := actOf c s
  s.putCore c { k with infl := k.infl ++ [⟨t + lat, t, prio, d⟩] }

/-- The order in which results of one cycle reach a register: earlier bundles first, then vector, local move, scalar, so
that the last is kept (R78). -/
def Infl.before (a b : Infl) : Bool :=
  decide (a.due < b.due) || (decide (a.due = b.due) &&
    (decide (a.issue < b.issue) || (decide (a.issue = b.issue) && decide (a.prio ≤ b.prio))))

/-- Insertion of a result into a list in that order. -/
def insInfl (a : Infl) : List Infl → List Infl
  | [] => [a]
  | b :: t => if a.before b then a :: b :: t else b :: insInfl a t

/-- Results in that order. -/
def sortInfl : List Infl → List Infl
  | [] => []
  | a :: t => insInfl a (sortInfl t)

/-- The sticky flags of a vector operation are set in its issue cycle (R85; DEDUCED, log entry 7). -/
def fpFlags (c : Nat) (f : FpFlags) (s : State) : State :=
  flagIf f.ovf F.CORE_STATUS_FP_OVF c 0 (flagIf f.inv F.CORE_STATUS_FP_INVALID c 0 s)

end Sys2Proof.Machine
end

