-- ==== Sys2Proof/Machine/Special.lean ====
section
/-!
DEFINITION. The six special functions of the vector unit (R86). Each gives an exact value, or a value with its last bit
set as a sticky bit where the true value is not a dyadic number of this length, so that the one rounding to FP32 that
follows is the correct rounding of the true value. The working lengths leave more than 60 bits below the last place that
any FP32 input can bring near a rounding boundary (DEDUCED, log entry 12).
-/

namespace Sys2Proof.Machine

/-- Bits k-1 … 0 of the integer square root of n, added to the root r found so far. -/
def isqrtGo (n : Nat) : Nat → Nat → Nat
  | 0, r => r
  | k + 1, r => let c := r + 2 ^ k; isqrtGo n k (if c * c ≤ n then c else r)

/-- The integer square root. -/
def isqrt (n : Nat) : Nat := isqrtGo n (Nat.log2 n / 2 + 1) 0

/-- A value with a sticky bit: (2q + s) × 2^(e − 1). -/
def sticky (neg : Bool) (q : Nat) (inexact : Bool) (e : Int) : Fval :=
  .fin neg (2 * q + (if inexact then 1 else 0)) (e - 1)

/-- 1 / x (R86 VRCP). -/
def rcpVal : Fval → Fval
  | .nan => .nan
  | .inf s => .fin s 0 0
  | .fin s m e =>
    if m = 0 then .inf s
    else
      let K := Nat.log2 m + 64
      sticky s (2 ^ K / m) (decide (2 ^ K % m ≠ 0)) (-(K : Int) - e)

/-- √x (R86 VSQRT). -/
def sqrtVal : Fval → Fval
  | .nan => .nan
  | .inf s => if s then .nan else .inf false
  | .fin s m e =>
    if m = 0 then .fin s 0 0
    else if s then .nan
    else
      let m1 := if e % 2 = 0 then m else 2 * m
      let e1 := if e % 2 = 0 then e else e - 1
      let n := m1 * 2 ^ 128
      let R := isqrt n
      sticky false R (decide (R * R ≠ n)) (e1 / 2 - 64)

/-- 1 / √x (R86 VRSQRT). +Inf gives +0, the limit (DEDUCED, log entry 12). -/
def rsqrtVal : Fval → Fval
  | .nan => .nan
  | .inf s => if s then .nan else .fin false 0 0
  | .fin s m e =>
    if m = 0 then .inf s
    else if s then .nan
    else
      let m1 := if e % 2 = 0 then m else 2 * m
      let e1 := if e % 2 = 0 then e else e - 1
      let K := Nat.log2 m1 + 64
      let R := isqrt (2 ^ (2 * K) / m1)
      sticky false R (decide (R * R * m1 ≠ 2 ^ (2 * K))) (-(K : Int) - e1 / 2)

/-- `n` binary digits of log2 of M / 2^P, for 2^P ≤ M < 2^(P+1), below the digits d found so far. -/
def log2Digits (P : Nat) : Nat → Nat → Nat → Nat
  | 0, _, d => d
  | n + 1, M, d =>
    let q := M * M / 2 ^ P
    if 2 ^ (P + 1) ≤ q then log2Digits P n (q / 2) (2 * d + 1) else log2Digits P n q (2 * d)

/-- log2 x (R86 VLOG2). -/
def log2Val : Fval → Fval
  | .nan => .nan
  | .inf s => if s then .nan else .inf false
  | .fin s m e =>
    if m = 0 then .inf true
    else if s then .nan
    else
      let L := Nat.log2 m
      let k : Int := e + L
      if m = 2 ^ L then .fin (decide (k < 0)) k.natAbs 0
      else
        let M := if L ≤ 400 then m * 2 ^ (400 - L) else m / 2 ^ (L - 400)
        let d := log2Digits 400 160 M 0
        let v : Int := 2 * (k * (2 ^ 160 : Nat) + d) + 1
        .fin (decide (v < 0)) v.natAbs (-161)

/-- The product of the factors 2^(2^-i) for the set digits of F, highest of its n digits first; r is the next factor,
and all are held in units of 2^-256. -/
def exp2Go (F : Nat) : Nat → Nat → Nat → Nat
  | 0, _, acc => acc
  | n + 1, r, acc =>
    exp2Go F n (isqrt (r * 2 ^ 256)) (if F.testBit n then acc * r / 2 ^ 256 else acc)

/-- 2^x (R86 VEXP2). -/
def exp2Val : Fval → Fval
  | .nan => .nan
  | .inf s => if s then .fin false 0 0 else .inf false
  | .fin s m e =>
    let top : Int := e + Nat.log2 m
    if m = 0 then .fin false 1 0
    else if top ≥ 10 then (if s then .fin false 1 (-400) else .fin false 1 400)
    else
      let u : Nat := if -160 ≤ e then m * 2 ^ (e + 160).toNat else m / 2 ^ (-160 - e).toNat
      let exact : Bool := decide (-160 ≤ e) || decide (m % 2 ^ (-160 - e).toNat = 0)
      let X : Int := if s then (if exact then -(u : Int) else -(u : Int) - 1) else u
      let n : Int := X / (2 ^ 160 : Nat)
      let F : Nat := (X % (2 ^ 160 : Nat)).toNat
      sticky false (exp2Go F 160 (isqrt (2 ^ 513)) (2 ^ 256)) (!exact || decide (F ≠ 0)) (n - 256)

/-- The terms z^i / i! of the exponential series from term i on, n of them, in units of 2^-512. -/
def expTaylor (z : Nat) : Nat → Nat → Nat → Nat → Nat
  | 0, _, _, sum => sum
  | n + 1, i, term, sum =>
    let t := term * z / 2 ^ 512 / i
    expTaylor z n (i + 1) t (sum + t)

/-- n squarings in units of 2^-512. -/
def sqGo : Nat → Nat → Nat
  | 0, a => a
  | n + 1, a => sqGo n (a * a / 2 ^ 512)

/-- tanh x (R86 VTANH). -/
def tanhVal : Fval → Fval
  | .nan => .nan
  | .inf s => .fin s 1 0
  | .fin s m e =>
    let top : Int := e + Nat.log2 m
    if m = 0 then .fin s 0 0
    else if top < -40 then .fin s (m * 2 ^ 64 - 1) (e - 64)
    else if top ≥ 4 then .fin s (2 ^ 80 - 1) (-80)
    else
      let sh : Int := e + 513
      let y : Nat := if 0 ≤ sh then m * 2 ^ sh.toNat else m / 2 ^ (-sh).toNat
      let E := sqGo 16 (expTaylor (y / 2 ^ 16) 48 1 (2 ^ 512) (2 ^ 512))
      sticky s ((E - 2 ^ 512) * 2 ^ 200 / (E + 2 ^ 512)) true (-200)

end Sys2Proof.Machine
end

