-- ==== Sys2Proof/Machine/Operands.lean ====
section
/-!
DEFINITION. Operand forms of the bundle slots: vector lane types and masks (R84, R90), scratchpad addresses (R82), and the
scheduling of scratchpad accesses (R89, R92, R109).
-/

namespace Sys2Proof.Machine

/-! ## Vector lanes -/

/-- Lane width of a vector type (R84); 7 acts as 0. -/
def vtWidth (vt : BitVec 3) : Nat :=
  match vt.toNat with
  | 1 => 16 | 2 => 16 | 3 => 8 | 4 => 8 | 6 => 8 | _ => 32

/-- Lanes of a vector type. -/
def vtLanes (vt : BitVec 3) : Nat := 512 / vtWidth vt

/-- The floating-point type of a vector type; none for INT32 and INT8. -/
def vtFmt (vt : BitVec 3) : Option Fmt :=
  match vt.toNat with
  | 1 => some .bf16 | 2 => some .fp16 | 3 => some .e4m3 | 4 => some .e5m2 | 5 => none | 6 => none | _ => some .fp32

/-- A lane as an exact value. -/
def vtDecode (vt : BitVec 3) (code : Nat) : Fval :=
  match vtFmt vt with
  | some f => f.decode code
  | none => decodeInt (vtWidth vt) code 0

/-- The register bits of the lanes whose mask bit is 1 (R84, R85): `n` lanes of width `w`. -/
def laneMask (w n : Nat) (m : BitVec 64) : BitVec 512 :=
  BitVec.ofNat 512 (joinLanes w n fun l => if m.getLsbD l then 2 ^ w - 1 else 0)

/-- The flags of the written lanes among the first n. -/
def laneFlags (n : Nat) (m : BitVec 64) (g : Nat → Nat × FpFlags) : FpFlags :=
  match n with
  | 0 => .none
  | k + 1 => (laneFlags k m g).or (if m.getLsbD k then (g k).2 else .none)

/-- A vector operation of form A on `n` lanes of width `w` with latency `lat`: lane l of vd becomes (g core l).1 where the
mask bit of l is 1; the flags are those of the lanes written (R85, R90). -/
def vecLanes (c : Nat) (i : Instr) (vd : BitVec 5) (mask : BitVec 3) (w n lat : Nat) (g : Core → Nat → Nat × FpFlags) : State → State :=
  issueSlot c .vec i fun s =>
    let k := s.core c
    let m := k.rm mask
    fpFlags c (laneFlags n m (g k))
      (deliver c lat 0 (.v vd (BitVec.ofNat 512 (joinLanes w n fun l => (g k l).1)) (laneMask w n m)) s)

/-- A lane-wise operation of one, two or three register operands in the lane type VT. -/
def vecOp (c : Nat) (i : Instr) (a : VecA) (lat : Nat) (g : Nat → Nat → Nat → Nat × FpFlags) : State → State :=
  vecLanes c i a.vd a.mask (vtWidth a.vt) (vtLanes a.vt) lat fun k l =>
    let w := vtWidth a.vt
    g (lane w (k.rv a.vs1).toNat l) (lane w (k.rv a.vs2).toNat l) (lane w (k.rv a.vs3).toNat l)

/-- A lane result: a floating-point value rounded to nearest with ties to even (R85), or an integer wrapped or saturated. -/
def laneResult (vt : BitVec 3) (sat : Bool) (fv : Fval) (iv : Int) : Nat × FpFlags :=
  match vtFmt vt with
  | some f => f.encode .near sat fv
  | none => (narrowInt (vtWidth vt) sat iv, .none)

/-! ## Scratchpad addresses -/

/-- A scratchpad byte address (R82): (x[XBASE] + offset) mod 32,768. -/
def spAddr (k : Core) (xbase : BitVec 5) (offset : Nat) : Nat := ((k.rx xbase).toNat + offset) % 32768

/-- The scratchpad granule of a base and a granule offset (R82). -/
def spGran (k : Core) (xbase : BitVec 5) (gran : BitVec 11) : Nat := spAddr k xbase (16 * gran.toNat) / 16

/-- Runs of consecutive granules that lie in one bank: `n` granules from `g`, wrapping at the end of the scratchpad, as
(offset in the transfer, first granule, count) (R109). -/
def bankRuns (fuel i g n : Nat) : List (Nat × Nat × Nat) :=
  match fuel with
  | 0 => []
  | f + 1 =>
    if n = 0 then []
    else
      let g := g % 2048
      let here := min n (128 - g % 128)
      (i, g, here) :: bankRuns f (i + here) (g + here) (n - here)

/-- Accesses added to a core's schedule. -/
def schedule (c : Nat) (l : List Acc) (s : State) : State :=
  let k := s.core c
  s.putCore c { k with accs := k.accs ++ l }

end Sys2Proof.Machine
end

