-- ==== Sys2Proof/Machine/Views.lean ====
section
/-!
DEFINITION. Registers of the core, grid, scratchpad and bed-sequencer blocks whose RO fields report the state of their unit
(R74, R107, R139): the stored sticky bits with the reported fields put in.
-/

namespace Sys2Proof.Machine

/-- One bit as a number. -/
def b2n (b : Bool) : Nat := if b then 1 else 0

/-- CORE_ID (R107). -/
def viewCoreId (c : Nat) (s : State) : BitVec 64 :=
  let k := s.core c
  let v := readReg .CORE_ID c 0 s
  F.CORE_ID_ACTIVE.put (F.CORE_ID_PART.put (F.CORE_ID_LBED.put v k.lbed) k.part) (b2n k.active)

/-- CORE_STATUS.WAIT (R107): 1 tile flag, 2 sync point, 3 instruction buffer empty; 0 for a core that issues in this cycle, skips, or
has nothing more to issue. -/
def coreWait (c : Nat) (s : State) : Nat :=
  let k := s.core c
  if canOpen c s || (k.bundleAt (actOf c s)).isSome then 0
  else match k.wait with
    | .flag _ _ => 1
    | .sync _ _ => 2
    | .none =>
      if k.active && !k.halted && !k.stopped && decide (k.skip = 0) && decide (k.pc.toNat < k.streamLen) && !k.resident then 3 else 0

/-- CORE_STATUS (R107). -/
def viewCoreStatus (c : Nat) (s : State) : BitVec 64 :=
  let k := s.core c
  let v := readReg .CORE_STATUS c 0 s
  F.CORE_STATUS_HALTED.put (F.CORE_STATUS_WAIT.put (F.CORE_STATUS_ISSUING.put v
    (b2n (canOpen c s || (k.bundleAt (actOf c s)).isSome))) (coreWait c s)) (b2n k.finished)

/-- CORE_FLAGS[i] (R107): tile flags 8 i to 8 i + 7, one byte each. -/
def viewCoreFlags (c i : Nat) (s : State) : BitVec 64 :=
  BitVec.ofNat 64 (joinLanes 8 8 fun f => (s.core c).flag (BitVec.ofNat 5 (8 * i + f)))

/-- CORE_PC (R107): the next bundle to issue and the open loops. -/
def viewCorePc (c : Nat) (s : State) : BitVec 64 :=
  let k := s.core c
  F.CORE_PC_LOOP_DEPTH.put (F.CORE_PC_BUNDLE.put 0 k.pc.toNat) k.loops.length

/-- CORE_STEP (R107). -/
def viewCoreStep (c : Nat) (s : State) : BitVec 64 := F.CORE_STEP_STEP.put 0 (s.core c).step.toNat

/-- The word of the core's CORE_ block at a byte offset, from CORE_ID to CORE_STEP; other offsets read 0 (R91 CSRR). -/
def coreWord (c off : Nat) (s : State) : BitVec 64 :=
  match off / 8 with
  | 0 => viewCoreId c s
  | 1 => viewCoreStatus c s
  | 2 => viewCoreFlags c 0 s
  | 3 => viewCoreFlags c 1 s
  | 4 => viewCoreFlags c 2 s
  | 5 => viewCoreFlags c 3 s
  | 6 => viewCorePc c s
  | 7 => viewCoreStep c s
  | _ => 0

/-- GRID_MODE (R74): ESPALIER is the mode of the bed's launch. -/
def viewGridMode (c : Nat) (s : State) : BitVec 64 :=
  F.GRID_MODE_ESPALIER.put (readReg .GRID_MODE c 0 s) (b2n (s.bed (bedOf c)).espalier)

/-- GRID_STATUS (R74). In espalier the order of core 0 is pending and presents in core 0's grid alone (DESIGN CHOICE, log entry 13). -/
def viewGridStatus (c : Nat) (s : State) : BitVec 64 :=
  let g := (s.core c).grid
  let t := actOf c s
  let presenting := g.flow.any fun p => decide (p.start ≤ t) && decide (t < p.start + p.len)
  F.GRID_STATUS_PENDING.put (F.GRID_STATUS_DRAINING.put (F.GRID_STATUS_PRESENTING.put
    (F.GRID_STATUS_BANK.put (readReg .GRID_STATUS c 0 s) g.bank) (b2n presenting)) (b2n !g.drains.isEmpty))
    (b2n g.pending.isSome)

/-- SPAD_STATUS (R139): POWER is the state of the bed group (R123); a paused bed group's scratchpads are ON (R355). -/
def viewSpadStatus (c : Nat) (s : State) : BitVec 64 :=
  let p := match s.bgPower (bgOf (bedOf c)) with
    | 2 => 2 | 3 => 3 | 4 => 1 | _ => 0
  F.SPAD_STATUS_POWER.put (readReg .SPAD_STATUS c 0 s) p

/-- The cores of a bed. -/
def coresOf (b : Nat) : List Nat := (List.range 64).map fun c => 64 * b + c

/-- CORE_BSQ_STATUS (R107). While cores of the bed wait at different levels, SYNC_LEVEL is that of the lowest-numbered one (DESIGN
CHOICE, log entry 6). -/
def viewBsqStatus (b : Nat) (s : State) : BitVec 64 :=
  let d := s.bed b
  let ks := (coresOf b).map s.core
  let lv := ks.filterMap fun k => match k.wait with
    | .sync l _ => some l.toNat
    | _ => none
  F.CORE_BSQ_STATUS_LBED.put (F.CORE_BSQ_STATUS_SYNC_LEVEL.put (F.CORE_BSQ_STATUS_SYNC_WAIT.put
    (F.CORE_BSQ_STATUS_HALTED.put (F.CORE_BSQ_STATUS_ESPALIER.put (F.CORE_BSQ_STATUS_RUNNING.put 0
      (b2n d.running)) (b2n d.espalier)) (ks.filter (·.finished)).length) (b2n !lv.isEmpty))
    (min 2 (lv.headD 0))) d.lbed

end Sys2Proof.Machine
end

