-- ==== Sys2Proof/Machine/Prog.lean ====
section
/-!
DEFINITION. Barrow programs (R196 to R211, R228): records, the programs and moves of a bed, arming, the reading of records, and the failure and end
of a program.
-/

namespace Sys2Proof.Machine

/-! ## Records (R211, R212) -/

/-- A move record of 64 bytes, after its clamps; `plain` ignores HAS_DUE, HAS_FB and RAISE (R218). -/
def MoveRec.parse (v : Nat) (plain : Bool) : MoveRec :=
  let ctl := cut v 1 1
  let kind := cut v 0 1 % 16
  let xp := cut v 4 1
  let place := xp / 4 % 8
  let lines := max 1 (min 65 (cut v 0x38 1))
  let stride := cut v 0x1C 4
  let due := cut v 0x20 2
  { kind := if 8 ≤ kind then 0 else kind
    waitPrev := ctl.testBit 0
    noAlloc := ctl.testBit 1
    raise := ctl.testBit 2 && !plain
    hasDue := ctl.testBit 3 && !plain
    hasFb := ctl.testBit 4 && ctl.testBit 3 && !plain
    attr := BitVec.ofNat 12 (cut v 2 2)
    xpose := if xp % 4 = 3 then 0 else xp % 4
    place := if 6 ≤ place then 0 else place
    flag := BitVec.ofNat 5 (cut v 5 1)
    core := cut v 6 1 % 64
    count := cut v 7 1 % 64 + 1
    src := cut v 8 8
    dst := cut v 16 8
    len := cut v 24 4
    srcStride := if stride = 0 then lines * 128 else stride
    due := due
    decide := min due (cut v 0x22 2)
    fbGroup := cut v 0x24 2
    key := BitVec.ofNat 16 (cut v 0x26 2)
    fbSrc := cut v 0x28 8
    operand := BitVec.ofNat 64 (cut v 0x30 8)
    lines := lines
    tileBand := cut v 0x3A 2
    tileSlot := cut v 0x3C 2 }

/-- SCOPE of an attribute group, clamped (R160). -/
def attrScope (a : BitVec 12) : Nat := min 4 (a.toNat / 16 % 8)

/-- Whether ORDER asks for an acquire, and for a release. -/
def attrAcquire (a : BitVec 12) : Bool := a.getLsbD 7
/-- Whether ORDER asks for a release. -/
def attrRelease (a : BitVec 12) : Bool := a.getLsbD 8

/-- The atomic of an attribute group with its operand and compare value (R160); SIZE 0 acts as 1, 3 as 2. -/
def attrAtom (a : BitVec 12) (operand compare : BitVec 64) : Atom :=
  ⟨BitVec.ofNat 4 a.toNat, decide (2 ≤ a.toNat / 512 % 4), a.getLsbD 11, operand, compare⟩

/-! ## Programs and moves of a bed -/

/-- The running program with number `id`. -/
def Bed.prog (k : Bed) (id : Nat) : Option Prog := k.progs.find? fun p => decide (p.id = id)

/-- The move with index `i` of a program. -/
def Prog.move (p : Prog) (i : Nat) : Option Move := p.moves.find? fun m => decide (m.idx = i)

/-- A running move with its program. -/
def moveOf (b id idx : Nat) (s : State) : Option (Prog × Move) :=
  ((s.bed b).prog id).bind fun p => (p.move idx).map fun m => (p, m)

/-- A program replaced. -/
def putProg (b : Nat) (p : Prog) (s : State) : State :=
  let k := s.bed b
  s.putBed b { k with progs := k.progs.map fun q => if q.id = p.id then p else q }

/-- A program with a move replaced. -/
def Prog.putMove (p : Prog) (m : Move) : Prog := { p with moves := p.moves.map fun x => if x.idx = m.idx then m else x }

/-- A move of a program replaced. -/
def putMove (b id : Nat) (m : Move) (s : State) : State :=
  let k := s.bed b
  s.putBed b { k with progs := k.progs.map fun q => if q.id = id then q.putMove m else q }

/-- Whether a move is over. -/
def Move.ended (m : Move) : Bool :=
  match m.st with
  | .done => true
  | .failed _ => true
  | _ => false

/-- The step of a move as translation and ordered adds see it: all ones outside a step (R218). -/
def Prog.moveStep (p : Prog) : BitVec 32 := if p.desc.isSome then BitVec.allOnes 32 else p.step

/-- A barrow as one who asks for translations. -/
def brwAsker (b : Nat) : Asker := .barrow (Fin.ofNat 4800 b)

/-- How a barrow reads the tables and records of a program. -/
def Prog.via (p : Prog) (b : Nat) : Via :=
  ⟨brwAsker b, p.part.val, .brw b, p.id, partWho p.part.val, p.id, p.moveStep, some b⟩

/-- The tier of an address as seen from a bed (R197). -/
def tierOf (b pa : Nat) (s : State) : Nat :=
  match placeOf pa s with
  | .spad _ _ _ => 0
  | .dram =>
    match regionOf (localOf pa) s with
    | some i => if !bitF F.STK_REGION_WIDE 0 i s && decide (getF F.STK_REGION_PLOT 0 i s = plotOf b) then 1 else 2
    | none => 2
  | .away => 3
  | _ => 2

/-! ## The ranges of a move (R208, R211 to R215) -/

/-- Lines that a range touches. -/
def linesOf (a n : Nat) : Nat := if n = 0 then 0 else (a % 128 + n + 127) / 128

/-- Bytes of an element of an ATOMIC (R215). -/
def MoveRec.elem (r : MoveRec) : Nat := (attrAtom r.attr 0 0).bytes

/-- The source of a move: its fallback source once the fallback is taken (R223). -/
def Move.srcVA (m : Move) : Nat := if m.fb = .fallback then m.r.fbSrc else m.r.src

/-- The last stage of a move's kind, at which its last requests are issued. -/
def MoveRec.final (r : MoveRec) : Nat :=
  match r.kind with
  | 2 => 3
  | 5 => 2
  | 7 => 4
  | _ => 1

/-- What a move reads first: the tiles of a LOAD or TCOPY in order, the bytes of a COPY, the lines of a PREFETCH; the other kinds have a
source that their own command finds. -/
def Move.sources (m : Move) : List Seg :=
  match m.r.kind with
  | 1 => (List.range m.r.count).map fun t => ⟨.read, true, (m.srcVA + t * m.r.srcStride) / 128 * 128, 128 * m.r.lines, 128 * m.r.lines * t⟩
  | 3 => (List.range m.r.count).map fun t => ⟨.read, true, (m.srcVA + t * m.r.srcStride) / 128 * 128, 128 * m.r.lines, 128 * m.r.lines * t⟩
  | 4 => [⟨.read, true, m.srcVA, m.r.len, 0⟩]
  | 6 => [⟨.ahead, true, m.srcVA / 128 * 128, 128 * linesOf m.srcVA m.r.len, 0⟩]
  | _ => []

/-- The ranges that hold a byte. -/
def segs (l : List Seg) : List Seg := l.filter fun g => decide (g.n ≠ 0)

/-- A move as it enters its program. -/
def Move.new (i xid : Nat) (r : MoveRec) : Move :=
  { idx := i, r := r, st := .queued, stage := 0, todo := [], fly := [], buf := 0, base := 0, tier := if r.kind = 7 then 4 else 0,
    tiered := false, fb := .open, waits := none, rel := none, tag := none, cores := [], xid := xid, far := false, acquired := false, ue := false,
    bad := none }

/-- A move that begins issuing: the tier of its source is not known before its first line (R198). -/
def Move.begin (m : Move) : Move := { m with st := .issuing, stage := 0, todo := segs m.sources }

/-- A move that takes its fallback (R223): primary requests are made no more, the data of those under way are discarded, and it begins again
from the fallback's source. A FETCH4 becomes a copy (DESIGN CHOICE, log entry 20). -/
def Move.fallen (m : Move) : Move :=
  let r := if m.r.kind = 7 then { m.r with kind := 4 } else m.r
  let fly := m.fly.map fun f => { f with dead := true }
  let m1 := { Move.new m.idx m.xid r with fb := .fallback, fly := fly }
  if m.st = .queued then m1 else m1.begin

/-! ## Fallback decisions that a move finds (R222 to R224) -/

/-- The agreement delay of the grove (R307). -/
def agreeA (s : State) : Nat := getF F.HAL_GROVE_STATUS_AGREE 0 0 s

/-- The agreement delay A of a launch (R223). -/
def Launch.delay (l : Launch) (s : State) : Nat := if l.locked then agreeA s else 1

/-- Whether a move awaits the decision of its fallback set (R224). -/
def Move.undecided (m : Move) : Bool := m.r.hasFb && (decide (m.fb = .open) || decide (m.fb = .late))

/-- What has been decided of the fallback set of a move of program `p`. -/
def setOutcome (p : Prog) (r : MoveRec) (s : State) : Option Bool :=
  match (s.part p.part.val).launch with
  | some l => if p.desc.isSome || !r.hasFb then none
    else (l.decided.find? fun x =>
      decide (x.step = p.step.toNat) && decide (x.group = r.fbGroup) && decide (x.decide = r.decide)).bind (·.outcome)
  | none => none

/-- A fallback taken by `n` moves of a bed is counted, and the launch takes its status (R224). -/
def tookFallback (b p n : Nat) (s : State) : State :=
  failLaunch p .deadlineFallback (incF F.BRW_FB_TAKEN_COUNT b 0 n (flagF F.BRW_STATUS_FB_TAKEN b 0 s))

/-! ## Accesses under way -/

/-- Whether an access is still to be answered. -/
def Fly.open (f : Fly) (s : State) : Bool :=
  match netGet f.id s with
  | some r => decide (r.st ≠ .answered)
  | none => false

/-- The accesses of a move that it awaits. -/
def Move.live (m : Move) : List Fly := m.fly.filter fun f => !f.dead

/-- The line requests of a move outstanding (R219): one for each line. -/
def Move.lines (m : Move) (s : State) : Nat := (((m.fly.filter fun f => f.line && f.open s).map (·.key)).eraseDups).length

/-- The prefetches of a bed's barrow outstanding. -/
def prefetchOut (b : Nat) (s : State) : Nat :=
  ((s.bed b).fills.filter fun f => f.prefetch && match netGet f.id s with
    | some r => decide (r.src = .brw b) && decide (r.st ≠ .answered)
    | none => false).length

/-- Line requests outstanding at a bed's barrow (R219). -/
def brwOut (b : Nat) (s : State) : Nat :=
  (s.bed b).progs.foldl (fun z p => p.moves.foldl (fun y m => y + m.lines s) z) (prefetchOut b s)

/-- The outstanding limit. -/
def outLimit (b : Nat) (s : State) : Nat := getF F.BRW_CTRL_OUT_LIMIT b 0 s

/-! ## Arming (R93, R208, R209) -/

/-- A program armed, behind every program armed before it; KICKs of one cycle in ascending core order. -/
def insertProg (p : Prog) : List Prog → List Prog
  | [] => [p]
  | q :: r =>
    if decide (q.at0 = p.at0) && q.desc.isNone && p.desc.isNone && decide (p.core < q.core) then p :: q :: r
    else q :: insertProg p r

/-- A program armed on a bed (R209): with 64 armed the last in the order of arming is discarded. -/
def armProg (b : Nat) (p : Prog) (s : State) : State :=
  let k := s.bed b
  if 64 ≤ k.armed.length then
    flagF F.BRW_STATUS_KICK_DROPPED b 0 (s.putBed b { k with armed := (insertProg p k.armed).take 64 })
  else incF F.BRW_KICKS_COUNT b 0 1 (s.putBed b { k with armed := insertProg p k.armed })

/-- The program that a KICK of core `c` arms (R209, R214, R220). -/
def kickProg (c program : Nat) (l : Launch) (id : Nat) (s : State) : Prog :=
  { id := id, at0 := actOf c s, core := c % 64, table := l.barrowTable, prog := program,
    part := Fin.ofNat 32 (s.core c).part, step := (s.core c).step, stepTick := l.stepTick, storeQ := l.storeQ, desc := none,
    base := 0, count := 0, moves := [], stop := false, failed := none }

/-- KICK (R93); on a bed that has the order to stop, which issues no request any more, it arms nothing (R268). -/
def doKick (c : Nat) (i : Instr) (program : Nat) : State → State :=
  issueSlot c .sync i fun s =>
    match (s.part (s.core c).part).launch with
    | none => s
    | some l =>
      if (s.bed (bedOf c)).stopping then s
      else
        let (id, s1) := s.takeId
        armProg (bedOf c) (kickProg c program l id s1) s1

def execKick (c : CoreId) (program : BitVec 12) (s : State) : Host.Outcome State Fault Refusal :=
  .next (doKick c.val (.kick c program) program.toNat s)

/-! ## The end of a program -/

/-- The program whose turn came last, once program `id` has left: the one before it where that was `id`. -/
def turnAfter (k : Bed) (id : Nat) : Option Nat :=
  if k.turn = some id then (((k.progs.takeWhile fun q => decide (q.id ≠ id)).getLast?).map (·.id)) else k.turn

/-- The accesses of a program that leaves: the answered ones leave with it, and nobody waits for the others. -/
def dropFlies (p : Prog) (s : State) : State :=
  disown (fun r => p.moves.any fun m => m.fly.any fun f => decide (f.id = r.id)) s

/-- A program leaves the bed; the MOVE descriptor that armed it is reported (R218, R269). -/
def endProg (b : Nat) (p : Prog) (s0 : State) : State :=
  let s := dropFlies p s0
  let k := s.bed b
  let s1 := s.putBed b { k with progs := k.progs.filter (fun q => decide (q.id ≠ p.id)), turn := turnAfter k p.id }
  match p.desc with
  | none => s1
  | some (n, i) =>
    let done := (p.moves.filter fun m => decide (m.st = .done)).length
    let bad := (p.moves.find? fun m => match m.st with
      | .failed _ => true
      | _ => false).map (·.idx)
    sendReport n i (p.failed.getD .completed) (bad.getD 0xFFFF % 65536) done s1

/-- Whether every access of a program has been answered. -/
def Prog.quiet (p : Prog) (s : State) : Bool := p.moves.all fun m => m.fly.all fun f => !f.open s

/-- A failed program leaves once nothing that it issued is outstanding. -/
def reap (b id : Nat) (s : State) : State :=
  match (s.bed b).prog id with
  | some p => if p.failed.isSome && p.quiet s then endProg b p s else s
  | none => s

/-- A program that issues nothing more. -/
def Prog.mute (p : Prog) : Prog := { p with moves := p.moves.map fun m => { m with todo := [], tag := none } }

/-- A move fails for good (R228): recorded, with the mark of an uncorrectable line, and its launch or its MOVE descriptor takes the status;
the program issues nothing more, and ends once nothing it issued is outstanding. -/
def failProg (b : Nat) (p : Prog) (record : Nat) (st : Status) (ue : Bool) (s : State) : State :=
  let s1 := flagIf ue F.BRW_STATUS_UE b 0 s
  let s2 := if bitF F.BRW_LAST_ERR_VALID b 0 s1 then s1
    else setF F.BRW_LAST_ERR_PROGRAM b 0 p.prog (setF F.BRW_LAST_ERR_STATUS b 0 st.code
      (setF F.BRW_LAST_ERR_RECORD b 0 (record % 2 ^ 32) (flagF F.BRW_LAST_ERR_VALID b 0 s1)))
  let s3 := if p.desc.isNone then failLaunchAt b p.part.val st s2
    else if st = .dataLost then rollbackPart p.part.val .dataLost s2 else s2
  reap b p.id (putProg b { p.mute with failed := some ((p.failed.getD st).join st) } s3)

/-! ## Reading records (R208, R210) -/

/-- Whether a move has issued its last request (R210): reads and writes in T0 of its own bed are no requests, so that a LOAD has with its
last line read, unless it writes to another bed (`away`). -/
def Move.issuedAll (m : Move) (away : Bool) : Bool :=
  match m.st with
  | .queued => false
  | .issuing =>
    match m.r.kind with
    | 0 => true
    | 1 => if away then false else decide (1 ≤ m.stage) || m.todo.isEmpty
    | 6 => m.todo.isEmpty
    | 7 => decide (3 ≤ m.stage)
    | _ => false
  | .written => m.todo.all fun g => decide (g.act = .write)
  | _ => true

/-- Whether a scratchpad address is one of bed `b`'s own, which its barrow reaches through its own port (R118). -/
def ownPort (b pa : Nat) (s : State) : Bool :=
  match placeOf pa s with
  | .spad c _ _ => decide (bedOf c = b)
  | _ => false

/-- Whether a LOAD writes outside T0 of its own bed, as its tables stand. -/
def Move.awayT0 (b : Nat) (p : Prog) (m : Move) (s : State) : Bool :=
  decide (m.r.kind = 1) && match peekPa (brwAsker b) p.part.val m.r.dst s with
    | some pa => !ownPort b pa s
    | none => false

/-- Whether a move has issued its last request, in its bed. -/
def lastOut (b : Nat) (p : Prog) (m : Move) (s : State) : Bool := m.issuedAll (m.awayT0 b p s)

/-- Whether the next record of a program is wanted: the last one read has issued its last request. -/
def Prog.wants (p : Prog) (b : Nat) (s : State) : Bool :=
  decide (p.moves.length < p.count) && !p.stop && p.failed.isNone &&
  (match p.moves.getLast? with
    | some m => lastOut b p m s
    | none => true)

/-- A record taken into its program: where its fallback set has been decided, the move follows (R223, R224). -/
def takeRecord (b : Nat) (p : Prog) (v : Nat) (s : State) : State :=
  let (xid, s1) := s.takeId
  let r := MoveRec.parse v p.desc.isSome
  let m := Move.new p.moves.length xid r
  match setOutcome p r s with
  | some true => tookFallback b p.part.val 1 (putProg b { p with moves := p.moves ++ [m.fallen] } s1)
  | some false => putProg b { p with moves := p.moves ++ [{ m with fb := .primary }] } s1
  | none => putProg b { p with moves := p.moves ++ [m] } s1

/-- The next record of a program is read. -/
def readNext (b : Nat) (p : Prog) (s : State) : State :=
  if !p.wants b s then s
  else
    let v := p.via b
    let r := v.getRange (p.base + 64 * p.moves.length) 64 s
    match r.1 with
    | .ok d => takeRecord b p d (v.done r.2)
    | .bad st => failProg b p p.moves.length st (decide (st = .dataLost)) (v.done r.2)
    | .wait => r.2

/-- The next record of the program with number `id`. -/
def readMore (b id : Nat) (s : State) : State :=
  match (s.bed b).prog id with
  | some p => readNext b p s
  | none => s

/-- An armed program with its table entry: it runs, and an empty one ends at once (R208). -/
def startProg (b : Nat) (p : Prog) (v : Nat) (s : State) : State :=
  let q := { p with base := cut v 0 8 / 64 * 64, count := cut v 8 4 }
  let k := s.bed b
  let s1 := s.putBed b { k with armed := k.armed.filter (fun x => decide (x.id ≠ p.id)), progs := k.progs ++ [q] }
  if q.count = 0 then endProg b q s1 else readNext b q s1

/-- An armed program starts (R208 to R210): with fewer than 16 running its table entry is read, and its first record. -/
def programStart (b : Nat) (s : State) : State :=
  let k := s.bed b
  match k.armed with
  | [] => s
  | p :: _ =>
    if decide (16 ≤ k.progs.length) || decide (s.bgPower (bgOf b) ≠ 0) || (p.desc.isNone && decide (k.act < p.at0 + 3)) || p.stop then s
    else
      let v := p.via b
      let r := v.getRange (p.table + 16 * p.prog) 16 s
      match r.1 with
      | .ok d => startProg b p d (v.done r.2)
      | .bad st =>
        let s1 := v.done r.2
        let k1 := s1.bed b
        failProg b p 0 st (decide (st = .dataLost)) (s1.putBed b { k1 with
          armed := k1.armed.filter (fun x => decide (x.id ≠ p.id)), progs := k1.progs ++ [p] })
      | .wait => r.2

def execProgramStart (b : BedId) (s : State) : Host.Outcome State Fault Refusal := .next (programStart b.val s)

end Sys2Proof.Machine
end

