-- ==== Sys2Proof/Machine/Grid.lean ====
section
/-!
DEFINITION. The arithmetic grid (R39 to R74): orders, presentation, anchored accumulation, drains with their final rounding,
independent and in espalier. Granules are read, products added, banks snapshotted and rows written in the cycles that the rules
give, cell by cell (log entry 13).
-/

namespace Sys2Proof.Machine

/-! ## What an order's configuration says -/

/-- Types of A and B and their class (R60, R61). -/
def tcfgTypes (t : BitVec 64) : OpTy × OpTy × TyClass :=
  let a := OpTy.ofCode (F.GRID_TCFG_A_TYPE.of t)
  let p := pairClass a (OpTy.ofCode (F.GRID_TCFG_B_TYPE.of t))
  (a, p.1, p.2)

/-- B is in 2:4 form. -/
def tcfgSparse (t : BitVec 64) : Bool := decide (F.GRID_TCFG_SPARSE_B.of t = 1)

/-- The layout of the A stream (R57, R201). -/
def layoutA (t : BitVec 64) : Layout :=
  ⟨(tcfgTypes t).1, decide ((tcfgTypes t).2.2 = .fp4), decide (F.GRID_TCFG_SCALE_A.of t = 1), false⟩

/-- The layout of the B stream. -/
def layoutB (t : BitVec 64) : Layout :=
  ⟨(tcfgTypes t).2.1, decide ((tcfgTypes t).2.2 = .fp4), decide (F.GRID_TCFG_SCALE_B.of t = 1), tcfgSparse t⟩

/-- Output types (R74). -/
inductive OutTy where
  | flt (f : Fmt)
  | int32
  | raw128
  deriving DecidableEq, Repr

/-- The output type; 7 acts as 0. -/
def tcfgOut (t : BitVec 64) : OutTy :=
  match F.GRID_TCFG_OUT_TYPE.of t with
  | 1 => .flt .bf16 | 2 => .flt .fp16 | 3 => .flt .e4m3 | 4 => .flt .e5m2 | 5 => .int32 | 6 => .raw128 | _ => .flt .fp32

/-- Bytes of one output value. -/
def OutTy.bytes : OutTy → Nat
  | .flt f => f.w / 8
  | .int32 => 4
  | .raw128 => 16

/-- D_row (R44). -/
def OutTy.dRow : OutTy → Nat
  | .raw128 => 4
  | _ => 1

/-- Cycles of a slot of the order. -/
def tcfgSlotLen (t : BitVec 64) : Nat := slotCycles (tcfgTypes t).2.2 (tcfgSparse t)

/-- Presentation cycles without padding (R40). -/
def presCycles (t : BitVec 64) (k : Nat) : Nat := k * tcfgSlotLen t

/-- Presentation length P (R44). -/
def presLen (t : BitVec 64) (k : Nat) : Nat := max (presCycles t k) (8 * (tcfgOut t).dRow)

/-- The anchor of a CLEAR order (R66). -/
def anchorOf (o : Order) : Int :=
  let e0 := (BitVec.ofNat 10 (F.GRID_TCFG_ANCHOR.of o.tcfg)).toInt
  let e1 := if F.GRID_TCFG_ANCHOR_SRC.of o.tcfg = 1 then e0 + ((o.xa : Int) - 127) + ((o.xb : Int) - 127) else e0
  max (-512) (min 511 e1)

/-! ## Streams (R57, R58) -/

/-- A stream of `k` slots from a granule: `pos` reduction positions a slot. -/
def mkStrm (core gran : Nat) (y : Layout) (pos len k : Nat) : Strm :=
  let units := k * pos / y.slotPos
  { core := core, gran := gran, num := 64 * len,
    den := 4 * (pos / y.slotPos * y.slotBytes) + (if y.hasScale then pos else 0),
    total := (y.bytes units + 15) / 16, n := 0, val := 0, bads := [] }

/-- The cycle in which granule `n` of a stream is read, for an order that begins to present in cycle `start`. -/
def Strm.cycle (y : Strm) (start n : Nat) : Nat := start + y.num * n / y.den - 4

/-- Granules of a stream read in cycle `t` that lie in a bank. -/
def Strm.hits (y : Strm) (start t bank : Nat) : Nat :=
  let n0 := (t + 4 - start) * y.den / y.num - 1
  ((List.range 5).filter fun i =>
    decide (n0 + i < y.total) && decide (y.cycle start (n0 + i) = t) && decide (bankOf (y.gran + n0 + i) = bank)).length

/-- Whether a list of streams asks for a bank of a core in cycle `t`. -/
def strmAsks (l : List Strm) (start core t bank : Nat) : Bool :=
  l.any fun y => decide (y.core = core) && decide (t + 4 ≥ start) && decide (0 < y.hits start t bank)

/-- Whether the header granule above a stream of an order is read in cycle `t` at a bank of a core (R205). -/
def hdrAsks (p : Pres) (g core t bank : Nat) : Bool :=
  p.o.hdr && decide (p.o.issue = t) && (p.a.head?.map (·.core) = some core) && decide (bankOf (g + 2047) = bank)

/-- The presentations of a grid whose reads may fall in the present cycle. -/
def Grid.pres (g : Grid) : List Pres := g.flow ++ g.pending.toList

/-- Grid A reads, header reads counted first, that a grid makes in cycle `t` at a bank of a core. -/
def askA (g : Grid) (core t bank : Nat) : Nat :=
  (g.pres.filter fun p => hdrAsks p p.o.aGran core t bank).length +
  (g.pres.filter fun p => strmAsks p.a p.start core t bank).length

/-- B header reads of the same kind. -/
def askBh (g : Grid) (core t bank : Nat) : Nat :=
  (g.pres.filter fun p => hdrAsks p p.o.bGran core t bank).length

/-- Every grid read at a bank of a core in cycle `t`. -/
def askReads (g : Grid) (core t bank : Nat) : Nat :=
  askA g core t bank + askBh g core t bank + (g.pres.filter fun p => strmAsks p.b p.start core t bank).length

/-- The core whose grid governs core `c`: core 0 of the bed in espalier (R54). -/
def gridLead (c : Nat) (s : State) : Nat := if (s.bed (bedOf c)).espalier then c / 64 * 64 else c

/-- The cores that an order of the grid of core `c` governs. -/
def gridCores (c : Nat) (s : State) : List Nat := if (s.bed (bedOf c)).espalier then coresOf (bedOf c) else [c]

/-- A clash of core `c` (R58, R117). -/
def clash (c : Nat) (s : State) : State :=
  incF F.SPAD_CONFLICT_COUNT c 0 1 (incF F.GRID_CLASH_COUNT_COUNT c 0 1 (flagF F.GRID_STATUS_SELF_CLASH c 0 s))

/-- The partition of the launch on core `c`. -/
def partOf (c : Nat) (s : State) : Nat := (s.core c).part

/-- A grid reads a granule: zeros where the bank is lost (R58) or a region forbids it (R115), no value where it is
uncorrectable, and then its launch is DATA_LOST (R59). -/
def gridRead (c g : Nat) (lost : Bool) (s : State) : Option Nat × State :=
  if lost then (some 0, clash c s)
  else if !regionOk c 0 (g % 2048) (g % 2048) true false s then (some 0, regionViol c 0 s)
  else match spadRead c (g % 2048) s with
    | (some v, s1) => (some v.toNat, s1)
    | (none, s1) => (none, failLaunchAt (bedOf c) (partOf c s) .dataLost (spadConsume c (g % 2048) (partOf c s) s1))

/-- The next granule of a stream is read; `isB` marks a B stream of the grid of core `lead`. -/
def Strm.read1 (y : Strm) (lead start : Nat) (isB : Bool) (s : State) : Strm × State :=
  let g := (y.gran + y.n) % 2048
  let t := y.cycle start y.n
  let k := (s.core lead).grid
  let before := if isB then askA k y.core t (bankOf g) + askBh k y.core t (bankOf g)
    else (k.pres.filter fun p => hdrAsks p p.o.aGran y.core t (bankOf g)).length
  match gridRead y.core g (decide (ports (bankOf g) ≤ before)) s with
  | (some v, s1) => ({ y with n := y.n + 1, val := y.val + v * 2 ^ (128 * y.n) }, s1)
  | (none, s1) => ({ y with n := y.n + 1, bads := y.n :: y.bads }, s1)

/-- A stream reads its granules whose cycle is at most `t`. -/
def Strm.readTo (fuel : Nat) (y : Strm) (lead start t : Nat) (isB : Bool) (s : State) : Strm × State :=
  match fuel with
  | 0 => (y, s)
  | k + 1 =>
    if y.n < y.total ∧ y.cycle start y.n ≤ t then
      let r := y.read1 lead start isB s
      Strm.readTo k r.1 lead start t isB r.2
    else (y, s)

/-- A list of streams reads up to cycle `t`. -/
def readStrms (l : List Strm) (lead start t : Nat) (isB : Bool) (s : State) : List Strm × State :=
  match l with
  | [] => ([], s)
  | y :: r =>
    let a := Strm.readTo (y.total - y.n) y lead start t isB s
    let b := readStrms r lead start t isB a.2
    (a.1 :: b.1, b.2)

/-- An order reads its streams up to cycle `t`, A before B. -/
def Pres.readTo (p : Pres) (lead t : Nat) (s : State) : Pres × State :=
  let a := readStrms p.a lead p.start t false s
  let b := readStrms p.b lead p.start t true a.2
  ({ p with a := a.1, b := b.1 }, b.2)

/-! ## Accumulation (R62 to R65) -/

/-- What products add to a cell: the sum of rounded products and the flags. -/
structure Sum where
  tot : Int
  nan : Bool
  pinf : Bool
  ninf : Bool
  sat : Bool
  deriving DecidableEq, Repr

/-- One product under anchor `e` with the scales of its operands: rounded to units to nearest even, saturated (R63), or a flag
(R65). -/
def Sum.add (z : Sum) (a b : Fval) (sa sb : Nat) (e : Int) : Sum :=
  if sa = 255 ∨ sb = 255 then { z with nan := true }
  else match a.mul b with
    | .nan => { z with nan := true }
    | .inf neg => if neg then { z with ninf := true } else { z with pinf := true }
    | .fin neg m x =>
      let u := roundUnits .near neg m (x + (sa : Int) - 127 + (sb : Int) - 127) e
      let v := min u (2 ^ 127 - 1)
      { z with tot := z.tot + (if neg then -(v : Int) else v), sat := z.sat || decide (2 ^ 127 ≤ u) }

/-- The product of position `p` of row `i` of A and column `j` of B. -/
def denseTerm (ya yb : Layout) (a b i j : Nat) (e : Int) (z : Sum) (p : Nat) : Sum :=
  z.add (ya.ty.value ya.hasScale ((ya.elem i p).get a)) (yb.ty.value yb.hasScale ((yb.elem j p).get b))
    (ya.scale a i (p / ya.unitPos)) (yb.scale b j (p / yb.unitPos)) e

/-- The product of value `h` of sparse slot `k` of column `j` with the A element at its index (R69). -/
def sparseTerm (ya yb : Layout) (a b i j : Nat) (e : Int) (k : Nat) (z : Sum) (h : Nat) : Sum :=
  let p := 4 * k + (yb.sparseIdx j k h).get b
  z.add (ya.ty.value ya.hasScale ((ya.elem i p).get a)) (yb.ty.value yb.hasScale ((yb.sparseVal j k h).get b))
    (ya.scale a i (p / ya.unitPos)) (yb.scale b j k) e

/-- What slot `k` of an order adds at cell (i, j) over the values `a` and `b` of its streams (R40, R42, R69). -/
def slotSum (o : Order) (a b i j : Nat) (e : Int) (k : Nat) : Sum :=
  let ya := layoutA o.tcfg
  let yb := layoutB o.tcfg
  let n := slotPos (tcfgTypes o.tcfg).2.2 false
  if tcfgSparse o.tcfg then [0, 1].foldl (sparseTerm ya yb a b i j e k) ⟨0, false, false, false, false⟩
  else ((List.range n).map fun h => k * n + h).foldl (denseTerm ya yb a b i j e) ⟨0, false, false, false, false⟩

/-- Whether slot `k` of an order takes an operand of cell (i, j) from a granule that was uncorrectable (R59): an element, a scale byte,
or the index bits of B. -/
def slotFree (o : Order) (a b : Strm) (i j k : Nat) : Bool :=
  let ya := layoutA o.tcfg
  let yb := layoutB o.tcfg
  let n := slotPos (tcfgTypes o.tcfg).2.2 false
  let posA (p : Nat) : Bool := (ya.elem i p).meets a.bads || (ya.scaleAt i (p / ya.unitPos)).meets a.bads
  o.bad ||
  (if tcfgSparse o.tcfg then
    [0, 1].any fun h => posA (4 * k + (yb.sparseIdx j k h).get b.val) || (yb.sparseIdx j k h).meets b.bads ||
      (yb.sparseVal j k h).meets b.bads || (yb.scaleAt j k).meets b.bads
  else
    (List.range n).any fun h =>
      let p := k * n + h
      posA p || (yb.elem j p).meets b.bads || (yb.scaleAt j (p / yb.unitPos)).meets b.bads)

/-- A cell with an order's products added: modulo 2^152 (R64), onto its contents for KEEP (R50). -/
def Cell.accum (x : Cell) (clear : Bool) (z : Sum) : Cell :=
  let b := if clear then Cell.zero else x
  ⟨b.val + BitVec.ofInt 152 z.tot, b.nan || z.nan, b.pinf || z.pinf, b.ninf || z.ninf, b.ovf || z.sat, b.psat || z.sat⟩

/-- The key of a cell's bank. -/
def cellKey (ij bank : Nat) : Nat := 2 * ij + bank

/-- A cell whose value is undefined (R59): free values. -/
def freeCell (s : State) : Cell × State :=
  let (u, s1) := s.takeFree
  let (v, s2) := s1.takeFree
  (⟨BitVec.ofNat 152 ((v ++ u).toNat), v.getLsbD 24, v.getLsbD 25, v.getLsbD 26, v.getLsbD 27, v.getLsbD 28⟩, s2)

/-! ## Final rounding (R64, R71, R72) -/

/-- The accumulated value of a bank at its snapshot, with its flags: limited to ±(2^127 − 1). -/
def Cell.snapshot (x : Cell) : Cell :=
  let v := x.val.toInt
  if v > 2 ^ 127 - 1 then { x with val := BitVec.ofInt 152 (2 ^ 127 - 1), ovf := true }
  else if v < -(2 ^ 127 - 1) then { x with val := BitVec.ofInt 152 (-(2 ^ 127 - 1)), ovf := true }
  else x

/-- Which sticky bits of GRID_STATUS a converted value sets. -/
structure DrainFlags where
  nan : Bool
  inf : Bool
  ovf : Bool
  deriving DecidableEq, Repr

/-- A snapshot converted to the output type, with the sticky bits that it sets: NAN and INF for a result that is NaN or Inf or carries the
flag, the overflow flag standing for an Inf flag; OVF for the flag and for a finite result that overflows (R71, R72, R74). -/
def convertCell (x : Cell) (e : Int) (out : OutTy) (r : Rnd) (sat : Bool) : Nat × DrainFlags :=
  let v := x.val.toInt
  let neg := decide (v < 0)
  let nan := x.nan || (x.pinf && x.ninf)
  let inf := x.pinf || x.ninf
  let negI := if inf then x.ninf else neg
  match out with
  | .flt f =>
    if nan then (f.nan, ⟨true, inf, x.ovf⟩)
    else if inf || x.ovf then
      let c := f.encodeInf sat negI
      (c.1, ⟨c.2.inv, true, x.ovf⟩)
    else if v = 0 then (0, ⟨false, false, false⟩)
    else
      let c := f.encodeFin r sat neg v.natAbs e
      (c.1, ⟨c.2.inv, f.hasInf && decide (c.1 = f.signed neg (f.maxCode + 1)), c.2.ovf⟩)
  | .int32 =>
    if nan then (0x80000000, ⟨true, inf, x.ovf⟩)
    else if inf || x.ovf then ((if negI then 0x80000000 else 0x7FFFFFFF), ⟨false, true, x.ovf⟩)
    else
      let n := roundUnits r neg v.natAbs e 0
      ((encodeInt 32 r (.fin neg v.natAbs e)).1, ⟨false, false, decide (if neg then 2 ^ 31 < n else 2 ^ 31 ≤ n)⟩)
  | .raw128 =>
    if nan then (2 ^ 127, ⟨true, inf, x.ovf⟩)
    else if inf || x.ovf then ((if negI then 2 ^ 127 + 1 else 2 ^ 127 - 1), ⟨false, true, x.ovf⟩)
    else (v.toNat % 2 ^ 128 + (if neg then 2 ^ 128 - v.natAbs else 0), ⟨false, false, false⟩)

/-- The sticky bits of a drained result. -/
def drainFlags (c : Nat) (f : DrainFlags) (s : State) : State :=
  flagIf f.ovf F.GRID_STATUS_OVF c 0 (flagIf f.inf F.GRID_STATUS_INF c 0 (flagIf f.nan F.GRID_STATUS_NAN c 0 s))

/-! ## The cells of a core in a cycle (R41, R42, R45, R55) -/

/-- An empty stream. -/
def Strm.none : Strm := ⟨0, 0, 1, 1, 0, 0, 0, []⟩

/-- A cell of a core with its place in the grid that works: (r, s) in the 8 × 8 grid of the core, or in the joined grid (R55). -/
structure CellAt where
  core : Nat
  i : Nat
  j : Nat
  r : Nat
  s : Nat
  deriving DecidableEq, Repr

/-- The 64 cells of core `c`. -/
def placesOf (c : Nat) (esp : Bool) : List CellAt :=
  let y := if esp then c % 64 / 8 else 0
  let x := if esp then c % 8 else 0
  (List.range 64).map fun n => ⟨c, n / 8, n % 8, 8 * y + n / 8, 8 * x + n % 8⟩

/-- The key of a cell's bank. -/
def CellAt.key (p : CellAt) (bank : Nat) : Nat := cellKey (8 * p.i + p.j) bank

/-- A cell of a core replaced. -/
def putCell (p : CellAt) (bank : Nat) (x : Cell) (s : State) : State :=
  let k := s.core p.core
  s.putCore p.core { k with grid := { k.grid with banks := sput Cell.zero k.grid.banks (p.key bank) x } }

/-- The last presentation cycle of an order. -/
def Pres.last (p : Pres) : Nat := p.start + p.len - 1

/-- The slot whose products a cell adds in cycle `t`, if it adds any: two cycles after the slot's last cycle has reached it (R41,
R42). -/
def Pres.slotAt (p : Pres) (q : CellAt) (t : Nat) : Option Nat :=
  let n := tcfgSlotLen p.o.tcfg
  let u := t - (p.start + 1 + q.r + q.s)
  if p.start + 1 + q.r + q.s < t ∧ u % n = 0 ∧ u / n ≤ p.o.depth then some (u / n - 1) else none

/-- A cell adds the products of a slot: the first of a CLEAR order in place of the bank's contents (R50); a cell fed by an
uncorrectable granule holds an undefined value (R59). -/
def addCell (p : Pres) (q : CellAt) (k : Nat) (s : State) : State :=
  let a := p.a.getD (q.r / 8) Strm.none
  let b := p.b.getD (q.s / 8) Strm.none
  if slotFree p.o a b q.i q.j k then
    let r := freeCell s
    putCell q p.bank r.1 r.2
  else
    let z := slotSum p.o a.val b.val q.i q.j p.anchor k
    let x := sget Cell.zero (s.core q.core).grid.banks (q.key p.bank)
    flagIf z.sat F.GRID_STATUS_PROD_SAT q.core 0 (putCell q p.bank (x.accum (p.clear && decide (k = 0)) z) s)

/-- The drain of core `c` for an order, new where this is its first cell (R45, R46, R55). -/
def drainFor (c : Nat) (p : Pres) (late : Nat) (s : State) : State :=
  let k := s.core c
  if k.grid.drains.any fun d => decide (d.id = p.o.issue) then s
  else s.putCore c { k with grid := { k.grid with drains := k.grid.drains ++
    [⟨p.o.issue, p.o.dAddr, p.last + 12 + late, (tcfgOut p.o.tcfg).bytes, [], 0, p.o.flag⟩] } }

/-- A cell of a draining order takes its snapshot and rounds it (R45, R71): the saturation of the snapshot stays in the bank (R64). -/
def snapCell (p : Pres) (q : CellAt) (s0 : State) : State :=
  let s := drainFor q.core p (q.r / 8 * 8 + q.s / 8 * 8) s0
  let k := s.core q.core
  let old := sget Cell.zero k.grid.banks (q.key p.bank)
  let x := old.snapshot
  let t := p.o.tcfg
  let y := convertCell x p.anchor (tcfgOut t) (Rnd.ofBits (F.GRID_TCFG_RND.of t)) (decide (F.GRID_TCFG_SAT.of t = 1))
  let put (d : Drain) : Drain := if d.id = p.o.issue then { d with codes := (8 * q.i + q.j, y.1) :: d.codes } else d
  drainFlags q.core y.2 (s.putCore q.core { k with grid :=
    { k.grid with
      drains := k.grid.drains.map put, banks := sput Cell.zero k.grid.banks (q.key p.bank) { old with ovf := x.ovf } } })

/-- What one cell does for one order in cycle `t`: its snapshot in the cycle after the final add, or an add. -/
def cellTick (p : Pres) (t : Nat) (s : State) (q : CellAt) : State :=
  if !p.o.hold && decide (t = p.last + 3 + q.r + q.s) then snapCell p q s
  else match p.slotAt q t with
    | some k => addCell p q k s
    | none => s

/-- Presentation counters of one core in cycle `t` of an order (R44, R74). -/
def presTick (p : Pres) (t : Nat) (s : State) (c : Nat) : State :=
  if p.start ≤ t ∧ t ≤ p.last then
    let s1 := incF F.GRID_BUSY_CYCLES_COUNT c 0 1 s
    if p.start + presCycles p.o.tcfg p.o.depth ≤ t then incF F.GRID_PAD_CYCLES_COUNT c 0 1 s1 else s1
  else s

/-- The cycle after which an order has left the last cell of its grid. -/
def Pres.gone (p : Pres) (esp : Bool) : Nat := p.last + (if esp then 129 else 17)

/-- One order in cycle `t`: its counters and its cells, in every core it governs. -/
def orderTick (cs : List Nat) (esp : Bool) (t : Nat) (s : State) (p : Pres) : State :=
  cs.foldl (fun z c => (placesOf c esp).foldl (cellTick p t) (presTick p t z c)) s

/-- The header granules of an order are read in its issue cycle (R205). -/
def readHeader (c g : Nat) (lost used : Bool) (s : State) : Nat × Bool × State :=
  match gridRead c (g + 2047) lost s with
  | (some v, s1) => (if used then min 254 (v / 2 ^ 64 % 256) else 127, false, s1)
  | (none, s1) => (127, true, s1)

/-- The streams of an order: one each, or one in each west-edge and north-edge core in espalier (R54). -/
def orderStrms (c : Nat) (esp : Bool) (o : Order) : List Strm × List Strm :=
  let len := tcfgSlotLen o.tcfg
  let pos := slotPos (tcfgTypes o.tcfg).2.2 (tcfgSparse o.tcfg)
  let cs (f : Nat → Nat) : List Nat := if esp then (List.range 8).map fun i => c / 64 * 64 + f i else [c]
  ((cs (8 * ·)).map fun k => mkStrm k o.aGran (layoutA o.tcfg) pos len o.depth,
   (cs id).map fun k => mkStrm k o.bGran (layoutB o.tcfg) pos len o.depth)

/-- First presentation cycle of an order issued in cycle `i` (R43). -/
def presStart (g : Grid) (i : Nat) : Nat :=
  match g.flow.getLast? with
  | none => i + 4
  | some p => max (i + 4) (p.start + p.len)

/-- An order as it waits, its bank and anchor not yet chosen. -/
def pendingPres (c : Nat) (esp : Bool) (o : Order) (start : Nat) : Pres :=
  let y := orderStrms c esp o
  ⟨o, start, presLen o.tcfg o.depth, 0, 0, false, y.1, y.2⟩

/-- The order becomes the grid's pending order. In espalier core 0 reads both header granules, those below the streams of its own
scratchpad (DESIGN CHOICE, log entry 13). -/
def takeOrder (c : Nat) (f : OrderF) (s : State) : State :=
  let k := s.core c
  let t := actOf c s
  let esp := (s.bed (bedOf c)).espalier
  let cfg := readReg .GRID_TCFG c f.tcfg.toNat s
  let w8 := 8 * (8 * (tcfgOut cfg).bytes)
  let o0 : Order :=
    { issue := t, aGran := spGran k f.xbase f.a, bGran := spGran k f.xbase f.b,
      dAddr := spAddr k f.xbase (16 * f.d.toNat) / w8 * w8, depth := f.depth.toNat + 1, tcfg := cfg, keep := f.keep,
      hold := f.hold, flag := f.flag,
      hdr := decide (F.GRID_TCFG_ANCHOR_SRC.of cfg = 1) && (!f.keep || k.grid.first), xa := 127, xb := 127, bad := false }
  let start := presStart k.grid t
  let pend (o : Order) (s : State) : State :=
    let k1 := s.core c
    s.putCore c { k1 with grid := { k1.grid with pending := some (pendingPres c esp o start) } }
  if o0.hdr then
    let bb := bankOf (o0.bGran + 2047)
    let lostB := decide (ports bb ≤ askA { k.grid with pending := some (pendingPres c esp o0 start) } c t bb)
    let a := readHeader c o0.aGran false (layoutA cfg).hasScale s
    let b := readHeader c o0.bGran lostB (layoutB cfg).hasScale a.2.2
    pend { o0 with xa := a.1, xb := b.1, bad := a.2.1 || b.2.1 } b.2.2
  else pend o0 s

/-- ORDER (R43, R54): in a non-leader core of an espalier bed it is ignored; while another order is pending it is discarded;
else it is taken. -/
def doOrder (c : Nat) (i : Instr) (f : OrderF) : State → State :=
  issueSlot c .grid i fun s =>
    if (s.bed (bedOf c)).espalier && decide (c % 64 ≠ 0) then flagF F.GRID_STATUS_IGNORED c 0 s
    else if (s.core c).grid.pending.isSome then flagF F.GRID_STATUS_DROPPED c 0 s
    else takeOrder c f s

def execOrder (c : CoreId) (o : OrderF) (s : State) : Host.Outcome State Fault Refusal := .next (doOrder c (.order c o) o s)

/-- What the start of a presentation fixes in one core (R44, R50, R66, R74): the bank of the order, the anchor of that bank, and the mark
of a padded order. -/
def presBegin (bank : Nat) (clear : Option Int) (padded : Bool) (s : State) (c : Nat) : State :=
  let k := s.core c
  let g := k.grid
  let g1 := { g with bank := bank, first := false,
                     anchor0 := if bank = 0 then clear.getD g.anchor0 else g.anchor0,
                     anchor1 := if bank = 0 then g.anchor1 else clear.getD g.anchor1 }
  flagIf padded F.GRID_STATUS_PADDED c 0 (s.putCore c { k with grid := g1 })

/-- A pending order begins presentation once its cycle S has come (R43, R44, R50): the bank is chosen, and a CLEAR order, or the
launch's first, fixes the bank's anchor (R51, R66). In espalier every core of the bed takes the bank, the mark and the counters of
core 0's order (DESIGN CHOICE, log entry 13). -/
def startPres (lead t : Nat) (s : State) : State :=
  let k := s.core lead
  let g := k.grid
  match g.pending with
  | none => s
  | some p =>
    if t < p.start then s
    else
      let bank := if g.first then 0 else if p.o.keep then g.bank else 1 - g.bank
      let clear := if p.o.keep && !g.first then none else some (anchorOf p.o)
      let e := clear.getD (if bank = 0 then g.anchor0 else g.anchor1)
      let p1 := { p with bank := bank, anchor := e, clear := !p.o.keep }
      let s1 := s.putCore lead { k with grid := { g with pending := none, flow := g.flow ++ [p1] } }
      (gridCores lead s).foldl (presBegin bank clear (decide (presCycles p.o.tcfg p.o.depth < p.len))) s1

def execGridPresentStart (c : CoreId) (s : State) : Host.Outcome State Fault Refusal :=
  .next (startPres (gridLead c s) (actOf c s) s)

/-! ## Drain writes (R45, R46, R58) -/

/-- Bytes of one write of a drain: a row, or 32 bytes of it. -/
def Drain.size (d : Drain) : Nat := min 32 (8 * d.width)

/-- Writes of a drain. -/
def Drain.count (d : Drain) : Nat := 64 * d.width / d.size

/-- Values of one write. -/
def Drain.per (d : Drain) : Nat := d.size / d.width

/-- The address of the next write of a drain. -/
def Drain.addr (d : Drain) : Nat := (d.dest + d.next * d.size) % 32768

/-- The bytes of the next write. -/
def Drain.piece (d : Drain) : Nat := joinLanes (8 * d.width) d.per fun l => (look d.codes (d.next * d.per + l)).getD 0

/-- One write of a drain, unless a region forbids it (R115). A write that meets an uncorrectable granule it does not cover leaves its
launch DATA_LOST (R396). -/
def drainPiece (c : Nat) (d : Drain) (s : State) : State :=
  let a := d.addr
  let g := a / 16
  let n := (d.size + 15) / 16
  if !regionOk c 0 g (g + n - 1) false true s then regionViol c 0 s
  else
    let r := spadStore c g n (onesAt (a % 16) d.size) (d.piece * 2 ^ (8 * (a % 16))) s
    if r.1 then r.2 else failLaunchAt (bedOf c) (partOf c s) .dataLost r.2

/-- The oldest drain replaced. -/
def setDrain (c : Nat) (d : Drain) (s : State) : State :=
  let k := s.core c
  match k.grid.drains with
  | [] => s
  | _ :: r => s.putCore c { k with grid := { k.grid with drains := d :: r } }

/-- The oldest drain of a core is over: its tile flag rises (R45, R94). -/
def endDrain (c : Nat) (s : State) : State :=
  let k := s.core c
  match k.grid.drains with
  | [] => s
  | d :: r =>
    incF F.GRID_TILES_COUNT c 0 1 (riseFlag c d.flag (s.putCore c { k with grid := { k.grid with drains := r } }))

/-- The next write of the oldest drain in cycle `t`: made, or deferred with everything after it where its bank serves the grid's own
reads (R58). -/
def drainStep (c t : Nat) (s : State) : State :=
  let k := s.core c
  match k.grid.drains with
  | [] => s
  | d :: _ =>
    if d.next < d.count ∧ d.at0 + d.next + k.grid.shift ≤ t then
      let b := bankOf (d.addr / 16)
      if ports b ≤ askReads (s.core (gridLead c s)).grid c t b then
        clash c (s.putCore c { k with grid := { k.grid with shift := k.grid.shift + 1 } })
      else setDrain c { d with next := d.next + 1 } (drainPiece c d s)
    else s

/-- The grid drain of core `c` in cycle `t`: the flag of a drain whose last row is written rises in the cycle after it (R45), and the
next write that is due is made. A drain of D_row 4 followed by one of D_row 1 keeps the buffer: the later one is held until the
earlier one is over (DESIGN CHOICE, log entry 13). -/
def drainTick (c t : Nat) (s : State) : State :=
  let g := (s.core c).grid
  drainStep c t (match g.drains with
    | [] => s
    | d :: _ => if d.next = d.count ∧ d.at0 + d.count + g.shift ≤ t then endDrain c s else s)

/-- GRID_DRAIN: what the grid's drain does in the present cycle. -/
def execGridDrain (c : CoreId) (s : State) : Host.Outcome State Fault Refusal := .next (drainTick c (actOf c s) s)

/-- Whether nothing that a core issued to its grid is under way (R53, R99): nothing pending, flowing or draining; in espalier core 0's
orders are complete when the last core of the bed has drained. -/
def gridQuiet (c : Nat) (s : State) : Bool :=
  let g := (s.core c).grid
  g.pending.isNone && g.flow.isEmpty &&
  (if gridLead c s = c then gridCores c s else [c]).all fun d => (s.core d).grid.drains.isEmpty

/-! ## A cycle of a grid -/

/-- The grid reads of cycle `t` by the grid of core `c`: of each order A before B, older orders first (R57, R58). -/
def gridReads (c t : Nat) (s : State) : State :=
  let one (z : List Pres × State) (p : Pres) : List Pres × State := let r := p.readTo c t z.2; (z.1 ++ [r.1], r.2)
  let g := (s.core c).grid
  let f := g.flow.foldl one ([], s)
  let q : Option Pres × State := match g.pending with
    | none => (none, f.2)
    | some p => let r := p.readTo c t f.2; (some r.1, r.2)
  let k := q.2.core c
  q.2.putCore c { k with grid := { k.grid with flow := f.1, pending := q.1 } }

/-- Cycle `t` of the grid of core `c`, the leader of its cores: reads, then the cells of each order, oldest first; an order whose
operands have left the last cell is over. -/
def gridTick (c t : Nat) (s : State) : State :=
  let g := (s.core c).grid
  if g.flow.isEmpty && g.pending.isNone then s
  else
    let s1 := gridReads c t s
    let esp := (s.bed (bedOf c)).espalier
    let s2 := (s1.core c).grid.flow.foldl (orderTick (gridCores c s) esp t) s1
    let k := s2.core c
    s2.putCore c { k with grid := { k.grid with flow := k.grid.flow.filter fun p => decide (t < p.gone esp) } }

end Sys2Proof.Machine
end

