-- ==== Sys2Proof/Machine/LocalMove.lean ====
section
/-!
DEFINITION. The local-move slot (R92): scalar loads and stores, granule copies and fills, and writes to the core's own CSR
page.
-/

namespace Sys2Proof.Machine

/-- A local-move operation: discarded with LM_DROPPED set while a COPY or FILL occupies the port (R92). -/
def lmOp (c : Nat) (i : Instr) (f : State → State) : State → State :=
  issueSlot c .lm i fun s =>
    let k := s.core c
    if actOf c s ≤ k.lmBusy ∧ k.lmBusy ≠ 0 then flagF F.CORE_STATUS_LM_DROPPED c 0 s else f s

/-- The byte address of an LDX or STX, aligned down to 8 bytes (R82). -/
def lmAddr (k : Core) (xbase : BitVec 5) (off : BitVec 15) : Nat := spAddr k xbase off.toNat / 8 * 8

/-- LDX: its bank is read in I + 1; latency 4. -/
def doLdx (c : Nat) (i : Instr) (xd xbase : BitVec 5) (off : BitVec 15) : State → State :=
  lmOp c i fun s =>
    let a := lmAddr (s.core c) xbase off
    let t := actOf c s
    schedule c [⟨t + 1, 2, a / 16, 1, .xread xd (a % 16) (t + 4) t⟩] s

def execLdx (c : CoreId) (xd xbase : BitVec 5) (off : BitVec 15) (s : State) : Host.Outcome State Fault Refusal :=
  .next (doLdx c (.ldx c xd xbase off) xd xbase off s)

/-- STX: written at I + 2. -/
def doStx (c : Nat) (i : Instr) (xs xbase : BitVec 5) (off : BitVec 15) : State → State :=
  lmOp c i fun s =>
    let k := s.core c
    let a := lmAddr k xbase off
    schedule c [⟨actOf c s + 2, 2, a / 16, 1,
      .write (BitVec.ofNat 512 ((k.rx xs).toNat * 2 ^ (8 * (a % 16)))) (BitVec.ofNat 64 (onesAt (a % 16) 8))⟩] s

def execStx (c : CoreId) (xs xbase : BitVec 5) (off : BitVec 15) (s : State) : Host.Outcome State Fault Refusal :=
  .next (doStx c (.stx c xs xbase off) xs xbase off s)

/-- The port of a COPY or FILL of LEN + 1 granules is held from I + 1 to I + 1 + LEN, and its flag rises in I + 3 + LEN. -/
def lmRun (c : Nat) (m : MoveF) (accs : Nat → List Acc) (s : State) : State :=
  let k := s.core c
  let t := actOf c s
  let s1 := schedule c (accs t) (s.putCore c { k with lmBusy := t + 1 + m.len.toNat })
  if m.raise then deliver c (3 + m.len.toNat) 1 (.flag m.flag false) s1 else s1

/-- COPY: granule n is read in I + 1 + n and written in I + 2 + n. -/
def doCopy (c : Nat) (i : Instr) (m : MoveF) : State → State :=
  lmOp c i fun s =>
    let k := s.core c
    lmRun c m (fun t => (List.range (m.len.toNat + 1)).map fun n =>
      ⟨t + 1 + n, 2, (spGran k m.xsrc m.srcGran + n) % 2048, 1, .copy ((spGran k m.xdst m.dstGran + n) % 2048)⟩) s

def execCopy (c : CoreId) (m : MoveF) (s : State) : Host.Outcome State Fault Refusal := .next (doCopy c (.copy c m) m s)

/-- FILL: granule n is written with zeros in I + 2 + n. -/
def doFill (c : Nat) (i : Instr) (m : MoveF) : State → State :=
  lmOp c i fun s =>
    let k := s.core c
    lmRun c m (fun t => (List.range (m.len.toNat + 1)).map fun n =>
      ⟨t + 2 + n, 2, (spGran k m.xdst m.dstGran + n) % 2048, 1, .write 0 (BitVec.ofNat 64 65535)⟩) s

def execFill (c : CoreId) (m : MoveF) (s : State) : Host.Outcome State Fault Refusal := .next (doFill c (.fill c m) m s)

/-- CSRW: writes x[XS] to the aligned word of the core's own CSR page; it takes effect for bundles issued in I + 1 or later
(R92). -/
def doCsrw (c : Nat) (i : Instr) (xs : BitVec 5) (off : BitVec 12) : State → State :=
  lmOp c i fun s => deliver c 1 1 (.csr off ((s.core c).rx xs)) s

def execCsrw (c : CoreId) (xs : BitVec 5) (off : BitVec 12) (s : State) : Host.Outcome State Fault Refusal :=
  .next (doCsrw c (.csrw c xs off) xs off s)

end Sys2Proof.Machine
end

