-- ==== Sys2Proof/Machine/Access.lean ====
section
/-!
DEFINITION. The scratchpad accesses of the core masters in one cycle: the grant at each bank (R110 to R113), losses (R79), region
checks (R115), and the results they send on.
-/

namespace Sys2Proof.Machine

/-! ## Grants -/

/-- Whether the drain of core `c` asks for a bank in cycle `t` (R58). -/
def askDrain (c t bank : Nat) (s : State) : Bool :=
  let g := (s.core c).grid
  match g.drains with
  | [] => false
  | d :: _ => decide (d.next < d.count) && decide (d.at0 + d.next + g.shift ≤ t) && decide (bankOf (d.addr / 16) = bank)

/-- The requests of the grid masters at a bank of core `c` in cycle `t`. -/
def askGrid (c t bank : Nat) (s : State) : Nat :=
  askReads (s.core (gridLead c s)).grid c t bank + (if askDrain c t bank s then 1 else 0)

/-- Vector accesses of cycle `t` in the order in which they were issued, then local-move accesses. -/
def Core.accsAt (k : Core) (t : Nat) : List Acc :=
  (k.accs.filter fun a => decide (a.cyc = t) && decide (a.master = 1)) ++
  (k.accs.filter fun a => decide (a.cyc = t) && decide (a.master ≠ 1))

/-- The accesses of a list with the mark that each is granted, `seen` being those before it. -/
def grants (c t : Nat) (s : State) (seen : List Acc) : List Acc → List (Acc × Bool)
  | [] => []
  | a :: r =>
    let b := bankOf a.gran
    (a, decide (askGrid c t b s + (seen.filter fun x => decide (bankOf x.gran = b)).length < ports b)) ::
      grants c t s (a :: seen) r

/-- Every request of the core masters at a bank in cycle `t`. -/
def askCore (c t bank : Nat) (s : State) : Nat :=
  askGrid c t bank s + (((s.core c).accsAt t).filter fun a => decide (bankOf a.gran = bank)).length

/-- An access lost at its bank (R79, R117). -/
def loseAcc (c : Nat) (a : Acc) (s : State) : State :=
  incF F.SPAD_CONFLICT_COUNT c a.master a.n (incF F.CORE_LOSS_COUNT_COUNT c 0 a.n
    (flagF (if a.master = 1 then F.CORE_STATUS_VEC_LOSS else F.CORE_STATUS_LM_LOSS) c 0 s))

/-! ## Reads -/

/-- A core master consumes an uncorrectable granule: an undefined value, and its launch is DATA_LOST (R59, R89, R138). -/
def freeGran (c g : Nat) (s : State) : Nat × State :=
  let (v, s1) := s.takeFree
  (v.toNat, failLaunchAt (bedOf c) (partOf c s) .dataLost (spadConsume c g (partOf c s) s1))

/-- `n` granules from granule `g` of core `c`. -/
def readGrans (c g n : Nat) (s : State) : Nat × State :=
  match n with
  | 0 => (0, s)
  | m + 1 =>
    let (lo, s1) := readGrans c g m s
    match spadRead c (g + m) s1 with
    | (some v, s2) => (lo + v.toNat * 2 ^ (128 * m), s2)
    | (none, s2) => let (v, s3) := freeGran c (g + m) s2; (lo + v * 2 ^ (128 * m), s3)

/-- A result put in flight. -/
def sendInfl (c : Nat) (i : Infl) (s : State) : State :=
  let k := s.core c
  s.putCore c { k with infl := k.infl ++ [i] }

/-- What a read access does with the data of its granules. -/
def landRead (c : Nat) (a : Acc) (v : Nat) (s : State) : State :=
  match a.kind with
  | .write _ _ => s
  | .vread r part mask due issue =>
    sendInfl c ⟨due, issue, 0, .v r (BitVec.ofNat 512 (v * 2 ^ (128 * part)))
      (mask &&& BitVec.ofNat 512 ((2 ^ (128 * a.n) - 1) * 2 ^ (128 * part)))⟩ s
  | .lane r j sub due issue =>
    sendInfl c ⟨due, issue, 0, .v r (BitVec.ofNat 512 (v / 2 ^ (8 * sub) % 2 ^ 32 * 2 ^ (32 * j)))
      (BitVec.ofNat 512 ((2 ^ 32 - 1) * 2 ^ (32 * j)))⟩ s
  | .xread r sub due issue => sendInfl c ⟨due, issue, 1, .x r (BitVec.ofNat 64 (v / 2 ^ (8 * sub)))⟩ s
  | .copy dest => schedule c [⟨a.cyc + 1, 2, dest, 1, .write (BitVec.ofNat 512 v) (BitVec.ofNat 64 65535)⟩] s

/-- A read access in its cycle: zeros where it is lost (R79) or forbidden (R115). -/
def readAcc (c : Nat) (a : Acc) (granted : Bool) (s : State) : State :=
  if !granted then landRead c a 0 (loseAcc c a s)
  else if !regionOk c a.master a.gran (a.gran + a.n - 1) true false s then landRead c a 0 (regionViol c a.master s)
  else let (v, s1) := readGrans c a.gran a.n s; landRead c a v s1

/-- A write access in its cycle: dropped where it is lost or forbidden. -/
def writeAcc (c : Nat) (a : Acc) (granted : Bool) (s : State) : State :=
  match a.kind with
  | .write data bytes =>
    if !granted then loseAcc c a s
    else if !regionOk c a.master a.gran (a.gran + a.n - 1) false true s then regionViol c a.master s
    else
      let r := spadStore c a.gran a.n bytes.toNat data.toNat s
      if r.1 then r.2 else failLaunchAt (bedOf c) (partOf c s) .dataLost r.2
  | _ => s

/-- Whether an access writes. -/
def Acc.isWrite (a : Acc) : Bool :=
  match a.kind with
  | .write _ _ => true
  | _ => false

/-- The read accesses of cycle `t` that `p` selects are performed and leave the schedule (R113: they see the values from before
the cycle). -/
def coreReads (c t : Nat) (p : Acc → Bool) (s : State) : State :=
  let k := s.core c
  let l := (grants c t s [] (k.accsAt t)).filter fun x => !x.1.isWrite && p x.1
  let s1 := s.putCore c { k with accs := k.accs.filter fun a => !(decide (a.cyc = t) && !a.isWrite && p a) }
  l.foldl (fun z x => readAcc c x.1 x.2 z) s1

/-- The write accesses of cycle `t`, the later in the order of R111 first, so that the earlier keeps its bytes (R113). -/
def coreWrites (c t : Nat) (g : List (Acc × Bool)) (s : State) : State :=
  let k := s.core c
  let s1 := s.putCore c { k with accs := k.accs.filter fun a => !(decide (a.cyc ≤ t) && a.isWrite) }
  (g.filter fun x => x.1.isWrite).reverse.foldl (fun z x => writeAcc c x.1 x.2 z) s1

/-- Whether everything that a core issued has completed (R99). -/
def coreQuiet (c : Nat) (s : State) : Bool :=
  let k := s.core c
  k.infl.isEmpty && k.accs.isEmpty && k.rises.isEmpty && gridQuiet c s && decide (k.vmBusy ≤ actOf c s) &&
  decide (k.lmBusy ≤ actOf c s)

/-- The reads of the core masters of core `c` in cycle `t`, and the cells of its grid. -/
def readTick (c t : Nat) (s : State) : State := coreReads c t (fun _ => true) (gridTick c t s)

/-- The writes of the core masters of core `c` in cycle `t`, by the grants `g` of the cycle: those of a master earlier in the order of R111
last, so that its bytes stay (R113). -/
def writeTick (c t : Nat) (g : List (Acc × Bool)) (s : State) : State := drainTick c t (coreWrites c t g s)

end Sys2Proof.Machine
end

