-- ==== Sys2Proof/Machine/Sync.lean ====
section
/-!
DEFINITION. The sync slot (R93 to R98) but for KICK and the release of a sync point: waits, posts, skips, loops, phases and the
end of a stream. A WAITF that is not satisfied, and a SYNC, hold their bundle back: every slot of it issues in the cycle the wait
ends (R76).
-/

namespace Sys2Proof.Machine

/-- A core that stands before a bundle whose wait is not over waits (R76, R93, R95): at a SYNC it has arrived, level 3 acting as 2. -/
def holdCore (c : Nat) (s : State) : State :=
  let k := s.core c
  if !atBundle c s || (k.bundleAt (actOf c s)).isSome then s
  else match k.bundle.map (slotCmd (coreId c) .sync), k.wait with
    | some (.waitf _ f keep), _ => if 1 ≤ k.flag f then s else s.putCore c { k with wait := .flag f keep }
    | some (.sync _ _), .sync _ _ => s
    | some (.sync _ l), _ => if k.passed then s else s.putCore c { k with wait := .sync (if l = 3 then 2 else l) (actOf c s) }
    | _, _ => s

/-- Whether the bundle that a core is about to issue holds a command in its sync slot. -/
def atSlot (c : Nat) (i : Instr) (s : State) : Bool := decide ((bundleNow c s).map (slotCmd (coreId c) .sync) = some i)

/-- Whether a core has arrived at a sync point, or is over (R95, R99); it counts as halted from the issue of its HALT on (DESIGN
CHOICE, log entry 6). -/
def Core.arrived (k : Core) : Bool :=
  k.finished || k.halted || (match k.wait with
    | .sync _ _ => true
    | _ => false)

/-- The active cycle in which a core arrived. -/
def Core.arrivedAt (k : Core) : Nat :=
  match k.wait with
  | .sync _ t => t
  | _ => k.haltAt

/-- Whether a core waits at a SYNC of a level that `p` picks. -/
def Core.atSync (k : Core) (p : Nat → Bool) : Bool :=
  match k.wait with
  | .sync v _ => p v.toNat
  | _ => false

/-- A SYNC at which a core waits has been released: its bundle issues in the same cycle where it is resident (R76, R95). -/
def passSync (c : Nat) (s : State) : State := s.putCore c { s.core c with wait := .none, passed := true }

/-- WAITF (R93, R94): satisfied where the flag is at least 1, it takes the flag unless KEEP is 1; else the core waits. -/
def doWaitf (c : Nat) (i : Instr) (f : BitVec 5) (keep : Bool) (s : State) : State :=
  if canIssue c .sync i s then
    let s1 := beginSlot c .sync s
    if keep then s1 else s1.putCore c { s1.core c with took := some f }
  else if atSlot c i s then holdCore c s
  else s

def execWaitf (c : CoreId) (flag : BitVec 5) (keep : Bool) (s : State) : Host.Outcome State Fault Refusal :=
  .next (doWaitf c (.waitf c flag keep) flag keep s)

/-- POST: adds 1 to a tile flag of a core of the same bed in I + 3 (R93). -/
def doPost (c : Nat) (i : Instr) (target : BitVec 6) (f : BitVec 5) : State → State :=
  issueSlot c .sync i fun s => deliver (c / 64 * 64 + target.toNat) 3 0 (.flag f false) s

def execPost (c : CoreId) (target : BitVec 6) (flag : BitVec 5) (s : State) : Host.Outcome State Fault Refusal :=
  .next (doPost c (.post c target flag) target flag s)

/-- SYNC: the core arrives and waits (R95). -/
def doSync (c : Nat) (i : Instr) (s : State) : State := if atSlot c i s then holdCore c s else s

def execSync (c : CoreId) (level : BitVec 2) (s : State) : Host.Outcome State Fault Refusal := .next (doSync c (.sync c level) s)

/-- SKIP: no bundle issues in the N + 1 cycles after this one (R97). -/
def doSkip (c : Nat) (i : Instr) (n : BitVec 12) : State → State :=
  issueSlot c .sync i fun s => s.putCore c { s.core c with skip := n.toNat + 2 }

def execSkip (c : CoreId) (n : BitVec 12) (s : State) : Host.Outcome State Fault Refusal := .next (doSkip c (.skip c n) n s)

/-- What a LOOP at bundle `i` does to the stream position and the open loops (R97): the body is cut at the end of the outer body,
a count of 0 skips it. The third value tells that the loop was cut. -/
def openLoop (loops : List Loop) (i len count : Nat) : Nat × List Loop × Bool :=
  let room := match loops with
    | [] => len
    | l :: _ => min len (l.first + l.len - (i + 1))
  let cut := decide (room < len)
  if room = 0 ∨ count = 0 then
    let r := nextPc loops (i + room)
    (r.1, r.2, cut)
  else (i + 1, ⟨i + 1, room, count - 1⟩ :: loops, cut)

/-- The count of a LOOP (R97). -/
def loopCount (k : Core) (l : LoopF) : Nat :=
  if l.fromx then min 4096 (k.rx (l.count.setWidth 5)).toNat else l.count.toNat

/-- LOOP (R97): inside two open loops it acts as NOP with LOOP_ERR set. -/
def doLoop (c : Nat) (i : Instr) (l : LoopF) : State → State :=
  issueSlot c .sync i fun s =>
    let k := s.core c
    match k.opened with
    | none => s
    | some o =>
      if 2 ≤ o.loops.length then flagF F.CORE_STATUS_LOOP_ERR c 0 s
      else
        let r := openLoop o.loops o.idx.toNat (l.len.toNat + 1) (loopCount k l)
        flagIf r.2.2 F.CORE_STATUS_LOOP_ERR c 0 (s.putCore c { k with pc := BitVec.ofNat 32 r.1, loops := r.2.1 })

def execLoop (c : CoreId) (l : LoopF) (s : State) : Host.Outcome State Fault Refusal := .next (doLoop c (.loop c l) l s)

/-- PHASE (R98): the phase of the bed is that of its core 0. -/
def doPhase (c : Nat) (i : Instr) (tag : BitVec 8) : State → State :=
  issueSlot c .sync i fun s =>
    let s1 := s.putCore c { s.core c with phase := tag }
    if c % 64 = 0 then s1.putBed (bedOf c) { s1.bed (bedOf c) with phase := tag } else s1

def execPhase (c : CoreId) (tag : BitVec 8) (s : State) : Host.Outcome State Fault Refusal := .next (doPhase c (.phase c tag) tag s)

/-- HALT (R97): the stream ends and open loops are closed. -/
def doHalt (c : Nat) (i : Instr) : State → State :=
  issueSlot c .sync i fun s => s.putCore c { s.core c with halted := true, haltAt := actOf c s, loops := [] }

def execHalt (c : CoreId) (s : State) : Host.Outcome State Fault Refusal := .next (doHalt c (.halt c) s)

/-- NOP: the slot issues nothing (R81). -/
def execNop (c : CoreId) (slot : Slot) (s : State) : Host.Outcome State Fault Refusal := .next (issueSlot c slot (.nop c slot) id s)

end Sys2Proof.Machine
end

