-- ==== Sys2Proof/Machine/Spad.lean ====
section
/-!
DEFINITION. Outside accesses to a scratchpad (R118 to R122), its atomics (R161), and the retention of a bed group (R123, R124).
-/

namespace Sys2Proof.Machine

/-! ## Checks -/

/-- Why an access to the scratchpad of core `c` is not served, if it is not (R27, R28, R123, R316): its bed group belongs to
nobody or is not ON, its plot is not present, or the requester may not reach it. -/
def winBad (w : Who) (c : Nat) (s : State) : Option Status :=
  let g := bgOf (bedOf c)
  match bgOwner g s with
  | none => some .dieAbsent
  | some p =>
    if !slotPresent (plotOf (bedOf c)) s || decide (2 ≤ s.bgPower g) then some .dieAbsent
    else if w.remote then
      (if (getF F.HAL_WIN_OPEN_OPEN 0 0 s).testBit p then none else some .pageFault)
    else if w.host || decide (w.part.val = p) then none
    else some .pageFault

/-- The partition that owns a core's bed group rolls back, its launch being DATA_LOST (R138). -/
def ownerLost (c : Nat) (s : State) : State :=
  match bgOwner (bgOf (bedOf c)) s with
  | some p => failLaunchAt (bedOf c) p .dataLost s
  | none => s

/-- The master number of an outside access. -/
def masterOf (o : Outside) : Nat := if o.brw then 3 else 4

/-! ## Arrival (R118, R120) -/

/-- An access given whole. -/
def outOf (r : OutReq) : Outside :=
  ⟨r.id, false, r.brw, r.who, r.off.toNat, r.len, r.write, BitVec.ofNat 128 (2 ^ r.len - 1), r.data, r.form, none, 0, 0, .ok, none, false⟩

/-- Whether an atomic does nothing but read (R160, R161). -/
def atomPlain (a : Atom) : Bool := decide (a.aop = 0) || decide (0xC < a.aop.toNat)

/-- A scratchpad atomic: AOP 0x0, and 0xD to 0xF with it, is a plain read (R160). -/
def outAtom (id : Nat) (net brw : Bool) (w : Who) (off : Nat) (form : Form) (a : Atom) : Outside :=
  let o := off / a.bytes * a.bytes
  if atomPlain a then ⟨id, net, brw, w, o, a.bytes, false, 0, 0, form, none, 0, 0, .ok, none, false⟩
  else ⟨id, net, brw, w, o, a.bytes, true, BitVec.ofNat 128 (2 ^ a.bytes - 1), 0, form, some a, 0, 0, .ok, none, false⟩

/-- The bed whose barrow makes a request. -/
def srcBarrow (x : Src) : Option Nat :=
  match x with
  | .brw b => some b
  | _ => none

/-- A request under way as an access of the scratchpad of core `c`. -/
def outOfReq (r : Req) (c off : Nat) (form : Form) : Outside :=
  let brw := decide (srcBarrow r.src = some (bedOf c))
  match r.atom with
  | some a => outAtom r.id true brw r.who off form a
  | none => ⟨r.id, true, brw, r.who, off, r.len, r.write, r.mask, r.data, form, none, 0, 0, .ok, none, false⟩

/-- An access answered: to its request where it is one under way, else by a response. -/
def answerOut (o : Outside) (st : Status) (d : BitVec 1024) (s : State) : State :=
  if o.net then
    match netGet o.id s with
    | some r => complete r st d s
    | none => s
  else respond o.id st d s

/-- Why an access is not taken by the scratchpad of core `c`, if it is not: as for any access, and a floating-point add, or an atomic
through an alias, with PAGE_FAULT (R161). -/
def outBad (c : Nat) (o : Outside) (s : State) : Option Status :=
  match winBad o.who c s with
  | some st => some st
  | none =>
    match o.atom with
    | some a => if a.isFadd || decide (o.form ≠ .plain) then some .pageFault else none
    | none => none

/-- Whether a scratchpad has no room for one more waiting request of WIN (R120). -/
def winFull (c : Nat) (s : State) : Bool := decide (16 ≤ ((s.core c).outside.filter fun o => !o.brw).length)

/-- An access queued at a scratchpad, its request with it. -/
def bankOut (c : Nat) (o : Outside) (s : State) : State :=
  let k := s.core c
  let s1 := s.putCore c { k with outside := k.outside ++ [o] }
  if o.net then
    match netGet o.id s1 with
    | some r => netPut { r with st := .banked } s1
    | none => s1
  else s1

/-- The window address of a byte of a scratchpad (R32). -/
def windowAddr (c off : Nat) (f : Form) : Nat :=
  let w : Nat := match f with
    | .plain => 2
    | .bitSet => 3
    | .bitClear => 4
  w * 2 ^ 48 + c / 25600 * 2 ^ 30 + c / 64 % 400 * 2 ^ 21 + c % 64 * 2 ^ 15 + off % 32768

/-- An access given whole that must stay in the mesh for want of room: a request under way from then on (R120). -/
def meshHold (c : Nat) (o : Outside) (s : State) : State :=
  { s with net := s.net ++ [⟨o.id, .ext, o.who, 0, windowAddr c o.off o.form, o.len, o.write, o.data, o.mask, o.atom, BitVec.allOnes 32, 0, .sent,
    .ok, 0, s.tick, false, false, false, none, false, 0, [], false, ⟨false, false, false⟩⟩] }

/-- An access reaches a scratchpad (R28, R118, R120): answered with the status that stops it, held in the mesh while 16 requests of WIN
wait, or queued in order of arrival. -/
def outsideAccess (c : Nat) (o : Outside) (s : State) : State :=
  match outBad c o s with
  | some st => answerOut o st 0 s
  | none => if !o.brw && winFull c s then (if o.net then s else meshHold c o s) else bankOut c o s

/-- A request under way reaches its scratchpad, if it is bound for one and no earlier write or atomic of its source to it is still on its
way (R148); `atom` selects the atomics. -/
def underSpad (id : Nat) (atom : Bool) (s : State) : State :=
  match netGet id s with
  | none => s
  | some r =>
    let early := (s.net.takeWhile fun x => decide (x.id ≠ r.id)).any fun x =>
      decide (x.src = r.src) && decide (x.st = .sent) && (x.write || x.atom.isSome) && isLocal x.pkg s &&
      decide (x.pa / 2 ^ 15 % 2 ^ 33 = r.pa / 2 ^ 15 % 2 ^ 33)
    if r.st ≠ .sent then dropCopy r s
    else if !isLocal r.pkg s ∨ r.atom.isSome ≠ atom ∨ early then s
    else if cutOff r.src r.pkg r.pa s then complete r .dieAbsent 0 s
    else
      match placeOf r.pa s with
      | .spad c off f => outsideAccess c (outOfReq r c off f) s
      | .gone => complete r .dieAbsent 0 s
      | _ => s

/-- Whether an address is one of the scratchpad of another core than `c`. -/
def spadElse (c pa : Nat) (s : State) : Bool :=
  match placeOf pa s with
  | .spad d _ _ => decide (d ≠ c)
  | _ => false

/-- A request under way reaches core `c`. -/
def reachSpad (c id : Nat) (atom : Bool) (s : State) : State :=
  if (netGet id s).any fun r => spadElse c r.pa s then s else underSpad id atom s

/-- SPAD_OUTSIDE_ACCESS. -/
def spadArrive (c : Nat) (x : SpadIn) (s : State) : State :=
  match x with
  | .under id => reachSpad c id false s
  | .direct r => outsideAccess c (outOf r) s

/-- Whether an access given whole lies within one line. -/
def SpadInOk (x : SpadIn) : Bool :=
  match x with
  | .under _ => true
  | .direct r => decide (1 ≤ r.len) && decide (r.off.toNat % 128 + r.len ≤ 128)

def execSpadOutsideAccess (c : CoreId) (x : SpadIn) (s : State) : Host.Outcome State Fault Refusal :=
  if SpadInOk x then .next (spadArrive c x s)
  else .fault (.illFormed "an outside request lies within one 128-byte line (R118)")

/-- SPAD_ATOMIC (R161): an atomic reaches its bank; without an operation it is request `id`, under way to core `c`. -/
def spadAtomic (c id off : Nat) (a? : Option Atom) (w : Who) (s : State) : State :=
  match a? with
  | none => reachSpad c id true s
  | some a => outsideAccess c (outAtom id false false w off .plain a) s

def execSpadAtomic (c : CoreId) (id : Nat) (off : BitVec 15) (a : Option Atom) (w : Who) (s : State) : Host.Outcome State Fault Refusal :=
  .next (spadAtomic c id off.toNat a w s)

/-! ## Grants (R111, R112, R119) -/

/-- The first waiting access of a master. -/
def frontOf (k : Core) (brw : Bool) : Option Outside := k.outside.find? fun o => decide (o.brw = brw)

/-- The first byte of the part that an access does next, and that part's length: within one aligned 64-byte block. -/
def Outside.part (o : Outside) : Nat × Nat :=
  let a := o.off + o.pos
  (a, min (64 - a % 64) (o.len - o.pos))

/-- The first granule of that part, and its granules. -/
def Outside.grans (o : Outside) : Nat × Nat := (o.part.1 / 16, (o.part.1 % 16 + o.part.2 + 15) / 16)

/-- The bank of that part. -/
def Outside.bank (o : Outside) : Nat := bankOf (o.part.1 / 16)

/-- The mask of that part over its granules, and the data of the access there. -/
def Outside.bits (o : Outside) : Nat × Nat :=
  let (a, n) := o.part
  (o.mask.toNat / 2 ^ o.pos % 2 ^ n * 2 ^ (a % 16), o.data.toNat / 2 ^ (8 * o.pos) % 2 ^ (8 * n) * 2 ^ (8 * (a % 16)))

/-- Whether an access is a read-modify-write at its bank (R122, R161). -/
def Outside.isRmw (o : Outside) : Bool := o.atom.isSome || (o.write && decide (o.form ≠ .plain))

/-- Whether an access returns data: a read, or an atomic that returns the old value (R114). -/
def Outside.reads (o : Outside) : Bool :=
  match o.atom with
  | some a => a.returns
  | none => !o.write

/-- The waiting accesses with the front one of its master replaced. -/
def setFront (brw : Bool) (n : Option Outside) : List Outside → List Outside
  | [] => []
  | o :: r => if o.brw = brw then n.toList ++ r else o :: setFront brw n r

/-- An access taken out of its queue and answered. -/
def answerFront (c : Nat) (o : Outside) (st : Status) (d : BitVec 1024) (s : State) : State :=
  let k := s.core c
  answerOut o st d (s.putCore c { k with outside := setFront o.brw none k.outside })

/-- An access that has done its part: it goes on to the next, or completes and is answered. -/
def advance (c : Nat) (o : Outside) (s : State) : State :=
  let k := s.core c
  let o1 := { o with pos := o.pos + o.part.2, opened := none, spoiled := false }
  if o1.pos < o1.len then s.putCore c { k with outside := setFront o.brw (some o1) k.outside }
  else answerFront c o o1.status (if o1.status = .ok then o1.rdata else 0) s

/-- An access that consumed an uncorrectable granule (R138, R396). -/
def lostData (c : Nat) (o : Outside) (s : State) : Outside × State :=
  ({ o with status := o.status.join .dataLost }, ownerLost c s)

/-- Granules of an outside access read: their data, or none where one is uncorrectable. -/
def outsideRead (c g n : Nat) (s : State) : Option Nat × State :=
  match n with
  | 0 => (some 0, s)
  | m + 1 =>
    let r := outsideRead c g m s
    match spadRead c (g + m) r.2 with
    | (some v, s2) => (r.1.map fun d => d + v.toNat * 2 ^ (128 * m), s2)
    | (none, s2) => (none, spadConsume c (g + m) ((bgOwner (bgOf (bedOf c)) s2).getD 255) s2)

/-- What a granted write stores: at the end of the cycle, since a core's read in it sees the value from before (R113); where it meets an
uncorrectable granule that it does not cover, at once, with the loss (R396). -/
def storeLate (c : Nat) (o : Outside) (mask v : Nat) (s : State) : State :=
  let g := o.grans
  let r := spadStore c g.1 g.2 mask v s
  if r.1 then
    let k := s.core c
    advance c o (s.putCore c { k with late := k.late ++ [⟨g.1, g.2, BitVec.ofNat 64 mask, BitVec.ofNat 512 v⟩] })
  else let z := lostData c o r.2; advance c z.1 z.2

/-- A granted plain access does its part (R119). -/
def doPart (c : Nat) (o : Outside) (s : State) : State :=
  let b := o.bits
  if o.write then storeLate c o b.1 b.2 s
  else
    let r := outsideRead c o.grans.1 o.grans.2 s
    match r.1 with
    | some d =>
      let v := d / 2 ^ (8 * (o.part.1 % 16)) % 2 ^ (8 * o.part.2)
      advance c { o with rdata := o.rdata ||| BitVec.ofNat 1024 (v * 2 ^ (8 * o.pos)) } r.2
    | none => let z := lostData c o r.2; advance c z.1 z.2

/-- The value that a write through a form leaves (R121). -/
def formValue (f : Form) (old d : Nat) : Nat :=
  match f with
  | .plain => d
  | .bitSet => old ||| d
  | .bitClear => old ^^^ (old &&& d)

/-- The bytes that a read-modify-write writes over the granules it read, and the old value that it returns. -/
def Outside.modify (o : Outside) (old : Nat) : Nat × Nat :=
  match o.atom with
  | none => (formValue o.form old o.bits.2, 0)
  | some a =>
    let sh := 8 * (o.part.1 % 16)
    let v := old / 2 ^ sh % 2 ^ (8 * a.bytes)
    (a.apply v * 2 ^ sh, if a.returns then v else 0)

/-- The read of a read-modify-write, in its grant cycle. -/
def rmwRead (c : Nat) (o : Outside) (s : State) : State :=
  let r := outsideRead c o.grans.1 o.grans.2 s
  match r.1 with
  | some d =>
    let k := r.2.core c
    let o1 := { o with opened := some (BitVec.ofNat 512 d), spoiled := false }
    r.2.putCore c { k with outside := setFront o.brw (some o1) k.outside }
  | none => let z := lostData c o r.2; advance c z.1 z.2

/-- Its write, in a later grant cycle, of the combined value. -/
def rmwWrite (c : Nat) (o : Outside) (old : BitVec 512) (s : State) : State :=
  let w := o.modify old.toNat
  let o1 := { o with opened := none, rdata := o.rdata ||| BitVec.ofNat 1024 w.2 }
  let k := s.core c
  let s1 := s.putCore c { k with outside := setFront o.brw (some o1) k.outside }
  storeLate c o1 o.bits.1 w.1 (if o.atom.isNone && decide (o.pos + o.part.2 = o.len) then incF F.SPAD_RMW_DONE c 0 1 s1 else s1)

/-- One granted bank cycle of a read-modify-write (R122): it reads its granules, or, in a later grant, writes the combined value; a read
that another write has spoiled is made again. -/
def rmwCycle (c : Nat) (o : Outside) (s : State) : State :=
  match o.opened with
  | none => rmwRead c o s
  | some old =>
    if o.spoiled then rmwRead c o (incF F.SPAD_RMW_RETRY c 0 1 (flagF F.SPAD_STATUS_RMW_RETRY c 0 s)) else rmwWrite c o old s

/-- Whether a bank may take an access now: no second read-modify-write opens while one is open (R122). -/
def mayGo (k : Core) (o : Outside) : Bool :=
  !(o.isRmw && o.opened.isNone && k.outside.any fun x => x.opened.isSome && decide (x.bank = o.bank))

/-- The outside master that a bank serves: where both could be, the one it did not serve last (R111). -/
def pickOutside (c bank : Nat) (s : State) : Option Outside :=
  let k := s.core c
  let want (x : Bool) : Option Outside := (frontOf k x).filter fun o => decide (o.bank = bank) && mayGo k o
  match want true, want false with
  | some a, some b => if look k.lastOut bank = some 3 then some b else some a
  | some a, none => some a
  | none, x => x

/-- A granted access does its part: refused where its scratchpad no longer serves it (R27, R123); where it fails its region check, it reads
and writes nothing (R114, R115). -/
def serveOut (c : Nat) (o : Outside) (s : State) : State :=
  match outBad c o s with
  | some st => answerFront c o st 0 s
  | none =>
    if !regionOk c (masterOf o) o.grans.1 (o.grans.1 + o.grans.2 - 1) o.reads o.write s then
      advance c { o with status := o.status.join .pageFault } (regionViol c (masterOf o) s)
    else if o.isRmw then rmwCycle c o s else doPart c o s

/-- The requests of the core masters at a bank in the present cycle: none in a fallow cycle or while the bed is frozen (R111). -/
def coreAsks (c bank : Nat) (s : State) : Nat := if bedFrozen (bedOf c) s then 0 else askCore c (actOf c s) bank s

/-- The outside access that a bank would grant in the present cycle: the core masters come first, and one outside access a cycle (R111). -/
def outsideNow (c bank : Nat) (s : State) : Option Outside :=
  if decide (ports bank ≤ coreAsks c bank s) || (look (s.core c).granted bank).isSome then none else pickOutside c bank s

/-- A bank's grant noted. -/
def noteGrant (c bank : Nat) (o : Outside) (s : State) : State :=
  let k := s.core c
  s.putCore c { k with lastOut := lput k.lastOut bank (masterOf o), granted := lput k.granted bank (masterOf o) }

/-- A bank's grant to an outside access of the kind that `rmw` names. -/
def grantOutside (c bank : Nat) (rmw : Bool) (s : State) : State :=
  match outsideNow c bank s with
  | none => s
  | some o => if o.isRmw = rmw then serveOut c o (noteGrant c bank o s) else s

def execSpadOutsideGrant (c : CoreId) (bank : Fin 16) (s : State) : Host.Outcome State Fault Refusal :=
  .next (grantOutside c bank false s)

def execSpadAliasWrite (c : CoreId) (bank : Fin 16) (s : State) : Host.Outcome State Fault Refusal :=
  .next (grantOutside c bank true s)

/-! ## The outside masters in a cycle (R111 to R113, R117) -/

/-- Every bank grants the outside access that still waits at it, whether or not a command has named it. -/
def grantAll (c : Nat) (s : State) : State :=
  (((s.core c).outside.map (·.bank)).eraseDups).foldl (fun z b => grantOutside c b true (grantOutside c b false z)) s

/-- Whether the access of a master waits in the present cycle at a bank that another holds. -/
def waitsAt (c : Nat) (o : Outside) (s : State) : Bool :=
  let k := s.core c
  let g := look k.granted o.bank
  decide (g ≠ some (masterOf o)) && (decide (ports o.bank ≤ coreAsks c o.bank s) || g.isSome || !mayGo k o)

/-- The waiting of the outside masters counted (R112, R117). -/
def countWait (c : Nat) (s : State) : State :=
  let one (x : Bool) (z : State) : State :=
    match frontOf (s.core c) x with
    | some o => if waitsAt c o s then incF F.SPAD_CONFLICT_COUNT c (masterOf o) 1 z else z
    | none => z
  one true (one false s)

/-- The outside masters of a scratchpad in a cycle. -/
def outsideTick (c : Nat) (s : State) : State :=
  if (s.core c).outside.isEmpty then s else countWait c (grantAll c s)

/-- The end of a cycle: its granted writes are stored, and the banks are free again. -/
def flushLate (c : Nat) (s : State) : State :=
  let k := s.core c
  if k.late.isEmpty && k.granted.isEmpty then s
  else
    k.late.foldl (fun z w => (spadStore c w.gran w.n w.mask.toNat w.data.toNat z).2) (s.putCore c { k with late := [], granted := [] })

/-- Every access that waits at a scratchpad answered with one status. -/
def answerWaiting (c : Nat) (st : Status) (s : State) : State :=
  let k := s.core c
  k.outside.foldl (fun z o => answerOut o st 0 z) (s.putCore c { k with outside := [], granted := [] })

/-! ## Retention (R123, R124) -/

/-- The beds of a bed group (R18). -/
def bedsOf (g : Nat) : List Nat := (List.range 25).map fun b => 25 * g + b

/-- Every merging buffer of a bed group drains. -/
def drainGroup (g : Nat) (s : State) : State := (bedsOf g).foldl (fun z b => drainMerge b (fun _ => true) z) s

/-- Every bed cache of a bed group emptied. -/
def emptyGroup (g : Nat) (s : State) : State := (bedsOf g).foldl (fun z b => invAll b z) s

/-- Whether every core of a bed group is at rest (R124): finished or not running, or waiting at a sync point with nothing in
flight. -/
def groupAtRest (g : Nat) (s : State) : Bool :=
  (bedsOf g).all fun b => (coresOf b).all fun c =>
    let k := s.core c
    (!k.active || k.arrived) && coreQuiet c s

/-- Whether nothing of a bed group is on its way to or from its bed caches. -/
def groupDrained (g : Nat) (s : State) : Bool :=
  (bedsOf g).all fun b => let k := s.bed b; k.merge.isEmpty && k.mergeWait.isEmpty && k.fills.isEmpty

/-- A bed group ordered to RETENTION: its merging buffers drain; once they have, its caches are emptied and its arrays go to 0.45 V. -/
def retentionStep (g : Nat) (s : State) : State :=
  let ends (z : State) : State := { z with retains := z.retains.filter fun x => decide (x ≠ g) }
  if 1 < s.bgPower g then ends s
  else if groupDrained g s then ends ((emptyGroup g s).putBgPower g 2)
  else drainGroup g s

/-- A retention order (R124): from ON or PAUSED, with every core at rest. -/
def retentionEnter (g : Nat) (s : State) : State :=
  if decide (s.bgPower g ≤ 1) && groupAtRest g s then
    retentionStep g { s with retains := if s.retains.contains g then s.retains else s.retains ++ [g] }
  else s

def execBgRetentionEnter (g : BgId) (s : State) : Host.Outcome State Fault Refusal := .next (retentionEnter g s)

/-- A WAKE order to a bed group in RETENTION (R124). -/
def wakeGroup (g : Nat) (s : State) : State :=
  if s.bgPower g = 2 then { s.putBgPower g 4 with wakes := sput 0 s.wakes g (s.tick + 50) } else s

def execBgWake (g : BgId) (s : State) : Host.Outcome State Fault Refusal := .next (wakeGroup g s)

/-- Fifty ticks after the order, and no earlier, the bed group is ON with an empty bed cache (R124). -/
def wakeDone (g : Nat) (s : State) : State :=
  if s.bgPower g = 4 ∧ sget 0 s.wakes g ≤ s.tick then emptyGroup g ({ s with wakes := sput 0 s.wakes g 0 }.putBgPower g 0) else s

def execBgWakeDone (g : BgId) (s : State) : Host.Outcome State Fault Refusal := .next (wakeDone g s)

end Sys2Proof.Machine
end

