-- ==== Sys2Proof/Machine/Barrow.lean ====
section
/-!
DEFINITION. The issue of a barrow (R137, R151, R152, R210, R215, R219): line requests one at a time, accesses of T0 of its own bed through its
own port, and the collection of what they return.
-/

namespace Sys2Proof.Machine

/-! ## One access -/

/-- The piece of a range that is accessed next, within one line. -/
def Seg.piece (g : Seg) : Seg := { g with n := min g.n (128 - g.at0 % 128) }

/-- What is left of a range after that piece. -/
def Seg.rest (g : Seg) : List Seg :=
  let k := g.piece.n
  segs [{ g with at0 := g.at0 + k, n := g.n - k, off := g.off + k }]

/-- A range as it waits for its translation, with what its access needs (R235). -/
def Seg.wait (g : Seg) (b : Nat) (p : Prog) (m : Move) : XWait :=
  let a := attrAtom m.r.attr 0 0
  let plain := atomPlain a
  let need : Bool × Bool × Bool := match g.act with
    | .read => (true, false, false)
    | .write => (false, true, false)
    | .atom => if plain then (a.fetch, !a.fetch, false) else (a.returns, true, true)
    | .ahead => (true, false, false)
  ⟨brwAsker b, m.xid, need.1, need.2.1, need.2.2, p.moveStep, g.at0, false, decide (g.act = .ahead)⟩

/-- The physical address of a range, and its policy. -/
def Seg.find (g : Seg) (b : Nat) (p : Prog) (m : Move) (s : State) : Xlated × State :=
  if g.virt then translate p.part.val (g.wait b p m) s else (.ok g.at0 .uncached, s)

/-- Where a range would lead, as the tables stand. -/
def Seg.peek (g : Seg) (b : Nat) (p : Prog) (s : State) : Option Nat :=
  if g.virt then peekPa (brwAsker b) p.part.val g.at0 s else some g.at0

/-- Bytes of a move. -/
def Move.bytes (m : Move) (off n : Nat) : Nat := cut m.buf off n

/-- Bytes of a move replaced. -/
def Move.setBytes (m : Move) (off n v : Nat) : Move :=
  { m with buf := m.buf - m.bytes off n * 256 ^ off + v % 256 ^ n * 256 ^ off }

/-- A move with one more access under way. -/
def Move.flies (m : Move) (f : Fly) : Move := { m with fly := m.fly ++ [f] }

/-- The tier that a source line gives its move (R198): its own for the first, and TIER_MIX where a later one differs. -/
def noteTier (b : Nat) (m : Move) (t : Nat) (s : State) : Move × State :=
  if m.tiered then (m, flagIf (decide (t ≠ m.tier)) F.BRW_STATUS_TIER_MIX b 0 s) else ({ m with tier := t, tiered := true }, s)

/-- A request of the barrow itself, which a bank of its own bed takes at once through the barrow's port. -/
def postSelf (b : Nat) (p : Prog) (tag pa n : Nat) (write : Bool) (v : Nat) (atom : Option Atom) (step : BitVec 32) (key : BitVec 16)
    (s : State) : Nat × State :=
  let r := post (.brw b) (partWho p.part.val) pa n write (BitVec.ofNat 1024 v) (BitVec.ofNat 128 (2 ^ n - 1)) atom
    (if atom.isSome then step else BitVec.ofNat 32 tag) key s
  (r.1, if ownPort b pa s then underSpad r.1 atom.isSome r.2 else r.2)

/-- A piece read for a move; `act` says what its data are for, and `tiered` whether it is a source (R125, R211). -/
def sendRead (b : Nat) (p : Prog) (m0 : Move) (g : Seg) (pa : Nat) (pol : Policy) (s0 : State) : Move × State :=
  let t := tierOf b pa s0
  let z := if g.act = .read then noteTier b m0 t s0 else (m0, s0)
  let m := z.1
  if isDram pa then
    let r := readLine (.brw b) b m.xid p.part.val (pa % 2 ^ 61 / 128) (if m.r.noAlloc then .uncached else pol) z.2
    (m.flies ⟨r.1, true, r.1, g.act, g.off, pa % 128, g.n, t, false⟩, r.2)
  else
    let r := postSelf b p m.xid pa g.n false 0 none 0 0 z.2
    (m.flies ⟨r.1, !ownPort b pa s0, r.1, g.act, g.off, 0, g.n, t, false⟩, r.2)

/-- A piece written for a move: into the merging buffer for stacked DRAM (R132). -/
def sendWrite (b : Nat) (p : Prog) (m : Move) (g : Seg) (pa : Nat) (pol : Policy) (s : State) : Move × State :=
  let v := m.bytes g.off g.n
  let f (id : Nat) (line : Bool) : Fly := ⟨id, line, id, .write, g.off, 0, g.n, 0, false⟩
  if isDram pa then
    let r := writeLine (.brw b) b m.xid p.part.val (pa % 2 ^ 61) g.n (2 ^ g.n - 1) v pol s
    (m.flies (f r.1 true), r.2)
  else
    let r := postSelf b p m.xid pa g.n true v none 0 0 s
    (m.flies (f r.1 (!ownPort b pa s)), r.2)

/-- One element of an ATOMIC sent to its home (R161, R215). -/
def sendElem (b : Nat) (p : Prog) (g : Seg) (pa : Nat) (z : Move × State) (i : Nat) : Move × State :=
  let m := z.1
  let e := m.r.elem
  let d := m.bytes (g.off + e * i) e
  let a := attrAtom m.r.attr (BitVec.ofNat 64 d) m.r.operand
  let r := if isDram pa then
      post (.bed b) (partWho p.part.val) (pa + e * i) e true (BitVec.ofNat 1024 d) 0 (some a) p.moveStep m.r.key z.2
    else postSelf b p m.xid (pa + e * i) e true d (some a) p.moveStep m.r.key z.2
  (m.flies ⟨r.1, !ownPort b pa z.2, pa / 128, if a.returns then .atom else .write, g.off + e * i, 0, e, 0, false⟩, r.2)

/-- The elements of an ATOMIC in one line: AOP 0 reads them where FETCH is set, and else writes the operands (R160; DESIGN CHOICE, log
entry 10: which of the two the table's AOP 0 is). An atomic of a line of stacked DRAM invalidates it in the bed cache (R137). -/
def sendAtoms (b : Nat) (p : Prog) (m : Move) (g : Seg) (pa : Nat) (pol : Policy) (s : State) : Move × State :=
  let a := attrAtom m.r.attr 0 0
  if atomPlain a then (if a.fetch then sendRead b p m g pa pol s else sendWrite b p m g pa pol s)
  else
    let s1 := if isDram pa then invLine b (pa % 2 ^ 61 / 128) s else s
    (List.range (g.n / m.r.elem)).foldl (sendElem b p g pa) (m, s1)

/-- A line read ahead into the side buffer (R130, R212): one that is not of stacked DRAM is dropped. -/
def sendAhead (b : Nat) (m0 : Move) (pa : Nat) (pol : Policy) (s : State) : Move × State :=
  let z := noteTier b m0 (tierOf b pa s) s
  (z.1, bedcPrefetch b (pa % 2 ^ 61 / 128) (.brw b) (if m0.r.noAlloc then .uncached else pol) z.2)

/-- A piece sent to its physical address. -/
def sendPiece (b : Nat) (p : Prog) (m0 : Move) (g : Seg) (pa : Nat) (pol : Policy) (s : State) : Move × State :=
  let m := { m0 with far := m0.far || decide (placeOf pa s = .away) }
  match g.act with
  | .read => sendRead b p m g pa pol s
  | .write => sendWrite b p m g pa pol s
  | .atom => sendAtoms b p m g pa pol s
  | .ahead => sendAhead b m pa pol s

/-! ## What holds an access back -/

/-- Whether the merging buffer of a bed still holds, or will take, a write for the destination of a line (R137). -/
def destBusy (b line : Nat) (s : State) : Bool :=
  let d := mergeDest line s
  let k := s.bed b
  k.merge.any (fun e => decide (e.dest = d)) || k.mergeWait.any fun w => decide (mergeDest (w.pa.toNat / 128) s = d)

/-- Whether a write or an atomic of a move waits for the release that its ORDER asks for (R151, R160): every earlier write and atomic of the
bed is performed first. -/
def relHolds (b : Nat) (m : Move) (g : Seg) (s : State) : Bool :=
  attrRelease m.r.attr && (decide (g.act = .write) || decide (g.act = .atom)) && match m.rel with
    | none => true
    | some n => !bedPerformed b n s

/-- A move whose release begins here: every entry of the merging buffer drains. -/
def beginRel (b : Nat) (m : Move) (s : State) : Move × State :=
  match m.rel with
  | none => ({ m with rel := some s.nextId }, drainMerge b (fun _ => true) s)
  | some _ => (m, s)

/-- Whether an atomic of a line of stacked DRAM waits for older writes to its destination to drain (R137). -/
def atomHolds (b : Nat) (m : Move) (g : Seg) (pa : Option Nat) (s : State) : Option Nat :=
  match pa with
  | some a =>
    if decide (g.act = .atom) && isDram a && !atomPlain (attrAtom m.r.attr 0 0) && destBusy b (a % 2 ^ 61 / 128) s then some (a % 2 ^ 61 / 128)
    else none
  | none => none

/-- What a move that issues comes to: whether a line request is out, the move, and the state. -/
structure Issued where
  line : Bool
  m : Move
  s : State

/-- One piece of a move issued, where nothing holds it: `none` where it is held, else whether it is a line request. With `lines` false
only an access through the barrow's own port is. -/
def issuePiece (b : Nat) (p : Prog) (m : Move) (g : Seg) (lines : Bool) (s : State) : Option Bool × Move × State :=
  let at0 := g.peek b p s
  let own := (at0.map fun a => ownPort b a s).getD false
  if !lines && !own then (none, m, s)
  else if relHolds b m g s then let z := beginRel b m s; (none, z.1, z.2)
  else match atomHolds b m g at0 s with
    | some line => (none, m, drainMerge b (fun e => decide (e.dest = mergeDest line s)) s)
    | none =>
      let x := g.find b p m s
      match x.1 with
      | .wait => (none, m, x.2)
      | .bad st => if g.act = .ahead then (some false, m, x.2) else (none, { m with bad := some st, todo := [] }, x.2)
      | .ok pa pol =>
        if placeOf pa x.2 = .gone then (none, { m with bad := some .dieAbsent, todo := [] }, x.2)
        else let z := sendPiece b p m g pa pol x.2; (some (!ownPort b pa x.2), z.1, z.2)

/-- A move issues what it may: every access through the barrow's own port that comes before its next line request, and, where `lines`
permits, that line request. -/
def issueMove (b : Nat) (p : Prog) (lines : Bool) : Nat → Move → State → Issued
  | 0, m, s => ⟨false, m, s⟩
  | f + 1, m, s =>
    match m.todo with
    | [] => ⟨false, m, s⟩
    | g :: r =>
      let x := issuePiece b p m g.piece lines s
      match x.1 with
      | none => ⟨false, x.2.1, x.2.2⟩
      | some line =>
        let m1 := { x.2.1 with todo := g.rest ++ r }
        if line then ⟨true, m1, x.2.2⟩ else issueMove b p lines f m1 x.2.2

/-- As many accesses as a move can have left. -/
def Move.fuel (m : Move) : Nat := m.todo.foldl (fun z g => z + g.n / 128 + 2) 1

/-- A move with its last request issued. -/
def Move.settle (m : Move) : Move :=
  if decide (m.st = .issuing) && decide (m.stage = m.r.final) && m.todo.isEmpty && m.bad.isNone then { m with st := .written } else m

/-- A move issues, and is kept with its progress. -/
def runIssue (b : Nat) (p : Prog) (m : Move) (lines : Bool) (s : State) : Bool × State :=
  let r := issueMove b p lines m.fuel m s
  (r.line, putMove b p.id r.m.settle r.s)

/-! ## What accesses return (R214, R215, R219, R228) -/

/-- A range of one scratchpad from byte `off`, wrapping at 32 KiB (R82, R204), from byte `o` of the move on. -/
def wrapSegs (act : Act) (c off n o : Nat) : Nat → List Seg
  | 0 => []
  | f + 1 =>
    let a := off % 32768
    let k := min n (32768 - a)
    segs [⟨act, false, windowAddr c a .plain, k, o⟩] ++ (if n ≤ k then [] else wrapSegs act c 0 (n - k) (o + k) f)

/-- The range of a scratchpad that a move accesses. -/
def t0Segs (act : Act) (c off n o : Nat) : List Seg := wrapSegs act c off n o (n / 32768 + 2)

/-- The range of T0 over which an old value of a move's elements goes back (R215). -/
def Move.back (m : Move) (off n : Nat) : List Seg :=
  match windowOf (localOf m.base) with
  | some (c, o) => t0Segs .write c (o + off) n off
  | none => []

/-- An answered access of a move taken: its data, or its failure; nothing of a discarded one (R223). -/
def Move.take (b : Nat) (m0 : Move) (f : Fly) (r : Req) (s : State) : Move × State :=
  let m := { m0 with fly := m0.fly.filter fun x => decide (x.id ≠ f.id) }
  if f.dead then (m, s)
  else if r.status ≠ .ok then
    ({ m with bad := some ((m.bad.getD .ok).join r.status), todo := [],
              ue := m.ue || (decide (f.act ≠ .write) && decide (r.status = .dataLost)) }, s)
  else
    let v := cut r.rdata.toNat f.lo f.n
    match f.act with
    | .read => (m.setBytes f.off f.n v, incF F.BRW_BYTES_COUNT b f.tier f.n s)
    | .atom => ({ m.setBytes f.off f.n v with todo := m.todo ++ m.back f.off f.n }, s)
    | _ => (m, s)

/-- One access of a move collected, if it has been answered; old values go back to T0 at once. -/
def collectFly (b : Nat) (s : State) (x : Nat × Nat × Nat) : State :=
  match moveOf b x.1 x.2.1 s, netGet x.2.2 s with
  | some (p, m), some r =>
    match m.fly.find? fun f => decide (f.id = r.id) with
    | some f =>
      if r.st ≠ .answered then s
      else let z := m.take b f r (netDel r.id s); (runIssue b p z.1 false z.2).2
    | none => s
  | _, _ => s

/-- The accesses of a bed's moves. -/
def Bed.flying (k : Bed) : List (Nat × Nat × Nat) :=
  k.progs.flatMap fun p => p.moves.flatMap fun m => m.fly.map fun f => (p.id, m.idx, f.id)

/-- Everything that has returned to a bed's barrow collected; failed programs with nothing outstanding leave. -/
def collect (b : Nat) (s : State) : State :=
  let s1 := (s.bed b).flying.foldl (collectFly b) s
  ((s1.bed b).progs.map (·.id)).foldl (fun z i => reap b i z) s1

/-! ## MOVE_ISSUE (R152, R210, R219) -/

/-- SCOPE of a move: GROVE for one of an address of another package (R145). -/
def Move.scope (m : Move) : Nat := if m.far then 4 else attrScope m.r.attr

/-- Whether a move is an acquire that is under way. -/
def Move.acquiring (m : Move) : Bool :=
  attrAcquire m.r.attr && !m.acquired && (decide (m.st = .issuing) || decide (m.st = .written))

/-- The acquire that the barrow performs: nothing issues after it before it is complete (R152). -/
def acquirer (b : Nat) (s : State) : Option (Nat × Nat) :=
  (s.bed b).progs.findSome? fun p => if p.failed.isSome || p.stop then none
    else (p.moves.find? fun m => m.acquiring && m.bad.isNone).map fun m => (p.id, m.idx)

/-- An acquire whose reads have returned is complete, after the invalidation that its scope requires (R134, R152). -/
def acquire (b : Nat) (m : Move) (s : State) : Move × State :=
  if attrAcquire m.r.attr && !m.acquired then ({ m with acquired := true }, if 2 ≤ m.scope then invShared b s else s) else (m, s)

/-- Whether a move may begin: all before it have issued their last request, and are over where it has WAIT_PREV. -/
def beginable (b : Nat) (p : Prog) (before : List Move) (m : Move) (s : State) : Bool :=
  before.all fun x => lastOut b p x s && (!m.r.waitPrev || x.ended)

/-- The moves of a program that may issue, the oldest first: those with an access left, and the one that begins. -/
def candidates (b : Nat) (p : Prog) (s : State) (before : List Move) : List Move → List Nat
  | [] => []
  | m :: r =>
    if m.st = .queued then (if beginable b p before m s then [m.idx] else [])
    else if m.todo.isEmpty || m.bad.isSome then candidates b p s (before ++ [m]) r
    else m.idx :: candidates b p s (before ++ [m]) r

/-- The programs of a bed in the order in which their turn comes (R210): in arming order, after the one served last. -/
def Bed.turns (k : Bed) : List Prog :=
  match k.turn with
  | none => k.progs
  | some t =>
    let after := (k.progs.dropWhile fun p => decide (p.id ≠ t)).drop 1
    after ++ k.progs.take (k.progs.length - after.length)

/-- A move tries to issue a line request, and begins where it has not. -/
def tryIssue (b : Nat) (z : Bool × State) (x : Nat × Nat) : Bool × State :=
  if z.1 then z
  else match moveOf b x.1 x.2 z.2 with
    | none => z
    | some (p, m) =>
      let s := z.2
      let m1 := if m.st = .queued then m.begin else m
      let r := runIssue b p m1 (decide (brwOut b s < outLimit b s)) s
      let s1 := readMore b p.id r.2
      (r.1, if r.1 then s1.putBed b { s1.bed b with turn := some p.id } else s1)

/-- The barrow issues one line request, of the next program in turn that has one ready. -/
def moveIssue (b : Nat) (s0 : State) : State :=
  if s0.bgPower (bgOf b) ≠ 0 then s0
  else
    let s1 := collect b s0
    let s := ((s1.bed b).progs.map (·.id)).foldl (fun z i => readMore b i z) s1
    let l := (s.bed b).turns.flatMap fun p => if p.stop || p.failed.isSome then [] else (candidates b p s [] p.moves).map fun i => (p.id, i)
    let l1 := match acquirer b s with
      | some a => l.filter fun x => decide (x = a)
      | none => l
    (l1.foldl (tryIssue b) (false, s)).2

def execMoveIssue (b : BedId) (s : State) : Host.Outcome State Fault Refusal := .next (moveIssue b.val s)

/-! ## The command of a kind -/

/-- Whether a move can take its next step: it has issued what its stage asks for, all of it has returned, and nothing has failed. -/
def Move.ready (m : Move) : Bool :=
  decide (m.st = .issuing) && m.todo.isEmpty && m.live.isEmpty && m.bad.isNone

/-- The next step of a move of kind `kind`, by `f`; it then accesses at once what its own port reaches. -/
def stepMove (b id idx kind : Nat) (f : Prog → Move → State → Move × State) (s0 : State) : State :=
  let s := collect b s0
  match moveOf b id idx s with
  | none => s
  | some (p, m) =>
    if m.r.kind ≠ kind ∨ !m.ready ∨ p.stop ∨ p.failed.isSome then s
    else
      let z := f p m s
      readMore b id (runIssue b p z.1 false z.2).2

/-- A failed move: it accesses nothing more. -/
def Move.fail (m : Move) (st : Status) : Move := { m with bad := some st, todo := [] }

/-- A virtual address that a step of a move needs: the move goes on with it, fails, or waits. -/
def withAddr (b : Nat) (p : Prog) (m : Move) (va : Nat) (write : Bool) (f : Nat → State → Move × State) (s : State) : Move × State :=
  let x := translate p.part.val ⟨brwAsker b, m.xid, !write, write, false, p.moveStep, va, false, false⟩ s
  match x.1 with
  | .wait => (m, x.2)
  | .bad st => (m.fail st, x.2)
  | .ok pa _ => f pa x.2

/-- A scratchpad address that a step of a move needs (log entry 19), a written one in the plain window: its core and byte. -/
def withT0 (b : Nat) (p : Prog) (m : Move) (va : Nat) (write : Bool) (f : Nat → Nat → Nat → State → Move × State) (s : State) : Move × State :=
  withAddr b p m va write (fun pa z => match placeOf pa z with
    | .spad c off form => if write && decide (form ≠ .plain) then (m.fail .pageFault, z) else f pa c off z
    | .gone => (m.fail .dieAbsent, z)
    | _ => (m.fail .pageFault, z)) s

end Sys2Proof.Machine
end

