-- ==== Sys2Proof/Machine/Moves.lean ====
section
/-!
DEFINITION. The kinds of move (R204 to R207, R212 to R217): what each makes of the bytes it has read, and FETCH4.
-/

namespace Sys2Proof.Machine

/-! ## LOAD (R204, R206, R207, R212, R213) -/

/-- The tiles of a LOAD or TCOPY as they have been read. -/
def Move.tiles (m : Move) : List Nat := (List.range m.r.count).map fun t => m.bytes (128 * m.r.lines * t) (128 * m.r.lines)

/-- The receiving cores of a placement, each with the band it receives; none for every band (R213). `one` is the core that DST names. -/
def receivers (place one : Nat) : List (Nat × Option Nat) :=
  match place with
  | 1 => (List.range 8).map fun y => (8 * y, some y)
  | 2 => (List.range 8).map fun x => (x, some x)
  | 3 => (List.range 64).map fun c => (c, some (c / 8))
  | 4 => (List.range 64).map fun c => (c, some (c % 8))
  | 5 => (List.range 64).map fun c => (c, none)
  | _ => [(one, none)]

/-- A T0 form as bytes: its header granule, and its eight bands one after another (R204). -/
def t0Bytes (t : Tile) (run : Nat) (fb : Bool) : Nat :=
  let g := 16 * t.h.bandGran
  t.h.low run fb + (List.range 8).foldl (fun z i => z + cut (t.band.getD i 0) 0 g * 256 ^ (16 + i * g)) 0

/-- The ranges of one receiving core: its header granule below byte `off`, and its bands from there. -/
def coreSegs (g c off : Nat) (band : Option Nat) : List Seg :=
  t0Segs .write c (off + 32752) 16 0 ++
  match band with
  | some i => t0Segs .write c off g (16 + i * g)
  | none => t0Segs .write c off (8 * g) 16

/-- The cores whose flag a LOAD raises (R214). -/
def flagCores (b bed : Nat) (r : MoveRec) : List Nat :=
  if bed = b ∧ r.place ≠ 0 then (receivers r.place 0).map fun x => 64 * bed + x.1 else [64 * b + r.core]

/-- A LOAD whose lines have been read: its T0 form goes to every receiving core; DST is translated once (R213). -/
def loadStep (b : Nat) (p : Prog) (m0 : Move) (s0 : State) : Move × State :=
  let y := acquire b m0 s0
  withT0 b p y.1 y.1.r.dst true (fun _ c off s =>
    let m := y.1
    let r := loadTiles m.r.xpose m.tiles
    let g := 16 * r.1.h.bandGran
    let bed := bedOf c
    ({ m with stage := 1, buf := t0Bytes r.1 m.r.count (decide (m.fb = .fallback)), cores := flagCores b bed m.r,
              todo := (receivers m.r.place (c % 64)).flatMap fun x => coreSegs g (64 * bed + x.1) off x.2 },
      flagIf r.2.1 F.BRW_STATUS_RUN_MISMATCH b 0 (flagIf r.2.2 F.BRW_STATUS_XPOSE_IGNORED b 0 s))) y.2

def execMoveLoad (b : BedId) (prog idx : Nat) (s : State) : Host.Outcome State Fault Refusal :=
  .next (stepMove b.val prog idx 1 (loadStep b.val) s)

/-! ## STORE, TCOPY and COPY (R206, R207, R212) -/

/-- Tiles stored one after another: their bytes and their number of bytes. -/
def tilesBytes (l : List Tile) (fb : Bool) : Nat × Nat :=
  l.foldl (fun z t => let y := t.lines fb; (z.1 + y.1 * 256 ^ z.2, z.2 + 128 * y.2)) (0, 0)

/-- A move that writes `n` bytes of its own from virtual address `va` on, and raises its flag in core CORE of its bed. -/
def Move.writes (m : Move) (b va n v : Nat) : Move :=
  { m with stage := m.r.final, buf := v, cores := [64 * b + m.r.core], todo := segs [⟨.write, true, va, n, 0⟩] }

/-- The header granule of a STORE's T0 form, as read. -/
def Move.header (m : Move) : Hdr := Hdr.read (m.bytes 0 16) 4096

/-- The T0 form that a STORE has read: header granule, then bands. -/
def Move.form (m : Move) : Tile :=
  let h := m.header
  let g := 16 * h.bandGran
  ⟨h, (List.range 8).map fun i => if i < h.bands then m.bytes (16 + i * g) g else 0⟩

/-- STORE, step by step: its header granule is read, then its bands, then its tiles are written. -/
def storeStep (b : Nat) (p : Prog) (m : Move) (s : State) : Move × State :=
  match m.stage with
  | 0 => withT0 b p m m.srcVA false (fun pa c off z =>
      ({ m with stage := 1, base := pa, tier := 0, tiered := true, todo := t0Segs .read c (off + 32752) 16 0 }, z)) s
  | 1 => match windowOf (localOf m.base) with
    | some (c, off) =>
      ({ m with stage := 2, todo := t0Segs .read c off (m.header.bands * (16 * m.header.bandGran)) 16 }, s)
    | none => (m, s)
  | _ =>
    let y := acquire b m s
    let r := storeTiles m.form m.r.count m.r.operand.toNat m.r.tileBand m.r.tileSlot m.r.xpose
    let d := tilesBytes (r.1.map (·.1)) (decide (m.fb = .fallback))
    (y.1.writes b (m.r.dst / 128 * 128) d.2 d.1,
      flagIf r.2 F.BRW_STATUS_RUN_MISMATCH b 0 (flagIf (r.1.any (·.2)) F.BRW_STATUS_XPOSE_IGNORED b 0 y.2))

def execMoveStore (b : BedId) (prog idx : Nat) (s : State) : Host.Outcome State Fault Refusal :=
  .next (stepMove b.val prog idx 2 (storeStep b.val) s)

/-- TCOPY: the tiles read are written one after another with XPOSE applied. -/
def tcopyStep (b : Nat) (_ : Prog) (m : Move) (s : State) : Move × State :=
  let y := acquire b m s
  let l := m.tiles.map fun v => (Tile.read v).xpose m.r.xpose
  let d := tilesBytes (l.map (·.1)) (decide (m.fb = .fallback))
  (y.1.writes b (m.r.dst / 128 * 128) d.2 d.1, flagIf (l.any (·.2)) F.BRW_STATUS_XPOSE_IGNORED b 0 y.2)

def execMoveTcopy (b : BedId) (prog idx : Nat) (s : State) : Host.Outcome State Fault Refusal :=
  .next (stepMove b.val prog idx 3 (tcopyStep b.val) s)

/-- COPY: LEN bytes unchanged. -/
def copyStep (b : Nat) (_ : Prog) (m : Move) (s : State) : Move × State :=
  let y := acquire b m s
  (y.1.writes b m.r.dst m.r.len m.buf, y.2)

def execMoveCopy (b : BedId) (prog idx : Nat) (s : State) : Host.Outcome State Fault Refusal :=
  .next (stepMove b.val prog idx 4 (copyStep b.val) s)

/-! ## NOP and PREFETCH -/

/-- A move with nothing to write. -/
def idleStep (b : Nat) (_ : Prog) (m : Move) (s : State) : Move × State :=
  let y := acquire b m s
  ({ y.1 with stage := m.r.final, cores := [64 * b + m.r.core] }, y.2)

def execMoveNop (b : BedId) (prog idx : Nat) (s : State) : Host.Outcome State Fault Refusal :=
  .next (stepMove b.val prog idx 0 (idleStep b.val) s)

/-- PREFETCH completes when its lines have issued. -/
def execMovePrefetch (b : BedId) (prog idx : Nat) (s : State) : Host.Outcome State Fault Refusal :=
  .next (stepMove b.val prog idx 6 (idleStep b.val) s)

/-! ## ATOMIC (R161, R215) -/

/-- ATOMIC, step by step: its operands are read from T0, then its elements are sent; an address that is no multiple of their size has its
low bits dropped (R160). -/
def atomicStep (b : Nat) (p : Prog) (m : Move) (s : State) : Move × State :=
  let e := m.r.elem
  let n := m.r.len / e * e
  match m.stage with
  | 0 => withT0 b p m m.srcVA false (fun pa c off z =>
      ({ m with stage := 1, base := pa, tier := 0, tiered := true, cores := [64 * b + m.r.core], todo := t0Segs .read c off n 0 }, z)) s
  | _ => ({ m with stage := 2, todo := segs [⟨.atom, true, m.r.dst / e * e, n, 0⟩] }, s)

def execMoveAtomic (b : BedId) (prog idx : Nat) (s : State) : Host.Outcome State Fault Refusal :=
  .next (stepMove b.val prog idx 5 (atomicStep b.val) s)

/-! ## FETCH4 (R216, R217) -/

/-- The storage tags in use at a bed. -/
def tagsOf (k : Bed) : List Nat := k.progs.flatMap fun p => p.moves.filterMap fun m => m.tag.map (·.1)

/-- The storage request of a move (R216). -/
def storageRequest (b : Nat) (p : Prog) (m : Move) (tag pa : Nat) : Nat :=
  m.r.operand.toNat + m.r.src * 256 ^ 8 + m.r.len * 256 ^ 16 + tag * 256 ^ 20 + b * 256 ^ 22 + pa * 256 ^ 24 +
  p.moveStep.toNat * 256 ^ 32 + (if m.r.hasDue then (p.stepTick + m.r.due) % 2 ^ 32 else 0xFFFFFFFF) * 256 ^ 36

/-- Whether a move is writing its request to storage queue `q`. -/
def Move.writesTo (p : Prog) (q : Nat) (m : Move) : Bool :=
  decide (m.r.kind = 7) && decide (p.storeQ = some q) && (decide (m.stage = 1) || decide (m.stage = 2)) && m.bad.isNone && m.tag.isSome

/-- Whether a request is being written to the entry at TAIL of a storage queue: the next one waits, since each is written there (R258). -/
def storeBusy (q : Nat) (s : State) : Bool := s.beds.any fun e => e.2.progs.any fun p => p.moves.any (Move.writesTo p q)

/-- A FETCH4 takes a tag: one of 16 and an entry of its queue are free (R216), and its destination is translated. The release with which its
request is written begins (R258). -/
def fetchTag4 (b : Nat) (p : Prog) (m : Move) (s : State) : Move × State :=
  match p.storeQ with
  | none => (m.fail .featureMissing, s)
  | some q =>
    match (List.range 16).find? fun t => !(tagsOf (s.bed b)).contains t with
    | none => (m, s)
    | some t =>
      if storeFull q s || storeBusy q s then (m, s)
      else withAddr b p m m.r.dst true (fun pa z =>
        ({ m with stage := 1, tag := some (t, z.nextId), base := pa, rel := some z.nextId, tiered := true, cores := [64 * b + m.r.core] },
          drainMerge b (fun _ => true) z)) s

/-- The request of a FETCH4 written at TAIL, once every earlier write of the bed has been performed (R151, R258). -/
def fetchWrite (b : Nat) (p : Prog) (m : Move) (s : State) : Move × State :=
  match p.storeQ, m.tag, m.rel with
  | some q, some t, some n =>
    if bedPerformed b n s then
      ({ m with stage := 2, buf := storageRequest b p m t.1 m.base, todo := [⟨.write, false, storeEntry q s, 64, 0⟩] }, s)
    else (m, drainMerge b (fun _ => true) s)
  | _, _, _ => (m, s)

/-- FETCH4, step by step: its tag, its request, the advance of TAIL, and then the host's done write; LEN 0 fetches nothing. -/
def fetchStep (b : Nat) (p : Prog) (m : Move) (s : State) : Move × State :=
  match m.stage with
  | 0 => if m.r.len = 0 then ({ m with stage := 4, cores := [64 * b + m.r.core] }, s) else fetchTag4 b p m s
  | 1 => fetchWrite b p m s
  | 2 => match p.storeQ with
    | some q => ({ m with stage := 3 }, storeAdvance q s)
    | none => (m, s)
  | _ => (m, s)

/-- MOVE_FETCH4; the entry of the merging buffer that holds a written request drains. -/
def fetch4 (b id idx : Nat) (s0 : State) : State :=
  let s := stepMove b id idx 7 (fetchStep b) s0
  match moveOf b id idx s with
  | some (_, m) => if m.r.kind = 7 ∧ m.stage = 2 then drainMerge b (fun e => m.fly.any fun f => e.owners.contains f.id) s else s
  | none => s

def execMoveFetch4 (b : BedId) (prog idx : Nat) (s : State) : Host.Outcome State Fault Refusal :=
  .next (fetch4 b.val prog idx s)

/-- The move of a bed that holds a storage tag in flight. -/
def tagged (b tag : Nat) (s : State) : Option (Prog × Move) :=
  (s.bed b).progs.findSome? fun p => (p.moves.find? fun m => decide (m.tag.map (·.1) = some tag) && decide (m.stage = 3)).map fun m => (p, m)

/-- The host's done write (R217): the barrow acquires at GROVE scope and the tagged move completes, or fails; a tag not in flight is
ignored. -/
def t4Done (b tag : Nat) (error : Bool) (s : State) : State :=
  match tagged b tag s with
  | none => s
  | some (p, m) =>
    let m1 := { m with tag := none }
    if error then putMove b p.id (m1.fail .dataLost) s
    else incF F.BRW_BYTES_COUNT b 4 m.r.len (putMove b p.id { m1 with stage := 4, st := .written, acquired := true } (invShared b s))

def execT4Done (b : BedId) (tag : Fin 16) (error : Bool) (s : State) : Host.Outcome State Fault Refusal :=
  .next (t4Done b.val tag.val error s)

end Sys2Proof.Machine
end

