-- ==== Sys2Proof/Machine/MoveEnd.lean ====
section
/-!
DEFINITION. The end of a move (R214, R220, R224, R228), and the account that a barrow keeps of waiting cycles (R221) and of itself (R229).
-/

namespace Sys2Proof.Machine

/-! ## Completion (R214, R220, R224) -/

/-- Whether every access of a move has been answered, and none has failed. -/
def Move.performed (m : Move) : Bool :=
  decide (m.st = .written) && m.todo.isEmpty && m.live.isEmpty && m.bad.isNone

/-- Whether the boundary on which tick `t` begins has passed (R220). -/
def tickPassed (t : Nat) (s : State) : Bool := decide (t < s.tick) || (decide (t = s.tick) && decide (0 < s.cyc % 64))

/-- A flag that a move raises is a release (R151, R155): the drain that it asks for begins here, and every earlier write and atomic of the
bed is performed before it rises. -/
def flagMay (b id : Nat) (m : Move) (s : State) : Bool × State :=
  if !m.r.raise then (true, s)
  else match m.waits with
    | some n => (bedPerformed b n s, s)
    | none =>
      let s1 := drainMerge b (fun _ => true) (putMove b id { m with waits := some s.nextId } s)
      (bedPerformed b s.nextId s1, s1)

/-- A move is complete: its flag rises, it is counted, and late where its due boundary has passed; an acquire is over (R134, R214, R220). -/
def finishMove (b : Nat) (p : Prog) (m : Move) (s : State) : State :=
  let late := m.r.hasDue && tickPassed (p.stepTick + m.r.due) s
  let s1 := if m.r.raise then m.cores.foldl (fun z c => deliver c 0 0 (.flag m.r.flag false) z) s else s
  let s2 := if late then incF F.BRW_LATE_COUNT b m.tier 1 (flagF F.BRW_STATUS_LATE b 0 s1) else s1
  let y := acquire b m s2
  let s4 := incF F.BRW_MOVES_COUNT b 0 1 (putMove b p.id { y.1 with st := .done, waits := none, buf := 0 } y.2)
  match (s4.bed b).prog p.id with
  | none => s4
  | some q => if q.moves.length = q.count ∧ q.moves.all Move.ended then endProg b q s4 else readMore b p.id s4

/-- Whether the agreement tick of a move's fallback set, if it has one, has come (R224). -/
def agreeCame (p : Prog) (m : Move) (s : State) : Bool :=
  p.desc.isSome || !m.r.hasFb || (match (s.part p.part.val).launch with
    | some l => decide (p.stepTick + m.r.decide + l.delay s ≤ s.tick)
    | none => true)

/-- MOVE_COMPLETE: nothing happens before every write of the move is performed and its fallback set is decided, and no flag rises before its
agreement tick. -/
def moveComplete (b id idx : Nat) (s0 : State) : State :=
  let s := collect b s0
  match moveOf b id idx s with
  | none => s
  | some (p, m) =>
    if !m.performed || p.failed.isSome || p.stop then s
    else
      let z := flagMay b id m s
      if !z.1 || m.undecided || !agreeCame p m s then z.2 else finishMove b p m z.2

def execMoveComplete (b : BedId) (prog idx : Nat) (s : State) : Host.Outcome State Fault Refusal :=
  .next (moveComplete b.val prog idx s)

/-- MOVE_ERROR (R225, R228): the move's status ends its launch or its MOVE; a primary that failed before its decision is only late. -/
def moveError (b id idx : Nat) (s0 : State) : State :=
  let s := collect b s0
  match moveOf b id idx s with
  | none => s
  | some (p, m) =>
    match m.bad with
    | none => s
    | some st =>
      if m.undecided || p.failed.isSome then s
      else failProg b (p.putMove { m with st := .failed st, tag := none }) idx st m.ue s

def execMoveError (b : BedId) (prog idx : Nat) (s : State) : Host.Outcome State Fault Refusal :=
  .next (moveError b.val prog idx s)

/-! ## Stall accounting (R221) -/

/-- The requests whose hold marks an access carries: its own, that of the fill that it waits for, and that of the merging-buffer entry that
holds its write. -/
def servedBy (b id : Nat) (s : State) : List Req :=
  let k := s.bed b
  (netGet id s).toList ++ ((k.fills.filter fun f => f.waiters.contains id).filterMap fun f => netGet f.id s) ++
  ((k.merge.filter fun e => e.owners.contains id).filterMap fun e => netGet e.id s)

/-- Whether an access waits at a bank of its scratchpad (R112). -/
def spadWaits (id : Nat) (s : State) : Bool :=
  match netGet id s with
  | none => false
  | some r =>
    decide (r.st = .banked) && match placeOf r.pa s with
      | .spad c _ _ => (s.core c).outside.any fun o => decide (o.id = id) && waitsAt c o s
      | _ => false

/-- The cause that a waiting cycle is charged to. -/
def Move.stallCause (m : Move) (b : Nat) (s : State) : Nat :=
  let out := m.fly.filter fun f => f.open s
  let held := match out.head? with
    | some f => servedBy b f.id s
    | none => []
  if m.st = .queued then 0
  else if out.isEmpty && waitsXlt (brwAsker b) m.xid s then 1
  else if !m.todo.isEmpty && decide (outLimit b s ≤ brwOut b s) then 2
  else if out.any fun f => spadWaits f.id s then 3
  else if held.any (·.regMark) then 4
  else if held.any (·.oaddMark) then 5
  else if held.any (·.linkMark) then 6
  else if m.r.kind = 7 ∧ m.st = .issuing then 7
  else if m.performed ∧ m.undecided then 8
  else 9 + min 3 m.tier

/-- Bytes of a program that memory holds now at a virtual address, within one line; nothing changes by it. -/
def peekBytes (b : Nat) (p : Prog) (va n : Nat) (s : State) : Option Nat :=
  match peekPa (brwAsker b) p.part.val va s with
  | none => none
  | some pa =>
    match homeOf (localOf pa) s with
    | some h => if isLocal (pkgOf pa) s then (homeRead h (localOf pa) hostWho n s).1 else none
    | none => none

/-- A program with the base and count that its table entry gives. -/
def Prog.sized (p : Prog) (b : Nat) (s : State) : Prog :=
  match peekBytes b p (p.table + 16 * p.prog) 16 s with
  | some v => { p with base := cut v 0 8 / 64 * 64, count := cut v 8 4 }
  | none => p

/-- The moves of a program that have not been read, as memory holds them: the first that `want` selects. -/
def Prog.unread (p : Prog) (b : Nat) (want : Move → Bool) (s : State) : Option Move :=
  (List.range (min 4096 (p.count - p.moves.length))).findSome? fun i =>
    let j := p.moves.length + i
    match peekBytes b p (p.base + 64 * j) 64 s with
    | some v => let m := Move.new j 0 (MoveRec.parse v p.desc.isSome); if want m then some m else none
    | none => none

/-- The cores whose flag a move raises: as they stand, or as its record gives them. -/
def Move.raises (m : Move) (b : Nat) (p : Prog) (s : State) : List Nat :=
  if !m.cores.isEmpty then m.cores
  else if m.r.kind = 1 ∧ m.r.place ≠ 0 ∧ !m.awayT0 b p s then flagCores b b m.r
  else [64 * b + m.r.core]

/-- Whether a move will raise a tile flag that a core of the bed waits on. -/
def Move.wanted (m : Move) (b : Nat) (p : Prog) (s : State) : Bool :=
  m.r.raise && !m.ended && m.bad.isNone && (m.raises b p s).any fun c =>
    match (s.core c).wait with
    | .flag f _ => decide (f = m.r.flag)
    | _ => false

/-- The oldest move of a bed that will raise a flag on which a core waits: of the running programs, then of the armed ones (R221). -/
def oldestWanted (b : Nat) (s : State) : Option Move :=
  let k := s.bed b
  let run (p : Prog) : Option Move := match p.moves.find? fun m => m.wanted b p s with
    | some m => some m
    | none => p.unread b (fun m => m.wanted b p s) s
  match (k.progs.filter fun p => p.failed.isNone && !p.stop).findSome? run with
  | some m => some m
  | none => k.armed.findSome? fun p => run (p.sized b s)

/-- Whether a core of a bed waits on a tile flag. -/
def flagWaiter (b : Nat) (s : State) : Bool :=
  (coresOf b).any fun c => match (s.core c).wait with
    | .flag _ _ => true
    | _ => false

/-- A cycle in which a core waits on a flag that a move of the bed will raise is charged to the oldest such move. -/
def brwStall (b : Nat) (s : State) : State :=
  if !flagWaiter b s then s
  else match oldestWanted b s with
    | some m => incF F.BRW_STALL_COUNT b (m.stallCause b s) 1 s
    | none => s

/-! ## Views (R229) -/

/-- BRW_STATUS. -/
def viewBrwStatus (b : Nat) (s : State) : BitVec 64 :=
  let k := s.bed b
  let replay := match (s.part k.part).launch with
    | some l => k.running && decide (l.replayLog ≠ 0)
    | none => false
  F.BRW_STATUS_REPLAY.put (F.BRW_STATUS_ACTIVE.put (F.BRW_STATUS_ARMED.put (F.BRW_STATUS_RUNNING.put
    (readReg .BRW_STATUS b 0 s) (if k.armed.isEmpty && k.progs.isEmpty then 0 else 1)) k.armed.length) k.progs.length)
    (if replay then 1 else 0)

/-- BRW_OUT. -/
def viewBrwOut (b : Nat) (s : State) : BitVec 64 :=
  F.BRW_OUT_T4.put (F.BRW_OUT_LINES.put 0 (brwOut b s)) (tagsOf (s.bed b)).length

end Sys2Proof.Machine
end

