-- ==== Sys2Proof/Machine/Seq.lean ====
section
/-!
DEFINITION. The bed sequencer: instruction buffers and their refill (R100 to R102, R390), and the completion of cores and beds (R99).
-/

namespace Sys2Proof.Machine

/-! ## Refill -/

/-- Whether a core takes bundles of a stream. -/
def Core.follows (k : Core) (stream : Nat) : Bool :=
  k.active && !k.halted && !k.stopped && decide (k.stream = stream)

/-- The cores of a bed that want a block of a stream. -/
def wantsBlock (b stream block : Nat) (s : State) : List Nat :=
  (coresOf b).filter fun c => (s.core c).follows stream && (s.core c).ibWanted.contains block

/-- The bed sequencer asks for a block of a stream ahead of issue, for every core that takes it and lacks part of it (R100). -/
def ibRefill (b stream block : Nat) (s : State) : State :=
  (coresOf b).foldl (fun z c =>
    let k := z.core c
    let lacks := (List.range 32).any fun i =>
      decide (32 * block + i < k.streamLen) && (look k.ib (32 * block + i)).isNone
    if k.follows stream && lacks && !k.ibWanted.contains block then
      z.putCore c { k with ibWanted := k.ibWanted ++ [block] }
    else z) s

def execIbRefill (b : BedId) (stream block : Nat) (s : State) : Host.Outcome State Fault Refusal :=
  .next (ibRefill b.val stream block s)

/-- Whether a bundle lies in the body of an open loop, or is still to come. -/
def Core.keeps (k : Core) (i : Nat) : Bool :=
  decide (k.pc.toNat ≤ i) || k.loops.any fun l => decide (l.first ≤ i) && decide (i < l.first + l.len)

/-- The bundle that leaves a full buffer for bundle `i`: the oldest that has issued and that no open loop holds, else the one furthest
ahead, if it lies beyond `i`; no bundle of an open loop's body leaves (R100). -/
def Core.leaves (k : Core) (l : List (Nat × BitVec 256)) (i : Nat) : Option Nat :=
  match l.find? fun e => !k.keeps e.1 with
  | some e => some e.1
  | none => ((l.filter fun e => decide (i < e.1) && !k.loops.any fun o => decide (o.first ≤ e.1) && decide (e.1 < o.first + o.len)).map
      (·.1)).max?

/-- One bundle taken into a buffer of 256 (R100); with no room and nothing that may leave, it is not taken. -/
def Core.takeBundle (k : Core) (i : Nat) (v : BitVec 256) : Core :=
  let l := ldel k.ib i
  if l.length < 256 then { k with ib := l ++ [(i, v)] }
  else match k.leaves l i with
    | some j => { k with ib := ldel l j ++ [(i, v)] }
    | none => k

/-- The four bundles of a line taken into a buffer; the block is no longer wanted once it is whole. -/
def takeLine (c block line v : Nat) (s : State) : State :=
  let k0 := s.core c
  let k := (List.range 4).foldl (fun k i =>
    let n := 32 * block + 4 * line + i
    if n < k.streamLen then k.takeBundle n (BitVec.ofNat 256 (v / 2 ^ (256 * i))) else k) k0
  let whole := (List.range 32).all fun i =>
    decide (k.streamLen ≤ 32 * block + i) || (look k.ib (32 * block + i)).isSome
  s.putCore c { k with ibWanted := if whole then k.ibWanted.filter (· ≠ block) else k.ibWanted }

/-- The tag of the request for a line of bundles. -/
def lineTag (stream block line : Nat) : Nat := 65536 + (stream * 8191 + 8 * block + line) % 2 ^ 31

/-- How the bed sequencer of bed `b` fetches a line of a stream for a core. -/
def bsqVia (b stream block line : Nat) (k : Core) : Via :=
  ⟨.bsq (Fin.ofNat 4800 b), k.part, .bsq b, lineTag stream block line, partWho k.part, 2 ^ 40 + stream, k.step, some b⟩

/-- The same line of the next block read ahead into the side buffer (R130); where it does not translate it is dropped. -/
def prefetchNext (b stream block line : Nat) (k : Core) (s : State) : State :=
  if k.streamLen ≤ 32 * (block + 1) + 4 * line then s
  else
    let va := k.streamVA + 1024 * (block + 1) + 128 * line
    let x := translate k.part ⟨.bsq (Fin.ofNat 4800 b), 2 ^ 41 + stream, true, false, false, k.step, va, false, true⟩ s
    match x.1 with
    | .ok pa pol => bedcPrefetch b (pa % 2 ^ 61 / 128) (.bsq b) pol x.2
    | _ => x.2

/-- A parity error in a granule of a buffer discards the block that holds it, which is asked for again, and counts as a correction
(R390). -/
def dropBlock (b block : Nat) (l : List Nat) (s : State) : State :=
  let one (z : State) (c : Nat) : State :=
    let k := z.core c
    z.putCore c { k with ib := k.ib.filter fun e => decide (e.1 / 32 ≠ block) }
  ceReport ⟨2, plotOf b, b % 400, 0⟩ 0 255 (l.foldl one s)

/-- A refill read failed: the cores of the stream issue nothing more, and the launch ends (R102). -/
def refillFail (l : List Nat) (p : Nat) (st : Status) (s : State) : State :=
  failLaunchAt (bedOf (l.headD 0)) p st (l.foldl (fun z c => z.putCore c { z.core c with stopped := true }) s)

/-- A line of bundles returns (R100 to R102), one in a cycle for the bed: it enters the buffer of every core that wants it and counts
once, 128 bytes also where the stream ends inside it (DESIGN CHOICE, log entry 6). -/
def ibReturn (b stream block line : Nat) (parity : Bool) (s : State) : State :=
  let l := wantsBlock b stream block s
  match l.head? with
  | none => s
  | some c =>
    let k := s.core c
    if k.streamLen ≤ 32 * block + 4 * line ∨ (s.bed b).lineAt = s.cyc + 1 then s
    else if parity then dropBlock b block l s
    else
      let v := bsqVia b stream block line k
      let first := (asked v.src v.tag s).isEmpty
      let r := v.getRange (k.streamVA + 1024 * block + 128 * line) 128 s
      let s1 := if first && !(asked v.src v.tag r.2).isEmpty then prefetchNext b stream block line k r.2 else r.2
      match r.1 with
      | .wait => s1
      | .bad st => refillFail l k.part st (v.done s1)
      | .ok d =>
        let s2 := v.done s1
        incF F.CORE_BSQ_REFILL_COUNT b 0 128
          (l.foldl (fun z c => takeLine c block line d z) (s2.putBed b { s2.bed b with lineAt := s.cyc + 1 }))

def execIbRefillReturn (b : BedId) (stream block : Nat) (line : Fin 8) (parity : Bool) (s : State) :
    Host.Outcome State Fault Refusal := .next (ibReturn b.val stream block line.val parity s)

/-! ## Completion (R99) -/

/-- Whether a core has issued its last bundle. -/
def Core.ended (k : Core) : Bool := k.halted || decide (k.streamLen ≤ k.pc.toNat)

/-- The beds of a launch. -/
def Launch.bedList (l : Launch) : List Nat := l.beds.map (·.2)

/-- The launch of a partition, if it runs one. -/
def launchOf (p : Nat) (s : State) : Option Launch := (s.part p).launch

/-- The launch's last plot supervisor reports that every bed has finished (R99, R272). -/
def reportIfDone (p : Nat) (s : State) : State :=
  match launchOf p s with
  | none => s
  | some l =>
    if l.started && !l.stop && l.bedList.all (fun b => (s.bed b).reported) then
      sendReport l.ring l.idx (Status.joinAll .completed l.statuses) l.detail l.step s
    else s

/-- A core has finished; with the last of its bed the bed is reported complete. -/
def coreFinish (c : Nat) (s : State) : State :=
  let k := s.core c
  let b := bedOf c
  if k.active && k.ended && coreQuiet c s && decide (k.wait = .none) && !k.finished then
    let s1 := s.putCore c { k with finished := true, haltAt := if k.halted then k.haltAt else actOf c s }
    if (coresOf b).all fun d => (s1.core d).finished || !(s1.core d).active then
      reportIfDone k.part (s1.putBed b { s1.bed b with reported := true })
    else s1
  else s

def execCoreFinish (c : CoreId) (s : State) : Host.Outcome State Fault Refusal := .next (coreFinish c.val s)

end Sys2Proof.Machine
end

