-- ==== Sys2Proof/Machine/Csr.lean ====
section
/-!
DEFINITION. The CSR window (R34, R35, R195, R251, R252, R319, R343, R365, R382, R404, R427, R451): the block and the register that
an address of a die slot names. A block reaches to the next one of its slot (DEDUCED, log entry 21).
-/

namespace Sys2Proof.Machine

/-- What an offset of a die slot leads to: nothing, a block with its unit and the offset in it, the standard registers of the IOMMU,
or the guest's own registers. -/
inductive CsrPlace where
  | none
  | blank
  | block (b : Block) (unit off : Nat)
  | iommuStd (off : Nat)
  | guest (off : Nat)
  deriving DecidableEq, Repr

/-- The blocks of a bed (R34). -/
def bedPlace (plot o : Nat) : CsrPlace :=
  let b := o / 0x100000
  let x := o % 0x100000
  if 400 ≤ b then .none
  else
    let bed := 400 * plot + b
    if x < 0x10000 then .block .bedc bed x
    else if x < 0x20000 then .block .brw bed (x - 0x10000)
    else if x < 0x30000 then .block .utlb bed (x - 0x20000)
    else if x < 0x40000 then .block .bsq bed (x - 0x30000)
    else if x < 0x80000 then .none
    else
      let c := (x - 0x80000) / 0x1000
      let y := x % 0x1000
      if 64 ≤ c then .none
      else if y < 0x400 then .block .core (64 * bed + c) y
      else if y < 0x800 then .block .grid (64 * bed + c) (y - 0x400)
      else .block .spad (64 * bed + c) (y - 0x800)

/-- The D2D_ block of a die: its links, numbered 4 to a slot, and the registers of its own. -/
def d2dPlace (slot o : Nat) : CsrPlace :=
  if o < 0x400 then .block .link (4 * slot + o / 0x100) (o % 0x100)
  else match slot with
    | 12 => .block .d2d12 0 o
    | 13 => .block .d2d13 0 o
    | 14 => .block .d2d14 0 o
    | _ => .blank

/-- The HAL_ block of an I/O die. -/
def halPlace (slot o : Nat) : CsrPlace :=
  if o < 0x800 then .block .port (8 * (slot - 12) + o / 0x100) (o % 0x100)
  else if o < 0x1000 then .block .halDie (slot - 12) o
  else if slot = 12 then .block .hal 0 o else .blank

/-- What offset `o` of die slot `slot` leads to. -/
def csrPlace (slot o : Nat) : CsrPlace :=
  let b := o / 0x100000
  let x := o % 0x100000
  if b = 0 then .block .hdr slot x
  else if slot < 12 then
    (if 0x10000000 ≤ o then bedPlace slot (o - 0x10000000)
    else match b with
      | 1 => .blank
      | 2 => .block .pwrPlot slot x
      | 3 => d2dPlace slot x
      | 4 => .block .ptc slot x
      | 5 => if x % 0x80000 < 0x40000 then .block .stk (2 * slot + x / 0x80000) (x % 0x80000) else .block .reg 0 (x % 0x80000)
      | 6 => .block .tapPlot slot x
      | _ => .none)
  else if slot = 12 then
    (if 0x40000000 ≤ o ∧ o < 0x40400000 then .block .db ((o - 0x40000000) / 0x1000) (o % 0x1000)
    else match b with
      | 1 => .block .mgt 0 x
      | 2 => .block .pwr 0 x
      | 3 => .block .sec 0 x
      | 4 => .block .tap 0 x
      | 5 => .block .cmd 0 x
      | 6 => halPlace 12 x
      | 7 => d2dPlace 12 x
      | _ => .none)
  else if slot = 13 then
    (match b with
      | 6 => halPlace 13 x
      | 7 => d2dPlace 13 x
      | _ => .none)
  else if slot = 14 then
    (match b with
      | 4 => if x < 0x1000 then .iommuStd x else .block .iommu 0 x
      | 7 => d2dPlace 14 x
      | _ => .none)
  else if 0x1000000 ≤ o then .guest (o - 0x1000000) else .none

/-- Bytes of an element of a register. -/
def Reg.width (r : Reg) : Nat := min 8 r.stride

/-- A register with its unit and element. -/
structure CsrAt where
  reg : Reg
  unit : Nat
  idx : Nat
  deriving DecidableEq, Repr

/-- Whether a byte of a block lies in a register. -/
def Reg.covers (r : Reg) (o : Nat) : Bool :=
  decide (r.off ≤ o) && decide (o < r.off + r.cnt * r.stride) && decide ((o - r.off) % r.stride < r.width)

/-- The register that holds byte `o` of a block. -/
def regAt (b : Block) (unit o : Nat) : Option CsrAt :=
  (b.regs.find? fun r => r.covers o).map fun r =>
    if b = .db then ⟨r, 0, unit⟩ else ⟨r, unit, (o - r.off) / r.stride⟩

/-- The first byte of a register in its block. -/
def CsrAt.off (a : CsrAt) : Nat := if a.reg.block = .db then a.reg.off else a.reg.off + a.idx * a.reg.stride

/-- The die slot and the offset in it of a local address of the CSR window. -/
def csrSlot (l : Nat) : Nat × Nat := (l / 2 ^ 32 % 16, l % 2 ^ 32)

/-- The register that an address of the window names, if its first byte is that of a register. -/
def csrReg (l : Nat) : Option CsrAt :=
  match csrPlace (csrSlot l).1 (csrSlot l).2 with
  | .block b u o => (regAt b u o).filter fun a => decide (a.off = o)
  | _ => none

end Sys2Proof.Machine
end

