-- ==== Sys2Proof/Machine/Stk.lean ====
section
/-!
DEFINITION. A stack controller at work (R165, R177, R181 to R187, R332): admission by status, regulator and snoop filter, writes
performed at acceptance, reads served from the queue, atomics, and the ordered-add buffer.
-/

namespace Sys2Proof.Machine

/-- A request given whole, as one under way. -/
def reqOf (r : DramReq) (tick : Nat) : Req :=
  ⟨r.id, r.src, r.who, 0, r.pa.toNat, r.len, r.write, r.data, r.mask, r.atom, r.step, r.key, .sent, .ok, 0, tick, false, false, false, none, false, 0, [], false, ⟨false, false, false⟩⟩

/-- The stack that a request is for. -/
def reqStack (r : Req) (s : State) : Option Nat := (homeOf r.pa s).map (·.stack)

/-- Whether a request writes: a write or an atomic. -/
def Req.writes (r : Req) : Bool := r.write || r.atom.isSome

/-- The bed that a request comes from, by whichever of its sources. -/
def srcBed (x : Src) : Option Nat :=
  match x with
  | .bed b => some b
  | .brw b => some b
  | .bsq b => some b
  | _ => none

/-- Whether an earlier request `x` of stack `st` goes before a later one: a write or atomic of its source before a later one (R148), and
before a read of the line by the same bed (R149). -/
def goesFirst (x r : Req) (st : Nat) (s : State) : Bool :=
  decide (reqStack x s = some st) && isLocal x.pkg s && x.writes &&
  ((decide (x.src = r.src) && r.writes) ||
   ((decide (x.src = r.src) || (decide (srcBed x.src = srcBed r.src) && (srcBed x.src).isSome)) && decide (x.pa / 128 = r.pa / 128)))

/-- The requests posted before one. -/
def earlier (r : Req) (s : State) : List Req := s.net.takeWhile fun x => decide (x.id ≠ r.id)

/-- Whether a request cannot yet have reached its controller, because an earlier one that goes before it has not (R148). -/
def onItsWay (r : Req) (st : Nat) (s : State) : Bool := (earlier r s).any fun x => decide (x.st = .sent) && goesFirst x r st s

/-- Whether a request under way is bound for stacked DRAM of this package. -/
def Req.atDram (r : Req) (s : State) : Bool := isLocal r.pkg s && isDram r.pa && decide (r.st = .sent)

/-- The request that arrives, with the state in which it is under way; a copy of one that is here already is discarded (R17). -/
def arriving (a : Arrival) (s : State) : Option Req × State :=
  match a with
  | .under id =>
    match netGet id s with
    | none => (none, s)
    | some r =>
      if r.atDram s then (if (reqStack r s).any fun st => onItsWay r st s then none else some r, s) else (none, dropCopy r s)
  | .direct r => let q := reqOf r s.tick; (some q, { s with net := s.net ++ [q] })

/-! ## Regulators (R185, R186) -/

/-- The tokens that a request costs. -/
def tokenCost (r : Req) : Nat := if r.atom.isSome then 1 else max 1 ((r.len + 63) / 64)

/-- EN and BORROW of a regulator as they act in the present period (R187): EN in bit 0, BORROW in bit 1. -/
def regOn (st k : Nat) (s : State) : Nat := sget 2 (s.stack st).regOn k

/-- Whether the regulator of a request has its tokens, or does not ask for any. -/
def hasTokens (r : Req) (st : Nat) (s : State) : Bool :=
  !(regOn st (regOf r.who s) s).testBit 0 || decide (tokenCost r ≤ getF F.STK_REG_LEVEL_LEVEL st (regOf r.who s) s)

/-- Requests waiting at a controller. -/
def waitingAt (st : Nat) (s : State) : List Req :=
  s.net.filter fun r => decide (r.st = .waiting) && decide (reqStack r s = some st)

/-- Whether a request is held back behind an earlier one (R148, R149, R186): any that waits at the controller for its source, and one that
goes before it and is not yet performed. -/
def heldBehind (r : Req) (st : Nat) (s : State) : Bool :=
  (earlier r s).any fun x =>
    (decide (x.src = r.src) && decide (x.st = .waiting) && decide (reqStack x s = some st)) ||
    ((decide (x.st = .waiting) || decide (x.st = .snooping) || decide (x.st = .sent)) && goesFirst x r st s)

/-- Whether a controller admits a request now: within the 440 tokens of the period (220 on a hot stack, R362), with tokens or by borrowing
where no waiting request has tokens (R185, R186). -/
def admits (r : Req) (st : Nat) (s : State) : Bool :=
  decide ((s.stack st).used + tokenCost r ≤ if (s.stack st).hotCap then 220 else 440) && !heldBehind r st s &&
  (hasTokens r st s || ((regOn st (regOf r.who s) s).testBit 1 &&
    !(waitingAt st s).any fun x => decide (x.id ≠ r.id) && hasTokens x st s))

/-- The tokens of an admitted request spent. -/
def spend (r : Req) (st : Nat) (s : State) : State :=
  let k := regOf r.who s
  let c := tokenCost r
  let l := getF F.STK_REG_LEVEL_LEVEL st k s
  let d := s.stack st
  let s1 := incF F.STK_REG_BYTES_COUNT st k r.len (s.putStack st { d with used := d.used + c })
  if (regOn st k s).testBit 0 && decide (c ≤ l) then setF F.STK_REG_LEVEL_LEVEL st k (l - c) s1 else s1

/-! ## Ordered adds (R164 to R167) -/

/-- Whether a source is a barrow, of this package or of another. -/
def fromBarrow (x : Src) : Bool :=
  match x with
  | .bed _ => true
  | .brw _ => true
  | .pkg _ slot bed => decide (slot < 12) && decide (bed < 400)
  | _ => false

/-- Whether partition `k` is in locked mode by the grove (R312). -/
def groveLocked (k : Nat) (s : State) : Bool :=
  bitF F.HAL_GROVE_STATUS_LOCKED 0 0 s && (getF F.HAL_LOCK_PARTS_PARTS 0 0 s).testBit k

/-- The launch of this package whose steps order an add: that of the add's partition, and for an add of another package, one of a grove
launch that spans both. -/
def addLaunch (r : Req) (s : State) : Option Launch :=
  (s.part r.who.part.val).launch.filter fun l => !r.who.remote || l.grove

/-- Whether a request is a floating-point add of a locked partition by a barrow (R165, R166); a move of no step is applied on arrival
(R218), and so is the add of a requester with host standing. -/
def isLockedAdd (r : Req) (s : State) : Bool :=
  match r.atom with
  | none => false
  | some a => a.isFadd && !r.who.host && fromBarrow r.src && decide (r.step ≠ BitVec.allOnes 32) &&
    (match addLaunch r s with
      | some l => l.locked
      | none => groveLocked r.who.part.val s)

/-- Whether the step of a locked add is over (R167). An add of a partition that runs no launch here which could end its step is applied on
arrival as such an add is (DESIGN CHOICE, log entry 98: no rule gives this package that step's boundary). -/
def isLate (r : Req) (s : State) : Bool :=
  match addLaunch r s with
  | some l => decide (r.step.toNat < l.step)
  | none => true

/-- Whether a request is to be held for its step (R165). -/
def isOrdered (r : Req) (s : State) : Bool := isLockedAdd r s && !isLate r s

/-- The order in which held adds of a location apply (R165): key, package, slot, bed. -/
def OAdd.before (a b : OAdd) : Bool :=
  let ka := (a.key.toNat, a.pkg, a.slot, a.bed)
  let kb := (b.key.toNat, b.pkg, b.slot, b.bed)
  decide (ka.1 < kb.1) || (decide (ka.1 = kb.1) && (decide (ka.2.1 < kb.2.1) || (decide (ka.2.1 = kb.2.1) &&
    (decide (ka.2.2.1 < kb.2.2.1) || (decide (ka.2.2.1 = kb.2.2.1) && decide (ka.2.2.2 ≤ kb.2.2.2))))))

/-- Insertion in that order, after the adds that compare equal: a source's adds keep the order of their arrival. -/
def insAdd (a : OAdd) : List OAdd → List OAdd
  | [] => [a]
  | b :: t => if b.before a then b :: insAdd a t else a :: b :: t

/-- Held adds in that order. -/
def sortAdds (l : List OAdd) : List OAdd := l.foldl (fun z a => insAdd a z) []

/-- A held add applied at its home. -/
def applyAdd (st : Nat) (a : OAdd) (s : State) : State :=
  let op : Atom := ⟨if a.bytes = 4 then 0xB else 0xC, false, false, a.data.setWidth 64, 0⟩
  (homeAtomic ⟨0, st, a.loc⟩ (a.pa) (partWho a.part.val) op s).2

/-- The held adds of a partition's ending step are applied in every controller (R165). -/
def applyAdds (p step : Nat) (s : State) : State :=
  (List.range 24).foldl (fun z st =>
    let k := z.stack st
    let mine (a : OAdd) : Bool := decide (a.part.val = p) && decide (a.step.toNat ≤ step)
    (sortAdds (k.oadd.filter mine)).foldl (fun y a => applyAdd st a y)
      (z.putStack st { k with oadd := k.oadd.filter fun a => !mine a })) s

/-- Requests for which `p` holds, waiting for an entry of an ordered-add buffer, answered with a status. -/
def endAdds (p : Req → Bool) (st : Status) (s : State) : State :=
  (s.net.filter fun r => decide (r.st = .waiting) && r.oaddMark && p r).foldl (fun z r => complete r st 0 z) s

/-- The held adds of a partition discarded, and those that wait for an entry answered (R194, R268). -/
def dropAdds (p : Nat) (s : State) : State :=
  endAdds (fun r => decide (r.who.part.val = p)) .dataLost ((List.range 24).foldl (fun z st =>
    let k := z.stack st
    z.putStack st { k with oadd := k.oadd.filter fun a => decide (a.part.val ≠ p) }) s)

/-- The source of an add as the order of equal keys sees it: package, die slot, bed. -/
def srcOrder (x : Src) (s : State) : Nat × Nat × Nat :=
  match x with
  | .pkg n slot bed => (n, slot, bed)
  | y => (ownPkg s, srcPlace y)

/-! ## Acceptance -/

/-- An atomic performed (R161): the old value returned where it asks for it. A floating-point add of locked mode returns zero (R166). -/
def doAtomic (r : Req) (h : Home) (a : Atom) (s : State) : State :=
  let z := homeAtomic h r.pa r.who a s
  match z.1 with
  | none => complete r .dataLost 0 z.2
  | some v => complete r .ok (if a.returns && !isLockedAdd r s then BitVec.ofNat 1024 v else 0) z.2

/-- An admitted request with nothing left to snoop is accepted: a write is performed and queued for its acknowledgement, a read is
queued, an atomic is performed (R181). -/
def accept (r : Req) (h : Home) (s : State) : State :=
  match r.atom with
  | some a => doAtomic r h a s
  | none =>
    if r.write then
      let z := homeWrite h r.pa r.who r.len r.mask.toNat r.data.toNat s
      netPut { r with st := .queued, tick := s.tick, status := if z.1 then .ok else .dataLost } z.2
    else netPut { r with st := .queued, tick := s.tick } s

/-- An admitted request: it snoops where it must, else it is accepted. -/
def admitted (r : Req) (h : Home) (s : State) : State :=
  let s1 := spend r h.stack s
  if !srcHost r.src && mustSnoop r h s1 then
    netPut { r with st := .snooping } (incF F.D2D_CXL_SNOOP_COUNT 0 0 (snooped r h s1).length s1)
  else accept r h s1

/-- An ordered add taken into the buffer, or waiting while it is full, without tokens, or behind another (R165 to R167, R185). -/
def oaddEnter (r : Req) (a : Atom) (h : Home) (s : State) : State :=
  let k := s.stack h.stack
  if 4096 ≤ k.oadd.length then netPut { r with st := .waiting, oaddMark := true } s
  else if !admits r h.stack s then netPut { r with st := .waiting, regMark := true } s
  else
    let o := srcOrder r.src s
    let e : OAdd := ⟨r.id, h.addr / a.bytes * a.bytes, r.pa / a.bytes * a.bytes, a.bytes, a.operand.setWidth 32, r.who.part, r.step,
      r.key, o.1, o.2.1, o.2.2⟩
    let s1 := spend r h.stack s
    complete r .ok 0 (s1.putStack h.stack { s1.stack h.stack with oadd := k.oadd ++ [e] })

/-- A request at its controller (R165, R168, R175 to R177, R186): refused with its status, held for its step, made to wait, or admitted. -/
def atHome (r : Req) (s : State) : State :=
  match homeOf r.pa s with
  | none => complete r .dieAbsent 0 s
  | some h =>
    match homeBadFor r.src r.who h s with
    | some st => complete r st 0 s
    | none =>
      match r.atom.filter fun _ => isOrdered r s with
      | some a => oaddEnter r a h s
      | none => if admits r h.stack s then admitted r h s else netPut { r with st := .waiting, regMark := true } s

/-- DRAM_REQUEST: a plain read or write reaches its controller. -/
def dramRequest (a : Arrival) (s : State) : State :=
  let z := arriving a s
  match z.1 with
  | some r => if r.atom.isNone then atHome r z.2 else s
  | none => z.2

def execDramRequest (a : Arrival) (s : State) : Host.Outcome State Fault Refusal := .next (dramRequest a s)

/-- DRAM_ATOMIC: an atomic reaches its controller and is applied on arrival (R161, R164); a floating-point add whose step is over
is counted as late (R167). -/
def dramAtomic (a : Arrival) (s : State) : State :=
  let z := arriving a s
  match z.1 with
  | some r =>
    if r.atom.isNone || isOrdered r z.2 then s
    else
      match reqStack r z.2 with
      | some st => atHome r (if isLockedAdd r z.2 then incF F.STK_OADD_LATE_COUNT st 0 1 z.2 else z.2)
      | none => atHome r z.2
  | none => z.2

def execDramAtomic (a : Arrival) (s : State) : Host.Outcome State Fault Refusal := .next (dramAtomic a s)

/-- OADD_ACCEPT: a floating-point add of a locked partition reaches its controller. -/
def oaddAccept (a : Arrival) (s : State) : State :=
  let z := arriving a s
  match z.1 with
  | some r => if isOrdered r z.2 then atHome r z.2 else s
  | none => z.2

def execOaddAccept (a : Arrival) (s : State) : Host.Outcome State Fault Refusal := .next (oaddAccept a s)

/-! ## The queues of the pseudo-channels (R186) -/

/-- The accepted requests of a pseudo-channel of a stack, the oldest admitted first. -/
def pcQueue (st pc : Nat) (s : State) : List (Req × Home) :=
  ((s.net.filterMap fun r => if r.st = .queued ∧ r.atom = none then (homeOf r.pa s).map fun h => (r, h) else none).filter fun e =>
    decide (e.2.stack = st) && decide (pcOf (e.2.addr / 256) = pc)).mergeSort fun a b => decide (a.1.tick ≤ b.1.tick)

/-- Whether a request finds its row open. -/
def rowHit (h : Home) (s : State) : Bool :=
  let b := bankRow (h.addr / 256)
  decide (look (s.stack h.stack).rows b.1 = some b.2)

/-- The request that a queue serves next: the oldest where it has waited 2 µs, else the oldest row hit, else the oldest. -/
def pcNext (q : List (Req × Home)) (s : State) : Option Nat :=
  match q with
  | [] => none
  | e :: _ =>
    if e.1.tick + 50 ≤ s.tick then some e.1.id
    else match q.find? fun x => rowHit x.2 s with
      | some x => some x.1.id
      | none => some e.1.id

/-- Whether a queued request is the one that its queue serves next. -/
def servesNext (id : Nat) (h : Home) (s : State) : Bool :=
  decide (pcNext (pcQueue h.stack (pcOf (h.addr / 256)) s) s = some id)

/-- A write's command and data have gone out: it is acknowledged (R181). -/
def ackWrite (r : Req) (s : State) : State :=
  complete r r.status 0 (match homeOf r.pa s with
    | some h => countRow h s
    | none => s)

/-- DRAM_WRITE_ACK: the write that its queue serves next (R186) is acknowledged. -/
def writeAck (id : Nat) (s : State) : State :=
  match netGet id s with
  | some r =>
    if r.st = .queued ∧ r.write ∧ (homeOf r.pa s).all (fun h => servesNext id h s) then ackWrite r s else s
  | none => s

def execDramWriteAck (id : Nat) (s : State) : Host.Outcome State Fault Refusal := .next (writeAck id s)

/-- DRAM_READ_RETURN: the read that its queue serves next (R186) returns its data (R182); one whose stack or region is lost fails. -/
def readReturn (id : Nat) (s : State) : State :=
  match netGet id s with
  | none => s
  | some r =>
    if r.st = .queued ∧ !r.write then
      match homeOf r.pa s with
      | none => complete r .dieAbsent 0 s
      | some h =>
        if (homeBad hostWho h s).isSome then complete r .dieAbsent 0 s
        else if !servesNext id h s then s
        else
          let z := homeRead h r.pa r.who r.len s
          match z.1 with
          | some v => complete r .ok (BitVec.ofNat 1024 v) z.2
          | none => complete r .dataLost 0 z.2
    else s

def execDramReadReturn (id : Nat) (s : State) : Host.Outcome State Fault Refusal := .next (readReturn id s)

/-! ## The regulator period -/

/-- Regulator `k` gains its tokens, and its EN and BORROW act from now on (R185, R187). -/
def refill (st k : Nat) (s : State) : State :=
  let d := s.stack st
  let f := sget 0 d.frac k + getF F.STK_REG_RATE st k s
  let l := min (getF F.STK_REG_BURST st k s) (getF F.STK_REG_LEVEL_LEVEL st k s + f / 16)
  let on := getF F.STK_REG_EN st k s + 2 * getF F.STK_REG_BORROW st k s
  setF F.STK_REG_LEVEL_LEVEL st k l (s.putStack st { d with frac := sput 0 d.frac k (f % 16), regOn := sput 2 d.regOn k on })

/-- The first `n` regulators. -/
def refillAll (st : Nat) : Nat → State → State
  | 0, s => s
  | k + 1, s => refill st k (refillAll st k s)

/-- A waiting request tried again. -/
def retry (id : Nat) (s : State) : State :=
  match netGet id s with
  | none => s
  | some r => if r.st = .waiting then atHome r s else s

/-- Requests waiting for tokens counted for their regulators. -/
def countWaits (st : Nat) (s : State) : State :=
  let l := (waitingAt st s).filter fun r => r.regMark && !hasTokens r st s
  ((l.map fun r => regOf r.who s).eraseDups).foldl (fun z k => incF F.STK_REG_WAIT_COUNT st k 1 z) s

/-- REGULATOR_PERIOD: tokens are added, and the waiting requests are admitted in order, those with tokens before those that
borrow (R185, R186). -/
def regulatorPeriod (st : Nat) (s : State) : State :=
  let d := s.stack st
  let s1 := refillAll st 33 (s.putStack st { d with used := 0 })
  let s2 := countWaits st s1
  let l := waitingAt st s2
  let s3 := (l.filter fun r => hasTokens r st s2).foldl (fun z r => retry r.id z) s2
  (l.filter fun r => !hasTokens r st s2).foldl (fun z r => retry r.id z) s3

def execRegulatorPeriod (st : StackId) (s : State) : Host.Outcome State Fault Refusal := .next (regulatorPeriod st s)

/-! ## Snoops (R332) -/

/-- A 64-byte half written back to its stack. -/
def putHalf (h : Home) (off : Nat) (pa : Nat) (d : Option (BitVec 512)) (s : State) : State :=
  match d with
  | none => s
  | some v =>
    let a := (h.addr + off) / 64 * 64
    (homeWrite { h with addr := a } ((pa + off) / 64 * 64) hostWho 64 (2 ^ 64 - 1) v.toNat (countRow { h with addr := a } s)).2

/-- The filter entries of the halves of a request: SHARED after a read, gone after a write. -/
def settleFilter (h : Home) (r : Req) (s : State) : State :=
  let k := s.stack h.stack
  let keys := (halves h r.len).map (halfKey h)
  if r.write || r.atom.isSome then
    s.putStack h.stack { k with snoop := k.snoop.filter fun e => !keys.contains e.1 }
  else s.putStack h.stack { k with snoop := k.snoop.map fun e => if keys.contains e.1 then (e.1, false) else e }

/-- The processor die's answer to a snoop: dirty data is written, and the request proceeds with its own bytes prevailing. One whose stack
or region has been lost since fails, and nothing is written (R192, R193). -/
def snoopResponse (id : Nat) (lo hi : Option (BitVec 512)) (s : State) : State :=
  match netGet id s with
  | none => s
  | some r =>
    if r.st ≠ .snooping then s
    else
      match homeOf r.pa s with
      | none => complete r .dieAbsent 0 s
      | some h => if (homeBad hostWho h s).isSome then complete r .dieAbsent 0 s else
        let offs := halves h r.len
        let s1 := putHalf h (offs.headD 0) r.pa lo s
        let s2 := match offs with
          | _ :: o :: _ => putHalf h o r.pa hi s1
          | _ => s1
        accept r h (settleFilter h r s2)

def execSnoopResponse (id : Nat) (lo hi : Option (BitVec 512)) (s : State) : Host.Outcome State Fault Refusal :=
  .next (snoopResponse id lo hi s)

/-- The filter set of a half: 16,384 sets of 16 (DESIGN CHOICE, log entry 16). -/
def filterSet (key : Nat) : Nat := key % 16384

/-- A processor fill enters the filter, the least recently filled entry first in the list. -/
def filterFill (st key : Nat) (owned : Bool) (s : State) : State :=
  let k := s.stack st
  s.putStack st { k with snoop := ldel k.snoop key ++ [(key, owned)] }

/-- BISNP: a processor fill finds its set full; the set's least recently filled line is back-invalidated, written back where it
is dirty, and the fill proceeds (R332). -/
def backInvalidate (pa : Nat) (owned : Bool) (dirty : Option (BitVec 512)) (s : State) : State :=
  match homeOf pa s with
  | none => s
  | some h =>
    let key := halfKey h 0
    let k := s.stack h.stack
    let set := k.snoop.filter fun e => decide (filterSet e.1 = filterSet key)
    match set with
    | [] => filterFill h.stack key owned s
    | e :: _ =>
      if (look k.snoop key).isSome ∨ set.length < 16 then filterFill h.stack key owned s
      else
        let s1 := incF F.D2D_CXL_BISNP_COUNT 0 0 1
          (putHalf { h with addr := e.1 * 64 } 0 (paOfStack h.stack (e.1 * 64) s) dirty s)
        let k1 := s1.stack h.stack
        filterFill h.stack key owned (s1.putStack h.stack { k1 with snoop := ldel k1.snoop e.1 })

def execBisnp (pa : BitVec 52) (owned : Bool) (dirty : Option (BitVec 512)) (s : State) : Host.Outcome State Fault Refusal :=
  .next (backInvalidate pa.toNat owned dirty s)

end Sys2Proof.Machine
end

