-- ==== Sys2Proof/Machine/StkRegs.lean ====
section
/-!
DEFINITION. The region table (R175, R176, R193), patrol and write-backs (R189, R391), training, identity and self-refresh (R190 to
R192), and what the loss of a stack does.
-/

namespace Sys2Proof.Machine

/-! ## The region table -/

/-- A region entry's value with every field clamped, in the order WIDE, PLOT, BASE, STACK_BASE, SIZE (R195). RO fields are left as
they are in `old`. -/
def clampRegion (v old : BitVec 64) : BitVec 64 :=
  let wide := F.STK_REGION_WIDE.of v
  let unit := if wide = 1 then 24 else 2
  let plot := min 11 (F.STK_REGION_PLOT.of v)
  let base := min (1728 - unit) (F.STK_REGION_BASE.of v)
  let sb := min 71 (F.STK_REGION_STACK_BASE.of v)
  let room := min ((1728 - base) / unit) (72 - sb)
  let size := unit * min room (max 1 (F.STK_REGION_SIZE.of v / unit))
  let f (x : Fld) (n : Nat) (w : BitVec 64) : BitVec 64 := x.put w n
  f F.STK_REGION_VALID (F.STK_REGION_VALID.of v) (f F.STK_REGION_GROVE_OPEN (F.STK_REGION_GROVE_OPEN.of v)
    (f F.STK_REGION_ALL_PARTS (F.STK_REGION_ALL_PARTS.of v) (f F.STK_REGION_PART (F.STK_REGION_PART.of v)
      (f F.STK_REGION_STACK_BASE sb (f F.STK_REGION_PLOT plot (f F.STK_REGION_WIDE wide (f F.STK_REGION_SIZE size
        (f F.STK_REGION_BASE base old))))))))

/-- Whether two entries overlap, in physical range or in a stack that both use (R176). -/
def regionsOverlap (a b : BitVec 64) : Bool :=
  let hit (x n y m : Nat) : Bool := decide (x < y + m) && decide (y < x + n)
  let bs (v : BitVec 64) := F.STK_REGION_BASE.of v
  let sz (v : BitVec 64) := F.STK_REGION_SIZE.of v
  let wd (v : BitVec 64) := decide (F.STK_REGION_WIDE.of v = 1)
  let sb (v : BitVec 64) := F.STK_REGION_STACK_BASE.of v
  let per (v : BitVec 64) := sz v / (if wd v then 24 else 2)
  hit (bs a) (sz a) (bs b) (sz b) ||
  ((wd a || wd b || decide (F.STK_REGION_PLOT.of a = F.STK_REGION_PLOT.of b)) && hit (sb a) (per a) (sb b) (per b))

/-- A refused or ignored write noted in STK_REGION_CTL. -/
def regionRefuse (f : Fld) (i : Nat) (s : State) : State := setF F.STK_REGION_CTL_LAST_INDEX 0 0 i (flagF f 0 0 s)

/-- STK_REGION_WRITE (R176). Every copy holds a new value from the next cycle on (DESIGN CHOICE, log entry 99: R176 does not say how long
the management controller takes). -/
def regionWrite (i : Nat) (v : BitVec 64) (s : State) : State :=
  let old := readReg .STK_REGION 0 i s
  if s.regClear.isSome || decide (s.cyc < s.regBusy) then regionRefuse F.STK_REGION_CTL_BUSY_WRITE i s
  else if bitF F.STK_REGION_VALID 0 i s then
    if F.STK_REGION_VALID.of v = 0 then { s with regClear := some i }
    else regionRefuse F.STK_REGION_CTL_LOCKED_WRITE i s
  else
    let n := clampRegion v old
    if F.STK_REGION_VALID.of v = 1 ∧
        (List.range 64).any (fun j => decide (j ≠ i) && bitF F.STK_REGION_VALID 0 j s &&
          regionsOverlap n (readReg .STK_REGION 0 j s)) = true then
      regionRefuse F.STK_REGION_CTL_OVERLAP i (writeReg .STK_REGION 0 i (F.STK_REGION_VALID.put n 0) { s with regBusy := s.cyc + 1 })
    else writeReg .STK_REGION 0 i n { s with regBusy := s.cyc + 1 }

/-- REGION_INVALID_DONE: once every access accepted in the region has been acknowledged, VALID clears in every copy (R176). -/
def regionInvalidDone (i : Nat) (s : State) : State :=
  if s.regClear = some i ∧
      s.net.any (fun r => (decide (r.st = .queued) || decide (r.st = .snooping)) && inRegion i r.pa s) = false then
    setF F.STK_REGION_VALID 0 i 0 { s with regClear := none }
  else s

def execRegionInvalidDone (i : Fin 64) (s : State) : Host.Outcome State Fault Refusal := .next (regionInvalidDone i.val s)

/-- STK_REGION_CTL: BUSY until every copy holds the new value. -/
def viewRegionCtl (s : State) : BitVec 64 :=
  F.STK_REGION_CTL_BUSY.put (readReg .STK_REGION_CTL 0 0 s) (if s.regClear.isSome || decide (s.cyc < s.regBusy) then 1 else 0)

/-- The stacks of a region (R175). -/
def regionStacks (i : Nat) (s : State) : List Nat :=
  if bitF F.STK_REGION_WIDE 0 i s then List.range 24
  else let p := getF F.STK_REGION_PLOT 0 i s; [2 * p, 2 * p + 1]

/-- CLEAR_FAULT: ignored while any stack of the region is not SERVING (R193). -/
def clearFault (i : Nat) (s : State) : State :=
  if (regionStacks i s).all fun st => stackUp st s then setF F.STK_REGION_FAULTED 0 i 0 s else s

def execClearFault (i : Fin 64) (s : State) : Host.Outcome State Fault Refusal := .next (clearFault i.val s)

/-- Every valid region that includes a stack becomes FAULTED (R193). -/
def faultRegions (st : Nat) (n : Nat) (s : State) : State :=
  match n with
  | 0 => s
  | i + 1 =>
    let s1 := faultRegions st i s
    if bitF F.STK_REGION_VALID 0 i s1 && (regionStacks i s1).contains st then setF F.STK_REGION_FAULTED 0 i 1 s1 else s1

/-! ## Refresh, patrol and write-backs -/

/-- REFRESH_DUE: a refresh or refresh-management command issues; it changes timing only (R188). -/
def refreshDue (st : Nat) (s : State) : State :=
  if stackUp st s then incF F.STK_REFRESH_COUNT st 0 1 s else s

def execRefreshDue (st : StackId) (s : State) : Host.Outcome State Fault Refusal := .next (refreshDue st.val s)

/-- Granules of a stack. -/
def stackGrans : Nat := 72 * 2 ^ 26

/-- PATROL_READ: the next granule of the pass is read: a corrected one is counted and queued for write-back, an uncorrectable one is
recorded as found (R189, R391, R395). -/
def patrolRead (st : Nat) (s : State) : State :=
  if !stackUp st s || !bitF F.STK_CTRL_PATROL_EN st 0 s then s
  else
    let k := s.stack st
    let a := 16 * k.patrolAt
    let pa := paOfStack st a s
    let r := memGran st a pa s
    let s1 := match r.1 with
      | some _ => r.2
      | none => ueFound (memErrAt st pa) (syndrome (sget 0 s.memErr (memKey st a / 16))).code (flagF F.STK_STATUS_UE st 0 r.2)
    let k1 := s1.stack st
    if k1.patrolAt + 1 < stackGrans then s1.putStack st { k1 with patrolAt := k1.patrolAt + 1 }
    else incF F.STK_SCRUB_PASS_COUNT st 0 1 (s1.putStack st { k1 with patrolAt := 0 })

def execPatrolRead (st : StackId) (s : State) : Host.Outcome State Fault Refusal := .next (patrolRead st.val s)

/-- CE_WRITEBACK: the first queued write-back of a stack issues (R391). -/
def ceWriteback (st : Nat) (s : State) : State :=
  let k := s.stack st
  match k.writeback with
  | [] => s
  | key :: r =>
    let s1 := s.putStack st { k with writeback := r }
    let p := sget 0 s.memErr key
    let a := 16 * key % 2 ^ 37
    match guardDecode (syndrome p) with
    | .correct n x =>
      let d := BitVec.ofNat 128 (getBytes s.mem (16 * key) 16) ^^^ (flipNibble p n x).setWidth 128
      memWriteGran st a (paOfStack st a s) 65535 d.toNat s1
    | _ => s1

def execCeWriteback (st : StackId) (s : State) : Host.Outcome State Fault Refusal := .next (ceWriteback st.val s)

/-! ## Training and self-refresh -/

/-- A package without an identity (R37): the cause and, for a mismatch, the slot or stack. -/
def noIdentity (cause slot : Nat) (s : State) : State :=
  setF F.MGT_ID_STATUS_MISMATCH_SLOT 0 0 slot (setF F.MGT_ID_STATUS_CAUSE 0 0 cause
    (setF F.MGT_ID_STATUS_SOURCE 0 0 0 { s with ident := none }))

/-- The KIND and REVISION that the identity record in use gives entry `i` (0 to 15 slots, 16 to 39 stacks), if there is one. -/
def identEntry (i : Nat) (s : State) : Option (Nat × Nat) :=
  match s.ident with
  | some d => d.dies[i]?
  | none => none

/-- A stack's base die compared with the identity record (R191). -/
def checkStack (st rev : Nat) (s : State) : State :=
  match identEntry (16 + st) s with
  | some (_, r) => if r = rev then s else noIdentity 3 (16 + st) s
  | none => s

/-- The lane repairs of a stack: those that the flash is known to hold, else those first read from it; no training changes them (R190). -/
def laneRepairs (st n : Nat) (s : State) : Nat := (look s.flash.lanes st).getD n

/-- One stack trained (R190): its identity and repairs recorded, and SERVING or FAILED. -/
def trainStack (st : Nat) (t : TrainRes) (s : State) : State :=
  let last := match t.failed with
    | none => 5
    | some i => i.val
  let s1 := setF F.STK_TRAIN_DURATION_US st 0 t.us.toNat (setF F.STK_TRAIN_FAILED st 0 (if t.failed.isSome then 1 else 0)
    (setF F.STK_TRAIN_LAST_STEP st 0 last s))
  let n := laneRepairs st t.lanes.toNat s
  let s2 := if 2 ≤ last then
      checkStack st t.rev.toNat (setF F.STK_IDENT_REVISION st 0 t.rev.toNat (setF F.STK_IDENT_DENSITY st 0 t.density.toNat
        (setF F.STK_IDENT_HEIGHT st 0 t.height.toNat (setF F.STK_IDENT_MFR st 0 t.mfr.toNat
          (setF F.STK_TRAIN_LANES_REPAIRED st 0 n { s1 with flash := { s1.flash with lanes := lput s1.flash.lanes st n } })))))
    else s1
  if t.failed.isSome then faultRegions st 64 (setF F.STK_STATUS_STATE st 0 3 s2) else setF F.STK_STATUS_STATE st 0 1 s2

/-- STACK_TRAIN: a plot's controllers train both near stacks together (R190). -/
def stackTrain (p : Nat) (a b : TrainRes) (s : State) : State := trainStack (2 * p + 1) b (trainStack (2 * p) a s)

def execStackTrain (p : PlotId) (a b : TrainRes) (s : State) : Host.Outcome State Fault Refusal :=
  .next (stackTrain p.val a b s)

/-- STACK_RECALIBRATE: impedance is recalibrated; a stall of at most 1 µs, which is timing only (R190). -/
def execStackRecalibrate (_st : StackId) (s : State) : Host.Outcome State Fault Refusal := .next s

/-- `n` bytes of memory from key `a` given undefined values, selected by `mask`. -/
def freeBytes (a n mask : Nat) (s : State) : State :=
  match n with
  | 0 => s
  | k + 1 =>
    let s1 := freeBytes a k mask s
    if mask.testBit k then
      let (v, s2) := s1.takeFree
      { s2 with mem := sput (0 : BitVec 8) s2.mem (a + k) (v.setWidth 8) }
    else s1

/-- A write that was accepted and not acknowledged when its stack lost its clock: DIE_ABSENT, and its bytes may hold anything
(R192; DESIGN CHOICE, log entry 17). -/
def loseWrite (r : Req) (s : State) : State :=
  match homeOf r.pa s with
  | none => complete r .dieAbsent 0 s
  | some h => complete r .dieAbsent 0 (freeBytes (memKey h.stack h.addr) r.len r.mask.toNat s)

/-- The accepted writes of a stack that wait for their acknowledgement. -/
def openWrites (st : Nat) (s : State) : List Req :=
  s.net.filter fun r => decide (r.st = .queued) && r.write && decide (reqStack r s = some st)

/-- SELF_REFRESH_ENTRY (R192): on order the controller first finishes every accepted write; on a lost clock those not acknowledged
complete with DIE_ABSENT. -/
def selfRefresh (st : Nat) (ordered : Bool) (s : State) : State :=
  if getF F.STK_STATUS_STATE st 0 s ≠ 1 then s
  else
    let s1 := (openWrites st s).foldl (fun z r => if ordered then ackWrite r z else loseWrite r z) s
    setF F.STK_STATUS_STATE st 0 2 s1

def execSelfRefreshEntry (st : StackId) (ordered : Bool) (s : State) : Host.Outcome State Fault Refusal :=
  .next (selfRefresh st.val ordered s)

/-- STK_OADD (R195). -/
def viewOadd (st : Nat) (s : State) : BitVec 64 := F.STK_OADD_OCC.put 0 (s.stack st).oadd.length

end Sys2Proof.Machine
end

