-- ==== Sys2Proof/Machine/Shelvable.lean ====
section
/-!
DEFINITION. Writes to the registers that the shelf may hold (R277, R278): the rules that ignore or refuse a direct write, direct
writes held back, and writes applied at a boundary.
-/

namespace Sys2Proof.Machine

/-- A shelf entry by number. -/
def shelfOf (e : Nat) (s : State) : Shelf := sget Shelf.reset s.shelf e

/-- The register that a write entry names: its address lies in the CSR window, its package bits are ignored (R276). -/
def ShelfWrite.at (w : ShelfWrite) : Option CsrAt :=
  let l := localOf w.addr
  if l / 2 ^ 48 = 15 ∧ l % 2 ^ 48 < 2 ^ 36 then (csrReg l).filter fun a => a.reg.shelvable else none

/-- The participants of a write: plot supervisors 0 to 11, the management controller 12 (R278). -/
def ShelfWrite.parts (w : ShelfWrite) : List Nat :=
  match w.at with
  | none => []
  | some a => if a.reg = .STK_REGION then List.range 12
    else let slot := (csrSlot (localOf w.addr)).1; if slot < 12 then [slot] else [12]

/-- The value that a masked write leaves in a register's RW fields, clamped. -/
def CsrAt.newValue (a : CsrAt) (v mask : BitVec 64) (s : State) : BitVec 64 :=
  let old := readReg a.reg a.unit a.idx s
  if a.reg = .STK_REGION then clampRegion ((v &&& mask) ||| (old &&& ~~~mask)) old else swWriteAll a.reg.flds v mask old

/-! ## Bed groups (R27, R30) -/

/-- Whether a bed group is busy (R30). -/
def bgBusy (g : Nat) (s : State) : Bool :=
  match bgOwner g s with
  | none => false
  | some p =>
    let k := s.part p
    decide (k.hold ≠ .none) || (match k.launch with
      | some l => l.beds.any fun e => decide (bgOf e.2 = g)
      | none => false)

/-- The scratchpad contents of a bed group lost with its supply (R27, R123). -/
def dropSpad (g : Nat) (s : State) : State :=
  let lo := 1600 * g
  let out (w k : Nat) : Bool := decide (k < lo * w) || decide ((lo + 1600) * w ≤ k)
  { s with spad := s.spad.filter (fun e => out 32768 e.1), spadErr := s.spadErr.filter fun e => out 2048 e.1 }

/-- The power of a bed group follows its owner: OFF without one, ON with one. -/
def ownerPower (g : Nat) (s : State) : State :=
  match bgOwner g s with
  | none => (dropSpad g s).putBgPower g 3
  | some _ => if s.bgPower g = 3 then s.putBgPower g 0 else s

/-! ## Rules that ignore a direct write -/

/-- Whether a partition runs a launch. -/
def partRuns (p : Nat) (s : State) : Bool := (s.part p).launch.isSome

/-- The bits of a mask of partitions that a write would change while its partition runs a launch (HAL_LOCK_PARTS). -/
def runningBits (old new : BitVec 64) (s : State) : BitVec 64 :=
  (List.range 32).foldl (fun z p =>
    if (old ^^^ new).getLsbD p && partRuns p s then z ||| BitVec.ofNat 64 (2 ^ p) else z) 0

/-- Whether the rules would ignore a write, or part of it (R29, R349, R382, the table of HAL_LOCK_PARTS). -/
def CsrAt.ignored (a : CsrAt) (v mask : BitVec 64) (s : State) : Bool :=
  let old := readReg a.reg a.unit a.idx s
  let new := a.newValue v mask s
  match a.reg with
  | .MGT_BG_OWNER => bgBusy a.idx s
  | .PWR_PART =>
    let was := F.PWR_PART_STEADY.of old
    let is := F.PWR_PART_STEADY.of new
    decide (was ≠ is) && (partRuns a.idx s ||
      (decide (is = 0) && bitF F.HAL_GROVE_STATUS_LOCKED 0 0 s && (getF F.HAL_LOCK_PARTS_PARTS 0 0 s).testBit a.idx))
  | .MGT_QSAVE => partRuns a.idx s || decide ((s.part a.idx).hold ≠ .none)
  | .HAL_LOCK_PARTS => decide (runningBits old new s ≠ 0)
  | _ => false

/-- A register write performed. -/
def CsrAt.put (a : CsrAt) (v mask : BitVec 64) (s : State) : State :=
  let s1 := writeReg a.reg a.unit a.idx (a.newValue v mask s) s
  if a.reg = .MGT_BG_OWNER then ownerPower a.idx s1 else s1

/-- A direct write to a shelvable register. -/
def directNow (a : CsrAt) (v mask : BitVec 64) (s : State) : State :=
  let old := readReg a.reg a.unit a.idx s
  match a.reg with
  | .STK_REGION => regionWrite a.idx ((v &&& mask) ||| (old &&& ~~~mask)) s
  | .HAL_LOCK_PARTS => a.put v (mask &&& ~~~runningBits old (a.newValue v mask s) s) s
  | .MGT_BG_OWNER =>
    if bgBusy a.idx s then setF F.MGT_PART_ERR_LAST_BG 0 0 a.idx (flagF F.MGT_PART_ERR_BUSY_WRITE 0 0 s) else a.put v mask s
  | _ => if a.ignored v mask s then s else a.put v mask s

/-! ## Writes held back (R278) -/

/-- Whether a participant that has reported holds back direct writes to a register. -/
def CsrAt.isHeld (a : CsrAt) (s : State) : Bool :=
  s.shelf.any fun e => e.2.commit.isSome && e.2.writes.any fun w =>
    decide (w.at = some a) && w.parts.any fun q => e.2.reports.any fun r => decide (r.1 = q)

/-- Whether the start of a launch onto a bed group is held back. -/
def groupHeld (g : Nat) (s : State) : Bool := CsrAt.isHeld ⟨.MGT_BG_OWNER, 0, g⟩ s

/-- A direct write, held back where a shelf entry asks for it. -/
def directWrite (a : CsrAt) (v mask : BitVec 64) (s : State) : State :=
  if a.isHeld s then { s with heldWrites := s.heldWrites ++ [⟨a.reg, a.unit, a.idx, v, mask⟩] } else directNow a v mask s

/-- The writes that nothing holds back any more are performed in order. -/
def releaseWrites (s : State) : State :=
  s.heldWrites.foldl (fun z h => directWrite ⟨h.reg, h.unit, h.idx⟩ h.value h.mask z) { s with heldWrites := [] }

def execStkRegionWrite (i : Fin 64) (v : BitVec 64) (s : State) : Host.Outcome State Fault Refusal :=
  .next (directWrite ⟨.STK_REGION, 0, i.val⟩ v (BitVec.allOnes 64) s)

/-- BG_OWNER_WRITE (R29). -/
def execBgOwnerWrite (g : BgId) (v : BitVec 32) (s : State) : Host.Outcome State Fault Refusal :=
  .next (directWrite ⟨.MGT_BG_OWNER, 0, g.val⟩ (v.setWidth 64) (BitVec.allOnes 64) s)

end Sys2Proof.Machine
end

