-- ==== Sys2Proof/Machine/Launch.lean ====
section
/-!
DEFINITION. Launches (R103 to R106, R265 to R268): descriptors as the front end holds them, reading an image, placing logical beds,
starting, stopping and draining.
-/

namespace Sys2Proof.Machine

/-! ## Descriptors (R254, R262) -/

/-- A field of a descriptor. -/
def Desc.get (d : Desc) (off n : Nat) : Nat := cut d.bytes.toNat off n

/-- The kind of a descriptor; 0 where it could not be read (R262, R264). -/
def Desc.kind (d : Desc) : Nat := if d.unread.isSome then 0 else d.get 0 1 % 16

/-- The SCOPE of a descriptor (R160). -/
def Desc.scope (d : Desc) : Nat := min 4 (d.get 3 1 % 8)

/-- The descriptor with index `i` of ring `n`, if it is in flight. -/
def getDesc (n i : Nat) (s : State) : Option Desc := (s.ring n).descs.find? fun d => decide (d.idx = i)

/-- A descriptor replaced. -/
def putDesc (n : Nat) (d : Desc) (s : State) : State :=
  let r := s.ring n
  s.putRing n { r with descs := r.descs.map fun x => if x.idx = d.idx then d else x }

/-- Whether a ring is a host ring (R254). -/
def ringHost (n : Nat) (s : State) : Bool := bitF F.CMD_RING_CFG_HOST 0 n s

/-- The standing of a ring (R258). -/
def ringWho (n : Nat) (s : State) : Who := if ringHost n s then hostWho else partWho (getF F.CMD_RING_CFG_PART 0 n s)

/-- The partition that a descriptor acts for (R254). -/
def descPart (n : Nat) (d : Desc) (s : State) : Nat :=
  if ringHost n s then d.get 2 1 % 32 else getF F.CMD_RING_CFG_PART 0 n s

/-- A descriptor done with its status and the fields of its record. -/
def finishDesc (n i : Nat) (st : Status) (detail info : Nat) (s : State) : State :=
  match getDesc n i s with
  | some d => putDesc n { d with st := .done st, detail := detail, info := info, doneAt := s.cyc } s
  | none => s

/-- Whether a descriptor's outcome is fixed. -/
def Desc.fixed (d : Desc) : Bool :=
  match d.st with
  | .done _ => true
  | .committed _ => true
  | _ => false

/-! ## Accesses of the front end (R258) -/

/-- The tag of a descriptor's own accesses. -/
def descTag (d : Desc) : Nat := 2 ^ 31 + d.xid % 2 ^ 31

/-- The accesses of a descriptor left (R250). -/
def descDone (d : Desc) (s : State) : State :=
  let mine (x : Src) : Bool := match x with
    | .cmd _ => true
    | .bsq _ => true
    | _ => false
  disown (fun r => mine r.src && decide (r.step = BitVec.ofNat 32 (descTag d))) (leaveXlt (fun _ i => decide (i = d.xid)) s)

/-- How a ring reaches the virtual addresses of a descriptor: as the front end, in the context of its partition, each ring a source of its
own. -/
def descVia (n : Nat) (d : Desc) (s : State) : Via :=
  ⟨.cmd, descPart n d s, .cmd n, descTag d, ringWho n s, d.xid, BitVec.allOnes 32, none⟩

/-- How the management controller reaches a log of partition `p` (R226), under a tag. -/
def logVia (p tag : Nat) : Via := ⟨.cmd, p, .mgt, tag, hostWho, 2 ^ 42 + 2 ^ 16 * tag + p, BitVec.allOnes 32, none⟩

/-- A write to the fallback log of a partition asked for: the log's writes are made in order, each once. -/
def askLog (p va n v : Nat) (s : State) : State := { s with logq := s.logq ++ [⟨p, va, n, v⟩] }

/-- The oldest write to the fallback log of a partition goes on: it waits for its translation and its answer, and one that fails is lost
(DESIGN CHOICE, log entry 100). -/
def logStep (p : Nat) (s : State) : State :=
  match s.logq.find? fun w => decide (w.part = p) with
  | none => s
  | some w =>
    let v := logVia p (0x1000 + p)
    let r := v.putRange w.va w.n w.value s
    if r.1 = .wait then r.2 else v.done { r.2 with logq := r.2.logq.erase w }

/-- The writes to the fallback logs go on, one of each partition. -/
def logTick (s : State) : State := if s.logq.isEmpty then s else ((s.logq.map (·.part)).eraseDups).foldl (fun z p => logStep p z) s

/-- How a bed sequencer reaches virtual addresses for a descriptor: with the standing of its partition. -/
def bedVia (b p : Nat) (d : Desc) : Via :=
  ⟨.bsq (Fin.ofNat 4800 b), p, .bsq b, descTag d, partWho p, d.xid, BitVec.allOnes 32, none⟩

/-! ## Beds of a partition (R18, R26) -/

/-- The bed groups of a partition. -/
def partGroups (p : Nat) (s : State) : List Nat := (List.range 192).filter fun g => decide (bgOwner g s = some p)

/-- The beds of a partition on PRESENT plots, lowest first. -/
def partBeds (p : Nat) (s : State) : List Nat :=
  ((partGroups p s).filter fun g => slotPresent (g / 16) s).flatMap bedsOf

/-- How the image of a descriptor is read (R231): by the sequencer of the partition's lowest bed; by the front end for a partition without
one (DESIGN CHOICE, log entry 26). -/
def imageVia (n : Nat) (d : Desc) (s : State) : Via :=
  match (partBeds (descPart n d s) s).head? with
  | some b => bedVia b (descPart n d s) d
  | none => descVia n d s

/-- The launch of a partition replaced. -/
def putLaunch (p : Nat) (l : Launch) (s : State) : State := s.putPart p { s.part p with launch := some l }

/-- Whether a partition is free for a launch (R266): it runs none and is not dormant. A hold after a rollback is discarded by one
(R374). -/
def partFree (p : Nat) (s : State) : Bool :=
  (s.part p).launch.isNone && (decide ((s.part p).hold = .none) || decide ((s.part p).hold = .rolledBack))

/-! ## Reading an image (R104 to R106) -/

/-- The fields of a schedule image's header. -/
structure ImgHdr where
  magic : Nat
  format : Nat
  features : Nat
  beds : Nat
  espalier : Bool
  needs : Nat
  phases : Nat
  steps : Nat
  streams : Nat
  bedTable : Nat
  streamTable : Nat
  barrowTable : Nat
  syncTable : Nat
  phaseTable : Nat
  digest : Nat
  deriving DecidableEq, Repr

/-- A header of 256 bytes, after its clamps. The low 6 bits of a table offset are dropped, PHASES above 256 acts as 256, and STREAMS of 0
as 1 (DESIGN CHOICE, log entry 26). -/
def ImgHdr.read (v : Nat) : ImgHdr :=
  { magic := cut v 0 4, format := cut v 4 2, features := cut v 8 8, beds := max 1 (min 4800 (cut v 0x10 4))
    espalier := decide (cut v 0x14 1 = 1), needs := cut v 0x15 1 % 4, phases := min 256 (cut v 0x16 2), steps := cut v 0x18 4
    streams := max 1 (min 65535 (cut v 0x1C 4)), bedTable := cut v 0x20 8 / 64 * 64, streamTable := cut v 0x28 8 / 64 * 64
    barrowTable := cut v 0x30 8 / 64 * 64, syncTable := cut v 0x38 8 / 64 * 64, phaseTable := cut v 0x40 8 / 64 * 64
    digest := cut v 0x50 64 }

/-- The features against which an image is checked: those of the package, or for a grove launch those of every member
(R106, R310, R327). -/
def featuresFor (grove : Bool) (s : State) : BitVec 64 :=
  let own := BitVec.ofNat 64 (getF F.D2D_PKG_FEATURES_BITMAP 0 0 s)
  if grove then
    (s.grove.cards.filter fun c => isMember c.card.pkg.toNat s).foldl (fun z c => z &&& c.card.features) own
  else own

/-- Whether partition `p` is in locked mode (R312). -/
def partLocked (p : Nat) (s : State) : Bool :=
  bitF F.HAL_GROVE_STATUS_LOCKED 0 0 s && (getF F.HAL_LOCK_PARTS_PARTS 0 0 s).testBit p

/-- The header checks of R106 after its reading, in order. -/
def headerBad (h : ImgHdr) (p : Nat) (grove : Bool) (s : State) : Bool :=
  decide (h.magic ≠ 0x49534C43) || decide (h.format ≠ 1) ||
  decide (BitVec.ofNat 64 h.features &&& ~~~featuresFor grove s ≠ 0) || decide ((partBeds p s).length < h.beds) ||
  (h.needs.testBit 0 && !partLocked p s) || (h.needs.testBit 1 && !bitF F.PWR_PART_STEADY 0 p s)

/-- The tables of an image as read. -/
structure ImgTabs where
  beds : Nat
  streams : Nat
  syncs : Nat
  phases : Nat
  deriving DecidableEq, Repr

/-- The header of the image at `va` read. -/
def readImgHeader (v : Via) (va : Nat) (s : State) : Got × State := v.getRange (va / 4096 * 4096) 256 s

/-- The tables of an image read: every one is asked for, and their failures combine (R12). -/
def readTables (v : Via) (va : Nat) (h : ImgHdr) (s : State) : Got × ImgTabs × State :=
  let base := va / 4096 * 4096
  let r1 := v.getRange (base + h.bedTable) (128 * h.beds) s
  let r2 := v.getRange (base + h.streamTable) (16 * h.streams) r1.2
  let r3 := v.getRange (base + h.syncTable) (16 * h.steps) r2.2
  let r4 := v.getRange (base + h.phaseTable) (4 * h.phases) r3.2
  match r1.1, r2.1, r3.1, r4.1 with
  | .ok a, .ok b, .ok c, .ok d => (.ok 0, ⟨a, b, c, d⟩, r4.2)
  | a, b, c, d => (((a.add 0 b).add 0 c).add 0 d, ⟨0, 0, 0, 0⟩, r4.2)

/-- The entries of a sync table (R105): BUDGET, SLACK and QUIESCE. -/
def syncEntries (v n : Nat) : List (Nat × Nat × Bool) :=
  (List.range n).map fun i => (cut v (16 * i) 4, cut v (16 * i + 4) 4, (cut v (16 * i + 8) 1).testBit 0)

/-- The entries of a phase table: phase and preferred point. -/
def phaseEntries (v n : Nat) : List (Nat × Nat) :=
  (List.range n).map fun i => (cut v (4 * i) 1, min 7 (cut v (4 * i + 1) 1))

/-- The sync table entry of a step: steps beyond the table use its last entry; an empty table gives no budget, slack or quiesce
point. -/
def Launch.sync (l : Launch) (step : Nat) : Nat × Nat × Bool := (l.syncs[step]?).getD (l.syncs.getLast?.getD (0, 0, false))

/-! ## Placement and start (R103, R135) -/

/-- A core at the first bundle of a launch. -/
def Core.start (old : Core) (lbed part stream va len : Nat) : Core :=
  { Core.reset with
    active := true, lbed := lbed, part := part, stream := stream, streamVA := va, streamLen := len, finished := decide (len = 0),
    outside := old.outside, lastOut := old.lastOut, granted := old.granted, late := old.late }

/-- The stream that a bed table names for core `i` of logical bed `lbed`: index, address and length (0 where the core finishes at
once). -/
def streamOf (t : ImgTabs) (h : ImgHdr) (lbed i : Nat) : Nat × Nat × Nat :=
  let n := cut t.beds (128 * lbed + 2 * i) 2
  if h.streams ≤ n ∨ n = 0xFFFF then (n, 0, 0) else (n, cut t.streams (16 * n) 8 / 32 * 32, cut t.streams (16 * n + 8) 4)

/-- The values of the region registers of a bed, kept at the start of a launch (R367). -/
def keptRegions (b : Nat) (s : State) : List (Nat × BitVec 64) :=
  (coresOf b).flatMap fun c => (List.range 40).map fun i => (40 * (c % 64) + i, readReg .SPAD_REGION c i s)

/-- Logical bed `lbed` placed on bed `b`: its cores as R103 leaves them, its caches empty, no fill from before installed (R135), its region
registers kept. -/
def startBed (b lbed part : Nat) (espalier : Bool) (strm : Nat → Nat × Nat × Nat) (s : State) : State :=
  let s1 := (coresOf b).foldl (fun z c =>
    let x := strm (c % 64)
    z.putCore c ((z.core c).start lbed part x.1 x.2.1 x.2.2)) s
  let k := s1.bed b
  let all := (coresOf b).all fun c => (s1.core c).finished
  s1.putBed b { k with
    cyc := 0, running := true, go := false, lbed := lbed, part := part, espalier := espalier, reported := all, stopping := false,
    phase := 0, cache := [], side := [], victim := [], fills := k.fills.map fun f => { f with install := false },
    kept := keptRegions b s, saving := false, saved := false }

/-- A core that may issue: of a resumed launch it leaves the SYNC at which its point was saved, and counts to its step (R96, R373). -/
def coreGo (step c : Nat) (s : State) : State :=
  let s1 := s.putCore c { s.core c with step := BitVec.ofNat 32 step }
  if (s1.core c).atSync (fun _ => true) then passSync c s1 else s1

/-- The bundles of a launch may issue. -/
def launchGo (p : Nat) (s : State) : State :=
  match launchOf p s with
  | none => s
  | some l =>
    let s1 := putLaunch p { l with started := true, stepTick := s.tick } s
    let one (z : State) (b : Nat) : State := (coresOf b).foldl (fun y c => coreGo l.step c y) (z.putBed b { z.bed b with go := true })
    reportIfDone p (l.bedList.foldl one s1)

/-! ## Stopping and draining (R268) -/

/-- A core stopped: it issues no bundle, and its wait ends. -/
def stopCore (c : Nat) (s : State) : State := s.putCore c { s.core c with stopped := true, wait := .none, passed := false }

/-- A program of a launch told to stop: it issues no further request, and its storage requests are abandoned. -/
def Prog.halt (q : Prog) : Prog := { q.mute with stop := true }

/-- The programs of a launch among those of a bed. -/
def Prog.ofLaunch (p : Nat) (q : Prog) : Bool := decide (q.part.val = p) && q.desc.isNone

/-- Whether a program asks for translations under a number, itself or for a move. -/
def Prog.asks (q : Prog) (id : Nat) : Bool := decide (q.id = id) || q.moves.any fun m => decide (m.xid = id)

/-- Whether a requester of translations is one of a launch's at bed `b`: the bed sequencer, or a program with its moves. -/
def launchAsks (p b : Nat) (s : State) (who : Asker) (id : Nat) : Bool :=
  let k := s.bed b
  decide (who = .bsq (Fin.ofNat 4800 b)) ||
  (decide (who = brwAsker b) && (k.armed ++ k.progs).any fun q => q.ofLaunch p && q.asks id)

/-- The order to stop reaches a bed: its programs issue nothing more, and its merging buffer drains; its cores stop at the next tick
boundary (R268). -/
def stopBed (p b : Nat) (s : State) : State :=
  let k := s.bed b
  drainMerge b (fun _ => true) (leaveXlt (launchAsks p b s) (s.putBed b { k with
    stopping := true, armed := k.armed.filter (fun q => !q.ofLaunch p), progs := k.progs.map fun q => if q.ofLaunch p then q.halt else q }))

/-- A tick boundary stops the cores of the beds that have the order to stop (R268). -/
def stopTick (s : State) : State :=
  ((s.beds.filter fun e => e.2.stopping).map (·.1)).foldl (fun z b => (coresOf b).foldl (fun z c => stopCore c z) z) s

/-- LAUNCH_STOP: the report that stops the launch goes to the arbiter, and the order to every bed. -/
def launchStop (p : Nat) (s : State) : State :=
  match launchOf p s with
  | none => s
  | some l =>
    if !l.stop || l.stopSent then s
    else
      let s1 := putLaunch p { l with stopSent := true } s
      let s2 := l.bedList.foldl (fun z b => stopBed p b z) s1
      sendReport l.ring l.idx (Status.joinAll .completed l.statuses) l.detail l.step s2

def execLaunchStop (p : PartId) (s : State) : Host.Outcome State Fault Refusal := .next (launchStop p.val s)

/-- Whether a bed of a launch has drained: what its cores issued has completed, every entry of its merging buffer has drained, and
its programs are over, or their requests answered where they were stopped. The cores of a PAUSED bed are not waited for (R355), nor is a
bed on a plot that is not present. -/
def bedDrained (p b : Nat) (s : State) : Bool :=
  let k := s.bed b
  !slotPresent (plotOf b) s ||
  ((decide (s.bgPower (bgOf b) = 1) || (coresOf b).all (fun c => coreQuiet c s && (!k.stopping || (s.core c).stopped))) && k.merge.isEmpty && k.mergeWait.isEmpty &&
   !(k.armed.any (Prog.ofLaunch p)) && (k.progs.filter (Prog.ofLaunch p)).all fun q => q.stop && q.quiet s)

/-- A bed idle again: what is still to be answered of its programs has no taker. -/
def idleBed (p b : Nat) (s0 : State) : State :=
  let s2 := ((s0.bed b).progs.filter (Prog.ofLaunch p)).foldl (fun z q => dropFlies q z) (leaveXlt (launchAsks p b s0) s0)
  let s := disown (fun r => decide (r.src = .bsq b)) s2
  let s1 := (coresOf b).foldl (fun z c => z.putCore c { z.core c with active := false }) s
  let k := s1.bed b
  s1.putBed b { k with
    running := false, go := false, stopping := false, saving := false,
    armed := k.armed.filter (fun q => !q.ofLaunch p), progs := k.progs.filter fun q => !q.ofLaunch p }

/-- The descriptors that wait for the next quiesce point of a partition complete with nothing changed (R271). -/
def releaseWaiters (p : Nat) (s : State) : State :=
  let l := (s.part p).waiting
  l.foldl (fun z r => finishDesc r.ring r.idx .completed 0xFFFF 0 z) (s.putPart p { s.part p with waiting := [] })

/-- A shelf entry replaced. -/
def putShelf (e : Nat) (x : Shelf) (s : State) : State := { s with shelf := sput Shelf.reset s.shelf e x }

/-- A shelf entry becomes FREE, and what it held back goes on. -/
def freeShelf (e : Nat) (s : State) : State :=
  releaseWrites (putShelf e Shelf.reset (setF F.CMD_SHELF_STATE 0 e 0 (setF F.CMD_SHELF_COUNT 0 e 0 s)))

/-- A shelf entry becomes FREE, its CONFIG_COMMIT abandoned with a cause (R280). -/
def abandonShelf (e cause info : Nat) (s : State) : State :=
  match (shelfOf e s).commit with
  | none => s
  | some (n, i, _, _) =>
    let s1 := freeShelf e (setF F.CMD_SHELF_LAST_CAUSE 0 e cause s)
    sendReport n i .cfgAbandoned cause info (incF F.CMD_CFG_ABANDONED_COUNT 0 0 1 s1)

/-- The participants of an entry. -/
def Shelf.parts (x : Shelf) : List Nat := (List.range 13).filter fun q => x.writes.any fun w => w.parts.contains q

/-- Whether a participant can answer: a plot PRESENT, or the management controller while it does not restart (R400). -/
def partPresent (q : Nat) (s : State) : Bool :=
  if q = 12 then !bitF F.MGT_ERR_STATUS_RESTARTING 0 0 s else slotPresent q s

/-- What stands against an entry as the first rows of R280 have it: a participant that is fenced or absent, or a write that one has
refused, with its list index; a cause and INFO. -/
def Shelf.against (x : Shelf) (s : State) : Option (Nat × Nat) :=
  let bad := x.reports.filterMap fun r => r.2.1
  if x.parts.any fun q => !partPresent q s then some (1, 0)
  else if !bad.isEmpty then some (2, bad.foldl min (bad.headD 0))
  else none

/-- The entries whose commits aim at a step of a partition's launch are abandoned when it ends (R280): cause 4, unless an earlier row
holds. -/
def abandonFor (p : Nat) (s : State) : State :=
  (List.range 16).foldl (fun z e =>
    match (shelfOf e z).commit with
    | some (_, _, q, t) =>
      if q = p ∧ t ≠ 0xFFFFFFFF then
        let c := ((shelfOf e z).against z).getD (4, 0)
        abandonShelf e c.1 c.2 z
      else z
    | none => z) s

/-- A WAKE that waits for a release completes (R271), INFO the step resumed at. -/
def wokenDone (p step : Nat) (s : State) : State :=
  match (s.part p).woken with
  | some r => finishDesc r.ring r.idx .completed 0xFFFF step (s.putPart p { s.part p with woken := none })
  | none => s

/-- The end of a launch: its beds are idle, its partition is free, and its descriptor's record can be written. -/
def endLaunch (p : Nat) (l : Launch) (st : Status) (s : State) : State :=
  let s1 := l.bedList.foldl (fun z b => idleBed p b z) s
  let k := s1.part p
  let s2 := wokenDone p l.step (s1.putPart p { k with launch := none, saving := none })
  let d := (getDesc l.ring l.idx s2).map (·.detail)
  finishDesc l.ring l.idx st (d.getD l.detail) l.step (abandonFor p s2)

/-- The status to which a launch's descriptor is committed. -/
def committedTo (l : Launch) (s : State) : Option Status :=
  match getDesc l.ring l.idx s with
  | some d => (match d.st with
    | .committed st => some st
    | _ => none)
  | none => none

/-- LAUNCH_DRAINED: the launch's outcome is fixed and its last bed has drained; held adds are applied, and the launch ends, or its
partition rolls back (R268, R374); none rolls back before an orderly reset (R399). -/
def launchDrained (p : Nat) (s : State) : State :=
  match launchOf p s with
  | none => s
  | some l =>
    match committedTo l s with
    | none => s
    | some st =>
      let s1 := l.bedList.foldl (fun z b => drainMerge b (fun _ => true) z) s
      if (decide ((s1.part p).hold = .rolling)) || !l.bedList.all (fun b => bedDrained p b s1) then s1
      else
        let s2 := if l.diverged then dropAdds p s1 else if l.locked then applyAdds p l.step s1 else s1
        if l.rollback && s2.mgt.resetTo.isNone then s2.putPart p { s2.part p with hold := .rolling, saving := none }
        else releaseWaiters p (endLaunch p l st s2)

def execLaunchDrained (p : PartId) (s : State) : Host.Outcome State Fault Refusal := .next (launchDrained p.val s)

end Sys2Proof.Machine
end

