-- ==== Sys2Proof/Machine/Shake.lean ====
section
/-!
DEFINITION. SHAKE256 (R104, R304, R378, R413) as FIPS 202 defines it: a message, and the permuted state of 1,600 bits, are
numbers of little-endian bytes. The constants of the permutation are computed from their recurrences, not listed.
-/

namespace Sys2Proof.Machine

/-- The lane at column `x` and row `y` of a permuted state, both taken modulo 5. -/
def sheetLane (st : BitVec 1600) (x y : Nat) : BitVec 64 := st.extractLsb' (64 * (5 * (y % 5) + x % 5)) 64

/-- The state whose lane at column x and row y is `f x y`. -/
def ofLanes (f : Nat → Nat → BitVec 64) : BitVec 1600 :=
  (List.range 25).foldr (fun i z => z <<< 64 ||| (f (i % 5) (i / 5)).setWidth 1600) 0

/-- `n` steps of the shift register that gives the bits of the round constants. -/
def lfsr : Nat → Nat
  | 0 => 1
  | n + 1 => let d := 2 * lfsr n; if d < 256 then d else d ^^^ 0x171

/-- The constant of round `r`: register bit j + 7 r stands at place 2^j − 1. -/
def roundConst (r : Nat) : Nat :=
  (List.range 7).foldl (fun z j => z + lfsr ((j + 7 * r) % 255) % 2 * 2 ^ (2 ^ j - 1)) 0

/-- How far the lane at (x, y) turns: the walk (x, y) ↦ (y, 2 x + 3 y) from (1, 0) meets every lane but (0, 0), the t-th after
turning (t + 1)(t + 2) / 2. -/
def laneTurn (x y : Nat) : Nat :=
  ((List.range 24).foldl (fun (w : Nat × Nat × Nat) t =>
    (w.2.1, (2 * w.1 + 3 * w.2.1) % 5, if w.1 = x ∧ w.2.1 = y then (t + 1) * (t + 2) / 2 % 64 else w.2.2)) (1, 0, 0)).2.2

/-- The parity of a column. -/
def columnParity (st : BitVec 1600) (x : Nat) : BitVec 64 :=
  (List.range 5).foldl (fun z y => z ^^^ sheetLane st x y) 0

/-- Column parities spread to the neighbours. -/
def mixColumns (st : BitVec 1600) : BitVec 1600 :=
  let par := (List.range 5).map (columnParity st)
  ofLanes fun x y => sheetLane st x y ^^^ par.getD ((x + 4) % 5) 0 ^^^ (par.getD ((x + 1) % 5) 0).rotateLeft 1

/-- Lanes turned and moved: the lane of (x, y) goes to (y, 2 x + 3 y). -/
def moveLanes (st : BitVec 1600) : BitVec 1600 :=
  ofLanes fun x y => let u := (x + 3 * y) % 5; (sheetLane st u x).rotateLeft (laneTurn u x)

/-- The step that is not linear. -/
def bendRows (st : BitVec 1600) : BitVec 1600 :=
  ofLanes fun x y => sheetLane st x y ^^^ (~~~sheetLane st (x + 1) y &&& sheetLane st (x + 2) y)

/-- The permutation of 24 rounds. -/
def permute (st : BitVec 1600) : BitVec 1600 :=
  (List.range 24).foldl (fun z r => bendRows (moveLanes (mixColumns z)) ^^^ BitVec.ofNat 1600 (roundConst r)) st

/-- The padded message of `n` bytes: the suffix of SHAKE after the last byte, and the last bit of its block of 136 bytes. -/
def shakePad (m n : Nat) : Nat :=
  m % 256 ^ n + 0x1F * 256 ^ n + 128 * 256 ^ (136 * (n / 136) + 135)

/-- SHAKE256 of the `n` bytes of `m`, with 512 bits of output. -/
def shake256 (m n : Nat) : BitVec 512 :=
  ((List.range (n / 136 + 1)).foldl
    (fun z i => permute (z ^^^ BitVec.ofNat 1600 (shakePad m n / 256 ^ (136 * i) % 256 ^ 136))) 0).setWidth 512

end Sys2Proof.Machine
end

