-- ==== Sys2Proof/Machine/Record.lean ====
section
/-!
DEFINITION. The bed record of a quiesce point (R369, R373): written from the live state of a bed, and restored into one. Records are
numbers of little-endian bytes.
-/

namespace Sys2Proof.Machine

/-- The bytes of a bed record. -/
def recordLen : Nat := 0x281000

/-- A number of bytes put at an offset. -/
def at0 (off v : Nat) : Nat := v * 256 ^ off

/-- Values of `w` bytes one after another. -/
def packAll (w : Nat) (l : List Nat) : Nat := l.foldr (fun v z => v % 256 ^ w + z * 256 ^ w) 0

/-- The next bundle index of a record: a core that has finished holds the bundle count of its stream (DEDUCED, log entry 22). -/
def Core.nextIdx (k : Core) : Nat := if k.finished || k.halted then k.streamLen else k.pc.toNat

/-- An open loop of a record; loop 0 is the outer one. -/
def Loop.bytes (l : Loop) : Nat := l.first % 2 ^ 32 + l.len % 2 ^ 16 * 2 ^ 32 + l.left % 2 ^ 16 * 2 ^ 48

/-- An accumulator bank of a record. -/
def Cell.bytes (x : Cell) (anchor : Int) : Nat :=
  let f (b : Bool) (n : Nat) : Nat := if b then 2 ^ n else 0
  x.val.toNat + at0 19 (f x.nan 0 + f x.pinf 1 + f x.ninf 2 + f x.ovf 3 + f x.psat 4) + at0 20 (anchor % 65536).toNat

/-- The state block of a core. Its step counter is written as it stands before the SYNC of the point releases (DEDUCED, log entry 47). -/
def coreBlock (c : Nat) (s : State) : Nat :=
  let k := s.core c
  let cells := (List.range 64).flatMap fun ij =>
    [(sget Cell.zero k.grid.banks (cellKey ij 0)).bytes k.grid.anchor0, (sget Cell.zero k.grid.banks (cellKey ij 1)).bytes k.grid.anchor1]
  let loops := k.loops.reverse
  packAll 8 ((List.range 32).map fun r => (k.rx (BitVec.ofNat 5 r)).toNat) +
  at0 0x100 (packAll 8 ((List.range 8).map fun m => (k.rm (BitVec.ofNat 3 m)).toNat)) +
  at0 0x140 (packAll 1 ((List.range 32).map fun f => k.flag (BitVec.ofNat 5 f))) +
  at0 0x160 k.nextIdx + at0 0x164 k.step.toNat + at0 0x168 k.phase.toNat + at0 0x169 loops.length + at0 0x16A k.grid.bank +
  at0 0x170 (packAll 8 (loops.map Loop.bytes)) +
  at0 0x180 (packAll 8 ((List.range 4).map fun i => (readReg .GRID_TCFG c i s).toNat)) +
  at0 0x1A0 (packAll 4 ((List.range 40).map fun i => (readReg .SPAD_REGION c i s).toNat)) +
  at0 0x400 (packAll 64 ((List.range 32).map fun r => (k.rv (BitVec.ofNat 5 r)).toNat)) +
  at0 0xC00 (packAll 32 cells)

/-- The scratchpad of a core read for a record through the bed's own port, without region checks (R371): whether every granule could
be read, and its bytes. -/
def spadImage (c : Nat) (s : State) : Bool × Nat × State :=
  (List.range 2048).foldl (fun z g =>
    match spadRead c g z.2.2 with
    | (some v, s1) => (z.1, z.2.1 + at0 (16 * g) v.toNat, s1)
    | (none, s1) => (false, z.2.1, spadConsume c g (s1.core c).part s1)) (true, 0, s)

/-- The header of a bed record. -/
def recordHeader (espalier : Bool) (lbed step fb : Nat) : Nat :=
  0x52445142 + at0 4 1 + at0 6 (b2n espalier) + at0 8 lbed + at0 0xC step + at0 0x10 fb

/-- The scratchpads of a list of cores, each at its place in a bed record; false where one has an uncorrectable granule. -/
def spadImages (cs : List Nat) (s : State) : Bool × Nat × State :=
  cs.foldl (fun z c =>
    let r := spadImage c z.2.2
    (z.1 && r.1, z.2.1 + at0 (0x81000 + 0x8000 * (c % 64)) r.2.1, r.2.2)) ((true, 0, s) : Bool × Nat × State)

/-- The record of bed `b` at the point of step `step`: whether every granule could be read, its bytes, and the state after. -/
def bedRecord (b step fb : Nat) (s : State) : Bool × Nat × State :=
  let k := s.bed b
  let blocks := (coresOf b).foldl (fun z c => z + at0 (0x1000 + 0x2000 * (c % 64)) (coreBlock c s)) 0
  let pads := spadImages (coresOf b) s
  (pads.1, recordHeader k.espalier k.lbed step fb + blocks + pads.2.1, pads.2.2)

/-! ## Restoring -/

/-- An accumulator bank of a record. -/
def Cell.ofBytes (v : Nat) : Cell :=
  let f := cut v 19 1
  ⟨BitVec.ofNat 152 v, f.testBit 0, f.testBit 1, f.testBit 2, f.testBit 3, f.testBit 4⟩

/-- A signed 16-bit anchor. -/
def anchorOfBytes (v : Nat) : Int := (BitVec.ofNat 16 v).toInt

/-- The loops of a record, the innermost first. -/
def loopsOf (v n : Nat) : List Loop :=
  ((List.range (min 2 n)).map fun d =>
    (⟨cut v (0x170 + 8 * d) 4, cut v (0x174 + 8 * d) 2, cut v (0x176 + 8 * d) 2⟩ : Loop)).reverse

/-- The grid of a core from its state block. A block whose banks, anchors and last bank are all zero is that of a core that had issued
no order: its next order is still the launch's first (R50; DEDUCED, log entry 22). -/
def gridOfBlock (v : Nat) : Grid :=
  let cell (ij b : Nat) : Cell := Cell.ofBytes (cut v (0xC00 + 64 * ij + 32 * b) 32)
  let banks := (List.range 128).foldl (fun l i => sput Cell.zero l (cellKey (i / 2) (i % 2)) (cell (i / 2) (i % 2))) []
  let a0 := anchorOfBytes (cut v 0xC14 2)
  let a1 := anchorOfBytes (cut v 0xC34 2)
  let bank := cut v 0x16A 1 % 2
  { Grid.reset with
    bank := bank, first := banks.isEmpty && decide (a0 = 0) && decide (a1 = 0) && decide (bank = 0), banks := banks, anchor0 := a0,
    anchor1 := a1 }

/-- The architectural state of a core taken from its state block (R369). A core of a point after the start waits at the SYNC that
ended its step, unless its stream is over. -/
def Core.restore (k : Core) (v step : Nat) : Core :=
  let pc := cut v 0x160 4
  let past := decide (k.streamLen ≤ pc)
  { k with
    x := (Vector.range 32).map (fun r => BitVec.ofNat 64 (cut v (8 * r) 8)),
    v := (Vector.range 32).map (fun r => BitVec.ofNat 512 (cut v (0x400 + 64 * r) 64)),
    m := (Vector.range 8).map (fun m => BitVec.ofNat 64 (cut v (0x100 + 8 * m) 8)),
    flags := (Vector.range 32).map (fun f => BitVec.ofNat 6 (cut v (0x140 + f) 1)),
    phase := BitVec.ofNat 8 (cut v 0x168 1), step := BitVec.ofNat 32 (cut v 0x164 4), pc := BitVec.ofNat 32 pc,
    loops := loopsOf v (cut v 0x169 1), wait := if past || decide (step = 0) then .none else .sync 1 0,
    finished := past, halted := past && decide (0 < k.streamLen), grid := gridOfBlock v }

/-- The registers of a core taken from its state block. -/
def restoreRegs (c v : Nat) (s : State) : State :=
  let s1 := (List.range 4).foldl (fun z i => writeReg .GRID_TCFG c i (BitVec.ofNat 64 (cut v (0x180 + 8 * i) 8)) z) s
  (List.range 40).foldl (fun z i => writeReg .SPAD_REGION c i (BitVec.ofNat 64 (cut v (0x1A0 + 4 * i) 4)) z) s1

/-- A whole scratchpad written, 128 bytes at a time. -/
def writeSpad (c v : Nat) (s : State) : State :=
  (List.range 256).foldl (fun z i => (spadStore c (8 * i) 8 (2 ^ 128 - 1) (cut v (128 * i) 128) z).2) s

/-- The state of R369 restored into the cores of bed `b` from its record; the scratchpads only where `whole`. -/
def restoreBed (b v step : Nat) (whole : Bool) (s : State) : State :=
  let one (z : State) (c : Nat) : State :=
    let blk := cut v (0x1000 + 0x2000 * (c % 64)) 0x2000
    let z1 := restoreRegs c blk (z.putCore c ((z.core c).restore blk step))
    if whole then writeSpad c (cut v (0x81000 + 0x8000 * (c % 64)) 0x8000) z1 else z1
  let s1 := (coresOf b).foldl one s
  let k := s1.bed b
  s1.putBed b { k with phase := (s1.core (64 * b)).phase, reported := (coresOf b).all fun c => (s1.core c).finished }

/-- The state at the start of a launch without a save area (R374): zeroed scratchpads and the kept region registers. -/
def restoreStart (b : Nat) (s : State) : State :=
  let kept := (s.bed b).kept
  (coresOf b).foldl (fun z c =>
    let z1 := (List.range 40).foldl (fun y i => writeReg .SPAD_REGION c i ((look kept (40 * (c % 64) + i)).getD 0) y) z
    writeSpad c 0 z1) s

end Sys2Proof.Machine
end

