-- ==== Sys2Proof/Machine/Dorm.lean ====
section
/-!
DEFINITION. Quiesce points, saves, rollback and restores (R366 to R375), and what a launch does before its first bundle.
-/

namespace Sys2Proof.Machine

/-! ## Points (R367, R368) -/

/-- Whether records are saved for a partition (R371). -/
def saveOn (p : Nat) (s : State) : Bool := bitF F.MGT_QSAVE_EN 0 p s

/-- The step of the point at which a launch stands: that of its start before the first bundle, else that of the next step. -/
def Launch.point (l : Launch) : Nat := if l.started then l.step + 1 else l.step

/-- Whether the end of the present step of a launch is a quiesce point. -/
def Launch.quiesces (l : Launch) : Bool := (l.sync l.step).2.2

/-- Whether a core is at rest (R368): arrived, with everything that it issued completed. -/
def coreAtRest (c : Nat) (s : State) : Bool :=
  let k := s.core c
  k.arrived && (k.finished || coreQuiet c s)

/-- Whether the conditions of R368 hold for a bed, but for its save. -/
def bedAtRest (p b : Nat) (s : State) : Bool :=
  let k := s.bed b
  let mine (q : Prog) : Bool := decide (q.part.val = p) && q.desc.isNone
  (coresOf b).all (fun c => coreAtRest c s) && !k.armed.any mine && !k.progs.any mine && k.merge.isEmpty && k.mergeWait.isEmpty

/-- Whether a package is ready for the quiesce point of a launch (R368). -/
def pointReady (p : Nat) (l : Launch) (s : State) : Bool :=
  l.bedList.all fun b => bedAtRest p b s && (!saveOn p s || (s.bed b).saved)

/-! ## The save area (R371) -/

/-- The entry of a partition's save map for logical bed `lbed`: the record's base in a slot, or in its mirror. -/
def mapEntry (p lbed slot : Nat) (mirror : Bool) (s : State) : Nat :=
  getF F.MGT_QSAVE_MAP 0 p s * 4096 + 32 * lbed + 8 * slot + (if mirror then 16 else 0)

/-- A record's base as a save map gives it: local, 4 KiB aligned. -/
def recordBase (v : Nat) : Nat := v % 2 ^ 52 / 4096 * 4096

/-- The slot that does not hold the last committed point; A for the first. -/
def freeSaveSlot (k : Part) : Nat :=
  match k.committed with
  | some (c, _) => 1 - c
  | none => 0

/-- One copy of a bed's record written to its slot; the map entry is read first. -/
def writeRecord (p b lbed slot tag v : Nat) (mirror : Bool) (s : State) : Got × State :=
  let m := busRead (.bsq b) 1 (partWho p) (mapEntry p lbed slot mirror s) 8 s
  match m.1 with
  | .ok e => bsqWriteRange b tag p (recordBase e) recordLen v (askDone (.bsq b) 1 m.2)
  | g => (g, m.2)

/-- The save of a point begins on a package, over the record that its slot held. -/
def beginSave (p : Nat) (l : Launch) (s : State) : State :=
  let k := s.part p
  if k.saving.isSome then s
  else s.putPart p { k with
    saving := some l.point, saveAt := s.tick, saveBad := false, saveOver := false, pointFb := l.fbCount,
    slotSteps := ldel k.slotSteps (freeSaveSlot k) }

/-- A bed's save has failed, or is under way (R372). -/
def noteSave (p b : Nat) (g : Got) (s : State) : State :=
  let k := s.bed b
  match g with
  | .bad .dataLost => failLaunchAt b p .dataLost s
  | .bad _ =>
    let s1 := flagF F.MGT_QSTATUS_SAVE_FAIL 0 p (s.putPart p { s.part p with saveBad := true })
    s1.putBed b { k with saving := true }
  | _ => s.putBed b { k with saving := true }

/-- A bed's record goes to the free slot and, with MIRROR, to its copy; a scratchpad that cannot be read fails the launch. -/
def putRecords (p b : Nat) (s1 : State) (r : Bool × Nat × State) : State :=
  if !r.1 then failLaunchAt b p .dataLost r.2.2
  else
    let slot := freeSaveSlot (s1.part p)
    let w := writeRecord p b (s1.bed b).lbed slot 2 r.2.1 false r.2.2
    let x := if bitF F.MGT_QSAVE_MIRROR 0 p s1 then writeRecord p b (s1.bed b).lbed slot 3 r.2.1 true w.2 else (.ok 0, w.2)
    noteSave p b (w.1.add 0 x.1) x.2

/-- A bed writes its record, and the mirror where there is one. -/
def saveBed (p b : Nat) (l : Launch) (s : State) : State :=
  let s1 := beginSave p l s
  putRecords p b s1 (bedRecord b l.point (s1.part p).pointFb s1)

/-- Whether a bed may write its record now: at a quiesce point with the conditions of R368, or before the first bundle of a launch
whose start is saved; the previous point is resolved (R371). -/
def maySave (p b : Nat) (l : Launch) (s : State) : Bool :=
  let k := s.part p
  saveOn p s && !l.stop && !(s.bed b).saving && !(s.bed b).saved && l.bedList.contains b &&
  (if l.started then decide (k.saving = none ∨ k.saving = some l.point) && l.quiesces && bedAtRest p b s
   else decide (k.saving = some l.point))

/-- QUIESCE_SAVE. -/
def quiesceSave (b : Nat) (s : State) : State :=
  let p := (s.bed b).part
  match launchOf p s with
  | none => s
  | some l => if (s.bed b).running && maySave p b l s then saveBed p b l s else s

def execQuiesceSave (b : BedId) (s : State) : Host.Outcome State Fault Refusal := .next (quiesceSave b.val s)

/-! ## Before the first bundle -/

/-- The READY message of a launch (R297, R380): what it holds, and whether it resumes. -/
def readyMsg (p : Nat) (l : Launch) (refused : Bool) (s : State) : ReadyF :=
  let held := (s.part p).slotSteps.map (·.2)
  let new := if l.resumed then max l.step (held.foldl max 0) else 0
  let old := ((held ++ [l.step]).filter fun x => decide (x ≠ new)).foldl max 0
  let hasOld := l.resumed && (held ++ [l.step]).any fun x => decide (x ≠ new)
  ⟨Fin.ofNat 512 (ownPkg s), l.digest, BitVec.ofNat 64 s.tick, BitVec.ofNat 32 new,
    if hasOld then BitVec.ofNat 32 old else BitVec.allOnes 32, refused, l.resumed⟩

/-- The span of a grove launch: the members current when the first READY of its digest was sent (R310). -/
def spanOf (d : BitVec 512) (s : State) : List Nat :=
  match s.grove.readys.find? fun x => decide (x.r.digest = d) with
  | some x => x.span
  | none => memberList s

/-- A READY recorded with the tick of its arrival. -/
def noteReady (r : ReadyF) (s : State) : State :=
  let g := s.grove
  { s with grove := { g with readys := g.readys.filter (fun x => !(decide (x.r.src = r.src) && decide (x.r.digest = r.digest))) ++
      [⟨r, s.tick, spanOf r.digest s⟩] } }

/-- Whether a package of a span has refused the launch of a digest (R310). -/
def refusedBy (d : BitVec 512) (span : List Nat) (s : State) : Bool :=
  s.grove.readys.any fun x => decide (x.r.digest = d) && x.r.refused && span.contains x.r.src.val

/-- A launch placed, with its start saved where it is to be, starts; a grove launch floods READY and waits for its T0
(R310, R367). -/
def launchReady (p : Nat) (s : State) : State :=
  match launchOf p s with
  | none => s
  | some l =>
    if l.started || l.stop then s
    else if !l.grove then launchGo p s
    else
      let r := readyMsg p l false s
      let span := if l.span.isEmpty then spanOf l.digest s else l.span
      if refusedBy l.digest span s then forgetReady l.digest (failLaunch p .featureMissing (putLaunch p { l with span := span } s))
      else putLaunch p { l with readyAt := some s.tick, span := span } (flood (.ready r) (noteReady r s))

/-- A launch placed: its start is a quiesce point, saved first where records are saved (R367). -/
def launchPlaced (p : Nat) (s : State) : State :=
  match launchOf p s with
  | none => s
  | some l => if saveOn p s then beginSave p l s else launchReady p s

/-! ## The end of a save, and commitment (R371, R372) -/

/-- The answers to the save writes of a bed, once all are there. -/
def saveAnswers (b : Nat) (s : State) : Option Status :=
  let l := asked (.bsq b) 2 s ++ asked (.bsq b) 3 s
  if l.all fun r => decide (r.st = .answered) then
    some (Status.joinAll .ok ((l.map (·.status)).filter fun st => decide (st ≠ .ok)))
  else none

/-- Whether a package reported kind `kind` (2 SAVED, 3 FAILED) for the point of step `q`. -/
def Launch.reported (l : Launch) (pkg q kind : Nat) : Bool :=
  l.reports.any fun r => decide (r.pkg = pkg) && decide (r.step = q) && decide (r.kind = kind)

/-- The registers of a committed point. -/
def notePoint (p slot q us : Nat) (s : State) : State :=
  let s1 := setF F.MGT_QSTATUS_STEP 0 p q (setF F.MGT_QSTATUS_SLOT 0 p slot s)
  let s2 := if q = 0 then s1 else setF F.MGT_QSTATUS_VALID 0 p 1 s1
  incF F.MGT_QCOUNT_SAVES 0 p 1 (setF F.MGT_QTIME_SAVE_US 0 p us s2)

/-- POINT_COMMIT: the point being saved is abandoned, where any package failed it, or committed, where every bed of the package has
saved and every package of the span has reported SAVED. -/
def pointCommit (p : Nat) (s : State) : State :=
  match launchOf p s, (s.part p).saving with
  | some l, some q =>
    let k := s.part p
    let span := if l.span.isEmpty then memberList s else l.span
    let others := span.filter fun x => decide (x ≠ ownPkg s)
    if !k.saveOver then s
    else if k.saveBad || (l.grove && span.any fun x => l.reported x q 3) then s.putPart p { k with saving := none }
    else if l.grove && !others.all (fun x => l.reported x q 2) then s
    else
      let slot := freeSaveSlot k
      notePoint p slot q ((s.tick - k.saveAt) / 25)
        (s.putPart p { k with saving := none, committed := some (slot, q), slotSteps := lput k.slotSteps slot q })
  | _, _ => s

/-- Every bed of a package has ended its save of a point: reported in a grove launch, and a launch at its start goes on; the point is
committed once every package of the span has saved it. -/
def packageSaved (p : Nat) (s : State) : State :=
  match launchOf p s with
  | none => s
  | some l =>
    if !l.bedList.all fun b => (s.bed b).saved then s
    else
      let k := s.part p
      let q := BitVec.ofNat 32 l.point
      let s1 := s.putPart p { k with
        saveOver := true, slotSteps := if k.saveBad then k.slotSteps else lput k.slotSteps (freeSaveSlot k) l.point }
      let s2 := pointCommit p (if l.grove then flood (.agree (Fin.ofNat 32 p) (if k.saveBad then .failed q else .saved q)) s1 else s1)
      if l.started then s2 else launchReady p s2

/-- SAVE_COMPLETE: every save write of a bed has been acknowledged. -/
def saveComplete (b : Nat) (s : State) : State :=
  let p := (s.bed b).part
  let k := s.bed b
  if !k.saving then s
  else
    match saveAnswers b s with
    | none => s
    | some st =>
      let s1 := askDone (.bsq b) 3 (askDone (.bsq b) 2 s)
      let s2 := if st = .ok then s1
        else flagF F.MGT_QSTATUS_SAVE_FAIL 0 p (s1.putPart p { s1.part p with saveBad := true })
      packageSaved p (s2.putBed b { s2.bed b with saving := false, saved := true })

def execSaveComplete (b : BedId) (s : State) : Host.Outcome State Fault Refusal := .next (saveComplete b.val s)

def execPointCommit (p : PartId) (s : State) : Host.Outcome State Fault Refusal := .next (pointCommit p.val s)

/-! ## Reading records back (R374, R375) -/

/-- One copy of a record read. -/
def readCopy (p b lbed slot tag n : Nat) (mirror : Bool) (s : State) : Got × State :=
  let m := busRead (.bsq b) 1 (partWho p) (mapEntry p lbed slot mirror s) 8 s
  match m.1 with
  | .ok e => busReadRange (.bsq b) tag (partWho p) (recordBase e) n m.2
  | g => (g, m.2)

/-- The first `n` bytes of a record read, from the mirror where the first copy is lost and there is one. -/
def readRecord (p b lbed slot n : Nat) (s : State) : Got × State :=
  let r := readCopy p b lbed slot 4 n false s
  match r.1 with
  | .bad st =>
    if bitF F.MGT_QSAVE_MIRROR 0 p s && (decide (st = .dataLost) || decide (st = .dieAbsent)) then
      let m := readCopy p b lbed slot 5 n true r.2
      match m.1 with
      | .ok v => (.ok v, flagF F.MGT_QSTATUS_MIRROR_USED 0 p m.2)
      | g => (g, m.2)
    else r
  | _ => r

/-- The answered reads of a bed's restore taken away. -/
def restoreDone (b : Nat) (s : State) : State := askDone (.bsq b) 5 (askDone (.bsq b) 4 (askDone (.bsq b) 1 s))

/-- What the records of a placement come to: all read, a failure, or a wait. -/
inductive Recs where
  | ok (l : List (Nat × Nat × Nat))
  | bad (st : Status)
  | wait
  deriving DecidableEq, Repr

/-- The records of a placement read: per logical bed its bed and bytes. Several waits last until every record is there. -/
def readRecords (p slot : Nat) (len : Nat → Nat) (place : List (Nat × Nat)) (s : State) : Recs × State :=
  let r : Recs × State := place.foldl (fun z e =>
    let r := readRecord p e.2 e.1 slot (len e.1) z.2
    (match z.1, r.1 with
      | .wait, _ => .wait
      | _, .wait => .wait
      | .bad a, .bad b => .bad (a.join b)
      | .bad a, _ => .bad a
      | .ok _, .bad b => .bad b
      | .ok l, .ok v => .ok (l ++ [(e.1, e.2, v)]), r.2)) (.ok [], s)
  if r.1 = .wait then r else (r.1, place.foldl (fun z e => restoreDone e.2 z) r.2)

/-- The streams of a logical bed as its cores hold them, on the bed that held it. -/
def heldStream (b : Nat) (s : State) (i : Nat) : Nat × Nat × Nat :=
  let k := s.core (64 * b + i)
  (k.stream, k.streamVA, k.streamLen)

/-- Logical beds placed anew (R374): where they were if that plot is PRESENT, else on the lowest idle beds. -/
def replace (p : Nat) (beds : List (Nat × Nat)) (s : State) : Option (List (Nat × Nat)) :=
  let keep := beds.filter fun e => slotPresent (plotOf e.2) s
  let lost := beds.filter fun e => !slotPresent (plotOf e.2) s
  let idle := (partBeds p s).filter fun b => !keep.any (fun e => decide (e.2 = b))
  if idle.length < lost.length then none else some (keep ++ (lost.map (·.1)).zip idle)

/-- The bed that held a logical bed of a launch. -/
def Launch.bedFor (l : Launch) (lbed : Nat) : Nat := ((l.beds.find? fun e => decide (e.1 = lbed)).map (·.2)).getD 0

/-- Logical beds started anew on a placement with the streams that they had. -/
def restart (p : Nat) (l : Launch) (place : List (Nat × Nat)) (s : State) : State :=
  let kept (e : Nat × Nat) (z : State) : State :=
    let k := z.bed e.2
    z.putBed e.2 { k with kept := (s.bed (l.bedFor e.1)).kept }
  place.foldl (fun z e => kept e (startBed e.2 e.1 p l.espalier (heldStream (l.bedFor e.1) s) z)) s

/-- FB_COUNT of a record (R373). -/
def recordFb (v : Nat) : Nat := cut v 0x10 4

/-- The COUNT of a partition's fallback log set (R374, R379); nothing where there is none. -/
def setLogCount (p : Nat) (l : Launch) (s : State) : State :=
  if l.fbLog = 0 ∨ l.replayLog ≠ 0 then s else askLog p l.fbLog 4 l.fbCount s

/-- The records of a point restored into a placement. -/
def restoreAll (l : List (Nat × Nat × Nat)) (step : Nat) (whole : Nat → Bool) (s : State) : State :=
  l.foldl (fun z e => restoreBed e.2.1 e.2.2 step (whole e.1) z) s

/-- The point to which a partition rolls back: slot and step, or none for a start without a record. -/
def rollbackPoint (p : Nat) (l : Launch) (s : State) : Option (Nat × Nat) :=
  let k := s.part p
  if !l.grove then k.committed
  else
    let all (q : Nat) : Bool := (l.span.filter fun x => isMember x s && decide (x ≠ ownPkg s)).all fun x => l.reported x q 2
    (k.slotSteps.filter fun e => all e.2).foldl (fun z e => match z with
      | none => some e
      | some y => if y.2 < e.2 then some e else some y) none

/-- The length of a restore noted: a time that the model does not carry (log entry 40). -/
def noteRestore (p : Nat) (s : State) : State :=
  let r := s.takeFree
  setF F.MGT_QTIME_RESTORE_US 0 p (r.1.toNat % 2 ^ 32) r.2

/-- A rolled-back partition is held at a point (R374, steps 5 and 6). -/
def heldAt (p : Nat) (l : Launch) (st : Status) (place : List (Nat × Nat)) (step fb : Nat) (s : State) : State :=
  let l1 := { l with
    beds := place, step := step, fbCount := fb, started := false, resumed := true, stop := false, stopSent := false,
    rollback := false, statuses := [], detail := 0xFFFF, reports := l.reports.filter (fun r => decide (1 < r.kind)), slips := 0,
    short := false, decided := [], past := [], diverged := false, readyAt := none, span := [] }
  let i := (getDesc l.ring l.idx s).map (·.detail)
  let s1 := finishDesc l.ring l.idx st (i.getD l.detail) l.step (abandonFor p (wokenDone p l.step s))
  let s2 := s1.putPart p { s1.part p with launch := none, resume := some l1, hold := .rolledBack, saving := none }
  let s3 := incF F.MGT_QCOUNT_ROLLBACKS 0 p 1 (flagF F.MGT_QSTATUS_ROLLED_BACK 0 p s2)
  setLogCount p l1 (noteRestore p s3)

/-- A rollback that restores nothing (R375): the partition is not held and its launch ends with its status. -/
def rollbackNone (p : Nat) (l : Launch) (st : Status) (s : State) : State :=
  releaseWaiters p (endLaunch p l st (s.putPart p { s.part p with hold := .none }))

/-- ROLLBACK: a drained partition chooses its point, places its beds, restores them and is held (R374, R375). -/
def rollback (p : Nat) (s : State) : State :=
  match launchOf p s with
  | none => s
  | some l =>
    match (s.part p).hold, committedTo l s with
    | .rolling, some st =>
      (match replace p l.beds s with
        | none => rollbackNone p l st s
        | some place =>
          let clean := l.bedList.foldl (fun z b => idleBed p b z) s
          match rollbackPoint p l s with
          | none =>
            let s1 := restart p l place clean
            heldAt p l st place 0 0 (place.foldl (fun z e => restoreStart e.2 z) s1)
          | some (slot, q) =>
            let r := readRecords p slot (fun _ => recordLen) place s
            match r.1 with
            | .wait => r.2
            | .bad x => rollbackNone p l (st.join x) r.2
            | .ok recs =>
              let s1 := restart p l place (l.bedList.foldl (fun z b => idleBed p b z) r.2)
              heldAt p l st place q ((recs.head?.map fun e => recordFb e.2.2).getD 0) (restoreAll recs q (fun _ => true) s1))
    | _, _ => s

def execRollback (p : PartId) (s : State) : Host.Outcome State Fault Refusal := .next (rollback p.val s)

end Sys2Proof.Machine
end

