-- ==== Sys2Proof/Machine/Desc.lean ====
section
/-!
DEFINITION. Descriptors (R262 to R264, R269, R270): what holds one, how it starts and completes, and NOP, MOVE, FENCE, SIGNAL and
WAIT.
-/

namespace Sys2Proof.Machine

/-! ## Holding and starting (R263) -/

/-- The descriptors of a ring fetched before one and not yet completed. -/
def earlierDescs (n i : Nat) (s : State) : List Desc := (s.ring n).descs.takeWhile fun d => decide (d.idx ≠ i)

/-- Whether a descriptor is held. -/
def descHeld (n : Nat) (d : Desc) (s : State) : Bool :=
  let l := earlierDescs n d.idx s
  l.any (fun x => decide (x.kind = 3) || decide (x.kind = 5)) || ((d.get 1 1).testBit 1 && d.unread.isNone && !l.isEmpty)

/-- Whether a report that commits a descriptor is on its way. -/
def reportSent (n i : Nat) (s : State) : Bool := (s.ring n).reports.any fun r => decide (r.idx = i)

/-- Whether a descriptor may start or go on. -/
def descRuns (n : Nat) (d : Desc) (s : State) : Bool :=
  !reportSent n d.idx s && (match d.st with
    | .held => !descHeld n d s
    | .waiting => true
    | .started => true
    | _ => false)

/-- A descriptor that starts. -/
def beginDesc (n : Nat) (d : Desc) (s : State) : State := putDesc n { d with st := .started } s

/-- A descriptor of one of `kinds` that starts, or goes on. -/
def withDesc (n i : Nat) (kinds : List Nat) (f : Desc → State → State) (s : State) : State :=
  match getDesc n i s with
  | none => s
  | some d =>
    if kinds.contains d.kind && descRuns n d s then
      let d1 := { d with st := .started }
      f d1 (putDesc n d1 s)
    else s

/-- A memory operation of a descriptor fails: DATA_LOST rolls back the partition of a partition ring (R168, R264). -/
def descLost (n : Nat) (d : Desc) (st : Status) (s : State) : State :=
  if decide (st = .dataLost) && !ringHost n s then rollbackPart (descPart n d s) .dataLost s else s

/-- What an access of a descriptor by `v` comes to: its data goes on to `k`, a failure completes it, and it waits for the rest. -/
def descGo (n : Nat) (d : Desc) (g : Got) (k : Nat → State → State) (s : State) : State :=
  match g with
  | .ok x => k x (descDone d s)
  | .wait => s
  | .bad st => finishDesc n d.idx st 0xFFFF 0 (descLost n d st (descDone d s))

/-- DESC_NOP: kinds 0 and 0xC to 0xF complete with OK when they start (R262, R263); so does nothing else. -/
def descNop (n i : Nat) : State → State :=
  withDesc n i [0, 12, 13, 14, 15] fun d s =>
    match d.unread with
    | some st => finishDesc n i st 0xFFFF 0 s
    | none => finishDesc n i .ok 0xFFFF 0 s

def execDescNop (ring : RingId) (idx : BitVec 32) (s : State) : Host.Outcome State Fault Refusal :=
  .next (descNop ring.val idx.toNat s)

/-! ## FENCE (R270) -/

/-- Whether every write and atomic that a ring has issued has been performed (R151, R258). -/
def ringPerformed (n : Nat) (s : State) : Bool :=
  !s.net.any fun r => decide (r.src = .cmd n) && (r.write || r.atom.isSome) && decide (r.st ≠ .answered) && decide (r.st ≠ .queued)

/-- FENCE: it starts, and once every earlier descriptor has completed it is a release and an acquire (R155). -/
def descFence (n i : Nat) (s : State) : State :=
  withDesc n i [3] (fun _ s => if (earlierDescs n i s).isEmpty && ringPerformed n s then finishDesc n i .ok 0xFFFF 0 s else s) s

def execFence (ring : RingId) (idx : BitVec 32) (s : State) : Host.Outcome State Fault Refusal :=
  .next (descFence ring.val idx.toNat s)

/-! ## SIGNAL (R270) -/

/-- The atomic of a SIGNAL: FETCH is ignored, and a CAS acts as a SWAP. -/
def signalAtom (d : Desc) : Atom :=
  let a := attrAtom (BitVec.ofNat 12 (d.get 0x18 2)) (BitVec.ofNat 64 (d.get 0x10 8)) 0
  { a with aop := if a.aop = 2 then 1 else a.aop, fetch := false }

/-- The write or atomic of a SIGNAL at its physical address. -/
def signalSend (v : Via) (a : Atom) (pa : Nat) (s : State) : State :=
  let n := a.bytes
  (post v.src v.std (pa / n * n) n true (BitVec.ofNat 1024 (a.operand.toNat % 256 ^ n)) (BitVec.ofNat 128 (2 ^ n - 1))
    (if atomPlain a then none else some a) (BitVec.ofNat 32 v.tag) 0 s).2

/-- The request of a SIGNAL. -/
def signalAsked (v : Via) (s : State) : Option Req := s.net.find? fun r => decide (r.src = v.src) && decide (r.step = BitVec.ofNat 32 v.tag)

/-- What a SIGNAL comes to: it is a release, sent once every earlier write of its ring has been performed (R151, R155). -/
def signalGot (n : Nat) (v : Via) (va : Nat) (a : Atom) (s : State) : Got × State :=
  match signalAsked v s with
  | some r => if r.st = .answered then (if r.status = .ok then .ok 0 else .bad r.status, netDel r.id s) else (.wait, s)
  | none =>
    if !ringPerformed n s then (.wait, s)
    else
      let x := translate v.ctx ⟨v.who, v.id, false, true, !atomPlain a, v.step, va, false, false⟩ s
      match x.1 with
      | .bad st => (.bad st, x.2)
      | .wait => (.wait, x.2)
      | .ok pa _ => if placeOf pa x.2 = .gone then (.bad .dieAbsent, x.2) else (.wait, signalSend v a pa x.2)

/-- SIGNAL. -/
def descSignal (n i : Nat) : State → State :=
  withDesc n i [4] fun d s =>
    let v := descVia n d s
    let r := signalGot n v (d.get 8 8) (signalAtom d) s
    descGo n d r.1 (fun _ => finishDesc n i .ok 0xFFFF 0) r.2

def execSignal (ring : RingId) (idx : BitVec 32) (s : State) : Host.Outcome State Fault Refusal :=
  .next (descSignal ring.val idx.toNat s)

/-! ## WAIT (R270) -/

/-- Whether a value read satisfies a WAIT. -/
def waitMet (d : Desc) (v : Nat) : Bool :=
  let n := if (d.get 0x20 1).testBit 2 then 8 else 4
  let m := d.get 0x18 8 % 256 ^ n
  let x := v &&& m
  let y := d.get 0x10 8 &&& m
  match d.get 0x20 1 % 4 with
  | 0 => decide (x = y)
  | 1 => decide (x ≠ y)
  | 2 => decide (y ≤ x)
  | _ => decide ((x + 256 ^ n - y) % 256 ^ n < 256 ^ n / 2)

/-- A read of a WAIT: satisfied, its report goes to the arbiter; else it polls again POLL_TICKS later. -/
def waitRead (n : Nat) (d : Desc) (s : State) : State :=
  let size := if (d.get 0x20 1).testBit 2 then 8 else 4
  let va := d.get 8 8 / size * size
  let v := descVia n d s
  let r := v.get va size s
  let again (s : State) : State := putDesc n { d with pollAt := s.tick + getF F.CMD_CTRL_POLL_TICKS 0 0 s } s
  match r.1 with
  | .bad st => sendReport n d.idx st 0xFFFF 0 (descLost n d st (descDone d r.2))
  | g => descGo n d g (fun x z => if waitMet d x then sendReport n d.idx .ok 0xFFFF (x % 2 ^ 32) z else again z) r.2

/-- WAIT: the first read. -/
def descWait (n i : Nat) : State → State := withDesc n i [5] fun d s => if d.pollAt = 0 then waitRead n d s else s

def execWait (ring : RingId) (idx : BitVec 32) (s : State) : Host.Outcome State Fault Refusal :=
  .next (descWait ring.val idx.toNat s)

/-- WAIT_POLL: a later read, once its tick has come. -/
def descPoll (n i : Nat) : State → State :=
  withDesc n i [5] fun d s => if d.pollAt ≠ 0 ∧ d.pollAt ≤ s.tick then waitRead n d s else s

def execWaitPoll (ring : RingId) (idx : BitVec 32) (s : State) : Host.Outcome State Fault Refusal :=
  .next (descPoll ring.val idx.toNat s)

/-! ## MOVE (R269) -/

/-- The storage queue of a descriptor's field: none where NONE is set. -/
def storeField (v : Nat) : Option Nat := if v.testBit 15 then none else some (v % 1024)

/-- Whether a storage queue named by a field may not be used by a partition. -/
def storeBad (v p : Nat) (s : State) : Bool :=
  match storeField v with
  | some q => !storeQueueOk q p s
  | none => false

/-- The program that a MOVE arms: it belongs to no launch and to no step (R218). -/
def moveProg (n b id : Nat) (d : Desc) (s : State) : Prog :=
  { id := id, at0 := actOf (64 * b) s, core := 64, table := d.get 8 8 / 64 * 64, prog := d.get 0x10 2 % 4096,
    part := Fin.ofNat 32 (descPart n d s), step := BitVec.allOnes 32, stepTick := 0, storeQ := storeField (d.get 0x14 2),
    desc := some (n, d.idx), base := 0, count := 0, moves := [], stop := false, failed := none }

/-- Whether the program of a MOVE is armed or running. -/
def moveArmed (n i b : Nat) (s : State) : Bool :=
  let k := s.bed b
  (k.armed ++ k.progs).any fun q => decide (q.desc = some (n, i))

/-- MOVE: its checks, then its program is armed, behind every KICK; while 64 are armed, or its partition is paused (R355), it waits. -/
def descMove (n i : Nat) : State → State :=
  withDesc n i [2] fun d s =>
    let b := min 4799 (d.get 0x12 2)
    let p := descPart n d s
    let done (st : Status) : State → State := finishDesc n i st 0xFFFF 0
    if moveArmed n i b s then s
    else if bitF F.PWR_PART_STATUS_PAUSED 0 p s then putDesc n { d with st := .waiting } s
    else match bgOwner (bgOf b) s with
      | none => done .dieAbsent s
      | some o =>
        if !slotPresent (plotOf b) s then done .dieAbsent s
        else if !ringHost n s && decide (o ≠ p) then done .pageFault s
        else if storeBad (d.get 0x14 2) p s then done .featureMissing s
        else if 64 ≤ (s.bed b).armed.length then s
        else
          let x := s.takeId
          armProg b (moveProg n b x.1 d x.2) x.2

def execMove (ring : RingId) (idx : BitVec 32) (s : State) : Host.Outcome State Fault Refusal :=
  .next (descMove ring.val idx.toNat s)

end Sys2Proof.Machine
end

