-- ==== Sys2Proof/Machine/Shelf.lean ====
section
/-!
DEFINITION. The shelf (R276 to R280): staging, committing, the participants' judgement, and the close of the vote.
-/

namespace Sys2Proof.Machine

/-! ## CONFIG_STAGE (R276, R277) -/

/-- The entries of a list of writes. -/
def shelfList (v n : Nat) : List ShelfWrite :=
  (List.range n).map fun j => ⟨cut v (24 * j) 8, BitVec.ofNat 64 (cut v (24 * j + 8) 8), BitVec.ofNat 64 (cut v (24 * j + 16) 8)⟩

/-- Writes held in a shelf entry. -/
def shelfCount (e : Nat) (s : State) : Nat := (shelfOf e s).writes.length

/-- A list appended to an entry, or refused whole. -/
def shelfStage (n i e : Nat) (new : Bool) (l : List ShelfWrite) (s : State) : State :=
  let x := shelfOf e s
  let base := if new then [] else x.writes
  let refuse (c : Nat) : State :=
    finishDesc n i .cfgAbandoned c x.writes.length (setF F.CMD_SHELF_LAST_CAUSE 0 e c s)
  match l.findIdx? fun w => w.at.isNone with
  | some j => finishDesc n i .pageFault j x.writes.length s
  | none =>
    if x.commit.isSome then refuse 6
    else if 1024 < base.length + l.length then refuse 7
    else
      let all := base ++ l
      finishDesc n i .ok 0xFFFF all.length
        (setF F.CMD_SHELF_STATE 0 e 1 (setF F.CMD_SHELF_COUNT 0 e all.length (putShelf e { x with writes := all } s)))

/-- CONFIG_STAGE: accepted on host rings only. -/
def configStage (n i : Nat) : State → State :=
  withDesc n i [6] fun d s =>
    if !ringHost n s then finishDesc n i .pageFault 0xFFFF 0 s
    else
      let k := min 256 (d.get 0x10 2)
      let v := descVia n d s
      let r := v.getRange (d.get 8 8) (24 * k) s
      descGo n d r.1 (fun x => shelfStage n i (d.get 0x12 1 % 16) ((d.get 0x13 1).testBit 0) (shelfList x k)) r.2

def execConfigStage (ring : RingId) (idx : BitVec 32) (s : State) : Host.Outcome State Fault Refusal :=
  .next (configStage ring.val idx.toNat s)

/-! ## CONFIG_COMMIT (R278, R280) -/

/-- The step counter of a partition's launch, if it runs one. -/
def partStep (p : Nat) (s : State) : Option Nat := (launchOf p s).map (·.step)

/-- A CONFIG_COMMIT abandoned before its vote opens: cause 6 leaves the entry as it is, and counts no entry abandoned. -/
def commitRefused (n i e cause : Nat) (s : State) : State :=
  sendReport n i .cfgAbandoned cause 0 (setF F.CMD_SHELF_LAST_CAUSE 0 e cause s)

/-- CONFIG_COMMIT: the entry becomes COMMITTED and its writes go to their participants. -/
def configCommit (n i : Nat) : State → State :=
  withDesc n i [7] fun d s =>
    let e := d.get 8 1 % 16
    let t := d.get 0xC 4
    let p := descPart n d s
    let x := shelfOf e s
    if !ringHost n s then finishDesc n i .pageFault 0xFFFF 0 s
    else if x.commit = some (n, i, p, t) then s
    else if x.commit.isSome || x.writes.isEmpty then commitRefused n i e 6 s
    else if decide (t ≠ 0xFFFFFFFF) && (match partStep p s with
        | some q => decide (t ≤ q)
        | none => false) then incF F.CMD_CFG_ABANDONED_COUNT 0 0 1 (freeShelf e (commitRefused n i e 3 s))
    else
      putShelf e { x with commit := some (n, i, p, t), reports := [], closed := false }
        (setF F.CMD_SHELF_TARGET_STEP 0 e t (setF F.CMD_SHELF_PART 0 e p (setF F.CMD_SHELF_STATE 0 e 2 s)))

def execConfigCommit (ring : RingId) (idx : BitVec 32) (s : State) : Host.Outcome State Fault Refusal :=
  .next (configCommit ring.val idx.toNat s)

/-! ## Judgement (R278) -/

/-- One write applied in the order of a list: its register, its value and its mask. -/
def ShelfWrite.put (w : ShelfWrite) (s : State) : State :=
  match w.at with
  | some a => a.put w.value w.mask s
  | none => s

/-- Whether a valid region of the final table overlaps another. -/
def regionClash (i : Nat) (s : State) : Bool :=
  bitF F.STK_REGION_VALID 0 i s && (List.range 64).any fun j =>
    decide (j ≠ i) && bitF F.STK_REGION_VALID 0 j s && regionsOverlap (readReg .STK_REGION 0 i s) (readReg .STK_REGION 0 j s)

/-- The list index of the first write of participant `q` that the rules would ignore or refuse, each write judged with the earlier
ones applied, and regions against the final table. -/
def shelfJudge (q : Nat) (l : List ShelfWrite) (s : State) : Option Nat :=
  let final := l.foldl (fun z w => w.put z) s
  let z := l.foldl (fun (z : Nat × Option Nat × State) w =>
    let bad := w.parts.contains q && (match w.at with
      | some a => if a.reg = .STK_REGION then regionClash a.idx final else a.ignored w.value w.mask z.2.2
      | none => true)
    (z.1 + 1, if z.2.1.isNone && bad then some z.1 else z.2.1, w.put z.2.2)) (0, none, s)
  z.2.1

/-- SHELF_PARTICIPANT_REPORT: a participant judges its writes and reports, once. -/
def shelfReport (e q : Nat) (s : State) : State :=
  let x := shelfOf e s
  if x.commit.isNone || !x.parts.contains q || !partPresent q s || x.reports.any (fun r => decide (r.1 = q)) then s
  else putShelf e { x with reports := x.reports ++ [(q, shelfJudge q x.writes s, s.tick)] } s

def execShelfParticipantReport (e : Fin 16) (q : Fin 13) (s : State) : Host.Outcome State Fault Refusal :=
  .next (shelfReport e.val q.val s)

/-! ## The vote (R279, R280) -/

/-- Whether every participant that can report has. -/
def Shelf.gathered (x : Shelf) (s : State) : Bool :=
  x.parts.all fun q => !partPresent q s || x.reports.any fun r => decide (r.1 = q)

/-- What the close of a vote finds: cause and INFO, or none where every participant is ready. `by?` is the tick before which a
report must have come. -/
def Shelf.verdict (x : Shelf) (before : Option Nat) (s : State) : Option (Nat × Nat) :=
  let late := x.parts.any fun q => match x.reports.find? fun r => decide (r.1 = q) with
    | none => true
    | some r => match before with
      | some t => decide (t ≤ r.2.2)
      | none => false
  match x.against s with
  | some c => some c
  | none => if late then some (5, 0) else none

/-- Every write of an entry applied. -/
def shelfPut (e info : Nat) (s : State) : State :=
  let x := shelfOf e s
  match x.commit with
  | none => s
  | some (n, i, _, _) =>
    let s1 := x.writes.foldl (fun z w => w.put z) s
    sendReport n i .completed 0xFFFF info (freeShelf e (incF F.CMD_CFG_APPLIED_COUNT 0 0 1 s1))

/-- A vote closes: every write is applied, or none; `now` applies them with the close, else the next tick boundary does. -/
def shelfClose (e info : Nat) (before : Option Nat) (now : Bool) (s : State) : State :=
  let x := shelfOf e s
  match x.verdict before s with
  | some (c, k) => abandonShelf e c k s
  | none => if now then shelfPut e info s else putShelf e { x with closed := true } s

/-- A tick boundary applies the entries whose votes have closed (R279). -/
def shelfTick (s : State) : State :=
  (List.range 16).foldl (fun z e => if (shelfOf e z).closed then shelfPut e 0 z else z) s

/-- The entries whose commit aims at step `t` of partition `p`. -/
def shelfFor (p t : Nat) (s : State) : List Nat :=
  (List.range 16).filter fun e => match (shelfOf e s).commit with
    | some (_, _, q, u) => decide (q = p) && decide (u = t) && decide (t ≠ 0xFFFFFFFF) && !(shelfOf e s).closed
    | none => false

/-- The votes that close with the release that begins step `t` of partition `p`. -/
def shelfApply (p t : Nat) (before : Option Nat) (s : State) : State :=
  (shelfFor p t s).foldl (fun z e => shelfClose e t before true z) s

/-- SHELF_VOTE_CLOSE: the vote of an entry that waits for no step closes on its last report; it applies at the next tick boundary. -/
def shelfVoteClose (e : Nat) (s : State) : State :=
  let x := shelfOf e s
  match x.commit with
  | none => s
  | some (_, _, p, t) =>
    if (decide (t = 0xFFFFFFFF) || !partRuns p s) && x.gathered s && !x.closed then shelfClose e 0 none false s else s

def execShelfVoteClose (e : Fin 16) (s : State) : Host.Outcome State Fault Refusal := .next (shelfVoteClose e.val s)

end Sys2Proof.Machine
end

