-- ==== Sys2Proof/Machine/Release.lean ====
section
/-!
DEFINITION. The release of a sync point (R95, R96, R155, R156): what a quiesce point does to the descriptors that wait for it (R271,
R376, R377), and the end of a step.
-/

namespace Sys2Proof.Machine

/-! ## Arrival (R95) -/

/-- The cores of a launch. -/
def Launch.coreList (l : Launch) : List Nat := l.bedList.flatMap coresOf

/-- Whether every core of a launch on this package has arrived, and the writes of every bed issued before are performed, which the
release of the SYNC asks for (R155). -/
def stepGathered (l : Launch) (s : State) : Bool :=
  l.bedList.all fun b =>
    let k := s.bed b
    (coresOf b).all (fun c => (s.core c).arrived) && k.merge.isEmpty && k.mergeWait.isEmpty

/-- Whether some core of a launch waits at a SYNC of level 1 or 2. -/
def stepWaits (l : Launch) (s : State) : Bool := l.coreList.any fun c => (s.core c).atSync fun v => decide (1 ≤ v)

/-- Whether a launch stands at a quiesce point that its package is ready for (R367, R368). -/
def atPoint (p : Nat) (l : Launch) (s : State) : Bool :=
  l.started && !l.stop && l.quiesces && stepGathered l s && stepWaits l s && pointReady p l s

/-- Whether the previous point of a grove launch is resolved on this package (R368). -/
def pointResolved (p : Nat) (l : Launch) (s : State) : Bool :=
  !l.grove || (match (s.part p).saving with
    | none => true
    | some q => decide (q = l.point))

/-! ## Descriptors at the point -/

/-- The bed groups that hold the beds of a launch. -/
def Launch.groups (l : Launch) : List Nat := (l.bedList.map bgOf).eraseDups

/-- The bed groups of a launch go to RETENTION (R377). -/
def retainLaunch (p : Nat) (l : Launch) (s : State) : State :=
  l.groups.foldl (fun z g => retentionEnter g z) (s.putPart p { s.part p with hold := .retained })

/-- The launch that a partition runs, or that it is held at after a rollback. -/
def heldLaunch (p : Nat) (s : State) : Option Launch :=
  match (s.part p).launch with
  | some l => some l
  | none => (s.part p).resume

/-- The started DORMANTs with FORM 0 of a partition, each with its ring. -/
def dormants (p : Nat) (s : State) : List (Nat × Nat) :=
  s.rings.flatMap fun e => (e.2.descs.filter fun d =>
    decide (d.kind = 9) && !(d.get 8 1).testBit 0 && decide (d.st = .started) && decide (descPart e.1 d s = p)).map fun d => (e.1, d.idx)

/-- The DORMANTs of a retained partition complete once every bed group of its launch is in RETENTION (R377). -/
def retainedDone (p : Nat) (s : State) : State :=
  match (s.part p).hold, heldLaunch p s with
  | .retained, some l =>
    if l.groups.all fun g => !slotPresent (g / 16) s || decide (s.bgPower g = 2) then
      (dormants p s).foldl (fun z e => finishDesc e.1 e.2 .completed 0xFFFF 0 z) s
    else s
  | _, _ => s

/-- The orders to RETENTION under way go on (R124). -/
def retentionTick (s : State) : State :=
  if s.retains.isEmpty then s
  else (List.range 32).foldl (fun z p => retainedDone p z) (s.retains.foldl (fun z g => retentionStep g z) s)

/-- A partition held at the point at which it stands. -/
def holdPart (p : Nat) (s : State) : State := s.putPart p { s.part p with hold := .quiesce }

/-- What becomes of one descriptor at a point of step `q`: it stays waiting, or it is over, with the partition held or not. -/
inductive AtPoint where
  | stays
  | settled
  deriving DecidableEq, Repr

/-- Whether the point of step `q` is committed on this package (R371). -/
def pointCommitted (p q : Nat) (s : State) : Bool :=
  match (s.part p).committed with
  | some (_, x) => decide (x = q)
  | none => false

/-- A DORMANT with FORM 0 at a point (R377). An abandoned point is passed over. -/
def dormantAt (p : Nat) (l : Launch) (r : DescRef) (s : State) : AtPoint × State :=
  if !saveOn p s then (.settled, finishDesc r.ring r.idx .pageFault 0xFFFF 0 (holdPart p s))
  else if pointCommitted p l.point s then (.settled, retainedDone p (retainLaunch p l s))
  else (.stays, s)

/-- A waiting descriptor at a point. The image of a DORMANT with FORM 1 is written by its own command, with the partition held. -/
def descAt (p : Nat) (l : Launch) (r : DescRef) (s : State) : AtPoint × State :=
  match getDesc r.ring r.idx s with
  | none => (.settled, s)
  | some d =>
    if d.fixed then (.settled, s)
    else if d.kind = 8 then
      let s1 := if (d.get 8 1).testBit 0 then holdPart p s else s
      (.settled, finishDesc r.ring r.idx .completed 0xFFFF l.point s1)
    else if (d.get 8 1).testBit 0 then
      let s1 := holdPart p s
      (.settled, s1.putPart p { s1.part p with imaging := some r })
    else dormantAt p l r s

/-- The descriptors that wait for the next quiesce point of a partition, taken in order until one holds it. -/
def pointEvents (p : Nat) (l : Launch) (todo kept : List DescRef) (s : State) : State :=
  match todo with
  | [] => s.putPart p { s.part p with waiting := kept }
  | r :: rest =>
    let x := descAt p l r s
    let keep := if x.1 = .stays then kept ++ [r] else kept
    if (x.2.part p).hold = .none then pointEvents p l rest keep x.2
    else x.2.putPart p { x.2.part p with waiting := keep ++ rest }

/-- A DORMANT with FORM 0 holds the point until it is committed or abandoned. -/
def dormantWaits (p : Nat) (s : State) : Bool :=
  (s.part p).saving.isSome && (s.part p).waiting.any fun r => match getDesc r.ring r.idx s with
    | some d => decide (d.kind = 9) && !(d.get 8 1).testBit 0
    | none => false

/-- What a point does where a launch stands at one. -/
def runPoint (p : Nat) (s : State) : State :=
  match launchOf p s with
  | none => s
  | some l => if (s.part p).hold = .none ∧ (s.part p).woken = none ∧ atPoint p l s then pointEvents p l (s.part p).waiting [] s else s

/-! ## The end of a step (R96, R165, R279) -/

/-- A core at the release of its step: its counter counts, and a SYNC of a level that `p` picks ends. -/
def releaseCore (p : Nat → Bool) (c : Nat) (s : State) : State :=
  let k := s.core c
  let s1 := s.putCore c { k with step := k.step + 1 }
  if k.atSync p then passSync c s1 else s1

/-- A bed at the release of a step: the acquire invalidates its SHARED lines, and its next record is still to be written. -/
def releaseBed (b : Nat) (s : State) : State :=
  let s1 := invShared b s
  s1.putBed b { s1.bed b with saving := false, saved := false }

/-- The launch at the start of its next step: the fallback sets of the steps before stay, decided or not (R222, R223). -/
def Launch.next (l : Launch) (tick : Nat) : Launch :=
  { l with
    step := l.step + 1, stepTick := tick, nextTick := none, readyTick := none, slips := 0, short := false,
    reports := l.reports.filter fun r => decide (1 ≤ r.kind) || decide (l.step < r.step), past := (l.step, l.stepTick, tick) :: l.past }

/-- A step ends and the next begins at `tick`: votes close, SYNCs of the levels `lv` release, and the adds of a locked launch are
applied. -/
def releaseStep (p tick : Nat) (before : Option Nat) (lv : Nat → Bool) (s : State) : State :=
  match launchOf p s with
  | none => s
  | some l =>
    let s0 := if l.locked then applyAdds p l.step s else s
    let s1 := shelfApply p (l.step + 1) before (wokenDone p (l.step + 1) (putLaunch p (l.next tick) s0))
    let s2 := l.coreList.foldl (fun z c => releaseCore lv c z) s1
    l.bedList.foldl (fun z b => releaseBed b z) s2

/-- Whether the votes that the release would close have every report (R279). -/
def votesIn (p t : Nat) (s : State) : Bool := (shelfFor p t s).all fun e => (shelfOf e s).gathered s

/-- A release in free mode (R95, R368): every core has arrived, the quiesce point is ready and its descriptors have acted, the
partition is not held, and every vote has its reports. It falls on a tick boundary: in the first cycle of a tick. -/
def freeRelease (p : Nat) (lv : Launch → Nat → Bool) (s : State) : State :=
  match launchOf p s with
  | none => s
  | some l =>
    if !l.started || l.stop || l.locked || !(l.coreList.any fun c => (s.core c).atSync (lv l)) then s
    else if !stepGathered l s then l.bedList.foldl (fun z b => drainMerge b (fun _ => true) z) s
    else if l.quiesces && (!pointReady p l s || !pointResolved p l s || dormantWaits p s) then s
    else
      let s1 := runPoint p s
      if (s1.part p).hold = .none ∧ votesIn p (l.step + 1) s1 ∧ s.cyc % 64 = 0 then releaseStep p s.tick none (lv l) s1 else s1

/-- The levels of SYNC that a launch releases for itself, and those of a grove launch that its grove does (R265). -/
def Launch.ownLevel (l : Launch) (v : Nat) : Bool := decide (1 ≤ v) && (!l.grove || decide (v < 2))

/-- The partitions whose WAKE waits for a release go on at the tick boundary (R376). -/
def wokenTick (s : State) : State :=
  (List.range 32).foldl (fun z p => if (z.part p).woken.isSome then freeRelease p Launch.ownLevel z else z) s

/-- Whether a core waits at a SYNC of level 0. -/
def atBedSync (c : Nat) (s : State) : Bool := (s.core c).atSync fun v => decide (v = 0)

/-- A level 0 release: every core of the bed has arrived, the last of them 4 cycles ago (R95). -/
def bedRelease (b : Nat) (s : State) : State :=
  if (coresOf b).all (fun c => (s.core c).arrived && decide ((s.core c).arrivedAt + 4 ≤ (s.bed b).act)) then
    (coresOf b).foldl (fun z c => if atBedSync c z then passSync c z else z) s
  else s

/-- SYNC_RELEASE of a bed, of a launch on this package (level 1, and level 2 of a launch that is local to the package), or of a grove
launch in free mode (level 2), once the other packages have arrived too (R95, R265). -/
def execSyncRelease (scope : SyncScope) (s : State) : Host.Outcome State Fault Refusal :=
  .next (match scope with
    | .bed b => bedRelease b.val s
    | .part p => freeRelease p.val Launch.ownLevel s
    | .grove p => freeRelease p.val (fun l v => l.grove && decide (1 ≤ v)) s)

end Sys2Proof.Machine
end

