-- ==== Sys2Proof/Machine/Lock.lean ====
section
/-!
DEFINITION. Step timing in locked mode (R312 to R314), the overflow of an ordered-add buffer (R194), and the start of a grove launch
(R310, R380).
-/

namespace Sys2Proof.Machine

/-! ## The grove's A and σ (R307, R312) -/

/-- The card of the timekeeper, if it has been seen. -/
def tkCard (s : State) : Option Card :=
  (s.grove.cards.find? fun c => decide (c.card.pkg.toNat = getF F.HAL_GROVE_STATUS_TK 0 0 s)).map (·.card)

/-- σ: the timekeeper's SLIP_TICKS. -/
def slipTicks (s : State) : Nat :=
  if bitF F.HAL_GROVE_STATUS_TIMEKEEPER 0 0 s then getF F.HAL_LOCK_CFG_SLIP_TICKS 0 0 s
  else match tkCard s with
    | some c => max 1 c.slip.toNat
    | none => getF F.HAL_LOCK_CFG_SLIP_TICKS 0 0 s

/-- The first P of the present step of a launch. -/
def Launch.firstP (l : Launch) (a : Nat) : Nat :=
  let e := l.sync l.step
  max (l.stepTick + e.1 + e.2.1) (l.stepTick + a + 1)

/-- The tick P at which the present step of a launch is to end. -/
def Launch.endP (l : Launch) (a : Nat) : Nat := l.nextTick.getD (l.firstP a)

/-! ## Readiness (R313, R368) -/

/-- Whether a package is ready for the end of a step of a launch. -/
def stepReady (p : Nat) (l : Launch) (s : State) : Bool :=
  stepGathered l s && decide ((s.part p).hold = .none) &&
  (!l.quiesces || (pointReady p l s && pointResolved p l s && !dormantWaits p s))

/-- The tick on which a locked launch was first ready for the end of its step. -/
def noteReadyTick (p : Nat) (s : State) : State :=
  match launchOf p s with
  | none => s
  | some l =>
    if l.started && l.locked && l.readyTick.isNone && stepReady p l s then putLaunch p { l with readyTick := some s.tick } s else s

/-- A signed number of 32 bits. -/
def signed32 (n : Nat) : Int := if n < 2 ^ 31 then (n : Int) else (n : Int) - 2 ^ 32

/-- The margin of a step: its first check tick less its ready tick; HAL_MARGIN_MIN keeps the least. -/
def noteMargin (l : Launch) (s : State) : State :=
  match l.readyTick with
  | none => s
  | some r =>
    let m : Int := (l.firstP (agreeA s) : Int) - agreeA s - r
    if m < signed32 (getF F.HAL_MARGIN_MIN_TICKS 0 0 s) then
      setF F.HAL_MARGIN_MIN_STEP 0 0 l.step (setF F.HAL_MARGIN_MIN_TICKS 0 0 (m % 2 ^ 32).toNat s)
    else s

/-! ## Divergence (R314) -/

/-- A divergence of the launch of a partition: DIVERGED is set, its held adds are discarded (R194), and the launch ends with DATA_LOST; a
locked one rolls back. -/
def diverged (p : Nat) (s : State) : State :=
  match launchOf p s with
  | none => s
  | some l =>
    let s1 := dropAdds p (flagF F.HAL_LOCK_STATUS_DIVERGED 0 0 (failLaunch p .dataLost s))
    match launchOf p s1 with
    | some k => putLaunch p { k with diverged := true, rollback := if l.locked then k.rollback else l.rollback } s1
    | none => s1

/-- A package finds a divergence: it floods DIVERGE and ends its own launch. -/
def floodDiverge (p : Nat) (s : State) : State :=
  match launchOf p s with
  | none => s
  | some l => diverged p (flood (.diverge l.digest (BitVec.ofNat 32 l.step) (BitVec.ofNat 64 s.tick)) s)

/-! ## LOCK_CHECK_TICK -/

/-- The stacks at which an add of the present step of a partition waits for an entry (R167, R194). -/
def oaddWaits (p : Nat) (l : Launch) (s : State) : List Nat :=
  (s.net.filter fun r => r.oaddMark && decide (r.st = .waiting) && decide (r.who.part.val = p) &&
    decide (r.step.toNat ≤ l.step)).filterMap fun r => reqStack r s

/-- OADD_OVERFLOW: counted, and the launch ends as for a divergence (R194). -/
def oaddOverflow (p : Nat) (l : List Nat) (s : State) : State :=
  floodDiverge p (l.foldl (fun z st => incF F.STK_OADD_OVF_COUNT st 0 1 z) s)

/-- A SHORT report of this package. -/
def sendShort (p : Nat) (l : Launch) (s : State) : State :=
  let q := l.endP (agreeA s)
  let r : Report := ⟨ownPkg s, l.step, 0, q, 0⟩
  let s1 := incF F.HAL_SHORT_COUNT 0 0 1 (putLaunch p { l with reports := l.reports ++ [r], short := true } s)
  if l.grove then flood (.agree (Fin.ofNat 32 p) (.short (BitVec.ofNat 32 l.step) (BitVec.ofNat 64 q))) s1 else s1

/-- LOCK_CHECK_TICK: at tick P − A a package that is not ready floods SHORT; an add that still waits for an entry after a slip ends
the launch. -/
def lockCheck (p : Nat) (s0 : State) : State :=
  let s := noteReadyTick p (runPoint p s0)
  match launchOf p s with
  | none => s
  | some l =>
    let a := agreeA s
    if !l.started || l.stop || !l.locked || decide (s.tick + a < l.endP a) || l.short then s
    else
      let late := oaddWaits p l s
      if l.nextTick.isSome && !late.isEmpty then oaddOverflow p late s
      else if stepReady p l s then s
      else
        let drained := l.bedList.foldl (fun z b => drainMerge b (fun _ => true) z) s
        sendShort p l drained

def execLockCheckTick (p : PartId) (s : State) : Host.Outcome State Fault Refusal := .next (lockCheck p.val s)

/-! ## LOCK_STEP_TICK -/

/-- Whether a SHORT report for the present step and tick P is held. -/
def Launch.shortSeen (l : Launch) (q : Nat) : Bool :=
  l.reports.any fun r => decide (r.kind = 0) && decide (r.step = l.step) && decide (r.a = q)

/-- The step slips by σ. -/
def slipStep (p : Nat) (l : Launch) (q : Nat) (s : State) : State :=
  let n := l.slips + 1
  let s1 := incF F.HAL_SLIPS_COUNT 0 0 1 (putLaunch p { l with nextTick := some (q + slipTicks s), slips := n, short := false } s)
  flagIf (decide (getF F.HAL_LOCK_CFG_SLIP_IRQ 0 0 s < n)) F.HAL_LOCK_STATUS_SLIP_IRQ 0 0 s1

/-- LOCK_STEP_TICK: at tick P the step slips where a SHORT was seen, and else the next step starts. -/
def lockStep (p : Nat) (s0 : State) : State :=
  let s := noteReadyTick p s0
  match launchOf p s with
  | none => s
  | some l =>
    let q := l.endP (agreeA s)
    if !l.started || l.stop || !l.locked || decide (s.tick < q) then s
    else if l.shortSeen q then slipStep p l q s
    else if stepReady p l s then releaseStep p q (some q) (fun v => decide (1 ≤ v)) (noteMargin l s)
    else s

def execLockStepTick (p : PartId) (s : State) : Host.Outcome State Fault Refusal := .next (lockStep p.val s)

/-! ## The start of a grove launch (R310, R380) -/

/-- The READY of a package for an image digest. -/
def readyOf (d : BitVec 512) (pkg : Nat) (s : State) : Option ReadyAt :=
  s.grove.readys.find? fun r => decide (r.r.src.val = pkg) && decide (r.r.digest = d)

/-- The newest step that every package of a span holds (R380). -/
def commonStep (l : Launch) (s : State) : Option Nat :=
  let rs := l.span.filterMap fun q => (readyOf l.digest q s).map (·.r)
  let steps (r : ReadyF) : List Nat :=
    ([r.stepNew.toNat, r.stepOld.toNat]).filter fun x => decide (x ≠ 0xFFFFFFFF)
  let cand := (rs.headD ⟨0, 0, 0, 0, 0, false, false⟩ |> steps).filter fun x => rs.all fun r => (steps r).contains x
  match cand with
  | [] => none
  | x :: t => some (t.foldl max x)

/-- The slot that holds the record of a step on this package. -/
def slotOfStep (p q : Nat) (s : State) : Option Nat := ((s.part p).slotSteps.find? fun e => decide (e.2 = q)).map (·.1)

/-- A resumed launch set to another step that its save area holds: its records are read again. -/
def resumeAt (p : Nat) (l : Launch) (q : Nat) (s : State) : Bool × State :=
  if q = l.step then (true, s)
  else match slotOfStep p q s with
    | none => (true, failLaunch p .featureMissing s)
    | some slot =>
      let r := readRecords p slot (fun _ => recordLen) l.beds s
      match r.1 with
      | .wait => (false, r.2)
      | .bad st => (true, failLaunch p st r.2)
      | .ok recs =>
        let s1 := restoreAll recs q (fun _ => true) r.2
        let fb := (recs.head?.map fun e => recordFb e.2.2).getD 0
        let l1 := { l with step := q, fbCount := fb }
        (true, setLogCount p l1 (putLaunch p l1 s1))

/-- The first tick of a grove launch: in locked mode the largest READY tick and A, in free mode at once. -/
def groveT0 (l : Launch) (s : State) : Nat :=
  if l.locked then (l.span.filterMap fun q => (readyOf l.digest q s).map fun r => r.r.tick.toNat).foldl max 0 + agreeA s else s.tick

/-- GROVE_LAUNCH_START: with every READY of the span held, step 0 or the step resumed starts at T0, in free mode at a tick boundary. -/
def groveStart (p : Nat) (s : State) : State :=
  match launchOf p s with
  | none => s
  | some l =>
    let all := l.span.all fun q => (readyOf l.digest q s).isSome
    if l.started || l.stop || !l.grove || l.readyAt.isNone || !all || decide (s.tick < groveT0 l s) || (!l.locked && decide (s.cyc % 64 ≠ 0)) then s
    else if l.resumed then
      match commonStep l s with
      | none => failLaunch p .featureMissing s
      | some q =>
        let r := resumeAt p l q s
        (match r.1, launchOf p r.2 with
          | true, some k => if k.stop then r.2 else
            let z := launchGo p (forgetReady l.digest r.2)
            (match launchOf p z with
              | some m => putLaunch p { m with stepTick := groveT0 l s } z
              | none => z)
          | _, _ => r.2)
    else
      let z := launchGo p (forgetReady l.digest s)
      match launchOf p z with
      | some m => putLaunch p { m with stepTick := groveT0 l s } z
      | none => z

def execGroveLaunchStart (p : PartId) (s : State) : Host.Outcome State Fault Refusal := .next (groveStart p.val s)

end Sys2Proof.Machine
end

