-- ==== Sys2Proof/Machine/Msg.lean ====
section
/-!
DEFINITION. Messages between packages (R295 to R301, R316, R317): end-to-end numbering, forwarding, requests served for another
package, responses, and atomics diverted by an older I/O die (R328).
-/

namespace Sys2Proof

/-- The header of a message. -/
def Msg.hdr : Msg → MsgHdr
  | .read h => h
  | .write h _ => h
  | .atomic h _ _ _ => h
  | .resp h _ _ _ => h

/-- The granule that begins a message; a RESP has the status of the request where the others have their address. -/
def Msg.headWord (m : Msg) : BitVec 128 :=
  match m with
  | .read h => h.word 1
  | .write h _ => h.word 2
  | .atomic h _ _ _ => h.word 3
  | .resp h _ st _ => { h with addr := BitVec.ofNat 61 st.code }.word 4

/-- The 64-byte blocks that a message's bytes touch. -/
def MsgHdr.blocks (h : MsgHdr) : Nat := (h.addr.toNat % 64 + h.len + 63) / 64

/-- The bytes of payload that a message occupies (R296). -/
def Msg.bytes : Msg → Nat
  | .read _ => 16
  | .write h _ => 16 + 64 * h.blocks
  | .atomic _ _ _ _ => 48
  | .resp h _ _ (.line _) => 16 + 64 * h.blocks
  | .resp _ _ _ (.old _) => 32
  | .resp _ _ _ .none => 16

/-- The bytes that a RESP brings. -/
def RespData.bits (d : RespData) : BitVec 1024 :=
  match d with
  | .none => 0
  | .line v => v
  | .old v => v.setWidth 1024

end Sys2Proof

namespace Sys2Proof.Machine

/-! ## Receiving (R299, R300) -/

/-- The receiving side from a package and channel; numbering starts at 0. -/
def getRx (src chan : Nat) (s : State) : E2eRx :=
  (s.grove.rx.find? fun e => decide (e.src = src) && decide (e.chan = chan)).getD ⟨src, chan, 0, 0⟩

/-- The receiving side replaced. -/
def putRx (e : E2eRx) (s : State) : State :=
  let g := s.grove
  let l := g.rx.filter fun x => !(decide (x.src = e.src) && decide (x.chan = e.chan))
  { s with grove := { g with rx := l ++ [e] } }

/-- Whether a number lies behind the one expected: a duplicate. -/
def behindE2e (n expect : Nat) : Bool := decide ((expect + 2048 - n) % 2048 < 1024) && decide (n ≠ expect)

/-- A message is taken where it carries the number expected; a duplicate is discarded and acknowledged again, and one too early is
discarded. The 64th message not yet acknowledged is acknowledged at once. -/
def takeE2e (h : MsgHdr) (s : State) : Bool × State :=
  let e := getRx h.src.val h.chan.val s
  let n := h.e2e.toNat
  let owe (x : Nat) : Nat := if 64 ≤ x then 0 else x
  if n = e.expect then (true, putRx { e with expect := (n + 1) % 2048, owed := owe (e.owed + 1) } s)
  else if behindE2e n e.expect then (false, putRx { e with owed := owe (e.owed + 1) } s)
  else (false, s)

/-- A request of another package as one under way here (R317): it never has host standing. -/
def farReq (h : MsgHdr) (id : Nat) (write : Bool) (data : BitVec 1024) (atom : Option Atom) (step : BitVec 32)
    (key : BitVec 16) (tick : Nat) : Req :=
  ⟨id, .pkg h.src.val h.slot.val h.bed.toNat, ⟨h.part, false, true⟩, 0, localOf h.addr.toNat, h.len, write, data,
    BitVec.ofNat 128 (2 ^ h.len - 1), atom, step, key, .sent, .ok, 0, tick, false, false, false, none, false, 0, [], false, ⟨false, false, false⟩⟩

/-- A request of another package answered here, to leave as a RESP. -/
def farAnswer (r : Req) (st : Status) (data : Nat) (s : State) : State :=
  { s with net := s.net ++ [{ r with st := .answered, status := st, rdata := BitVec.ofNat 1024 data }] }

/-- A request of another package at its destination (R316): under way here to its stack controller, to its scratchpad or to the CSR window,
each of which judges it. -/
def serveFar (r : Req) (h : MsgHdr) (s : State) : State :=
  let z := depart r s
  let s1 := { z.2 with net := z.2.net ++ [z.1] }
  match placeOf (localOf h.addr.toNat) s with
  | .dram => s1
  | .spad _ _ _ => s1
  | .csr => s1
  | .gone => farAnswer r .dieAbsent 0 s
  | .away => farAnswer r .dieAbsent 0 s

/-- A response reaches the request it answers (R295). -/
def takeResp (id : Nat) (st : Status) (data : RespData) (s : State) : State :=
  match netGet id s with
  | some r => if isLocal r.pkg s || decide (r.st = .answered) then s else complete r st data.bits s
  | none => s

/-- A message at its destination. -/
def serve (m : Msg) (s : State) : State :=
  let (id, s1) := s.takeId
  match m with
  | .read h => serveFar (farReq h id false 0 none 0 0 s.tick) h s1
  | .write h d => serveFar (farReq h id true d none 0 0 s.tick) h s1
  | .atomic h a step key => serveFar (farReq h id true 0 (some a) step key s.tick) h s1
  | .resp _ i st d => takeResp i st d s

/-- Whether a message is an ATOMIC. -/
def isAtomicMsg (m : Msg) : Bool :=
  match m with
  | .atomic _ _ _ _ => true
  | _ => false

/-- A message goes on: forwarded where its destination is another member (R300), else taken and served. -/
def passMsg (m : Msg) (s : State) : State :=
  let h := m.hdr
  if h.dst.val ≠ ownPkg s then
    (if isMember h.dst.val s then incF F.HAL_FWD_BYTES_COUNT 0 0 m.bytes s else s)
  else let z := takeE2e h s; if z.1 then serve m z.2 else z.2

/-- A message arrives at a Halene port (R300, R308, R328): an EXCLUDED package carries none; an ATOMIC that comes or goes by a port of
an older I/O die is diverted, and what follows it in its flow is held. -/
def arrive (n : Nat) (m : Msg) (s : State) : State :=
  if getF F.HAL_GROVE_STATUS_STATE 0 0 s ≠ 2 ∨ getF F.HAL_PORT_STATUS_STATE n 0 s ≠ 3 then s
  else if (isAtomicMsg m && !(forwardsAtomics n s && (decide (m.hdr.dst.val = ownPkg s) || outForwards m.hdr.dst.val m.hdr.chan.val s))) ||
      flowHeld (.come m) s then divert (.come m) s
  else passMsg m s

/-- Whether a message is well formed: 1 to 128 bytes within one line (R295). -/
def MsgOk (h : MsgHdr) : Bool := decide (1 ≤ h.len) && decide (h.addr.toNat % 128 + h.len ≤ 128)

/-- The stop of a message that no such header can describe. -/
def badMsg : Host.Outcome State Fault Refusal := .fault (.illFormed "a message lies within one 128-byte line (R295)")

def execMsgRead (n : PortId) (h : MsgHdr) (s : State) : Host.Outcome State Fault Refusal :=
  if MsgOk h then .next (arrive n.val (.read h) s) else badMsg

def execMsgWrite (n : PortId) (h : MsgHdr) (data : BitVec 1024) (s : State) : Host.Outcome State Fault Refusal :=
  if MsgOk h then .next (arrive n.val (.write h data) s) else badMsg

def execMsgAtomic (n : PortId) (h : MsgHdr) (a : Atom) (step : BitVec 32) (key : BitVec 16) (s : State) :
    Host.Outcome State Fault Refusal :=
  if MsgOk h then .next (arrive n.val (.atomic h a step key) s) else badMsg

/-- The answer of a request of another package leaves as a RESP, numbered and held like any message (R299). -/
def leaveResp (id : Nat) (s : State) : State :=
  match netGet id s with
  | none => s
  | some r =>
    match r.src, r.st with
    | .pkg n _ _, .answered => sendMsg .mgt n id false (netDel id s)
    | _, _ => s

/-- MSG_RESP. -/
def msgResp (n : Nat) (f : RespF) (s : State) : State :=
  match f with
  | .arrive h id st data => arrive n (.resp h id st data) s
  | .leave id => leaveResp id s

def execMsgResp (n : PortId) (f : RespF) (s : State) : Host.Outcome State Fault Refusal := .next (msgResp n.val f s)

/-! ## Acknowledgement and reissue (R299) -/

/-- The messages that wait for room follow while there is some. -/
def sendWaiting (e : E2eTx) (tick : Nat) : E2eTx :=
  let n := 1024 - e.held.length
  (e.waiting.take n).foldl (fun z i => z.send i tick) { e with waiting := e.waiting.drop n }

/-- A cumulative acknowledgement frees the held messages up to its number. -/
def e2eAck (src chan seq : Nat) (s : State) : State :=
  let e := getTx src chan s
  if e.held.any fun x => decide (x.1 = seq) then
    putTx (sendWaiting { e with held := (e.held.dropWhile fun x => decide (x.1 ≠ seq)).drop 1, since := s.tick } s.tick) s
  else s

def execE2eAck (src : PkgId) (chan : Fin 16) (seq : BitVec 11) (s : State) : Host.Outcome State Fault Refusal :=
  .next (e2eAck src.val chan.val seq.toNat s)

/-- Unacknowledged messages are sent again in their order, on the route in force, after a change of route and after 10 µs without
acknowledgement; their requests carry the hold mark of the link. -/
def e2eReissue (dst chan : Nat) (s : State) : State :=
  let e := getTx dst chan s
  if e.held.isEmpty || !(e.due || decide (e.since + 250 ≤ s.tick)) then s
  else markLink (e.held.map Prod.snd)
    (incF F.HAL_REISSUE_COUNT 0 0 e.held.length (putTx { e with since := s.tick, due := false } s))

def execE2eReissue (dst : PkgId) (chan : Fin 16) (s : State) : Host.Outcome State Fault Refusal :=
  .next (e2eReissue dst.val chan.val s)

/-- One microsecond after the last, a cumulative acknowledgement is sent. -/
def e2eAckTimer (src chan : Nat) (s : State) : State :=
  let e := getRx src chan s
  if e.owed = 0 then s else putRx { e with owed := 0 } s

def execE2eAckTimer (src : PkgId) (chan : Fin 16) (s : State) : Host.Outcome State Fault Refusal :=
  .next (e2eAckTimer src.val chan.val s)

/-! ## Diverted atomics (R328) -/

/-- What is diverted or held goes on: a message is taken or forwarded, a request sent. -/
def passDiverted (x : Diverted) (s : State) : State :=
  match x with
  | .come m => passMsg m s
  | .go dst chan id _ => putTx ((getTx dst chan s).send id s.tick) s

/-- Whether what is diverted or held is an atomic. -/
def Diverted.isAtomic (x : Diverted) : Bool :=
  match x with
  | .come m => isAtomicMsg m
  | .go _ _ _ a => a

/-- What a diverted atomic no longer holds goes on; another atomic holds its own flow. -/
def releaseDiverted (rest : List Diverted) (s : State) : State :=
  match rest with
  | [] => s
  | x :: r => releaseDiverted r (if x.isAtomic || flowHeld x s then divert x s else passDiverted x s)

/-- The management controller performs the oldest diverted atomic at its home, or sends it on. -/
def atomicDivert (s : State) : State :=
  match s.grove.diverted with
  | [] => s
  | x :: r => releaseDiverted r (passDiverted x { s with grove := { s.grove with diverted := [] } })

def execAtomicDivert (s : State) : Host.Outcome State Fault Refusal := .next (atomicDivert s)

end Sys2Proof.Machine
end

