-- ==== Sys2Proof/Machine/Cards.lean ====
section
/-!
DEFINITION. Grove cards, membership and the state epoch (R300, R302 to R304, R308, R309).
-/

namespace Sys2Proof

/-- The bytes of a serial with the first the most significant, for a bytewise comparison. -/
def serialKey (v : BitVec 128) : Nat := (List.range 16).foldl (fun z i => z * 256 + v.toNat / 256 ^ i % 256) 0

/-- The rank of a card, lower first. -/
def Card.rank (c : Card) : Nat := (if c.req.toNat % 512 = 0 then 512 else c.req.toNat % 512) * 2 ^ 128 + serialKey c.serial

/-- The flags of a card. -/
def Card.healthy (c : Card) : Bool := c.flags.getLsbD 0
/-- STEADY. -/
def Card.steady (c : Card) : Bool := c.flags.getLsbD 2
/-- MEMBER. -/
def Card.member (c : Card) : Bool := c.flags.getLsbD 3

end Sys2Proof

namespace Sys2Proof.Machine

/-! ## The package's own card (R304) -/

/-- The package serial, zero with no identity. -/
def ownSerial (s : State) : BitVec 128 := (s.ident.map (·.serial)).getD 0

/-- HEALTHY: the controller's checks pass, the package has an identity, and a port is UP. -/
def healthy (s : State) : Bool :=
  !bitF F.MGT_HEALTH_REDUCED 0 0 s && !bitF F.MGT_ERR_STATUS_RESTARTING 0 0 s && s.ident.isSome &&
  (List.range 16).any fun n => decide (portState n s = 3)

/-- STEADY: every partition of HAL_LOCK_PARTS has STEADY set (R349). -/
def cardSteady (s : State) : Bool :=
  (List.range 32).all fun p => !(getF F.HAL_LOCK_PARTS_PARTS 0 0 s).testBit p || bitF F.PWR_PART_STEADY 0 p s

/-- The PAYLOAD_DIGEST of the image that runs, zero with none. -/
def imageDigest (s : State) : BitVec 512 := (s.mgt.image.map (·.digest)).getD 0

/-- The configuration digest (R304): the image digest, the REVISION of slots 0 to 15 a byte each, FEATURES, HAL_LOCK_CFG in four bytes
and the STEADY flag in one. -/
def configDigest (s : State) : BitVec 512 :=
  let revs := (List.range 16).foldl (fun z d => z + getF F.MGT_DIE_INFO_REVISION d 0 s * 256 ^ d) 0
  shake256 ((imageDigest s).toNat + revs * 256 ^ 64 + getF F.D2D_PKG_FEATURES_BITMAP 0 0 s * 256 ^ 80 +
    (readReg .HAL_LOCK_CFG 0 0 s).toNat % 2 ^ 32 * 256 ^ 88 + (if cardSteady s then 1 else 0) * 256 ^ 92) 93

/-- Bits put together, the first at bit 0. -/
def bitsOf : List Bool → Nat
  | [] => 0
  | b :: t => (if b then 1 else 0) + 2 * bitsOf t

/-- FLAGS of the card. -/
def cardFlags (s : State) : BitVec 8 :=
  BitVec.ofNat 8 (bitsOf [healthy s, bitF F.HAL_TIME_STATUS_EXT_10M 0 0 s, cardSteady s,
    decide (getF F.HAL_GROVE_STATUS_STATE 0 0 s = 2), bitF F.HAL_GROVE_STATUS_TIMEKEEPER 0 0 s,
    bitF F.HAL_GROVE_STATUS_LOCKED 0 0 s, bitF F.HAL_GROVE_STATUS_STALE 0 0 s])

/-- The sequence of the charter held. -/
def charterSeq (s : State) : BitVec 32 := (s.grove.charter.map (·.seq)).getD 0

/-- The package's card. -/
def ownCard (s : State) : Card :=
  { major := 1, minor := 0, pkg := BitVec.ofNat 16 (ownPkg s), req := BitVec.ofNat 16 (getF F.HAL_GROVE_CFG_REQ_NUM 0 0 s),
    flags := cardFlags s, agree := BitVec.ofNat 8 (agreeA s), slip := BitVec.ofNat 8 (getF F.HAL_LOCK_CFG_SLIP_TICKS 0 0 s),
    depth := BitVec.ofNat 8 (getF F.HAL_GROVE_STATUS_DEPTH 0 0 s),
    portsUp := BitVec.ofNat 16 (bitsOf ((List.range 16).map fun n => decide (portState n s = 3))),
    features := BitVec.ofNat 64 (getF F.D2D_PKG_FEATURES_BITMAP 0 0 s),
    epoch := BitVec.ofNat 64 (getF F.HAL_STATE_EPOCH_EPOCH 0 0 s), time := BitVec.ofNat 64 s.tick,
    residual := BitVec.ofNat 32 (getF F.HAL_TIME_STATUS_RESIDUAL 0 0 s), charter := charterSeq s, serial := ownSerial s,
    digest := configDigest s, counter := BitVec.ofNat 11 s.grove.counter }

/-- CARD_SEND: every millisecond the card leaves on every UP port. -/
def cardSend (s : State) : State :=
  if (List.range 16).any fun n => decide (portState n s = 3) then flood (.card (ownCard s)) s else s

def execCardSend (s : State) : Host.Outcome State Fault Refusal := .next (cardSend s)

/-! ## Flooding (R300) -/

/-- Whether message number `n` is the number `last` or behind it. -/
def oldCounter (n last : Nat) : Bool := decide ((last + 2048 - n) % 2048 < 1024)

/-- A control message received on a port: taken once, by its origin and counter, and sent on by every other UP port that faces a
member. Origins without a number are told apart by their serial. -/
def takeCtl (port key counter : Nat) (f : Flood) (s : State) : Bool × State :=
  let g := s.grove
  if portState port s ≠ 3 then (false, s)
  else if (match look g.seen key with
    | some last => oldCounter counter last
    | none => false) then (false, s)
  else
    let on := (List.range 16).any fun n =>
      decide (n ≠ port) && decide (portState n s = 3) && isMember (getF F.HAL_PORT_STATUS_PEER n 0 s) s
    (true, { s with grove := { g with seen := lput g.seen key counter, floods := if on then g.floods ++ [f] else g.floods } })

/-- A control message whose header names its origin. -/
def takeHdr (h : CtlHdr) (f : Flood) (s : State) : Bool × State :=
  if h.src.val = ownPkg s then (false, s) else takeCtl h.port.val h.src.val h.counter.toNat f s

/-! ## Launches that a lost member ends (R309, R316) -/

/-- Requests under way toward packages that are no longer members end with GROVE_EXCLUDED, and what is held for them is dropped. -/
def dropRemote (gone : Nat → Bool) (s : State) : State :=
  let l := s.net.filter fun r => !isLocal r.pkg s && gone r.pkg && decide (r.st ≠ .answered)
  let s1 := l.foldl (fun z r => complete r .groveExcluded 0 z) s
  let far (r : Req) : Bool := match r.src with
    | .pkg n _ _ => gone n
    | _ => false
  let g := s1.grove
  { s1 with net := s1.net.filter (fun r => !far r),
            grove := { g with
              tx := g.tx.filter (fun e => !gone e.dst), rx := g.rx.filter (fun e => !gone e.src),
              diverted := g.diverted.filter (fun x => !(gone (x.flow (ownPkg s)).1 || gone (x.flow (ownPkg s)).2.1)) } }

/-- The grove launches that include a lost package end with GROVE_EXCLUDED; locked partitions roll back. -/
def endGrove (lost : Nat → Bool) (s : State) : State :=
  (List.range 32).foldl (fun z p =>
    match launchOf p z with
    | none => z
    | some l =>
      if l.grove && l.span.any lost then
        (if l.locked then rollbackPart p .groveExcluded z else failLaunch p .groveExcluded z)
      else z) s

/-! ## Exclusion and leaving (R308, R309) -/

/-- The package is no member any more; its grove launches end and what it sent to other packages returns. -/
def leaveGrove (s : State) : State :=
  let own := ownPkg s
  let s1 := endGrove (fun _ => true) s
  let s2 := [F.HAL_GROVE_STATUS_STATE, F.HAL_GROVE_STATUS_LOCKED, F.HAL_GROVE_STATUS_STALE, F.HAL_GROVE_STATUS_TIMEKEEPER,
    F.HAL_GROVE_STATUS_DIGEST_MISMATCH, F.HAL_GROVE_STATUS_PKG, F.HAL_GROVE_STATUS_TK, F.HAL_GROVE_STATUS_MEMBERS,
    F.HAL_GROVE_STATUS_AGREE, F.HAL_GROVE_STATUS_DEPTH].foldl (fun z f => setF f 0 0 0 z) s1
  let s3 := (List.range 8).foldl (fun z i => setF F.HAL_MEMBERS_BITS 0 i 0 z) s2
  let s4 := (List.range 16).foldl (fun z n => setF F.HAL_PORT_STATUS_TIMING n 0 0 z) s3
  dropRemote (fun q => decide (q ≠ own))
    { s4 with grove := { s4.grove with charter := none, next := none, lockAt := none, unlock := false } }

/-- The package is EXCLUDED with a cause (R308); with BYPASS_ON_EXCLUDE every pair closes (R289). -/
def exclude (cause : Nat) (s : State) : State :=
  let s1 := setF F.HAL_GROVE_STATUS_EXCL_CAUSE 0 0 cause (setF F.HAL_GROVE_STATUS_STATE 0 0 3 (leaveGrove s))
  if bitF F.HAL_GROVE_CFG_BYPASS_ON_EXCLUDE 0 0 s1 then (List.range 8).foldl (fun z k => bypassSwitch k true z) s1 else s1

/-- The package forms or joins a grove (R305), unless it has no identity or is not healthy (R308). -/
def joinGrove (s : State) : State :=
  let st := getF F.HAL_GROVE_STATUS_STATE 0 0 s
  if st = 1 ∨ st = 2 then s
  else if !healthy s then exclude 6 s
  else
    setF F.HAL_GROVE_STATUS_EXCL_CAUSE 0 0 0 (setF F.HAL_GROVE_STATUS_STATE 0 0 1
      { s with grove := { s.grove with newAt := s.tick } })

def execJoin (s : State) : Host.Outcome State Fault Refusal := .next (joinGrove s)

/-- HAL_GROVE_CMD.LEAVE (R309). -/
def leave (s : State) : State := if getF F.HAL_GROVE_STATUS_STATE 0 0 s = 2 then leaveGrove s else s

def execLeave (s : State) : Host.Outcome State Fault Refusal := .next (leave s)

/-! ## Rank and author (R305) -/

/-- The cards seen in the last 10 ms, with the package's own (R309). -/
def liveCards (s : State) : List Card :=
  ownCard s :: (s.grove.cards.filter fun c => decide (s.tick < c.tick + 250000)).map (·.card)

/-- The card of lowest rank of a list. -/
def lowestRank (l : List Card) : Option Card :=
  l.foldl (fun z c => match z with
    | none => some c
    | some y => if c.rank < y.rank then some c else some y) none

/-- The author: the healthy package of lowest rank among the cards seen. -/
def author (s : State) : Option Card := lowestRank ((liveCards s).filter (·.healthy))

/-! ## CARD -/

/-- A card recorded by its serial; the first of a serial is new. -/
def noteCard (n : Nat) (c : Card) (s : State) : State :=
  let g := s.grove
  let new := g.cards.all fun x => decide (x.card.serial ≠ c.serial)
  { s with grove := { g with
      cards := g.cards.filter (fun x => decide (x.card.serial ≠ c.serial)) ++ [⟨c, s.tick, n⟩],
      newAt := if new then s.tick else g.newAt } }

/-- DIGEST_MISMATCH: some member's DIGEST differs (R308). -/
def digestMismatch (s : State) : State :=
  let own := configDigest s
  let bad := s.grove.cards.any fun c => isMember c.card.pkg.toNat s && decide (c.card.digest ≠ own)
  if getF F.HAL_GROVE_STATUS_STATE 0 0 s = 2 then setF F.HAL_GROVE_STATUS_DIGEST_MISMATCH 0 0 (if bad then 1 else 0) s else s

/-- The grove's epoch after a member is lost: the author's number and the next count (R309). -/
def nextEpoch (own epoch : Nat) : Nat := own % 512 * 2 ^ 52 + (epoch + 1) % 2 ^ 52

/-- Whether this package is to author the next charter: the healthy member of lowest number among those still heard. -/
def isAuthor (s : State) : Bool :=
  healthy s && (if getF F.HAL_GROVE_STATUS_STATE 0 0 s = 2 then
    s.grove.cards.all fun c => !(isMember c.card.pkg.toNat s && c.card.healthy && decide (c.card.pkg.toNat < ownPkg s))
  else match author s with
    | some c => decide (c.serial = ownSerial s)
    | none => false)

/-- A member is lost (R309): the grove launches that included it end, and the author's epoch advances. -/
def lostMember (q : Nat) (s : State) : State :=
  let s1 := endGrove (fun x => decide (x = q))
    { s with grove := { s.grove with cards := s.grove.cards.filter fun c => decide (c.card.pkg.toNat ≠ q) } }
  if isAuthor s1 then
    setF F.HAL_STATE_EPOCH_EPOCH 0 0 (nextEpoch (ownPkg s1) (getF F.HAL_STATE_EPOCH_EPOCH 0 0 s1)) s1
  else s1

/-- MEMBER_LOST: a member whose cards have stopped for 10 ms. -/
def memberLost (q : Nat) (s : State) : State :=
  let silent := s.grove.cards.any fun c => decide (c.card.pkg.toNat = q) && decide (c.tick + 250000 ≤ s.tick)
  if isMember q s && decide (q ≠ ownPkg s) && silent then lostMember q s else s

def execMemberLost (q : PkgId) (s : State) : Host.Outcome State Fault Refusal := .next (memberLost q.val s)

/-- Whether a card says that its package has left: it was sent after the charter in force took effect, without MEMBER. -/
def saysLeft (c : Card) (s : State) : Bool :=
  isMember c.pkg.toNat s && !c.member &&
  (match s.grove.charter with
    | some h => decide ((c.time.toNat + 2 ^ 32 - h.effective.toNat) % 2 ^ 32 < 2 ^ 31)
    | none => false)

/-- What a card says to a package that forms, joins or belongs to a grove (R305, R308). -/
def judgeCard (c : Card) (s : State) : State :=
  let st := getF F.HAL_GROVE_STATUS_STATE 0 0 s
  if saysLeft c s then lostMember c.pkg.toNat s
  else if st = 0 ∧ bitF F.HAL_GROVE_CFG_JOIN_AUTO 0 0 s = true then joinGrove s
  else if (st = 1 ∨ st = 2) ∧ c.major ≠ 1 ∧ (author s).any (fun a => decide (a.serial = c.serial)) then exclude 1 s
  else digestMismatch s

/-- CARD: a card arrives at a port; the package's own returns and is dropped, and one of another package with the same SERIAL
excludes both (R308). -/
def card (n : Nat) (c : Card) (s : State) : State :=
  let mine := s.ident.isSome && decide (c.serial = ownSerial s)
  if mine && decide (c.pkg.toNat = ownPkg s) && oldCounter c.counter.toNat s.grove.counter then s
  else
    let key := if c.pkg = 0 then 512 + c.serial.toNat else c.pkg.toNat
    let z := takeCtl n key c.counter.toNat (.card c) s
    if !z.1 then s
    else if mine then exclude 5 z.2
    else judgeCard c (noteCard n c z.2)

def execCard (n : PortId) (c : Card) (s : State) : Host.Outcome State Fault Refusal := .next (card n.val c s)

/-! ## Time (R302, R303, R435) -/

/-- One tick in picoseconds. -/
def tickPs : Int := 40000

/-- TIME: the offset is half the difference of the one-way times, and the residual adds the parent's; three measurements above a tick,
100 ms or more after joining, exclude the package (R308). -/
def timeExchange (t : TimeF) (s : State) : State :=
  if getF F.HAL_GROVE_STATUS_STATE 0 0 s ≠ 2 ∨ bitF F.HAL_GROVE_STATUS_TIMEKEEPER 0 0 s = true then s
  else
    let res := (t.there - t.back) / 2 + t.parent
    let big := decide (tickPs < res) || decide (res < -tickPs)
    let g := s.grove
    let bad := if big && decide (g.joinedAt + 2500000 ≤ s.tick) then g.residualBad + 1 else 0
    let s1 := setF F.HAL_TIME_STATUS_DPLL_LOCK 0 0 (if big then 0 else 1)
      (setF F.HAL_TIME_STATUS_RESIDUAL 0 0 (res % 2 ^ 32).toNat { s with grove := { g with residual := res, residualBad := bad } })
    if 3 ≤ bad then exclude 2 s1 else s1

def execTime (t : TimeF) (s : State) : Host.Outcome State Fault Refusal := .next (timeExchange t s)

/-- EXT_TIME_CHANGE: TK_10M or TK_PPS counts as present or absent (R435); a timekeeper without its 10 MHz input is in holdover
(R302). -/
def extTime (pps present : Bool) (s : State) : State :=
  let v := if present then 1 else 0
  if !s.pins.aux then s
  else if pps then setF F.HAL_TIME_STATUS_EXT_PPS 0 0 v s
  else
    let was := bitF F.HAL_TIME_STATUS_EXT_10M 0 0 s
    let s1 := setF F.HAL_TIME_STATUS_EXT_10M 0 0 v s
    if present then setF F.HAL_TIME_STATUS_HOLDOVER 0 0 0 s1
    else if was && bitF F.HAL_GROVE_STATUS_TIMEKEEPER 0 0 s then setF F.HAL_TIME_STATUS_HOLDOVER 0 0 1 s1
    else s1

def execExtTimeChange (pps present : Bool) (s : State) : Host.Outcome State Fault Refusal := .next (extTime pps present s)

end Sys2Proof.Machine
end

