-- ==== Sys2Proof/Machine/Charter.lean ====
section
/-!
DEFINITION. Charters (R301, R305 to R307, R309): numbering, links, the agreement delay, and adoption.
-/

namespace Sys2Proof.Machine

/-! ## Numbering (R305) -/

/-- The lowest number above the author's that no package holds, to 511. -/
def freeNumber (author : Nat) (held : List Nat) : Option Nat :=
  (List.range 512).find? fun n => decide (author < n) && !held.contains n

/-- A card put into a list ordered by rank. -/
def insCard (c : Card) : List Card → List Card
  | [] => [c]
  | x :: t => if c.rank < x.rank then c :: x :: t else x :: insCard c t

/-- Cards in the order of their rank. -/
def byRank (l : List Card) : List Card := l.foldl (fun z c => insCard c z) []

/-- The numbers of the packages in order of rank, the author's first; a package for which no number remains gets none. -/
def assign (author : Nat) (done : List (Card × Nat)) : List Card → List (Card × Nat)
  | [] => done
  | c :: t =>
    let held := author :: done.map (·.2)
    let r := c.req.toNat % 512
    if r ≠ 0 ∧ !held.contains r then assign author (done ++ [(c, r)]) t
    else match freeNumber author held with
      | some n => assign author (done ++ [(c, n)]) t
      | none => assign author done t

/-- The cards that may join (R308): the protocol's major version, healthy, one card to a serial. -/
def joiners (own : Card) (l : List Card) : List Card :=
  l.filter fun c => decide (c.major = own.major) && c.healthy && decide (c.serial ≠ own.serial)

/-! ## Links and the agreement delay (R306, R307) -/

/-- The number of the member with a serial, 0 for none. -/
def numberOf (ms : List (Card × Nat)) (serial : BitVec 128) : Nat := ((ms.find? fun e => decide (e.1.serial = serial)).map (·.2)).getD 0

/-- LINKS of a member: the neighbour on each port. -/
def linksOf (ws : List Wire) (ms : List (Card × Nat)) (serial : BitVec 128) : BitVec 256 :=
  BitVec.ofNat 256 ((List.range 16).foldl (fun z n =>
    z + (match ws.find? fun w => decide (w.a = serial) && decide (w.port.val = n) with
      | some w => numberOf ms w.b
      | none => 0) * 2 ^ (16 * n)) 0)

/-- The delay of the link from one member to a neighbour: the largest D_port of the ports that face it. -/
def linkDelay (ws : List Wire) (ms : List (Card × Nat)) (a b : Nat) : Nat :=
  (ws.filter fun w => decide (numberOf ms w.a = a) && decide (numberOf ms w.b = b)).foldl (fun z w => max z w.delay) 0

/-- The delay along the shortest path between two members, with 20 ns for each package in between. -/
def pathDelay (c : Charter) (ws : List Wire) (ms : List (Card × Nat)) (b : Nat) : Nat → Nat → Nat
  | 0, _ => 0
  | f + 1, a =>
    if a = b then 0
    else match nextHop c a b with
      | none => 0
      | some q => linkDelay ws ms a q + (if q = b then 0 else 20) + pathDelay c ws ms b f q

/-- L: the largest delay over every ordered pair of members. -/
def largestDelay (c : Charter) (ws : List Wire) (ms : List (Card × Nat)) : Nat :=
  ms.foldl (fun z x => ms.foldl (fun y w => max y (pathDelay c ws ms w.2 512 x.2)) z) 0

/-- A: the larger of 2 and ceil((L + 40 ns) / 40 ns). -/
def agreeDelay (l : Nat) : Nat := max 2 ((l + 40 + 39) / 40)

/-! ## CHARTER_ISSUE -/

/-- The member entries of a charter. -/
def entries (ws : List Wire) (ms : List (Card × Nat)) : List Member :=
  ms.map fun e => ⟨e.1.serial, BitVec.ofNat 16 e.2, e.1.flags.setWidth 16, linksOf ws ms e.1.serial⟩

/-- The charter that an author writes: members farther than 12 hops from it are left out (R303, R308). -/
def makeCharter (own : Card) (others : List Card) (ws : List Wire) (seq : BitVec 32) (tick : Nat) : Charter :=
  let num := if own.req.toNat % 512 = 0 then 1 else own.req.toNat % 512
  let ms := (own, num) :: assign num [] (byRank (joiners own others))
  let c : Charter := ⟨{ own with pkg := BitVec.ofNat 16 num, charter := seq }, seq, BitVec.ofNat 32 (tick + 25000), entries ws ms⟩
  let near := ms.filter fun e => (hopsTo c num e.2).any fun d => decide (d ≤ 12)
  let c1 := { c with members := entries ws near }
  { c1 with author := { c1.author with agree := BitVec.ofNat 8 (min 255 (agreeDelay (largestDelay c1 ws near))) } }

/-- CHARTER_ISSUE: the author, 20 ms after the last new card, numbers the packages and floods a charter. -/
def charterIssue (ws : List Wire) (s : State) : State :=
  let st := getF F.HAL_GROVE_STATUS_STATE 0 0 s
  let g := s.grove
  if !(decide (st = 1) || decide (st = 2)) || !isAuthor s || decide (s.tick < g.newAt + 500000) then s
  else
    let held := (g.next.map (·.seq)).getD (charterSeq s)
    let c := makeCharter (ownCard s) (liveCards s) ws (held + 1) s.tick
    flood (.charter c) { s with grove := { g with next := some c } }

def execCharterIssue (ws : List Wire) (s : State) : Host.Outcome State Fault Refusal := .next (charterIssue ws s)

/-! ## CHARTER -/

/-- Whether a charter supersedes another: a later one of the same author, or one of an author of lower rank, or of any author once the
other's cards have stopped (R306, R309). -/
def supersedes (c old : Charter) (s : State) : Bool :=
  if c.author.serial = old.author.serial then decide (old.seq < c.seq)
  else decide (c.author.rank < old.author.rank) || !(liveCards s).any fun x => decide (x.serial = old.author.serial)

/-- CHARTER: recorded for adoption at EFFECTIVE. -/
def charterIn (h : CtlHdr) (c : Charter) (s : State) : State :=
  let key := if h.src.val = 0 then 512 + c.author.serial.toNat else h.src.val
  let st := getF F.HAL_GROVE_STATUS_STATE 0 0 s
  if c.author.serial = ownSerial s then s
  else
    let z := takeCtl h.port.val key h.counter.toNat (.charter c) s
    if !z.1 || !(decide (st = 1) || decide (st = 2)) then z.2
    else
      let g := z.2.grove
      match (match g.next with
        | some x => some x
        | none => g.charter) with
      | some old => if supersedes c old z.2 then { z.2 with grove := { g with next := some c } } else z.2
      | none => { z.2 with grove := { g with next := some c } }

def execCharter (h : CtlHdr) (c : Charter) (s : State) : Host.Outcome State Fault Refusal := .next (charterIn h c s)

/-! ## CHARTER_EFFECTIVE -/

/-- Why a charter leaves this package out (R305, R308): VERSION, IDENTITY, or no number. -/
def outCause (c : Charter) (s : State) : Nat :=
  if c.author.major ≠ 1 then 1 else if !healthy s then 6 else if c.members.length < 511 then 3 else 4

/-- Grove time stepped to the timekeeper's at joining (R302), with the ticks of the cards seen. -/
def stepTime (c : Charter) (s : State) : State :=
  match s.grove.cards.find? fun x => decide (x.card.serial = c.author.serial) with
  | none => s
  | some x =>
    let d : Int := (x.card.time.toNat : Int) - x.tick
    let g := s.grove
    { s with timeOff := s.timeOff + d,
             grove := { g with newAt := (g.newAt + d).toNat, cards := g.cards.map fun y => { y with tick := (y.tick + d).toNat } } }

/-- The epoch of a member under a new charter (R309): where members are lost from the grove that the author and this member share, both
in its epoch, it follows the author's; else it is unchanged. -/
def charterEpoch (c : Charter) (own : Nat) (lost : Bool) : Nat := if lost then c.author.epoch.toNat else own

/-- Neighbours and the timing port by the charter in force (R303). -/
def chartPorts (c : Charter) (m : Member) (s : State) : State :=
  let s1 := (List.range 16).foldl (fun z n =>
    let q := m.links.toNat / 2 ^ (16 * n) % 512
    if portState n z = 3 ∧ q ≠ 0 then setF F.HAL_PORT_STATUS_PEER n 0 q z else z) s
  let hop := nextHop c m.pkg.toNat c.author.pkg.toNat
  let first := match hop with
    | some q => (portGroup q s1).head?
    | none => none
  (List.range 16).foldl (fun z n => setF F.HAL_PORT_STATUS_TIMING n 0 (if first = some n then 1 else 0) z) s1

/-- The registers of a member; the timekeeper's residual is 0 (R303). -/
def memberRegs (c : Charter) (m : Member) (s : State) : State :=
  let own := m.pkg.toNat
  let tk := c.author.pkg.toNat
  let s := if own = tk then setF F.HAL_TIME_STATUS_RESIDUAL 0 0 0 { s with grove := { s.grove with residual := 0 } } else s
  let req := getF F.HAL_GROVE_CFG_REQ_NUM 0 0 s
  let sets : List (Fld × Nat) := [(F.HAL_GROVE_STATUS_STATE, 2), (F.HAL_GROVE_STATUS_PKG, own), (F.HAL_GROVE_STATUS_TK, tk),
    (F.HAL_GROVE_STATUS_TIMEKEEPER, if own = tk then 1 else 0), (F.HAL_GROVE_STATUS_MEMBERS, c.members.length),
    (F.HAL_GROVE_STATUS_AGREE, c.author.agree.toNat), (F.HAL_GROVE_STATUS_DEPTH, (hopsTo c own tk).getD 0),
    (F.HAL_GROVE_STATUS_EXCL_CAUSE, 0)]
  let s1 := sets.foldl (fun z e => setF e.1 0 0 e.2 z) s
  let s2 := (List.range 8).foldl (fun z i =>
    setF F.HAL_MEMBERS_BITS 0 i (bitsOf ((List.range 64).map fun j => c.members.any fun x => decide (x.pkg.toNat = 64 * i + j))) z) s1
  flagIf (decide (req ≠ 0) && decide (req ≠ own)) F.HAL_GROVE_STATUS_NUM_CONFLICT 0 0 s2

/-- A charter adopted by a package that it names: its routes, A and σ change, members it no longer names are lost, and messages held
are reissued on the new routes (R299, R306, R309). -/
def adopt (c : Charter) (m : Member) (s0 : State) : State :=
  let joins := decide (getF F.HAL_GROVE_STATUS_STATE 0 0 s0 ≠ 2)
  let old := memberList s0
  let s := if joins && decide (m.pkg ≠ c.author.pkg) then stepTime c s0 else s0
  let gone (q : Nat) : Bool := old.contains q && !c.members.any fun x => decide (x.pkg.toNat = q)
  let own := getF F.HAL_STATE_EPOCH_EPOCH 0 0 s
  let shared := old.contains c.author.pkg.toNat && !bitF F.HAL_GROVE_STATUS_STALE 0 0 s
  let ep := charterEpoch c own (shared && old.any gone)
  let s1 := memberRegs c m (endGrove gone s)
  let s2 := setF F.HAL_GROVE_STATUS_STALE 0 0 (if ep = c.author.epoch.toNat then 0 else 1) (setF F.HAL_STATE_EPOCH_EPOCH 0 0 ep s1)
  let g := s2.grove
  let s3 := { s2 with grove := { g with
      charter := some c, next := none, joinedAt := if joins then s2.tick else g.joinedAt,
      residualBad := if joins then 0 else g.residualBad } }
  let s4 := dropRemote gone (chartPorts c m s3)
  digestMismatch (s4.grove.tx.foldl (fun z e => e2eReissue e.dst e.chan z) (groupsChanged (incF F.HAL_CHARTERS_COUNT 0 0 1 s4)))

/-- CHARTER_EFFECTIVE: at EFFECTIVE the charter held is adopted; a package that it leaves out is EXCLUDED. -/
def charterEffective (s : State) : State :=
  match s.grove.next with
  | none => s
  | some c =>
    if 2 ^ 31 ≤ (s.tick + 2 ^ 32 - c.effective.toNat) % 2 ^ 32 then s
    else match c.members.find? fun m => decide (m.serial = ownSerial s) with
      | some m => adopt c m s
      | none => exclude (outCause c s) s

def execCharterEffective (s : State) : Host.Outcome State Fault Refusal := .next (charterEffective s)

/-- HAL_GROVE_CMD.ADOPT (R309): a STALE member takes the grove's epoch, while no grove launch runs. -/
def adoptEpoch (s : State) : State :=
  let busy := (List.range 32).any fun p => (launchOf p s).any (·.grove)
  if !bitF F.HAL_GROVE_STATUS_STALE 0 0 s || busy then s
  else
    let card := (tkCard s).map (·.epoch)
    match card <|> (s.grove.charter.map fun c => c.author.epoch) with
    | some e => setF F.HAL_GROVE_STATUS_STALE 0 0 0 (setF F.HAL_STATE_EPOCH_EPOCH 0 0 e.toNat s)
    | none => s

def execAdopt (s : State) : Host.Outcome State Fault Refusal := .next (adoptEpoch s)

end Sys2Proof.Machine
end

