-- ==== Sys2Proof/Machine/Fallback.lean ====
section
/-!
DEFINITION. Fallback sets (R222 to R227): the decision tick, the agreement tick, the fallback log, and replay.
-/

namespace Sys2Proof.Machine

/-- Whether a move belongs to a fallback set. -/
def Move.inSet (m : Move) (group dec : Nat) : Bool := m.r.hasFb && decide (m.r.fbGroup = group) && decide (m.r.decide = dec)

/-- Whether a program is one of the launch of partition `p` in step `step`. -/
def Prog.inStep (q : Prog) (p step : Nat) : Bool := decide (q.part.val = p) && q.desc.isNone && decide (q.step.toNat = step)

/-- Whether a move writes anything: a NOP and a PREFETCH do not. -/
def MoveRec.writes (r : MoveRec) : Bool := r.kind != 0 && r.kind != 6

/-- Whether a move's primary writes are not all performed, or it has failed (R222). -/
def Move.isLate (m : Move) : Bool := m.bad.isSome || (m.r.writes && !m.ended && !m.performed)

/-- The set of a launch in a step, if its decision tick has passed. -/
def Launch.fbSet (l : Launch) (step group dec : Nat) : Option FbSet :=
  l.decided.find? fun x => decide (x.step = step) && decide (x.group = group) && decide (x.decide = dec)

/-- Whether two sets are the same set. -/
def FbSet.same (x y : FbSet) : Bool := x.step == y.step && x.group == y.group && x.decide == y.decide

/-- A set of a launch replaced, or added. -/
def Launch.putSet (l : Launch) (x : FbSet) : Launch := { l with decided := (l.decided.filter fun y => !x.same y) ++ [x] }

/-- The tick on which a step of a launch began, if the launch has begun it. -/
def Launch.began (l : Launch) (step : Nat) : Option Nat :=
  if step = l.step then some l.stepTick else (look l.past step).map (·.1)

/-- The moves of a set on a bed changed by `f`. -/
def mapSet (p step group dec : Nat) (f : Move → Move) (b : Nat) (s : State) : State :=
  let k := s.bed b
  let one (m : Move) : Move := if m.inSet group dec && m.undecided then f m else m
  s.putBed b { k with progs := k.progs.map fun q => if q.inStep p step then { q with moves := q.moves.map one } else q }

/-- Whether a program holds a move of a set of a step that is not performed: one read, or one whose record memory still holds. -/
def Prog.lateIn (q : Prog) (b p step group dec : Nat) (s : State) : Bool :=
  q.inStep p step && !q.stop && q.failed.isNone &&
  (q.moves.any (fun m => m.inSet group dec && m.undecided && m.isLate) ||
   (q.unread b (fun m => m.inSet group dec && m.isLate) s).isSome)

/-- Whether a bed reports a set late (R222). -/
def bedLate (p step group dec b : Nat) (s : State) : Bool :=
  let k := s.bed b
  (k.progs.any fun q => q.lateIn b p step group dec s) || k.armed.any fun q => (q.sized b s).lateIn b p step group dec s

/-- Whether a bed holds a move of a set that awaits its decision. -/
def bedHolds (p step group dec b : Nat) (s : State) : Bool :=
  let k := s.bed b
  let one (q : Prog) : Bool := q.inStep p step &&
    (q.moves.any (fun m => m.inSet group dec && m.undecided) || (q.unread b (fun m => m.inSet group dec) s).isSome)
  (k.progs.any one) || k.armed.any fun q => one (q.sized b s)

/-! ## Taking the fallback (R223) -/

/-- The fallback of a set taken on a bed. -/
def fallBed (p step group dec b : Nat) (s : State) : State :=
  let n := ((s.bed b).progs.flatMap fun q =>
    if q.inStep p step then q.moves.filter fun m => m.inSet group dec && m.undecided else []).length
  if n = 0 then s else tookFallback b p n (mapSet p step group dec Move.fallen b s)

/-- A set decided: every move of it falls back, or keeps its primary. -/
def applySet (p : Nat) (l : Launch) (step group dec : Nat) (fall : Bool) (s : State) : State :=
  if fall then l.bedList.foldl (fun z b => fallBed p step group dec b z) s
  else l.bedList.foldl (fun z b => mapSet p step group dec (fun m => { m with fb := .primary }) b z) s

/-! ## The log (R226, R227) -/

/-- A taken fallback written to the log, or counted as dropped when the log is full. -/
def logFallback (p : Nat) (l : Launch) (x : FbSet) (pkgs : Nat) (s : State) : State :=
  if l.fbLog = 0 ∨ l.replayLog ≠ 0 then s
  else if l.fbCap ≤ l.fbCount then askLog p (l.fbLog + 4) 4 (l.fbDropped + 1) (putLaunch p { l with fbDropped := l.fbDropped + 1 } s)
  else
    let e := x.step + at0 4 x.group + at0 6 x.decide + at0 8 (min 65535 x.lateBeds) + at0 0xA pkgs + at0 0xC (s.tick % 2 ^ 32)
    askLog p l.fbLog 4 (l.fbCount + 1)
      (askLog p (l.fbLog + 16 + 16 * l.fbCount) 16 e (putLaunch p { l with fbCount := l.fbCount + 1 } s))

/-- Whether the replay log holds an entry for a set: none while it cannot be read. A log that cannot be read at all ends the launch with the
status of its failure (DESIGN CHOICE, log entry 100). -/
def replayHas (p : Nat) (l : Launch) (step group dec : Nat) (s : State) : Option Bool × State :=
  let v := logVia p (0x1100 + p)
  let h := v.getRange l.replayLog 16 s
  match h.1 with
  | .wait => (none, h.2)
  | .bad st => (none, v.done (failLaunch p st h.2))
  | .ok d =>
    let n := cut d 0 4
    let r := v.getRange (l.replayLog + 16) (16 * n) h.2
    match r.1 with
    | .ok w => (some ((List.range n).any fun i => decide (cut w (16 * i) 4 = step) && decide (cut w (16 * i + 4) 2 = group) &&
        decide (cut w (16 * i + 6) 2 = dec)), v.done r.2)
    | .bad st => (none, v.done (failLaunch p st r.2))
    | .wait => (none, r.2)

/-! ## FB_DECIDE -/

/-- A fallback report of this package (R222): in a locked grove launch it is flooded. -/
def reportLate (p : Nat) (l : Launch) (step group dec : Nat) (s : State) : State :=
  let s1 := putLaunch p { l with reports := l.reports ++ [⟨ownPkg s, step, 1, group, dec⟩] } s
  if l.grove && l.locked then
    flood (.agree (Fin.ofNat 32 p) (.fallback (BitVec.ofNat 32 step) (BitVec.ofNat 16 group) (BitVec.ofNat 16 dec))) s1
  else s1

/-- A set of one step at its decision tick: a move not performed reports it late; in replay the log decides it. -/
def decideSet (p step tick group dec : Nat) (s : State) : State :=
  match launchOf p s with
  | none => s
  | some l =>
    if !l.started || l.stop || decide (s.tick < tick + dec) || (l.fbSet step group dec).isSome then s
    else if l.replayLog ≠ 0 then
      let r := replayHas p l step group dec s
      match r.1 with
      | none => r.2
      | some fall => applySet p l step group dec fall (putLaunch p (l.putSet ⟨step, tick, group, dec, 0, some fall⟩) r.2)
    else
      let s0 := l.bedList.foldl (fun z b => collect b z) s
      let beds := l.bedList.filter fun b => bedLate p step group dec b s0
      let mark (m : Move) : Move := if m.isLate then { m with fb := .late } else m
      let s1 := beds.foldl (fun z b => mapSet p step group dec mark b z) s0
      let l1 := ((launchOf p s0).getD l).putSet ⟨step, tick, group, dec, beds.length, none⟩
      if beds.isEmpty then putLaunch p l1 s1 else reportLate p l1 step group dec s1

/-- The steps of a launch in which a set may await its decision: the present one, and each step before that a move or a report of the set
names. -/
def Launch.stepsOf (l : Launch) (p group dec : Nat) (s : State) : List (Nat × Nat) :=
  (l.step, l.stepTick) :: (l.past.filter fun e =>
    l.reports.any (fun r => decide (r.kind = 1) && decide (r.step = e.1) && decide (r.a = group) && decide (r.b = dec)) ||
    l.bedList.any fun b => bedHolds p e.1 group dec b s).map fun e => (e.1, e.2.1)

/-- FB_DECIDE: at its decision tick a set with a move not performed is reported late, whether its step still runs or not. In replay the set
is decided here, by the log. -/
def fbDecide (p group dec : Nat) (s : State) : State :=
  match launchOf p s with
  | none => s
  | some l => (l.stepsOf p group dec s).foldl (fun z e => decideSet p e.1 e.2 group dec z) s

def execFbDecide (p : PartId) (group decide : BitVec 16) (s : State) : Host.Outcome State Fault Refusal :=
  .next (fbDecide p.val group.toNat decide.toNat s)

/-! ## FB_AGREE -/

/-- The packages that reported a set late. -/
def Launch.latePkgs (l : Launch) (step group dec : Nat) : Nat :=
  (((l.reports.filter fun r => decide (r.kind = 1) && decide (r.step = step) && decide (r.a = group) && decide (r.b = dec)).map
    (·.pkg)).eraseDups).length

/-- A set at its agreement tick takes its fallback where any move of it was reported late; a decision stands for the moves of the set that
begin later. -/
def agreeSet (p : Nat) (x : FbSet) (s : State) : State :=
  match launchOf p s with
  | none => s
  | some l =>
    match x.outcome with
    | some fall => applySet p l x.step x.group x.decide fall s
    | none =>
      if decide (s.tick < x.stepTick + x.decide + l.delay s) || l.stop then s
      else
        let n := l.latePkgs x.step x.group x.decide
        let fall := decide (0 < n)
        let l1 := l.putSet { x with outcome := some fall }
        let s1 := applySet p l1 x.step x.group x.decide fall (putLaunch p l1 (l.bedList.foldl (fun z b => collect b z) s))
        match launchOf p s1 with
        | some l2 => if fall then logFallback p l2 x n s1 else s1
        | none => s1

/-- FB_AGREE: the sets that it names, of every step, at their agreement ticks. -/
def fbAgree (p group dec : Nat) (s : State) : State :=
  match launchOf p s with
  | none => s
  | some l => (l.decided.filter fun x => decide (x.group = group) && decide (x.decide = dec)).foldl (fun z x => agreeSet p x z) s

def execFbAgree (p : PartId) (group decide : BitVec 16) (s : State) : Host.Outcome State Fault Refusal :=
  .next (fbAgree p.val group.toNat decide.toNat s)

end Sys2Proof.Machine
end

