-- ==== Sys2Proof/Machine/Agree.lean ====
section
/-!
DEFINITION. Messages of grove launches (R310, R313, R314, R371) and locked mode of the grove (R311, R312).
-/

namespace Sys2Proof.Machine

/-! ## AGREE (R222, R313, R314) -/

/-- A report kept for a launch, once. -/
def keepReport (p : Nat) (l : Launch) (r : Report) (s : State) : State :=
  if l.reports.contains r then s else putLaunch p { l with reports := l.reports ++ [r] } s

/-- A message that came after its tick: counted where it changes nothing, else a divergence (R314). -/
def lateAgree (p : Nat) (changes : Bool) (s : State) : State :=
  if changes then floodDiverge p s else incF F.HAL_LATE_AGREE_COUNT 0 0 1 s

/-- A SHORT report for step `q` and tick `t`: the decision of tick `t` was to start the next step, or to slip. -/
def takeShort (p : Nat) (l : Launch) (src q t : Nat) (s : State) : State :=
  let e := l.endP (agreeA s)
  if q = l.step then
    (if t < e then lateAgree p false s else keepReport p l ⟨src, q, 0, t, 0⟩ s)
  else if l.step < q then keepReport p l ⟨src, q, 0, t, 0⟩ s
  else lateAgree p (decide (((look l.past q).map (·.2)).getD t ≤ t)) s

/-- A report that a fallback set is late: a set already decided is not decided again. -/
def takeLateSet (p : Nat) (l : Launch) (src q group dec : Nat) (s : State) : State :=
  match l.fbSet q group dec, l.began q with
  | some x, _ => (match x.outcome with
    | some fall => lateAgree p (!fall) s
    | none => keepReport p l ⟨src, q, 1, group, dec⟩ s)
  | none, some t =>
    if q < l.step ∧ t + dec + l.delay s ≤ s.tick then lateAgree p true s else keepReport p l ⟨src, q, 1, group, dec⟩ s
  | none, none => if l.step < q then keepReport p l ⟨src, q, 1, group, dec⟩ s else lateAgree p true s

/-- AGREE: a report of another package of the span for the launch of a partition. -/
def agree (h : CtlHdr) (p : Nat) (f : AgreeF) (s : State) : State :=
  let z := takeHdr h (.agree (Fin.ofNat 32 p) f) s
  match launchOf p z.2 with
  | none => z.2
  | some l =>
    if !z.1 || !l.grove || !l.span.contains h.src.val then z.2
    else match f with
      | .short q t => takeShort p l h.src.val q.toNat t.toNat z.2
      | .fallback q g d => takeLateSet p l h.src.val q.toNat g.toNat d.toNat z.2
      | .saved q => keepReport p l ⟨h.src.val, q.toNat, 2, 0, 0⟩ z.2
      | .failed q => keepReport p l ⟨h.src.val, q.toNat, 3, 0, 0⟩ z.2

def execAgree (h : CtlHdr) (p : PartId) (f : AgreeF) (s : State) : Host.Outcome State Fault Refusal := .next (agree h p.val f s)

/-! ## READY (R310) -/

/-- The partitions whose grove launch has a digest. -/
def launchesOf (d : BitVec 512) (s : State) : List Nat :=
  (List.range 32).filter fun p => (launchOf p s).any fun l => l.grove && decide (l.digest = d)

/-- READY: recorded; one with REFUSED set ends the launch of this package that has sent its own READY with FEATURE_MISSING, before any step
runs, and a launch that comes later when it would send it. -/
def ready (h : CtlHdr) (r : ReadyF) (s : State) : State :=
  let z := takeHdr h (.ready r) s
  let s1 := noteReady r z.2
  let mine := (launchesOf r.digest s1).filter fun p =>
    (launchOf p s1).any fun l => !l.started && !l.stop && l.readyAt.isSome && l.span.contains r.src.val
  if !z.1 then z.2
  else if r.refused && !mine.isEmpty then forgetReady r.digest (mine.foldl (fun y p => failLaunch p .featureMissing y) s1)
  else s1

def execReady (h : CtlHdr) (r : ReadyF) (s : State) : Host.Outcome State Fault Refusal := .next (ready h r s)

/-- READY_TIMEOUT: a member of the span has sent no READY in READY_10MS × 10 ms from the first. -/
def readyTimeout (p : Nat) (s : State) : State :=
  match launchOf p s with
  | none => s
  | some l =>
    let got := l.span.filterMap fun q => readyOf l.digest q s
    let first := (got.map (·.tick)).foldl min ((got.head?.map (·.tick)).getD 0)
    let missing := l.span.any fun q => (readyOf l.digest q s).isNone
    if l.started || !l.grove || l.stop || got.isEmpty || !missing ||
        decide (s.tick < first + getF F.HAL_GROVE_CFG_READY_10MS 0 0 s * 250000) then s
    else forgetReady l.digest (failLaunch p .groveExcluded s)

def execReadyTimeout (p : PartId) (s : State) : Host.Outcome State Fault Refusal := .next (readyTimeout p.val s)

/-! ## DIVERGE (R314) -/

/-- DIVERGE: the grove launch of the digest ends with DATA_LOST here too. -/
def diverge (h : CtlHdr) (digest : BitVec 512) (step : BitVec 32) (tick : BitVec 64) (s : State) : State :=
  let z := takeHdr h (.diverge digest step tick) s
  if z.1 then (launchesOf digest z.2).foldl (fun y p => diverged p y) z.2 else z.2

def execDiverge (h : CtlHdr) (digest : BitVec 512) (step : BitVec 32) (tick : BitVec 64) (s : State) :
    Host.Outcome State Fault Refusal := .next (diverge h digest step tick s)

/-! ## Locked mode (R311, R312) -/

/-- The launches of locked partitions run on step timing, or no longer do. -/
def lockLaunches (s : State) : State :=
  (List.range 32).foldl (fun z p =>
    match launchOf p z with
    | some l => putLaunch p { l with locked := partLocked p z } z
    | none => z) s

/-- Why the timekeeper refuses locked mode, 0 where it grants it: unlike digests, a member not steady, a residual above a tick, a member
not healthy. -/
def lockRefusal (s : State) : Nat :=
  let l := ownCard s :: (s.grove.cards.filter fun c => isMember c.card.pkg.toNat s).map (·.card)
  let d := configDigest s
  if l.any fun c => decide (c.digest ≠ d) then 1
  else if l.any fun c => !c.steady then 2
  else if l.any fun c => decide (tickPs < c.residual.toInt) || decide (c.residual.toInt < -tickPs) then 3
  else if l.any fun c => !c.healthy then 4
  else 0

/-- The timekeeper answers a request of member `src`: the tick of entry is flooded, or the refusal is sent. -/
def lockDecide (src : Nat) (s : State) : State :=
  let r := lockRefusal s
  if r = 0 then
    let t := s.tick + 2 * agreeA s
    flood (.lockAt (BitVec.ofNat 64 t)) { s with grove := { s.grove with lockAt := some t } }
  else if src = ownPkg s then setF F.HAL_GROVE_STATUS_LOCK_REFUSED 0 0 r s
  else flood (.lockNo (Fin.ofNat 512 src) (Fin.ofNat 5 r)) s

/-- LOCK: the request of a member passes to the timekeeper, which grants or refuses it. -/
def lock (f : LockF) (s : State) : State :=
  let tk := bitF F.HAL_GROVE_STATUS_TIMEKEEPER 0 0 s
  let own := Fin.ofNat 512 (ownPkg s)
  match f with
  | .ask =>
    if getF F.HAL_GROVE_STATUS_STATE 0 0 s ≠ 2 ∨ bitF F.HAL_GROVE_STATUS_LOCKED 0 0 s = true then s
    else if tk then lockDecide (ownPkg s) s
    else flood (.lockAsk own) s
  | .asked h =>
    let z := takeHdr h (.lockAsk h.src) s
    if z.1 && tk then lockDecide h.src.val z.2 else z.2
  | .granted h t =>
    let z := takeHdr h (.lockAt t) s
    if z.1 && decide (getF F.HAL_GROVE_STATUS_STATE 0 0 s = 2) then { z.2 with grove := { z.2.grove with lockAt := some t.toNat } } else z.2
  | .refused h c =>
    let z := takeHdr h (.lockNo own c) s
    if z.1 then setF F.HAL_GROVE_STATUS_LOCK_REFUSED 0 0 c.val z.2 else z.2

def execLock (f : LockF) (s : State) : Host.Outcome State Fault Refusal := .next (lock f s)

/-- LOCK_ENTRY: on the flooded tick the member becomes LOCKED. -/
def lockEntry (s : State) : State :=
  match s.grove.lockAt with
  | none => s
  | some t =>
    if s.tick < t then s
    else lockLaunches (setF F.HAL_GROVE_STATUS_LOCKED 0 0 1 { s with grove := { s.grove with lockAt := none } })

def execLockEntry (s : State) : Host.Outcome State Fault Refusal := .next (lockEntry s)

/-- Locked mode ends once it has been asked for and no locked partition runs a grove launch. -/
def settleUnlock (s : State) : State :=
  let busy := (List.range 32).any fun p => partLocked p s && (launchOf p s).any (·.grove)
  if s.grove.unlock && !busy then
    lockLaunches (setF F.HAL_GROVE_STATUS_LOCKED 0 0 0 { s with grove := { s.grove with unlock := false } })
  else s

/-- UNLOCK: asked for here, which is flooded, or by another member. -/
def unlockAsk (f : UnlockF) (s : State) : State :=
  if !bitF F.HAL_GROVE_STATUS_LOCKED 0 0 s then s
  else
    let z := match f with
      | .ask => (true, flood .unlock s)
      | .asked h => takeHdr h .unlock s
    if z.1 then settleUnlock { z.2 with grove := { z.2.grove with unlock := true } } else z.2

def execUnlock (f : UnlockF) (s : State) : Host.Outcome State Fault Refusal := .next (unlockAsk f s)

end Sys2Proof.Machine
end

