-- ==== Sys2Proof/Machine/Place.lean ====
section
/-!
DEFINITION. The start of a LAUNCH and of the WAKEs that act as one (R265, R266, R106, R374, R379): queues, checks, reading and placing.
-/

namespace Sys2Proof.Machine

/-! ## The queue of a partition (R266) -/

/-- The place of a descriptor in the order in which all were fetched. -/
def fetchedAt (s : State) (r : DescRef) : Nat := ((getDesc r.ring r.idx s).map (·.xid)).getD 0

/-- A descriptor waiting for its partition, behind those fetched before it, whatever their rings (R266). -/
def queueDesc (p n i : Nat) (s : State) : State :=
  let k := s.part p
  let first (r : DescRef) : Bool := decide (fetchedAt s r ≤ fetchedAt s ⟨n, i⟩)
  if k.queue.contains ⟨n, i⟩ then s
  else s.putPart p { k with queue := k.queue.takeWhile first ++ ⟨n, i⟩ :: k.queue.dropWhile first }

/-- A descriptor taken out of the queues of its partition. -/
def unqueue (p n i : Nat) (s : State) : State :=
  let k := s.part p
  let out (l : List DescRef) : List DescRef := l.filter fun r => decide (r ≠ ⟨n, i⟩)
  s.putPart p { k with queue := out k.queue, waiting := out k.waiting }

/-- Whether a partition is going from one condition to another (R452): rolling back, writing an image, entering or leaving RETENTION,
or paused. -/
def transitional (p : Nat) (s : State) : Bool :=
  let k := s.part p
  let gs := match k.launch, k.resume with
    | some l, _ => l.groups
    | none, some l => l.groups
    | _, _ => []
  decide (k.hold = .rolling) || k.imaging.isSome ||
  (match k.launch with
    | some l => l.stop && l.rollback
    | none => false) ||
  gs.any (fun g => slotPresent (g / 16) s && (decide (s.bgPower g = 4) || decide (s.bgPower g = 1) ||
    (decide (k.hold = .retained) && decide (s.bgPower g ≠ 2))))

/-- Whether it is the turn of a descriptor that starts as a LAUNCH of its partition; a paused partition starts none (R355). -/
def launchTurn (p n i : Nat) (s : State) : Bool :=
  decide ((s.part p).queue.head? = some ⟨n, i⟩) && partFree p s && (s.part p).imaging.isNone && !bitF F.PWR_PART_STATUS_PAUSED 0 p s

/-! ## The checks of R266 -/

/-- Whether the package takes part in grove launches: a member, and not STALE. -/
def groveFit (s : State) : Bool := isMember (ownPkg s) s && !bitF F.HAL_GROVE_STATUS_STALE 0 0 s

/-- The checks of R266 in order. `epoch` is GROVE_EPOCH, none for a WAKE. -/
def startBad (p : Nat) (grove : Bool) (epoch : Option Nat) (storeQ : Bool) (s : State) : Option Status :=
  if (partGroups p s).isEmpty then some .featureMissing
  else if grove && (!groveFit s || (match epoch with
      | some e => decide (getF F.HAL_STATE_EPOCH_EPOCH 0 0 s ≠ e)
      | none => false)) then some .groveExcluded
  else if storeQ then some .featureMissing
  else none

/-- A descriptor that fails its checks: it leaves the queue, and its report goes to the arbiter. -/
def startFails (p n : Nat) (d : Desc) (st : Status) (s : State) : State :=
  sendReport n d.idx st 0xFFFF 0 (unqueue p n d.idx (descDone d s))

/-- A grove launch that fails its checks floods READY with REFUSED set (R310). -/
def refuseGrove (grove resumed : Bool) (d : BitVec 512) (s : State) : State :=
  if grove then forgetReady d (flood (.ready ⟨Fin.ofNat 512 (ownPkg s), d, BitVec.ofNat 64 s.tick, 0, BitVec.allOnes 32, true, resumed⟩) s) else s

/-! ## A launch placed -/

/-- What a LAUNCH, or the image of a WAKE, says of a launch. -/
structure LaunchArgs where
  image : Nat
  fbLog : Nat
  fbCap : Nat
  storeQ : Nat
  mode : Nat
  replayLog : Nat
  epoch : Nat
  deriving DecidableEq, Repr

/-- Whether a MODE names a grove launch. -/
def LaunchArgs.grove (a : LaunchArgs) : Bool := a.mode.testBit 2

/-- The grid mode of a launch: as MODE gives, else as the image gives. -/
def LaunchArgs.espalier (a : LaunchArgs) (h : ImgHdr) : Bool :=
  match a.mode % 4 with
  | 1 => false
  | 2 => true
  | _ => h.espalier

/-- A launch before its first bundle. -/
def newLaunch (p n i : Nat) (a : LaunchArgs) (h : ImgHdr) (t : ImgTabs) (place : List (Nat × Nat)) (s : State) : Launch :=
  let base := a.image / 4096 * 4096
  { ring := n, idx := i, image := a.image, digest := BitVec.ofNat 512 h.digest, beds := place, syncs := syncEntries t.syncs h.steps,
    phases := phaseEntries t.phases h.phases, streams := h.streams, streamTable := base + h.streamTable,
    barrowTable := base + h.barrowTable, storeQ := storeField a.storeQ, fbLog := a.fbLog, fbCap := a.fbCap,
    fbCount := 0, replayLog := a.replayLog, mode := a.mode, espalier := a.espalier h, grove := a.grove,
    epoch := BitVec.ofNat 64 (getF F.HAL_STATE_EPOCH_EPOCH 0 0 s), locked := partLocked p s, span := [], reports := [], step := 0,
    stepTick := s.tick, nextTick := none, readyTick := none, started := false, statuses := [], detail := 0xFFFF, stop := false,
    stopSent := false, rollback := false, slips := 0, short := false, fbDropped := 0, decided := [], readyAt := none, resumed := false,
    holds := [], past := [], diverged := false }

/-- The lowest beds of a partition for the logical beds of an image (R103; DESIGN CHOICE, log entry 25). -/
def placeBeds (p n : Nat) (s : State) : List (Nat × Nat) := (List.range n).zip (partBeds p s)

/-- Whether a placement touches a bed group whose start the shelf holds back (R278), or repeats a grove launch that runs (R310). -/
def startHeld (l : Launch) (s : State) : Bool :=
  l.groups.any (fun g => groupHeld g s) ||
  (l.grove && s.parts.any fun e => match e.2.launch with
    | some k => k.grove && decide (k.digest = l.digest)
    | none => false)

/-- The header of a new fallback log (R226; DEDUCED, log entry 26). -/
def initLog (p : Nat) (l : Launch) (s : State) : State :=
  if l.fbLog = 0 ∨ l.replayLog ≠ 0 then s else askLog p l.fbLog 16 (at0 8 l.fbCap) s

/-- The logical beds of a launch on their beds, and the partition running it. -/
def placeLaunch (p : Nat) (l : Launch) (h : ImgHdr) (t : ImgTabs) (s : State) : State :=
  let s1 := l.beds.foldl (fun z e => startBed e.2 e.1 p l.espalier (streamOf t h e.1) z) (unqueue p l.ring l.idx s)
  let k := s1.part p
  s1.putPart p { k with launch := some l, hold := .none, resume := none, saving := none, saveBad := false }

/-- A new launch forgets the points of the one before. -/
def freshPoints (p : Nat) (s : State) : State :=
  let k := s.part p
  setF F.MGT_QSTATUS_VALID 0 p 0 (setF F.MGT_QSTATUS_ROLLED_BACK 0 p 0 (s.putPart p { k with committed := none, slotSteps := [] }))

/-! ## LAUNCH -/

/-- The fields of a LAUNCH. -/
def launchArgs (d : Desc) : LaunchArgs :=
  ⟨d.get 8 8, d.get 0x10 8, d.get 0x18 4, d.get 0x1C 2, d.get 0x1E 1, d.get 0x20 8, d.get 0x28 8⟩

/-- A LAUNCH whose header has been read and checked: its tables are read, and it is placed and started. -/
def launchRead (p n : Nat) (d : Desc) (a : LaunchArgs) (h : ImgHdr) (s : State) : State :=
  let v := imageVia n d s
  let r := readTables v a.image h s
  match r.1 with
  | .bad st => startFails p n d st (refuseGrove a.grove false (BitVec.ofNat 512 h.digest) r.2.2)
  | g => descGo n d g (fun _ s1 =>
      let l := newLaunch p n d.idx a h r.2.1 (placeBeds p h.beds s1) s1
      if startHeld l s1 then s1 else launchPlaced p (initLog p l (freshPoints p (placeLaunch p l h r.2.1 s1)))) r.2.2

/-- The header of an image read for a descriptor, and what follows it; what was read stays until the descriptor is done with it. -/
def withHeader (n : Nat) (d : Desc) (va : Nat) (bad : Status → State → State) (k : ImgHdr → State → State) (s : State) : State :=
  let v := imageVia n d s
  let r := readImgHeader v va s
  match r.1 with
  | .bad st => bad st r.2
  | .ok x => k (ImgHdr.read x) r.2
  | .wait => r.2

/-- The checks of a LAUNCH whose turn it is; without an identity it is refused (R37). -/
def launchChecks (p n : Nat) (d : Desc) (s : State) : State :=
  let a := launchArgs d
  let fail (st : Status) (s : State) : State := startFails p n d st s
  let bad := if s.ident.isNone then some .featureMissing else startBad p a.grove (some a.epoch) (storeBad a.storeQ p s) s
  match bad with
  | some st =>
    if a.grove then withHeader n d a.image (fun _ => fail st) (fun h z => fail st (refuseGrove true false (BitVec.ofNat 512 h.digest) z)) s
    else fail st s
  | none =>
    withHeader n d a.image fail (fun h z =>
      if headerBad h p a.grove z then fail .featureMissing (refuseGrove a.grove false (BitVec.ofNat 512 h.digest) z)
      else launchRead p n d a h z) s

/-- LAUNCH: it waits for its partition, then checks and starts. -/
def descLaunch (n i : Nat) (s : State) : State :=
  match getDesc n i s with
  | none => s
  | some d =>
    let p := descPart n d s
    if decide (d.kind ≠ 1) || !descRuns n d s || decide (d.st = .started) then s
    else
      let d1 := { d with st := .waiting }
      let s1 := queueDesc p n i (putDesc n d1 s)
      if launchTurn p n i s1 then
        let s2 := launchChecks p n d1 s1
        if ((s2.part p).launch.map fun l => ((l.ring, l.idx) : Nat × Nat)) = some (n, i) then beginDesc n d1 s2 else s2
      else s1

def execLaunch (ring : RingId) (idx : BitVec 32) (s : State) : Host.Outcome State Fault Refusal :=
  .next (descLaunch ring.val idx.toNat s)

end Sys2Proof.Machine
end

