-- ==== Sys2Proof/Machine/Wake.lean ====
section
/-!
DEFINITION. QUIESCE, DORMANT and WAKE (R271, R376 to R379, R452).
-/

namespace Sys2Proof.Machine

/-- Whether the form of a descriptor is its second: HOLD of a QUIESCE, an image of a DORMANT. -/
def Desc.form1 (d : Desc) : Bool := (d.get 8 1).testBit 0

/-- FORM of a WAKE; 3 acts as 0. -/
def Desc.wakeForm (d : Desc) : Nat := d.get 8 1 % 4 % 3

/-- The step of the point at which a partition is held. -/
def heldStep (p : Nat) (s : State) : Nat :=
  match (s.part p).launch, (s.part p).resume with
  | some l, _ => l.point
  | none, some l => l.step
  | none, none => 0

/-- A descriptor that waits for the next quiesce point of its partition. -/
def awaitPoint (p n i : Nat) (s : State) : State :=
  let k := s.part p
  runPoint p (if k.waiting.contains ⟨n, i⟩ then s else s.putPart p { k with waiting := k.waiting ++ [⟨n, i⟩] })

/-- A QUIESCE, DORMANT or WAKE that starts: while its partition is in transition it waits for it (R452). -/
def withPart (n i kind : Nat) (ok : Desc → Bool) (f : Nat → Desc → State → State) (s : State) : State :=
  match getDesc n i s with
  | none => s
  | some d =>
    if decide (d.kind ≠ kind) || !ok d || !descRuns n d s then s
    else
      let p := descPart n d s
      if decide (d.st ≠ .started) && transitional p s then putDesc n { d with st := .waiting } s
      else
        let d1 := { d with st := .started }
        f p d1 (putDesc n d1 s)

/-! ## QUIESCE (R376) -/

/-- QUIESCE. -/
def descQuiesce (n i : Nat) : State → State :=
  withPart n i 8 (fun _ => true) fun p _ s =>
    let k := s.part p
    if k.hold = .none then
      (if k.launch.isNone then finishDesc n i .completed 0xFFFF 0 s else awaitPoint p n i s)
    else finishDesc n i .completed 0xFFFF (heldStep p s) s

def execQuiesce (ring : RingId) (idx : BitVec 32) (s : State) : Host.Outcome State Fault Refusal :=
  .next (descQuiesce ring.val idx.toNat s)

/-! ## DORMANT at retention (R377) -/

/-- Whether the save area holds the record of the point at which a partition is held. -/
def heldSaved (p : Nat) (s : State) : Bool := saveOn p s && pointCommitted p (heldStep p s) s

/-- DORMANT with FORM 0. A held partition without the record of its point cannot be retained. -/
def descRetain (n i : Nat) : State → State :=
  withPart n i 9 (fun d => !d.form1) fun p _ s =>
    let k := s.part p
    if k.imaging.isSome then s
    else match k.hold, heldLaunch p s with
    | .retained, _ => retainedDone p s
    | .none, some l =>
      if l.started || k.launch.isSome then awaitPoint p n i s else finishDesc n i .completed 0xFFFF 0 s
    | _, some l =>
      if k.saving.isSome && saveOn p s then s
      else if heldSaved p s then retainedDone p (retainLaunch p l s)
      else finishDesc n i .pageFault 0xFFFF 0 s
    | _, none => finishDesc n i .completed 0xFFFF 0 s

def execDormantRetention (ring : RingId) (idx : BitVec 32) (s : State) : Host.Outcome State Fault Refusal :=
  .next (descRetain ring.val idx.toNat s)

/-! ## Leaving retention (R377) -/

/-- The bytes of the header and state blocks of a record. -/
def stateLen : Nat := 0x81000

/-- The outcome of a wake from retention: its records are back, it failed with a status, or it is under way. -/
inductive Woken where
  | ok
  | bad (st : Status)
  | wait
  deriving DecidableEq, Repr

/-- A retained partition whose launch ends with its failed WAKE: its bed groups are idle, and it is neither held nor dormant. -/
def wakeFailed (p : Nat) (st : Status) (s : State) : State :=
  let s1 := s.putPart p { s.part p with hold := .none, resume := none }
  match (s.part p).launch with
  | some l => releaseWaiters p (endLaunch p l st s1)
  | none => match (s.part p).resume with
    | some l => l.bedList.foldl (fun z b => idleBed p b z) s1
    | none => s1

/-- The launch that a partition holds replaced. -/
def putHeld (p : Nat) (l : Launch) (s : State) : State :=
  match (s.part p).launch with
  | some _ => putLaunch p l s
  | none => s.putPart p { s.part p with resume := some l }

/-- The records of a retained launch read into their beds: whole where a bed moved, header and state blocks elsewhere. -/
def restoreHeld (p : Nat) (l : Launch) (place : List (Nat × Nat)) (s : State) : Woken × State :=
  let moved (lb : Nat) : Bool := !place.any fun e => decide (e.1 = lb) && decide (l.bedFor lb = e.2)
  let slot := ((s.part p).committed.map (·.1)).getD 0
  let r := readRecords p slot (fun lb => if moved lb then recordLen else stateLen) place s
  match r.1 with
  | .wait => (.wait, r.2)
  | .bad st => (.bad st, r.2)
  | .ok recs =>
    let s1 := restart p l (place.filter fun e => moved e.1) r.2
    let s2 := restoreAll recs (heldStep p s) moved s1
    let back (z : State) (e : Nat × Nat) : State := (coresOf e.2).foldl (fun y c =>
      y.putCore c { y.core c with active := true }) (z.putBed e.2
        { z.bed e.2 with running := true, go := l.started, saved := true, saving := false, lbed := e.1 })
    (.ok, putHeld p { l with beds := place } (noteRestore p (place.foldl back s2)))

/-- The bed groups of a retained launch wake, and its state is restored. -/
def wakeHeld (p : Nat) (l : Launch) (s : State) : Woken × State :=
  let here := l.groups.filter fun g => slotPresent (g / 16) s
  let s1 := here.foldl (fun z g => wakeGroup g z) s
  if here.any fun g => decide (s1.bgPower g ≠ 0) then (.wait, s1)
  else match replace p l.beds s1 with
    | none => (.bad .dieAbsent, s1)
    | some place => restoreHeld p l place s1

/-! ## Release of a held launch -/

/-- A held launch goes on: its SYNC releases at the next tick boundary in free mode, at the end of its step in locked mode; the WAKE
completes then, when the cores issue again (R271, R376). -/
def resumeHeld (p n i : Nat) (s : State) : State := s.putPart p { s.part p with hold := .none, woken := some ⟨n, i⟩ }

/-! ## A WAKE that acts as a LAUNCH after a rollback (R374) -/

/-- The arguments of a launch that is resumed. -/
def Launch.args (l : Launch) : LaunchArgs :=
  ⟨l.image, l.fbLog, l.fbCap, (match l.storeQ with
    | some q => q
    | none => 0x8000), l.mode, l.replayLog, l.epoch.toNat⟩

/-- Whether the storage queue of a resumed launch may not be used. -/
def storeGone (l : Launch) (p : Nat) (s : State) : Bool :=
  match l.storeQ with
  | some q => !storeQueueOk q p s
  | none => false

/-- The held launch of a rolled-back partition taken up by a WAKE. -/
def resumeLaunch (p n : Nat) (d : Desc) (l : Launch) (s : State) : State :=
  let l1 := { l with
    ring := n, idx := d.idx, locked := partLocked p s, epoch := BitVec.ofNat 64 (getF F.HAL_STATE_EPOCH_EPOCH 0 0 s),
    resumed := true, statuses := [], detail := 0xFFFF }
  if startHeld l1 s then s
  else
    let s1 := unqueue p n d.idx s
    let s2 := s1.putPart p { s1.part p with launch := some l1, resume := none, hold := .none }
    launchReady p (setF F.MGT_QSTATUS_ROLLED_BACK 0 p 0 s2)

/-- The checks of a WAKE with FORM 2 after a rollback (R266, R106). -/
def wakeChecks (p n : Nat) (d : Desc) (l : Launch) (s : State) : State :=
  let fail (st : Status) (s : State) : State := startFails p n d st (refuseGrove l.grove true l.digest s)
  match startBad p l.grove none (storeGone l p s) s with
  | some st => fail st s
  | none => withHeader n d l.image fail (fun h z =>
      if headerBad h p l.grove z then fail .featureMissing z else resumeLaunch p n d l (descDone d z)) s

/-- A WAKE that starts as a LAUNCH of its partition: it waits its turn. -/
def wakeAsLaunch (p n : Nat) (d : Desc) (f : State → State) (s : State) : State :=
  let d1 := { d with st := .waiting }
  let s1 := queueDesc p n d.idx (putDesc n d1 s)
  if launchTurn p n d.idx s1 && !transitional p s1 then
    let s2 := f s1
    if ((s2.part p).launch.map fun l => ((l.ring, l.idx) : Nat × Nat)) = some (n, d.idx) then beginDesc n d1 s2 else s2
  else s1

/-- Whether a WAKE already runs as a launch, or waits for a release. -/
def wakeRuns (p n i : Nat) (s : State) : Bool :=
  decide ((s.part p).woken = some ⟨n, i⟩) || match launchOf p s with
  | some l => decide (l.ring = n) && decide (l.idx = i)
  | none => false

/-- WAKE with FORM 2 on a partition held after a rollback. -/
def wakeRolled (p n : Nat) (d : Desc) (s : State) : State :=
  match (s.part p).resume with
  | none => s
  | some l => wakeAsLaunch p n d (wakeChecks p n { d with st := .waiting } l) s

/-- WAKE with FORM 2 (R271, R376): releases a QUIESCE hold, or resumes a rolled-back partition. -/
def descWakeHold (n i : Nat) : State → State :=
  withPart n i 10 (fun d => decide (d.wakeForm = 2)) fun p d s =>
    if wakeRuns p n i s then s
    else if (s.part p).queue.contains ⟨n, i⟩ then
      (if (s.part p).resume.isSome then wakeRolled p n d s
        else if partFree p s then finishDesc n i .completed 0xFFFF 0 (unqueue p n i s) else putDesc n { d with st := .waiting } s)
    else match (s.part p).hold with
      | .quiesce =>
        resumeHeld p n i s
      | .rolledBack => wakeRolled p n d s
      | _ => finishDesc n i .completed 0xFFFF 0 s

def execWakeHold (ring : RingId) (idx : BitVec 32) (s : State) : Host.Outcome State Fault Refusal :=
  .next (descWakeHold ring.val idx.toNat s)

/-- WAKE with FORM 0 (R377). A partition retained after a rollback goes on as with FORM 2. -/
def descWakeRetention (n i : Nat) : State → State :=
  withPart n i 10 (fun d => decide (d.wakeForm = 0)) fun p d s =>
    if wakeRuns p n i s then s
    else if (s.part p).queue.contains ⟨n, i⟩ then wakeRolled p n d s
    else match (s.part p).hold, heldLaunch p s with
      | .retained, some l =>
        let r := wakeHeld p l s
        (match r.1 with
          | .wait => r.2
          | .bad st => finishDesc n i st 0xFFFF 0 (wakeFailed p st r.2)
          | .ok =>
            if (s.part p).launch.isNone then wakeRolled p n d (r.2.putPart p { r.2.part p with hold := .rolledBack })
            else resumeHeld p n i r.2)
      | _, _ => finishDesc n i .completed 0xFFFF 0 s

def execWakeRetention (ring : RingId) (idx : BitVec 32) (s : State) : Host.Outcome State Fault Refusal :=
  .next (descWakeRetention ring.val idx.toNat s)

end Sys2Proof.Machine
end

