-- ==== Sys2Proof/Machine/Image.lean ====
section
/-!
DEFINITION. Dormancy images (R378, R379): written from the live state of a held partition, and resumed as a launch.
-/

namespace Sys2Proof.Machine

/-! ## The image (R378) -/

/-- Bytes of an image of `n` logical beds. -/
def imageLen (n : Nat) : Nat := 4096 + n * recordLen

/-- The serial of the package. -/
def pkgSerial (s : State) : Nat := (s.ident.map fun d => d.serial.toNat).getD 0

/-- The header of an image, its digest still zero. -/
def imageHeader (p : Nat) (l : Launch) (step : Nat) (s : State) : Nat :=
  let a := l.args
  0x4D495144 + at0 4 1 + at0 6 0x1000 + at0 8 (imageLen l.beds.length) + at0 0x10 l.digest.toNat + at0 0x50 l.image + at0 0x58 l.fbLog +
  at0 0x60 l.fbCap + at0 0x64 a.storeQ + at0 0x66 ((l.mode % 256 / 4) * 4 + (if l.espalier then 2 else 1)) + at0 0x67 (b2n l.locked) +
  at0 0x68 l.replayLog + at0 0x70 step + at0 0x74 l.beds.length + at0 0x78 (getF F.D2D_PKG_FEATURES_BITMAP 0 0 s) +
  at0 0x80 (pkgSerial s) + at0 0x90 p

/-- The records of a held launch, the logical beds in order: whether every granule could be read. -/
def imageRecords (l : Launch) (step : Nat) (s : State) : Bool × Nat × State :=
  (List.range l.beds.length).foldl (fun z i =>
    let r := bedRecord (l.bedFor i) step l.fbCount z.2.2
    (z.1 && r.1, z.2.1 + at0 (i * recordLen) r.2.1, r.2.2)) ((true, 0, s) : Bool × Nat × State)

/-- The digest of an image given as a number of `n` bytes, its digest field zero. -/
def digestOf (v n : Nat) : Nat := (shake256 v n).toNat

/-- The record of logical bed `i` written into an image at `dest`, by the bed sequencer that holds it. -/
def writePart (p dest : Nat) (l : Launch) (recs : Nat) (d : Desc) (z : Got × State) (i : Nat) : Got × State :=
  let a := recordLen * i
  let r := (bedVia (l.bedFor i) p d).putRange (dest + 4096 + a) recordLen (cut recs a recordLen) z.2
  (z.1.add 0 r.1, r.2)

/-- The parts of an image written, each with the checks of any write of its partition. -/
def writeImage (p dest : Nat) (l : Launch) (hdr recs : Nat) (d : Desc) (s : State) : Got × State :=
  (List.range l.beds.length).foldl (writePart p dest l recs d) ((bedVia (l.bedFor 0) p d).putRange dest 4096 hdr s)

/-- An image written: the launch ends with the status of what it met, if anything, or its hold ends with it (R12, R378). -/
def imageEnds (p n i : Nat) (l : Launch) (step : Nat) (s : State) : State :=
  let s1 := s.putPart p { s.part p with hold := .none, resume := none, imaging := none }
  let s2 := match (s.part p).launch with
    | some k =>
      let st := Status.joinAll .completed k.statuses
      finishDesc k.ring k.idx st 0xFFFE step (releaseWaiters p (endLaunch p k st s1))
    | none => l.bedList.foldl (fun z b => idleBed p b z) s1
  finishDesc n i .completed 0xFFFF (1 + 641 * l.beds.length) s2

/-- A held partition writes its image; on a failure it stays held. -/
def imageNow (p n : Nat) (d : Desc) (l : Launch) (s0 : State) : State :=
  let s := s0.putPart p { s0.part p with imaging := some ⟨n, d.idx⟩ }
  let fail (st : Status) (s : State) : State :=
    finishDesc n d.idx st 0xFFFF 0 (s.putPart p { s.part p with imaging := none })
  let step := heldStep p s
  if d.get 0x18 8 < imageLen l.beds.length then fail .pageFault s
  else
    let r := imageRecords l step s
    if !r.1 then fail .dataLost r.2.2
    else
      let h0 := imageHeader p l step s
      let all := h0 + at0 4096 r.2.1
      let hdr := h0 + at0 0xC0 (digestOf all (imageLen l.beds.length))
      let w := writeImage p (d.get 0x10 8) l hdr r.2.1 d r.2.2
      match w.1 with
      | .ok _ => imageEnds p n d.idx l step (descDone d w.2)
      | .bad st => fail st (descDone d w.2)
      | .wait => w.2

/-- DORMANT with FORM 1. -/
def descImage (n i : Nat) : State → State :=
  withPart n i 9 (fun d => d.form1) fun p d s =>
    let k := s.part p
    if k.imaging.any fun r => decide (r ≠ ⟨n, i⟩) then s
    else match k.hold, heldLaunch p s with
    | .none, some _ => awaitPoint p n i s
    | .retained, some l =>
      let r := wakeHeld p l s
      (match r.1 with
        | .wait => r.2
        | .bad st => finishDesc n i st 0xFFFF 0 (wakeFailed p st r.2)
        | .ok =>
          let hold : Hold := if k.launch.isNone then .rolledBack else .quiesce
          let s1 := r.2.putPart p { r.2.part p with hold := hold }
          match heldLaunch p s1 with
          | some l1 => imageNow p n d l1 s1
          | none => s1)
    | .quiesce, some l => imageNow p n d l s
    | .rolledBack, some l => imageNow p n d l s
    | _, _ => finishDesc n i .completed 0xFFFF 0 s

def execDormantImage (ring : RingId) (idx : BitVec 32) (s : State) : Host.Outcome State Fault Refusal :=
  .next (descImage ring.val idx.toNat s)

/-! ## WAKE with FORM 1 (R379) -/

/-- The launch arguments that an image gives; a woken launch carries no GROVE_EPOCH. -/
def imageArgs (v : Nat) : LaunchArgs :=
  ⟨cut v 0x50 8, cut v 0x58 8, cut v 0x60 4, cut v 0x64 2, cut v 0x66 1, cut v 0x68 8, 0⟩

/-- Whether an image read whole is not one: its magic, format, length or digest is wrong. -/
def imageBad (v len : Nat) : Bool :=
  decide (cut v 0 4 ≠ 0x4D495144) || decide (cut v 4 2 ≠ 1) || decide (cut v 8 8 ≠ len) || decide (imageLen (cut v 0x74 4) ≠ len) ||
  decide (digestOf (v - at0 0xC0 (cut v 0xC0 64)) len ≠ cut v 0xC0 64)

/-- The records of an image for a placement. -/
def imageRecs (v : Nat) (place : List (Nat × Nat)) : List (Nat × Nat × Nat) :=
  place.map fun e => (e.1, e.2, cut v (4096 + e.1 * recordLen) recordLen)

/-- An image that passed its checks: its launch is placed and restored, and starts at its step. -/
def wakePlaced (p n : Nat) (d : Desc) (v : Nat) (a : LaunchArgs) (h : ImgHdr) (t : ImgTabs) (s : State) : State :=
  let step := cut v 0x70 4
  let place := placeBeds p h.beds s
  let recs := imageRecs v place
  let fb := (recs.head?.map fun e => recordFb e.2.2).getD 0
  let l0 := newLaunch p n d.idx a h t place s
  let l := { l0 with step := step, fbCount := fb, resumed := true }
  if startHeld l s then s
  else
    let s1 := noteRestore p (restoreAll recs step (fun _ => true) (freshPoints p (placeLaunch p l h t s)))
    launchPlaced p (setLogCount p l s1)

/-- The checks of a WAKE with FORM 1 against the schedule image. -/
def wakeSched (p n : Nat) (d : Desc) (v : Nat) (a : LaunchArgs) (s : State) : State :=
  let fail (st : Status) (s : State) : State := startFails p n d st (refuseGrove a.grove true (BitVec.ofNat 512 (cut v 0x10 64)) s)
  withHeader n d a.image fail (fun h z =>
    if headerBad h p a.grove z || decide (h.digest ≠ cut v 0x10 64) || decide (cut v 0x74 4 ≠ h.beds) then fail .featureMissing z
    else
      let r := readTables (imageVia n d z) a.image h z
      match r.1 with
      | .bad st => fail st r.2.2
      | g => descGo n d g (fun _ => wakePlaced p n d v a h r.2.1) r.2.2) s

/-- The checks of a WAKE with FORM 1 in order; the image is read by the bed sequencer of the partition's first bed. -/
def imageChecks (p n : Nat) (d : Desc) (s : State) : State :=
  let fail (st : Status) (s : State) : State := startFails p n d st s
  match startBad p false none false s, (partBeds p s).head? with
  | some st, _ => fail st s
  | none, none => fail .dieAbsent s
  | none, some b =>
    let len := d.get 0x18 8
    let r := (bedVia b p d).getRange (d.get 0x10 8) len s
    match r.1 with
    | .ok v =>
      let s1 := r.2
      let a := imageArgs v
      (match startBad p a.grove none (storeBad a.storeQ p s1) s1 with
        | some st => fail st s1
        | none => if imageBad v len then fail .featureMissing s1 else wakeSched p n d v a s1)
    | .bad st => fail st r.2
    | .wait => r.2

/-- WAKE with FORM 1. -/
def descWakeImage (n i : Nat) : State → State :=
  withPart n i 10 (fun d => decide (d.wakeForm = 1)) fun p d s =>
    if wakeRuns p n i s then s else wakeAsLaunch p n d (imageChecks p n { d with st := .waiting }) s

def execWakeImage (ring : RingId) (idx : BitVec 32) (s : State) : Host.Outcome State Fault Refusal :=
  .next (descWakeImage ring.val idx.toNat s)

/-! ## Starting again (R452) -/

/-- A QUIESCE, DORMANT or WAKE started, or taken further, by its kind and form. -/
def partDesc (n i : Nat) (s : State) : State :=
  descWakeHold n i (descWakeImage n i (descWakeRetention n i (descImage n i (descRetain n i (descQuiesce n i s)))))

/-- A partition that rolls back, or is about to. -/
def rollsBack (p : Nat) (s : State) : Bool :=
  decide ((s.part p).hold = .rolling) || (match launchOf p s with
    | some l => l.stop && l.rollback
    | none => false)

/-- The QUIESCEs, DORMANTs and WAKEs that have started, each with its ring. -/
def partDescs (s : State) : List (Nat × Desc) :=
  s.rings.flatMap fun e => (e.2.descs.filter fun d => decide (8 ≤ d.kind) && decide (d.kind ≤ 10) && decide (d.st = .started)).map
    fun d => (e.1, d)

/-- They go on, each as its partition stands; one whose partition rolls back acts once it is held (R271). -/
def partTick (s : State) : State :=
  (partDescs s).foldl (fun z e => if rollsBack (descPart e.1 e.2 z) z then z else partDesc e.1 e.2.idx z) s

/-- DESC_WAIT_PARTITION_READY: a descriptor that waits for its partition acts once the transition is over. -/
def descPartReady (n i : Nat) (s : State) : State :=
  match getDesc n i s with
  | none => s
  | some d => if d.st = .waiting ∧ !transitional (descPart n d s) s then partDesc n i s else s

def execDescWaitPartitionReady (ring : RingId) (idx : BitVec 32) (s : State) : Host.Outcome State Fault Refusal :=
  .next (descPartReady ring.val idx.toNat s)

end Sys2Proof.Machine
end

