-- ==== Sys2Proof/Machine/Command.lean ====
section
/-!
DEFINITION. The rings of the command front end (R254 to R264, R272 to R275, R282, R283): set-up, doorbells, fetching, aborts, the
arbiter, and completion records.
-/

namespace Sys2Proof.Machine

/-! ## Set-up and doorbells -/

/-- Whether a ring has descriptors in flight. -/
def ringFlying (n : Nat) (s : State) : Bool := !(s.ring n).descs.isEmpty

/-- Whether BUSY reads 1. -/
def ringBusy (n : Nat) (s : State) : Bool := !bitF F.CMD_RING_CFG_EN 0 n s && ringFlying n s

/-- The tag of the front end's descriptor reads. -/
def fetchTag : Nat := 1

/-- The indices of a ring set to 0, a read of the descriptors before left, and a stop lifted once nothing is in flight (R261, R282). -/
def ringEnable (n : Nat) (s : State) : State :=
  let s1 := setF F.CMD_DB_TAIL_TAIL 0 n 0 (setF F.CMD_DB_HEAD_HEAD 0 n 0 (setF F.CMD_DB_CQ_HEAD_CQ_HEAD 0 n 0
    (setF F.CMD_DB_CQ_TAIL_CQ_TAIL 0 n 0 s)))
  let s2 := disown (fun r => decide (r.src = .cmd n) && decide (r.step = BitVec.ofNat 32 fetchTag)) s1
  if ringFlying n s then s2 else setF F.CMD_RING_STAT_STOPPED 0 n 0 s2

/-- The bits of CMD_RING_CFG that a write may change: DIR, HOST, LOG2_SIZE and PART only while EN and BUSY are 0. -/
def ringMask (n : Nat) (s : State) : BitVec 64 :=
  if bitF F.CMD_RING_CFG_EN 0 n s || ringBusy n s then
    ~~~(F.CMD_RING_CFG_DIR.bits ||| F.CMD_RING_CFG_HOST.bits ||| F.CMD_RING_CFG_LOG2_SIZE.bits ||| F.CMD_RING_CFG_PART.bits)
  else BitVec.allOnes 64

/-- A write to CMD_RING_CFG (R282). -/
def ringCfg (n : Nat) (v mask : BitVec 64) (s : State) : State :=
  let was := bitF F.CMD_RING_CFG_EN 0 n s
  let s1 := swWriteReg .CMD_RING_CFG 0 n v (mask &&& ringMask n s) s
  if !was && bitF F.CMD_RING_CFG_EN 0 n s1 then ringEnable n s1 else s1

/-- RING_CFG_WRITE, by a requester with host standing (R253). -/
def execRingCfgWrite (ring : RingId) (v : BitVec 32) (s : State) : Host.Outcome State Fault Refusal :=
  .next (ringCfg ring.val (v.setWidth 64) (BitVec.allOnes 64) s)

/-- An event of a ring noted in CMD_STATUS. -/
def ringEvent (f : Fld) (n : Nat) (s : State) : State := setF F.CMD_STATUS_LAST_RING 0 0 n (flagF f 0 0 s)

/-- A clamped index write (R256). -/
def tailClamped (n : Nat) (s : State) : State := flagF F.CMD_RING_STAT_TAIL_CLAMP 0 n (ringEvent F.CMD_STATUS_TAIL_CLAMP n s)

/-- An index moved forward by a write of `v`, at most to `last`, modulo 2^32 (R256): a write that would pass it is clamped, one that
would go back changes nothing. -/
def moveIndex (f : Fld) (n v last : Nat) (s : State) : State :=
  let at0 := getF f 0 n s
  let d := idxDiff v at0
  let room := idxDiff last at0
  if d ≤ room then setF f 0 n v s
  else if d < 2 ^ 31 then tailClamped n (setF f 0 n last s)
  else tailClamped n s

/-- A doorbell write: from host standing, to an enabled ring (R282, R283). -/
def doorbell (n : Nat) (w : Who) (f : State → State) (s : State) : State :=
  if !w.host then s
  else if !bitF F.CMD_RING_CFG_EN 0 n s then ringEvent F.CMD_STATUS_DISABLED_WRITE n s
  else f s

/-- CMD_DB_TAIL (R256, R257): the acquire that follows leaves nothing to do in a front end that caches nothing. -/
def dbTail (n v : Nat) (s : State) : State :=
  if bitF F.CMD_RING_CFG_DIR 0 n s then s
  else moveIndex F.CMD_DB_TAIL_TAIL n v ((getF F.CMD_DB_CQ_HEAD_CQ_HEAD 0 n s + ringSize n s) % 2 ^ 32) s

def execCmdDbTail (ring : RingId) (v : BitVec 32) (who : Who) (s : State) : Host.Outcome State Fault Refusal :=
  .next (doorbell ring.val who (dbTail ring.val v.toNat) s)

/-- CMD_DB_CQ_HEAD (R256). -/
def dbCqHead (n v : Nat) (s : State) : State :=
  if bitF F.CMD_RING_CFG_DIR 0 n s then s
  else moveIndex F.CMD_DB_CQ_HEAD_CQ_HEAD n v (getF F.CMD_DB_CQ_TAIL_CQ_TAIL 0 n s) s

def execCmdDbCqHead (ring : RingId) (v : BitVec 32) (who : Who) (s : State) : Host.Outcome State Fault Refusal :=
  .next (doorbell ring.val who (dbCqHead ring.val v.toNat) s)

/-- CMD_DB_HEAD (R258): the host's on a storage queue, the front end's on a submission ring. -/
def dbHead (n v : Nat) (s : State) : State :=
  if bitF F.CMD_RING_CFG_DIR 0 n s then moveIndex F.CMD_DB_HEAD_HEAD n v (getF F.CMD_DB_TAIL_TAIL 0 n s) s else s

def execCmdDbHead (ring : RingId) (v : BitVec 32) (who : Who) (s : State) : Host.Outcome State Fault Refusal :=
  .next (doorbell ring.val who (dbHead ring.val v.toNat) s)

/-! ## ABORT (R273) -/

/-- The target of an ABORT: its ring and its index. -/
def Desc.target (d : Desc) : Nat × Nat := (d.get 8 2 % 1024, d.get 0xC 4)

/-- An ABORT completes, after the record of its target where that is in flight (R275). -/
def abortDone (n : Nat) (d : Desc) (st : Status) (s : State) : State :=
  let t := d.target
  let s1 := if st = .tooLate then incF F.CMD_ABORT_LATE_COUNT 0 0 1 s else s
  let d1 := { d with after := if (getDesc t.1 t.2 s).isSome then some t else none }
  finishDesc n d.idx st t.1 t.2 (putDesc n d1 s1)

/-- Whether an index is among the last N submitted of a ring. -/
def submitted (n i : Nat) (s : State) : Bool :=
  let back := idxDiff (getF F.CMD_DB_TAIL_TAIL 0 n s) i
  decide (1 ≤ back) && decide (back ≤ ringSize n s) && !bitF F.CMD_RING_CFG_DIR 0 n s

/-- Whether a submitted index is still to be fetched. -/
def unfetched (n i : Nat) (s : State) : Bool :=
  decide (idxDiff (getF F.CMD_DB_TAIL_TAIL 0 n s) i ≤ idxDiff (getF F.CMD_DB_TAIL_TAIL 0 n s) (getF F.CMD_DB_HEAD_HEAD 0 n s))

/-- ABORT: checked for authority, it waits until its target has been fetched, and goes to the arbiter of the target's ring. -/
def descAbort (n i : Nat) : State → State :=
  withDesc n i [11] fun d s =>
    let t := d.target
    let r := s.ring t.1
    if !ringHost n s && (ringHost t.1 s || decide (getF F.CMD_RING_CFG_PART 0 t.1 s ≠ getF F.CMD_RING_CFG_PART 0 n s)) then
      finishDesc n i .pageFault t.1 t.2 s
    else if r.aborts.any fun a => decide (a.ring = n) && decide (a.idx = i) then s
    else if submitted t.1 t.2 s && unfetched t.1 t.2 s then s
    else s.putRing t.1 { r with aborts := r.aborts ++ [⟨n, i, t.2, meshCycle s⟩] }

def execAbort (ring : RingId) (idx : BitVec 32) (s : State) : Host.Outcome State Fault Refusal :=
  .next (descAbort ring.val idx.toNat s)

/-! ## Fetching (R263, R264) -/

/-- A descriptor started by its kind, where nothing holds it. -/
def startDesc (n i : Nat) (s : State) : State :=
  match getDesc n i s with
  | none => s
  | some d =>
    match d.kind with
    | 1 => descLaunch n i s
    | 2 => descMove n i s
    | 3 => descFence n i s
    | 4 => descSignal n i s
    | 5 => descWait n i s
    | 6 => configStage n i s
    | 7 => configCommit n i s
    | 8 => partDesc n i s
    | 9 => partDesc n i s
    | 10 => partDesc n i s
    | 11 => descAbort n i s
    | _ => descNop n i s

/-- Whether a ring has a descriptor to fetch. -/
def ringWants (n : Nat) (s : State) : Bool :=
  bitF F.CMD_RING_CFG_EN 0 n s && !bitF F.CMD_RING_CFG_DIR 0 n s && !bitF F.CMD_RING_STAT_STOPPED 0 n s &&
  decide (getF F.CMD_DB_HEAD_HEAD 0 n s ≠ getF F.CMD_DB_TAIL_TAIL 0 n s)

/-- The next ring to be served, in ascending number after the one served last. -/
def nextRing (s : State) : Option Nat :=
  ((List.range 1024).map fun k => (s.served + 1 + k) % 1024).find? fun n => ringWants n s

/-- An access of a ring to its arrays, which lie in local stacked DRAM (R255). -/
def ringAccess (pa : Nat) (f : State → Got × State) (s : State) : Got × State :=
  if isDram pa && isLocal (pkgOf pa) s then f s else (.bad .dieAbsent, s)

/-- A fetched descriptor enters its ring, and starts unless it is held. -/
def descArrives (n : Nat) (bytes : BitVec 512) (bad : Option Status) (s : State) : State :=
  let i := getF F.CMD_DB_HEAD_HEAD 0 n s
  let x := s.takeId
  let d : Desc := ⟨i, bytes, bad, .held, 0xFFFF, 0, 0, x.1, none, 0, false⟩
  let r := x.2.ring n
  let s1 := setF F.CMD_DB_HEAD_HEAD 0 n ((i + 1) % 2 ^ 32) (x.2.putRing n { r with descs := r.descs ++ [d] })
  startDesc n i (incF F.CMD_FETCHED_COUNT 0 0 1 { s1 with served := n })

/-- DESC_FETCH. -/
def descFetch (s : State) : State :=
  if !bitF F.CMD_CTRL_EN 0 0 s then s
  else match nextRing s with
    | none => s
    | some n =>
      let at0 := ringBase n s + 64 * (getF F.CMD_DB_HEAD_HEAD 0 n s % ringSize n s)
      let r := ringAccess at0 (ask (.cmd n) fetchTag (ringWho n s) at0 64) s
      match r.1 with
      | .wait => r.2
      | .ok v => descArrives n (BitVec.ofNat 512 v) none (askDone (.cmd n) fetchTag r.2)
      | .bad st =>
        let s1 := askDone (.cmd n) fetchTag r.2
        let s2 := if decide (st = .dataLost) && !ringHost n s1 then rollbackPart (getF F.CMD_RING_CFG_PART 0 n s1) .dataLost s1 else s1
        descArrives n 0 (some st) s2

def execDescFetch (s : State) : Host.Outcome State Fault Refusal := .next (descFetch s)

/-! ## The arbiter (R272, R274) -/

/-- The partition whose launch a descriptor runs, if it does. -/
def launchPart (n i : Nat) (s : State) : Option Nat :=
  (List.range 32).find? fun p => match launchOf p s with
    | some l => decide (l.ring = n) && decide (l.idx = i)
    | none => false

/-- A committing report taken: the outcome of its descriptor is fixed. A launch is over only once it has drained (R268). -/
def takeReport (n : Nat) (r : RingReport) (s : State) : State :=
  match getDesc n r.idx s with
  | none => s
  | some d =>
    if d.fixed then s
    else if (launchPart n r.idx s).isSome then
      putDesc n { d with st := .committed r.status, detail := r.detail, info := r.info } s
    else finishDesc n r.idx r.status r.detail r.info s

/-- COMMIT_REPORT: the arbiter of a ring takes its oldest report, unless an abort came before it. -/
def commitReport (n : Nat) (s : State) : State :=
  let x := s.ring n
  match x.reports with
  | [] => s
  | r :: rest =>
    if x.aborts.any fun a => decide (a.cyc < r.cyc) then s
    else takeReport n r (s.putRing n { x with reports := rest })

def execCommitReport (ring : RingId) (s : State) : Host.Outcome State Fault Refusal := .next (commitReport ring.val s)

/-- A launch told to stop by an ABORT. -/
def abortLaunch (p n : Nat) (d : Desc) (s : State) : State :=
  let s1 := putDesc n { d with st := .committed .aborted } s
  match launchOf p s1 with
  | some l => putLaunch p { l with stop := true } s1
  | none => s1

/-- The program of a MOVE told to stop: an armed one is gone, a running one issues nothing more. -/
def abortMove (n : Nat) (d : Desc) (s : State) : State :=
  let b := min 4799 (d.get 0x12 2)
  let k := s.bed b
  let mine (q : Prog) : Bool := decide (q.desc = some (n, d.idx))
  let out (who : Asker) (id : Nat) : Bool := decide (who = brwAsker b) && (k.armed ++ k.progs).any fun q => mine q && q.asks id
  putDesc n { d with st := .committed .aborted } (leaveXlt out (s.putBed b { k with
    armed := k.armed.filter (fun q => !mine q), progs := k.progs.map fun q => if mine q then q.halt else q }))

/-- The open vote of a CONFIG_COMMIT, by shelf entry. -/
def openVote (n i : Nat) (s : State) : Option Nat :=
  (List.range 16).find? fun e => match (shelfOf e s).commit with
    | some (m, j, _, _) => decide (m = n) && decide (j = i) && !(shelfOf e s).closed
    | none => false

/-- What an abort does to a target in flight: the state, and whether it took effect. -/
def abortTarget (n : Nat) (d : Desc) (s : State) : Bool × State :=
  let gone := finishDesc n d.idx .aborted 0xFFFF 0 (unqueue (descPart n d s) n d.idx (descDone d s))
  match d.st with
  | .done _ => (false, s)
  | .committed _ => (false, s)
  | .held => (true, gone)
  | .waiting => (true, gone)
  | .started =>
    match launchPart n d.idx s with
    | some p => (true, abortLaunch p n d s)
    | none =>
      match d.kind with
      | 2 => (true, abortMove n d s)
      | 5 => (true, gone)
      | 7 => match openVote n d.idx s with
        | some e => (true, freeShelf e (finishDesc n d.idx .aborted 0xFFFF 0 s))
        | none => (false, s)
      | _ => (false, s)

/-- An abort taken by the arbiter of ring `n`. -/
def takeAbort (n : Nat) (a : RingAbort) (s : State) : State :=
  let x : Bool × State := match getDesc n a.seq s with
    | none => (false, s)
    | some d => abortTarget n d s
  match getDesc a.ring a.idx x.2 with
  | none => x.2
  | some d => abortDone a.ring d (if x.1 then .ok else .tooLate) x.2

/-- ABORT_RESOLVE: the arbiter of a ring takes its oldest abort; a report of the same cycle goes first. -/
def abortResolve (n : Nat) (s : State) : State :=
  let x := s.ring n
  match x.aborts with
  | [] => s
  | a :: rest =>
    if x.reports.any fun r => decide (r.cyc ≤ a.cyc) then s
    else takeAbort n a (s.putRing n { x with aborts := rest })

def execAbortResolve (ring : RingId) (s : State) : Host.Outcome State Fault Refusal := .next (abortResolve ring.val s)

/-! ## Completion records (R259 to R261) -/

/-- An aborted MOVE is over once its program has drained. -/
def moveOver (n : Nat) (d : Desc) (s : State) : State :=
  let b := min 4799 (d.get 0x12 2)
  let k := s.bed b
  let mine (q : Prog) : Bool := decide (q.desc = some (n, d.idx))
  match d.st with
  | .committed st =>
    if d.kind = 2 ∧ ((k.progs.filter mine).all fun q => q.quiet s) then
      let s1 := (k.progs.filter mine).foldl (fun z q => dropFlies q z) s
      finishDesc n d.idx st d.detail d.info (s1.putBed b { s1.bed b with progs := k.progs.filter fun q => !mine q })
    else s
  | _ => s

/-- Whether a record may be written: its descriptor is done, the record before it has been performed, and so have the writes to the fallback
log of a launch (R260). -/
def recordReady (n : Nat) (d : Desc) (s : State) : Bool :=
  !((decide (d.kind = 1) || decide (d.kind = 10)) && s.logq.any fun w => decide (w.part = descPart n d s)) &&
  (match d.st with
    | .done _ => true
    | _ => false) &&
  (match d.after with
    | some (n, i) => (getDesc n i s).isNone
    | none => true)

/-- The next record of a ring: the one being written, else the earliest completion. -/
def nextRecord (n : Nat) (s : State) : Option Desc :=
  match (s.ring n).descs.find? (·.recording) with
  | some d => some d
  | none => ((s.ring n).descs.filter fun d => recordReady n d s).foldl (fun z d => match z with
    | none => some d
    | some x => if d.doneAt < x.doneAt then some d else some x) none

/-- The status of a descriptor that is done. -/
def Desc.status (d : Desc) : Status :=
  match d.st with
  | .done st => st
  | _ => .ok

/-- A completion record of a ring at index `q` (R259). -/
def recordBytes (n q : Nat) (d : Desc) (s : State) : Nat :=
  let phase := if q / ringSize n s % 2 = 0 then 128 else 0
  d.idx + at0 4 (d.detail % 65536) + at0 6 d.kind + at0 7 (d.status.code + phase) +
  at0 8 (if d.unread.isSome then 0 else d.get 4 4) + at0 0xC (d.info % 2 ^ 32)

/-- Whether a record signals the ring's interrupt (R260). -/
def recordIrq (n : Nat) (d : Desc) (s : State) : Bool :=
  (d.unread.isNone && (d.get 1 1).testBit 0) ||
  (decide (d.status ≠ .ok) && decide (d.status ≠ .completed) && bitF F.CMD_RING_CFG_IRQ_ERR 0 n s)

/-- A descriptor leaves its ring. -/
def dropDesc (n i : Nat) (s : State) : State :=
  let r := s.ring n
  s.putRing n { r with descs := r.descs.filter fun d => decide (d.idx ≠ i) }

/-- The tag of the front end's record writes. -/
def recordTag : Nat := 2

/-- COMPLETION_RECORD: the next record of a ring is written at CQ_TAIL, with release: after every write of the ring before it (R260); a
write that fails stops the ring, and a stopped ring discards its records. -/
def completionRecord (n : Nat) (s0 : State) : State :=
  let s := (s0.ring n).descs.foldl (fun z d => moveOver n d z) s0
  match nextRecord n s with
  | none => s
  | some d =>
    if bitF F.CMD_RING_STAT_STOPPED 0 n s then dropDesc n d.idx s
    else
      let q := getF F.CMD_DB_CQ_TAIL_CQ_TAIL 0 n s
      let at0 := getF F.CMD_RING_CQ_BASE 0 n s * 4096 + 16 * (q % ringSize n s)
      let r := if d.recording || ringPerformed n s then
          ringAccess at0 (tell (.cmd n) recordTag (ringWho n s) at0 16 65535 (recordBytes n q d s)) s
        else (.wait, s)
      match r.1 with
      | .wait => putDesc n { d with recording := true } r.2
      | .bad _ =>
        flagF F.CMD_RING_STAT_STOPPED 0 n (flagF F.CMD_RING_STAT_CQ_LOST 0 n (ringEvent F.CMD_STATUS_CQ_LOST n
          (dropDesc n d.idx (askDone (.cmd n) recordTag r.2))))
      | .ok _ =>
        let s1 := setF F.CMD_DB_CQ_TAIL_CQ_TAIL 0 n ((q + 1) % 2 ^ 32) (dropDesc n d.idx (askDone (.cmd n) recordTag r.2))
        let s2 := incF F.CMD_RECORDS_COUNT 0 0 1 s1
        if recordIrq n d s then irq (getF F.CMD_RING_CFG_IID 0 n s) s2 else s2

def execCompletionRecord (ring : RingId) (s : State) : Host.Outcome State Fault Refusal := .next (completionRecord ring.val s)

/-- CMD_RING_CFG and CMD_RING_STAT as they read. -/
def viewRingCfg (n : Nat) (s : State) : BitVec 64 :=
  F.CMD_RING_CFG_BUSY.put (readReg .CMD_RING_CFG 0 n s) (b2n (ringBusy n s))

/-- CMD_RING_STAT (R282). -/
def viewRingStat (n : Nat) (s : State) : BitVec 64 :=
  F.CMD_RING_STAT_INFLIGHT.put (readReg .CMD_RING_STAT 0 n s) (s.ring n).descs.length

end Sys2Proof.Machine
end

