-- ==== Sys2Proof/Machine/Link.lean ====
section
/-!
DEFINITION. The interrupt map (R335), and the UCIe links between dies (R321 to R327, R343): who faces whom, training, flits.
-/

namespace Sys2Proof.Machine

/-! ## Interrupts -/

def execIrqSignal (iid : Fin 2048) (s : State) : Host.Outcome State Fault Refusal := .next (irq iid.val s)

/-- IRQ_MAP_WRITE: with EN set a pending signal is delivered and PENDING clears (R335). -/
def irqMapWrite (i : Nat) (v mask : BitVec 64) (s : State) : State :=
  let s1 := swWriteReg .D2D_IRQ_MAP 0 i v mask s
  if bitF F.D2D_IRQ_MAP_EN 0 i s1 && bitF F.D2D_IRQ_MAP_PENDING 0 i s1 then irq i (setF F.D2D_IRQ_MAP_PENDING 0 i 0 s1) else s1

def execIrqMapWrite (i : Fin 2048) (v : BitVec 32) (s : State) : Host.Outcome State Fault Refusal :=
  .next (irqMapWrite i.val (v.setWidth 64) 0xFFFFFFFF s)

/-! ## Links -/

/-- A link end in a state with a cause; the guest's side has no registers here. -/
def setLink (slot l st cause : Nat) (s : State) : State :=
  if slot = 15 then s
  else setF F.D2D_LINK_STATUS_CAUSE (linkUnit slot l) 0 cause (setF F.D2D_LINK_STATUS_STATE (linkUnit slot l) 0 st s)

/-- The state of a link end. -/
def linkState (slot l : Nat) (s : State) : Nat := getF F.D2D_LINK_STATUS_STATE (linkUnit slot l) 0 s

/-- Both ends of a link in a state, their replay buffers cleared. -/
def setBoth (slot l st cause : Nat) (s : State) : State :=
  match peerLink slot l with
  | none => setLink slot l 4 0 s
  | some (q, m) =>
    let s1 := setLink q m st cause (setLink slot l st cause s)
    { s1 with dlinks := sput Port.reset (sput Port.reset s1.dlinks (linkUnit slot l) Port.reset) (linkUnit q m) Port.reset }

/-- The package feature set (R327). -/
def pkgFeatures (s : State) : Nat :=
  ((List.range 15).foldl (fun z d => z &&& (look s.mgt.feats d).getD 0x7FF) (0x7FF : BitVec 64)).toNat

/-- A die compared with the identity record (R38). -/
def checkDie (d kind rev : Nat) (s : State) : State :=
  match identEntry d s with
  | some (k, r) => if k = kind ∧ r = rev then s else noIdentity 3 d s
  | none => s

/-- KIND and REVISION of a die header: a reserved KIND reads as 0, and REVISION is 0 where KIND is 0 (R35). -/
def setDieKind (d kind rev : Nat) (s : State) : State :=
  let k := if kind ≤ 4 then kind else 0
  setF F.MGT_DIE_INFO_REVISION d 0 (if k = 0 then 0 else rev) (setF F.MGT_DIE_INFO_KIND d 0 k s)

/-- A die reports what it is; its reserved feature bits are 0 and, having trained, its TRAINED bit is 1; the package feature set follows
(R325 to R327). -/
def reportDie (d : Nat) (i : DieInfo) (s : State) : State :=
  let s1 := setDieKind d i.kind.toNat i.rev.toNat s
  let s2 := { s1 with mgt := { s1.mgt with feats := lput s1.mgt.feats d (i.feats &&& 0x7FF ||| 1) } }
  setF F.D2D_PKG_FEATURES_BITMAP 0 0 (pkgFeatures s2) s2

/-- D2D_FENCE_STATUS.BUSY clears once no die that returns still trains (R343). -/
def returnEnds (s : State) : State :=
  if s.mgt.fences.isEmpty && !(List.range 16).any fun d => decide (dieState d s = 4) then setF F.D2D_FENCE_STATUS_BUSY 0 0 0 s else s

/-- A die in TRAINING whose links to present peers have all come UP or failed: PRESENT where one is UP, else ABSENT. -/
def settleDie (d : Nat) (s : State) : State :=
  let l := (linksOfDie d).filter fun e => decide (dieState e.2.1 s = 0) || decide (dieState e.2.1 s = 4)
  if dieState d s ≠ 4 ∨ d = 15 ∨ (l.any fun e => decide (linkState d e.1 s = 1) && decide (e.2.1 ≠ 15)) = true then s
  else if l.any fun e => decide (linkState d e.1 s = 2) then
    let s1 := setF F.MGT_DIE_INFO_STATE d 0 0 s
    let s2 := setF F.MGT_DIE_FEATURES_BITMAP d 0 (((look s.mgt.feats d).getD 0).toNat) s1
    returnEnds (checkDie d (getF F.MGT_DIE_INFO_KIND d 0 s) (getF F.MGT_DIE_INFO_REVISION d 0 s) s2)
  else returnEnds (setF F.MGT_DIE_INFO_STATE d 0 2 (setDieKind d 0 0 s))

/-- LINK_TRAIN (R325): a link in TRAINING between two dies that are not fenced. The guest's link trains in discovery. -/
def linkTrain (slot l : Nat) (r : LinkTrain) (s : State) : State :=
  match peerLink slot l with
  | none => setLink slot l 4 0 s
  | some (q, m) =>
    if q = 15 ∨ slot = 15 ∨ !s.pins.vmain ∨ inReset s ∨ linkState slot l s ≠ 1 ∨ dieState slot s = 1 ∨ dieState q s = 1 then s
    else match r with
      | .up rate near far =>
        let s1 := setF F.D2D_LINK_STATUS_RATE (linkUnit slot l) 0 rate.val (setF F.D2D_LINK_STATUS_PEER_SLOT (linkUnit slot l) 0 q
          (setF F.D2D_LINK_STATUS_RATE (linkUnit q m) 0 rate.val (setF F.D2D_LINK_STATUS_PEER_SLOT (linkUnit q m) 0 slot
            (setBoth slot l 2 0 s))))
        settleDie q (settleDie slot (reportDie q far (reportDie slot near s1)))
      | .failed => settleDie q (settleDie slot (setBoth slot l 0 1 s))

def execLinkTrain (d : SlotId) (l : Fin 4) (r : LinkTrain) (s : State) : Host.Outcome State Fault Refusal :=
  .next (linkTrain d.val l.val r s)

/-- D2D_LINK_CFG.RETRAIN: an UP link retrains with its traffic held. -/
def linkRetrain (slot l : Nat) (s : State) : State := if linkState slot l s = 2 then setBoth slot l 1 0 s else s

def execD2dRetrain (d : SlotId) (l : Fin 4) (s : State) : Host.Outcome State Fault Refusal := .next (linkRetrain d.val l.val s)

/-! ## Flits (R323) -/

/-- The link side of a link end. -/
def State.dlink (s : State) (u : Nat) : Port := sget Port.reset s.dlinks u

/-- The state with the link side of a link end replaced. -/
def State.putDlink (s : State) (u : Nat) (k : Port) : State := { s with dlinks := sput Port.reset s.dlinks u k }

/-- A replay started by the sender at the far end. -/
def senderReplays (slot l : Nat) (s : State) : State :=
  match peerLink slot l with
  | none => s
  | some (q, m) =>
    if q = 15 then s
    else
      let u := linkUnit q m
      let k := (s.dlink u).replay 0 (getF F.D2D_LINK_CFG_RETRY_LIMIT u 0 s) s.tick
      incF F.D2D_LINK_RETRY_COUNT u 0 1 (s.putDlink u k)

/-- A flit counted by the sender at the far end; one delivered ends the row of replays of one flit. -/
def senderSent (slot l : Nat) (good : Bool) (s : State) : State :=
  match peerLink slot l with
  | none => s
  | some (q, m) =>
    if q = 15 then s
    else
      let u := linkUnit q m
      let s1 := incF F.D2D_LINK_FLITS_COUNT u 0 1 s
      if good then s1.putDlink u { s1.dlink u with again := none } else s1

/-- D2D_FLIT_RECEIVE: corrected, checked, and delivered, or discarded with every later flit until the sender replays. -/
def dflitReceive (slot l : Nat) (f : DFlit) (s : State) : State :=
  let u := linkUnit slot l
  if linkState slot l s ≠ 2 then s
  else
    let s1 := flitCorrect F.D2D_LINK_CE_COUNT u ⟨4, slot, l, 0⟩ f.corrected s
    let k := s1.dlink u
    if f.bad then
      senderReplays slot l (senderSent slot l false (incF F.D2D_LINK_BAD_COUNT u 0 1 (s1.putDlink u { k with discarding := true })))
    else if k.discarding && !f.again then senderSent slot l false (incF F.D2D_LINK_BAD_COUNT u 0 1 s1)
    else senderSent slot l true (s1.putDlink u { k with discarding := false })

def execD2dFlitReceive (d : SlotId) (l : Fin 4) (f : DFlit) (s : State) : Host.Outcome State Fault Refusal :=
  .next (dflitReceive d.val l.val f s)

end Sys2Proof.Machine
end

