-- ==== Sys2Proof/Machine/Xinval.lean ====
section
/-!
DEFINITION. Withdrawal of translations (R240 to R244): the XINVAL commands, the reports of drained receivers, epochs, and what
waits for them.
-/

namespace Sys2Proof.Machine

/-- Whether pages [lo, lo + n) meet a range of 2^sh bytes whose number is `vpn`. -/
def meets (lo n vpn sh : Nat) : Bool :=
  decide (vpn * 2 ^ (sh - 16) < lo + n) && decide (lo < (vpn + 1) * 2 ^ (sh - 16))

/-- What an invalidation names: a context (none for every one) and pages. -/
structure Names where
  ctx : Option Nat
  lo : Nat
  n : Nat
  deriving DecidableEq, Repr

/-- Whether it names a context. -/
def Names.has (x : Names) (ctx : Nat) : Bool :=
  match x.ctx with
  | none => true
  | some c => decide (c = ctx)

/-- Whether it removes a cached translation (R241). -/
def Names.takes (x : Names) (t : Tlb) : Bool := x.has t.ctx && meets x.lo x.n t.vpn (leafShift t.level)

/-- Whether it removes a walk-cache entry for its own range. -/
def Names.takesWalk (x : Names) (e : WalkEnt) : Bool := x.has e.ctx && meets x.lo x.n e.vpn (leafShift (e.level - 1))

/-- A set without the translations removed. -/
def TlbSet.drop (x : Names) (c : TlbSet) : TlbSet := { c with ways := c.ways.filter fun w => !x.takes w.2 }

/-- Whether a set holds a translation that is removed for context `c`. -/
def TlbSet.loses (x : Names) (ctx : Nat) (c : TlbSet) : Bool := c.ways.any fun w => decide (w.2.ctx = ctx) && x.takes w.2

/-- Whether any cache of the package loses an entry of a context. -/
def anyLost (x : Names) (ctx : Nat) (s : State) : Bool :=
  s.iotlb.any (fun e => e.2.loses x ctx) || s.ptc.any (fun e => e.2.loses x ctx) ||
  s.beds.any (fun e => e.2.utlb.loses x ctx) || s.walkc.any (fun e => decide (e.ctx = ctx) && x.takesWalk e)

/-- A walk that an invalidation meets: overtaken where the largest leaf it may find overlaps the named pages (R244); the non-leaf entries
that any walk of the context has passed are not cached. -/
def Walk.overtake (x : Names) (k : Walk) : Walk :=
  if x.has k.ctx then { k with path := [], stale := k.stale || meets x.lo x.n (vaOf k.va / 2 ^ 42) 42 } else k

/-- The caches without what an invalidation removes; the walk cache loses every entry of a context that loses any (R241). Walks that
it names are overtaken. -/
def removeAll (x : Names) (s : State) : State :=
  { s with iotlb := smap TlbSet.empty (fun _ c => c.drop x) s.iotlb, ptc := smap TlbSet.empty (fun _ c => c.drop x) s.ptc,
           beds := smap Bed.reset (fun _ k => { k with utlb := k.utlb.drop x }) s.beds,
           walkc := s.walkc.filter fun e => !(x.has e.ctx && anyLost x e.ctx s),
           walks := s.walks.map (Walk.overtake x) }

/-- Every plot translation cache of a present plot receives the invalidation (R252). -/
def countInval (n : Nat) (s : State) : State :=
  match n with
  | 0 => s
  | k + 1 => let s1 := countInval k s; if slotPresent k s then incF F.XLT_PTC_INVAL_COUNT k 0 1 s1 else s1

/-- Whether a request under way belongs to a receiver of invalidations. -/
def srcIsOf (x : Src) (recv : Nat) : Bool :=
  match x with
  | .bed b => decide (b = recv)
  | .brw b => decide (b = recv)
  | .bsq b => decide (b = recv)
  | .cmd _ => decide (recv = 4800)
  | .guest => decide (recv = 4801)
  | _ => false

/-- The context in which a receiver's request was translated, where its standing tells. -/
def ctxOfReq (r : Req) : Option Nat :=
  if r.src = .guest then some 32 else if r.who.host then none else some r.who.part.val

/-- Whether a request under way may be a transfer of a context: one of host standing may be of any (R242: a receiver may wait for more). -/
def ofCtx (ctx : Option Nat) (r : Req) : Bool :=
  match ctx, ctxOfReq r with
  | some c, some d => decide (c = d)
  | _, _ => true

/-- Whether a context is that of a partition. -/
def ctxIs (ctx : Option Nat) (p : Nat) : Bool :=
  match ctx with
  | none => true
  | some c => decide (c = p)

/-- Whether a bed still has a transfer of the old generation of a context beside its requests (R242): entries of its merging buffer and
writes waiting for one, storage requests in flight, and its adds held at a controller. -/
def bedOwes (b : Nat) (ctx : Option Nat) (floor : Nat) (s : State) : Bool :=
  let k := s.bed b
  k.merge.any (fun e => decide (e.id < floor) && ctxIs ctx e.part.val) ||
  k.mergeWait.any (fun w => decide (w.owner < floor) && ctxIs ctx w.part.val) ||
  k.progs.any (fun p => ctxIs ctx p.part.val && p.moves.any fun m => match m.tag with
    | some t => decide (t.2 < floor)
    | none => false) ||
  s.stks.any fun e => e.2.oadd.any fun a => decide (400 * a.slot + a.bed = b) && decide (a.pkg = ownPkg s) && decide (a.id < floor) &&
    ctxIs ctx a.part.val

/-- Whether a receiver still has a transfer of the old generation of a context outstanding (R242): one numbered below `floor`. A request
that waits for its translation is none, and a bed on a plot that is not present is not waited for. -/
def owes (recv : Nat) (ctx : Option Nat) (floor : Nat) (s : State) : Bool :=
  let net := s.net.any fun r => srcIsOf r.src recv && decide (r.id < floor) && decide (r.st ≠ .answered) && decide (r.st ≠ .walking) &&
    ofCtx ctx r
  if 4800 ≤ recv then net else slotPresent (plotOf recv) s && (net || bedOwes recv ctx floor s)

/-- The receivers that have something to wait for. -/
def owing (ctx : Option Nat) (floor : Nat) (s : State) : List Nat :=
  (s.beds.map Prod.fst ++ [4800, 4801]).filter fun r => owes r ctx floor s

/-- The beds that run a launch of a context perform INV_ALL (R240). -/
def invBeds (x : Names) (on : Bool) (s : State) : State :=
  if on then (s.beds.map Prod.fst).foldl (fun z b => if (z.bed b).running && x.has (z.bed b).part then invAll b z else z) s else s

/-- An invalidation begins: entries go, the receivers' generations flip, and those with transfers outstanding are waited for. -/
def startInv (x : Names) (epoch : Option (BitVec 32)) (bedc : Bool) (s : State) : State :=
  let (id, s1) := s.takeId
  let s2 := invBeds x bedc (countInval 12 (removeAll x s1))
  { s2 with xinvs := s2.xinvs ++ [⟨id, x.ctx, epoch, id, owing x.ctx id s2, none⟩] }

/-- The context field of a command: 33 to 63 clamp to 32 (R240). -/
def ctxOf (f : XInvF) : Nat := min 32 f.ctx.toNat

/-- Every page. -/
def allPages : Nat := 2 ^ 39

def execXinvalPage (f : XInvF) (s : State) : Host.Outcome State Fault Refusal :=
  .next (startInv ⟨some (ctxOf f), f.vpn.toNat, 1⟩ (some f.epoch) f.bedc s)

def execXinvalRange (f : XInvF) (s : State) : Host.Outcome State Fault Refusal :=
  .next (startInv ⟨some (ctxOf f), f.vpn.toNat, f.count.toNat + 1⟩ (some f.epoch) f.bedc s)

def execXinvalContext (f : XInvF) (s : State) : Host.Outcome State Fault Refusal :=
  .next (startInv ⟨some (ctxOf f), 0, allPages⟩ (some f.epoch) f.bedc s)

def execXinvalAll (f : XInvF) (s : State) : Host.Outcome State Fault Refusal :=
  .next (startInv ⟨none, 0, allPages⟩ none f.bedc s)

/-- A receiver whose old generation has drained reports (R242). -/
def invDrained (id recv : Nat) (s : State) : State :=
  { s with xinvs := s.xinvs.map fun x =>
    if x.id = id ∧ owes recv x.ctx x.floor s = false then { x with waiting := x.waiting.filter (· ≠ recv) } else x }

def execXinvalDrained (id : Nat) (recv : Fin 4802) (s : State) : Host.Outcome State Fault Refusal :=
  .next (invDrained id recv.val s)

/-- Whether two invalidations concern one context. -/
def sameCtx (a b : Option Nat) : Bool := a.isNone || b.isNone || a = b

/-- Whether an invalidation stands behind an earlier one of its context (R243). -/
def behind (id : Nat) (ctx : Option Nat) : List XInv → Bool
  | [] => false
  | x :: r => if x.id = id then false else sameCtx x.ctx ctx || behind id ctx r

/-- The epoch of a context advanced, where the new one is ahead modulo 2^32 (R243). -/
def advanceEpoch (ctx : Nat) (e : BitVec 32) (s : State) : State :=
  let old := BitVec.ofNat 32 (getF F.XLT_CTX_EPOCH_EPOCH 0 ctx s)
  if 0 < (e - old).toNat ∧ (e - old).toNat < 2 ^ 31 then setF F.XLT_CTX_EPOCH_EPOCH 0 ctx e.toNat s else s

/-- Whether a write of the IOMMU has been performed. -/
def writeOver (id : Nat) (s : State) : Bool :=
  match netGet id s with
  | some r => decide (r.st = .queued)
  | none => true

/-- Whether every write of the IOMMU has been performed (R151). -/
def iommuClear (s : State) : Bool := !s.net.any fun r => decide (r.src = .iommu) && r.write && decide (r.st ≠ .queued)

/-- The IOFENCE.C commands for which an XINVAL was the last to wait for are answered (R243). -/
def fencesPass (id : Nat) (s : State) : State :=
  let l := s.iofences.map fun f => (f.1, f.2.filter (· ≠ id))
  (l.filter fun f => f.2.isEmpty).foldl (fun z f => respond f.1 .ok 0 z) { s with iofences := l.filter fun f => !f.2.isEmpty }

/-- An XINVAL leaves the queue, with what waits for it (R243). -/
def invEnds (x : XInv) (s : State) : State :=
  let s1 := { s with xinvs := s.xinvs.filter fun y => decide (y.id ≠ x.id) }
  fencesPass x.id (if x.epoch.isSome || x.ctx.isNone then incF F.XLT_INVALS_COUNT 0 0 1 s1 else s1)

/-- The epoch of an XINVAL advanced and its epoch word written, with release at GROVE scope: after every write of the IOMMU before it (R151,
R243). -/
def invEpoch (x : XInv) (c : Nat) (e : BitVec 32) (s : State) : State :=
  if !iommuClear s then s
  else
    let s1 := advanceEpoch c e s
    let a := getF F.XLT_CTX_EPADDR_ADDR 0 c s1 * 4
    if a = 0 then invEnds x s1
    else
      let r := hostWrite a 4 (getF F.XLT_CTX_EPOCH_EPOCH 0 c s1) s1
      { r.2 with xinvs := r.2.xinvs.map fun y => if y.id = x.id then { y with wr := some r.1 } else y }

/-- An invalidation whose receivers have all drained, with none of its context before it, completes: its epoch, its epoch word, and once
that is performed the IOFENCE.C commands that wait on it (R243). -/
def invComplete (id : Nat) (s : State) : State :=
  match s.xinvs.find? fun x => decide (x.id = id) with
  | none => s
  | some x =>
    if !x.waiting.isEmpty || behind id x.ctx s.xinvs then s
    else match x.wr, x.ctx, x.epoch with
      | some q, _, _ => if writeOver q s then invEnds x s else s
      | none, some c, some e => invEpoch x c e s
      | none, _, _ => invEnds x s

def execXinvalComplete (id : Nat) (s : State) : Host.Outcome State Fault Refusal := .next (invComplete id s)

/-- Clearing EN of a context acts as an XINVAL CONTEXT without an epoch (R244). -/
def ctxDisable (i : Nat) (s : State) : State :=
  if bitF F.XLT_CTX_ROOT_EN 0 i s then startInv ⟨some i, 0, allPages⟩ none false (setF F.XLT_CTX_ROOT_EN 0 i 0 s) else s

def execCtxDisable (i : CtxId) (s : State) : Host.Outcome State Fault Refusal := .next (ctxDisable i.val s)

/-- IOFENCE.C waits for every XINVAL before it (R243), and completes at once where none is under way. -/
def ioFence (id : Nat) (s : State) : State :=
  if s.xinvs.isEmpty then respond id .ok 0 s else { s with iofences := s.iofences ++ [(id, s.xinvs.map (·.id))] }

def execIofenceC (id : Nat) (s : State) : Host.Outcome State Fault Refusal := .next (ioFence id s)

/-! ## Views (R251, R252) -/

/-- Translations held in a list of sets. -/
def heldTlb (l : List (Nat × TlbSet)) : Nat := l.foldl (fun z e => z + e.2.ways.length) 0

/-- XLT_STATUS. -/
def viewXltStatus (s : State) : BitVec 64 :=
  F.XLT_STATUS_OPEN.put (F.XLT_STATUS_FQ_FULL.put (readReg .XLT_STATUS 0 0 s)
    (if s.faults.any fun f => f.entry.isNone then 1 else 0)) s.faults.length

/-- XLT_CTX_EPOCH[i]. -/
def viewCtxEpoch (i : Nat) (s : State) : BitVec 64 :=
  F.XLT_CTX_EPOCH_BUSY.put (readReg .XLT_CTX_EPOCH 0 i s) (if s.xinvs.any fun x => sameCtx x.ctx (some i) then 1 else 0)

/-- XLT_PTC_STATUS of plot `p`. -/
def viewPtcStatus (p : Nat) (s : State) : BitVec 64 :=
  F.XLT_PTC_STATUS_VALID.put (readReg .XLT_PTC_STATUS p 0 s) (heldTlb (s.ptc.filter fun e => decide (e.1 / 2048 = p)))

/-- XLT_UTLB_STATUS of bed `b`. -/
def viewUtlbStatus (b : Nat) (s : State) : BitVec 64 :=
  F.XLT_UTLB_STATUS_DRAINING.put (F.XLT_UTLB_STATUS_VALID.put (readReg .XLT_UTLB_STATUS b 0 s) (s.bed b).utlb.ways.length)
    (if s.xinvs.any fun x => x.waiting.contains b then 1 else 0)

end Sys2Proof.Machine
end

