-- ==== Sys2Proof/Machine/Fence.lean ====
section
/-!
DEFINITION. Fencing of a plot, the guest die or the processor die, and the return of a fenced die (R31, R192, R193, R324, R340 to R342,
R398); discovery and power of the guest die (R336 to R339).
-/

namespace Sys2Proof.Machine

/-! ## What belongs to a die -/

/-- Whether a source of requests is on a die. -/
def srcOn (d : Nat) (x : Src) : Bool :=
  match x with
  | .pkg _ _ _ => false
  | .iommu => decide (d = 14)
  | y => decide ((srcPlace y).1 = d)

/-- Whether a request under way has its home or target on a die. -/
def reqOn (d : Nat) (r : Req) (s : State) : Bool :=
  isLocal r.pkg s && (match placeOf r.pa s with
    | .dram => (match homeOf r.pa s with
      | some h => decide (h.stack / 2 = d)
      | none => false)
    | .spad c _ _ => decide (plotOf (bedOf c) = d)
    | .csr => decide ((csrSlot r.pa).1 = d)
    | _ => false)

/-- Whether an asker of translations is on a die. -/
def askerOn (d : Nat) (w : Asker) : Bool :=
  match w with
  | .barrow b => decide (plotOf b.val = d)
  | .bsq b => decide (plotOf b.val = d)
  | .cmd => decide (d = 12)
  | .guest => decide (d = 15)

/-- The links of a die, the guest's among them, by their end with registers. -/
def dieLinks (d : Nat) : List (Nat × Nat) :=
  if d = 15 then [(13, 3)] else (linksOfDie d).map fun e => (d, e.1)

/-- The plot whose supervisor's registers an element belongs to. -/
def plotOfUnit (b : Block) (inst : Nat) : Option Nat :=
  match b with
  | .core | .grid | .spad => some (inst / 25600)
  | .bedc | .brw | .utlb | .bsq => some (inst / 400)
  | .stk => some (inst / 2)
  | .ptc | .pwrPlot | .tapPlot => some inst
  | .link => if inst < 48 then some (inst / 4) else none
  | _ => none

/-! ## The fence -/

/-- The effect of a fence on one request (R341): one aimed at the die completes with DIE_ABSENT; one from the die that has not arrived
whole is discarded; one that has arrived goes on, and its response is discarded. -/
def fenceReq (d id : Nat) (s : State) : State :=
  match netGet id s with
  | none => s
  | some r =>
    if r.st = .answered then (if srcOn d r.src then netDel id s else s)
    else if reqOn d r s then complete r .dieAbsent 0 s
    else if srcOn d r.src && (decide (r.st = .sent) || decide (r.st = .held) || decide (r.st = .walking) || decide (r.st = .cached)) then
      netDel id s
    else s

/-- Every request under way meets the fence. -/
def fenceNet (d : Nat) (s : State) : State := (s.net.map (·.id)).foldl (fun z i => fenceReq d i z) s

/-- A request under way after the routes have changed (R16, R17): with no path left it completes with DIE_ABSENT; on a new route it is sent
again, and where it had arrived already its destination is to discard the copy. -/
def reroute (id : Nat) (s : State) : State :=
  match netGet id s with
  | none => s
  | some r =>
    let n := reqRoute r.src r.pkg r.pa s
    if r.st = .answered ∨ r.route = [] ∨ n = r.route then s
    else if cutOff r.src r.pkg r.pa s then complete r .dieAbsent 0 s
    else if n = [] then s
    else netPut { r with route := n, again := r.again || decide (r.st ≠ .sent), linkMark := true } s

/-- The new routes are written, and every request under way meets them, in its source's order. -/
def rerouteAll (s0 : State) : State :=
  let s := writeRoutes s0
  (s.net.map (·.id)).foldl (fun z i => reroute i z) s

/-- Transfers of the die are no longer waited for, and its askers leave the walks and fault records (R242, R250, R341). -/
def fenceXlt (d : Nat) (s : State) : State :=
  let mine (r : Nat) : Bool := (decide (r < 4800) && decide (plotOf r = d)) || (decide (r = 4801) && decide (d = 15))
  { leaveXlt (fun w _ => askerOn d w) s with
    xinvs := s.xinvs.map fun x => { x with waiting := x.waiting.filter fun r => !mine r },
    ptc := s.ptc.filter fun e => decide (e.1 / 2048 ≠ d) }

/-- A core whose die is cut off: it runs nothing; its image stream is kept for a rollback, which restarts it (R374). -/
def cutCore (k : Core) : Core :=
  { Core.reset with stream := k.stream, streamVA := k.streamVA, streamLen := k.streamLen, finished := true }

/-- A bed whose die is cut off. -/
def cutBed (k : Bed) : Bed := { Bed.reset with lbed := k.lbed, part := k.part, espalier := k.espalier, kept := k.kept }

/-- The statuses that a program has met. -/
def Prog.statuses (q : Prog) : List Status := q.failed.toList ++ q.moves.filterMap (·.bad)

/-- The MOVE descriptors whose programs a bed holds complete with DIE_ABSENT, or with a lower-numbered status that they have met (R12). -/
def cutMoves (b : Nat) (s : State) : State :=
  let k := s.bed b
  (k.armed ++ k.progs).foldl (fun z q => match q.desc with
    | some (n, i) => sendReport n i (Status.joinAll .dieAbsent q.statuses) 0xFFFF 0 z
    | none => z) s

/-- The accesses that wait at the scratchpads of a plot complete with DIE_ABSENT (R22). -/
def cutWaiting (d : Nat) (s : State) : State :=
  ((s.cores.filter fun e => decide (plotOf (bedOf e.1) = d) && !e.2.outside.isEmpty).map (·.1)).foldl (fun z c => answerWaiting c .dieAbsent z) s

/-- The beds and cores of a plot cut off. -/
def cutPlot (d : Nat) (s : State) : State :=
  let s1 := ((s.beds.map Prod.fst).filter fun b => decide (plotOf b = d)).foldl (fun z b => cutMoves b z) (cutWaiting d s)
  { s1 with
    beds := smap Bed.reset (fun b k => if plotOf b = d then cutBed k else k) s1.beds,
    cores := smap Core.reset (fun c k => if plotOf (bedOf c) = d then cutCore k else k) s1.cores,
    wakes := s1.wakes.filter (fun e => decide (e.1 / 16 ≠ d)), retains := s1.retains.filter fun g => decide (g / 16 ≠ d),
    retunes := s1.retunes.filter fun r => decide (r.plot ≠ d) }

/-- PLOT_FENCE_ROLLBACK: every partition that owns a bed group of the plot is stopped for rollback (R31). -/
def fenceParts (d : Nat) (s : State) : State :=
  (List.range 32).foldl (fun z p =>
    if (List.range 16).any fun g => decide (bgOwner (16 * d + g) z = some p) then rollbackPart p .dieAbsent z else z) s

/-- The partitions of this package whose launches issued the adds that a stack holds: their own, or their part of a grove launch. -/
def addParts (st : Nat) (s : State) : List Nat :=
  (((s.stack st).oadd.filter fun a => decide (a.pkg = ownPkg s) || (launchOf a.part.val s).any (·.grove)).map (·.part.val)).eraseDups

/-- A stack of a fenced plot: its regions fault, the adds it held are discarded, and the launches that issued them end with DIE_ABSENT
(R168, R193). -/
def fenceStack (st : Nat) (s : State) : State :=
  let s1 := faultRegions st 64 ((addParts st s).foldl (fun z p => failLaunch p .dieAbsent z) s)
  s1.putStack st { s1.stack st with oadd := [], rows := [], writeback := [] }

/-- What a plot's fence does beside cutting its links. -/
def fencePlot (d : Nat) (s : State) : State :=
  cutPlot d (fenceParts d (fenceStack (2 * d + 1) (fenceStack (2 * d) s)))

/-- A snoop that the processor die no longer answers: the request goes on (DEDUCED from R341, log entry 30). -/
def snoopCut (id : Nat) (s : State) : State :=
  match netGet id s with
  | none => s
  | some r => if r.st = .snooping then snoopResponse id none none s else s

/-- The caches of a fenced processor die are lost: no line of any stack is in the snoop filters. -/
def fenceHost (s : State) : State :=
  let s1 := (s.net.map (·.id)).foldl (fun z i => snoopCut i z) s
  { s1 with stks := smap Stack.reset (fun _ k => { k with snoop := [] }) s1.stks }

/-- The status registers of a fence. -/
def noteFence (d cause : Nat) (s : State) : State :=
  let bits := getF F.D2D_FENCE_STATUS_FENCED 0 0 s ||| 2 ^ d
  let s1 := setF F.D2D_FENCE_STATUS_LAST_SLOT 0 0 d (setF F.D2D_FENCE_STATUS_LAST_CAUSE 0 0 cause
    (setF F.D2D_FENCE_STATUS_FENCED 0 0 bits s))
  setF F.MGT_DIE_FEATURES_BITMAP d 0 0 (setF F.MGT_DIE_INFO_STATE d 0 1 s1)

/-- The cause that the links of a fenced die show: ERRORS, CLOCK, POWER, or none. -/
def linkCause (cause : Nat) : Nat := if cause = 2 then 3 else if cause = 3 then 2 else if cause = 4 then 5 else 0

/-- A fence takes effect: logged before it acts (R398), the stacks of a plot into self-refresh, after their accepted writes where it is
ordered (R192), then the rules of R341. -/
def fenceNow (d cause unit : Nat) (ordered : Bool) (s : State) : State :=
  let s0 := logEvent ⟨7, 0xFF, d, 255, unit, 0, 0, 255, 255⟩ s
  let s1 := if d < 12 then selfRefresh (2 * d + 1) ordered (selfRefresh (2 * d) ordered s0) else s0
  let s2 := (dieLinks d).foldl (fun z e => setBoth e.1 e.2 3 (linkCause cause) z) (noteFence d cause s1)
  let s3 := fenceXlt d (rerouteAll (fenceNet d s2))
  let s4 := if d < 12 then fencePlot d s3 else if d = 14 then fenceHost s3
    else { s3 with guest := { s3.guest with rail := s3.guest.rail && decide (cause ≠ 4) } }
  eventIrq s4

/-- A die is fenced where it exchanges data or trains; while the management controller restarts, the fence completes when that ends
(R400). -/
def fenceDie (d cause unit : Nat) (ordered : Bool) (s : State) : State :=
  if dieState d s ≠ 0 ∧ dieState d s ≠ 4 then s
  else if bitF F.MGT_ERR_STATUS_RESTARTING 0 0 s then
    setF F.D2D_FENCE_STATUS_BUSY 0 0 1 { s with mgt := { s.mgt with fences := s.mgt.fences ++ [(d, cause, ordered)] } }
  else fenceNow d cause unit ordered s

/-- The code of a cause, and whether it gives the stacks time. -/
def fenceCode (w : FenceWhy) : Nat × Bool :=
  match w with
  | .command => (0, true)
  | .reset o => (1, o)
  | .clock => (2, false)
  | .link => (3, false)
  | .power => (4, false)

/-- DIE_FENCE: plots and the guest die on any cause of R340, guest power for the guest alone, the processor die by a failing link alone
(R324). -/
def dieFence (d : Nat) (why : FenceWhy) (s : State) : State :=
  let ok := (decide (d < 12) && decide (why ≠ .power)) || decide (d = 15) || (decide (d = 14) && decide (why = .link))
  if ok then fenceDie d (fenceCode why).1 0 (fenceCode why).2 s else s

def execDieFence (d : SlotId) (why : FenceWhy) (s : State) : Host.Outcome State Fault Refusal := .next (dieFence d.val why s)

/-! ## Failing links (R324) -/

/-- The die that a failing link takes with it. -/
def failingDie (p q : Nat) : Nat :=
  if p < 12 ∧ q < 12 then max p q
  else if p < 12 then p
  else if q < 12 then q
  else if q = 15 then 15 else 14

/-- LINK_FAILING: the replay rules are judged by what this end of the link has replayed. -/
def linkFailing (slot l : Nat) (why : LinkFail) (s : State) : State :=
  match peerLink slot l with
  | none => s
  | some (q, _) =>
    let u := linkUnit slot l
    let k := s.dlink u
    let holds : Bool := match why with
      | .replays => k.tooMany (getF F.D2D_LINK_CFG_RETRY_LIMIT u 0 s) s.tick
      | .eightTimes => k.eightTimes
      | .clock => true
    if linkState slot l s ≠ 2 || !holds then s
    else fenceDie (failingDie slot q) (if why = .clock then 2 else 3) l false s

def execLinkFailing (d : SlotId) (l : Fin 4) (why : LinkFail) (s : State) : Host.Outcome State Fault Refusal :=
  .next (linkFailing d.val l.val why s)

/-- CXL_FENCE_INVALIDATE: after a plot's fence the processor die discards its lines of that plot's stacks (R333). -/
def cxlInvalidate (p dirty : Nat) (s : State) : State :=
  if dieState p s ≠ 1 then s
  else
    let drop (st : Nat) (z : State) : State := z.putStack st { z.stack st with snoop := [] }
    incF F.D2D_CXL_LOST_COUNT 0 0 dirty (drop (2 * p + 1) (drop (2 * p) s))

def execCxlFenceInvalidate (p : PlotId) (dirty : Nat) (s : State) : Host.Outcome State Fault Refusal :=
  .next (cxlInvalidate p.val dirty s)

/-! ## The return (R342) -/

/-- Every register, by its number. -/
def regOfIdx (i : Nat) : Option Reg :=
  ([Block.hdr, .mgt, .grid, .core, .spad, .bsq, .bedc, .brw, .utlb, .stk, .reg, .ptc, .iommu, .cmd, .db, .port, .halDie, .hal, .link,
    .d2d12, .d2d13, .d2d14, .pwr, .pwrPlot, .sec, .tap, .tapPlot].flatMap Block.regs).find? fun r => decide (r.ctorIdx = i)

/-- The reset value of a register with the RW fields of `old`. -/
def keepRw (fs : List Fld) (old v : BitVec 64) : BitVec 64 :=
  match fs with
  | [] => v
  | f :: t => keepRw t old (if f.acc = .rw then f.put v (f.of old) else v)

/-- The difference from reset that is left of a register when a plot is reset and its configuration restored. -/
def restoredReg (r : Reg) (inst idx : Nat) (x : BitVec 64) : BitVec 64 :=
  let rst := r.resetVal inst idx
  keepRw r.flds (x ^^^ rst) rst ^^^ rst

/-- The registers of a plot after its reset, with the configuration of the package restored (DESIGN CHOICE: its RW fields, log entry
31). -/
def plotRegs (d : Nat) (s : State) : State :=
  { s with regs := smap 0 (fun k x =>
      match regOfIdx (k % 256) with
      | none => x
      | some r =>
        let inst := k / 256 / 2048
        if plotOfUnit r.block inst = some d then restoredReg r inst (k / 256 % 2048) x else x) s.regs }

/-- The links of a die train again to every peer that is not fenced. -/
def trainLinks (d : Nat) (s : State) : State :=
  (linksOfDie d).foldl (fun z e => if dieState e.2.1 z = 1 then z else setBoth d e.1 1 0 z) s

/-- The bed groups of a plot with the power that their owners give them. -/
def plotGroups (d : Nat) (s : State) : State :=
  (List.range 16).foldl (fun z g =>
    let i := 16 * d + g
    z.putBgPower i (if (bgOwner i z).isSome then 0 else 3)) s

/-- A die is fenced no longer: it trains, and the routes over it return (R342). -/
def unfence (d : Nat) (s : State) : State :=
  let bits := getF F.D2D_FENCE_STATUS_FENCED 0 0 s &&& (0xFFFF ^^^ 2 ^ d)
  let s1 := setF F.D2D_FENCE_STATUS_FENCED 0 0 bits s
  writeRoutes (setF F.D2D_FENCE_STATUS_BUSY 0 0 1 (setF F.MGT_DIE_INFO_STATE d 0 4 s1))

/-- A plot returns: reset, its links and stacks to be trained, its configuration restored. -/
def plotReturn (d : Nat) (s : State) : State :=
  let s1 := plotGroups d (plotRegs d (unfence d s))
  trainLinks d (setF F.STK_STATUS_STATE (2 * d + 1) 0 0 (setF F.STK_STATUS_STATE (2 * d) 0 0 s1))

/-- The guest die is discovered again from step 2. -/
def guestReturn (s : State) : State :=
  let s1 := setF F.D2D_GUEST_STATUS_GRANT_W 0 0 0 (setF F.D2D_GUEST_STATUS_STEP 0 0 1 (unfence 15 s))
  setLink 13 3 1 0 s1

/-- A fenced die returns. -/
def returnDie (d : Nat) (s : State) : State :=
  if dieState d s ≠ 1 then s else if d < 12 then plotReturn d s else if d = 15 then guestReturn s else s

/-- FENCE_RETURN: ignored for a die that is not fenced, or is in test (R342, R450). -/
def fenceReturn (d : Nat) (s : State) : State :=
  if (getF F.TAP_CTRL_DIE_EN 0 0 s).testBit d then s else returnDie d s

def execFenceReturn (d : SlotId) (s : State) : Host.Outcome State Fault Refusal := .next (fenceReturn d.val s)

/-! ## The guest die (R336 to R339) -/

/-- Bytes of the guest descriptor. -/
def State.guestField (s : State) (off n : Nat) : Nat := cut s.guest.desc.toNat off n

/-- The power that a descriptor asks for (R337). -/
def State.guestAsks (s : State) : Nat := max 1 (min 75 (s.guestField 0x1C 1))

/-- The power granted (R338). -/
def guestGrant (s : State) : State :=
  setF F.D2D_GUEST_STATUS_GRANT_W 0 0 (min s.guestAsks (getF F.D2D_GUEST_CFG_POWER_W 0 0 s)) s

/-- Discovery ends without a guest: the site's state, the last step completed, and the cause its link shows. -/
def guestGone (st step cause : Nat) (s : State) : State :=
  let s1 := setF F.D2D_GUEST_STATUS_STEP 0 0 step (setF F.MGT_DIE_INFO_STATE 15 0 st (setF F.MGT_DIE_INFO_KIND 15 0 0
    (setF F.MGT_DIE_INFO_REVISION 15 0 0 s)))
  returnEnds (setLink 13 3 0 cause { s1 with guest := ⟨0, false⟩ })

/-- A descriptor read: checked, compared with the identity record, and granted. -/
def guestRead (desc : BitVec 2048) (rate : Nat) (s : State) : State :=
  let s1 := { s with guest := ⟨desc, true⟩ }
  if s1.guestField 0 4 ≠ 0x54534755 ∨ s1.guestField 4 1 ≠ 1 then guestGone 2 4 4 s
  else
    let rev := s1.guestField 5 1
    match identEntry 15 s with
    | some (k, r) =>
      if k ≠ 4 ∨ r ≠ rev then noIdentity 3 15 (guestGone 2 4 4 s) else guestUp rev rate s1
    | none => guestUp rev rate s1
where
  /-- Steps 5 and 6 completed. -/
  guestUp (rev rate : Nat) (s : State) : State :=
    let s1 := setF F.MGT_DIE_INFO_REVISION 15 0 rev (setF F.MGT_DIE_INFO_KIND 15 0 4 (setF F.MGT_DIE_INFO_STATE 15 0 0
      (setF F.D2D_GUEST_STATUS_STEP 0 0 6 s)))
    let s2 := setF F.D2D_LINK_STATUS_PEER_SLOT (linkUnit 13 3) 0 15 (setF F.D2D_LINK_STATUS_RATE (linkUnit 13 3) 0 rate
      (setLink 13 3 2 0 s1))
    returnEnds (guestGrant s2)

/-- GUEST_DISCOVERY: after main power is present, where the guest is neither present nor fenced. -/
def guestDiscovery (g : GuestStep) (s : State) : State :=
  if !s.pins.vmain || inReset s || decide (dieState 15 s = 0) || decide (dieState 15 s = 1) then s
  else match g with
    | .bridged => guestGone 3 0 0 s
    | .empty => guestGone 2 0 0 s
    | .noRail => guestGone 2 1 0 s
    | .noTrain => guestGone 2 2 1 s
    | .noDesc => guestGone 2 3 4 s
    | .read d r => guestRead d r.val s

def execGuestDiscovery (g : GuestStep) (s : State) : Host.Outcome State Fault Refusal := .next (guestDiscovery g s)

/-- GUEST_POWER_SAMPLE: the means over 1 ms and 100 µs, in tenths of a watt (R339). -/
def guestSample (ms us : Nat) (s : State) : State :=
  if dieState 15 s ≠ 0 then s
  else
    let s1 := guestGrant (setF F.D2D_GUEST_STATUS_DRAW_DW 0 0 (min 1023 ms) s)
    let grant := getF F.D2D_GUEST_STATUS_GRANT_W 0 0 s1
    let s2 := if 10 * grant < ms then eventIrq (flagF F.D2D_GUEST_STATUS_OVER 0 0 s1) else s1
    if 11 * grant < ms ∨ 750 < us then fenceDie 15 4 3 false s2 else s2

def execGuestPowerSample (ms us : Nat) (s : State) : Host.Outcome State Fault Refusal := .next (guestSample ms us s)

/-- D2D_GUEST_DESC word `i` (R343): 0 when the site is bridged or absent. -/
def viewGuestDesc (i : Nat) (s : State) : BitVec 64 := BitVec.ofNat 64 (s.guestField (8 * i) 8)

end Sys2Proof.Machine
end

