-- ==== Sys2Proof/Machine/Supply.lean ====
section
/-!
DEFINITION. Supplies and resets (R399, R406, R407, R409, R436): what each reset keeps, the orderly reset that first ends every launch,
the loss of an input, and the trip of R362.
-/

namespace Sys2Proof.Machine

/-! ## What a reset keeps -/

/-- The registers of a state that `p` picks. -/
def regsWhere (p : Reg → Bool) (s : State) : List (Nat × BitVec 64) :=
  s.regs.filter fun e => match regOfIdx (e.1 % 256) with
    | some r => p r
    | none => false

/-- A state reset but for the clock, the commands that wait, memory, the error log, the flash, the always-on block of I/O die A and the
registers that `p` picks. -/
def resetState (p : Reg → Bool) (s : State) : State :=
  { State.reset with
    pending := s.pending, cyc := s.cyc, timeOff := s.timeOff, free := s.free, nextId := s.nextId, resp := s.resp, mem := s.mem,
    memErr := s.memErr, log := s.log, logSeq := s.logSeq, flashErr := s.flashErr, pins := s.pins, i3c := s.i3c, flash := s.flash,
    tap := s.tap, regs := regsWhere p s }

/-- Whether a register belongs to the always-on block or the error log. -/
def alwaysOn (r : Reg) : Bool := decide (r = .MGT_ERR_LOG_TAIL) || decide (r = .TAP_STATUS)

/-- Whether a register survives the loss of the processor die (R399): identity and the MGT_ERR_ registers. -/
def keptAtHostLoss (r : Reg) : Bool :=
  alwaysOn r || decide (r = .MGT_ID_STATUS) || decide (r = .MGT_ERR_CTRL) || decide (r = .MGT_ERR_STATUS) || decide (r = .MGT_ERR_LOG_HEAD) ||
  decide (r = .MGT_ERR_CE_CFG) || decide (r = .MGT_ERR_CE_TOTAL) || decide (r = .MGT_ERR_UE_TOTAL) || decide (r = .MGT_ERR_INJ_ADDR) ||
  decide (r = .MGT_ERR_INJ_CTL)

/-- Whether a register belongs to the management controller, which runs on without the main input. -/
def ofMgt (r : Reg) : Bool := decide (r.block = .mgt) || decide (r.block = .sec) || decide (r.block = .pwr) || decide (r.block = .tap)

/-- Every stack enters self-refresh (R192). -/
def refreshAll (ordered : Bool) (s : State) : State := (List.range 24).foldl (fun z st => selfRefresh st ordered z) s

/-- Boot begins at a stage for a reason (R409). -/
def bootAt (stage reason : Nat) (s : State) : State :=
  let s1 := setF F.MGT_BOOT_STATUS_REASON 0 0 reason (setF F.MGT_BOOT_STATUS_STAGE 0 0 stage s)
  { s1 with mgt := { s1.mgt with bootTick := if stage = 1 then s.ownTick else s1.mgt.bootTick } }

/-- The instruction of every TAP as Test-Logic-Reset leaves it: IDCODE (R448, R450). -/
def tapReset (s : State) : State := { s with tap := { s.tap with ir := [] } }

/-- The whole package reset: stacks without warning into self-refresh, every pair closed, DIE_EN clear (R407, R450). -/
def packageReset (reason : Nat) (s : State) : State :=
  let s1 := resetState alwaysOn (refreshAll false s)
  bootAt 1 reason { s1 with pins := { s1.pins with perst0 := true, perst1 := true } }

/-- What the management controller, which is not reset, goes on to report of itself: its checks, its service, the attestation seeds
(DEDUCED, log entry 37). -/
def reportAgain (old s : State) : State :=
  setF F.SEC_STATUS_KEY_OK 0 0 (getF F.SEC_STATUS_KEY_OK 0 0 old)
    (setF F.MGT_HEALTH_REDUCED 0 0 (getF F.MGT_HEALTH_REDUCED 0 0 old) (setF F.MGT_HEALTH_ALIVE 0 0 (getF F.MGT_HEALTH_ALIVE 0 0 old) s))

/-- The reset of every die but the management controller that ends host loss: boot resumes at link training (R399). -/
def hostReset (reason : Nat) (s : State) : State :=
  let s1 := resetState keptAtHostLoss (refreshAll true s)
  bootAt 7 reason (reportAgain s
    { s1 with
      ident := s.ident, levels := s.levels, heldCe := s.heldCe,
      mgt := { s.mgt with handoff := none, resetTo := none, secOp := 0, quote := none, lossSeen := false },
      pins := { s1.pins with perst0 := true, perst1 := true } })

/-! ## The orderly reset (R399, R417, R419) -/

/-- A launch ordered to stop with DIE_ABSENT; its partition does not roll back. -/
def endForReset (p : Nat) (s : State) : State :=
  match launchOf p s with
  | none => s
  | some l => putLaunch p { l.meet .dieAbsent with rollback := false } s

/-- From the stop order onward: LEAVE, and every launch is stopped; the reset follows once their records are written. -/
def orderReset (reason stage : Nat) (s : State) : State :=
  if s.mgt.resetTo.isSome then s
  else
    let s1 := { s with mgt := { s.mgt with resetTo := some (reason, stage) } }
    (List.range 32).foldl (fun z p => endForReset p z) (leave s1)

/-- Whether every launch is over and every record written. -/
def launchesOver (s : State) : Bool :=
  ((List.range 32).all fun p => (launchOf p s).isNone) && s.rings.all fun e => (nextRecord e.1 s).isNone

/-- The reset that waits is made once nothing holds it. -/
def tryReset (s : State) : State :=
  match s.mgt.resetTo with
  | none => s
  | some (reason, stage) =>
    if !launchesOver s then s else if stage = 7 then hostReset reason s else packageReset reason (refreshAll true s)

/-! ## Inputs (R406, R407) -/

/-- The reason that the next boot at stage 1 records: a trip not yet recovered from prevails. -/
def bootReason (other : Nat) (s : State) : Nat := if s.pins.tripHold then 4 else other

/-- AUX_POWER_ON: the auxiliary input becomes present; the I3C address straps are sampled (R437). -/
def auxOn (strap : BitVec 2) (s : State) : State :=
  if s.pins.aux then s
  else
    let trip := s.pins.tripHold
    let s1 := { State.reset with
      pending := s.pending, free := s.free, nextId := s.nextId, flash := s.flash, flashErr := s.flashErr,
      pins := { s.pins with aux := true, tripHold := false, thermTrip := false, perst0 := true, perst1 := true, strap := strap },
      i3c := ⟨0x58 + strap.setWidth 7, none, none, []⟩ }
    setF F.PWR_STATUS_TRIPPED 0 0 (if trip then 1 else 0) (bootAt 1 (bootReason 0 s) s1)

def execAuxPowerOn (strap : BitVec 2) (s : State) : Host.Outcome State Fault Refusal := .next (auxOn strap s)

/-- AUX_LOSS: everything but the flash is lost, every pair closes, every TAP and the router reset (R407, R450). That the package has
tripped is in the flash's trip records, and stays known. -/
def auxLoss (s : State) : State :=
  { State.reset with
    pending := s.pending, free := s.free, nextId := s.nextId, flash := s.flash, flashErr := s.flashErr,
    pins := { s.pins with aux := false, thermTrip := false } }

def execAuxLoss (s : State) : Host.Outcome State Fault Refusal := .next (auxLoss s)

/-- MAIN_PRESENT: the main input has been in range for 10 ms; boot at stage 6 can go on. -/
def mainOn (s : State) : State := { s with pins := { s.pins with vmain := true } }

def execMainPresent (s : State) : Host.Outcome State Fault Refusal := .next (mainOn s)

/-- What the converters' turning off takes with it: DRAM and on-die SRAM, and every die but the management controller, which keeps its table
of the power loop (R407). -/
def convertersOff (s : State) : State :=
  let s1 := resetState ofMgt s
  { s1 with
    mem := [], memErr := [], ident := s.ident, levels := s.levels, heldCe := s.heldCe,
    power := { s.power with pausing := [], resuming := [], droop := [], hot := [], steps := [], windows := [], ran := [] },
    mgt := { s.mgt with handoff := none, resetTo := none, lossSeen := false },
    pins := { s1.pins with perst0 := true, perst1 := true } }

/-- MAIN_LOSS: boot waits at stage 6, reason MAIN_LOSS, unless it has not come so far. Running launches write no records. -/
def mainLoss (s : State) : State :=
  let s0 := { s with pins := { s.pins with vmain := false } }
  if !s.pins.aux || decide (getF F.MGT_BOOT_STATUS_STAGE 0 0 s < 6) then s0
  else if getF F.MGT_BOOT_STATUS_STAGE 0 0 s = 6 then convertersOff s0
  else bootAt 6 2 (convertersOff s0)

def execMainLoss (s : State) : Host.Outcome State Fault Refusal := .next (mainLoss s)

/-- An in-band interrupt raised (R438). -/
def raiseIbi (b : BitVec 8) (s : State) : State := { s with i3c := { s.i3c with ibi := s.i3c.ibi ++ [b] } }

/-- TRIP (R362, R407): every converter of the main bus off, the package held in reset with TRIPPED set, the trip and its source in the
flash, THERMTRIP_N low. -/
def trip (src : Nat) (s : State) : State :=
  let s1 := convertersOff { s with flash := { s.flash with trips := s.flash.trips ++ [(src, s.tick)] } }
  let s2 := resetState alwaysOn { s1 with pins := { s1.pins with tripHold := true, thermTrip := true } }
  raiseIbi 2 (setF F.PWR_STATUS_TRIPPED 0 0 1 { s2 with mem := [], memErr := [] })

/-! ## The reset land (R436) -/

/-- PKG_RESET_ASSERT: every die held in reset; while main power is present every powered die is in test (R449). -/
def resetAssert (s : State) : State :=
  let s1 := { packageReset 1 s with pins := { (packageReset 1 s).pins with resetLow := true } }
  let s2 := setF F.TAP_STATUS_RESET_TEST 0 0 (if s.pins.vmain && !s.pins.tripHold then 1 else 0) s1
  setF F.PWR_STATUS_TRIPPED 0 0 (if s.pins.tripHold then 1 else 0) s2

def execPkgResetAssert (s : State) : Host.Outcome State Fault Refusal := .next (if s.pins.aux then resetAssert s else s)

/-- PKG_RESET_RELEASE: boot at stage 1, reason RESET_INPUT; a package that has tripped stays held (R407). Where a scan is under way the
dies leave test when it passes Update, else at once (R450). -/
def resetRelease (scanning : Bool) (s : State) : State :=
  if !s.pins.resetLow then s
  else
    let s1 := { s with pins := { s.pins with resetLow := false } }
    let s2 := { s1 with tap := { s1.tap with leaving := scanning } }
    let s3 := if scanning then s2 else setF F.TAP_STATUS_RESET_TEST 0 0 0 s2
    if s.pins.tripHold then s3 else bootAt 1 1 s3

def execPkgResetRelease (scanning : Bool) (s : State) : Host.Outcome State Fault Refusal := .next (resetRelease scanning s)

/-- The reset that the board controller orders over I3C (R437): as PKG_RESET_N for 10 ms; the reason is TRIP after a trip, WATCHDOG in
reduced service, else RESET_INPUT. -/
def i3cReset (s : State) : State :=
  let reason := if s.pins.tripHold then 4 else if bitF F.MGT_HEALTH_REDUCED 0 0 s then 7 else 1
  let s1 := packageReset reason s
  let s2 := { s1 with pins := { s1.pins with tripHold := false, thermTrip := false } }
  setF F.PWR_STATUS_TRIPPED 0 0 (if s.pins.tripHold then 1 else 0) s2

/-- PKG_READY (R436). -/
def pkgReady (s : State) : Bool :=
  decide (getF F.MGT_BOOT_STATUS_STAGE 0 0 s = 12) && !bitF F.MGT_HEALTH_REDUCED 0 0 s && !bitF F.MGT_BOOT_STATUS_RECOVERY 0 0 s

end Sys2Proof.Machine
end

