-- ==== Sys2Proof/Machine/Flash.lean ====
section
/-!
DEFINITION. The flash (R412, R413): firmware images and their verification (R414, R415), slots and grafts (R416, R418, R419), settings
(R420, R421) and the index journal (R423).
-/

namespace Sys2Proof.Machine

/-- 240 MiB, the size of a slot. -/
def slotBytes : Nat := 240 * 2 ^ 20

/-- `n` bytes of a slot from byte `off`; erased bytes read as ones. -/
def FwSlot.read (f : FwSlot) (off n : Nat) : Nat := (256 ^ n - 1) - getBytes f.bytes off n

/-- A slot with `n` bytes written from byte `off`. -/
def FwSlot.put (f : FwSlot) (off n v : Nat) : FwSlot :=
  { f with bytes := putBytes f.bytes off n (2 ^ n - 1) ((256 ^ n - 1) - v % 256 ^ n) }

/-- Slot 0 (A) or 1 (B). -/
def Flash.slot (f : Flash) (i : Nat) : FwSlot := if i = 0 then f.a else f.b

/-- The flash with a slot replaced. -/
def Flash.putSlot (f : Flash) (i : Nat) (x : FwSlot) : Flash := if i = 0 then { f with a := x } else { f with b := x }

/-- The slot with number `i`. -/
def State.slot (s : State) (i : Nat) : FwSlot := s.flash.slot i

/-- The state with a slot replaced. -/
def State.putSlot (s : State) (i : Nat) (x : FwSlot) : State := { s with flash := s.flash.putSlot i x }

/-- A record write: where it reads back on neither device the flash keeps the older record and FLASH_ERR is set (R413). -/
def flashWrite (ok : Bool) (f : State → State) (s : State) : State :=
  if ok then f s else flagF F.MGT_BOOT_STATUS_FLASH_ERR 0 0 s

/-- A boot state record: the state and tries of a slot. -/
def setSlot (ok : Bool) (i st tries : Nat) (s : State) : State :=
  flashWrite ok (fun z => z.putSlot i { z.slot i with st := st, tries := tries }) s

/-! ## Images (R414, R415) -/

/-- A little-endian field of a slot's image. -/
def FwSlot.field (f : FwSlot) (off n : Nat) : Nat := f.read off n

/-- The kind, length and offset of component `k`. -/
def FwSlot.comp (f : FwSlot) (k : Nat) : Nat × Nat × Nat :=
  (f.field (0x100 + 32 * k) 1, f.field (0x104 + 32 * k) 4, f.field (0x108 + 32 * k) 8)

/-- The components of an image. -/
def FwSlot.comps (f : FwSlot) : List (Nat × Nat × Nat) := (List.range (min 16 (f.field 0x33 1))).map f.comp

/-- Components of a kind. -/
def FwSlot.ofKind (f : FwSlot) (k : Nat) : List (Nat × Nat × Nat) := f.comps.filter fun c => decide (c.1 = k)

/-- The first check of R415; a number of components that the header cannot hold is no such header (DEDUCED, log entry 34). -/
def FwSlot.formatOk (f : FwSlot) : Bool :=
  let len := f.field 8 8
  decide (f.field 0 4 = 0x57465854) && decide (f.field 4 2 = 1) && decide (f.field 6 2 = 0x1000) && decide (len ≤ slotBytes) &&
  decide (f.field 0x33 1 ≤ 16) &&
  f.comps.all (fun c => decide (1 ≤ c.1) && decide (c.1 ≤ 4) && decide (c.2.1 + c.2.2 ≤ len)) &&
  decide ((f.ofKind 1).length = 1) && decide ((f.ofKind 2).length = 1) && decide ((f.ofKind 3).length = 1)

/-- The digest of the payload as read. -/
def FwSlot.payloadDigest (f : FwSlot) : BitVec 512 := shake256 (f.read 0x1000 (f.field 8 8 - 0x1000)) (f.field 8 8 - 0x1000)

/-- MIN_SEC_VERSION of the newest valid settings record, 0 with none. -/
def Flash.minSec (f : Flash) : Nat :=
  match f.settings with
  | none => 0
  | some v => cut v.toNat 0x18 4

/-- "MX1", which names both products. -/
def anyProduct : Nat := 0x31584D

/-- The result of verifying the image in a slot: 0, or the first check that fails (R415). -/
def verifySlot (i : Nat) (x : ImgIn) (s : State) : Nat :=
  let f := s.slot i
  let unit := f.field 0x18 16
  if !f.formatOk then 1
  else if (match s.ident with
    | some d => decide (f.field 0x10 8 ≠ anyProduct) && decide (f.field 0x10 8 ≠ d.product.toNat)
    | none => false) then 2
  else if decide (unit ≠ 0) && (match s.ident with
    | some d => decide (unit ≠ d.serial.toNat)
    | none => true) then 3
  else if !x.keyOk then 4
  else if !x.sigOk then 5
  else if f.payloadDigest ≠ BitVec.ofNat 512 (f.field 0xC0 64) then 6
  else if f.field 0x2C 4 < s.flash.minSec then 7
  else 0

/-- The image of a slot, as it runs. -/
def imageOf (i : Nat) (s : State) : Image :=
  let f := s.slot i
  ⟨i, f.field 0x28 4, f.field 0x2C 4, f.field 0x30 2, BitVec.ofNat 512 (f.field 0xC0 64)⟩

/-! ## Slots (R416) -/

/-- Whether a slot is in a state. -/
def slotIs (i st : Nat) (s : State) : Bool := decide ((s.slot i).st = st)

/-- The first slot in a state. -/
def slotIn (st : Nat) (s : State) : Option Nat := (List.range 2).find? fun i => slotIs i st s

/-- A graft that has had its two tries becomes BAD. -/
def spentGrafts (ok : Bool) (s : State) : State :=
  (List.range 2).foldl (fun z i => if slotIs i 2 z && decide (2 ≤ (z.slot i).tries) then setSlot ok i 5 0 z else z) s

/-- The first row of R416 that applies: the slot to boot, a graft with one try more. -/
def chooseSlot (ok : Bool) (s0 : State) : Option Nat × State :=
  let s := spentGrafts ok s0
  match (List.range 2).find? fun i => slotIs i 2 s && decide ((s.slot i).tries < 2) with
  | some i => (some i, setSlot ok i 2 ((s.slot i).tries + 1) s)
  | none =>
    match slotIn 3 s with
    | some i => (some i, s)
    | none => (slotIn 4 s, s)

/-! ## Settings (R420, R421) -/

/-- A record completed with its check: SHAKE256 of the rest, 32 bytes. -/
def sealRecord (v : Nat) : BitVec 2048 :=
  let body := v % 256 ^ 224
  BitVec.ofNat 2048 (body + at0 0xE0 ((shake256 body 224).toNat % 256 ^ 32))

/-- A settings record: format, sequence, graft window, flags, bypass pairs, PCIe, requested number, least security version. -/
def settingsRecord (fmt seq window flags bypass pcie req minSec : Nat) : BitVec 2048 :=
  sealRecord (0x53544553 + at0 4 (fmt % 2 ^ 16) + at0 8 (seq % 2 ^ 64) + at0 0x10 (max 60 (min 3600 window)) + at0 0x12 (flags % 8) +
    at0 0x13 (bypass % 256) + at0 0x14 (pcie % 16) + at0 0x16 (min 511 req) + at0 0x18 (minSec % 2 ^ 32))

/-- The defaults, as an image applies them. -/
def defaultSettings (x : Image) (seq minSec : Nat) : BitVec 2048 := settingsRecord x.fmt seq 600 7 0xFF 0 0 minSec

/-- A field of the settings in use. -/
def State.setting (s : State) (off n : Nat) : Nat := cut s.mgt.settings.toNat off n

/-- GRAFT_WINDOW_S in use. -/
def graftWindow (s : State) : Nat := max 60 (min 3600 (s.setting 0x10 2))

/-- A flag of the settings in use: 0 HOST_CONFIRM, 1 JOIN_AUTO, 2 HOST_LOSS. -/
def settingFlag (i : Nat) (s : State) : Bool := (s.setting 0x12 1).testBit i

/-- Whether the stored record is of a newer format than the image expects (R421). -/
def settingsNewer (s : State) : Bool :=
  match s.mgt.image, s.flash.settings with
  | some x, some v => decide (x.fmt < cut v.toNat 4 2)
  | _, _ => false

/-- A settings record stored in the flash. -/
def storeSettings (v : BitVec 2048) (s : State) : State :=
  { s with flash := { s.flash with settings := some v, seq := s.flash.seq + 1 } }

/-- The settings that stage 5 uses (R421). -/
def loadSettings (ok : Bool) (s : State) : State :=
  match s.mgt.image with
  | none => s
  | some x =>
    let use (v : BitVec 2048) (z : State) : State := { z with mgt := { z.mgt with settings := v } }
    match s.flash.settings with
    | none =>
      let v := defaultSettings x s.flash.seq x.secVersion
      flashWrite ok (storeSettings v) (use v s)
    | some r =>
      let fmt := cut r.toNat 4 2
      if fmt = x.fmt then use r s
      else if fmt < x.fmt then
        let v := defaultSettings x s.flash.seq (max x.secVersion (cut r.toNat 0x18 4))
        flashWrite ok (storeSettings v) (flagF F.MGT_BOOT_STATUS_SETTINGS_RESET 0 0 (use v s))
      else use (defaultSettings x s.flash.seq x.secVersion) s

/-- A record written by software, with its fields clamped; MAGIC, SEQ and CHECK are the device's (DESIGN CHOICE of MAGIC, log entry 35). -/
def writtenSettings (v : Nat) (s : State) : BitVec 2048 :=
  settingsRecord (cut v 4 2) s.flash.seq (cut v 0x10 2) (cut v 0x12 1) (cut v 0x13 1) (cut v 0x14 1) (cut v 0x16 2)
    (max s.flash.minSec (cut v 0x18 4))

/-! ## The index journal (R423) -/

/-- The indices that a signature needs: EXHAUSTED, FLASH, or none, with the journal written where the reserved block is used up. -/
def reserveIndex (ok : Bool) (s : State) : Option Nat × State :=
  let m := s.mgt
  if m.next = 2 ^ 40 then (some 12, s)
  else if m.next = m.limit then
    (if ok then (none, { s with mgt := { m with limit := m.limit + 1024 }, flash := { s.flash with limit := m.limit + 1024 } })
     else (some 8, flagF F.MGT_BOOT_STATUS_FLASH_ERR 0 0 s))
  else (none, s)

/-! ## Grafts (R418, R419) -/

/-- The running graft's slot, while it is not yet confirmed or ended. -/
def graftSlot (s : State) : Option Nat :=
  match s.mgt.image with
  | some x => if s.mgt.graftEnd.isSome && slotIs x.slot 2 s then some x.slot else none
  | none => none

/-- Whether the conditions of R418 all hold by a tick. -/
def graftHealthy (now : Nat) (s : State) : Bool :=
  decide (getF F.MGT_BOOT_STATUS_STAGE 0 0 s = 12) && s.mgt.sound &&
  (if settingFlag 0 s then bitF F.SEC_GRAFT_HOST_DONE 0 0 s
   else match s.mgt.handoff with
     | some t => decide (t + 750000000 ≤ now)
     | none => false)

/-- A graft confirmed: its slot is GOOD, the one that was GOOD is SPARE. -/
def confirmGraft (ok : Bool) (i : Nat) (s : State) : State :=
  let s1 := if slotIs (1 - i) 3 s then setSlot ok (1 - i) 4 0 s else s
  let s2 := setSlot ok i 3 0 s1
  { s2 with mgt := { s2.mgt with graftEnd := none } }

/-- A graft ended unconfirmed: BAD, signalled over I3C, and the package resets to fall back. -/
def endGraft (ok : Bool) (i : Nat) (s : State) : State :=
  let s1 := setSlot ok i 5 0 s
  orderReset 6 1 (raiseIbi 4 { s1 with mgt := { s1.mgt with graftEnd := none } })

/-- A graft is confirmed once every condition holds before its window ends. -/
def graftSettle (ok : Bool) (s : State) : State :=
  match graftSlot s, s.mgt.graftEnd with
  | some i, some e => if decide (s.ownTick < e) && graftHealthy s.ownTick s then confirmGraft ok i s else s
  | _, _ => s

/-- GRAFT_WINDOW_END: a graft whose window has ended is confirmed where the conditions held before, else ends unconfirmed. -/
def graftWindowEnd (ok : Bool) (s : State) : State :=
  match graftSlot s, s.mgt.graftEnd with
  | some i, some e =>
    if s.ownTick < e then tryReset (graftSettle ok s)
    else if graftHealthy (e - 1) s then confirmGraft ok i s else tryReset (endGraft ok i s)
  | _, _ => tryReset s

def execGraftWindowEnd (flashOk : Bool) (s : State) : Host.Outcome State Fault Refusal := .next (graftWindowEnd flashOk s)

end Sys2Proof.Machine
end

