-- ==== Sys2Proof/Machine/Power.lean ====
section
/-!
DEFINITION. Power, thermal and droop control (R344 to R365): operating points, sharing of the sustained limit, fallow, pauses, peak
allotments and limiters, droop stretching, thermal limits, and budgets by message. Power is in mW.
-/

namespace Sys2Proof.Machine

/-! ## Operating points (R347, R348, R350) -/

/-- CLK_ARITH of a point in MHz. -/
def oppMHz (o : Nat) : Nat := ([600, 800, 1000, 1200, 1400, 1600, 1750, 1850][o]?).getD 1850

/-- Logic and array voltage of a point in mV. -/
def oppMv (o : Nat) : Nat := ([600, 640, 680, 720, 760, 800, 860, 920][o]?).getD 920

/-- The point in force on a plot. -/
def plotOpp (p : Nat) (s : State) : Nat := getF F.PWR_PLOT_STATUS_OPP p 0 s

/-- Ticks in which a rail rises or falls between two voltages at 5 mV/µs. -/
def slewTicks (mv mv' : Nat) : Nat := 5 * ((mv - mv') + (mv' - mv))

/-- The retunes of a plot, the one under way first. -/
def plotRetunes (p : Nat) (s : State) : List Retune := s.retunes.filter fun r => decide (r.plot = p)

/-- The first retune of a plot replaced, or taken away. -/
def putRetune (p : Nat) (r : Option Retune) (s : State) : State :=
  { s with retunes := s.retunes.filter (fun x => decide (x.plot ≠ p)) ++ r.toList ++ (plotRetunes p s).drop 1 }

/-- The next change ordered of a plot begins: its rails rise first where the new point is higher. -/
def beginRetune (p : Nat) (s : State) : State :=
  match plotRetunes p s with
  | [] => setF F.PWR_PLOT_STATUS_RETUNING p 0 0 s
  | r :: _ =>
    if r.stage ≠ 0 then s
    else
      let old := plotOpp p s
      let rise := if old < r.opp then slewTicks (oppMv old) (oppMv r.opp) else 0
      setF F.PWR_PLOT_STATUS_RETUNING p 0 1 (putRetune p (some { r with stage := 1, ready := s.tick + rise + 1 }) s)

/-- The point that a plot runs once every change ordered is done. -/
def orderedOpp (p : Nat) (s : State) : Nat := ((plotRetunes p s).getLast?.map (·.opp)).getD (plotOpp p s)

/-- A point ordered, by a control message to the plot (R21); one that arrives during a change is carried out after it. -/
def orderOpp (p o : Nat) (s : State) : State :=
  if orderedOpp p s = o ∨ !reached p s then s else beginRetune p { s with retunes := s.retunes ++ [⟨p, o, 0, 0⟩] }

/-- OPP_CHANGE: the change under way on a plot takes its next step once the present one has ended: at a tick boundary the fallow tick of the
glide after the rails have risen, at the next the new point, and the rails lowered. -/
def oppChange (p : Nat) (s : State) : State :=
  match plotRetunes p s with
  | [] => s
  | r :: _ =>
    if s.tick < r.ready ∨ r.stage = 0 ∨ (r.stage < 3 ∧ s.cyc % 64 ≠ 0) then s
    else if r.stage = 1 then putRetune p (some { r with stage := 2, ready := s.tick + 1 }) s
    else if r.stage = 2 then
      let old := plotOpp p s
      let s1 := incF F.PWR_RETUNES_COUNT p 0 1 (setF F.PWR_PLOT_STATUS_OPP p 0 r.opp s)
      if r.opp < old then putRetune p (some { r with stage := 3, ready := s.tick + slewTicks (oppMv old) (oppMv r.opp) }) s1
      else beginRetune p (putRetune p none s1)
    else beginRetune p (putRetune p none s)

def execOppChange (p : PlotId) (s : State) : Host.Outcome State Fault Refusal := .next (oppChange p.val s)

/-! ## Who runs where -/

/-- Whether a partition is paused (R355). -/
def partPaused (k : Nat) (s : State) : Bool := bitF F.PWR_PART_STATUS_PAUSED 0 k s

/-- The active partitions (R351), in descending PRIORITY, then ascending number. -/
def activeParts (s : State) : List Nat :=
  (List.range 8).flatMap fun q => (List.range 32).filter fun k =>
    decide (getF F.PWR_PART_PRIORITY 0 k s = 7 - q) && partRuns k s && !partPaused k s

/-- Bed groups of a plot that belong to a partition, or to any. -/
def ownedOn (p : Nat) (k : Option Nat) (s : State) : Nat :=
  ((List.range 16).filter fun g => match bgOwner (16 * p + g) s with
    | some x => decide (k = none) || decide (k = some x)
    | none => false).length

/-- The plots on which a partition's launch runs. -/
def launchPlots (k : Nat) (s : State) : List Nat :=
  match launchOf k s with
  | some l => (l.bedList.map plotOf).eraseDups
  | none => []

/-- Whether a bed group of a plot belongs to a steady partition that runs a launch. -/
def steadyPlot (p : Nat) (s : State) : Bool :=
  (List.range 32).any fun k => bitF F.PWR_PART_STEADY 0 k s && partRuns k s && decide (0 < ownedOn p (some k) s)

/-- The running beds of a plot. -/
def runningBeds (p : Nat) (s : State) : List Nat :=
  (s.beds.map Prod.fst).filter fun b => decide (plotOf b = p) && (s.bed b).running && !partPaused (s.bed b).part s

/-- The preferred point of a running bed: that of the first entry of the phase table with its phase, where the table lists the phase
twice (DESIGN CHOICE, log entry 32: R105 does not say). -/
def preferred (b : Nat) (s : State) : Nat :=
  let k := (s.bed b).part
  let listed : Option Nat := match launchOf k s with
    | some l => (l.phases.find? fun (e : Nat × Nat) => decide (e.1 = (s.bed b).phase.toNat)).map (·.2)
    | none => none
  listed.getD (getF F.PWR_PART_DEFAULT_OPP 0 k s)

/-- The highest point that a plot may run (R348, R362). -/
def plotPreferred (p : Nat) (s : State) : Nat :=
  if steadyPlot p s then 5
  else
    let m := (runningBeds p s).foldl (fun z b => max z (preferred b s)) 0
    (if bitF F.PWR_CTRL_BOOST_EN 0 0 s then m else min m 5) - (look s.power.steps p).getD 0

/-! ## Learning (R352) -/

/-- The entry of a partition, phase and point; a new one starts from the firmware's default. -/
def learnEntry (k ph o : Nat) (s : State) : Learn :=
  (s.power.learn.find? fun e => decide (e.part = k) && decide (e.phase = ph) && decide (e.opp = o)).getD
    ⟨k, ph, o, Config.learnDefault ph o, 0, 0⟩

/-- An entry replaced. -/
def putLearn (e : Learn) (s : State) : State :=
  let l := s.power.learn.filter fun x => !(decide (x.part = e.part) && decide (x.phase = e.phase) && decide (x.opp = e.opp))
  { s with power := { s.power with learn := l ++ [e] } }

/-- The idle draw of a plot at a point. -/
def idleDraw (p o : Nat) (s : State) : Nat := (look s.power.idle (8 * p + o)).getD (Config.idleDefault o)

/-- The key of the cycles of a plot, partition and phase. -/
def ranKey (p k ph : Nat) : Nat := (32 * p + k) * 256 + ph

/-- Bed-cycles of the interval on a plot that `q` picks by partition and phase. -/
def ranOn (p : Nat) (q : Nat → Nat → Bool) (s : State) : Nat :=
  s.power.ran.foldl (fun (z : Nat) (e : Nat × Nat) => if e.1 / 8192 = p ∧ q (e.1 / 256 % 32) (e.1 % 256) then z + e.2 else z) 0

/-- A plot's measured draw above its idle draw. -/
def dynDraw (p meter : Nat) (s : State) : Nat := meter - idleDraw p (plotOpp p s) s

/-- A part of a number, `a` of `b`. -/
def portion (v a b : Nat) : Nat := if b = 0 then 0 else v * a / b

/-- The cycles of an interval of 1 ms, 64 to a tick. -/
def cyclesPerMs : Nat := 1600000

/-- A plot's meter in an interval. -/
def meterOf (m : Meters) (p : Nat) : Nat := (m.plots[p]?).getD 0

/-- The draw of a partition's phase over the plots at a point, and its bed-cycles there. -/
def phaseDraw (m : Meters) (k ph o : Nat) (s : State) : Nat × Nat :=
  (List.range 12).foldl (fun z p =>
    if plotOpp p s ≠ o then z
    else
      let c := ranOn p (fun a b => decide (a = k) && decide (b = ph)) s
      (z.1 + portion (dynDraw p (meterOf m p) s) c (ranOn p (fun _ _ => true) s), z.2 + c)) (0, 0)

/-- One entry moved one sixteenth of the way to its measurement, and its energy recorded. -/
def learnOne (m : Meters) (k ph o : Nat) (s : State) : State :=
  let d := phaseDraw m k ph o s
  if d.2 = 0 then s
  else
    let e := learnEntry k ph o s
    let new : Int := ((d.1 * cyclesPerMs / d.2 : Nat) : Int)
    putLearn { e with mw := (e.mw + (new - e.mw) / 16).toNat, samples := min 65535 (e.samples + 1), uj := e.uj + d.1 } s

/-- The learning table and the idle draws at the end of an interval. -/
def learnAll (m : Meters) (s : State) : State :=
  if !bitF F.PWR_CTRL_LEARN_EN 0 0 s then s
  else
    let keys := (s.power.ran.map fun e => e.1 % 8192).eraseDups
    let s1 := keys.foldl (fun z x => (List.range 8).foldl (fun y o => learnOne m (x / 256) (x % 256) o y) z) s
    (List.range 12).foldl (fun z p =>
      if ranOn p (fun _ _ => true) s ≠ 0 ∨ ownedOn p none s = 0 ∨ dieState p s ≠ 0 then z
      else { z with power := { z.power with idle := lput z.power.idle (8 * p + plotOpp p s) (meterOf m p) } }) s1

/-- LEARN_CLEAR: every entry returns to the firmware's defaults. -/
def learnClear (s : State) : State := { s with power := { s.power with learn := [] } }

def execLearnClear (s : State) : Host.Outcome State Fault Refusal := .next (learnClear s)

/-! ## Draws and budgets (R351) -/

/-- The idle draw of a partition's bed groups at a point (none: at each plot's own). -/
def partIdle (k : Nat) (o : Option Nat) (s : State) : Nat :=
  (List.range 12).foldl (fun z p => z + portion (idleDraw p (o.getD (plotOpp p s)) s) (ownedOn p (some k) s) (ownedOn p none s)) 0

/-- The draw attributed to a partition. -/
def partDraw (m : Meters) (k : Nat) (s : State) : Nat :=
  (List.range 12).foldl (fun z p =>
    z + portion (dynDraw p (meterOf m p) s) (ranOn p (fun a _ => decide (a = k)) s) (ranOn p (fun _ _ => true) s)) (partIdle k none s)

/-- The draw of paused bed groups: one quarter of their idle draw (DEDUCED from the example of R356, log entry 33). -/
def pausedDraw (s : State) : Nat :=
  (List.range 32).foldl (fun z k => if partPaused k s then z + partIdle k none s / 4 else z) 0

/-- The draw predicted of a partition at a point: its dynamic part and its idle part. -/
def predict (k o : Nat) (s : State) : Nat × Nat :=
  let beds := match launchOf k s with
    | some l => l.bedList
    | none => []
  (beds.foldl (fun z b => z + (learnEntry k (s.bed b).phase.toNat o s).mw) 0, partIdle k (some o) s)

/-- The total of the meters. -/
def meterTotal (m : Meters) : Nat := m.plots.foldl (· + ·) 0 + m.host + m.ioA + m.ioB + m.stks + m.guest

/-- The plot budget B. -/
def plotBudget (m : Meters) (s : State) : Nat :=
  s.power.cap * 1000 - (m.host + m.ioA + m.ioB + m.stks + m.guest) - pausedDraw s

/-- The budgets of the active partitions. -/
def budgets (m : Meters) (s : State) : List (Nat × Nat) :=
  let b := plotBudget m s
  let act := activeParts s
  let share (k : Nat) : Nat := getF F.PWR_PART_SHARE_W 0 k s
  let sum := act.foldl (fun z k => z + share k) 0
  let grant (k : Nat) : Nat := 1000 * (if b / 1000 < sum then portion (share k) (b / 1000) sum else share k)
  let rest := b - act.foldl (fun z k => z + grant k) 0
  let borrows (k : Nat) : Bool := bitF F.PWR_PART_BORROW 0 k s
  let n := (act.filter borrows).length
  act.map fun k => (k, (grant k + if borrows k then portion rest 1 n else 0) * s.power.percent / 100)

/-! ## Points and fallow (R353, R354) -/

/-- The fallow duty of a partition. -/
def fallowOf (k : Nat) (s : State) : Nat := getF F.PWR_PART_STATUS_FALLOW 0 k s

/-- A fallow duty ordered; it is in force from the next tick boundary. -/
def setFallow (k f : Nat) (s : State) : State := setF F.PWR_PART_STATUS_FALLOW 0 k (min 63 f) s

/-- The lowest permitted point of a partition. -/
def floorOpp (k : Nat) (s : State) : Nat := if (launchPlots k s).any fun p => steadyPlot p s then 5 else 0

/-- Step 1: the point found for a partition; one with fallow stays at its lowest point until that is gone. -/
def chosenOpp (k budget : Nat) (s : State) : Nat :=
  if floorOpp k s = 5 then 5
  else if 0 < fallowOf k s then 0
  else
    let top := (launchPlots k s).foldl (fun z p => min z (plotPreferred p s)) 7
    ((List.range (top + 1)).filter fun o => let d := predict k o s; decide (d.1 + d.2 ≤ budget)).foldl max 0

/-- Step 2: the point of a plot. -/
def plotPoint (p : Nat) (bs : List (Nat × Nat)) (s : State) : Nat :=
  if steadyPlot p s then 5
  else
    let l := bs.filter fun e => (launchPlots e.1 s).contains p
    if l.isEmpty then 0 else l.foldl (fun z e => min z (chosenOpp e.1 e.2 s)) (plotPreferred p s)

/-- Whether every plot of a partition runs its lowest permitted point. -/
def atFloor (k : Nat) (s : State) : Bool := (launchPlots k s).all fun p => decide (plotOpp p s = floorOpp k s)

/-- Steps 3 and 4 for one partition: fallow raised by what the draw exceeds the budget, or lowered by one. -/
def stepFallow (m : Meters) (k budget : Nat) (s : State) : State :=
  let draw := partDraw m k s
  let f := fallowOf k s
  if budget < draw ∧ atFloor k s = true then
    let dyn := draw - partIdle k none s
    let add := if dyn = 0 then 63 else (64 * (draw - budget) + dyn - 1) / dyn
    failLaunch k .capUnattainable (flagF F.PWR_PART_STATUS_AT_FLOOR 0 k (setFallow k (f + add) s))
  else if 0 < f ∧ 100 * draw ≤ 97 * budget then setFallow k (f - 1) s
  else s

/-! ## Pauses (R355) -/

/-- The power of a partition's bed groups moved from one state to another. -/
def moveGroups (k src dst : Nat) (s : State) : State :=
  (partGroups k s).foldl (fun z g => if z.bgPower g = src then z.putBgPower g dst else z) s

/-- PAUSE: from the next tick boundary the partition issues nothing; its barrows drain and its logic rail drops. -/
def pausePart (k : Nat) (s : State) : State :=
  let o := (launchPlots k s).foldl (fun z p => max z (plotOpp p s)) 0
  setF F.PWR_PART_STATUS_PAUSED 0 k 1
    { s with power := { s.power with points := lput s.power.points k o, pausing := s.power.pausing ++ [k] } }

/-- At a tick boundary the bed groups of the partitions ordered to pause are PAUSED. -/
def pauseTick (s : State) : State :=
  s.power.pausing.foldl (fun z k => moveGroups k 0 1 z) { s with power := { s.power with pausing := [] } }

/-- Whether every interval of the last three exceeded the limit with nothing left to lower. -/
def mayPause (m : Meters) (bs : List (Nat × Nat)) (s : State) : Bool :=
  decide (s.power.cap * 1000 < meterTotal m) &&
  bs.all fun e => decide (partDraw m e.1 s ≤ e.2) || decide (fallowOf e.1 s = 63)

/-- The partition to be paused: of lowest PRIORITY, then highest number; none while a plot of it retunes (R361). -/
def pauseOne (s : State) : State :=
  let low := (activeParts s).foldl (fun z k => min z (getF F.PWR_PART_PRIORITY 0 k s)) 7
  match ((activeParts s).filter fun k => decide (getF F.PWR_PART_PRIORITY 0 k s = low)).getLast? with
  | none => s
  | some k => if (launchPlots k s).any fun p => !(plotRetunes p s).isEmpty then s else pausePart k s

/-- The mean of the last intervals, in mW. -/
def meanOf (l : List Nat) : Nat := portion (l.foldl (· + ·) 0) 1 l.length

/-- The draw predicted of a paused partition at its last point with f at 63. -/
def pausedPredict (k : Nat) (s : State) : Nat :=
  let d := predict k ((look s.power.points k).getD 0) s
  d.2 + d.1 / 64

/-- Resumption of the first partition whose draw fits: its logic rail begins to rise from 0.50 V. -/
def resumeOne (s : State) : State :=
  let waits (k : Nat) : Bool := partPaused k s && !(s.power.resuming.any fun e => decide (e.1 = k)) &&
    decide (100 * (meanOf (s.power.means.take 10) + pausedPredict k s) ≤ 97 * (s.power.cap * 1000))
  let order := (List.range 8).flatMap fun q => (List.range 32).filter fun k => decide (getF F.PWR_PART_PRIORITY 0 k s = 7 - q) && waits k
  match order.head? with
  | none => s
  | some k =>
    let mv := ((partGroups k s).map fun g => oppMv (plotOpp (g / 16) s)).foldl max 500
    { s with power := { s.power with resuming := s.power.resuming ++ [(k, s.tick + slewTicks mv 500)] } }

/-- PAUSE_RESUME_ISSUE: issue restarts on the first tick boundary after the rail has reached its voltage, with f at 63. -/
def resumeIssue (k : Nat) (s : State) : State :=
  match look s.power.resuming k with
  | none => s
  | some t =>
    if s.tick < t ∨ s.cyc % 64 ≠ 0 then s
    else
      let s1 := { s with power := { s.power with resuming := ldel s.power.resuming k } }
      setFallow k 63 (setF F.PWR_PART_STATUS_PAUSED 0 k 0 (moveGroups k 1 0 s1))

def execPauseResumeIssue (p : PartId) (s : State) : Host.Outcome State Fault Refusal := .next (resumeIssue p.val s)

/-! ## Peak allotments (R357) -/

/-- The guest's allotment in W: 1.1 × its grant. -/
def guestAllot (s : State) : Nat := if dieState 15 s = 0 then getF F.D2D_GUEST_STATUS_GRANT_W 0 0 s * 11 / 10 else 0

/-- The fixed allotments in W. -/
def fixedAllot (s : State) : Nat := getF F.PWR_HOST_PEAK_W 0 0 s + 300 + 672 + guestAllot s

/-- A plot's part of the budgets, in mW. -/
def plotShare (p : Nat) (bs : List (Nat × Nat)) (s : State) : Nat :=
  bs.foldl (fun z e =>
    let all := (List.range 12).foldl (fun n q => n + ownedOn q (some e.1) s) 0
    z + portion e.2 (ownedOn p (some e.1) s) all) 0

/-- `rest` watts divided among plots in proportion to their budgets, each receiving at least 150. -/
def divide (rest : Nat) (l : List (Nat × Nat)) : Nat → List (Nat × Nat)
  | 0 => l.map fun e => (e.1, 150)
  | n + 1 =>
    let sum := l.foldl (fun z e => z + e.2) 0
    let low := l.filter fun e => decide (portion rest e.2 sum < 150)
    if low.isEmpty then l.map fun e => (e.1, portion rest e.2 sum)
    else low.map (fun e => (e.1, 150)) ++
      divide (rest - 150 * low.length) (l.filter fun e => !decide (portion rest e.2 sum < 150)) n

/-- Whether a die manages itself, so that the loop moves neither its point nor its allotment (R364). -/
def selfManaged (d : Nat) (s : State) : Bool := bitF F.MGT_DIE_INFO_SELF_MANAGED d 0 s

/-- The allotments written of the plots that the loop manages; the others keep their last. -/
def allot (bs : List (Nat × Nat)) (s : State) : State :=
  let own := (List.range 12).filter fun p => !selfManaged p s
  let kept := ((List.range 12).filter fun p => selfManaged p s).foldl (fun z p => z + getF F.PWR_PLOT_STATUS_ALLOT_W p 0 s) 0
  let l := divide (getF F.PWR_CAP_PEAK_W 0 0 s - fixedAllot s - kept) (own.map fun p => (p, plotShare p bs s)) 12
  l.foldl (fun z e => setF F.PWR_PLOT_STATUS_ALLOT_W e.1 0 (min 65535 e.2) z) s

/-! ## The interval (R351 to R356) -/

/-- The SUSTAINED_W in force from this interval on, and the one that binds windows (R356). -/
def takeCap (s : State) : State :=
  let w := getF F.PWR_CAP_SUSTAINED_W 0 0 s
  let q := s.power
  let aged := q.lowered.map fun e => (e.1, e.2 - 1)
  let bound := (aged.filter fun e => decide (e.2 = 0)).foldl (fun z e => min z e.1) q.bound
  let left := aged.filter fun e => decide (e.2 ≠ 0)
  if q.cap < w then { s with power := { q with cap := w, bound := w, lowered := [] } }
  else if w < q.cap then { s with power := { q with cap := w, bound := bound, lowered := left ++ [(w, 2000)] } }
  else { s with power := { q with bound := bound, lowered := left } }

/-- The draws of the interval recorded. -/
def noteDraws (m : Meters) (s : State) : State :=
  let t := meterTotal m
  let means := (t :: s.power.means).take 1000
  let s1 := { s with power := { s.power with means := means } }
  let s2 := setF F.PWR_DRAW_MEAN_1S 0 0 (min 65535 (meanOf means / 1000)) (setF F.PWR_DRAW_PEAK_1MS 0 0
    (max (getF F.PWR_DRAW_PEAK_1MS 0 0 s) (min 65535 (t / 1000))) (setF F.PWR_DRAW_MEAN_1MS 0 0 (min 65535 (t / 1000)) s1))
  let s3 := flagIf (decide (means.length = 1000) && decide (s.power.bound * 1000 < meanOf means)) F.PWR_STATUS_OVER_SUSTAINED 0 0 s2
  (List.range 12).foldl (fun z p =>
    incF F.PWR_ENERGY_COUNT p 0 (meterOf m p / 1000) (setF F.PWR_PLOT_DRAW_MEAN_1MS p 0 (min 65535 (meterOf m p / 1000)) z)) s3

/-- The energy of every partition recorded. -/
def notePartEnergy (m : Meters) (s : State) : State :=
  (List.range 32).foldl (fun z k => incF F.PWR_PART_ENERGY_COUNT 0 k (partDraw m k s / 1000) z) s

/-- Throttling of hot plots, one step an interval (R362). -/
def throttle (s : State) : State :=
  let one (z : State) (p : Nat) : State :=
    let z1 := incF F.PWR_THROTTLE_MS_COUNT p 0 1 z
    if steadyPlot p z then
      ((List.range 32).filter fun k => partRuns k z && (launchPlots k z).contains p).foldl (fun y k => setFallow k (fallowOf k y + 8) y) z1
    else { z1 with power := { z1.power with steps := lput z1.power.steps p (min 7 ((look z1.power.steps p).getD 0 + 1)) } }
  let s1 := (s.power.hot.filter (· < 12)).foldl one s
  if s1.power.hot.any fun d => decide (12 ≤ d) then { s1 with power := { s1.power with percent := s1.power.percent - 10 } } else s1

/-- The flags of PWR_STATUS that follow from the rest. -/
def powerFlags (s : State) : State :=
  let anyF := (List.range 32).any fun k => decide (0 < fallowOf k s)
  let hot := !s.power.hot.isEmpty || (List.range 24).any fun st => (s.stack st).hotCap
  let self := (List.range 16).any fun d => bitF F.MGT_DIE_INFO_SELF_MANAGED d 0 s && decide (getF F.MGT_DIE_INFO_KIND d 0 s ≠ 0)
  setF F.PWR_STATUS_SELF_MANAGED 0 0 (b2n self) (setF F.PWR_STATUS_THROTTLE 0 0 (b2n hot) (setF F.PWR_STATUS_AT_FLOOR 0 0 (b2n anyF) s))

/-- Whether the control loop runs (R408, R426). -/
def loopRuns (s : State) : Bool :=
  decide (7 ≤ getF F.MGT_BOOT_STATUS_STAGE 0 0 s) && s.pins.vmain && !inReset s && !bitF F.MGT_ERR_STATUS_RESTARTING 0 0 s &&
  !bitF F.MGT_HEALTH_REDUCED 0 0 s

/-- Every die under management, or self-managed; a die in test stays as it is (R364, R449). -/
def manageDies (self : Nat) (s : State) : State :=
  let en := getF F.TAP_CTRL_DIE_EN 0 0 s
  (List.range 16).foldl (fun z d => if en.testBit d then z else setF F.MGT_DIE_INFO_SELF_MANAGED d 0 self z) s

/-- An interval that the loop misses: after ten in a row every die manages itself (R364). -/
def missInterval (s : State) : State :=
  let n := s.power.missed + 1
  let s1 := { s with power := { s.power with missed := n, good := 0, ran := [] } }
  powerFlags (if 10 ≤ n then manageDies 1 s1 else s1)

/-- An interval that the loop completes: after ten in a row it manages every die that is not in test. -/
def goodInterval (s : State) : State :=
  let n := s.power.good + 1
  let s1 := { s with power := { s.power with missed := 0, good := n, ran := [] } }
  let en := getF F.TAP_CTRL_DIE_EN 0 0 s
  let s2 := if 10 ≤ n then
      manageDies 0 { s1 with power := { s1.power with budgets := s1.power.budgets.filter fun e => en.testBit e.1 } }
    else s1
  powerFlags s2

/-- POWER_INTERVAL. -/
def powerInterval (m : Meters) (s0 : State) : State :=
  if !loopRuns s0 then missInterval s0
  else
    let s1 := notePartEnergy m (learnAll m (noteDraws m (throttle (takeCap s0))))
    let bs := budgets m s1
    let s2 := bs.foldl (fun z e => setF F.PWR_PART_STATUS_BUDGET_W 0 e.1 (min 65535 (e.2 / 1000)) z) s1
    let above := if mayPause m bs s2 then s2.power.above + 1 else 0
    let s3 := bs.foldl (fun z e => stepFallow m e.1 e.2 z) { s2 with power := { s2.power with above := above } }
    let s4 := (List.range 12).foldl (fun z p => if decide (dieState p z = 0) && !selfManaged p z then orderOpp p (plotPoint p bs s2) z else z) s3
    let s5 := if 3 ≤ above then pauseOne s4 else s4
    goodInterval (allot bs (resumeOne s5))

def execPowerInterval (m : Meters) (s : State) : Host.Outcome State Fault Refusal := .next (powerInterval m s)

/-- PWR_CAP_WRITE: PEAK_W is clamped between the fixed allotments plus 1,800 W and 7,500, then SUSTAINED_W between 1,000 and the lower of
6,800 and PEAK_W; the new value is used at the end of the interval (R356, R365). -/
def capWrite (v mask : BitVec 64) (s : State) : State :=
  let s1 := swWriteReg .PWR_CAP 0 0 v mask s
  let peak := max (fixedAllot s1 + 1800) (min 7500 (getF F.PWR_CAP_PEAK_W 0 0 s1))
  let s2 := setF F.PWR_CAP_PEAK_W 0 0 peak s1
  setF F.PWR_CAP_SUSTAINED_W 0 0 (max 1000 (min (min 6800 peak) (getF F.PWR_CAP_SUSTAINED_W 0 0 s2))) s2

def execPwrCapWrite (v : BitVec 32) (s : State) : Host.Outcome State Fault Refusal := .next (capWrite (v.setWidth 64) 0xFFFFFFFF s)

/-! ## The peak limiter (R358) -/

/-- Slices of 100 ns in the window of 1 ms. -/
def windowSlices : Nat := 10000

/-- PEAK_LIMITER: one slice of a plot's meter. The window's energy, with the present draw held for 10 µs, above the allotment stretches
CLK_ARITH by one more eighth; 2 % below it, by one less. -/
def peakLimiter (p mw : Nat) (s : State) : State :=
  let w := (mw :: (look s.power.windows p).getD []).take windowSlices
  let s1 := { s with power := { s.power with windows := lput s.power.windows p w } }
  let s2 := setF F.PWR_PLOT_DRAW_NOW_W p 0 (min 65535 (meanOf (w.take 100) / 1000)) s1
  let energy := w.foldl (· + ·) 0 + 100 * mw
  let allot := getF F.PWR_PLOT_STATUS_ALLOT_W p 0 s * 1000 * windowSlices
  let k := getF F.PWR_PLOT_STATUS_STRETCH p 0 s
  let k1 := if allot < energy then min 15 (k + 1) else if 100 * energy ≤ 98 * allot then k - 1 else k
  let held := k = 15 ∧ allot < energy
  incF F.PWR_LIMIT_NS_COUNT p 0 (if held then 100 else 100 * k1 / (8 + k1)) (setF F.PWR_PLOT_STATUS_STRETCH p 0 k1 s2)

def execPeakLimiter (p : PlotId) (mw : Nat) (s : State) : Host.Outcome State Fault Refusal := .next (peakLimiter p.val mw s)

/-! ## Droop (R359, R360) -/

/-- DROOP_DETECT: `n` cycles of a bed group with its logic rail `mv` below the voltage of its point. Below the threshold its cycles take
1.5 periods, twice as far below 2; the stretch holds until 256 cycles above it. -/
def droopDetect (g mv n : Nat) (s : State) : State :=
  let th := getF F.PWR_DROOP_CFG_MV 0 0 s
  let old := (look s.power.droop g).getD (0, 0)
  let now := if 2 * th ≤ mv then 2 else if th ≤ mv then 1 else 0
  let level := if now = 0 then old.1 else max now (if old.2 = 0 then old.1 else 0)
  let above := if now = 0 then old.2 + n else 0
  let calm := now = 0 ∧ 256 ≤ above
  let cycles := if calm ∧ old.2 < 256 then 256 - old.2 else n
  let s1 := { s with power := { s.power with
    droop := if calm ∨ level = 0 then ldel s.power.droop g else lput s.power.droop g (level, above) } }
  let s2 := flagCross (decide (now ≠ 0) && (decide (old.1 = 0) || decide (old.2 ≠ 0))) s1
  incF F.PWR_STRETCH_NS_COUNT (g / 16) 0 (cycles * level * 500 / oppMHz (plotOpp (g / 16) s)) s2
where
  /-- A crossing of the threshold counted. -/
  flagCross (b : Bool) (s : State) : State := if b then incF F.PWR_DROOP_EVENTS_COUNT (g / 16) 0 1 s else s

def execDroopDetect (g : BgId) (mv n : Nat) (s : State) : Host.Outcome State Fault Refusal := .next (droopDetect g.val mv n s)

/-! ## Thermal limits (R362, R363) -/

/-- The hottest reading with its source (0 to 15 die slot, 16 to 39 stack). -/
def hottest (t : Temps) : Nat × Nat :=
  let l := t.dies.zip (List.range 16) ++ t.stks.zip ((List.range 24).map (· + 16))
  l.foldl (fun z e => if z.1 < e.1 then e else z) (0, 0)

/-- A die at 100 °C or more throttles until it reads below 97. -/
def heatDie (d t : Nat) (s : State) : State :=
  let q := s.power
  let was := q.hot.contains d
  let s1 := if d < 12 then setF F.PWR_PLOT_STATUS_TEMP_C d 0 (min 255 t) s else s
  if 100 ≤ t ∧ was = false then { s1 with power := { q with hot := q.hot ++ [d] } }
  else if t < 97 ∧ was = true then { s1 with power := { q with hot := q.hot.filter (· ≠ d), steps := ldel q.steps d } }
  else s1

/-- A stack at 95 °C or more admits half its tokens until it reads below 90; above 85 it refreshes at double rate (R188). -/
def heatStack (st t : Nat) (s : State) : State :=
  let k := s.stack st
  let cap := if 95 ≤ t then true else if t < 90 then false else k.hotCap
  setF F.STK_STATUS_HOT st 0 (b2n (decide (85 < t))) (setF F.STK_STATUS_TEMP st 0 (min 255 t) (s.putStack st { k with hotCap := cap }))

/-- THERMAL_SAMPLE: every sensor read; at 105 °C the package trips. -/
def thermalSample (t : Temps) (s : State) : State :=
  let h := hottest t
  if 105 ≤ h.1 then trip h.2 s
  else
    let s1 := (t.dies.zip (List.range 15)).foldl (fun z e => heatDie e.2 e.1 z) s
    let s2 := (t.stks.zip (List.range 24)).foldl (fun z e => heatStack e.2 e.1 z) s1
    let s3 := (t.groups.zip (List.range 192)).foldl (fun z e => setF F.PWR_BG_TEMP_C (e.2 / 16) (e.2 % 16) (min 255 e.1) z) s2
    let s4 := if s3.power.hot.any fun d => decide (12 ≤ d) then s3 else { s3 with power := { s3.power with percent := 100 } }
    let s5 := setF F.PWR_STATUS_HOTTEST_SRC 0 0 h.2 (setF F.PWR_STATUS_HOTTEST_C 0 0 (min 255 h.1) s4)
    let s6 := setF F.PWR_COOLANT_OUTLET_C 0 0 (min 255 t.outlet) (setF F.PWR_COOLANT_INLET_C 0 0 (min 255 t.inlet) s5)
    powerFlags (flagIf (decide (40 < t.inlet)) F.PWR_COOLANT_INLET_HIGH 0 0 s6)

def execThermalSample (t : Temps) (s : State) : Host.Outcome State Fault Refusal := .next (thermalSample t s)

/-! ## Budgets by message (R364) -/

/-- BUDGET_MESSAGE: a sustained wattage and highest point for a self-managed die, or the message that ends self-management. -/
def budgetMessage (d : Nat) (b : Option (Nat × Nat)) (s : State) : State :=
  if (dieState d s ≠ 0 ∧ dieState d s ≠ 4) ∨ !reached d s then s
  else match b with
    | none => powerFlags (setF F.MGT_DIE_INFO_SELF_MANAGED d 0 0 { s with power := { s.power with budgets := ldel s.power.budgets d } })
    | some (w, o) =>
      let s1 := { s with power := { s.power with budgets := lput s.power.budgets d (w, o) } }
      if d < 12 ∧ o < orderedOpp d s ∧ bitF F.MGT_DIE_INFO_SELF_MANAGED d 0 s then orderOpp d o s1 else s1

def execBudgetMessage (d : SlotId) (b : Option (Nat × Fin 8)) (s : State) : Host.Outcome State Fault Refusal :=
  .next (budgetMessage d.val (b.map fun x => (x.1, x.2.val)) s)

/-! ## Views (R365) -/

/-- PWR_LEARN_DATA: the entry that PWR_LEARN_SEL names. -/
def viewLearn (s : State) : BitVec 64 :=
  let e := learnEntry (getF F.PWR_LEARN_SEL_PART 0 0 s) (getF F.PWR_LEARN_SEL_PHASE 0 0 s) (getF F.PWR_LEARN_SEL_OPP 0 0 s) s
  F.PWR_LEARN_DATA_ENERGY_J.put (F.PWR_LEARN_DATA_SAMPLES.put (F.PWR_LEARN_DATA_MW_PER_BED.put 0 (min 65535 e.mw)) e.samples)
    (min (2 ^ 32 - 1) (e.uj / 1000000))

/-- CORE_BSQ_CTRL of a bed: OPP is its plot's point in force (R350). -/
def viewBsqCtrl (b : Nat) (s : State) : BitVec 64 := F.CORE_BSQ_CTRL_OPP.put (readReg .CORE_BSQ_CTRL b 0 s) (plotOpp (plotOf b) s)

end Sys2Proof.Machine
end

