-- ==== Sys2Proof/Machine/Boot.lean ====
section
/-!
DEFINITION. Boot (R36, R37, R408 to R411): the stages in their order, each BOOT running the stage in progress; a stage that waits on
another event stays.
-/

namespace Sys2Proof.Machine

/-- The stage in progress (R408): 12 after hand-off. -/
def bootStage (s : State) : Nat := getF F.MGT_BOOT_STATUS_STAGE 0 0 s

/-- The next stage begins. -/
def toStage (n : Nat) (s : State) : State := setF F.MGT_BOOT_STATUS_STAGE 0 0 n s

/-! ## Stage 2: identity (R36, R37) -/

/-- Whether a copy has the record's MAGIC and a valid signature. -/
def copySigned (c : IdCopy) : Bool := decide (cut c.body.toNat 0 4 = 0x44495654) && c.sigOk

/-- Whether a copy is valid. -/
def copyValid (c : IdCopy) : Bool := copySigned c && decide (cut c.body.toNat 4 2 = 1)

/-- KIND and REVISION of a die entry. -/
def dieEntry (body off : Nat) : Nat × Nat := (cut body (off + 10) 1, cut body (off + 11) 1)

/-- What a copy in use says. -/
def identOf (c : IdCopy) : Ident :=
  let b := c.body.toNat
  ⟨c.body, c.sig, BitVec.ofNat 64 (cut b 8 8), BitVec.ofNat 128 (cut b 0x10 16),
    ((List.range 16).map fun d => dieEntry b (0x20 + 16 * d)) ++ (List.range 24).map fun k => dieEntry b (0x120 + 16 * k)⟩

/-- The identity in use, from the copy of a source. -/
def useIdent (src : Nat) (c : IdCopy) (s : State) : State :=
  setF F.MGT_ID_STATUS_CAUSE 0 0 0 (setF F.MGT_ID_STATUS_SOURCE 0 0 src { s with ident := some (identOf c) })

/-- Both copies read and checked, and the outcome recorded in MGT_ID_STATUS. Two valid copies differ where any byte of them differs, a
byte of the signature included (DESIGN CHOICE, log entry 27: R37 does not say what of them is compared). -/
def checkIdentity (a b : IdCopy) (s : State) : State :=
  if copyValid a && copyValid b then (if a.body = b.body ∧ a.sig = b.sig then useIdent 3 a s else noIdentity 2 0 s)
  else if copyValid a then useIdent 1 a s
  else if copyValid b then useIdent 2 b s
  else noIdentity (if copySigned a || copySigned b then 4 else 1) 0 s

/-- The copies in the flash: those that it is known to hold, else what the two devices are first read as. -/
def idCopies (b : BootIn) (s : State) : IdCopy × IdCopy := s.flash.ids.getD (b.a, b.b)

/-- IDENTITY_CHECK: the copies in the flash read, which holds them from then on, and checked. -/
def identityCheck (b : BootIn) (s : State) : State :=
  let c := idCopies b s
  checkIdentity c.1 c.2 { s with flash := { s.flash with ids := some c } }

/-! ## Stages 3 to 5: firmware and settings -/

/-- A slot chosen whose image header is sound; with none, ROM recovery. `fuel` bounds the slots that fail. -/
def pickSlot (ok : Bool) (s : State) : Nat → State
  | 0 => setF F.MGT_BOOT_STATUS_FAIL 0 0 2 (setF F.MGT_BOOT_STATUS_RECOVERY 0 0 1 s)
  | n + 1 =>
    match chooseSlot ok s with
    | (none, s1) => setF F.MGT_BOOT_STATUS_FAIL 0 0 2 (setF F.MGT_BOOT_STATUS_RECOVERY 0 0 1 s1)
    | (some i, s1) =>
      if (s1.slot i).formatOk then toStage 4 { s1 with mgt := { s1.mgt with chosen := some i } }
      else pickSlot ok (setSlot ok i 5 0 s1) n

/-- Stage 4: the image verified and loaded, the controllers started; a slot that fails is BAD and another is chosen. -/
def loadImage (x : ImgIn) (keyOpen : Bool) (s : State) : State :=
  match s.mgt.chosen with
  | none => toStage 3 s
  | some i =>
    let s0 := { s with mgt := { s.mgt with chosen := none } }
    if verifySlot i x s ≠ 0 then toStage 3 (setSlot x.flashOk i 5 0 s0)
    else
      let m := { s0.mgt with image := some (imageOf i s), sound := true, graftEnd := if slotIs i 2 s then some s.ownTick else none }
      toStage 5 (setF F.SEC_STATUS_KEY_OK 0 0 (b2n keyOpen) (setF F.MGT_HEALTH_ALIVE 0 0 15 { s0 with mgt := m }))

/-- Stage 5: settings; what they load, and the graft window that they give, which runs from the end of stage 4 (R418). -/
def takeSettings (ok : Bool) (s : State) : State :=
  let s1 := loadSettings ok s
  let s2 := setF F.MGT_ERR_CTRL_HOST_LOSS 0 0 (b2n (settingFlag 2 s1)) (setF F.HAL_GROVE_CFG_JOIN_AUTO 0 0 (b2n (settingFlag 1 s1))
    (setF F.HAL_GROVE_CFG_REQ_NUM 0 0 (min 511 (s1.setting 0x16 2)) s1))
  toStage 6 { s2 with mgt := { s2.mgt with graftEnd := s2.mgt.graftEnd.map fun t => t + 25000000 * graftWindow s1 } }

/-! ## Stages 7 and 8: dies, stacks, regions -/

/-- Every stack whose plot is not fenced begins to train. -/
def beginStacks (s : State) : State :=
  (List.range 24).foldl (fun z st =>
    let k := getF F.STK_STATUS_STATE st 0 z
    if (k = 2 ∨ k = 4) ∧ dieState (st / 2) z ≠ 1 ∧ dieState (st / 2) z ≠ 2 then setF F.STK_STATUS_STATE st 0 0 z else z) s

/-- Whether no die and no stack of a present die trains any more, and the guest site has been discovered. -/
def trained (s : State) : Bool :=
  ((List.range 16).all fun d => decide (dieState d s ≠ 4)) &&
  (List.range 24).all fun st => decide (dieState (st / 2) s ≠ 0) || decide (getF F.STK_STATUS_STATE st 0 s ≠ 0)

/-- A region entry of the hand-off table (R410). -/
def regionValue (wide base size plot i : Nat) : BitVec 64 :=
  F.STK_REGION_VALID.put (F.STK_REGION_SIZE.put (F.STK_REGION_BASE.put (F.STK_REGION_PLOT.put (F.STK_REGION_WIDE.put
    (Reg.resetVal .STK_REGION 0 i) wide) plot) base) size) 1

/-- The region table for hand-off (R410). -/
def handoffRegions (s : State) : State :=
  if (List.range 24).all fun st => stackUp st s then writeReg .STK_REGION 0 0 (regionValue 1 0 1728 0 0) s
  else
    (List.range 12).foldl (fun z p =>
      if stackUp (2 * p) z && stackUp (2 * p + 1) z then writeReg .STK_REGION 0 p (regionValue 0 (144 * p) 144 p p) z else z) s

/-- The hand-off region. -/
def handoffRegion (s : State) : Option Nat := (List.range 12).find? fun i => bitF F.STK_REGION_VALID 0 i s

/-- Stage 8: routes, features, power of the bed groups, regions; without one, boot stops (NO_MEMORY). -/
def writeTables (s : State) : State :=
  let s1 := setF F.D2D_PKG_FEATURES_BITMAP 0 0 (pkgFeatures s) (writeRoutes s)
  let s2 := handoffRegions ((List.range 12).foldl (fun z p => plotGroups p z) s1)
  if (handoffRegion s2).isSome then toStage 9 (openPairs s2) else setF F.MGT_BOOT_STATUS_FAIL 0 0 1 s2
where
  /-- The pairs that the settings list open before any port trains (R289); the ports of the others are bypassed. -/
  openPairs (s : State) : State :=
    (List.range 8).foldl (fun z k =>
      if (z.setting 0x13 1).testBit k then bypassSwitch k false z else startTrain (2 * k + 1) (startTrain (2 * k) z)) s

/-! ## Stages 10 and 11: hand-off (R411) -/

/-- The hand-off block. -/
def handoffBlock (s : State) : Nat :=
  let x := s.mgt.image.getD ⟨0, 0, 0, 0, 0⟩
  let failed := (List.range 24).foldl (fun z st => z + if getF F.STK_STATUS_STATE st 0 s = 3 then 2 ^ st else 0) 0
  0x4B444848 + at0 4 1 + at0 6 (getF F.MGT_BOOT_STATUS_REASON 0 0 s) + at0 7 x.slot + at0 8 (x.version % 2 ^ 32) +
    at0 0xC (x.secVersion % 2 ^ 32) + at0 0x10 (getF F.D2D_PKG_FEATURES_BITMAP 0 0 s) +
    at0 0x18 (getF F.D2D_FENCE_STATUS_FENCED 0 0 s) + at0 0x1A (b2n s.mgt.graftEnd.isSome) + at0 0x1C failed +
    at0 0x20 x.digest.toNat + at0 0x60 ((readReg .MGT_ID_STATUS 0 0 s).toNat % 2 ^ 32)

/-- The processor boot stage of the image that runs, at most 64 MiB: its bytes and their number. -/
def bootImage (s : State) : Nat × Nat :=
  match s.mgt.image with
  | none => (0, 0)
  | some x =>
    match (s.slot x.slot).ofKind 3 with
    | [] => (0, 0)
    | c :: _ => let n := min c.2.1 (64 * 2 ^ 20); ((s.slot x.slot).read c.2.2 n, n)

/-- The tag of the management controller's accesses in boot. -/
def bootTag : Nat := 2

/-- The boot stage image of `s0` written to address `a`: boot goes on to stage 11 (R408). -/
def putBootImage (a : Nat) (s0 s : State) : State :=
  let q := busWriteRange .mgt bootTag hostWho a (bootImage s0).2 (bootImage s0).1 s
  match q.1 with
  | .ok _ => toStage 11 (askDone .mgt bootTag q.2)
  | .wait => q.2
  | .bad _ => askDone .mgt bootTag q.2

/-- The hand-off block written to address `base` with the ports of `s1` out of reset, and the boot stage after it (R408). -/
def putHandoff (base : Nat) (s s1 : State) : State :=
  let r := busWriteRange .mgt bootTag hostWho base 4096 (handoffBlock s1) s1
  match r.1 with
  | .ok _ => putBootImage (base + 0x10000) s r.2
  | .wait => r.2
  | .bad _ => askDone .mgt bootTag r.2

/-- Stage 10: the PCIe ports leave reset, and the hand-off block and the boot stage are written to DRAM. -/
def writeHandoff (s : State) : State :=
  match handoffRegion s with
  | none => s
  | some i =>
    putHandoff (getF F.STK_REGION_BASE 0 i s * 2 ^ 30) s { s with pins := { s.pins with perst0 := false, perst1 := false } }

/-- Stage 11: rings may be fetched and the processor die runs. -/
def handOff (s : State) : State :=
  let s1 := setF F.MGT_BOOT_STATUS_BOOT_MS 0 0 (min (2 ^ 32 - 1) ((s.ownTick - s.mgt.bootTick) / msTicks)) (setF F.CMD_CTRL_EN 0 0 1 s)
  toStage 12 { s1 with mgt := { s1.mgt with handoff := some s.ownTick } }

/-! ## The sequence (R408) -/

/-- The attestation indices at boot (R423). -/
def loadIndices (s : State) : State := { s with mgt := { s.mgt with limit := s.flash.limit, next := s.flash.limit } }

/-- BOOT: the stage in progress runs. -/
def boot (b : BootIn) (s : State) : State :=
  if inReset s || bitF F.MGT_BOOT_STATUS_RECOVERY 0 0 s || bitF F.MGT_ERR_STATUS_RESTARTING 0 0 s then s
  else match bootStage s with
    | 1 => toStage 2 s
    | 2 => toStage 3 (loadIndices (identityCheck b s))
    | 3 => pickSlot b.img.flashOk s 4
    | 4 => loadImage b.img b.keyOpen s
    | 5 => takeSettings b.img.flashOk s
    | 6 => if s.pins.vmain then toStage 7 (powerFlags (manageDies 1 (beginStacks s))) else s
    | 7 => let s1 := beginStacks s; if trained s1 then toStage 8 s1 else s1
    | 8 => if getF F.MGT_BOOT_STATUS_FAIL 0 0 s = 1 then s else writeTables s
    | 9 =>
      toStage 10 (if bitF F.HAL_GROVE_CFG_JOIN_AUTO 0 0 s && !s.grove.cards.isEmpty && decide (getF F.HAL_GROVE_STATUS_STATE 0 0 s = 0)
        then joinGrove s else s)
    | 10 => writeHandoff s
    | 11 => graftSettle b.img.flashOk (handOff s)
    | _ => s

def execBoot (b : BootIn) (s : State) : Host.Outcome State Fault Refusal := .next (boot b s)

end Sys2Proof.Machine
end

