-- ==== Sys2Proof/Machine/Sec.lean ====
section
/-!
DEFINITION. The SEC_ commands (R417 to R420, R424, R427): one runs at a time, begun by a write of SEC_CMD, from its beginning to its
result. A command whose buffer must be waited for stays BUSY and goes on with the next command of its kind.
-/

namespace Sys2Proof.Machine

/-! ## One command at a time -/

/-- A write of SEC_CMD.OP: a command is begun, or ignored while one runs. -/
def secCmd (op : Nat) (s : State) : State :=
  if s.mgt.secOp ≠ 0 then flagF F.SEC_STATUS_BUSY_WRITE 0 0 s
  else if op = 0 ∨ 7 ≤ op then s
  else setF F.SEC_STATUS_BUSY 0 0 1 { s with mgt := { s.mgt with secOp := op } }

/-- A command's end: its result, and the interrupt of SEC_IRQ. -/
def secDone (result : Nat) (s : State) : State :=
  let s1 := setF F.SEC_STATUS_BUSY 0 0 0 (setF F.SEC_STATUS_RESULT 0 0 result { s with mgt := { s.mgt with secOp := 0 } })
  if bitF F.SEC_IRQ_IE 0 0 s1 then irq (getF F.SEC_IRQ_IID 0 0 s1) s1 else s1

/-- A command abandoned because its buffer could not be read or written (R397): the result is undefined (log entry 36). -/
def secAbandon (s : State) : State := let r := s.takeFree; secDone (r.1.toNat % 15) r.2

/-- Whether the firmware serves commands. -/
def secRuns (s : State) : Bool :=
  s.mgt.image.isSome && !inReset s && !bitF F.MGT_ERR_STATUS_RESTARTING 0 0 s && !bitF F.MGT_HEALTH_REDUCED 0 0 s

/-- Command `op` runs by `f`, begun now if no other runs. -/
def secRun (op : Nat) (f : State → State) (s : State) : State :=
  let s1 := if s.mgt.secOp = op then s else secCmd op s
  if decide (s1.mgt.secOp = op) && secRuns s1 then f s1 else s1

/-- The tag of the accesses of SEC_ commands. -/
def secTag : Nat := 1

/-- The buffer of a command. -/
def secAddr (s : State) : Nat := getF F.SEC_CMD_ADDR_ADDR 0 0 s * 64

/-- `n` bytes read from the buffer, then `f`; a command waits for its buffer, or is abandoned. -/
def secRead (n : Nat) (f : Nat → State → State) (s : State) : State :=
  let r := busReadRange .mgt secTag hostWho (secAddr s) n s
  match r.1 with
  | .ok v => f v (askDone .mgt secTag r.2)
  | .wait => r.2
  | .bad _ => secAbandon (askDone .mgt secTag r.2)

/-! ## Images (R417) -/

/-- The slot that the running image did not come from. -/
def stageTarget (s : State) : Nat :=
  match s.mgt.image with
  | some x => 1 - x.slot
  | none => 0

/-- STAGE_IMAGE. -/
def stageImage (x : ImgIn) : State → State :=
  secRun 1 fun s =>
    let t := stageTarget s
    let len := getF F.SEC_CMD_LEN_LEN 0 0 s
    if (slotIn 2 s).isSome then secDone 9 s
    else
      secRead len (fun v z =>
        if !x.flashOk then secDone 8 z
        else
          let z1 := z.putSlot t ((z.slot t).put 0 len v)
          let code := verifySlot t x z1
          secDone code (setSlot true t (if code = 0 then 1 else 5) 0 z1)) (s.putSlot t FwSlot.empty)

def execStageImage (x : ImgIn) (s : State) : Host.Outcome State Fault Refusal := .next (stageImage x s)

/-- ACTIVATE: the staged slot becomes a graft and the package resets; again while launches end, until the reset is made. -/
def activate (ok : Bool) (s0 : State) : State :=
  if s0.mgt.resetTo.isSome then tryReset s0
  else secRun 2 (fun s =>
    match slotIn 1 s with
    | none => secDone 14 s
    | some i => if ok then tryReset (orderReset 5 1 (secDone 0 (setSlot true i 2 0 s))) else secDone 8 (setSlot false i 2 0 s)) s0

def execActivate (flashOk : Bool) (s : State) : Host.Outcome State Fault Refusal := .next (activate flashOk s)

/-- CONFIRM: counts before the tick on which the window ends, else LATE_CONFIRM (R419). -/
def confirm (ok : Bool) : State → State :=
  secRun 3 fun s =>
    if (slotIn 2 s).isNone then secDone 14 s
    else if (match s.mgt.graftEnd with
      | some e => decide (e ≤ s.ownTick)
      | none => false) then secDone 0 (flagF F.SEC_STATUS_LATE_CONFIRM 0 0 s)
    else secDone 0 (graftSettle ok (setF F.SEC_GRAFT_HOST_DONE 0 0 1 s))

def execConfirm (flashOk : Bool) (s : State) : Host.Outcome State Fault Refusal := .next (confirm flashOk s)

/-- ABANDON_GRAFT: as the window ending. -/
def abandonGraft (ok : Bool) (s0 : State) : State :=
  if s0.mgt.resetTo.isSome then tryReset s0
  else secRun 4 (fun s =>
    match slotIn 2 s with
    | none => secDone 14 s
    | some i => tryReset (endGraft ok i (secDone (if ok then 0 else 8) s))) s0

def execAbandonGraft (flashOk : Bool) (s : State) : Host.Outcome State Fault Refusal := .next (abandonGraft flashOk s)

/-! ## Settings (R420) -/

/-- WRITE_SETTINGS: refused while the stored record is of a newer format (R421). -/
def writeSettings (ok : Bool) : State → State :=
  secRun 5 fun s =>
    if settingsNewer s then secDone 1 s
    else secRead 256 (fun v z => secDone (if ok then 0 else 8) (flashWrite ok (storeSettings (writtenSettings v z)) z)) s

def execWriteSettings (flashOk : Bool) (s : State) : Host.Outcome State Fault Refusal := .next (writeSettings flashOk s)

/-! ## Attestation (R424) -/

/-- Bytes of a quote. -/
def quoteBytes : Nat := 10405

/-- "MX1-0", the part without a guest. -/
def bridgedProduct : Nat := 0x302D31584D

/-- A quote over a nonce, with its signature. -/
def quote (nonce : Nat) (sig : BitVec 79144) (s : State) : Nat :=
  let x := s.mgt.image.getD ⟨0, 0, 0, 0, 0⟩
  let d := s.ident.getD ⟨0, 0, 0, 0, []⟩
  let guest := if d.product.toNat = bridgedProduct then 0 else (shake256 s.guest.desc.toNat 256).toNat
  0x54554F51 + at0 4 1 + at0 8 nonce + at0 0x28 d.serial.toNat + at0 0x38 d.product.toNat + at0 0x40 x.slot +
    at0 0x41 (b2n s.mgt.graftEnd.isSome) + at0 0x42 (getF F.MGT_BOOT_STATUS_REASON 0 0 s) + at0 0x44 (x.secVersion % 2 ^ 32) +
    at0 0x48 (x.version % 2 ^ 32) + at0 0x50 (getF F.D2D_PKG_FEATURES_BITMAP 0 0 s) + at0 0x58 (s.tick % 2 ^ 64) +
    at0 0x60 x.digest.toNat + at0 0xA0 (shake256 d.body.toNat 672).toNat + at0 0xE0 (shake256 s.mgt.settings.toNat 256).toNat +
    at0 0x120 guest + at0 0x160 (configDigest s).toNat + at0 0x1A0 s.mgt.next + at0 0x200 sig.toNat

/-- A quote written to the buffer. -/
def writeQuote (q : BitVec 83240) (s : State) : State :=
  let ended (z : State) : State := askDone .mgt secTag { z with mgt := { z.mgt with quote := none } }
  let r := busWriteRange .mgt secTag hostWho (secAddr s) quoteBytes q.toNat s
  match r.1 with
  | .ok _ => secDone 0 (ended r.2)
  | .wait => r.2
  | .bad _ => secAbandon (ended r.2)

/-- A quote formed over a nonce with the next index. -/
def formQuote (sig : BitVec 79144) (nonce : Nat) (s : State) : State :=
  let q := BitVec.ofNat 83240 (quote nonce sig s)
  writeQuote q { s with mgt := { s.mgt with next := s.mgt.next + 1, quote := some q } }

/-- ATTEST: refused with no identity, with seeds that do not open, with a buffer too small, with every index used, or where the journal
cannot be written. -/
def attest (sig : BitVec 79144) (ok : Bool) : State → State :=
  secRun 6 fun s =>
    match s.mgt.quote with
    | some q => writeQuote q s
    | none =>
      if s.ident.isNone then secDone 10 s
      else if !bitF F.SEC_STATUS_KEY_OK 0 0 s then secDone 11 s
      else if getF F.SEC_CMD_LEN_LEN 0 0 s < quoteBytes then secDone 13 s
      else match reserveIndex ok s with
        | (some code, s1) => secDone code s1
        | (none, s1) => secRead 32 (formQuote sig) s1

def execAttest (sig : BitVec 79144) (flashOk : Bool) (s : State) : Host.Outcome State Fault Refusal := .next (attest sig flashOk s)

/-! ## Registers (R427) -/

/-- SEC_SLOT[i]. -/
def viewSecSlot (i : Nat) (s : State) : BitVec 64 :=
  let f := s.slot i
  let active := match s.mgt.image with
    | some x => decide (x.slot = i)
    | none => false
  F.SEC_SLOT_VERSION.put (F.SEC_SLOT_TRIES.put (F.SEC_SLOT_ACTIVE.put (F.SEC_SLOT_STATE.put 0 f.st) (b2n active)) f.tries)
    (if f.st = 0 then 0 else f.field 0x28 4)

/-- SEC_GRAFT. -/
def viewSecGraft (s : State) : BitVec 64 :=
  let left := match s.mgt.graftEnd with
    | some e => min 3600 ((e - s.ownTick) / 25000000)
    | none => 0
  F.SEC_GRAFT_REMAINING_S.put (readReg .SEC_GRAFT 0 0 s) left

/-- SEC_ATTEST_INDEX. -/
def viewAttestIndex (s : State) : BitVec 64 := F.SEC_ATTEST_INDEX_NEXT.put 0 s.mgt.next

/-- SEC_ATTEST_LIMIT. -/
def viewAttestLimit (s : State) : BitVec 64 := F.SEC_ATTEST_LIMIT_LIMIT.put 0 s.mgt.limit

end Sys2Proof.Machine
end

