-- ==== Sys2Proof/Machine/Errors.lean ====
section
/-!
DEFINITION. Errors as units report them, injection, the loss of the processor die, and restarts of the management controller
(R389 to R403, R425, R426).
-/

namespace Sys2Proof.Machine

/-! ## Corrections (R390 to R394) -/

/-- The counter of a unit of a site that counts its own corrections (R392). -/
def unitCe (site slot unit : Nat) : Option (Fld × Nat) :=
  match site with
  | 0 => some (F.SPAD_CE_COUNT_COUNT, 25600 * slot + unit)
  | 1 => some (F.BEDC_CE_COUNT_COUNT, 400 * slot + unit)
  | 3 => some (F.STK_CE_COUNT_COUNT, 2 * slot + unit)
  | 4 => some (F.D2D_LINK_CE_COUNT, linkUnit slot unit)
  | 5 => some (F.HAL_PORT_CE_COUNT, unit)
  | _ => none

/-- A correction counted in the unit's own register. -/
def countCe (site slot unit : Nat) (s : State) : State :=
  match unitCe site slot unit with
  | some (f, i) => incF f i 0 1 s
  | none => s

/-- A corrected granule of stacked DRAM enters its stack's list of recent ones (R394). -/
def recentCe (pa : Nat) (a : ErrAt) (s : State) : State :=
  match homeOf pa s with
  | some h => noteRecent h.stack (memKey h.stack h.addr / 16) a s
  | none => s

/-- CE_REPORT. -/
def ceEvent (f : CeF) (s : State) : State :=
  match f with
  | .unit site slot unit addr synd nib =>
    let a : ErrAt := ⟨site.val, slot.val, unit.toNat, addr.toNat / 16 * 16⟩
    let s1 := ceReport a synd.toNat nib.val (countCe site.val slot.val unit.toNat s)
    if site.val = 3 then recentCe addr.toNat a s1 else s1
  | .ib c block => dropBlock (bedOf c.val) block [c.val] s

def execCeReport (f : CeF) (s : State) : Host.Outcome State Fault Refusal := .next (ceEvent f s)

/-- CE_WINDOW: at the end of a site's window every level of it falls by THRESH, to no lower than zero. -/
def ceWindow (site : Nat) (s : State) : State :=
  let t := getF F.MGT_ERR_CE_CFG_THRESH 0 site s
  { s with levels := smap 0 (fun (k : Nat) (l : Nat) => if k / 2 ^ 22 = site then l - t else l) s.levels }

def execCeWindow (site : Fin 8) (s : State) : Host.Outcome State Fault Refusal := .next (ceWindow site.val s)

/-! ## Injection (R403) -/

/-- Whether a local address lies in stacked DRAM or in the scratchpad window. -/
def injectable (l : Nat) : Bool := decide (l < 1728 * 2 ^ 30) || (decide (l / 2 ^ 48 = 2) && (windowOf l).isSome)

/-- A write of MGT_ERR_INJ_CTL: ARM does not set for an address elsewhere. -/
def injectArm (v mask : BitVec 64) (s : State) : State :=
  let s1 := swWriteReg .MGT_ERR_INJ_CTL 0 0 v mask s
  let ok := injectable (getF F.MGT_ERR_INJ_ADDR_ADDR 0 0 s1 * 16) || bitF F.MGT_ERR_INJ_CTL_ARM 0 0 s
  let arm := bitF F.MGT_ERR_INJ_CTL_ARM 0 0 s1 && ok
  setF F.MGT_ERR_STATUS_INJ_ARMED 0 0 (b2n arm) (setF F.MGT_ERR_INJ_CTL_ARM 0 0 (b2n arm) s1)

def execErrInjectArm (v : BitVec 32) (s : State) : Host.Outcome State Fault Refusal :=
  .next (injectArm (v.setWidth 64) 0xFFFFFFFF s)

/-! ## Restart of the management controller (R400, R425, R426) -/

/-- Ten minutes in ticks. -/
def tenMinutes : Nat := 15000000000

/-- The third restart within ten minutes: reduced service, with its in-band interrupt. -/
def noteRestart (s : State) : State :=
  let l := (s.ownTick :: s.mgt.restarts).filter fun t => decide (s.ownTick < t + tenMinutes)
  let s1 := { s with mgt := { s.mgt with restarts := l, sound := false } }
  if decide (3 ≤ l.length) && !bitF F.MGT_HEALTH_REDUCED 0 0 s1 then raiseIbi 3 (setF F.MGT_HEALTH_REDUCED 0 0 1 s1) else s1

/-- The power loop counts its intervals in a row anew. -/
def noGood (s : State) : State := { s with power := { s.power with good := 0 } }

/-- A restart shown: in MGT_HEALTH, in the log, every die managing itself (R400). -/
def restartShown (check : Nat) (s : State) : State :=
  let s1 := setF F.MGT_HEALTH_ALIVE 0 0 0 (setF F.MGT_HEALTH_LAST_CHECK 0 0 check (incF F.MGT_HEALTH_RESTARTS 0 0 1
    (logEvent ⟨10, 0xFF, 12, 255, 0, 0, 0, 255, 255⟩ s)))
  setF F.MGT_ERR_STATUS_RESTARTING 0 0 1 (noGood (powerFlags (manageDies 1 (noteRestart s1))))

/-- A restart begins: every die manages itself, and a graft ends unconfirmed (R419). -/
def restartBegins (check : Nat) (s : State) : State :=
  if bitF F.MGT_ERR_STATUS_RESTARTING 0 0 s || inReset s || s.mgt.image.isNone then s
  else
    let s1 := restartShown check s
    match graftSlot s1 with
    | some i => endGraft true i s1
    | none => s1

/-- The fences that waited for the restart's end. -/
def heldFences (s : State) : State :=
  let s1 := s.mgt.fences.foldl (fun (z : State) (e : Nat × Nat × Bool) => fenceDie e.1 e.2.1 0 e.2.2 z)
    { s with mgt := { s.mgt with fences := [] } }
  returnEnds s1

/-- A restart ends: corrections held are reported, fences that waited complete. -/
def restartEnds (s : State) : State :=
  if !bitF F.MGT_ERR_STATUS_RESTARTING 0 0 s then s
  else
    let s1 := setF F.MGT_HEALTH_ALIVE 0 0 15 (setF F.MGT_ERR_STATUS_RESTARTING 0 0 0 { s with heldCe := [] })
    let ce (z : State) (e : Nat × Nat × Nat × Nat × Nat × Nat) : State :=
      ceNow ⟨e.1, e.2.1, e.2.2.1, e.2.2.2.1⟩ e.2.2.2.2.1 e.2.2.2.2.2 z
    heldFences (s.heldCe.foldl ce s1)

/-- MGT_RESTART. -/
def mgtRestart (r : RestartF) (s : State) : State :=
  match r with
  | .begins c => restartBegins (max 1 c.val) s
  | .ends => restartEnds s

def execMgtRestart (r : RestartF) (s : State) : Host.Outcome State Fault Refusal := .next (mgtRestart r s)

/-- MGT_CHECK: a check of R425 that fails restarts the controller. -/
def mgtCheck (check : Nat) (ok : Bool) (s : State) : State := if ok then s else restartBegins (check + 1) s

def execMgtCheck (check : Fin 6) (ok : Bool) (s : State) : Host.Outcome State Fault Refusal := .next (mgtCheck check.val ok s)

/-! ## Uncorrectable errors (R138, R390, R395 to R397) -/

/-- The launch of a core's partition meets DATA_LOST. -/
def coreLost (c : Nat) (s : State) : State := failLaunchAt (bedOf c) (s.core c).part .dataLost s

/-- A merging-buffer entry lost: it is not written, and its writer's launch meets DATA_LOST. -/
def mergeLost (b id : Nat) (s : State) : State :=
  let k := s.bed b
  match k.merge.find? fun e => decide (e.id = id) && !e.sent with
  | none => s
  | some e =>
    let s1 := ueConsume ⟨1, plotOf b, b % 400, e.line * 128⟩ 0 e.part.val .dataLost s
    let s2 := (flagF F.BEDC_STATUS_UE b 0 s1).putBed b { s1.bed b with merge := (s1.bed b).merge.filter fun x => decide (x.id ≠ id) }
    mergeNext b (e.owners.foldl (ackOwner b e.part.val .dataLost) (failLaunchAt b e.part.val .dataLost s2))

/-- UE_CONSUMED. -/
def ueEvent (f : UeF) (s : State) : State :=
  match f with
  | .dram pa w =>
    (match homeOf pa.toNat s with
      | some h => if memBad h.stack h.addr s then memConsume h.stack h.addr pa.toNat w s else s
      | none => s)
  | .spad c g =>
    if spadBad c.val g.toNat s then coreLost c.val (spadConsume c.val g.toNat (s.core c.val).part s) else s
  | .parity c =>
    if (s.core c.val).active then
      coreLost c.val (logEvent ⟨5, 8, c.val / 25600, (s.core c.val).part, c.val % 25600, 0, 0, Status.dataLost.code, 255⟩
        (incF F.MGT_ERR_UE_TOTAL_COUNT 0 8 1 s))
    else s
  | .merge b id => mergeLost b.val id s
  | .line b pa =>
    let l := pa.toNat / 128
    if (s.bed b.val).holds l then
      ueFound ⟨1, plotOf b.val, b.val % 400, l * 128⟩ 0 (flagF F.BEDC_STATUS_UE b.val 0 (invLine b.val l s))
    else s
  | .hostRead id pa => respond id .dataLost 0 (ueConsume ⟨6, 14, 0, pa.toNat / 16 * 16⟩ 0 255 .dataLost s)
  | .hostEvict pa =>
    eventIrq (logEvent ⟨8, 6, 14, 255, 0, 0, pa.toNat / 16 * 16, 255, 255⟩ (incF F.MGT_ERR_UE_TOTAL_COUNT 0 6 1 s))
  | .mgt ci =>
    restartBegins 5 (logEvent ⟨3, 7, 12, 255, ci.val, 0, 0, 255, 255⟩ (incF F.MGT_ERR_UE_TOTAL_COUNT 0 7 1 s))

def execUeConsumed (f : UeF) (s : State) : Host.Outcome State Fault Refusal := .next (ueEvent f s)

/-! ## Loss of the processor die (R399, R438, R439) -/

/-- The loss reported: HOST_LOST, the log, an in-band interrupt and a datagram with the log entry. -/
def reportLoss (s : State) : State :=
  let s1 := raiseIbi 1 (logEvent ⟨9, 0xFF, 14, 255, 0, 0, 0, 255, 255⟩ (flagF F.MGT_ERR_STATUS_HOST_LOST 0 0 s))
  { s1 with mgt := { s1.mgt with lossSeen := true, mail := s1.mgt.mail ++ s1.log.take 1 } }

/-- HOST_LOSS: a fenced processor die is reported once; with RESET the package then stops its launches and resets, again until the
reset is made. -/
def hostLoss (s : State) : State :=
  if dieState 14 s ≠ 1 then s
  else if s.mgt.lossSeen then tryReset s
  else
    let s1 := reportLoss s
    if bitF F.MGT_ERR_CTRL_HOST_LOSS 0 0 s1 then tryReset (orderReset 3 7 s1) else s1

def execHostLoss (s : State) : Host.Outcome State Fault Refusal := .next (hostLoss s)

end Sys2Proof.Machine
end

