-- ==== Sys2Proof/Machine/Tap.lean ====
section
/-!
DEFINITION. Test access (R446 to R451): dies in test, the chain and its stand-ins, and the instructions. What a scan shifts out is the
response of the command; the boundary register's layout is not stated, and its cells are held as one value (log entry 38).
-/

namespace Sys2Proof.Machine

/-! ## Dies in test (R449) -/

/-- DIE_EN, the dies that are in test by command. -/
def dieEn (s : State) : Nat := getF F.TAP_CTRL_DIE_EN 0 0 s

/-- Whether a die is in test: by DIE_EN, or with every die while the package is held in reset. -/
def inTest (d : Nat) (s : State) : Bool := (dieEn s).testBit d || bitF F.TAP_STATUS_RESET_TEST 0 0 s

/-- Whether the supply of a die is on: I/O die A from the auxiliary input, the guest from its rail, the others from the converters, which
run from stage 7 on and while the package is held in reset with main power present. -/
def diePowered (d : Nat) (s : State) : Bool :=
  s.pins.aux && (decide (d = 12) ||
    (s.pins.vmain && !s.pins.tripHold && (s.pins.resetLow || decide (7 ≤ getF F.MGT_BOOT_STATUS_STAGE 0 0 s)) &&
      (decide (d ≠ 15) || s.guest.rail)))

/-- Whether a segment is to be a stand-in (R447). -/
def standsIn (d : Nat) (s : State) : Bool :=
  !diePowered d s || decide (dieState d s = 2) || decide (dieState d s = 3) || (decide (dieState d s = 1) && !(dieEn s).testBit d)

/-- Whether a segment is a stand-in now. -/
def isStandin (d : Nat) (s : State) : Bool := (getF F.TAP_STATUS_STANDIN 0 0 s).testBit d

/-- STANDIN_SWITCH: at a safe state of the TAP controllers the router switches every segment that is to change, and dies whose test ended
with the package's reset leave it (R450). -/
def standinSwitch (s : State) : State :=
  let s1 := setF F.TAP_STATUS_STANDIN 0 0 (bitsOf ((List.range 16).map fun d => standsIn d s)) s
  if s1.tap.leaving then setF F.TAP_STATUS_RESET_TEST 0 0 0 { s1 with tap := { s1.tap with leaving := false } } else s1

def execStandinSwitch (s : State) : Host.Outcome State Fault Refusal := .next (standinSwitch s)

/-- A die enters test: fenced in order with cause 0, self-managed. -/
def enterDie (d : Nat) (s : State) : State :=
  let s1 := setF F.MGT_DIE_INFO_SELF_MANAGED d 0 1 (fenceDie d 0 0 true s)
  powerFlags (if d < 12 then setF F.TAP_PLOT_STATUS_IN_TEST d 0 1 s1 else s1)

/-- A die leaves test: its TAP in Test-Logic-Reset, then it returns. -/
def leaveDie (d : Nat) (s : State) : State :=
  let s1 := { s with tap := { s.tap with ir := ldel s.tap.ir d } }
  let s2 := if d < 12 then setF F.TAP_PLOT_STATUS_STACK_PORTS d 0 0 (setF F.TAP_PLOT_STATUS_IN_TEST d 0 0 s1) else s1
  returnDie d s2

/-- Whether a die still waits to be fenced for its test (R400). -/
def tapBusy (s : State) : Bool := s.mgt.fences.any fun e => (dieEn s).testBit e.1

/-- A write of DIE_EN (R449, R451): bits 12 to 14 are ignored; each bit that changes takes its die into test or out of it. -/
def dieEnWrite (v : Nat) (s : State) : State :=
  if tapBusy s then s
  else
    let old := dieEn s
    let new := v &&& 0x8FFF
    let s1 := setF F.TAP_CTRL_DIE_EN 0 0 new s
    (List.range 16).foldl (fun z d =>
      if new.testBit d && !old.testBit d then enterDie d z else if old.testBit d && !new.testBit d then leaveDie d z else z) s1

/-- TAP_DIE_ENTER. -/
def execTapDieEnter (d : SlotId) (s : State) : Host.Outcome State Fault Refusal := .next (dieEnWrite (dieEn s ||| 2 ^ d.val) s)

/-- TAP_DIE_LEAVE. -/
def execTapDieLeave (d : SlotId) (s : State) : Host.Outcome State Fault Refusal :=
  .next (dieEnWrite (dieEn s &&& (0xFFFF ^^^ 2 ^ d.val)) s)

/-- TAP_RESET: TRST_N low, or five TCK cycles with TMS high; dies stay in test. -/
def tapResetAll (s : State) : State :=
  (List.range 12).foldl (fun z p => setF F.TAP_PLOT_STATUS_STACK_PORTS p 0 0 z) (tapReset s)

def execTapReset (s : State) : Host.Outcome State Fault Refusal := .next (tapResetAll s)

/-! ## Instructions (R448) -/

/-- The instruction register of a die: IDCODE at Test-Logic-Reset. -/
def tapIr (d : Nat) (s : State) : Nat := ((look s.tap.ir d).getD 0x02).toNat

/-- Whether an instruction is available in a die. -/
def tapOffers (d code : Nat) (s : State) : Bool :=
  match code with
  | 0x01 => true
  | 0x02 => true
  | 0x00 => inTest d s
  | 0x03 => inTest d s
  | 0x04 => inTest d s
  | 0x10 => inTest d s
  | 0x11 => inTest d s && decide (d < 12)
  | 0x12 => inTest d s
  | _ => false

/-- The instruction as it acts: one that is not available acts as BYPASS. -/
def tapActs (d : Nat) (s : State) : Nat := if tapOffers d (tapIr d s) s then tapIr d s else 0xFF

/-- Whether a scan reaches a Torvya die's own TAP. The guest's TAP is its vendor's (R446). -/
def tapReaches (d : Nat) (s : State) : Bool := s.pins.aux && decide (d ≠ 15) && !isStandin d s

/-- The bits that a scan shifts out. -/
def shiftOut (v : Nat) (s : State) : State := respond 0 .ok (BitVec.ofNat 1024 v) s

/-- IDCODE of a die (R446). -/
def idcodeOf (d : Nat) (s : State) : Nat :=
  let part := if d < 12 then 0xD101 else if d = 14 then 0xD103 else 0xD102
  0x6BB + part * 2 ^ 12 + getF F.MGT_DIE_INFO_REVISION d 0 s % 16 * 2 ^ 28

/-- The boundary cells of a die. -/
def tapCells (d : Nat) (s : State) : BitVec 64 := sget 0 s.tap.cells d

/-- The cells of a die's boundary register set. -/
def putCells (d : Nat) (v : BitVec 64) (s : State) : State := { s with tap := { s.tap with cells := sput 0 s.tap.cells d v } }

/-- An instruction shifted into a die: it leaves the ports to the stacks unless it is STACK. -/
def tapLoad (d code : Nat) (s : State) : State :=
  let s1 := { s with tap := { s.tap with ir := lput s.tap.ir d (BitVec.ofNat 8 code) } }
  if d < 12 ∧ code ≠ 0x11 then setF F.TAP_PLOT_STATUS_STACK_PORTS d 0 0 s1 else s1

/-- An instruction loaded into a die and its register scanned by `f`; where it is not available the bypass bit is scanned, as in a
stand-in, which loads nothing. -/
def tapDo (d code : Nat) (f : State → State) (s : State) : State :=
  if tapReaches d s then
    let s1 := tapLoad d code s
    if tapActs d s1 = code then f s1 else shiftOut 0 s1
  else if decide (d = 15) && !isStandin d s then s
  else if s.pins.aux then shiftOut 0 s else s

/-- EXTEST: the boundary register drives the lands and captures what stands on them. -/
def execExtest (d : SlotId) (drive pads : BitVec 64) (s : State) : Host.Outcome State Fault Refusal :=
  .next (tapDo d.val 0x00 (fun z => shiftOut pads.toNat (putCells d.val drive z)) s)

/-- SAMPLE/PRELOAD: the lands are sampled, and the cells preloaded. -/
def execSamplePreload (d : SlotId) (load pads : BitVec 64) (s : State) : Host.Outcome State Fault Refusal :=
  .next (tapDo d.val 0x01 (fun z => shiftOut pads.toNat (putCells d.val load z)) s)

/-- IDCODE. -/
def execIdcode (d : SlotId) (s : State) : Host.Outcome State Fault Refusal :=
  .next (tapDo d.val 0x02 (fun z => shiftOut (idcodeOf d.val z) z) s)

/-- CLAMP: the cells hold the outputs; the bypass register is selected. -/
def execClamp (d : SlotId) (s : State) : Host.Outcome State Fault Refusal := .next (tapDo d.val 0x03 (shiftOut 0) s)

/-- HIGHZ: the outputs float; the bypass register is selected. -/
def execHighz (d : SlotId) (s : State) : Host.Outcome State Fault Refusal := .next (tapDo d.val 0x04 (shiftOut 0) s)

/-- IJTAG: the instrument network is selected; what its instruments shift out is not stated (log entry 39). -/
def execIjtag (d : SlotId) (s : State) : Host.Outcome State Fault Refusal :=
  .next (tapDo d.val 0x10 (fun z => let r := z.takeFree; shiftOut r.1.toNat r.2) s)

/-- STACK: the secondary ports of the stacks that `ports` names are selected. -/
def execStack (d : SlotId) (ports : BitVec 2) (s : State) : Host.Outcome State Fault Refusal :=
  .next (tapDo d.val 0x11 (setF F.TAP_PLOT_STATUS_STACK_PORTS d.val 0 ports.toNat) s)

/-- LANE_LOOP: every UCIe lane of the die loops back at its own bumps; nothing reaches a neighbour, from which the die is fenced. -/
def execLaneLoop (d : SlotId) (s : State) : Host.Outcome State Fault Refusal := .next (tapDo d.val 0x12 id s)

/-- BYPASS. -/
def execBypass (d : SlotId) (s : State) : Host.Outcome State Fault Refusal := .next (tapDo d.val 0xFF (shiftOut 0) s)

/-! ## Registers (R451) -/

/-- TAP_CTRL. -/
def viewTapCtrl (s : State) : BitVec 64 := F.TAP_CTRL_BUSY.put (readReg .TAP_CTRL 0 0 s) (b2n (tapBusy s))

/-- TAP_PLOT_STATUS: in test with every die under reset too. -/
def viewTapPlot (p : Nat) (s : State) : BitVec 64 :=
  F.TAP_PLOT_STATUS_INSTR.put (F.TAP_PLOT_STATUS_IN_TEST.put (readReg .TAP_PLOT_STATUS p 0 s) (b2n (inTest p s))) (tapIr p s)

end Sys2Proof.Machine
end

