-- ==== Sys2Proof/Machine/RegView.lean ====
section
/-!
DEFINITION. What a read of a register of the CSR window returns (R7, R24): the stored fields, with those that report the state of a
unit put in, the RC fields cleared by the read.
-/

namespace Sys2Proof.Machine

/-- CORE_BSQ_PHASE (R98). -/
def viewBsqPhase (b : Nat) (s : State) : BitVec 64 := F.CORE_BSQ_PHASE_PHASE.put 0 (s.bed b).phase.toNat

/-- CORE_BSQ_STEP: the step of the bed's launch. -/
def viewBsqStep (b : Nat) (s : State) : BitVec 64 :=
  let k := s.bed b
  F.CORE_BSQ_STEP_STEP.put 0 (match (s.part k.part).launch with
    | some l => if k.running then l.step else 0
    | none => 0)

/-- MGT_BG_OWNER[G] (R30). -/
def viewBgOwner (g : Nat) (s : State) : BitVec 64 := F.MGT_BG_OWNER_BUSY.put (readReg .MGT_BG_OWNER 0 g s) (b2n (bgBusy g s))

/-- MGT_QSTATUS[k].STATE (R382). -/
def partState (p : Nat) (s : State) : Nat :=
  let k := s.part p
  let waking := (List.range 192).any fun g => decide (bgOwner g s = some p) && decide (s.bgPower g = 4)
  if k.imaging.isSome then 7
  else match k.hold with
    | .rolling => 6
    | .retained => if waking then 5 else 4
    | .quiesce => 3
    | .rolledBack => 3
    | .none => if k.saving.isSome then 2 else if k.launch.isSome then 1 else 0

/-- MGT_QSTATUS[k]. -/
def viewQStatus (p : Nat) (s : State) : BitVec 64 := F.MGT_QSTATUS_STATE.put (readReg .MGT_QSTATUS 0 p s) (partState p s)

/-- An entry of the error log as its 32 bytes (R401). -/
def LogEntry.bytes (e : LogEntry) : Nat :=
  e.seq % 2 ^ 32 + at0 4 (e.tick % 2 ^ 32) + at0 8 (e.kind % 256) + at0 9 (e.site % 256) + at0 10 (e.slot % 256) +
  at0 11 (e.part % 256) + at0 12 (e.unit % 65536) + at0 14 (e.syndrome % 65536) + at0 16 (e.addr % 2 ^ 64) +
  at0 24 (e.status % 256) + at0 25 (e.nibble % 256) + at0 26 (e.count % 65536)

/-- MGT_ERR_LOG: word `i` % 4 of entry `i` / 4, zero where it was never written (R404). -/
def viewErrLog (i : Nat) (s : State) : BitVec 64 :=
  match s.log.find? fun e => decide (e.seq % 256 = i / 4) with
  | some e => BitVec.ofNat 64 (cut e.bytes (8 * (i % 4)) 8)
  | none => 0

/-- What a register shows, before a read clears anything. -/
def viewReg (a : CsrAt) (s : State) : BitVec 64 :=
  match a.reg with
  | .MGT_DIE_FEATURES => if slotPresent a.unit s then readReg .MGT_DIE_FEATURES a.unit 0 s else 0
  | .CORE_ID => viewCoreId a.unit s
  | .CORE_STATUS => viewCoreStatus a.unit s
  | .CORE_FLAGS => viewCoreFlags a.unit a.idx s
  | .CORE_PC => viewCorePc a.unit s
  | .CORE_STEP => viewCoreStep a.unit s
  | .GRID_MODE => viewGridMode a.unit s
  | .GRID_STATUS => viewGridStatus a.unit s
  | .SPAD_STATUS => viewSpadStatus a.unit s
  | .CORE_BSQ_STATUS => viewBsqStatus a.unit s
  | .CORE_BSQ_PHASE => viewBsqPhase a.unit s
  | .CORE_BSQ_CTRL => viewBsqCtrl a.unit s
  | .CORE_BSQ_STEP => viewBsqStep a.unit s
  | .BEDC_STATUS => viewBedcStatus a.unit s
  | .BEDC_PROBE_DATA => viewBedcProbe a.unit s
  | .BRW_STATUS => viewBrwStatus a.unit s
  | .BRW_OUT => viewBrwOut a.unit s
  | .STK_OADD => viewOadd a.unit s
  | .STK_REGION_CTL => viewRegionCtl s
  | .XLT_STATUS => viewXltStatus s
  | .XLT_CTX_EPOCH => viewCtxEpoch a.idx s
  | .XLT_PTC_STATUS => viewPtcStatus a.unit s
  | .XLT_UTLB_STATUS => viewUtlbStatus a.unit s
  | .CMD_RING_CFG => viewRingCfg a.idx s
  | .CMD_RING_STAT => viewRingStat a.idx s
  | .HAL_TIME => BitVec.ofNat 64 s.tick
  | .D2D_GUEST_DESC => viewGuestDesc a.idx s
  | .PWR_LEARN_DATA => viewLearn s
  | .MGT_BG_OWNER => viewBgOwner a.idx s
  | .MGT_QSTATUS => viewQStatus a.idx s
  | .MGT_ERR_LOG => viewErrLog a.idx s
  | .SEC_SLOT => viewSecSlot a.idx s
  | .SEC_GRAFT => viewSecGraft s
  | .SEC_ATTEST_INDEX => viewAttestIndex s
  | .SEC_ATTEST_LIMIT => viewAttestLimit s
  | .TAP_CTRL => viewTapCtrl s
  | .TAP_PLOT_STATUS => viewTapPlot a.unit s
  | r => readReg r a.unit a.idx s

/-- A read of a register (R7): WO fields read 0, and RC fields are cleared after it. -/
def readAt (a : CsrAt) (s : State) : BitVec 64 × State :=
  (maskWo a.reg.flds (viewReg a s), readClearReg a.reg a.unit a.idx s)

end Sys2Proof.Machine
end

