-- ==== Sys2Proof/Machine/RegWrite.lean ====
section
/-!
DEFINITION. What a software write to a register of the CSR window does (R7 to R11): the standing that a block asks of its writer, the
registers whose write acts or is guarded by a rule of its own, and the plain write of every other.
-/

namespace Sys2Proof.Machine

/-- Who writes a register: a requester through the CSR window, or a core in its own page (R92, R116). -/
inductive Writer where
  | window (w : Who)
  | core
  deriving DecidableEq, Repr

/-- Whether host standing stands behind a write. -/
def Writer.host (w : Writer) : Bool :=
  match w with
  | .window w => w.host
  | .core => false

/-- Whether a register takes writes from host standing alone (R116, R253, R283, R403, R427, R451); a core writes the regions of masters
0 to 2 in its own page. -/
def CsrAt.mayWrite (a : CsrAt) (w : Writer) : Bool :=
  let needs : Bool := match a.reg with
    | .SPAD_REGION => !(decide (w = .core) && decide (a.idx < 24))
    | .MGT_ERR_INJ_ADDR => true
    | .MGT_ERR_INJ_CTL => true
    | r => match r.block with
      | .sec => true
      | .tap => true
      | .tapPlot => true
      | .cmd => true
      | .db => true
      | _ => false
  !needs || w.host

/-- A field of a write: its bits among those written. -/
def Fld.written (f : Fld) (v mask : BitVec 64) : Nat := f.of (v &&& mask)

/-- Whether a write reaches a field. -/
def Fld.touched (f : Fld) (mask : BitVec 64) : Bool := decide (mask &&& f.bits ≠ 0)

/-- An action that a one-bit field asks for. -/
def actIf (f : Fld) (v mask : BitVec 64) (g : State → State) (s : State) : State := if f.written v mask = 1 then g s else s

/-- BEDC_CMD (R140). -/
def bedcCmd (b : Nat) (v mask : BitVec 64) (s : State) : State :=
  actIf F.BEDC_CMD_DRAIN v mask (drainAll b) (actIf F.BEDC_CMD_INV_ALL v mask (invAll b)
    (actIf F.BEDC_CMD_INV_SHARED v mask (invShared b) s))

/-- XLT_CTX_ROOT[i] (R244, R251): ROOT is left while EN is 1, and clearing EN disables the context. -/
def ctxRoot (i : Nat) (v mask : BitVec 64) (s : State) : State :=
  if bitF F.XLT_CTX_ROOT_EN 0 i s then
    (if F.XLT_CTX_ROOT_EN.touched mask && decide (F.XLT_CTX_ROOT_EN.written v mask = 0) then ctxDisable i s else s)
  else swWriteReg .XLT_CTX_ROOT 0 i v mask s

/-- XLT_FQ_HEAD (R248). -/
def fqHeadWrite (v mask : BitVec 64) (s : State) : State :=
  fqHead (F.XLT_FQ_HEAD_INDEX.of (swWriteAll Reg.XLT_FQ_HEAD.flds v mask (readReg .XLT_FQ_HEAD 0 0 s))) s

/-- CMD_RING_BASE and CMD_RING_CQ: left while the ring is enabled (R282). -/
def ringBaseWrite (r : Reg) (n : Nat) (v mask : BitVec 64) (s : State) : State :=
  if bitF F.CMD_RING_CFG_EN 0 n s then s else swWriteReg r 0 n v mask s

/-- A doorbell register (R283): the index that the write leaves, given to its rule. -/
def doorbellWrite (a : CsrAt) (w : Who) (v mask : BitVec 64) (f : Nat → Nat → State → State) (s : State) : State :=
  let old := readReg a.reg 0 a.idx s
  doorbell a.idx w (f a.idx (((v &&& mask) ||| (old &&& ~~~mask)).toNat % 2 ^ 32)) s

/-- HAL_PORT_CFG[n] (R292, R293, R319). -/
def portCfg (n : Nat) (v mask : BitVec 64) (s : State) : State :=
  let was := bitF F.HAL_PORT_CFG_EN n 0 s
  let s1 := swWriteReg .HAL_PORT_CFG n 0 v mask s
  let s2 := if bitF F.HAL_PORT_CFG_EN n 0 s1 = was then s1 else portEnabled n s1
  actIf F.HAL_PORT_CFG_CLEAR_RETIRED v mask (clearRetired n) (actIf F.HAL_PORT_CFG_RETRAIN v mask (portRetrain n) s2)

/-- HAL_BYPASS of I/O die `d` (R288): pairs to close, then pairs to open. -/
def bypassWrite (d : Nat) (v mask : BitVec 64) (s : State) : State :=
  let close := F.HAL_BYPASS_CLOSE.written v mask
  let op := F.HAL_BYPASS_OPEN.written v mask
  (List.range 4).foldl (fun z j =>
    let z1 := if close.testBit j then bypassSwitch (4 * d + j) true z else z
    if op.testBit j then bypassOpen (4 * d + j) z1 else z1) s

/-- HAL_GROVE_CMD (R319). -/
def groveCmd (v mask : BitVec 64) (s : State) : State :=
  actIf F.HAL_GROVE_CMD_ADOPT v mask adoptEpoch (actIf F.HAL_GROVE_CMD_UNLOCK v mask (unlockAsk .ask)
    (actIf F.HAL_GROVE_CMD_LOCK v mask (lock .ask) (actIf F.HAL_GROVE_CMD_LEAVE v mask leave
      (actIf F.HAL_GROVE_CMD_JOIN v mask joinGrove s))))

/-- D2D_FENCE_CMD (R340, R342, R343): only slots 0 to 11 and 15 act. -/
def fenceCmd (v mask : BitVec 64) (s : State) : State :=
  let d := F.D2D_FENCE_CMD_SLOT.written v mask
  if d < 12 ∨ d = 15 then
    actIf F.D2D_FENCE_CMD_RETURN v mask (fenceReturn d) (actIf F.D2D_FENCE_CMD_FENCE v mask (dieFence d .command) s)
  else s

/-- TAP_CTRL (R449). -/
def tapCtrl (v mask : BitVec 64) (s : State) : State :=
  let old := readReg .TAP_CTRL 0 0 s
  dieEnWrite (F.TAP_CTRL_DIE_EN.of ((v &&& mask) ||| (old &&& ~~~mask))) s

/-- D2D_GUEST_CFG (R338): the grant of a present guest follows it. -/
def guestCfg (v mask : BitVec 64) (s : State) : State :=
  let s1 := swWriteReg .D2D_GUEST_CFG 0 0 v mask s
  if slotPresent 15 s1 then guestGrant s1 else s1

/-- The requester of a write. -/
def Writer.who (w : Writer) : Who :=
  match w with
  | .window w => w
  | .core => ⟨0, false, false⟩

/-- A write to a register that its writer may write. -/
def writeAct (a : CsrAt) (w : Writer) (v mask : BitVec 64) (s : State) : State :=
  match a.reg with
  | .CMD_RING_CFG => ringCfg a.idx v mask s
  | .CMD_RING_BASE => ringBaseWrite .CMD_RING_BASE a.idx v mask s
  | .CMD_RING_CQ => ringBaseWrite .CMD_RING_CQ a.idx v mask s
  | .CMD_DB_TAIL => doorbellWrite a w.who v mask dbTail s
  | .CMD_DB_CQ_HEAD => doorbellWrite a w.who v mask dbCqHead s
  | .CMD_DB_HEAD => doorbellWrite a w.who v mask dbHead s
  | .STK_REGION_CMD => actIf F.STK_REGION_CMD_CLEAR_FAULT v mask (clearFault (F.STK_REGION_CMD_INDEX.written v mask)) s
  | .BEDC_CMD => bedcCmd a.unit v mask s
  | .BRW_T4_DONE =>
    if F.BRW_T4_DONE_TAG.touched mask then
      t4Done a.unit (F.BRW_T4_DONE_TAG.written v mask) (decide (F.BRW_T4_DONE_ERROR.written v mask = 1)) s
    else s
  | .XLT_CTX_ROOT => ctxRoot a.idx v mask s
  | .XLT_FQ_HEAD => fqHeadWrite v mask s
  | .HAL_PORT_CFG => portCfg a.unit v mask s
  | .HAL_BYPASS => bypassWrite a.unit v mask s
  | .HAL_LASER => laserSettle (2 * a.unit + a.idx) (swWriteReg .HAL_LASER a.unit a.idx v mask s)
  | .HAL_GROVE_CMD => groveCmd v mask s
  | .HAL_LOCK_CFG => if bitF F.HAL_GROVE_STATUS_LOCKED 0 0 s then s else swWriteReg .HAL_LOCK_CFG 0 0 v mask s
  | .D2D_LINK_CFG =>
    actIf F.D2D_LINK_CFG_RETRAIN v mask (linkRetrain (a.unit / 4) (a.unit % 4)) (swWriteReg .D2D_LINK_CFG a.unit 0 v mask s)
  | .D2D_FENCE_CMD => fenceCmd v mask s
  | .D2D_APERTURE => if a.idx = 0 then s else swWriteReg .D2D_APERTURE 0 a.idx v mask s
  | .D2D_IRQ_MAP => irqMapWrite a.idx v mask s
  | .D2D_GUEST_CFG => guestCfg v mask s
  | .PWR_CAP => capWrite v mask s
  | .PWR_LEARN_SEL => actIf F.PWR_LEARN_SEL_CLEAR v mask learnClear (swWriteReg .PWR_LEARN_SEL 0 0 v mask s)
  | .MGT_ERR_INJ_CTL => injectArm v mask s
  | .SEC_CMD => if F.SEC_CMD_OP.touched mask then secCmd (F.SEC_CMD_OP.written v mask) s else s
  | .TAP_CTRL => tapCtrl v mask s
  | r => if r.shelvable then directWrite a v mask s else swWriteReg r a.unit a.idx v mask s

/-- A write to a register: one that its writer may not make is ignored. -/
def writeAt (a : CsrAt) (w : Writer) (v mask : BitVec 64) (s : State) : State :=
  if a.mayWrite w then writeAct a w v mask s else s

end Sys2Proof.Machine
end

