-- ==== Sys2Proof/Machine/Window.lean ====
section
/-!
DEFINITION. Accesses to the CSR window (R33 to R35, R161): which address answers, the registers that an access of 1 to 128 bytes
overlaps, and the rows REGISTER_WRITE and REGISTER_READ_CLEAR. A register takes the bytes of a write that cover it, and a read clears
every RC register it touches (DESIGN CHOICE, log entry 42).
-/

namespace Sys2Proof.Machine

/-- Bytes of the guest's register window (R337, R338). -/
def guestRegBytes (s : State) : Nat := min 0xFF000000 ((s.guestField 0x18 4 + 65535) / 65536 * 65536)

/-- DIE_ABSENT for a block of a die that is not PRESENT (R35). -/
def absentAt (slot : Nat) (s : State) : Option Status := if slotPresent slot s then none else some .dieAbsent

/-- The status that stops an access to offset `o` of a die slot, if any: the slot header is always served, and the SEC_ and MGT_ blocks of
slot 12 are served before it has trained (R33, R35, R338, R406). -/
def csrBad (slot o : Nat) (s : State) : Option Status :=
  match csrPlace slot o with
  | .none => some .dieAbsent
  | .guest x => if slotPresent 15 s && decide (x < guestRegBytes s) then none else some .dieAbsent
  | .blank => absentAt slot s
  | .iommuStd _ => absentAt slot s
  | .block b _ _ => match b with
    | .hdr => none
    | .mgt => if dieState 12 s = 4 then none else absentAt slot s
    | .sec => if dieState 12 s = 4 then none else absentAt slot s
    | _ => absentAt slot s

/-- The registers that `n` bytes of a block from byte `x` overlap, in order. -/
def regsAt (b : Block) (unit x n : Nat) : List CsrAt := ((List.range n).filterMap fun i => regAt b unit (x + i)).eraseDups

/-- The bits and their mask that `n` bytes `v` at byte `x` of a block, those of `mask`, bring to a register. -/
def csrBits (a : CsrAt) (x n mask v : Nat) : BitVec 64 × BitVec 64 :=
  (List.range a.reg.width).foldl (fun z j =>
    let i := a.off + j - x
    if x ≤ a.off + j ∧ i < n ∧ mask.testBit i then
      (z.1 ||| BitVec.ofNat 64 (v / 256 ^ i % 256 * 256 ^ j), z.2 ||| BitVec.ofNat 64 (255 * 256 ^ j))
    else z) (0, 0)

/-- A write of `n` bytes at offset `o` of a die slot. -/
def csrWrite (slot o n mask v : Nat) (w : Who) (s : State) : State :=
  match csrPlace slot o with
  | .block b u x => (regsAt b u x n).foldl (fun z a =>
      let y := csrBits a x n mask v
      if y.2 = 0 then z else writeAt a (.window w) y.1 y.2 z) s
  | _ => s

/-- A read of `n` bytes: the registers' bytes in their places, 0 between them. The standard registers of the IOMMU and those of a guest
die are not given here: free values (log entry 43). -/
def csrRead (slot o n : Nat) (s : State) : Nat × State :=
  match csrPlace slot o with
  | .block b u x => (regsAt b u x n).foldl (fun z a =>
      let r := readAt a z.2
      let v := if x ≤ a.off then r.1.toNat * 256 ^ (a.off - x) else r.1.toNat / 256 ^ (x - a.off)
      (z.1 + v % 256 ^ n, r.2)) (0, s)
  | .iommuStd _ => let r := s.takeFree; (r.1.toNat % 256 ^ n, r.2)
  | .guest _ => let r := s.takeFree; (r.1.toNat % 256 ^ n, r.2)
  | _ => (0, s)

/-- Whether a local address lies in the CSR window. -/
def inCsr (l : Nat) : Bool := decide (l / 2 ^ 48 = 15) && decide (l % 2 ^ 48 < 2 ^ 36)

/-- A write at a local address: its status. -/
def windowWrite (l n mask v : Nat) (w : Who) (s : State) : Status × State :=
  let c := csrSlot l
  match if inCsr l then csrBad c.1 c.2 s else some .dieAbsent with
  | some st => (st, s)
  | none => (.ok, csrWrite c.1 c.2 n mask v w s)

/-- A read at a local address: its status and data. -/
def windowRead (l n : Nat) (s : State) : Status × Nat × State :=
  let c := csrSlot l
  match if inCsr l then csrBad c.1 c.2 s else some .dieAbsent with
  | some st => (st, 0, s)
  | none => let r := csrRead c.1 c.2 n s; (.ok, r.1, r.2)

/-- Whether a request under way waits at the CSR window. -/
def Req.atWindow (r : Req) (s : State) : Bool := isLocal r.pkg s && inCsr r.pa && decide (r.st = .sent)

/-- The status that stops a request under way at the window: nothing answers its address (R33); it comes from another package (R316), or is
an atomic (R161). -/
def underBad (r : Req) (s : State) : Option Status :=
  let c := csrSlot r.pa
  match if cutOff r.src r.pkg r.pa s then some .dieAbsent else csrBad c.1 c.2 s with
  | some st => some st
  | none => if r.who.remote || (r.atom.map fun a => !atomPlain a).getD false then some .pageFault else none

/-- A write or an atomic under way reaches its register. -/
def underWrite (r : Req) (s : State) : State :=
  if (r.atom.map fun a => !atomPlain a).getD r.write then
    match underBad r s with
    | some st => complete r st 0 s
    | none => let z := windowWrite r.pa r.len r.mask.toNat r.data.toNat r.who s; complete r z.1 0 z.2
  else s

/-- A read under way reaches its register. -/
def underRead (r : Req) (s : State) : State :=
  let n := match r.atom with
    | some a => a.bytes
    | none => r.len
  if (r.atom.map atomPlain).getD (!r.write) then
    match underBad r s with
    | some st => complete r st 0 s
    | none =>
    let z := windowRead r.pa n s
    complete r z.1 (BitVec.ofNat 1024 z.2.1) z.2.2
  else s

/-- REGISTER_WRITE. -/
def registerWrite (x : CsrIn) (s : State) : State :=
  match x with
  | .under id => match netGet id s with
    | some r => if r.atWindow s then underWrite r s else s
    | none => s
  | .direct id l n v w => let z := windowWrite l.toNat n (2 ^ n - 1) v.toNat w s; respond id z.1 0 z.2

/-- REGISTER_READ_CLEAR: a read of any register; those fields whose access is RC are cleared by it. -/
def registerRead (x : CsrIn) (s : State) : State :=
  match x with
  | .under id => match netGet id s with
    | some r => if r.atWindow s then underRead r s else s
    | none => s
  | .direct id l n _ _ => let z := windowRead l.toNat n s; respond id z.1 (BitVec.ofNat 1024 z.2.1) z.2.2

/-- Whether an access lies within one line (R118). -/
def lineOk (a n : Nat) : Bool := decide (1 ≤ n) && decide (a % 128 + n ≤ 128)

/-- Whether an access to the window is well formed. -/
def CsrInOk (x : CsrIn) : Bool :=
  match x with
  | .under _ => true
  | .direct _ l n _ _ => lineOk l.toNat n

/-- The stop of an access that no requester can make. -/
def badLine : Host.Outcome State Fault Refusal := .fault (.illFormed "an access lies within one 128-byte line (R118, R295)")

def execRegisterWrite (x : CsrIn) (s : State) : Host.Outcome State Fault Refusal :=
  if CsrInOk x then .next (registerWrite x s) else badLine

def execRegisterReadClear (x : CsrIn) (s : State) : Host.Outcome State Fault Refusal :=
  if CsrInOk x then .next (registerRead x s) else badLine

end Sys2Proof.Machine
end

