-- ==== Sys2Proof/Machine/HostSide.lean ====
section
/-!
DEFINITION. Requests that enter the package with host standing: those of the Opsan cores (R329 to R331), of PCIe endpoints (R334) and of
the guest die (R338). The first two come over the processor link, the third over the guest bridge, which translates it.
-/

namespace Sys2Proof.Machine

/-- Whether a source has a request under way by the number `id` that it knows it by; the same number again is the same request. -/
def extFlying (src : Src) (id : Nat) (s : State) : Bool := s.net.any fun r => decide (r.src = src) && decide (r.ext = some id)

/-- A request of a source with host standing enters the package: it leaves at once, or is held at its source (R155). -/
def hostIssue (src : Src) (id pa len : Nat) (write : Bool) (data : BitVec 1024) (atom : Option Atom) (key : Nat) (gate : Gate) (s : State) : State :=
  if extFlying src id s then s
  else
    let (n, s1) := s.takeId
    let r : Req := ⟨n, src, hostWho, pkgOf pa, localOf pa, len, write, data, BitVec.ofNat 128 (2 ^ len - 1), atom, BitVec.allOnes 32,
      BitVec.ofNat 16 key, .held, .ok, 0, s.tick, false, false, false, some id, false, 0, [], false, gate⟩
    releaseOne n { s1 with net := s1.net ++ [r] }

/-- Bytes of an access: those of its atomic, or its own. -/
def accessBytes (n : Nat) (a : Option Atom) : Nat :=
  match a with
  | some x => x.bytes
  | none => n

/-! ## Opsan cores -/

/-- Where PA[55:52] leads (R329): the physical address of the package, or none. -/
def aperture (pa : Nat) (s : State) : Option Nat :=
  let a := pa / 2 ^ 52 % 16
  if a = 0 then some (localOf pa)
  else if bitF F.D2D_APERTURE_EN 0 a s then some (getF F.D2D_APERTURE_PKG 0 a s * 2 ^ 52 + localOf pa)
  else none

/-- OPSAN_ACCESS: through a disabled aperture it takes an access fault, which the model answers as PAGE_FAULT (log entry 45). A load or AMO
that fails is answered with its status, which is its access fault; a store that fails is recorded in D2D_HOST_ERR when it completes. -/
def opsanAccess (o : OpsanF) (s : State) : State :=
  if dieState 14 s ≠ 0 then s
  else match aperture o.pa.toNat s with
    | none => respond o.id .pageFault 0 s
    | some pa => hostIssue (.opsan o.core) o.id pa (accessBytes o.len o.atom) o.write o.data o.atom (o.pa.toNat / 2 ^ 52 % 16)
        ⟨o.rel, o.acq, o.aq⟩ (releaseHeld s)

def execOpsanAccess (o : OpsanF) (s : State) : Host.Outcome State Fault Refusal :=
  if lineOk o.pa.toNat o.len then .next (opsanAccess o s) else badLine

/-! ## PCIe endpoints -/

/-- PCIE_DMA: confined by its device context alone (R334). -/
def pcieDma (d : DmaF) (s : State) : State :=
  if dieState 14 s ≠ 0 then s
  else match d.pa with
    | none => respond d.id .pageFault 0 s
    | some pa => hostIssue .pcie d.id pa.toNat d.len d.write d.data none 0 ⟨false, false, false⟩ s

/-- Whether a DMA access lies within one line. -/
def DmaOk (d : DmaF) : Bool :=
  match d.pa with
  | some pa => lineOk pa.toNat d.len
  | none => true

def execPcieDma (d : DmaF) (s : State) : Host.Outcome State Fault Refusal := if DmaOk d then .next (pcieDma d s) else badLine

/-! ## The guest die (R338) -/

/-- Whether an access lies in the guest's request range. -/
def inGuestRange (va n : Nat) (s : State) : Bool :=
  let base := s.guestField 0x20 8 / 65536 * 65536
  let size := (s.guestField 0x28 8 + 65535) / 65536 * 65536
  decide (base ≤ va) && decide (va + n ≤ base + size)

/-- Requests of the guest under way, those that wait for their translation among them. -/
def guestFlying (s : State) : Nat := (s.net.filter fun r => decide (r.src = .guest)).length

/-- The permissions that an access needs (R235): read, write and atomic. An atomic asks for read permission only where it returns a value,
and one that is a plain read for nothing more. -/
def needs (write : Bool) (atom : Option Atom) : Bool × Bool × Bool :=
  match atom with
  | some a => if atomPlain a then (true, false, false) else (a.returns, true, true)
  | none => (!write, write, false)

/-- A request of the guest as one that waits for its translation. -/
def guestWait (n : Nat) (g : GuestF) : XWait :=
  let p := needs g.write g.atom
  ⟨.guest, n, p.1, p.2.1, p.2.2, BitVec.allOnes 32, g.va.toNat, false, false⟩

/-- GUEST_REQUEST: checked against the range, within the credit of OUTSTANDING + 1, translated in context 32, and then on its way. -/
def guestRequest (g : GuestF) (s : State) : State :=
  let n := accessBytes g.len g.atom
  if dieState 15 s ≠ 0 || extFlying .guest g.id s || decide (s.guestField 0x1D 1 + 1 ≤ guestFlying s) then s
  else if !inGuestRange g.va.toNat n s then respond g.id .pageFault 0 s
  else
    let (id, s1) := s.takeId
    let r : Req := ⟨id, .guest, hostWho, 0, 0, n, g.write, g.data, BitVec.ofNat 128 (2 ^ n - 1), g.atom, BitVec.allOnes 32, 0, .walking, .ok, 0,
      s.tick, false, false, false, some g.id, false, 0, [], false, ⟨false, false, false⟩⟩
    askXlt 32 (guestWait id g) { s1 with net := s1.net ++ [r] }

def execGuestRequest (g : GuestF) (s : State) : Host.Outcome State Fault Refusal :=
  if lineOk g.va.toNat g.len then .next (guestRequest g s) else badLine

end Sys2Proof.Machine
end

