-- ==== Sys2Proof/Machine/Resume.lean ====
section
/-!
DEFINITION. Answers to fault records (R249, R250): XRESP and the timeout of a record. A requester that asks again finds its record gone, or
its failure; every other one is served here.
-/

namespace Sys2Proof.Machine

/-- A waiting requester walks again. -/
def retryWaiter (ctx : Nat) (s : State) (w : XWait) : State := if w.ext || decide (w.who = .guest) then askXlt ctx w s else s

/-- A waiting request completes with PAGE_FAULT. -/
def failWaiter (_ : Nat) (s : State) (w : XWait) : State := giveUp w .pageFault s

/-- The faults that wait for a record open theirs while one is free (R246). -/
def openWaiting (l : List FaultWait) (s : State) : State :=
  l.foldl (fun z f => openFault f.ctx f.w.va f.cause f.w z) { s with faultWait := [] }

/-- A record closes, each of its requesters answered; a fault that waited for one to close may follow. -/
def closeFault (f : FaultRec) (ans : Nat → State → XWait → State) (s : State) : State :=
  let s1 := f.waiters.foldl (ans f.ctx) { s with faults := s.faults.filter fun x => decide (x.slot ≠ f.slot) }
  openWaiting s1.faultWait s1

/-- XRESP with the ID of a record (R249): one that names no open record, or an older generation of its slot, is ignored. -/
def xresp (id : Nat) (ans : Nat → State → XWait → State) (s : State) : State :=
  match s.faults.find? fun f => decide (f.slot = id % 256) && decide (f.gen = id / 256) with
  | some f => closeFault f ans s
  | none => flagF F.XLT_STATUS_STALE_RESP 0 0 s

/-- XRESP RETRY. -/
def execXrespRetry (id : BitVec 16) (s : State) : Host.Outcome State Fault Refusal := .next (xresp id.toNat retryWaiter s)

/-- XRESP FAIL. -/
def execXrespFail (id : BitVec 16) (s : State) : Host.Outcome State Fault Refusal := .next (xresp id.toNat failWaiter s)

/-- FAULT_TIMEOUT: a record open for longer than TIMEOUT_MS closes as if answered with FAIL (R250); 0 means no timeout (R251). -/
def faultTimeout (slot : Nat) (s : State) : State :=
  match s.faults.find? fun f => decide (f.slot = slot) with
  | none => s
  | some f =>
    let ms := getF F.XLT_CTRL_TIMEOUT_MS 0 0 s
    if ms = 0 ∨ s.tick ≤ f.tick + 25000 * ms then s
    else closeFault f failWaiter (incF F.XLT_TIMEOUTS_COUNT 0 0 1 (flagF F.XLT_STATUS_TIMEOUT 0 0 s))

def execFaultTimeout (slot : Fin 256) (s : State) : Host.Outcome State Fault Refusal := .next (faultTimeout slot.val s)

end Sys2Proof.Machine
end

