-- ==== Sys2Proof/Machine/Scalar.lean ====
section
/-!
DEFINITION. The scalar slot (R91): 64-bit integer operations on x0 to x31.
-/

namespace Sys2Proof.Machine

/-- A register-form operation with latency `lat`: xd = xs1 op xs2. -/
def scalarR (c : Nat) (i : Instr) (r : ScR) (lat : Nat) (op : BitVec 64 → BitVec 64 → BitVec 64) : State → State :=
  issueSlot c .scalar i fun s =>
    deliver c lat 2 (.x r.xd (op ((s.core c).rx r.xs1) ((s.core c).rx r.xs2))) s

/-- An immediate-form operation: xd = xs1 op sign-extended IMM. -/
def scalarI (c : Nat) (i : Instr) (r : ScI) (op : BitVec 64 → BitVec 64 → BitVec 64) : State → State :=
  issueSlot c .scalar i fun s =>
    deliver c 1 2 (.x r.xd (op ((s.core c).rx r.xs1) (r.imm.signExtend 64))) s

/-- A shift amount: bits [5:0] of the operand. -/
def shamt (b : BitVec 64) : Nat := b.toNat % 64

def execAdd (c : CoreId) (r : ScR) (s : State) : Host.Outcome State Fault Refusal := .next (scalarR c (.add c r) r 1 (· + ·) s)
def execSub (c : CoreId) (r : ScR) (s : State) : Host.Outcome State Fault Refusal := .next (scalarR c (.sub c r) r 1 (· - ·) s)
def execAnd (c : CoreId) (r : ScR) (s : State) : Host.Outcome State Fault Refusal := .next (scalarR c (.and c r) r 1 (· &&& ·) s)
def execOr (c : CoreId) (r : ScR) (s : State) : Host.Outcome State Fault Refusal := .next (scalarR c (.or c r) r 1 (· ||| ·) s)
def execXor (c : CoreId) (r : ScR) (s : State) : Host.Outcome State Fault Refusal := .next (scalarR c (.xor c r) r 1 (· ^^^ ·) s)
def execSll (c : CoreId) (r : ScR) (s : State) : Host.Outcome State Fault Refusal :=
  .next (scalarR c (.sll c r) r 1 (fun a b => a <<< shamt b) s)
def execSrl (c : CoreId) (r : ScR) (s : State) : Host.Outcome State Fault Refusal :=
  .next (scalarR c (.srl c r) r 1 (fun a b => a >>> shamt b) s)
def execSra (c : CoreId) (r : ScR) (s : State) : Host.Outcome State Fault Refusal :=
  .next (scalarR c (.sra c r) r 1 (fun a b => a.sshiftRight (shamt b)) s)
def execMul (c : CoreId) (r : ScR) (s : State) : Host.Outcome State Fault Refusal := .next (scalarR c (.mul c r) r 3 (· * ·) s)
def execMulhu (c : CoreId) (r : ScR) (s : State) : Host.Outcome State Fault Refusal :=
  .next (scalarR c (.mulhu c r) r 3 (fun a b => BitVec.ofNat 64 (a.toNat * b.toNat / 2 ^ 64)) s)
def execMin (c : CoreId) (r : ScR) (s : State) : Host.Outcome State Fault Refusal :=
  .next (scalarR c (.min c r) r 1 (fun a b => if a.slt b then a else b) s)
def execMax (c : CoreId) (r : ScR) (s : State) : Host.Outcome State Fault Refusal :=
  .next (scalarR c (.max c r) r 1 (fun a b => if a.slt b then b else a) s)
def execMinu (c : CoreId) (r : ScR) (s : State) : Host.Outcome State Fault Refusal :=
  .next (scalarR c (.minu c r) r 1 (fun a b => if a.ult b then a else b) s)
def execMaxu (c : CoreId) (r : ScR) (s : State) : Host.Outcome State Fault Refusal :=
  .next (scalarR c (.maxu c r) r 1 (fun a b => if a.ult b then b else a) s)
def execSlt (c : CoreId) (r : ScR) (s : State) : Host.Outcome State Fault Refusal :=
  .next (scalarR c (.slt c r) r 1 (fun a b => if a.slt b then 1 else 0) s)
def execSltu (c : CoreId) (r : ScR) (s : State) : Host.Outcome State Fault Refusal :=
  .next (scalarR c (.sltu c r) r 1 (fun a b => if a.ult b then 1 else 0) s)

/-- SEL: xd = (x[XD] ≠ 0) ? xs1 : xs2. -/
def doSel (c : Nat) (i : Instr) (r : ScR) : State → State :=
  issueSlot c .scalar i fun s =>
    let k := s.core c
    deliver c 1 2 (.x r.xd (if k.rx r.xd ≠ 0 then k.rx r.xs1 else k.rx r.xs2)) s

def execSel (c : CoreId) (r : ScR) (s : State) : Host.Outcome State Fault Refusal := .next (doSel c (.sel c r) r s)

def execAddi (c : CoreId) (r : ScI) (s : State) : Host.Outcome State Fault Refusal := .next (scalarI c (.addi c r) r (· + ·) s)
def execAndi (c : CoreId) (r : ScI) (s : State) : Host.Outcome State Fault Refusal := .next (scalarI c (.andi c r) r (· &&& ·) s)
def execOri (c : CoreId) (r : ScI) (s : State) : Host.Outcome State Fault Refusal := .next (scalarI c (.ori c r) r (· ||| ·) s)
def execXori (c : CoreId) (r : ScI) (s : State) : Host.Outcome State Fault Refusal := .next (scalarI c (.xori c r) r (· ^^^ ·) s)
def execSlli (c : CoreId) (r : ScI) (s : State) : Host.Outcome State Fault Refusal :=
  .next (scalarI c (.slli c r) r (fun a b => a <<< shamt b) s)
def execSrli (c : CoreId) (r : ScI) (s : State) : Host.Outcome State Fault Refusal :=
  .next (scalarI c (.srli c r) r (fun a b => a >>> shamt b) s)
def execSrai (c : CoreId) (r : ScI) (s : State) : Host.Outcome State Fault Refusal :=
  .next (scalarI c (.srai c r) r (fun a b => a.sshiftRight (shamt b)) s)

/-- LUI: xd = sign-extended IMM shifted left by 24. -/
def execLui (c : CoreId) (r : ScI) (s : State) : Host.Outcome State Fault Refusal :=
  .next (scalarI c (.lui c r) r (fun _ b => b <<< 24) s)

/-- CSRR: the aligned word of the core's CORE_ block, latency 2. -/
def doCsrr (c : Nat) (i : Instr) (r : ScI) : State → State :=
  issueSlot c .scalar i fun s => deliver c 2 2 (.x r.xd (coreWord c (r.imm.toNat % 4096) s)) s

def execCsrr (c : CoreId) (r : ScI) (s : State) : Host.Outcome State Fault Refusal := .next (doCsrr c (.csrr c r) r s)

end Sys2Proof.Machine
end

