-- ==== Sys2Proof/Machine/Sideband.lean ====
section
/-!
DEFINITION. The I3C sideband (R437, R438) and the recovery service of the management Ethernet port (R439). A command's response stands in
`i3c.resp` for the private read that follows; with none pending that read returns one byte 0x00.
-/

namespace Sys2Proof.Machine

/-- A response of `n` bytes left for the private read that follows. -/
def i3cRespond (v n : Nat) (s : State) : State := { s with i3c := { s.i3c with resp := some (v, n) } }

/-- A private write served: only while the auxiliary input is present. -/
def i3cServe (f : State → State) (s : State) : State := if s.pins.aux then f s else s

/-- The low word of a register. -/
def lowWord (r : Reg) (s : State) : Nat := (readReg r 0 0 s).toNat % 2 ^ 32

/-- STATUS: four words, zero while the management controller is in reset. -/
def statusWords (s : State) : Nat :=
  if inReset s then 0
  else lowWord .MGT_BOOT_STATUS s + at0 4 (lowWord .PWR_STATUS s) + at0 8 (lowWord .MGT_HEALTH s) + at0 12 (lowWord .MGT_ERR_STATUS s)

def execStatus (s : State) : Host.Outcome State Fault Refusal := .next (i3cServe (fun z => i3cRespond (statusWords z) 16 z) s)

/-- RESET. -/
def execReset (s : State) : Host.Outcome State Fault Refusal := .next (i3cServe (fun z => i3cRespond 0 1 (i3cReset z)) s)

/-- READ: a register of the management controller block, all ones where it is in reset or the offset is not listed. -/
def i3cRead (off : Nat) (s : State) : State :=
  if inReset s || decide (0x100000 ≤ off) || (regAt .mgt 0 off).isNone then i3cRespond (2 ^ 64 - 1) 8 s
  else let r := csrRead 12 (0x100000 + off) 8 s; i3cRespond r.1 8 r.2

def execRead (off : BitVec 32) (s : State) : Host.Outcome State Fault Refusal := .next (i3cServe (i3cRead off.toNat) s)

/-! ## ROM recovery (R416) -/

/-- Whether the package is in ROM recovery. -/
def inRecovery (s : State) : Bool := bitF F.MGT_BOOT_STATUS_RECOVERY 0 0 s && !inReset s

/-- Bytes written to slot A, which is EMPTY meanwhile. -/
def recoveryPut (off n v : Nat) (s : State) : State := s.putSlot 0 { (s.slot 0).put off n v with st := 0, tries := 0 }

/-- RECOVERY_WRITE: 0 accepted, 1 not in ROM recovery, 2 beyond 240 MiB. -/
def recoveryWrite (off n v : Nat) (s : State) : State :=
  if !inRecovery s then i3cRespond 1 1 s
  else if slotBytes < off + n then i3cRespond 2 1 s
  else i3cRespond 0 1 (recoveryPut off n v s)

def execRecoveryWrite (off : BitVec 32) (n : Nat) (data : BitVec 1920) (s : State) : Host.Outcome State Fault Refusal :=
  if n ≤ 240 then .next (i3cServe (recoveryWrite off.toNat n data.toNat) s)
  else .fault (.illFormed "RECOVERY_WRITE carries up to 240 bytes (R437)")

/-- The first `len` bytes of a slot; the rest erased. -/
def FwSlot.first (f : FwSlot) (len : Nat) : FwSlot := { f with bytes := f.bytes.filter fun e => decide (e.1 < len) }

/-- The image of `len` bytes in slot A verified: it boots as a graft, or its slot is BAD (R415, R416). The result code, and the state. -/
def recover (len : Nat) (x : ImgIn) (s : State) : Nat × State :=
  let s1 := s.putSlot 0 ((s.slot 0).first len)
  let code := if x.flashOk then verifySlot 0 x s1 else 8
  if code = 0 then
    (0, toStage 3 (setF F.MGT_BOOT_STATUS_FAIL 0 0 0 (setF F.MGT_BOOT_STATUS_RECOVERY 0 0 0 (setSlot true 0 2 0 s1))))
  else (code, setSlot x.flashOk 0 5 0 s1)

/-- RECOVERY_DONE: what it answers outside ROM recovery is not stated (free value, log entry 44). -/
def recoveryDone (len : Nat) (x : ImgIn) (s : State) : State :=
  if inRecovery s then let r := recover len x s; i3cRespond r.1 1 r.2
  else let r := s.takeFree; i3cRespond (r.1.toNat % 256) 1 r.2

def execRecoveryDone (len : BitVec 64) (x : ImgIn) (s : State) : Host.Outcome State Fault Refusal :=
  .next (i3cServe (recoveryDone len.toNat x) s)

/-- The MAC address of the management port, first octet leftmost (R439): 0x02, then the low 40 bits of SHAKE256 of SERIAL, or of 16 zero
bytes with no identity (their order: DESIGN CHOICE, log entry 112). -/
def macAddress (s : State) : BitVec 48 :=
  0x02#8 ++ (shake256 ((s.ident.map fun d => d.serial.toNat).getD 0) 16).setWidth 40

/-- The bytes of a file as a number. -/
def fileBytes (l : List (BitVec 8)) : Nat := l.foldr (fun b z => b.toNat + 256 * z) 0

/-- TFTP_WRITE of "slot-a" (R439): in ROM recovery the file is taken into slot A and handled as RECOVERY_DONE handles it. -/
def tftpWrite (data : List (BitVec 8)) (x : ImgIn) (s : State) : State :=
  if inRecovery s && decide (data.length ≤ slotBytes) then
    (recover data.length x ((s.putSlot 0 FwSlot.empty) |> recoveryPut 0 data.length (fileBytes data))).2
  else s

def execTftpWrite (data : List (BitVec 8)) (x : ImgIn) (s : State) : Host.Outcome State Fault Refusal :=
  .next (tftpWrite data x s)

/-! ## In-band interrupts and the address (R437, R438) -/

/-- I3C_IBI: an interrupt raised again stays to be acknowledged. -/
def i3cIbi (f : IbiF) (s : State) : State :=
  match f with
  | .again => s
  | .acknowledged b => { s with i3c := { s.i3c with ibi := s.i3c.ibi.erase b } }

def execI3cIbi (f : IbiF) (s : State) : Host.Outcome State Fault Refusal := .next (i3cServe (i3cIbi f) s)

/-- DYNAMIC_ADDRESS_ASSIGNMENT, by SETDASA or ENTDAA. -/
def execDynamicAddressAssignment (a : BitVec 7) (s : State) : Host.Outcome State Fault Refusal :=
  .next (i3cServe (fun z => { z with i3c := { z.i3c with addr := some a } }) s)

end Sys2Proof.Machine
end

