-- ==== Sys2Proof/Machine/Vector.lean ====
section
/-!
DEFINITION. The vector slot (R84 to R90). Every operation reads its registers in its issue cycle and delivers its result after
its latency.
-/

namespace Sys2Proof.Machine

/-- vs1 op vs2 of VADD, VSUB and VMUL (R85). -/
def arith2 (fop : Fval → Fval → Fval) (iop : Int → Int → Int) (vt : BitVec 3) (sat : Bool) (x y : Nat) : Nat × FpFlags :=
  laneResult vt sat (fop (vtDecode vt x) (vtDecode vt y)) (iop (intOf (vtWidth vt) x) (intOf (vtWidth vt) y))

/-- The sum of two lanes. -/
def laneAdd (vt : BitVec 3) (sat : Bool) : Nat → Nat → Nat × FpFlags := arith2 (Fval.add .near) (· + ·) vt sat

/-- The minimum or maximum of two values; one NaN operand is ignored (R85). Zeros of unlike sign give a zero whose sign is
free (log entry 4). -/
def minMax (isMax : Bool) (x y : Nat) (a b : Fval) : Fval :=
  match a, b with
  | .nan, _ => b
  | _, .nan => a
  | .fin s 0 e, .fin t 0 _ => if s = t then a else .fin (Config.zeroSign isMax x y) 0 e
  | _, _ => if a.lt b != isMax then a else b

/-- The minimum or maximum of two lanes. -/
def laneMinMax (isMax : Bool) (vt : BitVec 3) (sat : Bool) (x y : Nat) : Nat × FpFlags :=
  let w := vtWidth vt
  laneResult vt sat (minMax isMax x y (vtDecode vt x) (vtDecode vt y))
    (if isMax then max (intOf w x) (intOf w y) else min (intOf w x) (intOf w y))

def execVadd (c : CoreId) (a : VecA) (s : State) : Host.Outcome State Fault Refusal :=
  .next (vecOp c (.vadd c a) a 3 (fun x y _ => laneAdd a.vt a.sat x y) s)

def execVsub (c : CoreId) (a : VecA) (s : State) : Host.Outcome State Fault Refusal :=
  .next (vecOp c (.vsub c a) a 3 (fun x y _ => arith2 (fun p q => Fval.add .near p q.negate) (· - ·) a.vt a.sat x y) s)

def execVmul (c : CoreId) (a : VecA) (s : State) : Host.Outcome State Fault Refusal :=
  .next (vecOp c (.vmul c a) a 4 (fun x y _ => arith2 Fval.mul (· * ·) a.vt a.sat x y) s)

/-- vs1 × vs2 + vs3 with one rounding (R85). -/
def laneFma (vt : BitVec 3) (sat : Bool) (x y z : Nat) : Nat × FpFlags :=
  let w := vtWidth vt
  laneResult vt sat (Fval.add .near ((vtDecode vt x).mul (vtDecode vt y)) (vtDecode vt z))
    (intOf w x * intOf w y + intOf w z)

def execVfma (c : CoreId) (a : VecA) (s : State) : Host.Outcome State Fault Refusal :=
  .next (vecOp c (.vfma c a) a 4 (laneFma a.vt a.sat) s)

def execVmin (c : CoreId) (a : VecA) (s : State) : Host.Outcome State Fault Refusal :=
  .next (vecOp c (.vmin c a) a 3 (fun x y _ => laneMinMax false a.vt a.sat x y) s)

def execVmax (c : CoreId) (a : VecA) (s : State) : Host.Outcome State Fault Refusal :=
  .next (vecOp c (.vmax c a) a 3 (fun x y _ => laneMinMax true a.vt a.sat x y) s)

def execVabs (c : CoreId) (a : VecA) (s : State) : Host.Outcome State Fault Refusal :=
  .next (vecOp c (.vabs c a) a 3 (fun x _ _ => laneResult a.vt a.sat (vtDecode a.vt x).abs (intOf (vtWidth a.vt) x).natAbs) s)

def execVneg (c : CoreId) (a : VecA) (s : State) : Host.Outcome State Fault Refusal :=
  .next (vecOp c (.vneg c a) a 3 (fun x _ _ => laneResult a.vt a.sat (vtDecode a.vt x).negate (-(intOf (vtWidth a.vt) x))) s)

/-! ## Compares, selection and bitwise operations -/

/-- A compare: bit l of mask VD[2:0] for each lane l whose MASK bit is 1 (R90). -/
def vecCompare (c : Nat) (i : Instr) (a : VecA) (p : Fval → Fval → Bool) : State → State :=
  issueSlot c .vec i fun s =>
    let k := s.core c
    let w := vtWidth a.vt
    let n := vtLanes a.vt
    let r := joinLanes 1 n fun l =>
      if p (vtDecode a.vt (lane w (k.rv a.vs1).toNat l)) (vtDecode a.vt (lane w (k.rv a.vs2).toNat l)) then 1 else 0
    deliver c 3 0 (.m (a.vd.setWidth 3) (BitVec.ofNat 64 r) (k.rm a.mask &&& BitVec.ofNat 64 (2 ^ n - 1))) s

def execVcmplt (c : CoreId) (a : VecA) (s : State) : Host.Outcome State Fault Refusal :=
  .next (vecCompare c (.vcmplt c a) a Fval.lt s)

def execVcmple (c : CoreId) (a : VecA) (s : State) : Host.Outcome State Fault Refusal :=
  .next (vecCompare c (.vcmple c a) a (fun p q => p.lt q || p.eq q) s)

def execVcmpeq (c : CoreId) (a : VecA) (s : State) : Host.Outcome State Fault Refusal :=
  .next (vecCompare c (.vcmpeq c a) a Fval.eq s)

/-- VSEL: every lane is written, from vs1 where its MASK bit is 1 and from vs2 where it is 0 (R90). -/
def doVsel (c : Nat) (i : Instr) (a : VecA) : State → State :=
  issueSlot c .vec i fun s =>
    let k := s.core c
    let m := laneMask (vtWidth a.vt) (vtLanes a.vt) (k.rm a.mask)
    deliver c 3 0 (.v a.vd ((k.rv a.vs1 &&& m) ||| (k.rv a.vs2 &&& ~~~m)) (BitVec.allOnes 512)) s

def execVsel (c : CoreId) (a : VecA) (s : State) : Host.Outcome State Fault Refusal := .next (doVsel c (.vsel c a) a s)

/-- A bitwise operation in the lanes whose mask bit is 1 (R90). -/
def vecBits (c : Nat) (i : Instr) (a : VecA) (p : BitVec 512 → BitVec 512 → BitVec 512) : State → State :=
  issueSlot c .vec i fun s =>
    let k := s.core c
    deliver c 3 0 (.v a.vd (p (k.rv a.vs1) (k.rv a.vs2)) (laneMask (vtWidth a.vt) (vtLanes a.vt) (k.rm a.mask))) s

def execVand (c : CoreId) (a : VecA) (s : State) : Host.Outcome State Fault Refusal :=
  .next (vecBits c (.vand c a) a (· &&& ·) s)

def execVor (c : CoreId) (a : VecA) (s : State) : Host.Outcome State Fault Refusal :=
  .next (vecBits c (.vor c a) a (· ||| ·) s)

def execVxor (c : CoreId) (a : VecA) (s : State) : Host.Outcome State Fault Refusal :=
  .next (vecBits c (.vxor c a) a (· ^^^ ·) s)

/-! ## Conversion (R90 VCVT) -/

/-- One lane converted from type `vt` to type `dt` with rounding `r`: float to integer always saturates. -/
def cvtLane (vt dt : BitVec 3) (r : Rnd) (sat : Bool) (x : Nat) : Nat × FpFlags :=
  match vtFmt dt with
  | some f => f.encode r sat (vtDecode vt x)
  | none =>
    match vtFmt vt with
    | some f => encodeInt (vtWidth dt) r (f.decode x)
    | none => (narrowInt (vtWidth dt) sat (intOf (vtWidth vt) x), .none)

/-- The part that AUX[1:0] names of a register cut in `parts` parts; where it names more parts than there are, the part is
free (log entry 5). -/
def cvtPart (parts aux : Nat) : Nat := if aux < parts then aux else Config.freePart parts aux % parts

/-- VCVT: lanes of equal width convert in place; narrowing writes one part of vd; widening reads one part of vs1. A mask bit
governs the lane of vd of its number, in the destination type (DEDUCED, log entry 8). -/
def doVcvt (c : Nat) (i : Instr) (a : VecA) : State → State :=
  issueSlot c .vec i fun s =>
    let k := s.core c
    let dt : BitVec 3 := a.vs3.setWidth 3
    let ws := vtWidth a.vt
    let wd := vtWidth dt
    let aux := a.aux.toNat % 4
    let n := 512 / max ws wd
    let rpart := if wd ≤ ws then 0 else cvtPart (wd / ws) aux
    let wpart := if ws ≤ wd then 0 else cvtPart (ws / wd) aux
    let g := fun l => cvtLane a.vt dt (.ofBits a.rnd.toNat) a.sat (lane ws (k.rv a.vs1).toNat (rpart * n + l))
    let m := k.rm a.mask >>> (wpart * n)
    fpFlags c (laneFlags n m g)
      (deliver c 4 0 (.v a.vd (BitVec.ofNat 512 (joinLanes wd n fun l => (g l).1) <<< (wpart * n * wd))
        (laneMask wd n m <<< (wpart * n * wd))) s)

def execVcvt (c : CoreId) (a : VecA) (s : State) : Host.Outcome State Fault Refusal := .next (doVcvt c (.vcvt c a) a s)

/-! ## Special functions (R86) -/

/-- The lane type of a special function: BF16 and FP16 as they are, any other type as FP32. -/
def specialVt (vt : BitVec 3) : BitVec 3 := if vt = 1 ∨ vt = 2 then vt else 0

/-- One lane of a special function: widened exactly, rounded to FP32, then to the lane type. -/
def specialLane (f : Fval → Fval) (vt : BitVec 3) (sat : Bool) (x : Nat) : Nat × FpFlags :=
  let r := Fmt.fp32.encode .near sat (f (vtDecode vt x))
  if vt = 0 then r
  else
    let q := laneResult vt sat (Fmt.fp32.decode r.1) 0
    (q.1, q.2.or r.2)

/-- A special function of vs1, latency 12. -/
def vecSpecial (c : Nat) (i : Instr) (a : VecA) (f : Fval → Fval) : State → State :=
  vecOp c i { a with vt := specialVt a.vt } 12 (fun x _ _ => specialLane f (specialVt a.vt) a.sat x)

def execVexp2 (c : CoreId) (a : VecA) (s : State) : Host.Outcome State Fault Refusal := .next (vecSpecial c (.vexp2 c a) a exp2Val s)

def execVlog2 (c : CoreId) (a : VecA) (s : State) : Host.Outcome State Fault Refusal := .next (vecSpecial c (.vlog2 c a) a log2Val s)

def execVrcp (c : CoreId) (a : VecA) (s : State) : Host.Outcome State Fault Refusal := .next (vecSpecial c (.vrcp c a) a rcpVal s)

def execVrsqrt (c : CoreId) (a : VecA) (s : State) : Host.Outcome State Fault Refusal := .next (vecSpecial c (.vrsqrt c a) a rsqrtVal s)

def execVsqrt (c : CoreId) (a : VecA) (s : State) : Host.Outcome State Fault Refusal := .next (vecSpecial c (.vsqrt c a) a sqrtVal s)

def execVtanh (c : CoreId) (a : VecA) (s : State) : Host.Outcome State Fault Refusal := .next (vecSpecial c (.vtanh c a) a tanhVal s)

/-! ## Reductions (R87) -/

/-- The combination that AUX[1:0] names: 0 sum, 1 maximum, 2 minimum, 3 as 0. -/
def combine (aux : BitVec 3) (vt : BitVec 3) (sat : Bool) : Nat → Nat → Nat × FpFlags :=
  match aux.toNat % 4 with
  | 1 => laneMinMax true vt sat
  | 2 => laneMinMax false vt sat
  | _ => laneAdd vt sat

/-- The fixed tree over the 2^k lanes from lane l on: the halves are reduced and then combined, which is the pairing of
(2i, 2i + 1), then of (4i, 4i + 2), and so on. -/
def redTree (f : Nat → Nat → Nat × FpFlags) (x : Nat → Nat) (k l : Nat) : Nat × FpFlags :=
  match k with
  | 0 => (x l, .none)
  | j + 1 =>
    let p := redTree f x j l
    let q := redTree f x j (l + 2 ^ j)
    let r := f p.1 q.1
    (r.1, (p.2.or q.2).or r.2)

def execVred (c : CoreId) (a : VecA) (s : State) : Host.Outcome State Fault Refusal :=
  .next (vecLanes c (.vred c a) a.vd a.mask (vtWidth a.vt) (vtLanes a.vt) 8 (fun k l =>
    let g := a.rnd.toNat + 1
    if l % 2 ^ g = 0 then
      redTree (combine a.aux a.vt a.sat) (lane (vtWidth a.vt) (k.rv a.vs1).toNat) g l
    else (0, .none)) s)

def execVhalf (c : CoreId) (a : VecA) (s : State) : Host.Outcome State Fault Refusal :=
  .next (vecLanes c (.vhalf c a) a.vd a.mask (vtWidth a.vt) (vtLanes a.vt) 8 (fun k l =>
    let h := vtLanes a.vt / 2
    let x := lane (vtWidth a.vt) (k.rv a.vs1).toNat
    combine a.aux a.vt a.sat (x (l % h)) (x (l % h + h))) s)

/-- VPERM: lane l is the lane of vs1 that the low 6 bits of byte l of vs2 name, modulo the lane count (R90). -/
def execVperm (c : CoreId) (a : VecA) (s : State) : Host.Outcome State Fault Refusal :=
  .next (vecLanes c (.vperm c a) a.vd a.mask (vtWidth a.vt) (vtLanes a.vt) 4 (fun k l =>
    (lane (vtWidth a.vt) (k.rv a.vs1).toNat (lane 8 (k.rv a.vs2).toNat l % 64 % vtLanes a.vt), .none)) s)

/-- One 128-bit lane of VADD128 (R88): the NaN of RAW128 is sticky; with SAT a sum past ±(2^127 − 1) is held there. -/
def add128 (sat : Bool) (x y : Nat) : Nat :=
  if x = 2 ^ 127 ∨ y = 2 ^ 127 then 2 ^ 127
  else
    let v := intOf 128 x + intOf 128 y
    let u : Int := if sat then max (-(2 ^ 127 - 1 : Nat)) (min (2 ^ 127 - 1 : Nat) v) else v
    (u % (2 ^ 128 : Nat)).toNat

def execVadd128 (c : CoreId) (a : VecA) (s : State) : Host.Outcome State Fault Refusal :=
  .next (vecLanes c (.vadd128 c a) a.vd a.mask 128 4 3 (fun k l =>
    (add128 a.sat (lane 128 (k.rv a.vs1).toNat l) (lane 128 (k.rv a.vs2).toNat l), .none)) s)

/-! ## Vector memory operations (R89) -/

/-- A vector memory operation: discarded with VEC_DROPPED set while the port is occupied. A gather or scatter occupies the
port from I + 1 to I + 16 (`hold`). -/
def vecMem (c : Nat) (i : Instr) (hold : Bool) (acc : Core → Nat → List Acc) : State → State :=
  issueSlot c .vec i fun s =>
    let k := s.core c
    let t := actOf c s
    if t ≤ k.vmBusy ∧ k.vmBusy ≠ 0 then flagF F.CORE_STATUS_VEC_DROPPED c 0 s
    else
      schedule c (acc k t) (if hold then s.putCore c { k with vmBusy := t + 16 } else s)

/-- Granules moved by a VLD or VST: NGRAN, less those past register granule 3. -/
def vecCount (m : VecM) : Nat := min (m.ngran.toNat + 1) (4 - m.rpart.toNat)

def execVld (c : CoreId) (m : VecM) (s : State) : Host.Outcome State Fault Refusal :=
  .next (vecMem c (.vld c m) false (fun k t =>
    (bankRuns 4 0 (spGran k m.xbase m.gran) (vecCount m)).map fun (i, g, n) =>
      ⟨t + 1, 1, g, n, .vread m.vd (m.rpart.toNat + i) (laneMask (vtWidth m.vt) (vtLanes m.vt) (k.rm m.mask)) (t + 5) t⟩) s)

/-- The byte mask of 64 register bytes that the lanes of a mask cover. -/
def byteMask (vt : BitVec 3) (m : BitVec 64) : Nat :=
  joinLanes 1 64 fun i => if m.getLsbD (i * 8 / vtWidth vt) then 1 else 0

def execVst (c : CoreId) (m : VecM) (s : State) : Host.Outcome State Fault Refusal :=
  .next (vecMem c (.vst c m) false (fun k t =>
    (bankRuns 4 0 (spGran k m.xbase m.gran) (vecCount m)).map fun (i, g, n) =>
      let p := m.rpart.toNat + i
      ⟨t + 2, 1, g, n, .write (BitVec.ofNat 512 ((k.rv m.vd).toNat / 2 ^ (128 * p)))
        (BitVec.ofNat 64 (byteMask m.vt (k.rm m.mask) / 2 ^ (16 * p) % 2 ^ (16 * n)))⟩) s)

/-- The address of lane j of a gather or scatter (R89): base + 4 × lane j of vs1, wrapped and aligned down to 4 bytes. -/
def gatherAddr (k : Core) (m : VecM) (j : Nat) : Nat :=
  let base : Int := spAddr k m.xbase (16 * m.gran.toNat)
  ((base + 4 * intOf 32 (lane 32 (k.rv m.vs1).toNat j)) % 32768).toNat / 4 * 4

/-- The lanes of a gather or scatter that make an access. -/
def gatherLanes (k : Core) (m : VecM) : List Nat := (List.range 16).filter fun j => (k.rm m.mask).getLsbD j

def execVgather (c : CoreId) (m : VecM) (s : State) : Host.Outcome State Fault Refusal :=
  .next (vecMem c (.vgather c m) true (fun k t => (gatherLanes k m).map fun j =>
    ⟨t + 1 + j, 1, gatherAddr k m j / 16, 1, .lane m.vd j (gatherAddr k m j % 16) (t + 20) t⟩) s)

def execVscatter (c : CoreId) (m : VecM) (s : State) : Host.Outcome State Fault Refusal :=
  .next (vecMem c (.vscatter c m) true (fun k t => (gatherLanes k m).map fun j =>
    ⟨t + 1 + j, 1, gatherAddr k m j / 16, 1,
      .write (BitVec.ofNat 512 (lane 32 (k.rv m.vd).toNat j * 2 ^ (8 * (gatherAddr k m j % 16))))
        (BitVec.ofNat 64 (onesAt (gatherAddr k m j % 16) 4))⟩) s)

/-! ## Immediate and scalar exchange -/

def execVbcasti (c : CoreId) (v : VecI) (s : State) : Host.Outcome State Fault Refusal :=
  .next (vecLanes c (.vbcasti c v) v.vd v.mask (vtWidth v.vt) (vtLanes v.vt) 3 (fun _ _ => (v.imm.toNat % 2 ^ vtWidth v.vt, .none)) s)

def execVfromx (c : CoreId) (v : VecX) (s : State) : Host.Outcome State Fault Refusal :=
  .next (vecLanes c (.vfromx c v) v.vd v.mask (vtWidth v.vt) (vtLanes v.vt) 3
    (fun k _ => ((k.rx v.xreg).toNat % 2 ^ vtWidth v.vt, .none)) s)

/-- VTOX: lane LANE mod N of v[VD], zero-extended, into x[XREG] (R90). -/
def doVtox (c : Nat) (i : Instr) (v : VecX) : State → State :=
  issueSlot c .vec i fun s =>
    let k := s.core c
    deliver c 3 0 (.x v.xreg (BitVec.ofNat 64 (lane (vtWidth v.vt) (k.rv v.vd).toNat (v.lane.toNat % vtLanes v.vt)))) s

def execVtox (c : CoreId) (v : VecX) (s : State) : Host.Outcome State Fault Refusal := .next (doVtox c (.vtox c v) v s)

end Sys2Proof.Machine
end

