-- ==== Sys2Proof/Machine/Dispatch.lean ====
section
/-!
DEFINITION. One arm per command: a direct call of its meaning.
-/

namespace Sys2Proof.Machine

def exec (i : Instr) (s : State) : Host.Outcome State Fault Refusal :=
  match i with
  | .registerWrite x => Sys2Proof.Machine.execRegisterWrite x s
  | .registerReadClear x => Sys2Proof.Machine.execRegisterReadClear x s
  | .dieFence d why => Sys2Proof.Machine.execDieFence d why s
  | .fenceReturn d => Sys2Proof.Machine.execFenceReturn d s
  | .bgOwnerWrite g v => Sys2Proof.Machine.execBgOwnerWrite g v s
  | .nop c slot => Sys2Proof.Machine.execNop c slot s
  | .order c o => Sys2Proof.Machine.execOrder c o s
  | .gridPresentStart c => Sys2Proof.Machine.execGridPresentStart c s
  | .gridDrain c => Sys2Proof.Machine.execGridDrain c s
  | .vadd c a => Sys2Proof.Machine.execVadd c a s
  | .vsub c a => Sys2Proof.Machine.execVsub c a s
  | .vmul c a => Sys2Proof.Machine.execVmul c a s
  | .vfma c a => Sys2Proof.Machine.execVfma c a s
  | .vmin c a => Sys2Proof.Machine.execVmin c a s
  | .vmax c a => Sys2Proof.Machine.execVmax c a s
  | .vabs c a => Sys2Proof.Machine.execVabs c a s
  | .vneg c a => Sys2Proof.Machine.execVneg c a s
  | .vcmplt c a => Sys2Proof.Machine.execVcmplt c a s
  | .vcmple c a => Sys2Proof.Machine.execVcmple c a s
  | .vcmpeq c a => Sys2Proof.Machine.execVcmpeq c a s
  | .vsel c a => Sys2Proof.Machine.execVsel c a s
  | .vand c a => Sys2Proof.Machine.execVand c a s
  | .vor c a => Sys2Proof.Machine.execVor c a s
  | .vxor c a => Sys2Proof.Machine.execVxor c a s
  | .vcvt c a => Sys2Proof.Machine.execVcvt c a s
  | .vexp2 c a => Sys2Proof.Machine.execVexp2 c a s
  | .vlog2 c a => Sys2Proof.Machine.execVlog2 c a s
  | .vrcp c a => Sys2Proof.Machine.execVrcp c a s
  | .vrsqrt c a => Sys2Proof.Machine.execVrsqrt c a s
  | .vsqrt c a => Sys2Proof.Machine.execVsqrt c a s
  | .vtanh c a => Sys2Proof.Machine.execVtanh c a s
  | .vred c a => Sys2Proof.Machine.execVred c a s
  | .vhalf c a => Sys2Proof.Machine.execVhalf c a s
  | .vperm c a => Sys2Proof.Machine.execVperm c a s
  | .vadd128 c a => Sys2Proof.Machine.execVadd128 c a s
  | .vld c m => Sys2Proof.Machine.execVld c m s
  | .vst c m => Sys2Proof.Machine.execVst c m s
  | .vgather c m => Sys2Proof.Machine.execVgather c m s
  | .vscatter c m => Sys2Proof.Machine.execVscatter c m s
  | .vbcasti c v => Sys2Proof.Machine.execVbcasti c v s
  | .vfromx c v => Sys2Proof.Machine.execVfromx c v s
  | .vtox c v => Sys2Proof.Machine.execVtox c v s
  | .add c r => Sys2Proof.Machine.execAdd c r s
  | .sub c r => Sys2Proof.Machine.execSub c r s
  | .and c r => Sys2Proof.Machine.execAnd c r s
  | .or c r => Sys2Proof.Machine.execOr c r s
  | .xor c r => Sys2Proof.Machine.execXor c r s
  | .sll c r => Sys2Proof.Machine.execSll c r s
  | .srl c r => Sys2Proof.Machine.execSrl c r s
  | .sra c r => Sys2Proof.Machine.execSra c r s
  | .mul c r => Sys2Proof.Machine.execMul c r s
  | .mulhu c r => Sys2Proof.Machine.execMulhu c r s
  | .min c r => Sys2Proof.Machine.execMin c r s
  | .max c r => Sys2Proof.Machine.execMax c r s
  | .minu c r => Sys2Proof.Machine.execMinu c r s
  | .maxu c r => Sys2Proof.Machine.execMaxu c r s
  | .slt c r => Sys2Proof.Machine.execSlt c r s
  | .sltu c r => Sys2Proof.Machine.execSltu c r s
  | .sel c r => Sys2Proof.Machine.execSel c r s
  | .addi c r => Sys2Proof.Machine.execAddi c r s
  | .andi c r => Sys2Proof.Machine.execAndi c r s
  | .ori c r => Sys2Proof.Machine.execOri c r s
  | .xori c r => Sys2Proof.Machine.execXori c r s
  | .slli c r => Sys2Proof.Machine.execSlli c r s
  | .srli c r => Sys2Proof.Machine.execSrli c r s
  | .srai c r => Sys2Proof.Machine.execSrai c r s
  | .lui c r => Sys2Proof.Machine.execLui c r s
  | .csrr c r => Sys2Proof.Machine.execCsrr c r s
  | .ldx c xd xbase off => Sys2Proof.Machine.execLdx c xd xbase off s
  | .stx c xs xbase off => Sys2Proof.Machine.execStx c xs xbase off s
  | .copy c m => Sys2Proof.Machine.execCopy c m s
  | .fill c m => Sys2Proof.Machine.execFill c m s
  | .csrw c xs off => Sys2Proof.Machine.execCsrw c xs off s
  | .waitf c flag keep => Sys2Proof.Machine.execWaitf c flag keep s
  | .post c target flag => Sys2Proof.Machine.execPost c target flag s
  | .sync c level => Sys2Proof.Machine.execSync c level s
  | .syncRelease scope => Sys2Proof.Machine.execSyncRelease scope s
  | .skip c n => Sys2Proof.Machine.execSkip c n s
  | .loop c l => Sys2Proof.Machine.execLoop c l s
  | .kick c program => Sys2Proof.Machine.execKick c program s
  | .phase c tag => Sys2Proof.Machine.execPhase c tag s
  | .halt c => Sys2Proof.Machine.execHalt c s
  | .coreFinish c => Sys2Proof.Machine.execCoreFinish c s
  | .ibRefill b stream block => Sys2Proof.Machine.execIbRefill b stream block s
  | .ibRefillReturn b stream block line parity => Sys2Proof.Machine.execIbRefillReturn b stream block line parity s
  | .spadOutsideAccess c x => Sys2Proof.Machine.execSpadOutsideAccess c x s
  | .spadOutsideGrant c bank => Sys2Proof.Machine.execSpadOutsideGrant c bank s
  | .spadAliasWrite c bank => Sys2Proof.Machine.execSpadAliasWrite c bank s
  | .spadAtomic c id off a w => Sys2Proof.Machine.execSpadAtomic c id off a w s
  | .bgRetentionEnter g => Sys2Proof.Machine.execBgRetentionEnter g s
  | .bgWake g => Sys2Proof.Machine.execBgWake g s
  | .bgWakeDone g => Sys2Proof.Machine.execBgWakeDone g s
  | .bedcLookup b id pa f => Sys2Proof.Machine.execBedcLookup b id pa f s
  | .bedcFillReturn b id => Sys2Proof.Machine.execBedcFillReturn b id s
  | .bedcPrefetch b pa pol => Sys2Proof.Machine.execBedcPrefetch b pa pol s
  | .mergeWrite b w => Sys2Proof.Machine.execMergeWrite b w s
  | .mergeIdleExpiry b => Sys2Proof.Machine.execMergeIdleExpiry b s
  | .mergeAck b id => Sys2Proof.Machine.execMergeAck b id s
  | .invShared b => Sys2Proof.Machine.execInvShared b s
  | .invAll b => Sys2Proof.Machine.execInvAll b s
  | .drain b => Sys2Proof.Machine.execDrain b s
  | .dramRequest a => Sys2Proof.Machine.execDramRequest a s
  | .dramAtomic a => Sys2Proof.Machine.execDramAtomic a s
  | .bisnp pa owned dirty => Sys2Proof.Machine.execBisnp pa owned dirty s
  | .dramWriteAck id => Sys2Proof.Machine.execDramWriteAck id s
  | .dramReadReturn id => Sys2Proof.Machine.execDramReadReturn id s
  | .oaddAccept a => Sys2Proof.Machine.execOaddAccept a s
  | .stkRegionWrite k0 v => Sys2Proof.Machine.execStkRegionWrite k0 v s
  | .regionInvalidDone k0 => Sys2Proof.Machine.execRegionInvalidDone k0 s
  | .clearFault k0 => Sys2Proof.Machine.execClearFault k0 s
  | .regulatorPeriod st => Sys2Proof.Machine.execRegulatorPeriod st s
  | .refreshDue st => Sys2Proof.Machine.execRefreshDue st s
  | .patrolRead st => Sys2Proof.Machine.execPatrolRead st s
  | .ceWriteback st => Sys2Proof.Machine.execCeWriteback st s
  | .stackTrain p a b => Sys2Proof.Machine.execStackTrain p a b s
  | .stackRecalibrate st => Sys2Proof.Machine.execStackRecalibrate st s
  | .selfRefreshEntry st ordered => Sys2Proof.Machine.execSelfRefreshEntry st ordered s
  | .programStart b => Sys2Proof.Machine.execProgramStart b s
  | .moveIssue b => Sys2Proof.Machine.execMoveIssue b s
  | .moveNop b prog idx => Sys2Proof.Machine.execMoveNop b prog idx s
  | .moveLoad b prog idx => Sys2Proof.Machine.execMoveLoad b prog idx s
  | .moveStore b prog idx => Sys2Proof.Machine.execMoveStore b prog idx s
  | .moveTcopy b prog idx => Sys2Proof.Machine.execMoveTcopy b prog idx s
  | .moveCopy b prog idx => Sys2Proof.Machine.execMoveCopy b prog idx s
  | .moveAtomic b prog idx => Sys2Proof.Machine.execMoveAtomic b prog idx s
  | .movePrefetch b prog idx => Sys2Proof.Machine.execMovePrefetch b prog idx s
  | .moveFetch4 b prog idx => Sys2Proof.Machine.execMoveFetch4 b prog idx s
  | .t4Done b tag error => Sys2Proof.Machine.execT4Done b tag error s
  | .moveComplete b prog idx => Sys2Proof.Machine.execMoveComplete b prog idx s
  | .moveError b prog idx => Sys2Proof.Machine.execMoveError b prog idx s
  | .fbDecide p group decide => Sys2Proof.Machine.execFbDecide p group decide s
  | .fbAgree p group decide => Sys2Proof.Machine.execFbAgree p group decide s
  | .xltWalk x => Sys2Proof.Machine.execXltWalk x s
  | .xltFillReturn id => Sys2Proof.Machine.execXltFillReturn id s
  | .faultRecordOpen x cause => Sys2Proof.Machine.execFaultRecordOpen x cause s
  | .fqHeadWrite v => Sys2Proof.Machine.execFqHeadWrite v s
  | .faultTimeout slot => Sys2Proof.Machine.execFaultTimeout slot s
  | .xinvalPage f => Sys2Proof.Machine.execXinvalPage f s
  | .xinvalRange f => Sys2Proof.Machine.execXinvalRange f s
  | .xinvalContext f => Sys2Proof.Machine.execXinvalContext f s
  | .xinvalAll f => Sys2Proof.Machine.execXinvalAll f s
  | .xinvalDrained id recv => Sys2Proof.Machine.execXinvalDrained id recv s
  | .xinvalComplete id => Sys2Proof.Machine.execXinvalComplete id s
  | .xrespRetry id => Sys2Proof.Machine.execXrespRetry id s
  | .xrespFail id => Sys2Proof.Machine.execXrespFail id s
  | .ctxDisable k0 => Sys2Proof.Machine.execCtxDisable k0 s
  | .cmdDbTail ring v who => Sys2Proof.Machine.execCmdDbTail ring v who s
  | .cmdDbCqHead ring v who => Sys2Proof.Machine.execCmdDbCqHead ring v who s
  | .cmdDbHead ring v who => Sys2Proof.Machine.execCmdDbHead ring v who s
  | .ringCfgWrite ring v => Sys2Proof.Machine.execRingCfgWrite ring v s
  | .descFetch => Sys2Proof.Machine.execDescFetch s
  | .descNop ring idx => Sys2Proof.Machine.execDescNop ring idx s
  | .launch ring idx => Sys2Proof.Machine.execLaunch ring idx s
  | .launchStop p => Sys2Proof.Machine.execLaunchStop p s
  | .launchDrained p => Sys2Proof.Machine.execLaunchDrained p s
  | .move ring idx => Sys2Proof.Machine.execMove ring idx s
  | .fence ring idx => Sys2Proof.Machine.execFence ring idx s
  | .signal ring idx => Sys2Proof.Machine.execSignal ring idx s
  | .wait ring idx => Sys2Proof.Machine.execWait ring idx s
  | .waitPoll ring idx => Sys2Proof.Machine.execWaitPoll ring idx s
  | .configStage ring idx => Sys2Proof.Machine.execConfigStage ring idx s
  | .configCommit ring idx => Sys2Proof.Machine.execConfigCommit ring idx s
  | .shelfParticipantReport e q => Sys2Proof.Machine.execShelfParticipantReport e q s
  | .shelfVoteClose e => Sys2Proof.Machine.execShelfVoteClose e s
  | .quiesce ring idx => Sys2Proof.Machine.execQuiesce ring idx s
  | .dormantRetention ring idx => Sys2Proof.Machine.execDormantRetention ring idx s
  | .dormantImage ring idx => Sys2Proof.Machine.execDormantImage ring idx s
  | .wakeRetention ring idx => Sys2Proof.Machine.execWakeRetention ring idx s
  | .wakeImage ring idx => Sys2Proof.Machine.execWakeImage ring idx s
  | .wakeHold ring idx => Sys2Proof.Machine.execWakeHold ring idx s
  | .descWaitPartitionReady ring idx => Sys2Proof.Machine.execDescWaitPartitionReady ring idx s
  | .abort ring idx => Sys2Proof.Machine.execAbort ring idx s
  | .abortResolve ring => Sys2Proof.Machine.execAbortResolve ring s
  | .commitReport ring => Sys2Proof.Machine.execCommitReport ring s
  | .completionRecord ring => Sys2Proof.Machine.execCompletionRecord ring s
  | .irqSignal iid => Sys2Proof.Machine.execIrqSignal iid s
  | .irqMapWrite k0 v => Sys2Proof.Machine.execIrqMapWrite k0 v s
  | .laserEvent m e => Sys2Proof.Machine.execLaserEvent m e s
  | .bypassClose k => Sys2Proof.Machine.execBypassClose k s
  | .bypassOpen k => Sys2Proof.Machine.execBypassOpen k s
  | .bypassSwitchDone k => Sys2Proof.Machine.execBypassSwitchDone k s
  | .portTrain n r => Sys2Proof.Machine.execPortTrain n r s
  | .portDown n why => Sys2Proof.Machine.execPortDown n why s
  | .retrain n => Sys2Proof.Machine.execRetrain n s
  | .clearRetired n => Sys2Proof.Machine.execClearRetired n s
  | .flitReceive n f => Sys2Proof.Machine.execFlitReceive n f s
  | .flitReplay n start count => Sys2Proof.Machine.execFlitReplay n start count s
  | .msgRead n h => Sys2Proof.Machine.execMsgRead n h s
  | .msgWrite n h data => Sys2Proof.Machine.execMsgWrite n h data s
  | .msgAtomic n h a step key => Sys2Proof.Machine.execMsgAtomic n h a step key s
  | .msgResp n f => Sys2Proof.Machine.execMsgResp n f s
  | .e2eAck src chan seq => Sys2Proof.Machine.execE2eAck src chan seq s
  | .e2eReissue dst chan => Sys2Proof.Machine.execE2eReissue dst chan s
  | .card n c => Sys2Proof.Machine.execCard n c s
  | .cardSend => Sys2Proof.Machine.execCardSend s
  | .charter h c => Sys2Proof.Machine.execCharter h c s
  | .charterIssue ws => Sys2Proof.Machine.execCharterIssue ws s
  | .charterEffective => Sys2Proof.Machine.execCharterEffective s
  | .time t => Sys2Proof.Machine.execTime t s
  | .agree h p f => Sys2Proof.Machine.execAgree h p f s
  | .ready h r => Sys2Proof.Machine.execReady h r s
  | .readyTimeout p => Sys2Proof.Machine.execReadyTimeout p s
  | .diverge h digest step tick => Sys2Proof.Machine.execDiverge h digest step tick s
  | .memberLost q => Sys2Proof.Machine.execMemberLost q s
  | .join => Sys2Proof.Machine.execJoin s
  | .leave => Sys2Proof.Machine.execLeave s
  | .lock f => Sys2Proof.Machine.execLock f s
  | .lockEntry => Sys2Proof.Machine.execLockEntry s
  | .unlock f => Sys2Proof.Machine.execUnlock f s
  | .adopt => Sys2Proof.Machine.execAdopt s
  | .lockCheckTick p => Sys2Proof.Machine.execLockCheckTick p s
  | .lockStepTick p => Sys2Proof.Machine.execLockStepTick p s
  | .extTimeChange pps present => Sys2Proof.Machine.execExtTimeChange pps present s
  | .linkTrain d l r => Sys2Proof.Machine.execLinkTrain d l r s
  | .d2dFlitReceive d l f => Sys2Proof.Machine.execD2dFlitReceive d l f s
  | .linkFailing d l why => Sys2Proof.Machine.execLinkFailing d l why s
  | .d2dRetrain d l => Sys2Proof.Machine.execD2dRetrain d l s
  | .atomicDivert => Sys2Proof.Machine.execAtomicDivert s
  | .opsanAccess o => Sys2Proof.Machine.execOpsanAccess o s
  | .cxlFenceInvalidate p dirty => Sys2Proof.Machine.execCxlFenceInvalidate p dirty s
  | .guestDiscovery g => Sys2Proof.Machine.execGuestDiscovery g s
  | .guestPowerSample ms us => Sys2Proof.Machine.execGuestPowerSample ms us s
  | .powerInterval m => Sys2Proof.Machine.execPowerInterval m s
  | .pauseResumeIssue p => Sys2Proof.Machine.execPauseResumeIssue p s
  | .oppChange p => Sys2Proof.Machine.execOppChange p s
  | .peakLimiter p mw => Sys2Proof.Machine.execPeakLimiter p mw s
  | .droopDetect g mv n => Sys2Proof.Machine.execDroopDetect g mv n s
  | .thermalSample t => Sys2Proof.Machine.execThermalSample t s
  | .budgetMessage d b => Sys2Proof.Machine.execBudgetMessage d b s
  | .pwrCapWrite v => Sys2Proof.Machine.execPwrCapWrite v s
  | .learnClear => Sys2Proof.Machine.execLearnClear s
  | .quiesceSave b => Sys2Proof.Machine.execQuiesceSave b s
  | .saveComplete b => Sys2Proof.Machine.execSaveComplete b s
  | .pointCommit p => Sys2Proof.Machine.execPointCommit p s
  | .rollback p => Sys2Proof.Machine.execRollback p s
  | .ceReport f => Sys2Proof.Machine.execCeReport f s
  | .ceWindow site => Sys2Proof.Machine.execCeWindow site s
  | .ueConsumed f => Sys2Proof.Machine.execUeConsumed f s
  | .errInjectArm v => Sys2Proof.Machine.execErrInjectArm v s
  | .hostLoss => Sys2Proof.Machine.execHostLoss s
  | .mgtRestart r => Sys2Proof.Machine.execMgtRestart r s
  | .mgtCheck check ok => Sys2Proof.Machine.execMgtCheck check ok s
  | .auxPowerOn strap => Sys2Proof.Machine.execAuxPowerOn strap s
  | .auxLoss => Sys2Proof.Machine.execAuxLoss s
  | .mainPresent => Sys2Proof.Machine.execMainPresent s
  | .mainLoss => Sys2Proof.Machine.execMainLoss s
  | .pkgResetAssert => Sys2Proof.Machine.execPkgResetAssert s
  | .pkgResetRelease scanning => Sys2Proof.Machine.execPkgResetRelease scanning s
  | .boot b => Sys2Proof.Machine.execBoot b s
  | .stageImage x => Sys2Proof.Machine.execStageImage x s
  | .activate flashOk => Sys2Proof.Machine.execActivate flashOk s
  | .confirm flashOk => Sys2Proof.Machine.execConfirm flashOk s
  | .abandonGraft flashOk => Sys2Proof.Machine.execAbandonGraft flashOk s
  | .writeSettings flashOk => Sys2Proof.Machine.execWriteSettings flashOk s
  | .attest sig flashOk => Sys2Proof.Machine.execAttest sig flashOk s
  | .graftWindowEnd flashOk => Sys2Proof.Machine.execGraftWindowEnd flashOk s
  | .status => Sys2Proof.Machine.execStatus s
  | .reset => Sys2Proof.Machine.execReset s
  | .read off => Sys2Proof.Machine.execRead off s
  | .recoveryWrite off n data => Sys2Proof.Machine.execRecoveryWrite off n data s
  | .recoveryDone len x => Sys2Proof.Machine.execRecoveryDone len x s
  | .i3cIbi f => Sys2Proof.Machine.execI3cIbi f s
  | .tftpWrite data x => Sys2Proof.Machine.execTftpWrite data x s
  | .tapDieEnter d => Sys2Proof.Machine.execTapDieEnter d s
  | .tapDieLeave d => Sys2Proof.Machine.execTapDieLeave d s
  | .tapReset => Sys2Proof.Machine.execTapReset s
  | .standinSwitch => Sys2Proof.Machine.execStandinSwitch s
  | .extest d drive pads => Sys2Proof.Machine.execExtest d drive pads s
  | .samplePreload d load pads => Sys2Proof.Machine.execSamplePreload d load pads s
  | .idcode d => Sys2Proof.Machine.execIdcode d s
  | .clamp d => Sys2Proof.Machine.execClamp d s
  | .highz d => Sys2Proof.Machine.execHighz d s
  | .ijtag d => Sys2Proof.Machine.execIjtag d s
  | .stack d ports => Sys2Proof.Machine.execStack d ports s
  | .laneLoop d => Sys2Proof.Machine.execLaneLoop d s
  | .bypass d => Sys2Proof.Machine.execBypass d s
  | .guestRequest g => Sys2Proof.Machine.execGuestRequest g s
  | .pcieDma d => Sys2Proof.Machine.execPcieDma d s
  | .snoopResponse id lo hi => Sys2Proof.Machine.execSnoopResponse id lo hi s
  | .iofenceC id => Sys2Proof.Machine.execIofenceC id s
  | .dynamicAddressAssignment a => Sys2Proof.Machine.execDynamicAddressAssignment a s
  | .e2eAckTimer src chan => Sys2Proof.Machine.execE2eAckTimer src chan s
  | .groveLaunchStart p => Sys2Proof.Machine.execGroveLaunchStart p s

end Sys2Proof.Machine
end

