-- ==== Sys2Proof/Machine/Tick.lean ====
section
/-!
DEFINITION. One cycle of the package, which passes when no command waits (DESIGN CHOICE, log entry 46): 1/64 of a tick. Every bed that is
not frozen takes one CLK_ARITH cycle: its cores issue, its scratchpad accesses are made, results arrive and presentations begin; and
waiting is counted. At a tick boundary what takes effect there does so (R23).
-/

namespace Sys2Proof.Machine

/-! ## Results that arrive (R77, R78) -/

/-- A word written by a core in its own CSR page (R92). -/
def coreCsr (c off : Nat) (v : BitVec 64) (s : State) : State :=
  let o := off / 8 * 8
  let at1 (b : Block) (x : Nat) : State := (regsAt b c x 8).foldl (fun z a =>
    let y := csrBits a x 8 255 v.toNat
    if y.2 = 0 then z else writeAt a .core y.1 y.2 z) s
  if o < 0x400 then at1 .core o else if o < 0x800 then at1 .grid (o - 0x400) else at1 .spad (o - 0x800)

/-- A result reaches its destination; a rise of a tile flag is an event of its cycle (R94). -/
def landOne (c : Nat) (s : State) (i : Infl) : State :=
  match i.dst with
  | .x r v => s.putCore c ((s.core c).wx r v)
  | .v r v mask => s.putCore c ((s.core c).wv r v mask)
  | .m r v mask => s.putCore c ((s.core c).wm r v mask)
  | .flag f _ => riseFlag c f s
  | .csr off v => coreCsr c off.toNat v s

/-- Whether a result is a rise of a tile flag. -/
def Infl.isFlag (i : Infl) : Bool :=
  match i.dst with
  | .flag _ _ => true
  | _ => false

/-- The results of core `c` due by active cycle `t` that are rises of flags, or those that are not. -/
def landDue (c t : Nat) (flags : Bool) (s : State) : State :=
  let k := s.core c
  let now (i : Infl) : Bool := decide (i.due ≤ t) && decide (i.isFlag = flags)
  (sortInfl (k.infl.filter now)).foldl (landOne c) (s.putCore c { k with infl := k.infl.filter fun i => !now i })

/-! ## Issue (R76, R101, R107) -/

/-- The command of one slot of the bundle of a core issues, where no command has issued it before. -/
def runSlot (c : Nat) (s : State) (slot : Slot) : State :=
  match bundleNow c s with
  | none => s
  | some w =>
    match exec (slotCmd (coreId c) slot w) s with
    | .next t => t
    | _ => s

/-- A core in its cycle: it issues its bundle, all five slots together, or waits (R76). -/
def issueCore (c : Nat) (s0 : State) : State :=
  let s := holdCore c s0
  if canOpen c s || ((s.core c).bundleAt (actOf c s)).isSome then [Slot.grid, .vec, .scalar, .lm, .sync].foldl (runSlot c) s else s

/-! ## A cycle of a bed -/

/-- The cores of a bed that are not at rest. -/
def coresIn (b : Nat) (s : State) : List Nat := (s.cores.filter fun e => decide (e.1 / 64 = b)).map (·.1)

/-- The counters of a core that waits (R107). -/
def stallCore (c : Nat) (s : State) : State :=
  match coreWait c s with
  | 1 => incF F.CORE_STALL_FLAG_COUNT c 0 1 s
  | 2 => incF F.CORE_STALL_SYNC_COUNT c 0 1 s
  | 3 => incF F.CORE_STALL_IB_COUNT c 0 1 s
  | _ => s

/-- The counters of a bed whose cores wait (R107, R221). -/
def stallBed (b : Nat) (l : List Nat) (s : State) : State :=
  let s1 := if l.any (fun c => decide (coreWait c s = 3)) then incF F.CORE_BSQ_STARVE_COUNT b 0 1 s else s
  brwStall b (l.foldl (fun z c => stallCore c z) s1)

/-- A core enters active cycle `t`: results arrive, a presentation begins, a skip runs out (R43, R77, R97). -/
def enterCycle (c t : Nat) (s : State) : State :=
  let s1 := startPres c t (landDue c t false s)
  let k := s1.core c
  s1.putCore c { k with skip := k.skip - 1 }

/-- The scratchpad accesses of a bed in cycle `t`: every read sees the values from before the cycle, and of the writes those of the outside
masters are stored first (R111, R113). -/
def bedAccess (t : Nat) (l : List Nat) (s : State) : State :=
  let gs := l.map fun c => (c, grants c t s [] ((s.core c).accsAt t))
  let s1 := l.foldl (fun z c => flushLate c z) (l.foldl (fun z c => readTick c t z) s)
  gs.foldl (fun z e => writeTick e.1 t e.2 z) s1

/-- The outside masters of a bed in a cycle, which a fallow cycle does not stop (R111). -/
def bedOutside (b : Nat) (s : State) : State := (coresIn b s).foldl (fun z c => outsideTick c z) s

/-- One active cycle of a bed: a level 0 SYNC that is due releases, its cores issue or wait and make their accesses, rises of flags
arrive, and the next cycle begins. -/
def bedCycle (b : Nat) (s0 : State) : State :=
  let s := if (coresIn b s0).any (fun c => atBedSync c s0) then bedRelease b s0 else s0
  let t := (s.bed b).act
  let s1 := bedOutside b ((coresIn b s).foldl (fun z c => issueCore c z) s)
  let l := coresIn b s1
  let s2 := l.foldl (fun z c => landDue c t true z) (bedAccess t l (stallBed b l s1))
  let s3 := s2.putBed b { s2.bed b with act := t + 1 }
  l.foldl (fun z c => enterCycle c (t + 1) z) s3

/-- A cycle in which the cores of a bed stand still: its outside masters go on, and a core that waits on a flag still waits (R221). -/
def bedStill (b : Nat) (s : State) : State :=
  let s1 := bedOutside b s
  (coresIn b s1).foldl (fun z c => flushLate c z) (brwStall b s1)

/-- Cycles spent by requests of a bed on a fault record and on an invalidation (R252), and by writes on the merging buffer (R140). -/
def waitCount (b : Nat) (s : State) : State :=
  let asks (w : Asker) : Bool := match w with
    | .barrow x => decide (x.val = b)
    | .bsq x => decide (x.val = b)
    | _ => false
  let s1 := if s.faults.any (fun f => f.waiters.any fun w => asks w.who) then incF F.XLT_UTLB_FAULT_CYCLES_COUNT b 0 1 s else s
  let s2 := if s1.xinvs.any (fun x => x.waiting.contains b) then incF F.XLT_UTLB_DRAIN_CYCLES_COUNT b 0 1 s1 else s1
  if (s2.bed b).mergeWait.isEmpty then s2 else incF F.BEDC_MERGE_FULL_COUNT b 0 1 s2

/-- The cycles that a running bed takes in an interval, by plot, partition and phase (R352). -/
def countRan (b : Nat) (s : State) : State :=
  let k := s.bed b
  let key := (32 * plotOf b + k.part) * 256 + k.phase.toNat
  let w := s.power
  { s with power := { w with ran := lput w.ran key ((look w.ran key).getD 0 + 1) } }

/-- One cycle of a bed, frozen or not; the events of the cycle on its tile flags take effect, and a launch that has started counts it
(R94, R354). -/
def bedTick (b : Nat) (s : State) : State :=
  let s1 := waitCount b s
  let s2 := if bedFrozen b s1 then bedStill b s1 else
    let z := bedCycle b s1
    if (z.bed b).running then countRan b z else z
  let s3 := (coresIn b s2).foldl (fun z c => settleFlags c z) s2
  let k := s3.bed b
  if k.running && k.go then s3.putBed b { k with cyc := k.cyc + 1 } else s3

/-! ## The package -/

/-- A fallow cycle of a plot (R354, R365): one of a running bed, or of a change of its point. -/
def plotFallow (p : Nat) (s : State) : Bool :=
  glide p s || s.beds.any fun e => decide (plotOf e.1 = p) && e.2.running &&
    fallowCycle (getF F.CORE_BSQ_CTRL_FALLOW e.1 0 s) e.2.cyc

/-- Cycles in which an add waits for an entry of an ordered-add buffer (R195). -/
def oaddWaitCount (s : State) : State :=
  (List.range 24).foldl (fun z st =>
    if z.net.any fun r => r.oaddMark && decide (r.st = .waiting) && decide (reqStack r z = some st) then
      incF F.STK_OADD_FULL_COUNT st 0 1 z else z) s

/-- A fallow duty takes effect (R354). -/
def fallowNow (b : Nat) (s : State) : State :=
  let k := s.bed b
  let f := if k.running then fallowOf k.part s else 0
  setF F.PWR_BG_FALLOW (plotOf b) (bgOf b % 16) f (setF F.CORE_BSQ_CTRL_FALLOW b 0 f s)

/-- What happens at a tick boundary. -/
def tickBoundary (s : State) : State :=
  let s1 := (s.beds.map (·.1)).foldl (fun z b => fallowNow b z) s
  let s2 := (List.range 16).foldl (fun z n => portCounts n z) ((List.range 32).foldl (fun z p => noteReadyTick p z) s1)
  tryReset (graftSettle true (settleUnlock (shelfTick (wokenTick (pauseTick (stopTick s2))))))

/-- One cycle of the package. -/
def cycle (s : State) : State :=
  let bs := s.beds.map (·.1)
  let s1 := (List.range 12).foldl (fun z p => if plotFallow p z then incF F.PWR_FALLOW_CYCLES_COUNT p 0 1 z else z) s
  let s2 := bs.foldl (fun z b => bedTick b z) s1
  let s3 := releaseHeld (logTick (retentionTick (partTick (if s2.cyc % 2 = 1 then oaddWaitCount s2 else s2))))
  let s4 := { s3 with cyc := s3.cyc + 1 }
  if s4.cyc % 64 = 0 then tickBoundary s4 else s4

end Sys2Proof.Machine
end

