-- ==== Sys2Proof/WellFormed.lean ====
section
/-!
DEFINITION. Which commands can reach the block at all: the lengths that no request, message or transfer can exceed. Every other
bound of an operand is the bound of its type.
-/

namespace Sys2Proof

/-- An access of `n` bytes at `addr` lies within one aligned 128-byte line (R118, R295). -/
def oneLine (addr n : Nat) : Bool := decide (1 ≤ n) && decide (addr % 128 + n ≤ 128)

/-- An access to a register window (R118): one under way was checked when it was made. -/
def CsrIn.wf : CsrIn → Bool
  | .under _ => true
  | .direct _ addr n _ _ => oneLine addr.toNat n

/-- A scratchpad access lies within one line (R118). -/
def SpadIn.wf : SpadIn → Bool
  | .under _ => true
  | .direct r => oneLine r.off.toNat r.len

/-- A DMA access lies within one line; one that its device context does not permit reaches none (R334). -/
def DmaF.wf (d : DmaF) : Bool :=
  match d.pa with
  | some pa => oneLine pa.toNat d.len
  | none => true

/-- A message's bytes lie within one line (R295). -/
def MsgHdr.wf (h : MsgHdr) : Bool := oneLine h.addr.toNat h.len

/-- A command is well formed: an access lies in one line (R118, R295, R331, R334, R338), and a RECOVERY_WRITE carries at most 240 bytes
(R437). Every other command is. -/
def Instr.wf : Instr → Bool
  | .registerWrite x => x.wf
  | .registerReadClear x => x.wf
  | .spadOutsideAccess _ x => x.wf
  | .msgRead _ h => h.wf
  | .msgWrite _ h _ => h.wf
  | .msgAtomic _ h _ _ _ => h.wf
  | .opsanAccess o => oneLine o.pa.toNat o.len
  | .pcieDma d => d.wf
  | .guestRequest g => oneLine g.va.toNat g.len
  | .recoveryWrite _ n _ => decide (n ≤ 240)
  | _ => true

/-- The core and the slot of a bundle that a command issues in, for the commands that are slots of a bundle (R80, R81). -/
def Instr.slotOf : Instr → Option (Nat × Slot)
  | .nop c slot => some (c.val, slot)
  | .order c _ => some (c.val, .grid)
  | .vadd c _ => some (c.val, .vec)
  | .vsub c _ => some (c.val, .vec)
  | .vmul c _ => some (c.val, .vec)
  | .vfma c _ => some (c.val, .vec)
  | .vmin c _ => some (c.val, .vec)
  | .vmax c _ => some (c.val, .vec)
  | .vabs c _ => some (c.val, .vec)
  | .vneg c _ => some (c.val, .vec)
  | .vcmplt c _ => some (c.val, .vec)
  | .vcmple c _ => some (c.val, .vec)
  | .vcmpeq c _ => some (c.val, .vec)
  | .vsel c _ => some (c.val, .vec)
  | .vand c _ => some (c.val, .vec)
  | .vor c _ => some (c.val, .vec)
  | .vxor c _ => some (c.val, .vec)
  | .vcvt c _ => some (c.val, .vec)
  | .vexp2 c _ => some (c.val, .vec)
  | .vlog2 c _ => some (c.val, .vec)
  | .vrcp c _ => some (c.val, .vec)
  | .vrsqrt c _ => some (c.val, .vec)
  | .vsqrt c _ => some (c.val, .vec)
  | .vtanh c _ => some (c.val, .vec)
  | .vred c _ => some (c.val, .vec)
  | .vhalf c _ => some (c.val, .vec)
  | .vperm c _ => some (c.val, .vec)
  | .vadd128 c _ => some (c.val, .vec)
  | .vld c _ => some (c.val, .vec)
  | .vst c _ => some (c.val, .vec)
  | .vgather c _ => some (c.val, .vec)
  | .vscatter c _ => some (c.val, .vec)
  | .vbcasti c _ => some (c.val, .vec)
  | .vfromx c _ => some (c.val, .vec)
  | .vtox c _ => some (c.val, .vec)
  | .add c _ => some (c.val, .scalar)
  | .sub c _ => some (c.val, .scalar)
  | .and c _ => some (c.val, .scalar)
  | .or c _ => some (c.val, .scalar)
  | .xor c _ => some (c.val, .scalar)
  | .sll c _ => some (c.val, .scalar)
  | .srl c _ => some (c.val, .scalar)
  | .sra c _ => some (c.val, .scalar)
  | .mul c _ => some (c.val, .scalar)
  | .mulhu c _ => some (c.val, .scalar)
  | .min c _ => some (c.val, .scalar)
  | .max c _ => some (c.val, .scalar)
  | .minu c _ => some (c.val, .scalar)
  | .maxu c _ => some (c.val, .scalar)
  | .slt c _ => some (c.val, .scalar)
  | .sltu c _ => some (c.val, .scalar)
  | .sel c _ => some (c.val, .scalar)
  | .addi c _ => some (c.val, .scalar)
  | .andi c _ => some (c.val, .scalar)
  | .ori c _ => some (c.val, .scalar)
  | .xori c _ => some (c.val, .scalar)
  | .slli c _ => some (c.val, .scalar)
  | .srli c _ => some (c.val, .scalar)
  | .srai c _ => some (c.val, .scalar)
  | .lui c _ => some (c.val, .scalar)
  | .csrr c _ => some (c.val, .scalar)
  | .ldx c _ _ _ => some (c.val, .lm)
  | .stx c _ _ _ => some (c.val, .lm)
  | .copy c _ => some (c.val, .lm)
  | .fill c _ => some (c.val, .lm)
  | .csrw c _ _ => some (c.val, .lm)
  | .waitf c _ _ => some (c.val, .sync)
  | .post c _ _ => some (c.val, .sync)
  | .sync c _ => some (c.val, .sync)
  | .skip c _ => some (c.val, .sync)
  | .loop c _ => some (c.val, .sync)
  | .kick c _ => some (c.val, .sync)
  | .phase c _ => some (c.val, .sync)
  | .halt c => some (c.val, .sync)
  | _ => none

end Sys2Proof
end

