-- ==== Sys2Proof/Safety.lean ====
section
/-!
DEFINITION. What a sound state of the block is, in the terms the claims use.
-/

namespace Sys2Proof.Machine

/-- The canonical form of a memory: addresses strictly rising, and no entry equal to what an unlisted address reads as (0, log
entry 2). -/
def Memory.wf (m : List Host.Cell) : Bool := swf 0 m

/-- A sound state: memory and scratchpads, the patterns of their bad granules, the registers and the units are each held in their one
canonical form, and the error log holds at most 256 entries (R402). -/
structure Sound (s : State) : Prop where
  mem : Memory.wf s.mem
  spad : Memory.wf s.spad
  memErr : swf 0 s.memErr
  spadErr : swf 0 s.spadErr
  regs : swf 0 s.regs
  cores : swf Core.reset s.cores
  beds : swf Bed.reset s.beds
  stks : swf Stack.reset s.stks
  parts : swf Part.reset s.parts
  rings : swf Ring.reset s.rings
  shelf : swf Shelf.reset s.shelf
  ports : swf Port.reset s.ports
  dlinks : swf Port.reset s.dlinks
  levels : swf 0 s.levels
  wakes : swf 0 s.wakes
  faultGens : swf 0 s.faultGens
  log : s.log.length ≤ 256

/-- A sound state in which core `c` takes command `i` in a slot: the bundle of its cycle is open with the slot unused, or can open, and
the bundle's slot spells `i` (R76, R80, R97, R99, R101). -/
def Takes (c : Nat) (slot : Slot) (i : Instr) (s : State) : Prop := Sound s ∧ canIssue c slot i s = true

end Sys2Proof.Machine
end

