-- ==== Sys2Proof/Certificates/Slice0/Obligations.lean ====
section
/-!
DEFINITION. The statements for the provers.
-/

open Sys2Proof Sys2Proof.Machine

/-- A step runs the command at the front of the queue. For every command c, every list of waiting commands and every state s, a
step of s with c at the front of its queue is exec of c on s with the rest of the queue. The queue is the model's own way of
taking commands. -/
def Obligations.StepRunsFront : Prop :=
  ∀ (c : Instr) (rest : List Instr) (s : State),
    step { s with pending := c :: rest } = exec c { s with pending := rest }

/-- With no command waiting a step is one cycle of the clock. With an empty queue a step answers a next state, that of one cycle
of the clock, in which no command waits either. That an idle step is one cycle is the model's choice (log entry 46). -/
def Obligations.IdleStepRuns : Prop :=
  ∀ s : State, s.pending = [] → step s = .next (cycle s) ∧ (cycle s).pending = []

/-- Every well-formed command runs, and an ill-formed one stops by name. For every command c and every state: where c is well
formed (its access lies in one 128-byte line, its RECOVERY_WRITE carries at most 240 bytes) exec answers a next state; where
it is not, exec stops with the fault illFormed. No command of the table is refused. -/
def Obligations.EveryCommandRuns : Prop :=
  ∀ (c : Instr) (s : State), (c.wf = true → ∃ t, exec c s = .next t) ∧
    (c.wf = false → ∃ what, exec c s = .fault (.illFormed what))

/-- Every step keeps a sound state sound. For every state s that is sound (memory, scratchpads, the patterns of their bad
granules, the registers and every table of units in their canonical form, at most 256 entries in the error log), if a step
of s answers a next state, that state is sound. This holds for every command at the front of the queue and for an idle step. -/
def Obligations.SoundnessKept : Prop :=
  ∀ s t : State, Sound s → step s = .next t → Sound t

/-- The state after reset is sound. The state after reset is sound: its memory, scratchpads, registers and tables of units are
in canonical form, and its error log holds at most 256 entries. -/
def Obligations.ResetIsSound : Prop := Sound State.reset

/-- No command touches the queue of waiting commands. For every command c and all states s and t, if exec of c on s answers next
t, the commands that wait in t are those that wait in s. The queue is the model's own. -/
def Obligations.QueueLeftAlone : Prop :=
  ∀ (c : Instr) (s t : State), exec c s = .next t → t.pending = s.pending

/-- The register-form scalar operations (03_core_program.md R76, 03_core_program.md R77, 03_core_program.md R91). -/
def Obligations.ScalarRegisterForms : Prop :=
  ∀ (c : CoreId) (r : ScR) (s : State),
    let a := (s.core c).rx r.xs1
    let b := (s.core c).rx r.xs2
    let n := b.toNat % 64
    let gives (i : Instr) (lat : Nat) (v : BitVec 64) : Prop :=
      Takes c .scalar i s → exec i s = .next (deliver c lat 2 (.x r.xd v) (beginSlot c .scalar s))
    gives (.add c r) 1 (BitVec.ofNat 64 (a.toNat + b.toNat)) ∧
    gives (.sub c r) 1 (BitVec.ofInt 64 (a.toNat - b.toNat : Int)) ∧
    gives (.and c r) 1 (BitVec.ofNat 64 (a.toNat &&& b.toNat)) ∧
    gives (.or c r) 1 (BitVec.ofNat 64 (a.toNat ||| b.toNat)) ∧
    gives (.xor c r) 1 (BitVec.ofNat 64 (a.toNat ^^^ b.toNat)) ∧
    gives (.sll c r) 1 (BitVec.ofNat 64 (a.toNat * 2 ^ n)) ∧
    gives (.srl c r) 1 (BitVec.ofNat 64 (a.toNat / 2 ^ n)) ∧
    gives (.sra c r) 1 (BitVec.ofInt 64 (a.toInt / 2 ^ n)) ∧
    gives (.mul c r) 3 (BitVec.ofNat 64 (a.toNat * b.toNat)) ∧
    gives (.mulhu c r) 3 (BitVec.ofNat 64 (a.toNat * b.toNat / 2 ^ 64)) ∧
    gives (.min c r) 1 (if a.toInt < b.toInt then a else b) ∧
    gives (.max c r) 1 (if a.toInt < b.toInt then b else a) ∧
    gives (.minu c r) 1 (if a.toNat < b.toNat then a else b) ∧
    gives (.maxu c r) 1 (if a.toNat < b.toNat then b else a) ∧
    gives (.slt c r) 1 (if a.toInt < b.toInt then 1 else 0) ∧
    gives (.sltu c r) 1 (if a.toNat < b.toNat then 1 else 0) ∧
    gives (.sel c r) 1 (if (s.core c).rx r.xd ≠ 0 then a else b)

/-- The immediate-form scalar operations (03_core_program.md R76, 03_core_program.md R77, 03_core_program.md R91). -/
def Obligations.ScalarImmediateForms : Prop :=
  ∀ (c : CoreId) (r : ScI) (s : State),
    let a := (s.core c).rx r.xs1
    let i := r.imm.toInt
    let m := (i % 2 ^ 64).toNat
    let n := r.imm.toNat % 64
    let gives (i : Instr) (lat : Nat) (v : BitVec 64) : Prop :=
      Takes c .scalar i s → exec i s = .next (deliver c lat 2 (.x r.xd v) (beginSlot c .scalar s))
    gives (.addi c r) 1 (BitVec.ofInt 64 (a.toInt + i)) ∧
    gives (.andi c r) 1 (BitVec.ofNat 64 (a.toNat &&& m)) ∧
    gives (.ori c r) 1 (BitVec.ofNat 64 (a.toNat ||| m)) ∧
    gives (.xori c r) 1 (BitVec.ofNat 64 (a.toNat ^^^ m)) ∧
    gives (.slli c r) 1 (BitVec.ofNat 64 (a.toNat * 2 ^ n)) ∧
    gives (.srli c r) 1 (BitVec.ofNat 64 (a.toNat / 2 ^ n)) ∧
    gives (.srai c r) 1 (BitVec.ofInt 64 (a.toInt / 2 ^ n)) ∧
    gives (.lui c r) 1 (BitVec.ofInt 64 (i * 2 ^ 24)) ∧
    gives (.csrr c r) 2 (coreWord c (r.imm.toNat % 4096) (beginSlot c .scalar s))

/-- What taking a slot command changes (03_core_program.md R76, 03_core_program.md R97). -/
def Obligations.IssueFrame : Prop :=
  ∀ (c : Nat) (slot : Slot) (s : State), Sound s →
    let t := beginSlot c slot s
    let k := s.core c
    let n := nextPc k.loops k.pc.toNat
    (∀ o, k.bundleAt (actOf c s) = some o → t = s.putCore c { k with opened := some { o with used := slot :: o.used } }) ∧
    (k.bundleAt (actOf c s) = none →
      t.core c = { k with
        opened := some ⟨actOf c s, k.pc, k.bundle.getD 0, k.loops, slot :: if k.passed then [.sync] else []⟩,
        pc := BitVec.ofNat 32 n.1, loops := n.2, wait := .none, passed := false } ∧
      getF F.CORE_ISSUED_COUNT c 0 t = min (getF F.CORE_ISSUED_COUNT c 0 s + 1) (2 ^ F.CORE_ISSUED_COUNT.w - 1)) ∧
    (∀ d, d ≠ c → t.core d = s.core d) ∧
    (∀ r u i, regKey r u i ≠ regKey F.CORE_ISSUED_COUNT.reg c 0 → readReg r u i t = readReg r u i s) ∧
    t = { s with cores := t.cores, regs := t.regs }

/-- A core takes the slot commands that its bundle spells, and no other (03_core_program.md R76, 03_core_program.md R80,
03_core_program.md R81, 03_core_program.md R93, 03_core_program.md R97, 03_core_program.md R99, 03_core_program.md R101). -/
def Obligations.SlotNotTaken : Prop :=
  (∀ (c : CoreId) (slot : Slot) (w : BitVec 256), (slotCmd c slot w).slotOf = some (c.val, slot)) ∧
  ∀ (i : Instr) (c : CoreId) (slot : Slot) (s : State), i.slotOf = some (c.val, slot) → canIssue c slot i s = false →
    ((∃ f keep, i = .waitf c f keep) ∨ (∃ level, i = .sync c level) →
      (bundleNow c s).map (slotCmd c slot) ≠ some i ∨ ((s.core c).bundleAt (actOf c s)).isSome = true ∨ atBundle c s = false) →
    exec i s = .next s

/-- Where results in flight arrive (03_core_program.md R77, 03_core_program.md R84, 03_core_program.md R91, 03_core_program.md
R94). -/
def Obligations.ResultsArrive : Prop :=
  ∀ (c due issue prio : Nat) (s : State), Sound s →
    (∀ (r q : BitVec 5) (v : BitVec 64),
      ((landOne c s ⟨due, issue, prio, .x r v⟩).core c).rx q = if q = 0 then 0 else if q = r then v else (s.core c).rx q) ∧
    (∀ (r q : BitVec 5) (v m : BitVec 512),
      ((landOne c s ⟨due, issue, prio, .v r v m⟩).core c).rv q =
        if q = r then (v &&& m) ||| ((s.core c).rv r &&& ~~~m) else (s.core c).rv q) ∧
    (∀ (r q : BitVec 3) (v m : BitVec 64),
      ((landOne c s ⟨due, issue, prio, .m r v m⟩).core c).rm q =
        if q = 0 then BitVec.allOnes 64 else if q = r then (v &&& m) ||| ((s.core c).rm r &&& ~~~m) else (s.core c).rm q) ∧
    (∀ (f : BitVec 5) (b : Bool), (landOne c s ⟨due, issue, prio, .flag f b⟩).core c =
      { s.core c with rises := f :: (s.core c).rises }) ∧
    (let k := s.core c
     let sum (g : BitVec 5) := k.flag g + k.rises.count g - (if k.took = some g then 1 else 0)
     let t := settleFlags c s
     (∀ g, (t.core c).flag g = min 63 (sum g)) ∧ (t.core c).rises = [] ∧ (t.core c).took = none ∧
     (bitF F.CORE_STATUS_FLAG_OVF c 0 t = true ↔ bitF F.CORE_STATUS_FLAG_OVF c 0 s = true ∨ ∃ g, 63 < sum g) ∧
     ∀ d, d ≠ c → t.core d = s.core d) ∧
    (∀ (i : Infl) (d : Nat), d ≠ c → (∀ o v, i.dst ≠ .csr o v) → (landOne c s i).core d = s.core d)

/-- The lane-wise vector operations (03_core_program.md R77, 03_core_program.md R84, 03_core_program.md R85, 03_core_program.md
R87, 03_core_program.md R88, 03_core_program.md R90). -/
def Obligations.VectorLaneForms : Prop :=
  ∀ (c : CoreId) (a : VecA) (v : VecI) (x : VecX) (s : State),
    let k := s.core c
    let w := vtWidth a.vt
    let n := vtLanes a.vt
    let src (r : BitVec 5) (l : Nat) := lane w (k.rv r).toNat l
    let f (l : Nat) := vtDecode a.vt (src a.vs1 l)
    let g (l : Nat) := vtDecode a.vt (src a.vs2 l)
    let i (l : Nat) := intOf w (src a.vs1 l)
    let j (l : Nat) := intOf w (src a.vs2 l)
    let out (vd : BitVec 5) (m : BitVec 3) (lat w n : Nat) (p : Nat → Nat × FpFlags) (i : Instr) : Prop :=
      Takes c .vec i s → ∃ val mask : BitVec 512,
        exec i s = .next (fpFlags c (laneFlags n (k.rm m) p) (deliver c lat 0 (.v vd val mask) (beginSlot c .vec s))) ∧
        ∀ l < n, lane w val.toNat l = (p l).1 % 2 ^ w ∧
          lane w mask.toNat l = if (k.rm m).getLsbD l then 2 ^ w - 1 else 0
    out a.vd a.mask 3 w n (fun l => laneResult a.vt a.sat (Fval.add .near (f l) (g l)) (i l + j l)) (.vadd c a) ∧
    out a.vd a.mask 3 w n (fun l => laneResult a.vt a.sat (Fval.add .near (f l) (g l).negate) (i l - j l)) (.vsub c a) ∧
    out a.vd a.mask 4 w n (fun l => laneResult a.vt a.sat ((f l).mul (g l)) (i l * j l)) (.vmul c a) ∧
    out a.vd a.mask 4 w n (fun l => laneResult a.vt a.sat
      (Fval.add .near ((f l).mul (g l)) (vtDecode a.vt (src a.vs3 l))) (i l * j l + intOf w (src a.vs3 l))) (.vfma c a) ∧
    out a.vd a.mask 3 w n (fun l => laneResult a.vt a.sat
      (minMax false (src a.vs1 l) (src a.vs2 l) (f l) (g l)) (min (i l) (j l))) (.vmin c a) ∧
    out a.vd a.mask 3 w n (fun l => laneResult a.vt a.sat
      (minMax true (src a.vs1 l) (src a.vs2 l) (f l) (g l)) (max (i l) (j l))) (.vmax c a) ∧
    out a.vd a.mask 3 w n (fun l => laneResult a.vt a.sat (f l).abs (i l).natAbs) (.vabs c a) ∧
    out a.vd a.mask 3 w n (fun l => laneResult a.vt a.sat (f l).negate (-(i l))) (.vneg c a) ∧
    out a.vd a.mask 8 w n (fun l => if l % 2 ^ (a.rnd.toNat + 1) = 0 then
      redTree (combine a.aux a.vt a.sat) (src a.vs1) (a.rnd.toNat + 1) l else (0, .none)) (.vred c a) ∧
    out a.vd a.mask 8 w n (fun l => combine a.aux a.vt a.sat (src a.vs1 (l % (n / 2))) (src a.vs1 (l % (n / 2) + n / 2)))
      (.vhalf c a) ∧
    out a.vd a.mask 4 w n (fun l => (src a.vs1 (lane 8 (k.rv a.vs2).toNat l % 64 % n), .none)) (.vperm c a) ∧
    out a.vd a.mask 3 128 4 (fun l => (add128 a.sat (lane 128 (k.rv a.vs1).toNat l) (lane 128 (k.rv a.vs2).toNat l), .none))
      (.vadd128 c a) ∧
    out v.vd v.mask 3 (vtWidth v.vt) (vtLanes v.vt) (fun _ => (v.imm.toNat, .none)) (.vbcasti c v) ∧
    out x.vd x.mask 3 (vtWidth x.vt) (vtLanes x.vt) (fun _ => ((k.rx x.xreg).toNat, .none)) (.vfromx c x)

/-- The special functions and the conversion (03_core_program.md R85, 03_core_program.md R86, 03_core_program.md R90). -/
def Obligations.VectorSpecialForms : Prop :=
  ∀ (c : CoreId) (a : VecA) (s : State),
    let k := s.core c
    let t := specialVt a.vt
    let out (i : Instr) (f : Fval → Fval) : Prop :=
      let p (l : Nat) := specialLane f t a.sat (lane (vtWidth t) (k.rv a.vs1).toNat l)
      Takes c .vec i s → exec i s = .next (fpFlags c (laneFlags (vtLanes t) (k.rm a.mask) p)
        (deliver c 12 0 (.v a.vd (BitVec.ofNat 512 (joinLanes (vtWidth t) (vtLanes t) fun l => (p l).1))
          (laneMask (vtWidth t) (vtLanes t) (k.rm a.mask))) (beginSlot c .vec s)))
    out (.vexp2 c a) exp2Val ∧ out (.vlog2 c a) log2Val ∧ out (.vrcp c a) rcpVal ∧
    out (.vrsqrt c a) rsqrtVal ∧ out (.vsqrt c a) sqrtVal ∧ out (.vtanh c a) tanhVal ∧
    (let dt : BitVec 3 := a.vs3.setWidth 3
     let ws := vtWidth a.vt
     let wd := vtWidth dt
     let n := 512 / max ws wd
     let from0 := if wd ≤ ws then 0 else cvtPart (wd / ws) (a.aux.toNat % 4) * n
     let to0 := if ws ≤ wd then 0 else cvtPart (ws / wd) (a.aux.toNat % 4) * n
     let p (l : Nat) := cvtLane a.vt dt (.ofBits a.rnd.toNat) a.sat (lane ws (k.rv a.vs1).toNat (from0 + l))
     let m := k.rm a.mask >>> to0
     Takes c .vec (.vcvt c a) s → exec (.vcvt c a) s = .next (fpFlags c (laneFlags n m p)
       (deliver c 4 0 (.v a.vd (BitVec.ofNat 512 (joinLanes wd n fun l => (p l).1) <<< (to0 * wd))
         (laneMask wd n m <<< (to0 * wd))) (beginSlot c .vec s))))

/-- Compares, selection and bitwise operations (03_core_program.md R84, 03_core_program.md R85, 03_core_program.md R90). -/
def Obligations.VectorCompareAndSelect : Prop :=
  ∀ (c : CoreId) (a : VecA) (x : VecX) (s : State),
    let k := s.core c
    let w := vtWidth a.vt
    let n := vtLanes a.vt
    let f (l : Nat) := vtDecode a.vt (lane w (k.rv a.vs1).toNat l)
    let g (l : Nat) := vtDecode a.vt (lane w (k.rv a.vs2).toNat l)
    let m := laneMask w n (k.rm a.mask)
    let out (i : Instr) (d : Dest) : Prop := Takes c .vec i s → exec i s = .next (deliver c 3 0 d (beginSlot c .vec s))
    let cmp (p : Nat → Bool) : Dest :=
      .m (a.vd.setWidth 3) (BitVec.ofNat 64 (joinLanes 1 n fun l => if p l then 1 else 0))
        (k.rm a.mask &&& BitVec.ofNat 64 (2 ^ n - 1))
    out (.vcmplt c a) (cmp fun l => (f l).lt (g l)) ∧
    out (.vcmple c a) (cmp fun l => (f l).lt (g l) || (f l).eq (g l)) ∧
    out (.vcmpeq c a) (cmp fun l => (f l).eq (g l)) ∧
    out (.vsel c a) (.v a.vd ((k.rv a.vs1 &&& m) ||| (k.rv a.vs2 &&& ~~~m)) (BitVec.allOnes 512)) ∧
    out (.vand c a) (.v a.vd (k.rv a.vs1 &&& k.rv a.vs2) m) ∧
    out (.vor c a) (.v a.vd (k.rv a.vs1 ||| k.rv a.vs2) m) ∧
    out (.vxor c a) (.v a.vd (k.rv a.vs1 ^^^ k.rv a.vs2) m) ∧
    out (.vtox c x) (.x x.xreg (BitVec.ofNat 64
      (lane (vtWidth x.vt) (k.rv x.vd).toNat (x.lane.toNat % vtLanes x.vt))))

/-- Vector loads, stores, gathers and scatters (03_core_program.md R82, 03_core_program.md R89). -/
def Obligations.VectorMemoryForms : Prop :=
  ∀ (c : CoreId) (m : VecM) (s : State),
    let z := beginSlot c .vec s
    let k := z.core c
    let t := actOf c z
    let runs := bankRuns 4 0 (spGran k m.xbase m.gran) (min (m.ngran.toNat + 1) (4 - m.rpart.toNat))
    let lanes := (List.range 16).filter fun j => (k.rm m.mask).getLsbD j
    let adr (j : Nat) := (((spAddr k m.xbase (16 * m.gran.toNat) : Int) +
      4 * intOf 32 (lane 32 (k.rv m.vs1).toNat j)) % 32768).toNat / 4 * 4
    let gives (i : Instr) (t : State) : Prop := Takes c .vec i s → exec i s = .next t
    let held := z.putCore c { k with vmBusy := t + 16 }
    (t ≤ k.vmBusy ∧ k.vmBusy ≠ 0 → ∀ i ∈ [Instr.vld c m, .vst c m, .vgather c m, .vscatter c m],
      Takes c .vec i s → exec i s = .next (flagF F.CORE_STATUS_VEC_DROPPED c 0 z)) ∧
    (¬(t ≤ k.vmBusy ∧ k.vmBusy ≠ 0) →
      gives (.vld c m) (schedule c (runs.map fun q => ⟨t + 1, 1, q.2.1, q.2.2,
        .vread m.vd (m.rpart.toNat + q.1) (laneMask (vtWidth m.vt) (vtLanes m.vt) (k.rm m.mask)) (t + 5) t⟩) z) ∧
      gives (.vst c m) (schedule c (runs.map fun q => ⟨t + 2, 1, q.2.1, q.2.2,
        .write (BitVec.ofNat 512 ((k.rv m.vd).toNat / 2 ^ (128 * (m.rpart.toNat + q.1))))
          (BitVec.ofNat 64 (byteMask m.vt (k.rm m.mask) / 2 ^ (16 * (m.rpart.toNat + q.1)) % 2 ^ (16 * q.2.2)))⟩) z) ∧
      gives (.vgather c m) (schedule c (lanes.map fun j => ⟨t + 1 + j, 1, adr j / 16, 1,
        .lane m.vd j (adr j % 16) (t + 20) t⟩) held) ∧
      gives (.vscatter c m) (schedule c (lanes.map fun j => ⟨t + 1 + j, 1, adr j / 16, 1,
        .write (BitVec.ofNat 512 (lane 32 (k.rv m.vd).toNat j * 2 ^ (8 * (adr j % 16)))) (BitVec.ofNat 64 (onesAt (adr j % 16) 4))⟩)
        held))

/-- Local moves (03_core_program.md R82, 03_core_program.md R92). -/
def Obligations.LocalMoveForms : Prop :=
  ∀ (c : CoreId) (m : MoveF) (x base : BitVec 5) (off : BitVec 15) (word : BitVec 12) (s : State),
    let z := beginSlot c .lm s
    let k := z.core c
    let t := actOf c z
    let adr := spAddr k base off.toNat / 8 * 8
    let n := m.len.toNat
    let gives (i : Instr) (t : State) : Prop := Takes c .lm i s → exec i s = .next t
    let run (l : List Acc) : State :=
      let y := schedule c l (z.putCore c { k with lmBusy := t + 1 + n })
      if m.raise then deliver c (3 + n) 1 (.flag m.flag false) y else y
    (t ≤ k.lmBusy ∧ k.lmBusy ≠ 0 → ∀ i ∈ [Instr.ldx c x base off, .stx c x base off, .copy c m, .fill c m, .csrw c x word],
      gives i (flagF F.CORE_STATUS_LM_DROPPED c 0 z)) ∧
    (¬(t ≤ k.lmBusy ∧ k.lmBusy ≠ 0) →
      gives (.ldx c x base off) (schedule c [⟨t + 1, 2, adr / 16, 1, .xread x (adr % 16) (t + 4) t⟩] z) ∧
      gives (.stx c x base off) (schedule c [⟨t + 2, 2, adr / 16, 1,
        .write (BitVec.ofNat 512 ((k.rx x).toNat * 2 ^ (8 * (adr % 16)))) (BitVec.ofNat 64 (onesAt (adr % 16) 8))⟩] z) ∧
      gives (.copy c m) (run ((List.range (n + 1)).map fun i => ⟨t + 1 + i, 2, (spGran k m.xsrc m.srcGran + i) % 2048, 1,
        .copy ((spGran k m.xdst m.dstGran + i) % 2048)⟩)) ∧
      gives (.fill c m) (run ((List.range (n + 1)).map fun i => ⟨t + 2 + i, 2, (spGran k m.xdst m.dstGran + i) % 2048, 1,
        .write 0 (BitVec.ofNat 64 65535)⟩)) ∧
      gives (.csrw c x word) (deliver c 1 1 (.csr word (k.rx x)) z))

/-- The sync slot (03_core_program.md R81, 03_core_program.md R93, 03_core_program.md R94, 03_core_program.md R97,
03_core_program.md R98, 03_core_program.md R76, 03_core_program.md R95). -/
def Obligations.SyncSlotForms : Prop :=
  ∀ (c : CoreId) (f : BitVec 5) (keep : Bool) (target : BitVec 6) (n : BitVec 12) (tag : BitVec 8) (l : LoopF) (s : State),
    let z0 := s.core c
    let stands (i : Instr) : Prop := atBundle c s = true ∧ z0.bundleAt (actOf c s) = none ∧ z0.bundle.map (slotCmd c .sync) = some i
    (∀ level : BitVec 2, stands (.sync c level) →
      (z0.passed = false → (∀ v t, z0.wait ≠ .sync v t) →
        exec (.sync c level) s = .next (s.putCore c { z0 with wait := .sync (if level = 3 then 2 else level) (actOf c s) })) ∧
      (z0.passed = false → canOpen c s = false)) ∧
    (stands (.waitf c f keep) → z0.flag f = 0 →
      exec (.waitf c f keep) s = .next (s.putCore c { z0 with wait := .flag f keep }) ∧ canOpen c s = false) ∧
    (∀ slot, Takes c slot (.nop c slot) s → exec (.nop c slot) s = .next (beginSlot c slot s)) ∧
    (let z := beginSlot c .sync s
     let k := z.core c
     let gives (i : Instr) (t : State) : Prop := Takes c .sync i s → exec i s = .next t
     gives (.waitf c f keep) (if keep then z else z.putCore c { k with took := some f }) ∧
     gives (.post c target f) (deliver (c / 64 * 64 + target.toNat) 3 0 (.flag f false) z) ∧
     gives (.skip c n) (z.putCore c { k with skip := n.toNat + 2 }) ∧
     gives (.phase c tag) (if c.val % 64 = 0
       then (z.putCore c { k with phase := tag }).putBed (c / 64) { z.bed (c / 64) with phase := tag }
       else z.putCore c { k with phase := tag }) ∧
     gives (.halt c) (z.putCore c { k with halted := true, haltAt := actOf c z, loops := [] }) ∧
     (∀ o, k.opened = some o →
       gives (.loop c l) (if 2 ≤ o.loops.length then flagF F.CORE_STATUS_LOOP_ERR c 0 z
         else let r := openLoop o.loops o.idx.toNat (l.len.toNat + 1)
               (if l.fromx then min 4096 (k.rx (l.count.setWidth 5)).toNat else l.count.toNat)
           flagIf r.2.2 F.CORE_STATUS_LOOP_ERR c 0 (z.putCore c { k with pc := BitVec.ofNat 32 r.1, loops := r.2.1 }))))

/-- A field that is set reads back, and nothing else moves. In a sound state, for every field of a register of any unit and any
value: after hardware sets the field, it reads as the value modulo 2^w; every field of the same register whose bits do not
overlap reads as before; every other register reads as before; a counter that counts n holds the sum, held at all ones; and
nothing but the registers changes. -/
def Obligations.RegisterFields : Prop :=
  ∀ (f g : Fld) (u i x : Nat) (s : State), Sound s → f.lo + f.w ≤ 64 →
    getF f u i (setF f u i x s) = x % 2 ^ f.w ∧
    (g.reg = f.reg → g.lo + g.w ≤ f.lo ∨ f.lo + f.w ≤ g.lo → getF g u i (setF f u i x s) = getF g u i s) ∧
    (∀ r v j, regKey r v j ≠ regKey f.reg u i → readReg r v j (setF f u i x s) = readReg r v j s) ∧
    getF f u i (incF f u i x s) = min (getF f u i s + x) (2 ^ f.w - 1) ∧
    setF f u i x s = { s with regs := (setF f u i x s).regs }

/-- What a read and a write of software do to a field by its access code (00_scope.md R7, 00_scope.md R9, 00_scope.md R10). -/
def Obligations.AccessCodes : Prop :=
  ∀ (r : Reg) (f : Fld) (u i : Nat) (v m : BitVec 64) (s : State), Sound s → f ∈ r.flds →
    let old := getF f u i s
    let t := swWriteReg r u i v m s
    (m &&& f.bits = 0 → getF f u i t = old) ∧
    (m &&& f.bits = f.bits → getF f u i t = match f.acc with
      | .rw => max f.mn (min f.mx (f.of v))
      | .w1c => f.of (readReg r u i s &&& ~~~v)
      | .w1s => f.of (readReg r u i s ||| v)
      | .ro | .rc | .wo => old) ∧
    getF f u i (readClearReg r u i s) = (if f.acc = .rc then f.resetAt u i % 2 ^ f.w else old) ∧
    f.of (maskWo r.flds v) = (if f.acc = .wo then 0 else f.of v)

/-- Accesses to the CSR window complete with the status of their address (01_package.md R33, 01_package.md R34, 01_package.md
R35, 01_package.md R28, 05_memory_model.md R161, 10_grove.md R316). -/
def Obligations.WindowAnswers : Prop :=
  ∀ (id n : Nat) (l : BitVec 52) (v : BitVec 1024) (w : Who) (s : State), 1 ≤ n → l.toNat % 128 + n ≤ 128 →
    let slot := l.toNat / 2 ^ 32 % 16
    let o := l.toNat % 2 ^ 32
    let inside := l.toNat / 2 ^ 48 = 15 ∧ l.toNat % 2 ^ 48 < 2 ^ 36
    let x := CsrIn.direct id l n v w
    (¬inside → exec (.registerWrite x) s = .next (respond id .dieAbsent 0 s) ∧
      exec (.registerReadClear x) s = .next (respond id .dieAbsent 0 s)) ∧
    (∀ st, inside → csrBad slot o s = some st → exec (.registerWrite x) s = .next (respond id st 0 s) ∧
      exec (.registerReadClear x) s = .next (respond id st 0 s)) ∧
    (inside → csrBad slot o s = none →
      exec (.registerWrite x) s = .next (respond id .ok 0 (csrWrite slot o n (2 ^ n - 1) v.toNat w s)) ∧
      exec (.registerReadClear x) s = .next (respond id .ok (BitVec.ofNat 1024 (csrRead slot o n s).1) (csrRead slot o n s).2)) ∧
    (o < 0x100000 → csrBad slot o s = none) ∧
    (∀ r : Req, netGet id s = some r → isLocal r.pkg s → inCsr r.pa → r.st = .sent →
      let stop : Option Status :=
        if cutOff r.src r.pkg r.pa s then some .dieAbsent
        else match csrBad (r.pa / 2 ^ 32 % 16) (r.pa % 2 ^ 32) s with
          | some st => some st
          | none => if r.who.remote then some .pageFault else none
      (∀ st, stop = some st →
        (r.write → r.atom = none → exec (.registerWrite (.under id)) s = .next (complete r st 0 s)) ∧
        (¬r.write → r.atom = none → exec (.registerReadClear (.under id)) s = .next (complete r st 0 s))) ∧
      (stop = none →
        (r.write → r.atom = none → exec (.registerWrite (.under id)) s =
          let z := windowWrite r.pa r.len r.mask.toNat r.data.toNat r.who s
          .next (complete r z.1 0 z.2)) ∧
        (¬r.write → r.atom = none → exec (.registerReadClear (.under id)) s =
          let z := windowRead r.pa r.len s
          .next (complete r z.1 (BitVec.ofNat 1024 z.2.1) z.2.2))) ∧
      (∀ a, r.atom = some a → atomPlain a = false →
        exec (.registerWrite (.under id)) s = .next (complete r (stop.getD .pageFault) 0 s)))

/-- A written register reads back, and a clearing read clears a counter (00_scope.md R7, 01_package.md R34, 14_guard_errors.md
R404). -/
def Obligations.WrittenRegisterReadsBack : Prop :=
  ∀ (s : State) (id : Nat) (w : Who), Sound s →
    (∀ v : BitVec 64, dieState 12 s = 0 ∨ dieState 12 s = 4 → ∃ t,
      exec (.registerWrite (.direct id 0xF000C00103000 8 (v.setWidth 1024) w)) s = .next t ∧
      getF F.MGT_ERR_CTRL_IE 0 0 t = v.toNat % 2 ∧ getF F.MGT_ERR_CTRL_HOST_LOSS 0 0 t = v.toNat / 2 % 2 ∧
      getF F.MGT_ERR_CTRL_IID 0 0 t = v.toNat / 2 ^ 16 % 2 ^ 11 ∧
      (∀ r u i, regKey r u i ≠ regKey .MGT_ERR_CTRL 0 0 → readReg r u i t = readReg r u i s) ∧
      t = { s with regs := t.regs, resp := ⟨id, .ok, 0⟩ :: s.resp }) ∧
    (dieState 12 s = 0 ∨ dieState 12 s = 4 → ∃ t,
      exec (.registerReadClear (.direct id 0xF000C00103000 8 0 w)) s = .next t ∧
      t.resp = ⟨id, .ok, BitVec.ofNat 1024 (readReg .MGT_ERR_CTRL 0 0 s).toNat⟩ :: s.resp ∧
      (∀ r u i, readReg r u i t = readReg r u i s)) ∧
    (∀ (p : Fin 12) (b : Fin 400) (c : Fin 64) (v : BitVec 1024), dieState p.val s = 0 →
      let k := 25600 * p.val + 64 * b.val + c.val
      let l := BitVec.ofNat 52 (0xF000000000000 + p.val * 0x100000000 + 0x10000000 + b.val * 0x100000 + 0x80000 + c.val * 0x1000 + 0x40)
      (∃ t, exec (.registerReadClear (.direct id l 8 v w)) s = .next t ∧
        t.resp = ⟨id, .ok, BitVec.ofNat 1024 (readReg .CORE_ISSUED k 0 s).toNat⟩ :: s.resp ∧ getF F.CORE_ISSUED_COUNT k 0 t = 0 ∧
        (∀ r u i, regKey r u i ≠ regKey .CORE_ISSUED k 0 → readReg r u i t = readReg r u i s)) ∧
      (∃ t, exec (.registerWrite (.direct id l 8 v w)) s = .next t ∧ getF F.CORE_ISSUED_COUNT k 0 t = getF F.CORE_ISSUED_COUNT k 0 s))

/-- One wrong nibble of a codeword is corrected and two are reported uncorrectable. For every 128 bits of data, the codeword
that the writer forms decodes as clean; with any one of its 36 nibbles changed it decodes as a correction of exactly that
nibble by exactly that change; and with any two of its nibbles changed it decodes as uncorrectable. -/
def Obligations.GuardCode : Prop :=
  ∀ (d : BitVec 128),
    guardDecode (syndrome (codeword d)) = .clean ∧
    (∀ n x, n < 36 → 0 < x → x < 16 → guardDecode (syndrome (flipNibble (codeword d) n x)) = .correct n x) ∧
    (∀ n m x y, n < 36 → m < 36 → n ≠ m → 0 < x → x < 16 → 0 < y → y < 16 →
      guardDecode (syndrome (flipNibble (flipNibble (codeword d) n x) m y)) = .uncorrectable)

/-- The mapping of DRAM addresses to stacks, pseudo-channels, banks and rows is the stated one and a bijection (06_stacks.md
R178, 06_stacks.md R179, 06_stacks.md R180). -/
def Obligations.StackMapping : Prop :=
  let fold (b t w : Nat) : Nat := (List.range t).foldl (fun z i => z ^^^ (w / 2 ^ (b * i) % 2 ^ b)) 0
  (∀ n, wideHome n = (8 * (n % 3) + ((n / 3 % 8) ^^^ fold 3 10 (n / 3 / 8)), n / 3 / 8) ∧ (wideHome n).1 < 24) ∧
  (∀ p n, nearHome p n = (2 * p + (n ^^^ n / 2 ^ 9 ^^^ n / 2 ^ 18 ^^^ n / 2 ^ 27) % 2, n / 2)) ∧
  (∀ pa i s, regionOf pa s = some i →
    let o := pa - getF F.STK_REGION_BASE 0 i s * 2 ^ 30
    let h := if bitF F.STK_REGION_WIDE 0 i s then wideHome (o / 256) else nearHome (getF F.STK_REGION_PLOT 0 i s) (o / 256)
    homeOf pa s = some ⟨i, h.1, 256 * (getF F.STK_REGION_STACK_BASE 0 i s * 2 ^ 22 + h.2) + o % 256⟩) ∧
  (∀ w, pcOf w = fold 6 5 w ∧
    bankRow w = ((fold 6 5 w * 32 + w / 64 / 4 / 16 / 4096) * 16 + fold 4 5 (w / 64 / 4), w / 64 / 4 / 16 % 4096)) ∧
  (∀ n m, wideHome n = wideHome m → n = m) ∧
  (∀ p n m, nearHome p n = nearHome p m → n = m) ∧
  (∀ v w, v < 72 * 2 ^ 22 → w < 72 * 2 ^ 22 → bankRow v = bankRow w → v / 64 % 4 = w / 64 % 4 → v = w) ∧
  (∀ w, w < 72 * 2 ^ 22 → pcOf w < 64 ∧ (bankRow w).1 / 16 % 32 < 18 ∧ (bankRow w).2 < 4096) ∧
  wideHome 305419896 = (3, 12725829) ∧ bankRow 12725829 = ((46 * 32 + 0) * 16 + 2, 3106)

/-- What is written at a home is read there, and no other byte moves (06_stacks.md R180, 14_guard_errors.md R386,
14_guard_errors.md R396, 05_memory_model.md R161). -/
def Obligations.DramReadAfterWrite : Prop :=
  ∀ (h : Home) (pa n v : Nat) (w : Who) (s : State), Sound s → bitF F.MGT_ERR_INJ_CTL_ARM 0 0 s = false →
    1 ≤ n → h.addr % 128 + n ≤ 128 → (∀ g, sget 0 s.memErr (memKey h.stack (h.addr / 128 * 128) / 16 + g % 8) = 0) →
    let b := memKey h.stack h.addr
    let t := (homeWrite h pa w n (2 ^ n - 1) v s).2
    (homeWrite h pa w n (2 ^ n - 1) v s).1 = true ∧
    (homeRead h pa w n t).1 = some (v % 256 ^ n) ∧
    (∀ a, a < b ∨ b + n ≤ a → sget 0 t.mem a = sget 0 s.mem a) ∧
    t = { s with mem := t.mem, memErr := t.memErr, regs := t.regs, stks := t.stks } ∧
    (∀ a : Atom, a.bytes = n → h.addr % n = 0 →
      let z := homeAtomic h pa w a s
      z.1 = some (getBytes s.mem b n) ∧ getBytes z.2.mem b n = a.apply (getBytes s.mem b n) % 256 ^ n ∧
      ∀ x, x < b ∨ b + n ≤ x → sget 0 z.2.mem x = sget 0 s.mem x)

/-- A DRAM request is refused, made to wait, snooped or accepted, and finishes (06_stacks.md R176, 06_stacks.md R177,
06_stacks.md R181, 06_stacks.md R182, 06_stacks.md R186, 06_stacks.md R192, 06_stacks.md R193, 05_memory_model.md R148,
05_memory_model.md R168, 11_host_dies.md R332). -/
def Obligations.DramRequests : Prop :=
  (∀ (q : DramReq) (s : State), q.atom = none →
      let r := reqOf q s.tick
      let s1 := { s with net := s.net ++ [r] }
      let out := exec (.dramRequest (.direct q)) s
      (homeOf r.pa s = none → out = .next (complete r .dieAbsent 0 s1)) ∧
      (∀ h, homeOf r.pa s = some h →
        (∀ st, homeBadFor r.src r.who h s = some st → out = .next (complete r st 0 s1)) ∧
        (homeBadFor r.src r.who h s = none → admits r h.stack s1 = false →
          out = .next (netPut { r with st := .waiting, regMark := true } s1)) ∧
        (homeBadFor r.src r.who h s = none → admits r h.stack s1 = true →
          let s2 := spend r h.stack s1
          (srcHost r.src = false → mustSnoop r h s2 = true →
            out = .next (netPut { r with st := .snooping } (incF F.D2D_CXL_SNOOP_COUNT 0 0 (snooped r h s2).length s2))) ∧
          (srcHost r.src = true ∨ mustSnoop r h s2 = false →
            (q.write = false → out = .next (netPut { r with st := .queued, tick := s2.tick } s2)) ∧
            (q.write = true → out =
              let z := homeWrite h r.pa r.who r.len r.mask.toNat r.data.toNat s2
              .next (netPut { r with st := .queued, tick := s2.tick, status := if z.1 then .ok else .dataLost } z.2)))))) ∧
  (∀ (q : List (Req × Home)) (s : State),
      pcNext [] s = none ∧ ∀ e ∈ q.head?,
        (e.1.tick + 50 ≤ s.tick → pcNext q s = some e.1.id) ∧
        (s.tick < e.1.tick + 50 → (∀ x, q.find? (fun x => rowHit x.2 s) = some x → pcNext q s = some x.1.id) ∧
          (q.find? (fun x => rowHit x.2 s) = none → pcNext q s = some e.1.id))) ∧
  (∀ (id : Nat) (s : State),
      (∀ r : Req, netGet id s = some r →
        (r.st = .sent → isLocal r.pkg s → isDram r.pa → r.atom = none →
          ((∀ st, reqStack r s = some st → onItsWay r st s = false) → exec (.dramRequest (.under id)) s = .next (atHome r s)) ∧
          (∀ st, reqStack r s = some st → onItsWay r st s = true → exec (.dramRequest (.under id)) s = .next s)) ∧
        (∀ h, r.st = .queued → r.write = true → homeOf r.pa s = some h → servesNext id h s = true →
          exec (.dramWriteAck id) s = .next (complete r r.status 0 (countRow h s))) ∧
        (∀ h, r.st = .queued → r.write = false → homeOf r.pa s = some h →
          (homeBad hostWho h s = none → servesNext id h s = true →
            let z := homeRead h r.pa r.who r.len s
            exec (.dramReadReturn id) s = .next (match z.1 with
              | some v => complete r .ok (BitVec.ofNat 1024 v) z.2
              | none => complete r .dataLost 0 z.2)) ∧
          ((homeBad hostWho h s).isSome → exec (.dramReadReturn id) s = .next (complete r .dieAbsent 0 s))) ∧
        (∀ h lo hi, r.st = .snooping → homeOf r.pa s = some h →
          (homeBad hostWho h s = none →
            let offs := halves h r.len
            exec (.snoopResponse id lo hi) s = .next (accept r h (settleFilter h r
              (if 2 ≤ offs.length then putHalf h (offs.getD 1 0) r.pa hi (putHalf h (offs.getD 0 0) r.pa lo s)
                else putHalf h (offs.getD 0 0) r.pa lo s)))) ∧
          ((homeBad hostWho h s).isSome → exec (.snoopResponse id lo hi) s = .next (complete r .dieAbsent 0 s))) ∧
        (r.st = .sent ∨ r.st = .answered → ∀ lo hi, exec (.dramWriteAck id) s = .next s ∧
          exec (.dramReadReturn id) s = .next s ∧ exec (.snoopResponse id lo hi) s = .next s)) ∧
      (netGet id s = none → ∀ lo hi, exec (.dramRequest (.under id)) s = .next s ∧ exec (.dramWriteAck id) s = .next s ∧
        exec (.dramReadReturn id) s = .next s ∧ exec (.snoopResponse id lo hi) s = .next s))

/-- Atomics are performed at their home, ordered adds are held for their step (05_memory_model.md R161, 05_memory_model.md R164,
05_memory_model.md R165, 05_memory_model.md R166, 05_memory_model.md R167, 06_stacks.md R185, 06_stacks.md R186,
11_host_dies.md R332). -/
def Obligations.DramAtomicsRun : Prop :=
  ∀ (q : DramReq) (a : Atom) (s : State), q.atom = some a →
    let r := reqOf q s.tick
    let s1 := { s with net := s.net ++ [r] }
    (isOrdered r s = false →
      let out := exec (.dramAtomic (.direct q)) s
      exec (.oaddAccept (.direct q)) s = .next s ∧
      (homeOf r.pa s = none → out = .next (complete r .dieAbsent 0 s1)) ∧
      (∀ h, homeOf r.pa s = some h →
        let s2 := if isLockedAdd r s then incF F.STK_OADD_LATE_COUNT h.stack 0 1 s1 else s1
        homeOf r.pa s2 = some h →
        (∀ st, homeBadFor r.src r.who h s2 = some st → out = .next (complete r st 0 s2)) ∧
        (homeBadFor r.src r.who h s2 = none →
          (admits r h.stack s2 = false → out = .next (netPut { r with st := .waiting, regMark := true } s2)) ∧
          (admits r h.stack s2 = true →
            let s3 := spend r h.stack s2
            (srcHost r.src = false → mustSnoop r h s3 = true →
              out = .next (netPut { r with st := .snooping } (incF F.D2D_CXL_SNOOP_COUNT 0 0 (snooped r h s3).length s3))) ∧
            (srcHost r.src = true ∨ mustSnoop r h s3 = false →
              let z := homeAtomic h r.pa r.who a s3
              out = .next (match z.1 with
                | some v => complete r .ok (if a.returns && !isLockedAdd r s3 then BitVec.ofNat 1024 v else 0) z.2
                | none => complete r .dataLost 0 z.2)))))) ∧
    (isOrdered r s = true →
      let out := exec (.oaddAccept (.direct q)) s
      exec (.dramAtomic (.direct q)) s = .next s ∧
      (homeOf r.pa s = none → out = .next (complete r .dieAbsent 0 s1)) ∧
      (∀ h, homeOf r.pa s = some h →
        (∀ st, homeBadFor r.src r.who h s = some st → out = .next (complete r st 0 s1)) ∧
        (homeBadFor r.src r.who h s = none →
          let k := s.stack h.stack
          let o := srcOrder r.src s1
          let s2 := spend r h.stack s1
          (k.oadd.length < 4096 → admits r h.stack s1 = true →
            out = .next (complete r .ok 0 (s2.putStack h.stack { s2.stack h.stack with
              oadd := k.oadd ++ [⟨r.id, h.addr / a.bytes * a.bytes, r.pa / a.bytes * a.bytes, a.bytes, a.operand.setWidth 32, r.who.part,
                r.step, r.key, o.1, o.2.1, o.2.2⟩] }))) ∧
          (k.oadd.length < 4096 → admits r h.stack s1 = false →
            out = .next (netPut { r with st := .waiting, regMark := true } s1)) ∧
          (4096 ≤ k.oadd.length → out = .next (netPut { r with st := .waiting, oaddMark := true } s1)))))

/-- Held adds are applied in the order of key, package, slot and bed whatever order they arrived in. Sorting the held adds of a
step keeps exactly those adds and puts them in ascending order of key, then package, die slot and bed of their source; adds
that share all four keep the order of arrival; and where no two adds share them, the order does not depend on the order of
arrival. -/
def Obligations.OrderedAddsSorted : Prop :=
  (∀ l : List OAdd, (sortAdds l).Perm l ∧ ((sortAdds l).Pairwise fun a b => a.before b = true) ∧
    ∀ k n d b, (sortAdds l).filter (fun a => (a.key, a.pkg, a.slot, a.bed) = (k, n, d, b)) =
      l.filter (fun a => (a.key, a.pkg, a.slot, a.bed) = (k, n, d, b))) ∧
  (∀ l m : List OAdd, l.Perm m → (∀ a ∈ l, ∀ b ∈ l, (a.key, a.pkg, a.slot, a.bed) = (b.key, b.pkg, b.slot, b.bed) → a = b) →
    sortAdds l = sortAdds m)

/-- A processor fill enters the snoop filter, pushing out the oldest line of a full set (11_host_dies.md R332). -/
def Obligations.ProcessorFillsEnterFilter : Prop :=
  ∀ (pa : BitVec 52) (owned : Bool) (dirty : Option (BitVec 512)) (s : State) (h : Home), homeOf pa.toNat s = some h →
    let key := h.addr / 64
    let k := s.stack h.stack
    let set := k.snoop.filter fun e => decide (filterSet e.1 = filterSet key)
    (set.length < 16 ∨ (look k.snoop key).isSome → exec (.bisnp pa owned dirty) s =
      .next (s.putStack h.stack { k with snoop := ldel k.snoop key ++ [(key, owned)] })) ∧
    (∀ e r, set = e :: r → 16 ≤ set.length → look k.snoop key = none →
      let s1 := incF F.D2D_CXL_BISNP_COUNT 0 0 1 (match dirty with
        | none => s
        | some v => (homeWrite { h with addr := e.1 * 64 } (paOfStack h.stack (e.1 * 64) s / 64 * 64) hostWho 64 (2 ^ 64 - 1) v.toNat
          (countRow { h with addr := e.1 * 64 } s)).2)
      let k1 := s1.stack h.stack
      let s2 := s1.putStack h.stack { k1 with snoop := ldel k1.snoop e.1 }
      let k2 := s2.stack h.stack
      exec (.bisnp pa owned dirty) s = .next (s2.putStack h.stack { k2 with snoop := ldel k2.snoop key ++ [(key, owned)] }))

/-- A bed group without an owner is power-gated, its scratchpads are lost, and every access to them completes with DIE_ABSENT
(01_package.md R27). -/
def Obligations.UnownedGroupsAreOff : Prop :=
  ∀ (g : BgId) (s : State), Sound s →
    (∀ v : BitVec 32, bgBusy g s = false → CsrAt.isHeld ⟨.MGT_BG_OWNER, 0, g.val⟩ s = false → ∃ t,
      exec (.bgOwnerWrite g v) s = .next t ∧ t = { s with regs := t.regs, spad := t.spad, spadErr := t.spadErr } ∧
      (v.toNat / 32 % 2 = 0 → bgOwner g t = none ∧ t.bgPower g = 3 ∧
        ∀ a, sget 0 t.spad a = if a / 32768 / 64 / 25 = g.val then 0 else sget 0 s.spad a) ∧
      (v.toNat / 32 % 2 = 1 → bgOwner g t = some (v.toNat % 32) ∧ t.bgPower g = (if s.bgPower g = 3 then 0 else s.bgPower g) ∧
        t.spad = s.spad)) ∧
    (∀ (c : CoreId) (r : OutReq) (id : Nat) (off : BitVec 15) (a : Atom) (w : Who), bgOf (bedOf c) = g.val → bgOwner g s = none →
      (1 ≤ r.len → r.off.toNat % 128 + r.len ≤ 128 →
        exec (.spadOutsideAccess c (.direct r)) s = .next (respond r.id .dieAbsent 0 s)) ∧
      exec (.spadAtomic c id off (some a) w) s = .next (respond id .dieAbsent 0 s) ∧
      (∀ (bank : Fin 16) o, outsideNow c bank s = some o →
        (o.isRmw = false → exec (.spadOutsideGrant c bank) s = .next (answerFront c o .dieAbsent 0 (noteGrant c bank o s))) ∧
        (o.isRmw = true → exec (.spadAliasWrite c bank) s = .next (answerFront c o .dieAbsent 0 (noteGrant c bank o s)))))

/-- Outside accesses to a scratchpad: arrival, grant and the read-modify-write (01_package.md R28, 04_scratchpad_cache.md R111,
04_scratchpad_cache.md R114, 04_scratchpad_cache.md R118, 04_scratchpad_cache.md R119, 04_scratchpad_cache.md R120,
04_scratchpad_cache.md R121, 04_scratchpad_cache.md R122, 05_memory_model.md R161). -/
def Obligations.OutsideAccesses : Prop :=
  ∀ (c : CoreId) (s : State),
    let k := s.core c
    let room (o : Outside) : Prop := o.brw = true ∨ (k.outside.filter fun x => !x.brw).length < 16
    let arrives (i : Instr) (o : Outside) : Prop :=
      (∀ st, winBad o.who c s = some st → exec i s = .next (respond o.id st 0 s)) ∧
      (winBad o.who c s = none →
        (∀ a, o.atom = some a → a.isFadd = true → exec i s = .next (respond o.id .pageFault 0 s)) ∧
        ((∀ a, o.atom = some a → a.isFadd = false) →
          (room o → exec i s = .next (s.putCore c { k with outside := k.outside ++ [o] })) ∧
          (¬room o → exec i s = .next (meshHold c o s))))
    (∀ r : OutReq, 1 ≤ r.len → r.off.toNat % 128 + r.len ≤ 128 → arrives (.spadOutsideAccess c (.direct r)) (outOf r)) ∧
    (∀ (id : Nat) (off : BitVec 15) (a : Atom) (w : Who),
      arrives (.spadAtomic c id off (some a) w) (outAtom id false false w off.toNat .plain a)) ∧
    (∀ (r : Req) (off : Nat) (f : Form), netGet r.id s = some r → r.st = .sent → isLocal r.pkg s → placeOf r.pa s = .spad c off f →
      let first := (s.net.takeWhile fun x => decide (x.id ≠ r.id)).any fun x => decide (x.src = r.src) && decide (x.st = .sent) &&
        (x.write || x.atom.isSome) && isLocal x.pkg s && decide (x.pa / 2 ^ 15 % 2 ^ 33 = r.pa / 2 ^ 15 % 2 ^ 33)
      let i : Instr := if r.atom.isSome then .spadAtomic c r.id 0 none r.who else .spadOutsideAccess c (.under r.id)
      (first = true → exec i s = .next s) ∧
      (first = false → cutOff r.src r.pkg r.pa s = true → exec i s = .next (complete r .dieAbsent 0 s)) ∧
      (first = false → cutOff r.src r.pkg r.pa s = false → exec i s = .next (outsideAccess c (outOfReq r c off f) s))) ∧
    (∀ (bank : Fin 16) (o : Outside), outsideNow c bank s = some o →
      let s1 := noteGrant c bank o s
      let m := if o.brw then 3 else 4
      let i : Instr := if o.isRmw then .spadAliasWrite c bank else .spadOutsideGrant c bank
      let g := o.part.1 / 16
      let n := (o.part.1 % 16 + o.part.2 + 15) / 16
      exec (if o.isRmw then .spadOutsideGrant c bank else .spadAliasWrite c bank) s = .next s ∧
      (∀ st, outBad c o s = some st → exec i s = .next (answerFront c o st 0 s1)) ∧
      (outBad c o s = none →
        (regionOk c m g (g + n - 1) o.reads o.write s1 = false →
          exec i s = .next (advance c { o with status := o.status.join .pageFault } (regionViol c m s1))) ∧
        (regionOk c m g (g + n - 1) o.reads o.write s1 = true →
          (o.isRmw = false → o.write = true → exec i s = .next (storeLate c o o.bits.1 o.bits.2 s1)) ∧
          (∀ d s2, o.isRmw = false → o.write = false → outsideRead c g n s1 = (some d, s2) →
            let got := BitVec.ofNat 1024 (d / 2 ^ (8 * (o.part.1 % 16)) % 2 ^ (8 * o.part.2) * 2 ^ (8 * o.pos))
            exec i s = .next (advance c { o with rdata := o.rdata ||| got } s2)) ∧
          (let again (z : State) : Prop := ∀ d s2, outsideRead c g n z = (some d, s2) → exec i s = .next (s2.putCore c
             { s2.core c with outside := setFront o.brw (some { o with opened := some (BitVec.ofNat 512 d), spoiled := false }) (s2.core c).outside })
           (o.isRmw = true → o.opened = none → again s1) ∧
           (∀ old, o.isRmw = true → o.opened = some old → o.spoiled = true →
             again (incF F.SPAD_RMW_RETRY c 0 1 (flagF F.SPAD_STATUS_RMW_RETRY c 0 s1)))) ∧
          (∀ old : BitVec 512, o.write = true → o.atom = none → o.form ≠ .plain → o.opened = some old → o.spoiled = false →
            let d := o.bits.2
            let v := if o.form = .bitSet then old.toNat ||| d else old.toNat ^^^ (old.toNat &&& d)
            let o1 := { o with opened := none }
            let s2 := s1.putCore c { s1.core c with outside := setFront o.brw (some o1) (s1.core c).outside }
            exec i s = .next (storeLate c o1 o.bits.1 v
              (if o.pos + o.part.2 = o.len then incF F.SPAD_RMW_DONE c 0 1 s2 else s2))))))

/-- An atomic of a scratchpad returns the old value and leaves that of its operation (05_memory_model.md R160,
05_memory_model.md R161, 05_memory_model.md R169, 04_scratchpad_cache.md R113, 04_scratchpad_cache.md R114,
04_scratchpad_cache.md R122). -/
def Obligations.SpadAtomicEffect : Prop :=
  ∀ (c : CoreId) (bank : Fin 16) (id : Nat) (net brw : Bool) (w : Who) (off : BitVec 15) (a : Atom) (old : BitVec 512) (s : State),
    Sound s → bitF F.MGT_ERR_INJ_CTL_ARM 0 0 s = false → a.isFadd = false → atomPlain a = false → (s.core c).late = [] →
    let o := { outAtom id net brw w off.toNat .plain a with opened := some old }
    outsideNow c bank s = some o → winBad w c s = none →
    let n := a.bytes
    let x := off.toNat / n * n
    regionOk c (masterOf o) (x / 16) (x / 16) a.returns true s = true → sget 0 s.spadErr (c.val * 2048 + x / 16) = 0 →
    let b := c.val * 32768 + x
    let v := old.toNat / 2 ^ (8 * (x % 16)) % 256 ^ n
    ∃ t, exec (.spadAliasWrite c bank) s = .next (answerOut o .ok (BitVec.ofNat 1024 (if a.returns then v else 0)) t) ∧
      t = { s with cores := t.cores } ∧ (t.core c).outside = setFront brw none (s.core c).outside ∧
      (let u := flushLate c t
       getBytes u.spad b n = a.apply v % 256 ^ n ∧ (∀ y, y < b ∨ b + n ≤ y → sget 0 u.spad y = sget 0 s.spad y) ∧
       u = { s with cores := u.cores, spad := u.spad, spadErr := u.spadErr })

/-- A busy bed group keeps its owner; retention and waking (01_package.md R29, 01_package.md R30, 09_command.md R278,
04_scratchpad_cache.md R123, 04_scratchpad_cache.md R124). -/
def Obligations.BedGroupCommands : Prop :=
  (∀ (g : BgId) (v : BitVec 32) (s : State), Sound s →
      (bgBusy g s = true → CsrAt.isHeld ⟨.MGT_BG_OWNER, 0, g.val⟩ s = false → ∃ t, exec (.bgOwnerWrite g v) s = .next t ∧
        bgOwner g t = bgOwner g s ∧ bitF F.MGT_PART_ERR_BUSY_WRITE 0 0 t = true ∧ getF F.MGT_PART_ERR_LAST_BG 0 0 t = g.val ∧
        (∀ r u i, regKey r u i ≠ regKey .MGT_PART_ERR 0 0 → readReg r u i t = readReg r u i s) ∧ t = { s with regs := t.regs }) ∧
      (CsrAt.isHeld ⟨.MGT_BG_OWNER, 0, g.val⟩ s = true → exec (.bgOwnerWrite g v) s =
        .next { s with heldWrites := s.heldWrites ++ [⟨.MGT_BG_OWNER, 0, g.val, v.setWidth 64, BitVec.allOnes 64⟩] })) ∧
  (∀ (g : BgId) (s : State),
      let beds := (List.range 25).map fun b => 25 * g.val + b
      (s.bgPower g ≤ 1 → groupAtRest g s = true →
        let s1 := { s with retains := if s.retains.contains g.val then s.retains else s.retains ++ [g.val] }
        let drained := beds.all fun b => (s.bed b).merge.isEmpty && (s.bed b).mergeWait.isEmpty && (s.bed b).fills.isEmpty
        (drained = false → exec (.bgRetentionEnter g) s = .next (beds.foldl (fun z b => drainMerge b (fun _ => true) z) s1)) ∧
        (drained = true → exec (.bgRetentionEnter g) s =
          let z := (beds.foldl (fun z b => invAll b z) s1).putBgPower g 2
          .next { z with retains := z.retains.filter fun x => decide (x ≠ g.val) })) ∧
      (2 ≤ s.bgPower g ∨ groupAtRest g s = false → exec (.bgRetentionEnter g) s = .next s) ∧
      (s.bgPower g = 2 → exec (.bgWake g) s = .next { s.putBgPower g 4 with wakes := sput 0 s.wakes g (s.tick + 50) }) ∧
      (s.bgPower g ≠ 2 → exec (.bgWake g) s = .next s) ∧
      (s.bgPower g = 4 → sget 0 s.wakes g ≤ s.tick → exec (.bgWakeDone g) s = .next (beds.foldl (fun z b => invAll b z)
        ({ s with wakes := sput 0 s.wakes g 0 }.putBgPower g 0))) ∧
      (s.bgPower g ≠ 4 ∨ s.tick < sget 0 s.wakes g → exec (.bgWakeDone g) s = .next s))

/-- Lookups, prefetches and fills of a bed cache, and its merging buffer (04_scratchpad_cache.md R125, 04_scratchpad_cache.md
R127, 04_scratchpad_cache.md R128, 04_scratchpad_cache.md R129, 04_scratchpad_cache.md R130, 04_scratchpad_cache.md R131,
04_scratchpad_cache.md R132, 04_scratchpad_cache.md R133, 05_memory_model.md R149, 05_memory_model.md R168). -/
def Obligations.BedCacheAndMerging : Prop :=
  ∀ (b : BedId) (pa : BitVec 61) (pol : Policy) (s : State),
    let k := s.bed b
    let line := pa.toNat / 128
    let dram := isDram (line * 128)
    (∀ (id : Nat) (bsq : Bool),
      let out := exec (.bedcLookup b id pa ⟨pol, bsq⟩) s
      let hit := if pol = .uncached then none else cacheHit b line s
      let inFlight := if pol = .uncached then none else k.fills.find? fun f => decide (f.line = line) && f.install
      (dram = false → out = .next s) ∧
      (∀ d t, dram = true → hit = some (d, t) → out = .next (deliverLine .ok (k.merged line d) t id)) ∧
      (∀ f, dram = true → hit = none → inFlight = some f → out = .next (s.putBed b { k with
        fills := k.fills.map fun x => if x.id = f.id then { x with waiters := x.waiters ++ [id] } else x })) ∧
      (dram = true → hit = none → inFlight = none →
        (k.fills.length < 4096 → out = .next (sendFill b line pol false (if bsq then .bsq b else .brw b) [id] s)) ∧
        (4096 ≤ k.fills.length → out = .next s))) ∧
    (let takes : Bool := dram && decide (pol ≠ .uncached) && !k.holds line && !k.fills.any (fun f => decide (f.line = line)) &&
       (k.writesOf line).isEmpty && bitF F.BEDC_CTRL_PF_EN b 0 s && decide (k.fills.length < 4096)
     exec (.bedcPrefetch b pa pol) s = .next (if takes then sendFill b line pol true (.brw b) [] s else s)) ∧
    (∀ id (f : Fill) (r : Req), (k.fills.find? fun x => decide (x.id = id)) = some f → netGet id s = some r →
      (r.st ≠ .answered → exec (.bedcFillReturn b id) s = .next s) ∧
      (r.st = .answered →
        let s1 := netDel id (s.putBed b { k with fills := k.fills.filter fun x => decide (x.id ≠ id) })
        let d := overlay f.pmask f.pdata r.rdata
        let s2 := f.waiters.foldl (fun z w => deliverLine r.status (if r.status = .ok then d else 0) z w) s1
        let l : Line := ⟨f.line, decide (f.pol = .shared), d⟩
        exec (.bedcFillReturn b id) s = .next (
          if r.status ≠ .ok ∨ f.install = false ∨ (s2.bed b).holds f.line = true then s2
          else if f.prefetch = true ∧ f.waiters = [] then sidePush b l s2
          else if f.prefetch then incF F.BEDC_PF_HIT_COUNT b 0 1 (installLine b l s2)
          else installLine b l s2))) ∧
    (∀ w : BedWrite,
      let wl := w.pa.toNat / 128
      let s1 := s.putBed b (k.patch wl w.mask w.data)
      let k1 := s1.bed b
      let into := if bitF F.BEDC_CTRL_MERGE_EN b 0 s1 && decide (w.pol ≠ .uncached) then mergeTarget k1.merge wl (mergeDest wl s1)
        else none
      let out := exec (.mergeWrite b w) s
      (k1.mergeWait ≠ [] ∨ (into = none ∧ 32 ≤ k1.merge.length) →
        out = .next (s1.putBed b { k1 with mergeWait := k1.mergeWait ++ [w] })) ∧
      (∀ i, k1.mergeWait = [] → into = some i → out = .next (incF F.BEDC_MERGED_COUNT b 0 1 (s1.putBed b { k1 with
        merge := k1.merge.map fun e => if e.id = i then
          { e with mask := e.mask ||| w.mask, data := overlay w.mask w.data e.data, touched := s.cyc,
                   owners := if e.owners.contains w.owner then e.owners else e.owners ++ [w.owner] }
          else e }))) ∧
      (k1.mergeWait = [] → into = none → k1.merge.length < 32 →
        out = .next (drainHigh b (s1.takeId.2.putBed b { k1 with merge := k1.merge ++
          [⟨s1.takeId.1, wl, w.mask, w.data, mergeDest wl s1, decide (w.pol = .uncached), s.cyc, false, w.part, [w.owner]⟩] })))) ∧
    exec (.mergeIdleExpiry b) s =
      .next (drainMerge b (fun e => decide (e.touched + getF F.BEDC_CTRL_MERGE_IDLE b 0 s ≤ s.cyc)) s) ∧
    exec (.drain b) s = .next ((drainMerge b (fun _ => true) s).putBed b
      { (drainMerge b (fun _ => true) s).bed b with draining := ((drainMerge b (fun _ => true) s).bed b).merge.map (·.id) }) ∧
    (∀ id (r : Req) (e : Merge), netGet id s = some r → (k.merge.find? fun x => decide (x.id = id) && x.sent) = some e →
      (r.st ≠ .answered → exec (.mergeAck b id) s = .next s) ∧
      (r.st = .answered → exec (.mergeAck b id) s = .next (mergeNext b (e.owners.foldl (ackOwner b e.part.val r.status)
        (netDel id (s.putBed b { k with merge := k.merge.filter fun x => decide (x.id ≠ id) })))))) ∧
    (∀ id, netGet id s = none → exec (.bedcFillReturn b id) s = .next s ∧ exec (.mergeAck b id) s = .next s)

/-- An installed line is found, and the next victim is never the way just used. In a sound state, after a line is installed in a
bed's cache it is found there with its data, and the lines of every other set are as before. The way that the replacement
tree selects after a hit or fill of a way is another way, and a set's first way to fill is its lowest invalid one. -/
def Obligations.CacheHoldsWhatItHit : Prop :=
  (∀ (k : Bed) (l : Line), swf CacheSet.empty k.cache → (k.set (setOf l.line)).find l.line = none →
    let r := k.install l
    (((r.1.set (setOf l.line)).find l.line).map (·.2) = some l) ∧
    (∀ n, n ≠ setOf l.line → r.1.set n = k.set n) ∧
    ((List.range 16).all (fun w => (look (k.set (setOf l.line)).ways w).isSome) = false → r.2 = none)) ∧
  (∀ p w, p < 2 ^ 15 → w < 16 → plruVictim (plruTouch p w) ≠ w ∧ plruVictim p < 16 ∧ plruTouch p w < 2 ^ 15)

/-- Flash invalidation of a bed cache. In a sound state INV_SHARED answers next: no SHARED line is left in the cache, the side
buffer or the victim cache, every other line is left, no SHARED fill in flight will be installed, and BEDC_FLASH_INV counts
one. INV_ALL answers next with all three empty. The merging buffer, every other bed and everything else are as before. -/
def Obligations.FlashInvalidation : Prop :=
  ∀ (b : BedId) (s : State), Sound s →
    let k := s.bed b
    (∃ t, exec (.invShared b) s = .next t ∧
      (swf CacheSet.empty k.cache → ∀ n, ((t.bed b).set n).ways = (k.set n).ways.filter fun w => !w.2.shared) ∧
      (t.bed b).side = k.side.filter (fun l => !l.shared) ∧ (t.bed b).victim = k.victim.filter (fun l => !l.shared) ∧
      (t.bed b).merge = k.merge ∧ (∀ f ∈ (t.bed b).fills, f.pol = .shared → f.install = false) ∧
      getF F.BEDC_FLASH_INV_COUNT b 0 t = min (getF F.BEDC_FLASH_INV_COUNT b 0 s + 1) (2 ^ F.BEDC_FLASH_INV_COUNT.w - 1) ∧
      (∀ d, d ≠ b.val → t.bed d = s.bed d) ∧ t = { s with beds := t.beds, regs := t.regs }) ∧
    exec (.invAll b) s = .next (s.putBed b { k with cache := [], side := [], victim := [] })

/-- The region table: writes, invalidation and clearing a fault (06_stacks.md R175, 06_stacks.md R176, 06_stacks.md R193,
09_command.md R278). -/
def Obligations.RegionTable : Prop :=
  ∀ (i : Fin 64) (v : BitVec 64) (s : State), Sound s → CsrAt.isHeld ⟨.STK_REGION, 0, i.val⟩ s = false →
    let old := readReg .STK_REGION 0 i s
    let noted (f : Fld) (t : State) := setF F.STK_REGION_CTL_LAST_INDEX 0 0 i.val (setF f 0 0 1 t)
    let hit := (List.range 64).any fun j => decide (j ≠ i.val) && bitF F.STK_REGION_VALID 0 j s &&
      regionsOverlap (clampRegion v old) (readReg .STK_REGION 0 j s)
    let busy : Prop := s.regClear ≠ none ∨ s.cyc < s.regBusy
    (F.STK_REGION_CTL_BUSY.of (viewRegionCtl s) = 1 ↔ busy) ∧
    (busy → exec (.stkRegionWrite i v) s = .next (noted F.STK_REGION_CTL_BUSY_WRITE s)) ∧
    (¬busy → bitF F.STK_REGION_VALID 0 i s = true → F.STK_REGION_VALID.of v = 1 →
      exec (.stkRegionWrite i v) s = .next (noted F.STK_REGION_CTL_LOCKED_WRITE s)) ∧
    (¬busy → bitF F.STK_REGION_VALID 0 i s = true → F.STK_REGION_VALID.of v = 0 →
      exec (.stkRegionWrite i v) s = .next { s with regClear := some i.val }) ∧
    (¬busy → bitF F.STK_REGION_VALID 0 i s = false → F.STK_REGION_VALID.of v = 1 → hit = true →
      exec (.stkRegionWrite i v) s = .next (noted F.STK_REGION_CTL_OVERLAP
        (writeReg .STK_REGION 0 i (F.STK_REGION_VALID.put (clampRegion v old) 0) { s with regBusy := s.cyc + 1 }))) ∧
    (¬busy → bitF F.STK_REGION_VALID 0 i s = false → F.STK_REGION_VALID.of v = 0 ∨ hit = false →
      exec (.stkRegionWrite i v) s = .next (writeReg .STK_REGION 0 i (clampRegion v old) { s with regBusy := s.cyc + 1 })) ∧
    (s.regClear = some i.val →
      s.net.any (fun r => (decide (r.st = .queued) || decide (r.st = .snooping)) && inRegion i r.pa s) = false →
      exec (.regionInvalidDone i) s = .next (setF F.STK_REGION_VALID 0 i 0 { s with regClear := none })) ∧
    (s.regClear ≠ some i.val ∨
      s.net.any (fun r => (decide (r.st = .queued) || decide (r.st = .snooping)) && inRegion i r.pa s) = true →
      exec (.regionInvalidDone i) s = .next s) ∧
    (exec (.clearFault i) s =
      .next (if (regionStacks i s).all (fun st => stackUp st s) then setF F.STK_REGION_FAULTED 0 i 0 s else s))

/-- Regulator periods, refresh, patrol, write-back, training and self-refresh of a stack (06_stacks.md R185, 06_stacks.md R186,
06_stacks.md R188, 06_stacks.md R189, 06_stacks.md R190, 06_stacks.md R192, 14_guard_errors.md R391, 14_guard_errors.md
R395). -/
def Obligations.StackUpkeep : Prop :=
  ∀ (st : StackId) (s : State), Sound s →
    (stackUp st s = true → exec (.refreshDue st) s = .next (incF F.STK_REFRESH_COUNT st 0 1 s)) ∧
    exec (.stackRecalibrate st) s = .next s ∧
    (stackUp st s = true → bitF F.STK_CTRL_PATROL_EN st 0 s = true → (s.stack st).patrolAt + 1 < 72 * 2 ^ 26 →
      let a := 16 * (s.stack st).patrolAt
      let p := sget 0 s.memErr (memKey st a / 16)
      (p = 0 → exec (.patrolRead st) s = .next (s.putStack st { s.stack st with patrolAt := (s.stack st).patrolAt + 1 })) ∧
      (guardDecode (syndrome p) = .uncorrectable →
        let s1 := ueFound (memErrAt st (paOfStack st a s)) (syndrome p).code (flagF F.STK_STATUS_UE st 0 s)
        exec (.patrolRead st) s = .next (s1.putStack st { s1.stack st with patrolAt := (s1.stack st).patrolAt + 1 }))) ∧
    (∀ key l n x, (s.stack st).writeback = key :: l → guardDecode (syndrome (sget 0 s.memErr key)) = .correct n x →
      exec (.ceWriteback st) s = .next (memWriteGran st (16 * key % 2 ^ 37) (paOfStack st (16 * key % 2 ^ 37) s) 65535
        (BitVec.ofNat 128 (getBytes s.mem (16 * key) 16) ^^^ (flipNibble (sget 0 s.memErr key) n x).setWidth 128).toNat
        (s.putStack st { s.stack st with writeback := l }))) ∧
    (∀ (p : PlotId) (a b : TrainRes), ∃ t, exec (.stackTrain p a b) s = .next t ∧
      getF F.STK_STATUS_STATE (2 * p.val) 0 t = (if a.failed.isSome then 3 else 1) ∧
      getF F.STK_STATUS_STATE (2 * p.val + 1) 0 t = (if b.failed.isSome then 3 else 1) ∧
      (a.failed = none → getF F.STK_TRAIN_LANES_REPAIRED (2 * p.val) 0 t =
        (look s.flash.lanes (2 * p.val)).getD a.lanes.toNat % 2 ^ F.STK_TRAIN_LANES_REPAIRED.w) ∧
      t = { s with regs := t.regs, ident := t.ident, flash := t.flash }) ∧
    (getF F.STK_STATUS_STATE st 0 s = 1 → exec (.selfRefreshEntry st true) s =
      .next (setF F.STK_STATUS_STATE st 0 2 ((openWrites st s).foldl (fun z r => ackWrite r z) s)) ∧
      exec (.selfRefreshEntry st false) s =
        .next (setF F.STK_STATUS_STATE st 0 2 ((openWrites st s).foldl (fun z r => loseWrite r z) s))) ∧
    (let s2 := countWaits st (refillAll st 33 (s.putStack st { s.stack st with used := 0 }))
      let l := waitingAt st s2
      exec (.regulatorPeriod st) s = .next ((l.filter fun r => !hasTokens r st s2).foldl (fun z r => retry r.id z)
        ((l.filter fun r => hasTokens r st s2).foldl (fun z r => retry r.id z) s2)))

/-- A regulator gains its rate in sixteenths of a token each period, up to its burst. In a sound state, the refill of regulator
k of a stack with fewer than sixteen sixteenths held over gives it the whole tokens of RATE plus the held sixteenths, holds
the rest over, and never leaves it above BURST; over sixteen refills with room it gains exactly RATE tokens. -/
def Obligations.TokensRefilled : Prop :=
  ∀ (st : StackId) (k : Fin 33) (s : State), Sound s → sget 0 (s.stack st).frac k.val < 16 → swf 0 (s.stack st).frac →
    let rate := getF F.STK_REG_RATE st k s
    let burst := getF F.STK_REG_BURST st k s
    let frac := sget 0 (s.stack st).frac k.val
    let level := getF F.STK_REG_LEVEL_LEVEL st k s
    let t := refill st k s
    getF F.STK_REG_LEVEL_LEVEL st k t = min burst (level + (frac + rate) / 16) % 2 ^ F.STK_REG_LEVEL_LEVEL.w ∧
    sget 0 (t.stack st).frac k.val = (frac + rate) % 16 ∧
    (level + rate + 1 ≤ burst → frac = 0 → let u := (List.range 16).foldl (fun z _ => refill st k z) s
      getF F.STK_REG_LEVEL_LEVEL st k u = level + rate ∧ sget 0 (u.stack st).frac k.val = 0)

/-- The steps of a barrow's moves, kind by kind (07_tiers_barrow.md R198, 07_tiers_barrow.md R204, 07_tiers_barrow.md R206,
07_tiers_barrow.md R212, 07_tiers_barrow.md R213, 07_tiers_barrow.md R215, 07_tiers_barrow.md R216, 07_tiers_barrow.md R217,
09_command.md R258). -/
def Obligations.BarrowMoves : Prop :=
  ∀ (b : BedId) (prog idx : Nat) (s0 : State),
    let s := collect b s0
    let cmd : List (Nat × Instr) := [(0, .moveNop b prog idx), (1, .moveLoad b prog idx), (2, .moveStore b prog idx),
      (3, .moveTcopy b prog idx), (4, .moveCopy b prog idx), (5, .moveAtomic b prog idx), (6, .movePrefetch b prog idx)]
    (∀ (p : Prog) (m : Move), moveOf b prog idx s = some (p, m) →
      (∀ e ∈ cmd, m.r.kind ≠ e.1 ∨ m.ready = false ∨ p.stop = true ∨ p.failed ≠ none → exec e.2 s0 = .next s) ∧
      (m.ready = true → p.stop = false → p.failed = none →
        let step (z : Move × State) : State := readMore b prog (runIssue b p z.1 false z.2).2
        let y := acquire b m s
        let n := m.r.final
        let own := [64 * b.val + m.r.core]
        let write (m1 : Move) (va len v : Nat) : Move :=
          { m1 with stage := m1.r.final, buf := v, cores := [64 * b.val + m1.r.core], todo := segs [⟨.write, true, va, len, 0⟩] }
        (m.r.kind = 0 → exec (.moveNop b prog idx) s0 = .next (step ({ y.1 with stage := n, cores := own }, y.2))) ∧
        (m.r.kind = 6 → exec (.movePrefetch b prog idx) s0 = .next (step ({ y.1 with stage := n, cores := own }, y.2))) ∧
        (m.r.kind = 4 → exec (.moveCopy b prog idx) s0 = .next (step (write y.1 y.1.r.dst y.1.r.len y.1.buf, y.2))) ∧
        (m.r.kind = 3 → exec (.moveTcopy b prog idx) s0 = .next (step (
          let l := y.1.tiles.map fun v => (Tile.read v).xpose y.1.r.xpose
          let d := tilesBytes (l.map (·.1)) (decide (y.1.fb = .fallback))
          (write y.1 (y.1.r.dst / 128 * 128) d.2 d.1, flagIf (l.any (·.2)) F.BRW_STATUS_XPOSE_IGNORED b 0 y.2)))) ∧
        (∀ pa pol s1 c off, m.r.kind = 1 →
          translate p.part.val ⟨brwAsker b, y.1.xid, false, true, false, p.moveStep, y.1.r.dst, false, false⟩ y.2 = (.ok pa pol, s1) →
          placeOf pa s1 = .spad c off .plain →
          let r := loadTiles y.1.r.xpose y.1.tiles
          exec (.moveLoad b prog idx) s0 = .next (step (
            { y.1 with stage := 1, buf := t0Bytes r.1 y.1.r.count (decide (y.1.fb = .fallback)), cores := flagCores b (c / 64) y.1.r,
                       todo := (receivers y.1.r.place (c % 64)).flatMap fun x =>
                         coreSegs (16 * r.1.h.bandGran) (64 * (c / 64) + x.1) off x.2 },
            flagIf r.2.1 F.BRW_STATUS_RUN_MISMATCH b 0 (flagIf r.2.2 F.BRW_STATUS_XPOSE_IGNORED b 0 s1)))) ∧
        (∀ pa pol s1 c off form, m.r.kind = 2 → m.stage = 0 →
          translate p.part.val ⟨brwAsker b, m.xid, true, false, false, p.moveStep, m.srcVA, false, false⟩ s = (.ok pa pol, s1) →
          placeOf pa s1 = .spad c off form → exec (.moveStore b prog idx) s0 = .next (step (
            { m with stage := 1, base := pa, tier := 0, tiered := true, todo := t0Segs .read c (off + 32752) 16 0 }, s1))) ∧
        (∀ c off, m.r.kind = 2 → m.stage = 1 → windowOf (localOf m.base) = some (c, off) →
          exec (.moveStore b prog idx) s0 = .next (step (
            { m with stage := 2, todo := t0Segs .read c off (m.header.bands * (16 * m.header.bandGran)) 16 }, s))) ∧
        (m.r.kind = 2 → 2 ≤ m.stage → exec (.moveStore b prog idx) s0 = .next (step (
          let r := storeTiles m.form m.r.count m.r.operand.toNat m.r.tileBand m.r.tileSlot m.r.xpose
          let d := tilesBytes (r.1.map (·.1)) (decide (m.fb = .fallback))
          (write y.1 (m.r.dst / 128 * 128) d.2 d.1,
            flagIf r.2 F.BRW_STATUS_RUN_MISMATCH b 0 (flagIf (r.1.any (·.2)) F.BRW_STATUS_XPOSE_IGNORED b 0 y.2))))) ∧
        (let e := m.r.elem
         let len := m.r.len / e * e
         (∀ pa pol s1 c off form, m.r.kind = 5 → m.stage = 0 →
           translate p.part.val ⟨brwAsker b, m.xid, true, false, false, p.moveStep, m.srcVA, false, false⟩ s = (.ok pa pol, s1) →
           placeOf pa s1 = .spad c off form → exec (.moveAtomic b prog idx) s0 = .next (step (
             { m with stage := 1, base := pa, tier := 0, tiered := true, cores := own, todo := t0Segs .read c off len 0 }, s1))) ∧
         (m.r.kind = 5 → 1 ≤ m.stage → exec (.moveAtomic b prog idx) s0 = .next (step (
           { m with stage := 2, todo := segs [⟨.atom, true, m.r.dst / e * e, len, 0⟩] }, s)))) ∧
        (let fetched (z : Move × State) : State :=
           let t := step z
           match moveOf b prog idx t with
           | some (_, x) =>
             if x.r.kind = 7 ∧ x.stage = 2 then drainMerge b (fun e => x.fly.any fun f => e.owners.contains f.id) t else t
           | none => t
         let out := exec (.moveFetch4 b prog idx) s0
         (m.r.kind = 7 → m.stage = 0 → m.r.len = 0 → out = .next (fetched ({ m with stage := 4, cores := own }, s))) ∧
         (∀ q t pa pol s1, m.r.kind = 7 → m.stage = 0 → m.r.len ≠ 0 → p.storeQ = some q → storeFull q s = false → storeBusy q s = false →
           (List.range 16).find? (fun x => !(tagsOf (s.bed b)).contains x) = some t →
           translate p.part.val ⟨brwAsker b, m.xid, false, true, false, p.moveStep, m.r.dst, false, false⟩ s = (.ok pa pol, s1) →
           let i := s1.nextId
           let m1 := { m with stage := 1, tag := some (t, i), base := pa, rel := some i, tiered := true, cores := own }
           out = .next (fetched (m1, drainMerge b (fun _ => true) s1))) ∧
         (∀ q t k, m.r.kind = 7 → m.stage = 1 → p.storeQ = some q → m.tag = some t → m.rel = some k → bedPerformed b k s = true →
           let m1 := { m with stage := 2, buf := storageRequest b p m t.1 m.base, todo := [⟨.write, false, storeEntry q s, 64, 0⟩] }
           out = .next (fetched (m1, s))) ∧
         (∀ q, m.r.kind = 7 → m.stage = 2 → p.storeQ = some q → out = .next (fetched ({ m with stage := 3 }, storeAdvance q s)))))) ∧
    (∀ (tag : Fin 16) (p : Prog) (m : Move),
      ((s0.bed b).progs.findSome? fun q =>
        (q.moves.find? fun x => decide (x.tag.map (·.1) = some tag.val) && decide (x.stage = 3)).map fun x => (q, x)) = some (p, m) →
      exec (.t4Done b tag true) s0 = .next (putMove b p.id { m with tag := none, bad := some .dataLost, todo := [] } s0) ∧
      exec (.t4Done b tag false) s0 = .next (incF F.BRW_BYTES_COUNT b 4 m.r.len
        (putMove b p.id { m with tag := none, stage := 4, st := .written, acquired := true } (invShared b s0))))

/-- Kicking, starting, issuing and ending a barrow program (03_core_program.md R93, 05_memory_model.md R151, 05_memory_model.md
R152, 07_tiers_barrow.md R208, 07_tiers_barrow.md R209, 07_tiers_barrow.md R210, 07_tiers_barrow.md R214, 07_tiers_barrow.md
R219, 07_tiers_barrow.md R220, 07_tiers_barrow.md R224, 07_tiers_barrow.md R228). -/
def Obligations.BarrowPrograms : Prop :=
  ∀ (b : BedId) (s : State),
    (∀ (c : CoreId) (program : BitVec 12) (l : Launch), Takes c .sync (.kick c program) s →
      let s1 := beginSlot c .sync s
      (s1.part (s1.core c).part).launch = some l →
      ((s1.bed (c / 64)).stopping = true → exec (.kick c program) s = .next s1) ∧
      (let s2 := { s1 with nextId := s1.nextId + 1 }
       let q := kickProg c program.toNat l s1.nextId s2
       let k := s2.bed (c / 64)
       let armed := insertProg q k.armed
       (k.stopping = false → k.armed.length < 64 → exec (.kick c program) s = .next (incF F.BRW_KICKS_COUNT (c / 64) 0 1
        (s2.putBed (c / 64) { k with armed := armed }))) ∧
       (k.stopping = false → 64 ≤ k.armed.length → exec (.kick c program) s =
        .next (flagF F.BRW_STATUS_KICK_DROPPED (c / 64) 0 (s2.putBed (c / 64) { k with armed := armed.take 64 }))))) ∧
    (∀ (p : Prog) (rest : List Prog), (s.bed b).armed = p :: rest → (s.bed b).progs.length < 16 →
      s.bgPower (bgOf b) = 0 → p.desc ≠ none ∨ p.at0 + 3 ≤ (s.bed b).act → p.stop = false →
      (∀ v s1, (p.via b).getRange (p.table + 16 * p.prog) 16 s = (.ok v, s1) →
        let q := { p with base := cut v 0 8 / 64 * 64, count := cut v 8 4 }
        let s2 := (p.via b).done s1
        let k := s2.bed b
        let t := s2.putBed b { k with armed := k.armed.filter (fun x => decide (x.id ≠ p.id)), progs := k.progs ++ [q] }
        exec (.programStart b) s = .next (if q.count = 0 then endProg b q t else readNext b q t)) ∧
      (∀ s1, (p.via b).getRange (p.table + 16 * p.prog) 16 s = (.wait, s1) → exec (.programStart b) s = .next s1)) ∧
    (s.bgPower (bgOf b) = 0 →
      let s1 := collect b s
      let s2 := ((s1.bed b).progs.map (·.id)).foldl (fun z i => readMore b i z) s1
      let all := (s2.bed b).turns.flatMap fun p =>
        if p.stop || p.failed.isSome then [] else (candidates b p s2 [] p.moves).map fun i => (p.id, i)
      let may := match acquirer b s2 with
        | some a => all.filter fun x => decide (x = a)
        | none => all
      exec (.moveIssue b) s = .next (may.foldl (tryIssue b) (false, s2)).2) ∧
    (∀ (prog idx : Nat) (p : Prog) (m : Move),
      let s1 := collect b s
      moveOf b prog idx s1 = some (p, m) →
      (m.performed = true → p.failed = none → p.stop = false → m.undecided = false → agreeCame p m s1 = true →
        m.r.raise = false ∨ (∃ n, m.waits = some n ∧ bedPerformed b n s1 = true) →
        exec (.moveComplete b prog idx) s = .next (
          let late := m.r.hasDue && tickPassed (p.stepTick + m.r.due) s1
          let s2 := if m.r.raise then m.cores.foldl (fun z c => deliver c 0 0 (.flag m.r.flag false) z) s1 else s1
          let s3 := if late then incF F.BRW_LATE_COUNT b m.tier 1 (flagF F.BRW_STATUS_LATE b 0 s2) else s2
          let y := acquire b m s3
          let s4 := incF F.BRW_MOVES_COUNT b 0 1 (putMove b p.id { y.1 with st := .done, waits := none, buf := 0 } y.2)
          match (s4.bed b).prog p.id with
          | none => s4
          | some q => if q.moves.length = q.count ∧ q.moves.all Move.ended then endProg b q s4 else readMore b p.id s4)) ∧
      (m.performed = false ∨ p.failed ≠ none ∨ p.stop = true → exec (.moveComplete b prog idx) s = .next s1) ∧
      (∀ st, m.bad = some st → m.undecided = false → p.failed = none →
        exec (.moveError b prog idx) s =
          .next (failProg b { p with moves := p.moves.map fun x => if x.idx = m.idx then { m with st := .failed st, tag := none } else x }
            idx st m.ue s1)) ∧
      (m.bad = none ∨ m.undecided = true ∨ p.failed ≠ none → exec (.moveError b prog idx) s = .next s1))

/-- The decision tick and the agreement tick of a fallback set (07_tiers_barrow.md R222, 07_tiers_barrow.md R223,
07_tiers_barrow.md R224, 07_tiers_barrow.md R226). -/
def Obligations.FallbackSets : Prop :=
  ∀ (p : PartId) (group dec : BitVec 16) (l : Launch) (s : State), launchOf p s = some l →
    let g := group.toNat
    let d := dec.toNat
    exec (.fbDecide p group dec) s = .next ((l.stepsOf p g d s).foldl (fun z e => decideSet p e.1 e.2 g d z) s) ∧
    exec (.fbAgree p group dec) s = .next
      ((l.decided.filter fun x => decide (x.group = g) && decide (x.decide = d)).foldl (fun z x => agreeSet p x z) s) ∧
    (l.step, l.stepTick) ∈ l.stepsOf p g d s ∧
    (∀ step tick, s.tick < tick + d → decideSet p step tick g d s = s) ∧
    (∀ step tick, l.started = true → l.stop = false → tick + d ≤ s.tick → l.fbSet step g d = none → l.replayLog = 0 →
      let s0 := l.bedList.foldl (fun z b => collect b z) s
      let beds := l.bedList.filter fun b => bedLate p step g d b s0
      let mark (m : Move) : Move := if m.isLate then { m with fb := .late } else m
      let s1 := beds.foldl (fun z b => mapSet p step g d mark b z) s0
      let l1 := ((launchOf p s0).getD l).putSet ⟨step, tick, g, d, beds.length, none⟩
      (beds = [] → decideSet p step tick g d s = putLaunch p l1 s1) ∧
      (beds ≠ [] → decideSet p step tick g d s =
        let s2 := putLaunch p { l1 with reports := l1.reports ++ [⟨ownPkg s1, step, 1, g, d⟩] } s1
        if l1.grove && l1.locked then
          flood (.agree p (.fallback (BitVec.ofNat 32 step) (BitVec.ofNat 16 g) (BitVec.ofNat 16 d))) s2 else s2)) ∧
    (∀ x : FbSet, x.outcome = none →
      (s.tick < x.stepTick + x.decide + l.delay s → agreeSet p x s = s) ∧
      (x.stepTick + x.decide + l.delay s ≤ s.tick → l.stop = false →
        let n := l.latePkgs x.step x.group x.decide
        let s0 := l.bedList.foldl (fun z b => collect b z) s
        (n = 0 →
          let l1 := l.putSet { x with outcome := some false }
          agreeSet p x s = l1.bedList.foldl
            (fun z b => mapSet p x.step x.group x.decide (fun m => { m with fb := .primary }) b z) (putLaunch p l1 s0)) ∧
        (0 < n →
          let l1 := l.putSet { x with outcome := some true }
          let s1 := l1.bedList.foldl (fun z b => fallBed p x.step x.group x.decide b z) (putLaunch p l1 s0)
          agreeSet p x s = match launchOf p s1 with
            | some l2 => logFallback p l2 x n s1
            | none => s1)))

/-- Walks, fills, fault records and the fault queue (08_translation.md R231, 08_translation.md R234, 08_translation.md R235,
08_translation.md R236, 08_translation.md R237, 08_translation.md R239, 08_translation.md R244, 08_translation.md R246,
08_translation.md R247, 08_translation.md R248). -/
def Obligations.Translations : Prop :=
  ∀ (s : State),
    (∀ x : XltReq,
      let w : XWait := ⟨x.who, x.id, x.r, x.w, x.a, x.step, x.va.toNat, true, false⟩
      let c := x.ctx.val
      let va := x.va.toNat
      (ctxOn c s = false → exec (.xltWalk x) s = .next (respond x.id .pageFault 0 s) ∧
        ∀ why : Fin 8, exec (.faultRecordOpen x why) s = .next (respond x.id .pageFault 0 s)) ∧
      (∀ t s1, ctxOn c s = true → lookTlb x.who c va s = (some t, s1) → exec (.xltWalk x) s = .next (match t.denies x.r x.w x.a with
        | none => respond x.id .ok (BitVec.ofNat 1024 (t.phys va)) s1
        | some why => openFault c va why w s1)) ∧
      (∀ s1, ctxOn c s = true → lookTlb x.who c va s = (none, s1) →
        let s2 := { s1 with nextId := s1.nextId + 1 }
        let k : Walk := ⟨s1.nextId, c, va, [w], .queued, 0, [], false⟩
        let under := (s1.walks.filter fun y => decide (y.now ≠ .queued)).length
        (walkOf c va s1 = none → under < 64 → exec (.xltWalk x) s = .next (
          let z := k.begin s2
          { z.2 with walks := z.2.walks ++ [z.1] })) ∧
        (walkOf c va s1 = none → 64 ≤ under → exec (.xltWalk x) s = .next { s2 with walks := s2.walks ++ [k] }) ∧
        (∀ k0, walkOf c va s1 = some k0 → exec (.xltWalk x) s = .next
          { s1 with walks := s1.walks.map fun y => if y.id = k0.id then { y with waiters := y.waiters ++ [w] } else y })) ∧
      (ctxOn c s = true → ∀ why : Fin 8, exec (.faultRecordOpen x why) s = .next (openFault c va why.val w s)) ∧
      (∀ why : Fin 8, ctxOn c s = true → why.val ≠ 7 →
        (s.faults.find? fun f => decide (f.ctx = c) && decide (vaOf f.va / 65536 = vaOf va / 65536)) = none →
        ∀ i, freeSlot s = some i → ∃ t f, exec (.faultRecordOpen x why) s = .next t ∧ f ∈ t.faults ∧
          f.slot = i ∧ f.ctx = c ∧ f.va = vaOf va ∧ f.cause = why.val ∧ f.waiters = [w] ∧ f.tick = s.tick ∧
          t.faults.length = s.faults.length + 1)) ∧
    (∀ id k q r, (s.walks.find? fun y => decide (y.id = id)) = some k → k.now = .read q → netGet q s = some r →
      (r.st ≠ .answered → exec (.xltFillReturn id) s = .next s) ∧
      (r.st = .answered → k.stale = true → ctxOn k.ctx s = true →
        let z := k.begin (netDel q s)
        exec (.xltFillReturn id) s = .next (putWalk z.1 z.2)) ∧
      (r.st = .answered → k.stale = false ∨ ctxOn k.ctx s = false →
        let s1 := netDel r.id s
        let gone := { s1 with walks := s1.walks.filter fun y => decide (y.id ≠ k.id) }
        let ends (e : WalkRes) (z : State) : State := nextWalk (k.waiters.foldl (endFor k.ctx e) z)
        (∀ t, r.status = .ok → entryLeads k.ctx k.va k.level (r.rdata.toNat % 2 ^ 64) = .inl (.leaf t) →
          exec (.xltFillReturn id) s = .next (ends (.leaf t) (cacheWalk k.path gone))) ∧
        (∀ n, r.status = .ok → entryLeads k.ctx k.va k.level (r.rdata.toNat % 2 ^ 64) = .inl (.fault n) →
          exec (.xltFillReturn id) s = .next (ends (.fault n) gone)) ∧
        (∀ w, r.status = .ok → entryLeads k.ctx k.va k.level (r.rdata.toNat % 2 ^ 64) = .inr w →
          let z := readEntry w.next w.level k.va s1
          exec (.xltFillReturn id) s = .next (putWalk { k with now := z.1, level := w.level, path := k.path ++ [w] } z.2)) ∧
        (r.status = .dieAbsent → exec (.xltFillReturn id) s = .next (ends (.fault 7) gone)) ∧
        (r.status = .dataLost → exec (.xltFillReturn id) s = .next (ends (.lost .dataLost) gone)))) ∧
    (∀ v : BitVec 16, exec (.fqHeadWrite v) s = .next
      (writeHeld s.faults (setF F.XLT_FQ_HEAD_INDEX 0 0 v.toNat s)))

/-- A filled translation is found, and gives the address below its leaf. In a sound state, after the leaf of an address is
filled for an asker, a lookup of that address by the same asker hits with that leaf; the physical address it gives keeps the
bits below the leaf; and a leaf permits an access exactly where it has every permission that the access needs. -/
def Obligations.FilledTranslationsHit : Prop :=
  ∀ (b : BedId) (ctx va e level : Nat) (s : State), level < 3 → Sound s →
    (∀ x ∈ (s.bed b).utlb.ways, x.2.hits ctx va = false) →
    let t := leafOf ctx va level e
    let s1 := fillAll (.barrow b) t s
    (∃ s2, lookTlb (.barrow b) ctx va s1 = (some t, s2)) ∧
    t.phys va % 2 ^ leafShift level = vaOf va % 2 ^ leafShift level ∧
    (∀ r w a, t.denies r w a = none ↔ ((r = true → e.testBit 2 = true) ∧ (w = true → e.testBit 3 = true) ∧ (a = true → e.testBit 4 = true)))

/-- Withdrawing translations (08_translation.md R240, 08_translation.md R241, 08_translation.md R242, 08_translation.md R243,
08_translation.md R244). -/
def Obligations.Invalidations : Prop :=
  ∀ (s : State),
    (∀ f : XInvF,
      let c := min 32 f.ctx.toNat
      exec (.xinvalPage f) s = .next (startInv ⟨some c, f.vpn.toNat, 1⟩ (some f.epoch) f.bedc s) ∧
      exec (.xinvalRange f) s = .next (startInv ⟨some c, f.vpn.toNat, f.count.toNat + 1⟩ (some f.epoch) f.bedc s) ∧
      exec (.xinvalContext f) s = .next (startInv ⟨some c, 0, 2 ^ 39⟩ (some f.epoch) f.bedc s) ∧
      exec (.xinvalAll f) s = .next (startInv ⟨none, 0, 2 ^ 39⟩ none f.bedc s)) ∧
    (∀ x e b, let t := startInv x e b s
      (∀ y ∈ t.iotlb, ∀ w ∈ y.2.ways, x.takes w.2 = false) ∧ (∀ y ∈ t.ptc, ∀ w ∈ y.2.ways, x.takes w.2 = false) ∧
      (∀ y ∈ t.beds, ∀ w ∈ y.2.utlb.ways, x.takes w.2 = false) ∧ (∀ y ∈ t.walkc, x.takesWalk y = false)) ∧
    (∀ i : CtxId,
      (bitF F.XLT_CTX_ROOT_EN 0 i s = true → exec (.ctxDisable i) s =
        .next (startInv ⟨some i.val, 0, 2 ^ 39⟩ none false (setF F.XLT_CTX_ROOT_EN 0 i 0 s))) ∧
      (bitF F.XLT_CTX_ROOT_EN 0 i s = false → exec (.ctxDisable i) s = .next s)) ∧
    (∀ id (recv : Fin 4802),
      let one (x : XInv) : XInv :=
        if x.id = id ∧ owes recv.val x.ctx x.floor s = false then { x with waiting := x.waiting.filter (· ≠ recv.val) } else x
      exec (.xinvalDrained id recv) s = .next { s with xinvs := s.xinvs.map one }) ∧
    (∀ id x, (s.xinvs.find? fun x => decide (x.id = id)) = some x → x.waiting = [] → behind id x.ctx s.xinvs = false →
      let ends (z : State) : State :=
        let z1 := { z with xinvs := z.xinvs.filter fun y => decide (y.id ≠ x.id) }
        fencesPass x.id (if x.epoch.isSome || x.ctx.isNone then incF F.XLT_INVALS_COUNT 0 0 1 z1 else z1)
      (x.wr = none → x.ctx = none ∨ x.epoch = none → exec (.xinvalComplete id) s = .next (ends s)) ∧
      (∀ q, x.wr = some q → exec (.xinvalComplete id) s = .next (if writeOver q s then ends s else s)) ∧
      (∀ c e, x.wr = none → x.ctx = some c → x.epoch = some e →
        let s1 := advanceEpoch c e s
        let a := getF F.XLT_CTX_EPADDR_ADDR 0 c s1 * 4
        (iommuClear s = false → exec (.xinvalComplete id) s = .next s) ∧
        (iommuClear s = true → a = 0 → exec (.xinvalComplete id) s = .next (ends s1)) ∧
        (iommuClear s = true → a ≠ 0 → exec (.xinvalComplete id) s = .next (
          let r := hostWrite a 4 (getF F.XLT_CTX_EPOCH_EPOCH 0 c s1) s1
          { r.2 with xinvs := r.2.xinvs.map fun y => if y.id = x.id then { y with wr := some r.1 } else y })))) ∧
    (∀ id, (s.xinvs = [] → exec (.iofenceC id) s = .next (respond id .ok 0 s)) ∧
      (s.xinvs ≠ [] → exec (.iofenceC id) s = .next { s with iofences := s.iofences ++ [(id, s.xinvs.map (·.id))] }))

/-- Answers to fault records and their timeout (08_translation.md R249, 08_translation.md R250, 08_translation.md R251). -/
def Obligations.FaultAnswers : Prop :=
  ∀ (s : State),
    let closed (f : FaultRec) (ans : Nat → State → XWait → State) (z : State) : State :=
      let z1 := f.waiters.foldl (ans f.ctx) { z with faults := z.faults.filter fun x => decide (x.slot ≠ f.slot) }
      z1.faultWait.foldl (fun y w => openFault w.ctx w.w.va w.cause w.w y) { z1 with faultWait := [] }
    (∀ id : BitVec 16,
      let found := s.faults.find? fun f => decide (f.slot = id.toNat % 256) && decide (f.gen = id.toNat / 256)
      (∀ f, found = some f →
        exec (.xrespRetry id) s = .next (closed f retryWaiter s) ∧ exec (.xrespFail id) s = .next (closed f failWaiter s)) ∧
      (found = none → exec (.xrespRetry id) s = .next (flagF F.XLT_STATUS_STALE_RESP 0 0 s) ∧
        exec (.xrespFail id) s = .next (flagF F.XLT_STATUS_STALE_RESP 0 0 s))) ∧
    (∀ (slot : Fin 256) (f : FaultRec), (s.faults.find? fun f => decide (f.slot = slot.val)) = some f →
      let ms := getF F.XLT_CTRL_TIMEOUT_MS 0 0 s
      (ms = 0 ∨ s.tick ≤ f.tick + 25000 * ms → exec (.faultTimeout slot) s = .next s) ∧
      (ms ≠ 0 → f.tick + 25000 * ms < s.tick → exec (.faultTimeout slot) s = .next (closed f failWaiter
        (incF F.XLT_TIMEOUTS_COUNT 0 0 1 (flagF F.XLT_STATUS_TIMEOUT 0 0 s)))))

/-- Ring set-up, doorbells, fetching, committing, aborting and completion records (09_command.md R256, 09_command.md R258,
09_command.md R259, 09_command.md R260, 09_command.md R261, 09_command.md R263, 09_command.md R272, 09_command.md R273,
09_command.md R274, 09_command.md R282, 09_command.md R283). -/
def Obligations.RingsRun : Prop :=
  ∀ (n : RingId) (s : State),
    (∀ (v : BitVec 32) (w : Who), w.host = true → bitF F.CMD_RING_CFG_EN 0 n s = true →
      (bitF F.CMD_RING_CFG_DIR 0 n s = false →
        exec (.cmdDbTail n v w) s = .next (moveIndex F.CMD_DB_TAIL_TAIL n v.toNat
          ((getF F.CMD_DB_CQ_HEAD_CQ_HEAD 0 n s + ringSize n s) % 2 ^ 32) s) ∧
        exec (.cmdDbCqHead n v w) s = .next (moveIndex F.CMD_DB_CQ_HEAD_CQ_HEAD n v.toNat (getF F.CMD_DB_CQ_TAIL_CQ_TAIL 0 n s) s)) ∧
      (bitF F.CMD_RING_CFG_DIR 0 n s = true →
        exec (.cmdDbHead n v w) s = .next (moveIndex F.CMD_DB_HEAD_HEAD n v.toNat (getF F.CMD_DB_TAIL_TAIL 0 n s) s))) ∧
    (∀ (v : BitVec 32) (w : Who) (i : Instr), i ∈ [Instr.cmdDbTail n v w, .cmdDbCqHead n v w, .cmdDbHead n v w] →
      (w.host = false → exec i s = .next s) ∧
      (w.host = true → bitF F.CMD_RING_CFG_EN 0 n s = false → exec i s =
        .next (setF F.CMD_STATUS_LAST_RING 0 0 n (flagF F.CMD_STATUS_DISABLED_WRITE 0 0 s)))) ∧
    (∀ v : BitVec 32, exec (.ringCfgWrite n v) s =
      let s1 := swWriteReg .CMD_RING_CFG 0 n (v.setWidth 64) (ringMask n s) s
      .next (if bitF F.CMD_RING_CFG_EN 0 n s = false ∧ bitF F.CMD_RING_CFG_EN 0 n s1 = true then ringEnable n s1 else s1)) ∧
    (∀ m, bitF F.CMD_CTRL_EN 0 0 s = true → nextRing s = some m →
      let at0 := ringBase m s + 64 * (getF F.CMD_DB_HEAD_HEAD 0 m s % ringSize m s)
      let got := ringAccess at0 (ask (.cmd m) 1 (ringWho m s) at0 64) s
      (∀ v s1, got = (.ok v, s1) → exec .descFetch s = .next (descArrives m (BitVec.ofNat 512 v) none (askDone (.cmd m) 1 s1))) ∧
      (∀ s1, got = (.wait, s1) → exec .descFetch s = .next s1)) ∧
    (∀ r l, (s.ring n).reports = r :: l → (s.ring n).aborts.any (fun a => decide (a.cyc < r.cyc)) = false →
      exec (.commitReport n) s = .next (takeReport n r (s.putRing n { s.ring n with reports := l }))) ∧
    (∀ a l, (s.ring n).aborts = a :: l → (s.ring n).reports.any (fun r => decide (r.cyc ≤ a.cyc)) = false →
      exec (.abortResolve n) s = .next (takeAbort n a (s.putRing n { s.ring n with aborts := l }))) ∧
    (∀ idx : BitVec 32, ∀ d, getDesc n idx.toNat s = some d → d.kind = 11 → descRuns n d s = true →
      let s1 := putDesc n { d with st := .started } s
      let t := d.target
      ringHost n s = true → (s1.ring t.1).aborts.any (fun a => decide (a.ring = n.val) && decide (a.idx = idx.toNat)) = false →
      (submitted t.1 t.2 s1 && unfetched t.1 t.2 s1) = false → exec (.abort n idx) s =
        .next (s1.putRing t.1 { s1.ring t.1 with aborts := (s1.ring t.1).aborts ++ [⟨n, idx.toNat, t.2, s1.cyc⟩] })) ∧
    (∀ d s1, (s.ring n).descs.foldl (fun z d => moveOver n d z) s = s1 → nextRecord n s1 = some d →
      bitF F.CMD_RING_STAT_STOPPED 0 n s1 = false →
      let q := getF F.CMD_DB_CQ_TAIL_CQ_TAIL 0 n s1
      let at0 := getF F.CMD_RING_CQ_BASE 0 n s1 * 4096 + 16 * (q % ringSize n s1)
      let put := ringAccess at0 (tell (.cmd n) 2 (ringWho n s1) at0 16 65535 (recordBytes n q d s1)) s1
      (d.recording = false → ringPerformed n s1 = false →
        exec (.completionRecord n) s = .next (putDesc n { d with recording := true } s1)) ∧
      (d.recording = true ∨ ringPerformed n s1 = true →
        (∀ x, put = (.wait, x) → exec (.completionRecord n) s = .next (putDesc n { d with recording := true } x)) ∧
        (∀ x, put = (.ok 0, x) →
          let s3 := incF F.CMD_RECORDS_COUNT 0 0 1
            (setF F.CMD_DB_CQ_TAIL_CQ_TAIL 0 n ((q + 1) % 2 ^ 32) (dropDesc n d.idx (askDone (.cmd n) 2 x)))
          exec (.completionRecord n) s = .next (if recordIrq n d s1 then irq (getF F.CMD_RING_CFG_IID 0 n s1) s3 else s3)) ∧
        (∀ x st, put = (.bad st, x) → exec (.completionRecord n) s = .next (flagF F.CMD_RING_STAT_STOPPED 0 n
          (flagF F.CMD_RING_STAT_CQ_LOST 0 n (ringEvent F.CMD_STATUS_CQ_LOST n (dropDesc n d.idx (askDone (.cmd n) 2 x)))))))) ∧
    (∀ d s1, (s.ring n).descs.foldl (fun z d => moveOver n d z) s = s1 → nextRecord n s1 = some d →
      bitF F.CMD_RING_STAT_STOPPED 0 n s1 = true → exec (.completionRecord n) s = .next (dropDesc n d.idx s1))

/-- A doorbell never moves TAIL past the room of its ring. In a sound state in which TAIL of a submission ring is ahead of
CQ_HEAD by at most its size, whatever a CMD_DB_TAIL write carries it stays so; a write within the room is taken as it is;
one that passes it by less than 2^31 leaves TAIL at the limit, and one that would go back leaves TAIL, both with TAIL_CLAMP
of the ring set; and no register but those of R256 changes. -/
def Obligations.TailKeepsRoom : Prop :=
  ∀ (n : RingId) (v : BitVec 32) (w : Who) (s : State), Sound s → w.host = true → bitF F.CMD_RING_CFG_EN 0 n s = true →
    bitF F.CMD_RING_CFG_DIR 0 n s = false →
    let tail := getF F.CMD_DB_TAIL_TAIL 0 n
    let head := getF F.CMD_DB_CQ_HEAD_CQ_HEAD 0 n s
    let size := ringSize n s
    idxDiff (tail s) head ≤ size → ∃ t, exec (.cmdDbTail n v w) s = .next t ∧ idxDiff (tail t) head ≤ size ∧
      (idxDiff v.toNat (tail s) ≤ size - idxDiff (tail s) head → tail t = v.toNat) ∧
      (size - idxDiff (tail s) head < idxDiff v.toNat (tail s) → bitF F.CMD_RING_STAT_TAIL_CLAMP 0 n t = true ∧
        tail t = (if idxDiff v.toNat (tail s) < 2 ^ 31 then (head + size) % 2 ^ 32 else tail s)) ∧
      (∀ r u i, regKey r u i ∉ [regKey .CMD_DB_TAIL 0 n, regKey .CMD_RING_STAT 0 n, regKey .CMD_STATUS 0 0] →
        readReg r u i t = readReg r u i s) ∧ t = { s with regs := t.regs }

/-- NOP, FENCE, SIGNAL, WAIT and MOVE descriptors (05_memory_model.md R151, 09_command.md R262, 09_command.md R263,
09_command.md R264, 09_command.md R269, 09_command.md R270). -/
def Obligations.DescriptorsRun : Prop :=
  ∀ (n : RingId) (idx : BitVec 32) (d : Desc) (s : State), getDesc n idx.toNat s = some d → descRuns n d s = true →
    let i := idx.toNat
    let d1 := { d with st := .started }
    let s1 := putDesc n d1 s
    let v := descVia n d1 s1
    (d.kind ∈ [0, 12, 13, 14, 15] → exec (.descNop n idx) s = .next (finishDesc n i (d.unread.getD .ok) 0xFFFF 0 s1)) ∧
    (d.kind = 3 →
      (earlierDescs n i s1 = [] → ringPerformed n s1 = true → exec (.fence n idx) s = .next (finishDesc n i .ok 0xFFFF 0 s1)) ∧
      (earlierDescs n i s1 ≠ [] ∨ ringPerformed n s1 = false → exec (.fence n idx) s = .next s1)) ∧
    (d.kind = 4 →
      let a := signalAtom d1
      (∀ r, signalAsked v s1 = some r →
        (r.st ≠ .answered → exec (.signal n idx) s = .next s1) ∧
        (r.st = .answered → r.status = .ok →
          exec (.signal n idx) s = .next (finishDesc n i .ok 0xFFFF 0 (descDone d1 (netDel r.id s1)))) ∧
        (r.st = .answered → r.status ≠ .ok → exec (.signal n idx) s =
          .next (finishDesc n i r.status 0xFFFF 0 (descLost n d1 r.status (descDone d1 (netDel r.id s1)))))) ∧
      (signalAsked v s1 = none →
        (ringPerformed n s1 = false → exec (.signal n idx) s = .next s1) ∧
        (∀ pa pol s2, ringPerformed n s1 = true →
          translate v.ctx ⟨v.who, v.id, false, true, !atomPlain a, v.step, d1.get 8 8, false, false⟩ s1 = (.ok pa pol, s2) →
          placeOf pa s2 ≠ .gone → exec (.signal n idx) s = .next (signalSend v a pa s2)))) ∧
    (∀ x s2, d.kind = 5 →
      let size := if (d.get 0x20 1).testBit 2 then 8 else 4
      v.get (d.get 8 8 / size * size) size s1 = (.ok x, s2) →
      let s3 := descDone d1 s2
      let out : Host.Outcome State Fault Refusal := .next (if waitMet d1 x then sendReport n d.idx .ok 0xFFFF (x % 2 ^ 32) s3
        else putDesc n { d1 with pollAt := s3.tick + getF F.CMD_CTRL_POLL_TICKS 0 0 s3 } s3)
      (d.pollAt = 0 → exec (.wait n idx) s = out) ∧
      (d.pollAt ≠ 0 → d.pollAt ≤ s.tick → exec (.waitPoll n idx) s = out)) ∧
    (d.kind = 2 →
      let b := min 4799 (d.get 0x12 2)
      let p := descPart n d1 s1
      let paused := bitF F.PWR_PART_STATUS_PAUSED 0 p s1
      (moveArmed n i b s1 = false → paused = true → exec (.move n idx) s = .next (putDesc n { d1 with st := .waiting } s1)) ∧
      ∀ o, moveArmed n i b s1 = false → paused = false → bgOwner (bgOf b) s1 = some o → slotPresent (plotOf b) s1 = true →
        ringHost n s1 = true ∨ o = p → storeBad (d.get 0x14 2) p s1 = false → (s1.bed b).armed.length < 64 →
        let s2 := { s1 with nextId := s1.nextId + 1 }
        exec (.move n idx) s = .next (armProg b (moveProg n b s1.nextId d1 s2) s2))

/-- Staging, committing, reporting and closing a vote of the shelf (09_command.md R276, 09_command.md R277, 09_command.md R278,
09_command.md R279, 09_command.md R280). -/
def Obligations.ShelfRuns : Prop :=
  ∀ (s : State),
    (∀ (n : RingId) (idx : BitVec 32) (d : Desc), getDesc n idx.toNat s = some d → descRuns n d s = true →
      let d1 := { d with st := .started }
      let s1 := putDesc n d1 s
      ringHost n s1 = true →
      (∀ v s2, d.kind = 6 → (descVia n d1 s1).getRange (d.get 8 8) (24 * min 256 (d.get 0x10 2)) s1 = (.ok v, s2) →
        exec (.configStage n idx) s = .next (shelfStage n idx.toNat (d.get 0x12 1 % 16) ((d.get 0x13 1).testBit 0)
          (shelfList v (min 256 (d.get 0x10 2))) (descDone d1 s2))) ∧
      (∀ s2, d.kind = 6 → (descVia n d1 s1).getRange (d.get 8 8) (24 * min 256 (d.get 0x10 2)) s1 = (.wait, s2) →
        exec (.configStage n idx) s = .next s2) ∧
      (d.kind = 7 →
        let e := d.get 8 1 % 16
        let t := d.get 0xC 4
        let p := descPart n d1 s1
        let x := shelfOf e s1
        x.commit = none → x.writes ≠ [] → t = 0xFFFFFFFF ∨ (∀ q, partStep p s1 = some q → q < t) →
        exec (.configCommit n idx) s = .next (putShelf e { x with commit := some (n.val, idx.toNat, p, t), reports := [], closed := false }
          (setF F.CMD_SHELF_TARGET_STEP 0 e t (setF F.CMD_SHELF_PART 0 e p (setF F.CMD_SHELF_STATE 0 e 2 s1)))))) ∧
    (∀ (e : Fin 16) (q : Fin 13), let x := shelfOf e s
      x.commit ≠ none → x.parts.contains q.val = true → partPresent q s = true → x.reports.any (fun r => decide (r.1 = q)) = false →
      exec (.shelfParticipantReport e q) s =
        .next (putShelf e { x with reports := x.reports ++ [(q.val, shelfJudge q x.writes s, s.tick)] } s)) ∧
    (∀ (e : Fin 16) (n i p t : Nat), let x := shelfOf e s
      x.commit = some (n, i, p, t) → t = 0xFFFFFFFF ∨ partRuns p s = false → x.gathered s = true → x.closed = false →
      (x.verdict none s = none → exec (.shelfVoteClose e) s = .next (putShelf e { x with closed := true } s)) ∧
      (∀ cause info, x.verdict none s = some (cause, info) → exec (.shelfVoteClose e) s =
        .next (sendReport n i .cfgAbandoned cause info (incF F.CMD_CFG_ABANDONED_COUNT 0 0 1
          (freeShelf e (setF F.CMD_SHELF_LAST_CAUSE 0 e cause s)))))) ∧
    (shelfTick s = (List.range 16).foldl (fun z e => if (shelfOf e z).closed then shelfPut e 0 z else z) s) ∧
    (∀ (e n i p t : Nat), (shelfOf e s).commit = some (n, i, p, t) → shelfPut e 0 s = sendReport n i .completed 0xFFFF 0
      (freeShelf e (incF F.CMD_CFG_APPLIED_COUNT 0 0 1 ((shelfOf e s).writes.foldl (fun z w => w.put z) s))))

/-- Launches, their instruction buffers, sync points, and their ends (03_core_program.md R95, 03_core_program.md R99,
03_core_program.md R100, 03_core_program.md R101, 09_command.md R265, 09_command.md R266, 09_command.md R267, 09_command.md
R268). -/
def Obligations.LaunchesRun : Prop :=
  ∀ (s : State),
    (∀ (n : RingId) (idx : BitVec 32) (d : Desc), getDesc n idx.toNat s = some d → d.kind = 1 → descRuns n d s = true → d.st ≠ .started →
      let p := descPart n d s
      let d1 := { d with st := .waiting }
      let s1 := queueDesc p n idx.toNat (putDesc n d1 s)
      (launchTurn p n idx.toNat s1 = false → exec (.launch n idx) s = .next s1) ∧
      (launchTurn p n idx.toNat s1 = true →
        let s2 := launchChecks p n d1 s1
        exec (.launch n idx) s = .next (if ((s2.part p).launch.map fun l => ((l.ring, l.idx) : Nat × Nat)) = some (n.val, idx.toNat)
          then putDesc n { d1 with st := .started } s2 else s2))) ∧
    (∀ (b : BedId) (strm blk : Nat),
      let wants (k : Core) : Bool := k.follows strm && !k.ibWanted.contains blk &&
        ((List.range 32).any fun i => decide (32 * blk + i < k.streamLen) && (look k.ib (32 * blk + i)).isNone)
      exec (.ibRefill b strm blk) s = .next ((coresOf b).foldl (fun z c =>
        if wants (z.core c) then z.putCore c { z.core c with ibWanted := (z.core c).ibWanted ++ [blk] } else z) s)) ∧
    (∀ (b : BedId) (strm blk : Nat) (line : Fin 8) (c : Nat) (l : List Nat), wantsBlock b strm blk s = c :: l →
      let k := s.core c
      32 * blk + 4 * line.val < k.streamLen → (s.bed b).lineAt ≠ s.cyc + 1 →
      (exec (.ibRefillReturn b strm blk line true) s = .next (dropBlock b blk (c :: l) s)) ∧
      (let v := bsqVia b strm blk line k
       let got := v.getRange (k.streamVA + 1024 * blk + 128 * line.val) 128 s
       (∀ d s1, got = (.ok d, s1) → asked v.src v.tag s ≠ [] →
         exec (.ibRefillReturn b strm blk line false) s = .next (
           let s2 := v.done s1
           incF F.CORE_BSQ_REFILL_COUNT b 0 128
             ((c :: l).foldl (fun z x => takeLine x blk line d z) (s2.putBed b { s2.bed b with lineAt := s.cyc + 1 })))) ∧
       (∀ s1, got = (.wait, s1) → exec (.ibRefillReturn b strm blk line false) s =
         .next (if asked v.src v.tag s = [] ∧ asked v.src v.tag s1 ≠ [] then prefetchNext b strm blk line k s1 else s1)))) ∧
    (∀ c : CoreId, let k := s.core c
      k.active = true → k.finished = false → k.ended = true → k.wait = .none → coreQuiet c s = true →
      let s1 := s.putCore c { k with finished := true, haltAt := if k.halted then k.haltAt else actOf c s }
      exec (.coreFinish c) s = .next (if (coresOf (bedOf c)).all (fun d => (s1.core d).finished || !(s1.core d).active)
        then reportIfDone k.part (s1.putBed (bedOf c) { s1.bed (bedOf c) with reported := true }) else s1)) ∧
    (∀ b : BedId,
      let came := (coresOf b).all fun c => (s.core c).arrived && decide ((s.core c).arrivedAt + 4 ≤ (s.bed b).act)
      (came = true → exec (.syncRelease (.bed b)) s =
        .next ((coresOf b).foldl (fun z c => if (z.core c).atSync (fun v => decide (v = 0)) then passSync c z else z) s)) ∧
      (came = false → exec (.syncRelease (.bed b)) s = .next s)) ∧
    (∀ (p : PartId) (l : Launch), launchOf p s = some l →
      (l.started = true → l.stop = false → l.locked = false → stepGathered l s = true → l.quiesces = false →
        (s.part p).hold = .none → votesIn p (l.step + 1) s = true → s.cyc % 64 = 0 →
        (l.coreList.any (fun c => (s.core c).atSync fun v => decide (1 ≤ v) && (!l.grove || decide (v < 2))) = true →
          exec (.syncRelease (.part p)) s = .next (releaseStep p s.tick none (fun v => decide (1 ≤ v) && (!l.grove || decide (v < 2))) s)) ∧
        (l.grove = true → l.coreList.any (fun c => (s.core c).atSync fun v => decide (1 ≤ v)) = true →
          exec (.syncRelease (.grove p)) s = .next (releaseStep p s.tick none (fun v => decide (1 ≤ v)) s))) ∧
      (l.stop = true → l.stopSent = false → exec (.launchStop p) s = .next (sendReport l.ring l.idx (Status.joinAll .completed l.statuses)
        l.detail l.step (l.bedList.foldl (fun z b => stopBed p b z) (putLaunch p { l with stopSent := true } s)))) ∧
      (∀ st, committedTo l s = some st →
        let s1 := l.bedList.foldl (fun z b => drainMerge b (fun _ => true) z) s
        (s1.part p).hold ≠ .rolling → l.bedList.all (fun b => bedDrained p b s1) = true → l.locked = false → l.diverged = false →
        (l.rollback = false → exec (.launchDrained p) s = .next (releaseWaiters p (endLaunch p l st s1))) ∧
        (l.rollback = true → s1.mgt.resetTo = none → exec (.launchDrained p) s =
          .next (s1.putPart p { s1.part p with hold := .rolling, saving := none })))) ∧
    (∀ p : PartId, launchOf p s = none → exec (.launchStop p) s = .next s ∧ exec (.launchDrained p) s = .next s)

/-- Quiesce, dormancy, waking, saves and rollback (13_dormancy.md R371, 13_dormancy.md R374, 13_dormancy.md R376, 13_dormancy.md
R377, 13_dormancy.md R378, 13_dormancy.md R379, 09_command.md R271). -/
def Obligations.HeldPartitionsRun : Prop :=
  ∀ (s : State),
    (∀ (n : RingId) (idx : BitVec 32) (d : Desc), getDesc n idx.toNat s = some d → descRuns n d s = true →
      let i := idx.toNat
      let p := descPart n d s
      let d1 := { d with st := .started }
      let s1 := putDesc n d1 s
      (transitional p s = false ∨ d.st = .started →
        (d.kind = 8 → (s.part p).hold = .none → (s.part p).launch = none →
          exec (.quiesce n idx) s = .next (finishDesc n i .completed 0xFFFF 0 s1)) ∧
        (d.kind = 8 → (s.part p).hold ≠ .none → exec (.quiesce n idx) s = .next (finishDesc n i .completed 0xFFFF (heldStep p s) s1)) ∧
        (d.kind = 9 → d.form1 = false → (s.part p).imaging = none → (s.part p).hold = .retained →
          exec (.dormantRetention n idx) s = .next (retainedDone p s1)) ∧
        (∀ l, d.kind = 9 → d.form1 = false → (s.part p).imaging = none → (s.part p).hold = .quiesce → heldLaunch p s = some l →
          (s.part p).saving = none → heldSaved p s = true →
          exec (.dormantRetention n idx) s = .next (retainedDone p (retainLaunch p l s1))) ∧
        (∀ l, d.kind = 9 → d.form1 = true → (s.part p).imaging = none ∨ (s.part p).imaging = some ⟨n, i⟩ →
          (s.part p).hold = .quiesce → heldLaunch p s = some l → exec (.dormantImage n idx) s = .next (imageNow p n d1 l s1)) ∧
        (d.kind = 10 → d.wakeForm = 2 → wakeRuns p n i s = false → (s.part p).queue.contains ⟨n, i⟩ = false →
          (s.part p).hold = .quiesce → exec (.wakeHold n idx) s = .next
            (s1.putPart p { s1.part p with hold := .none, woken := some ⟨n, i⟩ })) ∧
        (d.kind = 10 → d.wakeForm = 1 → wakeRuns p n i s = false →
          exec (.wakeImage n idx) s = .next (wakeAsLaunch p n d1 (imageChecks p n { d with st := .waiting }) s1)) ∧
        (∀ l x y, d.kind = 10 → d.wakeForm = 0 → wakeRuns p n i s = false → (s.part p).queue.contains ⟨n, i⟩ = false →
          (s.part p).hold = .retained → (s.part p).launch = some l → wakeHeld p l s1 = (x, y) →
          (x = .wait → exec (.wakeRetention n idx) s = .next y) ∧
          (x = .ok → exec (.wakeRetention n idx) s = .next (y.putPart p { y.part p with hold := .none, woken := some ⟨n, i⟩ })) ∧
          (∀ st, x = .bad st → exec (.wakeRetention n idx) s = .next (finishDesc n i st 0xFFFF 0 (wakeFailed p st y))))) ∧
      (transitional p s = true → d.st ≠ .started → d.kind = 8 → exec (.quiesce n idx) s = .next (putDesc n { d with st := .waiting } s)) ∧
      (d.st = .waiting → transitional p s = false → exec (.descWaitPartitionReady n idx) s = .next (partDesc n i s)) ∧
      (d.st ≠ .waiting ∨ transitional p s = true → exec (.descWaitPartitionReady n idx) s = .next s)) ∧
    (∀ (b : BedId) (l : Launch), let p := (s.bed b).part
      launchOf p s = some l →
      ((s.bed b).running = true → maySave p b l s = true → exec (.quiesceSave b) s = .next (saveBed p b l s)) ∧
      ((s.bed b).saving = true → saveAnswers b s = some .ok →
        let s1 := askDone (.bsq b) 3 (askDone (.bsq b) 2 s)
        exec (.saveComplete b) s = .next (packageSaved p (s1.putBed b { s1.bed b with saving := false, saved := true })))) ∧
    (∀ (p : PartId) (l : Launch), launchOf p s = some l →
      (∀ q, (s.part p).saving = some q →
        let k := s.part p
        (k.saveOver = false → exec (.pointCommit p) s = .next s) ∧
        (k.saveOver = true → k.saveBad = true → exec (.pointCommit p) s = .next (s.putPart p { k with saving := none })) ∧
        (k.saveOver = true → k.saveBad = false → l.grove = false →
          let slot := freeSaveSlot k
          exec (.pointCommit p) s = .next (notePoint p slot q ((s.tick - k.saveAt) / 25)
            (s.putPart p { k with saving := none, committed := some (slot, q), slotSteps := lput k.slotSteps slot q })))) ∧
      (∀ st, (s.part p).hold = .rolling → committedTo l s = some st →
        (replace p l.beds s = none → exec (.rollback p) s =
          .next (releaseWaiters p (endLaunch p l st (s.putPart p { s.part p with hold := .none })))) ∧
        (∀ place, replace p l.beds s = some place → rollbackPoint p l s = none → exec (.rollback p) s =
          .next (heldAt p l st place 0 0 (place.foldl (fun z e => restoreStart e.2 z)
            (restart p l place (l.bedList.foldl (fun z b => idleBed p b z) s)))))))

/-- Orders of the grid, the start of presentation, and drains (02_grid.md R43, 02_grid.md R44, 02_grid.md R45, 02_grid.md R50,
02_grid.md R54, 02_grid.md R58, 02_grid.md R66, 07_tiers_barrow.md R205). -/
def Obligations.GridOrders : Prop :=
  ∀ (c : CoreId) (f : OrderF) (s : State),
    (Takes c .grid (.order c f) s →
      let z := beginSlot c .grid s
      let esp := (z.bed (bedOf c)).espalier
      let lead := esp = false ∨ c.val % 64 = 0
      let k := z.core c
      let cfg := readReg .GRID_TCFG c f.tcfg.toNat z
      (¬ lead → exec (.order c f) s = .next (flagF F.GRID_STATUS_IGNORED c 0 z)) ∧
      (lead → k.grid.pending.isSome = true → exec (.order c f) s = .next (flagF F.GRID_STATUS_DROPPED c 0 z)) ∧
      (lead → k.grid.pending = none → exec (.order c f) s = .next (takeOrder c f z)) ∧
      (lead → k.grid.pending = none → F.GRID_TCFG_ANCHOR_SRC.of cfg ≠ 1 ∨ (f.keep = true ∧ k.grid.first = false) →
        let row := 8 * (8 * (tcfgOut cfg).bytes)
        let o : Order := ⟨actOf c z, spGran k f.xbase f.a, spGran k f.xbase f.b, spAddr k f.xbase (16 * f.d.toNat) / row * row,
          f.depth.toNat + 1, cfg, f.keep, f.hold, f.flag, false, 127, 127, false⟩
        let y := orderStrms c esp o
        let start := match k.grid.flow.getLast? with
          | none => actOf c z + 4
          | some p => max (actOf c z + 4) (p.start + p.len)
        exec (.order c f) s = .next (z.putCore c { k with grid := { k.grid with
          pending := some ⟨o, start, presLen cfg (f.depth.toNat + 1), 0, 0, false, y.1, y.2⟩ } }))) ∧
    (let m := gridLead c s
     let g := (s.core m).grid
     (g.pending = none → exec (.gridPresentStart c) s = .next s) ∧
     (∀ p, g.pending = some p →
        let bank := if g.first then 0 else if p.o.keep then g.bank else 1 - g.bank
        let fresh := if p.o.keep && !g.first then none else some (anchorOf p.o)
        let e := fresh.getD (if bank = 0 then g.anchor0 else g.anchor1)
        (actOf c s < p.start → exec (.gridPresentStart c) s = .next s) ∧
        (p.start ≤ actOf c s → exec (.gridPresentStart c) s = .next ((gridCores m s).foldl
          (presBegin bank fresh (decide (presCycles p.o.tcfg p.o.depth < p.len)))
          (s.putCore m { s.core m with grid := { g with
            pending := none, flow := g.flow ++ [{ p with bank := bank, anchor := e, clear := !p.o.keep }] } }))))) ∧
    (let t := actOf c s
     let k := s.core c
     let g := k.grid
     (g.drains = [] → exec (.gridDrain c) s = .next s) ∧
     (∀ d r, g.drains = d :: r →
        (d.next = d.count → d.at0 + d.count + g.shift ≤ t → exec (.gridDrain c) s = .next (drainStep c t
          (incF F.GRID_TILES_COUNT c 0 1 (riseFlag c d.flag (s.putCore c { k with grid := { g with drains := r } }))))) ∧
        (d.next < d.count → d.at0 + d.next + g.shift ≤ t →
          let b := bankOf (d.addr / 16)
          let asks := askReads (s.core (gridLead c s)).grid c t b
          (asks < ports b → exec (.gridDrain c) s = .next (setDrain c { d with next := d.next + 1 } (drainPiece c d s))) ∧
          (ports b ≤ asks → exec (.gridDrain c) s = .next (clash c
            (s.putCore c { k with grid := { g with shift := g.shift + 1 } })))) ∧
        (d.next < d.count → t < d.at0 + d.next + g.shift → exec (.gridDrain c) s = .next s)))

/-- Interrupts, laser modules, bypass pairs, Halene ports and die links (10_grove.md R287, 10_grove.md R288, 10_grove.md R291,
10_grove.md R292, 10_grove.md R293, 10_grove.md R294, 11_host_dies.md R323, 11_host_dies.md R325, 11_host_dies.md R335). -/
def Obligations.PortsAndLinks : Prop :=
  ∀ (s : State),
    (∀ iid : Fin 2048, slotPresent 14 s = true →
      (bitF F.D2D_IRQ_MAP_EN 0 iid s = false → exec (.irqSignal iid) s = .next (flagF F.D2D_IRQ_MAP_PENDING 0 iid s)) ∧
      (bitF F.D2D_IRQ_MAP_EN 0 iid s = true → getF F.D2D_IRQ_MAP_EIID 0 iid s = 0 → exec (.irqSignal iid) s = .next s) ∧
      (bitF F.D2D_IRQ_MAP_EN 0 iid s = true → getF F.D2D_IRQ_MAP_EIID 0 iid s ≠ 0 → exec (.irqSignal iid) s =
        .next (incF F.D2D_IRQ_SENT_COUNT 0 0 1 { s with msis := s.msis ++
          [(min 95 (getF F.D2D_IRQ_MAP_HART 0 iid s), getF F.D2D_IRQ_MAP_FILE 0 iid s, getF F.D2D_IRQ_MAP_EIID 0 iid s)] }))) ∧
    (∀ (i : Fin 2048) (v : BitVec 32), let s1 := swWriteReg .D2D_IRQ_MAP 0 i (v.setWidth 64) 0xFFFFFFFF s
      exec (.irqMapWrite i v) s = .next (if bitF F.D2D_IRQ_MAP_EN 0 i s1 && bitF F.D2D_IRQ_MAP_PENDING 0 i s1
        then irq i (setF F.D2D_IRQ_MAP_PENDING 0 i 0 s1) else s1)) ∧
    (∀ m : Fin 4, let d := m.val / 2
      let i := m.val % 2
      let out (z : State) : Host.Outcome State Fault Refusal := .next (laserSettle m z)
      exec (.laserEvent m .removed) s = out (laserRead m 0 0 0 (setF F.HAL_LASER_PRESENT d i 0 s)) ∧
      exec (.laserEvent m .supplyLost) s = out (setF F.HAL_LASER_POWER_OK d i 0 s) ∧
      exec (.laserEvent m .supplyGood) s = out (setF F.HAL_LASER_POWER_OK d i 1 s) ∧
      exec (.laserEvent m .enabled) s = out (setF F.HAL_LASER_EN d i 1 s) ∧
      exec (.laserEvent m .disabled) s = out (setF F.HAL_LASER_EN d i 0 s) ∧
      (∀ t, exec (.laserEvent m (.overTemp t)) s = out (setF F.HAL_LASER_EN d i 0 (setF F.HAL_LASER_TEMP d i t.toNat s))) ∧
      (∀ t w h, exec (.laserEvent m (.inserted t w h)) s =
        out (laserRead m t.toNat w.toNat h.toNat (setF F.HAL_LASER_PRESENT d i 1 s)))) ∧
    (∀ k : Fin 8,
      let begins (close : Bool) : State := bypassBusy (k / 4) ([2 * k.val, 2 * k.val + 1].foldl
        (fun z n => if portState n z = 2 ∨ portState n z = 3 then portDown n 1 z else z)
        { s with grove := { s.grove with switching := lput s.grove.switching k close } })
      let moving := k.val ∈ s.grove.switching.map Prod.fst
      (pairClosed k s = false ∨ moving → exec (.bypassClose k) s = .next (begins true)) ∧
      (inReset s = false → pairClosed k s = true ∨ moving → exec (.bypassOpen k) s = .next (begins false)) ∧
      (inReset s = true → exec (.bypassOpen k) s = .next s) ∧
      (∀ close, look s.grove.switching k = some close → exec (.bypassSwitchDone k) s = .next (bypassAt k close s))) ∧
    (∀ n : PortId,
      (portState n s = 2 ∨ portState n s = 4 → mayTrain n s = true → laserOn (n / 4) s = true →
        (∀ d q m, exec (.portTrain n (.up d q m)) s = .next (portUp n d.toNat q m s)) ∧
        exec (.portTrain n .noLight) s = .next (portDown n 1 s) ∧ exec (.portTrain n .lane) s = .next (portDown n 2 s) ∧
        exec (.portTrain n .budget) s = .next (portDown n 3 s) ∧ exec (.portTrain n .peerKind) s = .next (portDown n 6 s)) ∧
      (portState n s = 3 →
        exec (.portDown n .lane) s = .next (portDown n 2 s) ∧ exec (.portDown n .noLight) s = .next (portDown n 1 s) ∧
        (laserOn (n / 4) s = false → exec (.portDown n .laser) s = .next (portDown n 5 s)) ∧
        ((s.port n).eightTimes = true → exec (.portDown n .eightTimes) s = .next (portErrors n s)) ∧
        ((s.port n).tooMany (getF F.HAL_PORT_CFG_REPLAY_LIMIT n 0 s) s.tick = true →
          exec (.portDown n .replays) s = .next (portErrors n s))) ∧
      (portState n s = 3 ∨ portState n s = 4 → exec (.retrain n) s =
        .next (portDown n (if laserOn (n / 4) s then 7 else 5) s)) ∧
      (portState n s = 5 → exec (.clearRetired n) s =
        .next (portDown n (if laserOn (n / 4) s then 7 else 5) (s.putPort n { s.port n with errorsAt := [] }))) ∧
      (∀ f : Flit, portState n s = 3 →
        let s1 := flitCorrect F.HAL_PORT_CE_COUNT n ⟨5, 12 + n / 8, n, 0⟩ f.corrected s
        let k := s1.port n
        (f.bad = true → exec (.flitReceive n f) s =
          .next (incF F.HAL_PORT_BAD_COUNT n 0 1 (s1.putPort n { k with discarding := true, nak := true }))) ∧
        (f.bad = false → f.seq = k.rxSeq → k.discarding = false ∨ f.again = true →
          exec (.flitReceive n f) s = .next (flitTake n f s1)) ∧
        (f.bad = false → f.seq ≠ k.rxSeq ∨ (k.discarding = true ∧ f.again = false) → exec (.flitReceive n f) s = .next s1)) ∧
      (∀ (q : BitVec 12) (m : Nat), portState n s = 3 →
        let limit := getF F.HAL_PORT_CFG_REPLAY_LIMIT n 0 s
        let k := (s.port n).replay q.toNat limit s.tick
        let s1 := incF F.HAL_PORT_TX_COUNT n 0 (min 1024 m) (incF F.HAL_PORT_REPLAY_COUNT n 0 1 (replayMark n (s.putPort n k)))
        exec (.flitReplay n q m) s = .next (if k.eightTimes || k.tooMany limit s.tick then portErrors n s1 else s1))) ∧
    (∀ (d : SlotId) (l : Fin 4) (q m : Nat), peerLink d l = some (q, m) → q ≠ 15 → d.val ≠ 15 →
      (s.pins.vmain = true → inReset s = false → linkState d l s = 1 → dieState d s ≠ 1 → dieState q s ≠ 1 →
        exec (.linkTrain d l .failed) s = .next (settleDie q (settleDie d (setBoth d l 0 1 s))) ∧
        (∀ (rate : Fin 2) (near far : DieInfo),
          let rated (u peer : Nat) (z : State) : State := setF F.D2D_LINK_STATUS_RATE u 0 rate.val (setF F.D2D_LINK_STATUS_PEER_SLOT u 0 peer z)
          exec (.linkTrain d l (.up rate near far)) s = .next (settleDie q (settleDie d (reportDie q far (reportDie d near
            (rated (linkUnit d l) q (rated (linkUnit q m) d (setBoth d l 2 0 s)))))))))  ∧
      (linkState d l s = 2 → exec (.d2dRetrain d l) s = .next (setBoth d l 1 0 s)) ∧
      (∀ f : DFlit, linkState d l s = 2 →
        let u := linkUnit d l
        let s1 := flitCorrect F.D2D_LINK_CE_COUNT u ⟨4, d, l, 0⟩ f.corrected s
        let k := s1.dlink u
        (f.bad = true → exec (.d2dFlitReceive d l f) s = .next (senderReplays d l (senderSent d l false
          (incF F.D2D_LINK_BAD_COUNT u 0 1 (s1.putDlink u { k with discarding := true }))))) ∧
        (f.bad = false → k.discarding = true → f.again = false → exec (.d2dFlitReceive d l f) s =
          .next (senderSent d l false (incF F.D2D_LINK_BAD_COUNT u 0 1 s1))) ∧
        (f.bad = false → k.discarding = false ∨ f.again = true → exec (.d2dFlitReceive d l f) s =
          .next (senderSent d l true (s1.putDlink u { k with discarding := false })))))

/-- Messages between packages: received, forwarded, acknowledged, reissued, diverted (10_grove.md R295, 10_grove.md R299,
10_grove.md R300, 10_grove.md R308, 10_grove.md R316, 11_host_dies.md R328). -/
def Obligations.MessagesPass : Prop :=
  ∀ (s : State),
    (∀ (n : PortId) (h : MsgHdr) (data : BitVec 1024) (a : Atom) (step : BitVec 32) (key : BitVec 16) (id : Nat) (st : Status),
      (MsgOk h = false → exec (.msgRead n h) s = .fault (.illFormed "a message lies within one 128-byte line (R295)") ∧
        exec (.msgWrite n h data) s = .fault (.illFormed "a message lies within one 128-byte line (R295)") ∧
        exec (.msgAtomic n h a step key) s = .fault (.illFormed "a message lies within one 128-byte line (R295)")) ∧
      (MsgOk h = true → getF F.HAL_GROVE_STATUS_STATE 0 0 s = 2 → getF F.HAL_PORT_STATUS_STATE n 0 s = 3 →
        flowHeld (.come (.read h)) s = false →
        let goes := forwardsAtomics n s = true ∧ (h.dst.val = ownPkg s ∨ outForwards h.dst h.chan s = true)
        (h.dst.val ≠ ownPkg s → isMember h.dst s = true →
          exec (.msgRead n h) s = .next (incF F.HAL_FWD_BYTES_COUNT 0 0 16 s) ∧
          exec (.msgWrite n h data) s = .next (incF F.HAL_FWD_BYTES_COUNT 0 0 (16 + 64 * h.blocks) s) ∧
          (goes → exec (.msgAtomic n h a step key) s = .next (incF F.HAL_FWD_BYTES_COUNT 0 0 48 s)) ∧
          exec (.msgResp n (.arrive h id st .none)) s = .next (incF F.HAL_FWD_BYTES_COUNT 0 0 16 s) ∧
          (∀ v, exec (.msgResp n (.arrive h id st (.old v))) s = .next (incF F.HAL_FWD_BYTES_COUNT 0 0 32 s)) ∧
          (∀ v, exec (.msgResp n (.arrive h id st (.line v))) s = .next (incF F.HAL_FWD_BYTES_COUNT 0 0 (16 + 64 * h.blocks) s))) ∧
        (h.dst.val = ownPkg s → (getRx h.src h.chan s).expect = h.e2e.toNat →
          let e := getRx h.src h.chan s
          let s1 := putRx { e with expect := (h.e2e.toNat + 1) % 2048, owed := if 64 ≤ e.owed + 1 then 0 else e.owed + 1 } s
          let t := s1.takeId
          exec (.msgRead n h) s = .next (serveFar (farReq h t.1 false 0 none 0 0 s.tick) h t.2) ∧
          exec (.msgWrite n h data) s = .next (serveFar (farReq h t.1 true data none 0 0 s.tick) h t.2) ∧
          (goes →
            exec (.msgAtomic n h a step key) s = .next (serveFar (farReq h t.1 true 0 (some a) step key s.tick) h t.2)) ∧
          (∀ d, exec (.msgResp n (.arrive h id st d)) s = .next (takeResp id st d s1))))) ∧
    (∀ (n : PortId) (id : Nat) (r : Req), netGet id s = some r → r.st = .answered → ∀ q slot bed, r.src = .pkg q slot bed →
      exec (.msgResp n (.leave id)) s = .next (sendMsg .mgt q id false (netDel id s))) ∧
    (∀ (q : PkgId) (chan : Fin 16) (seq : BitVec 11), let e := getTx q chan s
      (e.held.any (fun x => decide (x.1 = seq.toNat)) = true → exec (.e2eAck q chan seq) s = .next (putTx (sendWaiting { e with
        held := (e.held.dropWhile fun x => decide (x.1 ≠ seq.toNat)).drop 1, since := s.tick } s.tick) s)) ∧
      (e.held.isEmpty = false → e.due = true ∨ e.since + 250 ≤ s.tick → exec (.e2eReissue q chan) s = .next (markLink (e.held.map Prod.snd)
        (incF F.HAL_REISSUE_COUNT 0 0 e.held.length (putTx { e with since := s.tick, due := false } s)))) ∧
      (e.held.isEmpty = true ∨ (e.due = false ∧ s.tick < e.since + 250) → exec (.e2eReissue q chan) s = .next s) ∧
      ((getRx q chan s).owed ≠ 0 → exec (.e2eAckTimer q chan) s = .next (putRx { getRx q chan s with owed := 0 } s))) ∧
    (∀ m l, s.grove.diverted = m :: l → exec .atomicDivert s =
      .next (releaseDiverted l (passDiverted m { s with grove := { s.grove with diverted := [] } })))

/-- Cards, charters, time, joining and leaving a grove (10_grove.md R302, 10_grove.md R303, 10_grove.md R304, 10_grove.md R305,
10_grove.md R306, 10_grove.md R307, 10_grove.md R308, 10_grove.md R309, 16_pins_electrical.md R435). -/
def Obligations.GroveMembership : Prop :=
  ∀ (s : State),
    let st := getF F.HAL_GROVE_STATUS_STATE 0 0 s
    let tk := bitF F.HAL_GROVE_STATUS_TIMEKEEPER 0 0 s
    (∀ (n : PortId) (c : Card) (t : State), takeCtl n (if c.pkg = 0 then 512 + c.serial.toNat else c.pkg.toNat) c.counter.toNat (.card c) s = (true, t) →
      (s.ident.isSome = false ∨ c.serial ≠ ownSerial s → exec (.card n c) s = .next (judgeCard c (noteCard n c t))) ∧
      (s.ident.isSome = true → c.serial = ownSerial s → c.pkg.toNat ≠ ownPkg s → exec (.card n c) s = .next (exclude 5 t))) ∧
    ((∃ n : PortId, portState n s = 3) → exec .cardSend s = .next (flood (.card (ownCard s)) s)) ∧
    (∀ (h : CtlHdr) (c : Charter) (t : State), c.author.serial ≠ ownSerial s → st = 1 ∨ st = 2 →
      takeCtl h.port (if h.src.val = 0 then 512 + c.author.serial.toNat else h.src.val) h.counter.toNat (.charter c) s = (true, t) →
      t.grove.next = none → t.grove.charter = none →
      exec (.charter h c) s = .next { t with grove := { t.grove with next := some c } }) ∧
    (∀ ws : List Wire, st = 1 ∨ st = 2 → isAuthor s = true → s.grove.newAt + 500000 ≤ s.tick →
      let c := makeCharter (ownCard s) (liveCards s) ws ((s.grove.next.map (·.seq)).getD (charterSeq s) + 1) s.tick
      exec (.charterIssue ws) s = .next (flood (.charter c) { s with grove := { s.grove with next := some c } })) ∧
    (∀ c, s.grove.next = some c → (s.tick + 2 ^ 32 - c.effective.toNat) % 2 ^ 32 < 2 ^ 31 →
      (∀ m, c.members.find? (fun m => decide (m.serial = ownSerial s)) = some m → exec .charterEffective s = .next (adopt c m s)) ∧
      (c.members.find? (fun m => decide (m.serial = ownSerial s)) = none → exec .charterEffective s = .next (exclude (outCause c s) s))) ∧
    (∀ t : TimeF, st = 2 → tk = false →
      let res := (t.there - t.back) / 2 + t.parent
      let off := res < -40000 ∨ 40000 < res
      let bad := if off ∧ s.grove.joinedAt + 2500000 ≤ s.tick then s.grove.residualBad + 1 else 0
      let s1 := setF F.HAL_TIME_STATUS_DPLL_LOCK 0 0 (if off then 0 else 1) (setF F.HAL_TIME_STATUS_RESIDUAL 0 0 (res % 2 ^ 32).toNat
        { s with grove := { s.grove with residual := res, residualBad := bad } })
      exec (.time t) s = .next (if 3 ≤ bad then exclude 2 s1 else s1)) ∧
    (∀ present : Bool, s.pins.aux = true →
      let v := if present then 1 else 0
      let s1 := setF F.HAL_TIME_STATUS_EXT_10M 0 0 v s
      exec (.extTimeChange true present) s = .next (setF F.HAL_TIME_STATUS_EXT_PPS 0 0 v s) ∧
      exec (.extTimeChange false present) s = .next (if present then setF F.HAL_TIME_STATUS_HOLDOVER 0 0 0 s1
        else if bitF F.HAL_TIME_STATUS_EXT_10M 0 0 s && tk then setF F.HAL_TIME_STATUS_HOLDOVER 0 0 1 s1 else s1)) ∧
    (∀ q : PkgId, isMember q s = true → q.val ≠ ownPkg s →
      s.grove.cards.any (fun c => decide (c.card.pkg.toNat = q.val) && decide (c.tick + 250000 ≤ s.tick)) = true →
      exec (.memberLost q) s = .next (lostMember q s)) ∧
    (st ≠ 1 → st ≠ 2 → (healthy s = false → exec .join s = .next (exclude 6 s)) ∧
      (healthy s = true → exec .join s = .next (setF F.HAL_GROVE_STATUS_EXCL_CAUSE 0 0 0 (setF F.HAL_GROVE_STATUS_STATE 0 0 1
        { s with grove := { s.grove with newAt := s.tick } })))) ∧
    (st = 2 → exec .leave s = .next (leaveGrove s)) ∧
    (∀ e, bitF F.HAL_GROVE_STATUS_STALE 0 0 s = true → (∀ p l, launchOf p s = some l → l.grove = false) →
      ((tkCard s).map (·.epoch)).or (s.grove.charter.map fun c => c.author.epoch) = some e →
      exec .adopt s = .next (setF F.HAL_GROVE_STATUS_STALE 0 0 0 (setF F.HAL_STATE_EPOCH_EPOCH 0 0 e.toNat s)))

/-- Starting grove launches, agreeing on steps, and locked mode (10_grove.md R310, 10_grove.md R311, 10_grove.md R312,
10_grove.md R313, 10_grove.md R314, 13_dormancy.md R380). -/
def Obligations.GroveLockstep : Prop :=
  ∀ (s : State),
    (∀ (h : CtlHdr) (r : ReadyF) (t : State), takeHdr h (.ready r) s = (true, t) →
      (r.refused = false → exec (.ready h r) s = .next (noteReady r t)) ∧
      (r.refused = true →
        let t1 := noteReady r t
        let mine := (launchesOf r.digest t1).filter fun p =>
          (launchOf p t1).any fun l => !l.started && !l.stop && l.readyAt.isSome && l.span.contains r.src.val
        exec (.ready h r) s = .next (if mine = [] then t1
          else forgetReady r.digest (mine.foldl (fun y p => failLaunch p .featureMissing y) t1)))) ∧
    (∀ (p : PartId) (l : Launch), launchOf p s = some l → l.started = false → l.grove = true → l.stop = false →
      let got := l.span.filterMap fun q => readyOf l.digest q s
      (∀ r g, got = r :: g → (l.span.any fun q => (readyOf l.digest q s).isNone) = true →
        (got.map (·.tick)).foldl min r.tick + getF F.HAL_GROVE_CFG_READY_10MS 0 0 s * 250000 ≤ s.tick →
        exec (.readyTimeout p) s = .next (forgetReady l.digest (failLaunch p .groveExcluded s))) ∧
      (l.readyAt.isSome = true → (l.span.all fun q => (readyOf l.digest q s).isSome) = true → groveT0 l s ≤ s.tick → l.locked = true ∨ s.cyc % 64 = 0 → l.resumed = false →
        ∀ m, let z := launchGo p (forgetReady l.digest s)
          launchOf p z = some m → exec (.groveLaunchStart p) s = .next (putLaunch p { m with stepTick := groveT0 l s } z))) ∧
    (∀ (h : CtlHdr) (p : PartId) (f : AgreeF) (t : State) (l : Launch), takeHdr h (.agree p f) s = (true, t) → launchOf p t = some l →
      l.grove = true → l.span.contains h.src.val = true →
      (∀ q d, f = .short q d → q.toNat = l.step → l.endP (agreeA t) ≤ d.toNat →
        exec (.agree h p f) s = .next (keepReport p l ⟨h.src, l.step, 0, d.toNat, 0⟩ t)) ∧
      (∀ q d, f = .short q d → q.toNat = l.step → d.toNat < l.endP (agreeA t) →
        exec (.agree h p f) s = .next (incF F.HAL_LATE_AGREE_COUNT 0 0 1 t)) ∧
      (∀ q g d, f = .fallback q g d → q.toNat = l.step → l.fbSet q.toNat g.toNat d.toNat = none →
        exec (.agree h p f) s = .next (keepReport p l ⟨h.src, q.toNat, 1, g.toNat, d.toNat⟩ t)) ∧
      (∀ q, f = .saved q → exec (.agree h p f) s = .next (keepReport p l ⟨h.src, q.toNat, 2, 0, 0⟩ t)) ∧
      (∀ q, f = .failed q → exec (.agree h p f) s = .next (keepReport p l ⟨h.src, q.toNat, 3, 0, 0⟩ t))) ∧
    (∀ (h : CtlHdr) (digest : BitVec 512) (step : BitVec 32) (tick : BitVec 64) (t : State),
      takeHdr h (.diverge digest step tick) s = (true, t) →
      exec (.diverge h digest step tick) s = .next ((launchesOf digest t).foldl (fun y p => diverged p y) t)) ∧
    (getF F.HAL_GROVE_STATUS_STATE 0 0 s = 2 → bitF F.HAL_GROVE_STATUS_LOCKED 0 0 s = false →
      exec (.lock .ask) s = .next (if bitF F.HAL_GROVE_STATUS_TIMEKEEPER 0 0 s then lockDecide (ownPkg s) s
        else flood (.lockAsk (Fin.ofNat 512 (ownPkg s))) s)) ∧
    (∀ t, s.grove.lockAt = some t → t ≤ s.tick → exec .lockEntry s =
      .next (lockLaunches (setF F.HAL_GROVE_STATUS_LOCKED 0 0 1 { s with grove := { s.grove with lockAt := none } }))) ∧
    (bitF F.HAL_GROVE_STATUS_LOCKED 0 0 s = true → let t := flood .unlock s
      exec (.unlock .ask) s = .next (settleUnlock { t with grove := { t.grove with unlock := true } })) ∧
    (∀ (p : PartId) (l : Launch), let t := noteReadyTick p (runPoint p s)
      launchOf p t = some l → l.started = true → l.stop = false → l.locked = true → l.short = false → l.nextTick = none →
      l.endP (agreeA t) ≤ t.tick + agreeA t → stepReady p l t = false →
      exec (.lockCheckTick p) s = .next (sendShort p l (l.bedList.foldl (fun z b => drainMerge b (fun _ => true) z) t))) ∧
    (∀ (p : PartId) (l : Launch), let t := noteReadyTick p s
      let q := l.endP (agreeA t)
      launchOf p t = some l → l.started = true → l.stop = false → l.locked = true → q ≤ t.tick →
      (l.shortSeen q = true → exec (.lockStepTick p) s = .next (slipStep p l q t)) ∧
      (l.shortSeen q = false → stepReady p l t = true →
        exec (.lockStepTick p) s = .next (releaseStep p q (some q) (fun v => decide (1 ≤ v)) (noteMargin l t))))

/-- Fencing and returning dies, host requests, and the guest die (11_host_dies.md R324, 11_host_dies.md R329, 11_host_dies.md
R333, 11_host_dies.md R334, 11_host_dies.md R336, 11_host_dies.md R337, 11_host_dies.md R338, 11_host_dies.md R339,
11_host_dies.md R340, 11_host_dies.md R341, 11_host_dies.md R342). -/
def Obligations.DiesHostAndGuest : Prop :=
  ∀ (s : State),
    (∀ (d : SlotId) (why : FenceWhy), (d.val < 12 ∧ why ≠ .power) ∨ d.val = 15 ∨ (d.val = 14 ∧ why = .link) →
      dieState d s = 0 ∨ dieState d s = 4 →
      let code := (fenceCode why).1
      let ordered := (fenceCode why).2
      (bitF F.MGT_ERR_STATUS_RESTARTING 0 0 s = false → exec (.dieFence d why) s = .next (fenceNow d code 0 ordered s)) ∧
      (bitF F.MGT_ERR_STATUS_RESTARTING 0 0 s = true → exec (.dieFence d why) s = .next (setF F.D2D_FENCE_STATUS_BUSY 0 0 1
        { s with mgt := { s.mgt with fences := s.mgt.fences ++ [(d.val, code, ordered)] } }))) ∧
    (∀ d : SlotId, (getF F.TAP_CTRL_DIE_EN 0 0 s).testBit d = false → dieState d s = 1 →
      (d.val < 12 → exec (.fenceReturn d) s = .next (plotReturn d s)) ∧
      (d.val = 15 → exec (.fenceReturn d) s = .next (guestReturn s))) ∧
    (∀ (d : SlotId) (l : Fin 4) (q m : Nat), peerLink d l = some (q, m) → linkState d l s = 2 →
      let u := linkUnit d l
      exec (.linkFailing d l .clock) s = .next (fenceDie (failingDie d q) 2 l false s) ∧
      ((s.dlink u).eightTimes = true → exec (.linkFailing d l .eightTimes) s = .next (fenceDie (failingDie d q) 3 l false s)) ∧
      ((s.dlink u).tooMany (getF F.D2D_LINK_CFG_RETRY_LIMIT u 0 s) s.tick = true →
        exec (.linkFailing d l .replays) s = .next (fenceDie (failingDie d q) 3 l false s))) ∧
    (∀ (p : PlotId) (dirty : Nat), dieState p s = 1 →
      let drop (st : Nat) (z : State) : State := z.putStack st { z.stack st with snoop := [] }
      exec (.cxlFenceInvalidate p dirty) s = .next (incF F.D2D_CXL_LOST_COUNT 0 0 dirty (drop (2 * p + 1) (drop (2 * p) s)))) ∧
    (s.pins.vmain = true → inReset s = false → dieState 15 s ≠ 0 → dieState 15 s ≠ 1 →
      exec (.guestDiscovery .bridged) s = .next (guestGone 3 0 0 s) ∧ exec (.guestDiscovery .empty) s = .next (guestGone 2 0 0 s) ∧
      exec (.guestDiscovery .noRail) s = .next (guestGone 2 1 0 s) ∧ exec (.guestDiscovery .noTrain) s = .next (guestGone 2 2 1 s) ∧
      exec (.guestDiscovery .noDesc) s = .next (guestGone 2 3 4 s) ∧
      (∀ (desc : BitVec 2048) (rate : Fin 3), exec (.guestDiscovery (.read desc rate)) s = .next (guestRead desc rate s))) ∧
    (∀ ms us : Nat, dieState 15 s = 0 →
      let s1 := guestGrant (setF F.D2D_GUEST_STATUS_DRAW_DW 0 0 (min 1023 ms) s)
      let grant := getF F.D2D_GUEST_STATUS_GRANT_W 0 0 s1
      let s2 := if 10 * grant < ms then eventIrq (flagF F.D2D_GUEST_STATUS_OVER 0 0 s1) else s1
      exec (.guestPowerSample ms us) s = .next (if 11 * grant < ms ∨ 750 < us then fenceDie 15 4 3 false s2 else s2)) ∧
    (∀ o : OpsanF,
      (lineOk o.pa.toNat o.len = false →
        exec (.opsanAccess o) s = .fault (.illFormed "an access lies within one 128-byte line (R118, R295)")) ∧
      (lineOk o.pa.toNat o.len = true → dieState 14 s ≠ 0 → exec (.opsanAccess o) s = .next s) ∧
      (lineOk o.pa.toNat o.len = true → dieState 14 s = 0 →
        (aperture o.pa.toNat s = none → exec (.opsanAccess o) s = .next (respond o.id .pageFault 0 s)) ∧
        (∀ pa, aperture o.pa.toNat s = some pa → exec (.opsanAccess o) s = .next (hostIssue (.opsan o.core) o.id pa
          ((o.atom.map Atom.bytes).getD o.len) o.write o.data o.atom (o.pa.toNat / 2 ^ 52 % 16) ⟨o.rel, o.acq, o.aq⟩ (releaseHeld s))))) ∧
    (∀ d : DmaF, (d.pa = none → dieState 14 s = 0 → exec (.pcieDma d) s = .next (respond d.id .pageFault 0 s)) ∧
      (∀ pa, d.pa = some pa →
        (lineOk pa.toNat d.len = true → dieState 14 s = 0 → exec (.pcieDma d) s =
          .next (hostIssue .pcie d.id pa.toNat d.len d.write d.data none 0 ⟨false, false, false⟩ s)) ∧
        (lineOk pa.toNat d.len = true → dieState 14 s ≠ 0 → exec (.pcieDma d) s = .next s) ∧
        (lineOk pa.toNat d.len = false →
          exec (.pcieDma d) s = .fault (.illFormed "an access lies within one 128-byte line (R118, R295)")))) ∧
    (∀ g : GuestF,
      (lineOk g.va.toNat g.len = false →
        exec (.guestRequest g) s = .fault (.illFormed "an access lies within one 128-byte line (R118, R295)")) ∧
      (lineOk g.va.toNat g.len = true → dieState 15 s = 0 → extFlying .guest g.id s = false →
        (s.net.filter fun r => decide (r.src = .guest)).length < s.guestField 0x1D 1 + 1 →
        let n := (g.atom.map Atom.bytes).getD g.len
        (inGuestRange g.va.toNat n s = false → exec (.guestRequest g) s = .next (respond g.id .pageFault 0 s)) ∧
        (inGuestRange g.va.toNat n s = true →
          let i := s.nextId
          let r : Req := ⟨i, .guest, hostWho, 0, 0, n, g.write, g.data, BitVec.ofNat 128 (2 ^ n - 1), g.atom, BitVec.allOnes 32, 0, .walking,
            .ok, 0, s.tick, false, false, false, some g.id, false, 0, [], false, ⟨false, false, false⟩⟩
          exec (.guestRequest g) s = .next (askXlt 32 (guestWait i g) { s with nextId := i + 1, net := s.net ++ [r] }))))

/-- The power loop and its limiters, and errors as they are reported (12_power.md R347, 12_power.md R351, 12_power.md R355,
12_power.md R356, 12_power.md R358, 12_power.md R360, 12_power.md R362, 12_power.md R364, 14_guard_errors.md R394,
14_guard_errors.md R399, 14_guard_errors.md R400, 14_guard_errors.md R403). -/
def Obligations.PowerAndErrors : Prop :=
  ∀ (s : State),
    (∀ m : Meters, loopRuns s = false → exec (.powerInterval m) s = .next (missInterval s)) ∧
    (∀ m : Meters, loopRuns s = true →
      let s1 := notePartEnergy m (learnAll m (noteDraws m (throttle (takeCap s))))
      let bs := budgets m s1
      let s2 := bs.foldl (fun z e => setF F.PWR_PART_STATUS_BUDGET_W 0 e.1 (min 65535 (e.2 / 1000)) z) s1
      let ov := if mayPause m bs s2 then s2.power.above + 1 else 0
      let s3 := bs.foldl (fun z e => stepFallow m e.1 e.2 z) { s2 with power := { s2.power with above := ov } }
      let s4 := (List.range 12).foldl (fun z p => if decide (dieState p z = 0) && !selfManaged p z then orderOpp p (plotPoint p bs s2) z else z) s3
      exec (.powerInterval m) s = .next (goodInterval (allot bs (resumeOne (if 3 ≤ ov then pauseOne s4 else s4))))) ∧
    (∀ (p : PartId) (t : Nat), look s.power.resuming p = some t → t ≤ s.tick → s.cyc % 64 = 0 → exec (.pauseResumeIssue p) s =
      .next (setF F.PWR_PART_STATUS_FALLOW 0 p 63 (setF F.PWR_PART_STATUS_PAUSED 0 p 0 (moveGroups p 1 0
        { s with power := { s.power with resuming := ldel s.power.resuming p } })))) ∧
    (∀ p : PlotId, (plotRetunes p s = [] → exec (.oppChange p) s = .next s) ∧
      (∀ r l, plotRetunes p s = r :: l → r.ready ≤ s.tick → r.stage = 3 ∨ s.cyc % 64 = 0 →
        let old := plotOpp p s
        let s1 := incF F.PWR_RETUNES_COUNT p 0 1 (setF F.PWR_PLOT_STATUS_OPP p 0 r.opp s)
        (r.stage = 1 → exec (.oppChange p) s = .next (putRetune p (some { r with stage := 2, ready := s.tick + 1 }) s)) ∧
        (r.stage = 2 → r.opp < old → exec (.oppChange p) s =
          .next (putRetune p (some { r with stage := 3, ready := s.tick + slewTicks (oppMv old) (oppMv r.opp) }) s1)) ∧
        (r.stage = 2 → old ≤ r.opp → exec (.oppChange p) s = .next (beginRetune p (putRetune p none s1))) ∧
        (r.stage = 3 → exec (.oppChange p) s = .next (beginRetune p (putRetune p none s))))) ∧
    (∀ (p : PlotId) (mw : Nat),
      let w := (mw :: (look s.power.windows p).getD []).take 10000
      let energy := w.foldl (· + ·) 0 + 100 * mw
      let limit := getF F.PWR_PLOT_STATUS_ALLOT_W p 0 s * 1000 * 10000
      let k := getF F.PWR_PLOT_STATUS_STRETCH p 0 s
      let k1 := if limit < energy then min 15 (k + 1) else if 100 * energy ≤ 98 * limit then k - 1 else k
      exec (.peakLimiter p mw) s = .next (incF F.PWR_LIMIT_NS_COUNT p 0 (if k = 15 ∧ limit < energy then 100 else 100 * k1 / (8 + k1))
        (setF F.PWR_PLOT_STATUS_STRETCH p 0 k1 (setF F.PWR_PLOT_DRAW_NOW_W p 0 (min 65535 (meanOf (w.take 100) / 1000))
          { s with power := { s.power with windows := lput s.power.windows p w } })))) ∧
    (∀ (g : BgId) (mv n : Nat),
      let th := getF F.PWR_DROOP_CFG_MV 0 0 s
      let old := (look s.power.droop g).getD (0, 0)
      let drooped (e : Option (Nat × Nat)) (z : State) : State := { z with power := { z.power with
        droop := e.elim (ldel z.power.droop g) (lput z.power.droop g) } }
      let count (cycles level : Nat) (z : State) : Host.Outcome State Fault Refusal :=
        .next (incF F.PWR_STRETCH_NS_COUNT (g / 16) 0 (cycles * level * 500 / oppMHz (plotOpp (g / 16) s)) z)
      let cross (z : State) : State := if old.1 = 0 ∨ old.2 ≠ 0 then incF F.PWR_DROOP_EVENTS_COUNT (g / 16) 0 1 z else z
      let level := max (if 2 * th ≤ mv then 2 else 1) (if old.2 = 0 then old.1 else 0)
      (th ≤ mv → exec (.droopDetect g mv n) s = count n level (cross (drooped (some (level, 0)) s))) ∧
      (mv < th → old.2 + n < 256 → exec (.droopDetect g mv n) s =
        count n old.1 (drooped (if old.1 = 0 then none else some (old.1, old.2 + n)) s)) ∧
      (mv < th → old.2 < 256 → 256 ≤ old.2 + n → exec (.droopDetect g mv n) s = count (256 - old.2) old.1 (drooped none s))) ∧
    (∀ t : Temps, (105 ≤ (hottest t).1 → exec (.thermalSample t) s = .next (trip (hottest t).2 s)) ∧
      ((hottest t).1 < 105 →
        let s1 := (t.dies.zip (List.range 15)).foldl (fun z e => heatDie e.2 e.1 z) s
        let s2 := (t.stks.zip (List.range 24)).foldl (fun z e => heatStack e.2 e.1 z) s1
        let s3 := (t.groups.zip (List.range 192)).foldl (fun z e => setF F.PWR_BG_TEMP_C (e.2 / 16) (e.2 % 16) (min 255 e.1) z) s2
        let s4 := if s3.power.hot.any fun d => decide (12 ≤ d) then s3 else { s3 with power := { s3.power with percent := 100 } }
        let s5 := setF F.PWR_STATUS_HOTTEST_SRC 0 0 (hottest t).2 (setF F.PWR_STATUS_HOTTEST_C 0 0 (min 255 (hottest t).1) s4)
        let s6 := setF F.PWR_COOLANT_OUTLET_C 0 0 (min 255 t.outlet) (setF F.PWR_COOLANT_INLET_C 0 0 (min 255 t.inlet) s5)
        exec (.thermalSample t) s = .next (powerFlags (flagIf (decide (40 < t.inlet)) F.PWR_COOLANT_INLET_HIGH 0 0 s6)))) ∧
    (∀ d : SlotId, dieState d s = 0 ∨ dieState d s = 4 → reached d s = true →
      (exec (.budgetMessage d none) s = .next (powerFlags (setF F.MGT_DIE_INFO_SELF_MANAGED d 0 0
        { s with power := { s.power with budgets := ldel s.power.budgets d } }))) ∧
      (∀ (w : Nat) (o : Fin 8), let s1 := { s with power := { s.power with budgets := lput s.power.budgets d (w, o.val) } }
        exec (.budgetMessage d (some (w, o))) s = .next (if d.val < 12 ∧ o.val < orderedOpp d s ∧
          bitF F.MGT_DIE_INFO_SELF_MANAGED d 0 s = true then orderOpp d o s1 else s1))) ∧
    (∀ v : BitVec 32, let s1 := swWriteReg .PWR_CAP 0 0 (v.setWidth 64) 0xFFFFFFFF s
      let peak := max (fixedAllot s1 + 1800) (min 7500 (getF F.PWR_CAP_PEAK_W 0 0 s1))
      let s2 := setF F.PWR_CAP_PEAK_W 0 0 peak s1
      exec (.pwrCapWrite v) s =
        .next (setF F.PWR_CAP_SUSTAINED_W 0 0 (max 1000 (min (min 6800 peak) (getF F.PWR_CAP_SUSTAINED_W 0 0 s2))) s2)) ∧
    (exec .learnClear s = .next { s with power := { s.power with learn := [] } }) ∧
    (∀ (site : Fin 8) (slot : SlotId) (unit : BitVec 16) (addr : BitVec 52) (synd : BitVec 16) (nib : Fin 36),
      let a : ErrAt := ⟨site.val, slot.val, unit.toNat, addr.toNat / 16 * 16⟩
      let s1 := ceReport a synd.toNat nib (countCe site slot unit.toNat s)
      exec (.ceReport (.unit site slot unit addr synd nib)) s = .next (if site.val = 3 then recentCe addr.toNat a s1 else s1)) ∧
    (∀ (c : CoreId) (block : Nat), exec (.ceReport (.ib c block)) s = .next (dropBlock (bedOf c) block [c.val] s)) ∧
    (∀ (id : Nat) (pa : BitVec 52), exec (.ueConsumed (.hostRead id pa)) s =
      .next (respond id .dataLost 0 (ueConsume ⟨6, 14, 0, pa.toNat / 16 * 16⟩ 0 255 .dataLost s))) ∧
    (∀ pa : BitVec 52, exec (.ueConsumed (.hostEvict pa)) s = .next (eventIrq
      (logEvent ⟨8, 6, 14, 255, 0, 0, pa.toNat / 16 * 16, 255, 255⟩ (incF F.MGT_ERR_UE_TOTAL_COUNT 0 6 1 s)))) ∧
    (∀ pa : BitVec 52, ∀ w : Who, ∀ h, homeOf pa.toNat s = some h → memBad h.stack h.addr s = true →
      exec (.ueConsumed (.dram pa w)) s = .next (memConsume h.stack h.addr pa.toNat w s)) ∧
    (∀ (c : CoreId) (g : Fin 2048), spadBad c g s = true → exec (.ueConsumed (.spad c g)) s =
      .next (coreLost c (spadConsume c g (s.core c).part s))) ∧
    (∀ (b : BedId) (pa : BitVec 61), let l := pa.toNat / 128
      (s.bed b).holds l = true → exec (.ueConsumed (.line b pa)) s =
        .next (ueFound ⟨1, plotOf b, b % 400, l * 128⟩ 0 (flagF F.BEDC_STATUS_UE b 0 (invLine b l s)))) ∧
    (∀ ci, exec (.ueConsumed (.mgt ci)) s = .next (restartBegins 5
      (logEvent ⟨3, 7, 12, 255, ci.val, 0, 0, 255, 255⟩ (incF F.MGT_ERR_UE_TOTAL_COUNT 0 7 1 s)))) ∧
    (∀ site : Fin 8,
      let fall (k l : Nat) : Nat := if k / 2 ^ 22 = site.val then l - getF F.MGT_ERR_CE_CFG_THRESH 0 site s else l
      exec (.ceWindow site) s = .next { s with levels := smap 0 fall s.levels }) ∧
    (∀ c : CoreId, (s.core c).active = true → exec (.ueConsumed (.parity c)) s = .next (failLaunchAt (bedOf c) (s.core c).part .dataLost
      (logEvent ⟨5, 8, c / 25600, (s.core c).part, c % 25600, 0, 0, Status.dataLost.code, 255⟩ (incF F.MGT_ERR_UE_TOTAL_COUNT 0 8 1 s)))) ∧
    (∀ v : BitVec 32, let s1 := swWriteReg .MGT_ERR_INJ_CTL 0 0 (v.setWidth 64) 0xFFFFFFFF s
      let arm := bitF F.MGT_ERR_INJ_CTL_ARM 0 0 s1 && (injectable (getF F.MGT_ERR_INJ_ADDR_ADDR 0 0 s1 * 16) || bitF F.MGT_ERR_INJ_CTL_ARM 0 0 s)
      exec (.errInjectArm v) s = .next (setF F.MGT_ERR_STATUS_INJ_ARMED 0 0 (b2n arm) (setF F.MGT_ERR_INJ_CTL_ARM 0 0 (b2n arm) s1))) ∧
    (dieState 14 s = 1 → s.mgt.lossSeen = false → let s1 := reportLoss s
      exec .hostLoss s = .next (if bitF F.MGT_ERR_CTRL_HOST_LOSS 0 0 s1 then tryReset (orderReset 3 7 s1) else s1)) ∧
    (bitF F.MGT_ERR_STATUS_RESTARTING 0 0 s = false → inReset s = false → s.mgt.image.isSome = true →
      (∀ check : Fin 6, let s1 := restartShown (check + 1) s
        (graftSlot s1 = none → exec (.mgtCheck check false) s = .next s1) ∧
        (∀ i, graftSlot s1 = some i → exec (.mgtCheck check false) s = .next (endGraft true i s1)))) ∧
    (bitF F.MGT_ERR_STATUS_RESTARTING 0 0 s = true → exec (.mgtRestart .ends) s = .next (heldFences (s.heldCe.foldl
      (fun z e => ceNow ⟨e.1, e.2.1, e.2.2.1, e.2.2.2.1⟩ e.2.2.2.2.1 e.2.2.2.2.2 z)
      (setF F.MGT_HEALTH_ALIVE 0 0 15 (setF F.MGT_ERR_STATUS_RESTARTING 0 0 0 { s with heldCe := [] })))))

/-- Supplies, the reset land, the stages of boot, and the firmware commands (15_boot_firmware.md R406, 15_boot_firmware.md R407,
15_boot_firmware.md R408, 15_boot_firmware.md R415, 15_boot_firmware.md R416, 15_boot_firmware.md R417, 15_boot_firmware.md
R418, 15_boot_firmware.md R419, 15_boot_firmware.md R420, 15_boot_firmware.md R424, 16_pins_electrical.md R436). -/
def Obligations.SupplyBootFirmware : Prop :=
  ∀ (s : State),
    (∀ strap : BitVec 2, s.pins.aux = false → exec (.auxPowerOn strap) s =
      .next (setF F.PWR_STATUS_TRIPPED 0 0 (if s.pins.tripHold then 1 else 0) (bootAt 1 (if s.pins.tripHold then 4 else 0) { State.reset with
        pending := s.pending, free := s.free, nextId := s.nextId, flash := s.flash, flashErr := s.flashErr,
        pins := { s.pins with aux := true, tripHold := false, thermTrip := false, perst0 := true, perst1 := true, strap := strap },
        i3c := ⟨0x58 + strap.setWidth 7, none, none, []⟩ }))) ∧
    (exec .auxLoss s = .next { State.reset with
      pending := s.pending, free := s.free, nextId := s.nextId, flash := s.flash, flashErr := s.flashErr,
      pins := { s.pins with aux := false, thermTrip := false } }) ∧
    (exec .mainPresent s = .next { s with pins := { s.pins with vmain := true } }) ∧
    (let z := { s with pins := { s.pins with vmain := false } };
      s.pins.aux = true →
      (bootStage s < 6 → exec .mainLoss s = .next z) ∧ (bootStage s = 6 → exec .mainLoss s = .next (convertersOff z)) ∧
      (6 < bootStage s → exec .mainLoss s = .next (bootAt 6 2 (convertersOff z)))) ∧
    (s.pins.aux = true → let z := packageReset 1 s
      exec .pkgResetAssert s = .next (setF F.PWR_STATUS_TRIPPED 0 0 (if s.pins.tripHold then 1 else 0)
        (setF F.TAP_STATUS_RESET_TEST 0 0 (if s.pins.vmain && !s.pins.tripHold then 1 else 0)
          { z with pins := { z.pins with resetLow := true } }))) ∧
    (s.pins.resetLow = true → s.pins.tripHold = false → exec (.pkgResetRelease false) s = .next (bootAt 1 1
        (setF F.TAP_STATUS_RESET_TEST 0 0 0 { s with pins := { s.pins with resetLow := false }, tap := { s.tap with leaving := false } })) ∧
      exec (.pkgResetRelease true) s = .next (bootAt 1 1
        { s with pins := { s.pins with resetLow := false }, tap := { s.tap with leaving := true } })) ∧
    (∀ b : BootIn, inReset s = false → bitF F.MGT_BOOT_STATUS_RECOVERY 0 0 s = false → bitF F.MGT_ERR_STATUS_RESTARTING 0 0 s = false →
      (bootStage s = 1 → exec (.boot b) s = .next (toStage 2 s)) ∧
      (bootStage s = 2 → exec (.boot b) s = .next (toStage 3 (loadIndices (identityCheck b s)))) ∧
      (bootStage s = 3 → exec (.boot b) s = .next (pickSlot b.img.flashOk s 4)) ∧
      (bootStage s = 4 → exec (.boot b) s = .next (loadImage b.img b.keyOpen s)) ∧
      (bootStage s = 5 → exec (.boot b) s = .next (takeSettings b.img.flashOk s)) ∧
      (bootStage s = 6 → s.pins.vmain = true → exec (.boot b) s = .next (toStage 7 (powerFlags (manageDies 1 (beginStacks s))))) ∧
      (bootStage s = 7 → exec (.boot b) s = .next (if trained (beginStacks s) then toStage 8 (beginStacks s) else beginStacks s)) ∧
      (bootStage s = 8 → getF F.MGT_BOOT_STATUS_FAIL 0 0 s ≠ 1 → exec (.boot b) s = .next (writeTables s)) ∧
      (bootStage s = 9 → s.grove.cards = [] → exec (.boot b) s = .next (toStage 10 s)) ∧
      (bootStage s = 10 → exec (.boot b) s = .next (writeHandoff s)) ∧
      (bootStage s = 11 → exec (.boot b) s = .next (graftSettle b.img.flashOk (handOff s))) ∧
      (bootStage s = 12 → exec (.boot b) s = .next s)) ∧
    (∀ (x : ImgIn) (sig : BitVec 79144) (ok : Bool), s.mgt.resetTo = none →
      let kept := flagF F.SEC_STATUS_BUSY_WRITE 0 0 s
      (s.mgt.secOp ≠ 0 →
        (s.mgt.secOp ≠ 1 → exec (.stageImage x) s = .next kept) ∧ (s.mgt.secOp ≠ 2 → exec (.activate ok) s = .next kept) ∧
        (s.mgt.secOp ≠ 3 → exec (.confirm ok) s = .next kept) ∧ (s.mgt.secOp ≠ 4 → exec (.abandonGraft ok) s = .next kept) ∧
        (s.mgt.secOp ≠ 5 → exec (.writeSettings ok) s = .next kept) ∧ (s.mgt.secOp ≠ 6 → exec (.attest sig ok) s = .next kept)) ∧
      (secRuns s = true →
        (∀ v z, s.mgt.secOp = 1 → slotIn 2 s = none → x.flashOk = true →
          let n := getF F.SEC_CMD_LEN_LEN 0 0 s
          let t := stageTarget s
          let e := s.putSlot t FwSlot.empty
          busReadRange .mgt secTag hostWho (secAddr e) n e = (.ok v, z) →
          let w := (askDone .mgt secTag z).putSlot t (((askDone .mgt secTag z).slot t).put 0 n v)
          exec (.stageImage x) s = .next (secDone (verifySlot t x w) (setSlot true t (if verifySlot t x w = 0 then 1 else 5) 0 w))) ∧
        (∀ i, s.mgt.secOp = 2 → slotIn 1 s = some i →
          exec (.activate true) s = .next (tryReset (orderReset 5 1 (secDone 0 (setSlot true i 2 0 s))))) ∧
        (∀ e, s.mgt.secOp = 3 → (slotIn 2 s).isSome = true → s.mgt.graftEnd = some e →
          (s.ownTick < e → exec (.confirm ok) s = .next (secDone 0 (graftSettle ok (setF F.SEC_GRAFT_HOST_DONE 0 0 1 s)))) ∧
          (e ≤ s.ownTick → exec (.confirm ok) s = .next (secDone 0 (flagF F.SEC_STATUS_LATE_CONFIRM 0 0 s)))) ∧
        (∀ i, s.mgt.secOp = 4 → slotIn 2 s = some i →
          exec (.abandonGraft ok) s = .next (tryReset (endGraft ok i (secDone (if ok then 0 else 8) s)))) ∧
        (∀ v z, s.mgt.secOp = 5 → settingsNewer s = false → busReadRange .mgt secTag hostWho (secAddr s) 256 s = (.ok v, z) →
          let w := askDone .mgt secTag z
          exec (.writeSettings true) s = .next (secDone 0 (storeSettings (writtenSettings v w) w))) ∧
        (∀ v w z, s.mgt.secOp = 6 → s.mgt.quote = none → s.ident.isSome = true → bitF F.SEC_STATUS_KEY_OK 0 0 s = true →
          quoteBytes ≤ getF F.SEC_CMD_LEN_LEN 0 0 s → reserveIndex ok s = (none, w) →
          busReadRange .mgt secTag hostWho (secAddr w) 32 w = (.ok v, z) →
          exec (.attest sig ok) s = .next (formQuote sig v (askDone .mgt secTag z))))) ∧
    (∀ (i e : Nat) (ok : Bool), graftSlot s = some i → s.mgt.graftEnd = some e → e ≤ s.ownTick →
      exec (.graftWindowEnd ok) s =
        .next (if graftHealthy (e - 1) s then confirmGraft ok i s else tryReset (endGraft ok i s)))

/-- The I3C sideband, recovery, and test access (15_boot_firmware.md R416, 16_pins_electrical.md R437, 16_pins_electrical.md
R438, 16_pins_electrical.md R439, 16_pins_electrical.md R446, 16_pins_electrical.md R447, 16_pins_electrical.md R448,
16_pins_electrical.md R449, 16_pins_electrical.md R450). -/
def Obligations.SidebandAndTest : Prop :=
  ∀ (s : State),
    (s.pins.aux = true →
      exec .status s = .next (i3cRespond (statusWords s) 16 s) ∧
      exec .reset s = .next (i3cRespond 0 1 (i3cReset s)) ∧
      (∀ off : BitVec 32,
        (inReset s = true ∨ 0x100000 ≤ off.toNat ∨ regAt .mgt 0 off.toNat = none → exec (.read off) s = .next (i3cRespond (2 ^ 64 - 1) 8 s)) ∧
        (inReset s = false → off.toNat < 0x100000 → (regAt .mgt 0 off.toNat).isSome = true →
          let r := csrRead 12 (0x100000 + off.toNat) 8 s
          exec (.read off) s = .next (i3cRespond r.1 8 r.2))) ∧
      (∀ (off : BitVec 32) (n : Nat) (data : BitVec 1920), n ≤ 240 →
        (inRecovery s = false → exec (.recoveryWrite off n data) s = .next (i3cRespond 1 1 s)) ∧
        (inRecovery s = true → off.toNat + n ≤ 240 * 2 ^ 20 → exec (.recoveryWrite off n data) s =
          .next (i3cRespond 0 1 (s.putSlot 0 { (s.slot 0).put off.toNat n data.toNat with st := 0, tries := 0 })))) ∧
      (∀ (len : BitVec 64) (x : ImgIn), inRecovery s = true →
        exec (.recoveryDone len x) s = .next (i3cRespond (recover len.toNat x s).1 1 (recover len.toNat x s).2)) ∧
      (∀ b, exec (.i3cIbi (.acknowledged b)) s = .next { s with i3c := { s.i3c with ibi := s.i3c.ibi.erase b } }) ∧
      exec (.i3cIbi .again) s = .next s ∧
      (∀ a : BitVec 7, exec (.dynamicAddressAssignment a) s = .next { s with i3c := { s.i3c with addr := some a } })) ∧
    (∀ (off : BitVec 32) (n : Nat) (data : BitVec 1920), 240 < n →
      exec (.recoveryWrite off n data) s = .fault (.illFormed "RECOVERY_WRITE carries up to 240 bytes (R437)")) ∧
    (∀ (data : List (BitVec 8)) (x : ImgIn), inRecovery s = true → data.length ≤ 240 * 2 ^ 20 → exec (.tftpWrite data x) s =
      .next (recover data.length x (recoveryPut 0 data.length (fileBytes data) (s.putSlot 0 FwSlot.empty))).2) ∧
    (∀ d : SlotId, exec (.tapDieEnter d) s = .next (dieEnWrite (dieEn s ||| 2 ^ d.val) s) ∧
      exec (.tapDieLeave d) s = .next (dieEnWrite (dieEn s &&& (0xFFFF ^^^ 2 ^ d.val)) s)) ∧
    (exec .tapReset s = .next ((List.range 12).foldl (fun z p => setF F.TAP_PLOT_STATUS_STACK_PORTS p 0 0 z)
      { s with tap := { s.tap with ir := [] } })) ∧
    (let s1 := setF F.TAP_STATUS_STANDIN 0 0 (bitsOf ((List.range 16).map fun d => standsIn d s)) s;
      (s.tap.leaving = false → exec .standinSwitch s = .next s1) ∧
      (s.tap.leaving = true → exec .standinSwitch s =
        .next (setF F.TAP_STATUS_RESET_TEST 0 0 0 { s1 with tap := { s1.tap with leaving := false } }))) ∧
    (∀ d : SlotId, tapReaches d s = true →
      let loaded (code : BitVec 8) : State :=
        let s1 := { s with tap := { s.tap with ir := lput s.tap.ir d.val code } }
        if d.val < 12 ∧ code ≠ 0x11 then setF F.TAP_PLOT_STATUS_STACK_PORTS d 0 0 s1 else s1
      let out (v : Nat) (z : State) : Host.Outcome State Fault Refusal := .next (respond 0 .ok (BitVec.ofNat 1024 v) z)
      let cells (v : BitVec 64) (z : State) : State := { z with tap := { z.tap with cells := sput 0 z.tap.cells d.val v } }
      (∀ v p : BitVec 64, exec (.samplePreload d v p) s = out p.toNat (cells v (loaded 0x01))) ∧
      exec (.idcode d) s = out (idcodeOf d (loaded 0x02)) (loaded 0x02) ∧
      exec (.bypass d) s = out 0 (loaded 0xFF) ∧
      (inTest d s = true →
        (∀ v p : BitVec 64, exec (.extest d v p) s = out p.toNat (cells v (loaded 0x00))) ∧
        exec (.clamp d) s = out 0 (loaded 0x03) ∧ exec (.highz d) s = out 0 (loaded 0x04) ∧
        exec (.ijtag d) s = out (loaded 0x10).takeFree.1.toNat (loaded 0x10).takeFree.2 ∧
        exec (.laneLoop d) s = .next (loaded 0x12) ∧
        (d.val < 12 → ∀ ports : BitVec 2, exec (.stack d ports) s =
          .next (setF F.TAP_PLOT_STATUS_STACK_PORTS d 0 ports.toNat (loaded 0x11)))) ∧
      (inTest d s = false →
        (∀ v p : BitVec 64, exec (.extest d v p) s = out 0 (loaded 0x00)) ∧
        exec (.clamp d) s = out 0 (loaded 0x03) ∧ exec (.highz d) s = out 0 (loaded 0x04) ∧
        exec (.ijtag d) s = out 0 (loaded 0x10) ∧ exec (.laneLoop d) s = out 0 (loaded 0x12) ∧
        (∀ ports : BitVec 2, exec (.stack d ports) s = out 0 (loaded 0x11))))
end

