-- ==== Sys2Proof/Laws/Sparse.lean ====
section
/-!
SUPPORT. Sparse maps: reading after writing, and the canonical form.
-/

namespace Sys2Proof.Machine

theorem swfFrom_none {α : Type} [DecidableEq α] {d : α} {b : Option Nat} {l : List (Nat × α)} (h : swfFrom d b l) :
    swfFrom d none l := by
  cases l with
  | nil => rfl
  | cons a t => simp_all [swfFrom]

theorem swfFrom_le {α : Type} [DecidableEq α] {d : α} {i j : Nat} {l : List (Nat × α)} (h : swfFrom d (some i) l) (g : j ≤ i) :
    swfFrom d (some j) l := by
  cases l with
  | nil => rfl
  | cons a t => simp_all [swfFrom]; omega

/-- Writing a key above the bound keeps the canonical form. -/
theorem swfFrom_sput {α : Type} [DecidableEq α] (d : α) (k : Nat) (v : α) (l : List (Nat × α)) (b : Option Nat)
    (h : swfFrom d b l) (hb : ∀ j, b = some j → j < k) : swfFrom d b (sput d l k v) := by
  induction l generalizing b with
  | nil =>
    unfold sput
    split
    · rfl
    · cases b <;> simp_all [swfFrom]
  | cons a t ih =>
    obtain ⟨i, w⟩ := a
    have ht : swfFrom d (some i) t := by simp_all [swfFrom]
    have hw : w ≠ d := by simp_all [swfFrom]
    unfold sput
    split
    · split
      · exact h
      · cases b <;> simp_all [swfFrom]
    · split
      · subst k
        split
        · cases b with
          | none => exact swfFrom_none ht
          | some j => exact swfFrom_le ht (Nat.le_of_lt (hb j rfl))
        · cases b <;> simp_all [swfFrom]
      · have := ih (some i) ht (fun j e => by cases e; omega)
        cases b <;> simp_all [swfFrom]

theorem swf_sput {α : Type} [DecidableEq α] (d : α) (k : Nat) (v : α) (l : List (Nat × α)) (h : swf d l) :
    swf d (sput d l k v) := swfFrom_sput d k v l none h (fun _ e => nomatch e)

theorem swfFrom_filter {α : Type} [DecidableEq α] (d : α) (p : Nat × α → Bool) (l : List (Nat × α)) (b : Option Nat)
    (h : swfFrom d b l) : swfFrom d b (l.filter p) := by
  induction l generalizing b with
  | nil => exact h
  | cons a t ih =>
    obtain ⟨i, w⟩ := a
    have ht : swfFrom d (some i) t := by simp_all [swfFrom]
    rw [List.filter_cons]
    split
    · have := ih (some i) ht
      cases b <;> simp_all [swfFrom]
    · cases b with
      | none => exact ih _ (swfFrom_none ht)
      | some j =>
        have hj : j ≤ i := by simp_all [swfFrom]; omega
        exact ih _ (swfFrom_le ht hj)

theorem swf_filter {α : Type} [DecidableEq α] (d : α) (p : Nat × α → Bool) (l : List (Nat × α)) (h : swf d l) :
    swf d (l.filter p) := swfFrom_filter d p l none h

theorem swfFrom_smap {α : Type} [DecidableEq α] (d : α) (f : Nat → α → α) (l : List (Nat × α)) (b : Option Nat)
    (h : swfFrom d b l) : swfFrom d b (smap d f l) := by
  induction l generalizing b with
  | nil => exact h
  | cons a t ih =>
    obtain ⟨i, w⟩ := a
    have ht : swfFrom d (some i) t := by simp_all [swfFrom]
    unfold smap
    dsimp only
    split
    · cases b with
      | none => exact ih _ (swfFrom_none ht)
      | some j =>
        have hj : j ≤ i := by simp_all [swfFrom]; omega
        exact ih _ (swfFrom_le ht hj)
    · have := ih (some i) ht
      cases b <;> simp_all [swfFrom]

theorem swf_smap {α : Type} [DecidableEq α] (d : α) (f : Nat → α → α) (l : List (Nat × α)) (h : swf d l) :
    swf d (smap d f l) := swfFrom_smap d f l none h

theorem swf_putBytes (l : List Host.Cell) (a n mask v : Nat) (h : swf 0 l) : swf 0 (putBytes l a n mask v) := by
  induction n with
  | zero => exact h
  | succ k ih =>
    unfold putBytes
    dsimp only
    split
    · exact swf_sput _ _ _ _ ih
    · exact ih

/-- A key below every listed one reads as the default. -/
theorem sget_low {α : Type} [DecidableEq α] (d : α) (l : List (Nat × α)) (k i : Nat) (h : swfFrom d (some i) l) (g : k ≤ i) :
    sget d l k = d := by
  induction l generalizing i with
  | nil => rfl
  | cons a t ih =>
    obtain ⟨j, w⟩ := a
    have h1 : i < j := by simp_all [swfFrom]
    have ht : swfFrom d (some j) t := by simp_all [swfFrom]
    unfold sget
    rw [if_neg (by omega)]
    exact ih j ht (by omega)

/-- Reading after writing. -/
theorem sget_sput {α : Type} [DecidableEq α] (d : α) (l : List (Nat × α)) (k j : Nat) (v : α) (h : swf d l) :
    sget d (sput d l k v) j = if j = k then v else sget d l j := by
  unfold swf at h
  generalize hb : (none : Option Nat) = b at h
  clear hb
  induction l generalizing b with
  | nil =>
    unfold sput
    by_cases g : v = d
    · subst v; simp [sget]
    · by_cases e : j = k
      · subst j; simp [sget, g]
      · simp [sget, g, e, Ne.symm e]
  | cons a t ih =>
    obtain ⟨i, w⟩ := a
    have ht : swfFrom d (some i) t := by simp_all [swfFrom]
    unfold sput
    split
    · split
      · split
        · subst j v
          unfold sget
          rw [if_neg (by omega)]
          exact sget_low d t k i ht (by omega)
        · rfl
      · by_cases e : j = k
        · subst j; simp [sget]
        · rw [if_neg e, sget, if_neg (Ne.symm e)]
    · split
      · subst i
        split
        · by_cases e : j = k
          · subst j v; rw [if_pos rfl]; exact sget_low d t k k ht (Nat.le_refl k)
          · rw [if_neg e, sget, if_neg (Ne.symm e)]
        · by_cases e : j = k
          · subst j; simp [sget]
          · simp [sget, e, Ne.symm e]
      · have := ih (some i) ht
        simp only [sget]
        split
        · subst i; rw [if_neg (by omega)]
        · exact this

end Sys2Proof.Machine
end

