-- ==== Sys2Proof/Laws/Keep.lean ====
section
/-!
SUPPORT. Keeping: what no command may break. One state keeps another when it has the same queue of waiting commands and is sound
if the other is.
-/

namespace Sys2Proof.Machine

/-- `t` keeps `s`: the waiting commands are the same, and `t` is sound if `s` is. -/
structure Keep (s t : State) : Prop where
  pending : t.pending = s.pending
  sound : Sound s → Sound t

theorem Keep.refl (s : State) : Keep s s := ⟨rfl, id⟩

theorem Keep.trans {a b c : State} (h : Keep a b) (g : Keep b c) : Keep a c := ⟨g.1.trans h.1, g.2 ∘ h.2⟩

/-- An update of fields that soundness does not speak of keeps the state. -/
theorem Keep.upd {s0 a : State} (h : Keep s0 a) (cyc : Nat) (free : Nat) (nextId : Nat) (nextSeq : Nat) (resp : List Resp) (net : List
    Req) (routes : List (Nat × List Nat)) (logSeq : Nat) (flashErr : List LogEntry) (heldCe : List (Nat × Nat × Nat × Nat × Nat × Nat))
    (msis : List (Nat × Nat × Nat)) (timeOff : Int) (served : Nat) (heldWrites : List HeldWrite) (retunes : List Retune) (regClear :
    Option Nat) (regBusy : Nat) (retains : List Nat) (ptc : List (Nat × TlbSet)) (iotlb : List (Nat × TlbSet)) (walkc : List WalkEnt)
    (walks : List Walk) (faults : List FaultRec) (faultWait : List FaultWait) (xans : List XAns) (xinvs : List XInv) (iofences : List (Nat
    × List Nat)) (logq : List LogWrite) (ident : Option Ident) (grove : Grove) (pins : Pins) (i3c : I3c) (flash : Flash) (mgt : Mgt) (tap
    : Tap) (guest : Guest) (power : Power) :
Keep s0 (State.mk a.pending cyc free nextId nextSeq resp a.regs a.mem a.spad a.memErr a.spadErr a.cores a.beds a.stks net routes a.log
      logSeq a.levels flashErr heldCe msis timeOff a.parts a.rings served a.shelf heldWrites retunes regClear regBusy a.wakes retains ptc
      iotlb walkc walks faults a.faultGens faultWait xans xinvs iofences logq ident a.ports a.dlinks grove pins i3c flash mgt tap guest
      power) :=
⟨h.1, fun x => let y := h.2 x; ⟨y.mem, y.spad, y.memErr, y.spadErr, y.regs, y.cores, y.beds, y.stks, y.parts, y.rings, y.shelf, y.ports,
    y.dlinks, y.levels, y.wakes, y.faultGens, y.log⟩⟩

/-- An update of any fields but the queue keeps the state if each field that soundness speaks of stays as it demands. -/
theorem Keep.all {s0 a : State} (h : Keep s0 a) (cyc : Nat) (free : Nat) (nextId : Nat) (nextSeq : Nat) (resp : List Resp) (regs : List
    (Nat × BitVec 64)) (mem : List Host.Cell) (spad : List Host.Cell) (memErr : List (Nat × BitVec 144)) (spadErr : List (Nat × BitVec
    144)) (cores : List (Nat × Core)) (beds : List (Nat × Bed)) (stks : List (Nat × Stack)) (net : List Req) (routes : List (Nat × List
    Nat)) (log : List LogEntry) (logSeq : Nat) (levels : List (Nat × Nat)) (flashErr : List LogEntry) (heldCe : List (Nat × Nat × Nat ×
    Nat × Nat × Nat)) (msis : List (Nat × Nat × Nat)) (timeOff : Int) (parts : List (Nat × Part)) (rings : List (Nat × Ring)) (served :
    Nat) (shelf : List (Nat × Shelf)) (heldWrites : List HeldWrite) (retunes : List Retune) (regClear : Option Nat) (regBusy : Nat) (wakes
    : List (Nat × Nat)) (retains : List Nat) (ptc : List (Nat × TlbSet)) (iotlb : List (Nat × TlbSet)) (walkc : List WalkEnt) (walks :
    List Walk) (faults : List FaultRec) (faultGens : List (Nat × Nat)) (faultWait : List FaultWait) (xans : List XAns) (xinvs : List XInv)
    (iofences : List (Nat × List Nat)) (logq : List LogWrite) (ident : Option Ident) (ports : List (Nat × Port)) (dlinks : List (Nat ×
    Port)) (grove : Grove) (pins : Pins) (i3c : I3c) (flash : Flash) (mgt : Mgt) (tap : Tap) (guest : Guest) (power : Power)
    (g_mem : Memory.wf a.mem → Memory.wf mem)
    (g_spad : Memory.wf a.spad → Memory.wf spad)
    (g_memErr : swf (0 : BitVec 144) a.memErr → swf (0 : BitVec 144) memErr)
    (g_spadErr : swf (0 : BitVec 144) a.spadErr → swf (0 : BitVec 144) spadErr)
    (g_regs : swf (0 : BitVec 64) a.regs → swf (0 : BitVec 64) regs)
    (g_cores : swf Core.reset a.cores → swf Core.reset cores)
    (g_beds : swf Bed.reset a.beds → swf Bed.reset beds)
    (g_stks : swf Stack.reset a.stks → swf Stack.reset stks)
    (g_parts : swf Part.reset a.parts → swf Part.reset parts)
    (g_rings : swf Ring.reset a.rings → swf Ring.reset rings)
    (g_shelf : swf Shelf.reset a.shelf → swf Shelf.reset shelf)
    (g_ports : swf Port.reset a.ports → swf Port.reset ports)
    (g_dlinks : swf Port.reset a.dlinks → swf Port.reset dlinks)
    (g_levels : swf (0 : Nat) a.levels → swf (0 : Nat) levels)
    (g_wakes : swf (0 : Nat) a.wakes → swf (0 : Nat) wakes)
    (g_faultGens : swf (0 : Nat) a.faultGens → swf (0 : Nat) faultGens)
    (g_log : a.log.length ≤ 256 → log.length ≤ 256) :
Keep s0 (State.mk a.pending cyc free nextId nextSeq resp regs mem spad memErr spadErr cores beds stks net routes log logSeq levels
      flashErr heldCe msis timeOff parts rings served shelf heldWrites retunes regClear regBusy wakes retains ptc iotlb walkc walks faults
      faultGens faultWait xans xinvs iofences logq ident ports dlinks grove pins i3c flash mgt tap guest power) :=
⟨h.1, fun x => let y := h.2 x; ⟨g_mem y.mem, g_spad y.spad, g_memErr y.memErr, g_spadErr y.spadErr, g_regs y.regs, g_cores y.cores, g_beds
    y.beds, g_stks y.stks, g_parts y.parts, g_rings y.rings, g_shelf y.shelf, g_ports y.ports, g_dlinks y.dlinks, g_levels y.levels,
    g_wakes y.wakes, g_faultGens y.faultGens, g_log y.log⟩⟩

theorem Keep.mem {s0 a : State} (h : Keep s0 a) (v : List Host.Cell) (g : Memory.wf a.mem → Memory.wf v) :
    Keep s0 { a with mem := v } :=
⟨h.1, fun x => let y := h.2 x; ⟨g y.mem, y.spad, y.memErr, y.spadErr, y.regs, y.cores, y.beds, y.stks, y.parts, y.rings, y.shelf, y.ports,
    y.dlinks, y.levels, y.wakes, y.faultGens, y.log⟩⟩

theorem Keep.spad {s0 a : State} (h : Keep s0 a) (v : List Host.Cell) (g : Memory.wf a.spad → Memory.wf v) :
    Keep s0 { a with spad := v } :=
⟨h.1, fun x => let y := h.2 x; ⟨y.mem, g y.spad, y.memErr, y.spadErr, y.regs, y.cores, y.beds, y.stks, y.parts, y.rings, y.shelf, y.ports,
    y.dlinks, y.levels, y.wakes, y.faultGens, y.log⟩⟩

theorem Keep.memErr {s0 a : State} (h : Keep s0 a) (v : List (Nat × BitVec 144)) (g : swf (0 : BitVec 144) a.memErr → swf (0 : BitVec 144) v) :
    Keep s0 { a with memErr := v } :=
⟨h.1, fun x => let y := h.2 x; ⟨y.mem, y.spad, g y.memErr, y.spadErr, y.regs, y.cores, y.beds, y.stks, y.parts, y.rings, y.shelf, y.ports,
    y.dlinks, y.levels, y.wakes, y.faultGens, y.log⟩⟩

theorem Keep.spadErr {s0 a : State} (h : Keep s0 a) (v : List (Nat × BitVec 144)) (g : swf (0 : BitVec 144) a.spadErr → swf (0 : BitVec 144) v) :
    Keep s0 { a with spadErr := v } :=
⟨h.1, fun x => let y := h.2 x; ⟨y.mem, y.spad, y.memErr, g y.spadErr, y.regs, y.cores, y.beds, y.stks, y.parts, y.rings, y.shelf, y.ports,
    y.dlinks, y.levels, y.wakes, y.faultGens, y.log⟩⟩

theorem Keep.regs {s0 a : State} (h : Keep s0 a) (v : List (Nat × BitVec 64)) (g : swf (0 : BitVec 64) a.regs → swf (0 : BitVec 64) v) :
    Keep s0 { a with regs := v } :=
⟨h.1, fun x => let y := h.2 x; ⟨y.mem, y.spad, y.memErr, y.spadErr, g y.regs, y.cores, y.beds, y.stks, y.parts, y.rings, y.shelf, y.ports,
    y.dlinks, y.levels, y.wakes, y.faultGens, y.log⟩⟩

theorem Keep.cores {s0 a : State} (h : Keep s0 a) (v : List (Nat × Core)) (g : swf Core.reset a.cores → swf Core.reset v) :
    Keep s0 { a with cores := v } :=
⟨h.1, fun x => let y := h.2 x; ⟨y.mem, y.spad, y.memErr, y.spadErr, y.regs, g y.cores, y.beds, y.stks, y.parts, y.rings, y.shelf, y.ports,
    y.dlinks, y.levels, y.wakes, y.faultGens, y.log⟩⟩

theorem Keep.beds {s0 a : State} (h : Keep s0 a) (v : List (Nat × Bed)) (g : swf Bed.reset a.beds → swf Bed.reset v) :
    Keep s0 { a with beds := v } :=
⟨h.1, fun x => let y := h.2 x; ⟨y.mem, y.spad, y.memErr, y.spadErr, y.regs, y.cores, g y.beds, y.stks, y.parts, y.rings, y.shelf, y.ports,
    y.dlinks, y.levels, y.wakes, y.faultGens, y.log⟩⟩

theorem Keep.stks {s0 a : State} (h : Keep s0 a) (v : List (Nat × Stack)) (g : swf Stack.reset a.stks → swf Stack.reset v) :
    Keep s0 { a with stks := v } :=
⟨h.1, fun x => let y := h.2 x; ⟨y.mem, y.spad, y.memErr, y.spadErr, y.regs, y.cores, y.beds, g y.stks, y.parts, y.rings, y.shelf, y.ports,
    y.dlinks, y.levels, y.wakes, y.faultGens, y.log⟩⟩

theorem Keep.parts {s0 a : State} (h : Keep s0 a) (v : List (Nat × Part)) (g : swf Part.reset a.parts → swf Part.reset v) :
    Keep s0 { a with parts := v } :=
⟨h.1, fun x => let y := h.2 x; ⟨y.mem, y.spad, y.memErr, y.spadErr, y.regs, y.cores, y.beds, y.stks, g y.parts, y.rings, y.shelf, y.ports,
    y.dlinks, y.levels, y.wakes, y.faultGens, y.log⟩⟩

theorem Keep.rings {s0 a : State} (h : Keep s0 a) (v : List (Nat × Ring)) (g : swf Ring.reset a.rings → swf Ring.reset v) :
    Keep s0 { a with rings := v } :=
⟨h.1, fun x => let y := h.2 x; ⟨y.mem, y.spad, y.memErr, y.spadErr, y.regs, y.cores, y.beds, y.stks, y.parts, g y.rings, y.shelf, y.ports,
    y.dlinks, y.levels, y.wakes, y.faultGens, y.log⟩⟩

theorem Keep.shelf {s0 a : State} (h : Keep s0 a) (v : List (Nat × Shelf)) (g : swf Shelf.reset a.shelf → swf Shelf.reset v) :
    Keep s0 { a with shelf := v } :=
⟨h.1, fun x => let y := h.2 x; ⟨y.mem, y.spad, y.memErr, y.spadErr, y.regs, y.cores, y.beds, y.stks, y.parts, y.rings, g y.shelf, y.ports,
    y.dlinks, y.levels, y.wakes, y.faultGens, y.log⟩⟩

theorem Keep.ports {s0 a : State} (h : Keep s0 a) (v : List (Nat × Port)) (g : swf Port.reset a.ports → swf Port.reset v) :
    Keep s0 { a with ports := v } :=
⟨h.1, fun x => let y := h.2 x; ⟨y.mem, y.spad, y.memErr, y.spadErr, y.regs, y.cores, y.beds, y.stks, y.parts, y.rings, y.shelf, g y.ports,
    y.dlinks, y.levels, y.wakes, y.faultGens, y.log⟩⟩

theorem Keep.dlinks {s0 a : State} (h : Keep s0 a) (v : List (Nat × Port)) (g : swf Port.reset a.dlinks → swf Port.reset v) :
    Keep s0 { a with dlinks := v } :=
⟨h.1, fun x => let y := h.2 x; ⟨y.mem, y.spad, y.memErr, y.spadErr, y.regs, y.cores, y.beds, y.stks, y.parts, y.rings, y.shelf, y.ports, g
    y.dlinks, y.levels, y.wakes, y.faultGens, y.log⟩⟩

theorem Keep.levels {s0 a : State} (h : Keep s0 a) (v : List (Nat × Nat)) (g : swf (0 : Nat) a.levels → swf (0 : Nat) v) :
    Keep s0 { a with levels := v } :=
⟨h.1, fun x => let y := h.2 x; ⟨y.mem, y.spad, y.memErr, y.spadErr, y.regs, y.cores, y.beds, y.stks, y.parts, y.rings, y.shelf, y.ports,
    y.dlinks, g y.levels, y.wakes, y.faultGens, y.log⟩⟩

theorem Keep.wakes {s0 a : State} (h : Keep s0 a) (v : List (Nat × Nat)) (g : swf (0 : Nat) a.wakes → swf (0 : Nat) v) :
    Keep s0 { a with wakes := v } :=
⟨h.1, fun x => let y := h.2 x; ⟨y.mem, y.spad, y.memErr, y.spadErr, y.regs, y.cores, y.beds, y.stks, y.parts, y.rings, y.shelf, y.ports,
    y.dlinks, y.levels, g y.wakes, y.faultGens, y.log⟩⟩

theorem Keep.faultGens {s0 a : State} (h : Keep s0 a) (v : List (Nat × Nat)) (g : swf (0 : Nat) a.faultGens → swf (0 : Nat) v) :
    Keep s0 { a with faultGens := v } :=
⟨h.1, fun x => let y := h.2 x; ⟨y.mem, y.spad, y.memErr, y.spadErr, y.regs, y.cores, y.beds, y.stks, y.parts, y.rings, y.shelf, y.ports,
    y.dlinks, y.levels, y.wakes, g y.faultGens, y.log⟩⟩

theorem Keep.log {s0 a : State} (h : Keep s0 a) (v : List LogEntry) (g : a.log.length ≤ 256 → v.length ≤ 256) :
    Keep s0 { a with log := v } :=
⟨h.1, fun x => let y := h.2 x; ⟨y.mem, y.spad, y.memErr, y.spadErr, y.regs, y.cores, y.beds, y.stks, y.parts, y.rings, y.shelf, y.ports,
    y.dlinks, y.levels, y.wakes, y.faultGens, g y.log⟩⟩

/-- Every next state of an outcome keeps `s`. -/
def KeepAll (s : State) (o : Host.Outcome State Fault Refusal) : Prop := ∀ t, o = .next t → Keep s t

theorem KeepAll.next {s t : State} (h : Keep s t) : KeepAll s (.next t) := fun _ e => by cases e; exact h

theorem KeepAll.fault {s : State} (f : Fault) : KeepAll s (.fault f) := fun _ e => nomatch e

/-- Folding an operation that keeps the state keeps it. -/
theorem keep_foldl {α : Type} {s0 : State} (f : State → α → State) (l : List α) (s : State) (h : Keep s0 s)
    (hf : ∀ z x, Keep s0 z → Keep s0 (f z x)) : Keep s0 (l.foldl f s) := by
  induction l generalizing s with
  | nil => exact h
  | cons a t ih => exact ih _ (hf s a h)

theorem keep_foldl2 {α β : Type} {s0 : State} (f : β × State → α → β × State) (l : List α) (s : β × State) (h : Keep s0 s.2)
    (hf : ∀ z x, Keep s0 z.2 → Keep s0 (f z x).2) : Keep s0 (l.foldl f s).2 := by
  induction l generalizing s with
  | nil => exact h
  | cons a t ih => exact ih _ (hf s a h)

theorem keep_foldl3 {α β γ : Type} {s0 : State} (f : β × γ × State → α → β × γ × State) (l : List α) (s : β × γ × State)
    (h : Keep s0 s.2.2) (hf : ∀ z x, Keep s0 z.2.2 → Keep s0 (f z x).2.2) : Keep s0 (l.foldl f s).2.2 := by
  induction l generalizing s with
  | nil => exact h
  | cons a t ih => exact ih _ (hf s a h)

/-- The state of a triple. -/
theorem Keep.triple {α β : Type} {s t : State} (a : α) (b : β) (h : Keep s t) : Keep s (a, b, t).2.2 := h

theorem mwf_sput (l : List Host.Cell) (k : Nat) (v : BitVec 8) : Memory.wf l → Memory.wf (sput 0 l k v) := swf_sput _ _ _ _

theorem mwf_putBytes (l : List Host.Cell) (a n mask v : Nat) : Memory.wf l → Memory.wf (putBytes l a n mask v) :=
  swf_putBytes _ _ _ _ _

theorem mwf_filter (l : List Host.Cell) (p : Nat × BitVec 8 → Bool) : Memory.wf l → Memory.wf (l.filter p) := swf_filter _ _ _

theorem log_take (l : List LogEntry) (e : LogEntry) : l.length ≤ 256 → ((e :: l).take 256).length ≤ 256 := fun _ => by
  rw [List.length_take]; omega

end Sys2Proof.Machine
end

