-- ==== Sys2Proof/Laws/KeepRegs.lean ====
section
/-!
SUPPORT. Keeping: the operations of Regs.
-/

namespace Sys2Proof.Machine

theorem keep_writeReg {s0 : State} (r : Reg) (i j : Nat) (v : BitVec 64) (s : State) (h : Keep s0 s) :
    Keep s0 (writeReg r i j v s) := h.regs _ (swf_sput _ _ _ _)

theorem keep_setF {s0 : State} (a0 : Fld) (a1 : Nat) (a2 : Nat) (a3 : Nat) (s : State) (h : Keep s0 s) :
    Keep s0 (setF a0 a1 a2 a3 s) := by
  unfold setF
  repeat' first
    | with_reducible assumption
    | with_reducible apply keep_writeReg

theorem keep_flagF {s0 : State} (a0 : Fld) (a1 : Nat) (a2 : Nat) (s : State) (h : Keep s0 s) :
    Keep s0 (flagF a0 a1 a2 s) := by
  unfold flagF
  repeat' first
    | with_reducible assumption
    | with_reducible apply keep_setF

theorem keep_flagIf {s0 : State} (a0 : Bool) (a1 : Fld) (a2 : Nat) (a3 : Nat) (s : State) (h : Keep s0 s) :
    Keep s0 (flagIf a0 a1 a2 a3 s) := by
  unfold flagIf
  repeat' first
    | with_reducible assumption
    | with_reducible apply keep_flagF
    | split

theorem keep_incF {s0 : State} (a0 : Fld) (a1 : Nat) (a2 : Nat) (a3 : Nat) (s : State) (h : Keep s0 s) :
    Keep s0 (incF a0 a1 a2 a3 s) := by
  unfold incF
  repeat' first
    | with_reducible assumption
    | with_reducible apply keep_setF

theorem keep_swWriteReg {s0 : State} (a0 : Reg) (a1 : Nat) (a2 : Nat) (a3 : BitVec 64) (a4 : BitVec 64) (s : State) (h : Keep s0 s) :
    Keep s0 (swWriteReg a0 a1 a2 a3 a4 s) := by
  unfold swWriteReg
  repeat' first
    | with_reducible assumption
    | with_reducible apply keep_writeReg

theorem keep_readClearReg {s0 : State} (a0 : Reg) (a1 : Nat) (a2 : Nat) (s : State) (h : Keep s0 s) :
    Keep s0 (readClearReg a0 a1 a2 s) := by
  unfold readClearReg
  repeat' first
    | with_reducible assumption
    | with_reducible apply keep_writeReg

theorem keep_State_putCore {s0 : State} (s : State) (c : Nat) (k : Core) (h : Keep s0 s) : Keep s0 (s.putCore c k) :=
  h.cores _ (swf_sput _ _ _ _)

theorem keep_State_putBed {s0 : State} (s : State) (c : Nat) (k : Bed) (h : Keep s0 s) : Keep s0 (s.putBed c k) :=
  h.beds _ (swf_sput _ _ _ _)

theorem keep_State_putStack {s0 : State} (s : State) (c : Nat) (k : Stack) (h : Keep s0 s) : Keep s0 (s.putStack c k) :=
  h.stks _ (swf_sput _ _ _ _)

theorem keep_State_putBgPower {s0 : State} (a1 : Nat) (a2 : Nat) (s : State) (h : Keep s0 s) :
    Keep s0 (State.putBgPower s a1 a2) := by
  unfold State.putBgPower
  repeat' first
    | with_reducible assumption
    | with_reducible apply keep_setF

end Sys2Proof.Machine
end

