-- ==== Sys2Proof/Laws/KeepOps.lean ====
section
/-!
SUPPORT. Keeping: the operations of Ops.
-/

namespace Sys2Proof.Machine

theorem keep_State_takeFree {s0 : State}  (s : State) (h : Keep s0 s) :
    Keep s0 (State.takeFree s).2 := by
  unfold State.takeFree
  try extract_lets
  repeat' first
    | with_reducible assumption
    | extract_lets
    | dsimp only
    | with_reducible apply Keep.upd

theorem keep_State_takeFree_e {s0 : State}  {s t : State} {x} (e : State.takeFree s = (x, t)) (h : Keep s0 s) : Keep s0 t := by
  have g := keep_State_takeFree  s h 
  rw [e] at g
  exact g

theorem keep_State_takeId {s0 : State}  (s : State) (h : Keep s0 s) :
    Keep s0 (State.takeId s).2 := by
  unfold State.takeId
  try extract_lets
  repeat' first
    | with_reducible assumption
    | extract_lets
    | dsimp only
    | with_reducible apply Keep.upd

theorem keep_State_takeId_e {s0 : State}  {s t : State} {x} (e : State.takeId s = (x, t)) (h : Keep s0 s) : Keep s0 t := by
  have g := keep_State_takeId  s h 
  rw [e] at g
  exact g

theorem keep_respond {s0 : State} (a0 : Nat) (a1 : Status) (a2 : BitVec 1024) (s : State) (h : Keep s0 s) :
    Keep s0 (respond a0 a1 a2 s) := by
  unfold respond
  try extract_lets
  repeat' first
    | with_reducible assumption
    | extract_lets
    | dsimp only
    | with_reducible apply Keep.upd

theorem keep_irq {s0 : State} (a0 : Nat) (s : State) (h : Keep s0 s) :
    Keep s0 (irq a0 s) := by
  unfold irq
  try extract_lets
  repeat' first
    | with_reducible assumption
    | with_reducible apply keep_incF
    | with_reducible apply keep_flagF
    | extract_lets
    | split
    | dsimp only
    | with_reducible apply Keep.upd

theorem keep_eventIrq {s0 : State}  (s : State) (h : Keep s0 s) :
    Keep s0 (eventIrq s) := by
  unfold eventIrq
  repeat' first
    | with_reducible assumption
    | with_reducible apply keep_irq
    | split

theorem keep_logNew {s0 : State} (a0 : Event) (s : State) (h : Keep s0 s) :
    Keep s0 (logNew a0 s) := by
  unfold logNew
  try extract_lets
  repeat' first
    | with_reducible assumption
    | with_reducible apply keep_flagIf
    | with_reducible apply keep_setF
    | with_reducible apply keep_irq
    | extract_lets
    | split
    | dsimp only
    | with_reducible exact id
    | with_reducible exact swf_sput _ _ _ _
    | with_reducible exact mwf_sput _ _ _
    | with_reducible exact mwf_putBytes _ _ _ _ _
    | with_reducible exact mwf_filter _ _
    | with_reducible exact swf_filter _ _ _
    | with_reducible exact swf_smap _ _ _
    | with_reducible exact log_take _ _
    | with_reducible exact fun g => mwf_putBytes _ _ _ _ _ (mwf_putBytes _ _ _ _ _ g)
    | with_reducible apply Keep.upd
    | with_reducible apply Keep.all

theorem keep_logEvent {s0 : State} (a0 : Event) (s : State) (h : Keep s0 s) : Keep s0 (logEvent a0 s) := by
  unfold logEvent
  extract_lets v
  split
  · rename_i e t he
    split
    · exact h.log _ (by rw [he]; exact id)
    · exact keep_logNew _ _ h
  · exact keep_logNew _ _ h

theorem keep_ceNow {s0 : State} (a0 : ErrAt) (a1 : Nat) (a2 : Nat) (s : State) (h : Keep s0 s) :
    Keep s0 (ceNow a0 a1 a2 s) := by
  unfold ceNow
  try extract_lets
  repeat' first
    | with_reducible assumption
    | with_reducible apply keep_incF
    | with_reducible apply keep_logEvent
    | extract_lets
    | split
    | dsimp only
    | with_reducible exact id
    | with_reducible exact swf_sput _ _ _ _
    | with_reducible exact mwf_sput _ _ _
    | with_reducible exact mwf_putBytes _ _ _ _ _
    | with_reducible exact mwf_filter _ _
    | with_reducible exact swf_filter _ _ _
    | with_reducible exact swf_smap _ _ _
    | with_reducible exact log_take _ _
    | with_reducible exact fun g => mwf_putBytes _ _ _ _ _ (mwf_putBytes _ _ _ _ _ g)
    | with_reducible apply Keep.upd
    | with_reducible apply Keep.all

theorem keep_ceReport {s0 : State} (a0 : ErrAt) (a1 : Nat) (a2 : Nat) (s : State) (h : Keep s0 s) :
    Keep s0 (ceReport a0 a1 a2 s) := by
  unfold ceReport
  try extract_lets
  repeat' first
    | with_reducible assumption
    | with_reducible apply keep_ceNow
    | extract_lets
    | split
    | dsimp only
    | with_reducible apply Keep.upd

theorem keep_ueConsume {s0 : State} (a0 : ErrAt) (a1 : Nat) (a2 : Nat) (a3 : Status) (s : State) (h : Keep s0 s) :
    Keep s0 (ueConsume a0 a1 a2 a3 s) := by
  unfold ueConsume
  repeat' first
    | with_reducible assumption
    | with_reducible apply keep_logEvent
    | with_reducible apply keep_incF

theorem keep_ueFound {s0 : State} (a0 : ErrAt) (a1 : Nat) (s : State) (h : Keep s0 s) :
    Keep s0 (ueFound a0 a1 s) := by
  unfold ueFound
  repeat' first
    | with_reducible assumption
    | with_reducible apply keep_logEvent
    | with_reducible apply keep_incF

theorem keep_State_putPart {s0 : State} (s : State) (c : Nat) (k : Part) (h : Keep s0 s) : Keep s0 (s.putPart c k) :=
  h.parts _ (swf_sput _ _ _ _)

theorem keep_failLaunch {s0 : State} (a0 : Nat) (a1 : Status) (s : State) (h : Keep s0 s) :
    Keep s0 (failLaunch a0 a1 s) := by
  unfold failLaunch
  try extract_lets
  repeat' first
    | with_reducible assumption
    | with_reducible apply keep_State_putPart
    | extract_lets
    | split

theorem keep_noteBed {s0 : State} (a0 : Nat) (a1 : Nat) (s : State) (h : Keep s0 s) :
    Keep s0 (noteBed a0 a1 s) := by
  unfold noteBed
  try extract_lets
  repeat' first
    | with_reducible assumption
    | with_reducible apply keep_State_putPart
    | extract_lets
    | split

theorem keep_failLaunchAt {s0 : State} (a0 : Nat) (a1 : Nat) (a2 : Status) (s : State) (h : Keep s0 s) :
    Keep s0 (failLaunchAt a0 a1 a2 s) := by
  unfold failLaunchAt
  repeat' first
    | with_reducible assumption
    | with_reducible apply keep_failLaunch
    | with_reducible apply keep_noteBed

theorem keep_rollbackPart {s0 : State} (a0 : Nat) (a1 : Status) (s : State) (h : Keep s0 s) :
    Keep s0 (rollbackPart a0 a1 s) := by
  unfold rollbackPart
  try extract_lets
  repeat' first
    | with_reducible assumption
    | with_reducible apply keep_State_putPart
    | extract_lets
    | split

theorem keep_writePattern {s0 : State} (a0 : Nat) (a1 : ErrAt) (s : State) (h : Keep s0 s) :
    Keep s0 (writePattern a0 a1 s).2 := by
  unfold writePattern
  repeat' first
    | with_reducible assumption
    | with_reducible apply keep_logEvent
    | with_reducible apply keep_setF
    | split

theorem keep_writePattern_e {s0 : State} {a0 : Nat} {a1 : ErrAt} {s t : State} {x} (e : writePattern a0 a1 s = (x, t)) (h : Keep s0 s) : Keep s0 t := by
  have g := keep_writePattern a0 a1 s h 
  rw [e] at g
  exact g

theorem keep_spadRead {s0 : State} (a0 : Nat) (a1 : Nat) (s : State) (h : Keep s0 s) :
    Keep s0 (spadRead a0 a1 s).2 := by
  unfold spadRead
  try extract_lets
  repeat' first
    | with_reducible assumption
    | with_reducible apply keep_ceReport
    | with_reducible apply keep_incF
    | extract_lets
    | split
    | dsimp only
    | with_reducible exact id
    | with_reducible exact swf_sput _ _ _ _
    | with_reducible exact mwf_sput _ _ _
    | with_reducible exact mwf_putBytes _ _ _ _ _
    | with_reducible exact mwf_filter _ _
    | with_reducible exact swf_filter _ _ _
    | with_reducible exact swf_smap _ _ _
    | with_reducible exact log_take _ _
    | with_reducible exact fun g => mwf_putBytes _ _ _ _ _ (mwf_putBytes _ _ _ _ _ g)
    | with_reducible apply Keep.upd
    | with_reducible apply Keep.all

theorem keep_spadRead_e {s0 : State} {a0 : Nat} {a1 : Nat} {s t : State} {x} (e : spadRead a0 a1 s = (x, t)) (h : Keep s0 s) : Keep s0 t := by
  have g := keep_spadRead a0 a1 s h 
  rw [e] at g
  exact g

theorem keep_spadWrite {s0 : State} (a0 : Nat) (a1 : Nat) (a2 : Nat) (a3 : Nat) (s : State) (h : Keep s0 s) :
    Keep s0 (spadWrite a0 a1 a2 a3 s) := by
  unfold spadWrite
  try extract_lets
  repeat' first
    | with_reducible assumption
    | with_reducible apply keep_writePattern
    | (with_reducible apply keep_writePattern_e; · with_reducible assumption)
    | extract_lets
    | split
    | dsimp only
    | with_reducible exact id
    | with_reducible exact swf_sput _ _ _ _
    | with_reducible exact mwf_sput _ _ _
    | with_reducible exact mwf_putBytes _ _ _ _ _
    | with_reducible exact mwf_filter _ _
    | with_reducible exact swf_filter _ _ _
    | with_reducible exact swf_smap _ _ _
    | with_reducible exact log_take _ _
    | with_reducible exact fun g => mwf_putBytes _ _ _ _ _ (mwf_putBytes _ _ _ _ _ g)
    | with_reducible apply Keep.upd
    | with_reducible apply Keep.all

theorem keep_spadConsume {s0 : State} (a0 : Nat) (a1 : Nat) (a2 : Nat) (s : State) (h : Keep s0 s) :
    Keep s0 (spadConsume a0 a1 a2 s) := by
  unfold spadConsume
  try extract_lets
  repeat' first
    | with_reducible assumption
    | with_reducible apply keep_ueConsume
    | with_reducible apply keep_flagF

theorem keep_spoil {s0 : State} (a0 : Nat) (a1 : Nat) (s : State) (h : Keep s0 s) :
    Keep s0 (spoil a0 a1 s) := by
  unfold spoil
  try extract_lets
  repeat' first
    | with_reducible assumption
    | with_reducible apply keep_State_putCore
    | extract_lets
    | split

theorem keep_storeGran {s0 : State} (a0 : Nat) (a1 : Nat) (a2 : Nat) (a3 : Nat) (a4 : Nat) (a5 : Nat) (a6 : State) (s : State) (h : Keep s0 s) :
    Keep s0 (storeGran a0 a1 a2 a3 a4 a5 a6 s) := by
  unfold storeGran
  repeat' first
    | with_reducible assumption
    | with_reducible apply keep_spadConsume
    | with_reducible apply keep_spoil
    | with_reducible apply keep_spadWrite
    | split

theorem keep_spadStore {s0 : State} (a0 : Nat) (a1 : Nat) (a2 : Nat) (a3 : Nat) (a4 : Nat) (s : State) (h : Keep s0 s) :
    Keep s0 (spadStore a0 a1 a2 a3 a4 s).2 := by
  unfold spadStore
  repeat' first
    | with_reducible assumption
    | with_reducible apply keep_storeGran
    | with_reducible apply keep_foldl
    | with_reducible apply keep_foldl2
    | with_reducible apply keep_foldl3
    | dsimp only
    | intro _

theorem keep_spadStore_e {s0 : State} {a0 : Nat} {a1 : Nat} {a2 : Nat} {a3 : Nat} {a4 : Nat} {s t : State} {x} (e : spadStore a0 a1 a2 a3 a4 s = (x, t)) (h : Keep s0 s) : Keep s0 t := by
  have g := keep_spadStore a0 a1 a2 a3 a4 s h 
  rw [e] at g
  exact g

theorem keep_regionViol {s0 : State} (a0 : Nat) (a1 : Nat) (s : State) (h : Keep s0 s) :
    Keep s0 (regionViol a0 a1 s) := by
  unfold regionViol
  repeat' first
    | with_reducible assumption
    | with_reducible apply keep_setF

end Sys2Proof.Machine
end

