-- ==== Sys2Proof/Laws/KeepIssue.lean ====
section
/-!
SUPPORT. Keeping: the operations of Issue.
-/

namespace Sys2Proof.Machine

theorem keep_riseFlag {s0 : State} (a0 : Nat) (a1 : BitVec 5) (s : State) (h : Keep s0 s) :
    Keep s0 (riseFlag a0 a1 s) := by
  unfold riseFlag
  try extract_lets
  repeat' first
    | with_reducible assumption
    | with_reducible apply keep_State_putCore

theorem keep_settleFlags {s0 : State} (a0 : Nat) (s : State) (h : Keep s0 s) :
    Keep s0 (settleFlags a0 s) := by
  unfold settleFlags
  try extract_lets
  repeat' first
    | with_reducible assumption
    | with_reducible apply keep_flagIf
    | with_reducible apply keep_State_putCore
    | extract_lets
    | split

theorem keep_openBundle {s0 : State} (a0 : Nat) (s : State) (h : Keep s0 s) :
    Keep s0 (openBundle a0 s) := by
  unfold openBundle
  try extract_lets
  repeat' first
    | with_reducible assumption
    | with_reducible apply keep_incF
    | with_reducible apply keep_State_putCore

theorem keep_useSlot {s0 : State} (a0 : Nat) (a1 : Slot) (s : State) (h : Keep s0 s) :
    Keep s0 (useSlot a0 a1 s) := by
  unfold useSlot
  try extract_lets
  repeat' first
    | with_reducible assumption
    | with_reducible apply keep_State_putCore

theorem keep_beginSlot {s0 : State} (a0 : Nat) (a1 : Slot) (s : State) (h : Keep s0 s) :
    Keep s0 (beginSlot a0 a1 s) := by
  unfold beginSlot
  repeat' first
    | with_reducible assumption
    | with_reducible apply keep_useSlot
    | with_reducible apply keep_openBundle
    | split

theorem keep_issueSlot {s0 : State} (a0 : Nat) (a1 : Slot) (a2 : Instr) (a3 : State → State) (s : State) (h : Keep s0 s) (h3 : ∀ z, Keep s0 z → Keep s0 (a3 z)) :
    Keep s0 (issueSlot a0 a1 a2 a3 s) := by
  unfold issueSlot
  repeat' first
    | with_reducible assumption
    | with_reducible apply h3
    | with_reducible apply keep_beginSlot
    | split

theorem keep_deliver {s0 : State} (a0 : Nat) (a1 : Nat) (a2 : Nat) (a3 : Dest) (s : State) (h : Keep s0 s) :
    Keep s0 (deliver a0 a1 a2 a3 s) := by
  unfold deliver
  try extract_lets
  repeat' first
    | with_reducible assumption
    | with_reducible apply keep_State_putCore

theorem keep_fpFlags {s0 : State} (a0 : Nat) (a1 : FpFlags) (s : State) (h : Keep s0 s) :
    Keep s0 (fpFlags a0 a1 s) := by
  unfold fpFlags
  repeat' first
    | with_reducible assumption
    | with_reducible apply keep_flagIf

end Sys2Proof.Machine
end

