-- ==== Sys2Proof/Laws/State.lean ====
section
/-!
SUPPORT. What each plain update of the state leaves: one lemma for each field it does not touch.
-/

namespace Sys2Proof.Machine

@[simp] theorem putCore_pending (s : State) (c : Nat) (k : Core) : (s.putCore c k).pending = s.pending := rfl
@[simp] theorem putCore_cyc (s : State) (c : Nat) (k : Core) : (s.putCore c k).cyc = s.cyc := rfl
@[simp] theorem putCore_free (s : State) (c : Nat) (k : Core) : (s.putCore c k).free = s.free := rfl
@[simp] theorem putCore_nextId (s : State) (c : Nat) (k : Core) : (s.putCore c k).nextId = s.nextId := rfl
@[simp] theorem putCore_nextSeq (s : State) (c : Nat) (k : Core) : (s.putCore c k).nextSeq = s.nextSeq := rfl
@[simp] theorem putCore_resp (s : State) (c : Nat) (k : Core) : (s.putCore c k).resp = s.resp := rfl
@[simp] theorem putCore_regs (s : State) (c : Nat) (k : Core) : (s.putCore c k).regs = s.regs := rfl
@[simp] theorem putCore_mem (s : State) (c : Nat) (k : Core) : (s.putCore c k).mem = s.mem := rfl
@[simp] theorem putCore_spad (s : State) (c : Nat) (k : Core) : (s.putCore c k).spad = s.spad := rfl
@[simp] theorem putCore_memErr (s : State) (c : Nat) (k : Core) : (s.putCore c k).memErr = s.memErr := rfl
@[simp] theorem putCore_spadErr (s : State) (c : Nat) (k : Core) : (s.putCore c k).spadErr = s.spadErr := rfl
@[simp] theorem putCore_beds (s : State) (c : Nat) (k : Core) : (s.putCore c k).beds = s.beds := rfl
@[simp] theorem putCore_stks (s : State) (c : Nat) (k : Core) : (s.putCore c k).stks = s.stks := rfl
@[simp] theorem putCore_net (s : State) (c : Nat) (k : Core) : (s.putCore c k).net = s.net := rfl
@[simp] theorem putCore_routes (s : State) (c : Nat) (k : Core) : (s.putCore c k).routes = s.routes := rfl
@[simp] theorem putCore_log (s : State) (c : Nat) (k : Core) : (s.putCore c k).log = s.log := rfl
@[simp] theorem putCore_logSeq (s : State) (c : Nat) (k : Core) : (s.putCore c k).logSeq = s.logSeq := rfl
@[simp] theorem putCore_levels (s : State) (c : Nat) (k : Core) : (s.putCore c k).levels = s.levels := rfl
@[simp] theorem putCore_flashErr (s : State) (c : Nat) (k : Core) : (s.putCore c k).flashErr = s.flashErr := rfl
@[simp] theorem putCore_heldCe (s : State) (c : Nat) (k : Core) : (s.putCore c k).heldCe = s.heldCe := rfl
@[simp] theorem putCore_msis (s : State) (c : Nat) (k : Core) : (s.putCore c k).msis = s.msis := rfl
@[simp] theorem putCore_timeOff (s : State) (c : Nat) (k : Core) : (s.putCore c k).timeOff = s.timeOff := rfl
@[simp] theorem putCore_parts (s : State) (c : Nat) (k : Core) : (s.putCore c k).parts = s.parts := rfl
@[simp] theorem putCore_rings (s : State) (c : Nat) (k : Core) : (s.putCore c k).rings = s.rings := rfl
@[simp] theorem putCore_served (s : State) (c : Nat) (k : Core) : (s.putCore c k).served = s.served := rfl
@[simp] theorem putCore_shelf (s : State) (c : Nat) (k : Core) : (s.putCore c k).shelf = s.shelf := rfl
@[simp] theorem putCore_heldWrites (s : State) (c : Nat) (k : Core) : (s.putCore c k).heldWrites = s.heldWrites := rfl
@[simp] theorem putCore_retunes (s : State) (c : Nat) (k : Core) : (s.putCore c k).retunes = s.retunes := rfl
@[simp] theorem putCore_regClear (s : State) (c : Nat) (k : Core) : (s.putCore c k).regClear = s.regClear := rfl
@[simp] theorem putCore_regBusy (s : State) (c : Nat) (k : Core) : (s.putCore c k).regBusy = s.regBusy := rfl
@[simp] theorem putCore_wakes (s : State) (c : Nat) (k : Core) : (s.putCore c k).wakes = s.wakes := rfl
@[simp] theorem putCore_retains (s : State) (c : Nat) (k : Core) : (s.putCore c k).retains = s.retains := rfl
@[simp] theorem putCore_ptc (s : State) (c : Nat) (k : Core) : (s.putCore c k).ptc = s.ptc := rfl
@[simp] theorem putCore_iotlb (s : State) (c : Nat) (k : Core) : (s.putCore c k).iotlb = s.iotlb := rfl
@[simp] theorem putCore_walkc (s : State) (c : Nat) (k : Core) : (s.putCore c k).walkc = s.walkc := rfl
@[simp] theorem putCore_walks (s : State) (c : Nat) (k : Core) : (s.putCore c k).walks = s.walks := rfl
@[simp] theorem putCore_faults (s : State) (c : Nat) (k : Core) : (s.putCore c k).faults = s.faults := rfl
@[simp] theorem putCore_faultGens (s : State) (c : Nat) (k : Core) : (s.putCore c k).faultGens = s.faultGens := rfl
@[simp] theorem putCore_faultWait (s : State) (c : Nat) (k : Core) : (s.putCore c k).faultWait = s.faultWait := rfl
@[simp] theorem putCore_xans (s : State) (c : Nat) (k : Core) : (s.putCore c k).xans = s.xans := rfl
@[simp] theorem putCore_xinvs (s : State) (c : Nat) (k : Core) : (s.putCore c k).xinvs = s.xinvs := rfl
@[simp] theorem putCore_iofences (s : State) (c : Nat) (k : Core) : (s.putCore c k).iofences = s.iofences := rfl
@[simp] theorem putCore_logq (s : State) (c : Nat) (k : Core) : (s.putCore c k).logq = s.logq := rfl
@[simp] theorem putCore_ident (s : State) (c : Nat) (k : Core) : (s.putCore c k).ident = s.ident := rfl
@[simp] theorem putCore_ports (s : State) (c : Nat) (k : Core) : (s.putCore c k).ports = s.ports := rfl
@[simp] theorem putCore_dlinks (s : State) (c : Nat) (k : Core) : (s.putCore c k).dlinks = s.dlinks := rfl
@[simp] theorem putCore_grove (s : State) (c : Nat) (k : Core) : (s.putCore c k).grove = s.grove := rfl
@[simp] theorem putCore_pins (s : State) (c : Nat) (k : Core) : (s.putCore c k).pins = s.pins := rfl
@[simp] theorem putCore_i3c (s : State) (c : Nat) (k : Core) : (s.putCore c k).i3c = s.i3c := rfl
@[simp] theorem putCore_flash (s : State) (c : Nat) (k : Core) : (s.putCore c k).flash = s.flash := rfl
@[simp] theorem putCore_mgt (s : State) (c : Nat) (k : Core) : (s.putCore c k).mgt = s.mgt := rfl
@[simp] theorem putCore_tap (s : State) (c : Nat) (k : Core) : (s.putCore c k).tap = s.tap := rfl
@[simp] theorem putCore_guest (s : State) (c : Nat) (k : Core) : (s.putCore c k).guest = s.guest := rfl
@[simp] theorem putCore_power (s : State) (c : Nat) (k : Core) : (s.putCore c k).power = s.power := rfl

@[simp] theorem putBed_pending (s : State) (b : Nat) (k : Bed) : (s.putBed b k).pending = s.pending := rfl
@[simp] theorem putBed_cyc (s : State) (b : Nat) (k : Bed) : (s.putBed b k).cyc = s.cyc := rfl
@[simp] theorem putBed_free (s : State) (b : Nat) (k : Bed) : (s.putBed b k).free = s.free := rfl
@[simp] theorem putBed_nextId (s : State) (b : Nat) (k : Bed) : (s.putBed b k).nextId = s.nextId := rfl
@[simp] theorem putBed_nextSeq (s : State) (b : Nat) (k : Bed) : (s.putBed b k).nextSeq = s.nextSeq := rfl
@[simp] theorem putBed_resp (s : State) (b : Nat) (k : Bed) : (s.putBed b k).resp = s.resp := rfl
@[simp] theorem putBed_regs (s : State) (b : Nat) (k : Bed) : (s.putBed b k).regs = s.regs := rfl
@[simp] theorem putBed_mem (s : State) (b : Nat) (k : Bed) : (s.putBed b k).mem = s.mem := rfl
@[simp] theorem putBed_spad (s : State) (b : Nat) (k : Bed) : (s.putBed b k).spad = s.spad := rfl
@[simp] theorem putBed_memErr (s : State) (b : Nat) (k : Bed) : (s.putBed b k).memErr = s.memErr := rfl
@[simp] theorem putBed_spadErr (s : State) (b : Nat) (k : Bed) : (s.putBed b k).spadErr = s.spadErr := rfl
@[simp] theorem putBed_cores (s : State) (b : Nat) (k : Bed) : (s.putBed b k).cores = s.cores := rfl
@[simp] theorem putBed_stks (s : State) (b : Nat) (k : Bed) : (s.putBed b k).stks = s.stks := rfl
@[simp] theorem putBed_net (s : State) (b : Nat) (k : Bed) : (s.putBed b k).net = s.net := rfl
@[simp] theorem putBed_routes (s : State) (b : Nat) (k : Bed) : (s.putBed b k).routes = s.routes := rfl
@[simp] theorem putBed_log (s : State) (b : Nat) (k : Bed) : (s.putBed b k).log = s.log := rfl
@[simp] theorem putBed_logSeq (s : State) (b : Nat) (k : Bed) : (s.putBed b k).logSeq = s.logSeq := rfl
@[simp] theorem putBed_levels (s : State) (b : Nat) (k : Bed) : (s.putBed b k).levels = s.levels := rfl
@[simp] theorem putBed_flashErr (s : State) (b : Nat) (k : Bed) : (s.putBed b k).flashErr = s.flashErr := rfl
@[simp] theorem putBed_heldCe (s : State) (b : Nat) (k : Bed) : (s.putBed b k).heldCe = s.heldCe := rfl
@[simp] theorem putBed_msis (s : State) (b : Nat) (k : Bed) : (s.putBed b k).msis = s.msis := rfl
@[simp] theorem putBed_timeOff (s : State) (b : Nat) (k : Bed) : (s.putBed b k).timeOff = s.timeOff := rfl
@[simp] theorem putBed_parts (s : State) (b : Nat) (k : Bed) : (s.putBed b k).parts = s.parts := rfl
@[simp] theorem putBed_rings (s : State) (b : Nat) (k : Bed) : (s.putBed b k).rings = s.rings := rfl
@[simp] theorem putBed_served (s : State) (b : Nat) (k : Bed) : (s.putBed b k).served = s.served := rfl
@[simp] theorem putBed_shelf (s : State) (b : Nat) (k : Bed) : (s.putBed b k).shelf = s.shelf := rfl
@[simp] theorem putBed_heldWrites (s : State) (b : Nat) (k : Bed) : (s.putBed b k).heldWrites = s.heldWrites := rfl
@[simp] theorem putBed_retunes (s : State) (b : Nat) (k : Bed) : (s.putBed b k).retunes = s.retunes := rfl
@[simp] theorem putBed_regClear (s : State) (b : Nat) (k : Bed) : (s.putBed b k).regClear = s.regClear := rfl
@[simp] theorem putBed_regBusy (s : State) (b : Nat) (k : Bed) : (s.putBed b k).regBusy = s.regBusy := rfl
@[simp] theorem putBed_wakes (s : State) (b : Nat) (k : Bed) : (s.putBed b k).wakes = s.wakes := rfl
@[simp] theorem putBed_retains (s : State) (b : Nat) (k : Bed) : (s.putBed b k).retains = s.retains := rfl
@[simp] theorem putBed_ptc (s : State) (b : Nat) (k : Bed) : (s.putBed b k).ptc = s.ptc := rfl
@[simp] theorem putBed_iotlb (s : State) (b : Nat) (k : Bed) : (s.putBed b k).iotlb = s.iotlb := rfl
@[simp] theorem putBed_walkc (s : State) (b : Nat) (k : Bed) : (s.putBed b k).walkc = s.walkc := rfl
@[simp] theorem putBed_walks (s : State) (b : Nat) (k : Bed) : (s.putBed b k).walks = s.walks := rfl
@[simp] theorem putBed_faults (s : State) (b : Nat) (k : Bed) : (s.putBed b k).faults = s.faults := rfl
@[simp] theorem putBed_faultGens (s : State) (b : Nat) (k : Bed) : (s.putBed b k).faultGens = s.faultGens := rfl
@[simp] theorem putBed_faultWait (s : State) (b : Nat) (k : Bed) : (s.putBed b k).faultWait = s.faultWait := rfl
@[simp] theorem putBed_xans (s : State) (b : Nat) (k : Bed) : (s.putBed b k).xans = s.xans := rfl
@[simp] theorem putBed_xinvs (s : State) (b : Nat) (k : Bed) : (s.putBed b k).xinvs = s.xinvs := rfl
@[simp] theorem putBed_iofences (s : State) (b : Nat) (k : Bed) : (s.putBed b k).iofences = s.iofences := rfl
@[simp] theorem putBed_logq (s : State) (b : Nat) (k : Bed) : (s.putBed b k).logq = s.logq := rfl
@[simp] theorem putBed_ident (s : State) (b : Nat) (k : Bed) : (s.putBed b k).ident = s.ident := rfl
@[simp] theorem putBed_ports (s : State) (b : Nat) (k : Bed) : (s.putBed b k).ports = s.ports := rfl
@[simp] theorem putBed_dlinks (s : State) (b : Nat) (k : Bed) : (s.putBed b k).dlinks = s.dlinks := rfl
@[simp] theorem putBed_grove (s : State) (b : Nat) (k : Bed) : (s.putBed b k).grove = s.grove := rfl
@[simp] theorem putBed_pins (s : State) (b : Nat) (k : Bed) : (s.putBed b k).pins = s.pins := rfl
@[simp] theorem putBed_i3c (s : State) (b : Nat) (k : Bed) : (s.putBed b k).i3c = s.i3c := rfl
@[simp] theorem putBed_flash (s : State) (b : Nat) (k : Bed) : (s.putBed b k).flash = s.flash := rfl
@[simp] theorem putBed_mgt (s : State) (b : Nat) (k : Bed) : (s.putBed b k).mgt = s.mgt := rfl
@[simp] theorem putBed_tap (s : State) (b : Nat) (k : Bed) : (s.putBed b k).tap = s.tap := rfl
@[simp] theorem putBed_guest (s : State) (b : Nat) (k : Bed) : (s.putBed b k).guest = s.guest := rfl
@[simp] theorem putBed_power (s : State) (b : Nat) (k : Bed) : (s.putBed b k).power = s.power := rfl

@[simp] theorem putStack_pending (s : State) (i : Nat) (k : Stack) : (s.putStack i k).pending = s.pending := rfl
@[simp] theorem putStack_cyc (s : State) (i : Nat) (k : Stack) : (s.putStack i k).cyc = s.cyc := rfl
@[simp] theorem putStack_free (s : State) (i : Nat) (k : Stack) : (s.putStack i k).free = s.free := rfl
@[simp] theorem putStack_nextId (s : State) (i : Nat) (k : Stack) : (s.putStack i k).nextId = s.nextId := rfl
@[simp] theorem putStack_nextSeq (s : State) (i : Nat) (k : Stack) : (s.putStack i k).nextSeq = s.nextSeq := rfl
@[simp] theorem putStack_resp (s : State) (i : Nat) (k : Stack) : (s.putStack i k).resp = s.resp := rfl
@[simp] theorem putStack_regs (s : State) (i : Nat) (k : Stack) : (s.putStack i k).regs = s.regs := rfl
@[simp] theorem putStack_mem (s : State) (i : Nat) (k : Stack) : (s.putStack i k).mem = s.mem := rfl
@[simp] theorem putStack_spad (s : State) (i : Nat) (k : Stack) : (s.putStack i k).spad = s.spad := rfl
@[simp] theorem putStack_memErr (s : State) (i : Nat) (k : Stack) : (s.putStack i k).memErr = s.memErr := rfl
@[simp] theorem putStack_spadErr (s : State) (i : Nat) (k : Stack) : (s.putStack i k).spadErr = s.spadErr := rfl
@[simp] theorem putStack_cores (s : State) (i : Nat) (k : Stack) : (s.putStack i k).cores = s.cores := rfl
@[simp] theorem putStack_beds (s : State) (i : Nat) (k : Stack) : (s.putStack i k).beds = s.beds := rfl
@[simp] theorem putStack_net (s : State) (i : Nat) (k : Stack) : (s.putStack i k).net = s.net := rfl
@[simp] theorem putStack_routes (s : State) (i : Nat) (k : Stack) : (s.putStack i k).routes = s.routes := rfl
@[simp] theorem putStack_log (s : State) (i : Nat) (k : Stack) : (s.putStack i k).log = s.log := rfl
@[simp] theorem putStack_logSeq (s : State) (i : Nat) (k : Stack) : (s.putStack i k).logSeq = s.logSeq := rfl
@[simp] theorem putStack_levels (s : State) (i : Nat) (k : Stack) : (s.putStack i k).levels = s.levels := rfl
@[simp] theorem putStack_flashErr (s : State) (i : Nat) (k : Stack) : (s.putStack i k).flashErr = s.flashErr := rfl
@[simp] theorem putStack_heldCe (s : State) (i : Nat) (k : Stack) : (s.putStack i k).heldCe = s.heldCe := rfl
@[simp] theorem putStack_msis (s : State) (i : Nat) (k : Stack) : (s.putStack i k).msis = s.msis := rfl
@[simp] theorem putStack_timeOff (s : State) (i : Nat) (k : Stack) : (s.putStack i k).timeOff = s.timeOff := rfl
@[simp] theorem putStack_parts (s : State) (i : Nat) (k : Stack) : (s.putStack i k).parts = s.parts := rfl
@[simp] theorem putStack_rings (s : State) (i : Nat) (k : Stack) : (s.putStack i k).rings = s.rings := rfl
@[simp] theorem putStack_served (s : State) (i : Nat) (k : Stack) : (s.putStack i k).served = s.served := rfl
@[simp] theorem putStack_shelf (s : State) (i : Nat) (k : Stack) : (s.putStack i k).shelf = s.shelf := rfl
@[simp] theorem putStack_heldWrites (s : State) (i : Nat) (k : Stack) : (s.putStack i k).heldWrites = s.heldWrites := rfl
@[simp] theorem putStack_retunes (s : State) (i : Nat) (k : Stack) : (s.putStack i k).retunes = s.retunes := rfl
@[simp] theorem putStack_regClear (s : State) (i : Nat) (k : Stack) : (s.putStack i k).regClear = s.regClear := rfl
@[simp] theorem putStack_regBusy (s : State) (i : Nat) (k : Stack) : (s.putStack i k).regBusy = s.regBusy := rfl
@[simp] theorem putStack_wakes (s : State) (i : Nat) (k : Stack) : (s.putStack i k).wakes = s.wakes := rfl
@[simp] theorem putStack_retains (s : State) (i : Nat) (k : Stack) : (s.putStack i k).retains = s.retains := rfl
@[simp] theorem putStack_ptc (s : State) (i : Nat) (k : Stack) : (s.putStack i k).ptc = s.ptc := rfl
@[simp] theorem putStack_iotlb (s : State) (i : Nat) (k : Stack) : (s.putStack i k).iotlb = s.iotlb := rfl
@[simp] theorem putStack_walkc (s : State) (i : Nat) (k : Stack) : (s.putStack i k).walkc = s.walkc := rfl
@[simp] theorem putStack_walks (s : State) (i : Nat) (k : Stack) : (s.putStack i k).walks = s.walks := rfl
@[simp] theorem putStack_faults (s : State) (i : Nat) (k : Stack) : (s.putStack i k).faults = s.faults := rfl
@[simp] theorem putStack_faultGens (s : State) (i : Nat) (k : Stack) : (s.putStack i k).faultGens = s.faultGens := rfl
@[simp] theorem putStack_faultWait (s : State) (i : Nat) (k : Stack) : (s.putStack i k).faultWait = s.faultWait := rfl
@[simp] theorem putStack_xans (s : State) (i : Nat) (k : Stack) : (s.putStack i k).xans = s.xans := rfl
@[simp] theorem putStack_xinvs (s : State) (i : Nat) (k : Stack) : (s.putStack i k).xinvs = s.xinvs := rfl
@[simp] theorem putStack_iofences (s : State) (i : Nat) (k : Stack) : (s.putStack i k).iofences = s.iofences := rfl
@[simp] theorem putStack_logq (s : State) (i : Nat) (k : Stack) : (s.putStack i k).logq = s.logq := rfl
@[simp] theorem putStack_ident (s : State) (i : Nat) (k : Stack) : (s.putStack i k).ident = s.ident := rfl
@[simp] theorem putStack_ports (s : State) (i : Nat) (k : Stack) : (s.putStack i k).ports = s.ports := rfl
@[simp] theorem putStack_dlinks (s : State) (i : Nat) (k : Stack) : (s.putStack i k).dlinks = s.dlinks := rfl
@[simp] theorem putStack_grove (s : State) (i : Nat) (k : Stack) : (s.putStack i k).grove = s.grove := rfl
@[simp] theorem putStack_pins (s : State) (i : Nat) (k : Stack) : (s.putStack i k).pins = s.pins := rfl
@[simp] theorem putStack_i3c (s : State) (i : Nat) (k : Stack) : (s.putStack i k).i3c = s.i3c := rfl
@[simp] theorem putStack_flash (s : State) (i : Nat) (k : Stack) : (s.putStack i k).flash = s.flash := rfl
@[simp] theorem putStack_mgt (s : State) (i : Nat) (k : Stack) : (s.putStack i k).mgt = s.mgt := rfl
@[simp] theorem putStack_tap (s : State) (i : Nat) (k : Stack) : (s.putStack i k).tap = s.tap := rfl
@[simp] theorem putStack_guest (s : State) (i : Nat) (k : Stack) : (s.putStack i k).guest = s.guest := rfl
@[simp] theorem putStack_power (s : State) (i : Nat) (k : Stack) : (s.putStack i k).power = s.power := rfl

@[simp] theorem putPart_pending (s : State) (p : Nat) (k : Part) : (s.putPart p k).pending = s.pending := rfl
@[simp] theorem putPart_cyc (s : State) (p : Nat) (k : Part) : (s.putPart p k).cyc = s.cyc := rfl
@[simp] theorem putPart_free (s : State) (p : Nat) (k : Part) : (s.putPart p k).free = s.free := rfl
@[simp] theorem putPart_nextId (s : State) (p : Nat) (k : Part) : (s.putPart p k).nextId = s.nextId := rfl
@[simp] theorem putPart_nextSeq (s : State) (p : Nat) (k : Part) : (s.putPart p k).nextSeq = s.nextSeq := rfl
@[simp] theorem putPart_resp (s : State) (p : Nat) (k : Part) : (s.putPart p k).resp = s.resp := rfl
@[simp] theorem putPart_regs (s : State) (p : Nat) (k : Part) : (s.putPart p k).regs = s.regs := rfl
@[simp] theorem putPart_mem (s : State) (p : Nat) (k : Part) : (s.putPart p k).mem = s.mem := rfl
@[simp] theorem putPart_spad (s : State) (p : Nat) (k : Part) : (s.putPart p k).spad = s.spad := rfl
@[simp] theorem putPart_memErr (s : State) (p : Nat) (k : Part) : (s.putPart p k).memErr = s.memErr := rfl
@[simp] theorem putPart_spadErr (s : State) (p : Nat) (k : Part) : (s.putPart p k).spadErr = s.spadErr := rfl
@[simp] theorem putPart_cores (s : State) (p : Nat) (k : Part) : (s.putPart p k).cores = s.cores := rfl
@[simp] theorem putPart_beds (s : State) (p : Nat) (k : Part) : (s.putPart p k).beds = s.beds := rfl
@[simp] theorem putPart_stks (s : State) (p : Nat) (k : Part) : (s.putPart p k).stks = s.stks := rfl
@[simp] theorem putPart_net (s : State) (p : Nat) (k : Part) : (s.putPart p k).net = s.net := rfl
@[simp] theorem putPart_routes (s : State) (p : Nat) (k : Part) : (s.putPart p k).routes = s.routes := rfl
@[simp] theorem putPart_log (s : State) (p : Nat) (k : Part) : (s.putPart p k).log = s.log := rfl
@[simp] theorem putPart_logSeq (s : State) (p : Nat) (k : Part) : (s.putPart p k).logSeq = s.logSeq := rfl
@[simp] theorem putPart_levels (s : State) (p : Nat) (k : Part) : (s.putPart p k).levels = s.levels := rfl
@[simp] theorem putPart_flashErr (s : State) (p : Nat) (k : Part) : (s.putPart p k).flashErr = s.flashErr := rfl
@[simp] theorem putPart_heldCe (s : State) (p : Nat) (k : Part) : (s.putPart p k).heldCe = s.heldCe := rfl
@[simp] theorem putPart_msis (s : State) (p : Nat) (k : Part) : (s.putPart p k).msis = s.msis := rfl
@[simp] theorem putPart_timeOff (s : State) (p : Nat) (k : Part) : (s.putPart p k).timeOff = s.timeOff := rfl
@[simp] theorem putPart_rings (s : State) (p : Nat) (k : Part) : (s.putPart p k).rings = s.rings := rfl
@[simp] theorem putPart_served (s : State) (p : Nat) (k : Part) : (s.putPart p k).served = s.served := rfl
@[simp] theorem putPart_shelf (s : State) (p : Nat) (k : Part) : (s.putPart p k).shelf = s.shelf := rfl
@[simp] theorem putPart_heldWrites (s : State) (p : Nat) (k : Part) : (s.putPart p k).heldWrites = s.heldWrites := rfl
@[simp] theorem putPart_retunes (s : State) (p : Nat) (k : Part) : (s.putPart p k).retunes = s.retunes := rfl
@[simp] theorem putPart_regClear (s : State) (p : Nat) (k : Part) : (s.putPart p k).regClear = s.regClear := rfl
@[simp] theorem putPart_regBusy (s : State) (p : Nat) (k : Part) : (s.putPart p k).regBusy = s.regBusy := rfl
@[simp] theorem putPart_wakes (s : State) (p : Nat) (k : Part) : (s.putPart p k).wakes = s.wakes := rfl
@[simp] theorem putPart_retains (s : State) (p : Nat) (k : Part) : (s.putPart p k).retains = s.retains := rfl
@[simp] theorem putPart_ptc (s : State) (p : Nat) (k : Part) : (s.putPart p k).ptc = s.ptc := rfl
@[simp] theorem putPart_iotlb (s : State) (p : Nat) (k : Part) : (s.putPart p k).iotlb = s.iotlb := rfl
@[simp] theorem putPart_walkc (s : State) (p : Nat) (k : Part) : (s.putPart p k).walkc = s.walkc := rfl
@[simp] theorem putPart_walks (s : State) (p : Nat) (k : Part) : (s.putPart p k).walks = s.walks := rfl
@[simp] theorem putPart_faults (s : State) (p : Nat) (k : Part) : (s.putPart p k).faults = s.faults := rfl
@[simp] theorem putPart_faultGens (s : State) (p : Nat) (k : Part) : (s.putPart p k).faultGens = s.faultGens := rfl
@[simp] theorem putPart_faultWait (s : State) (p : Nat) (k : Part) : (s.putPart p k).faultWait = s.faultWait := rfl
@[simp] theorem putPart_xans (s : State) (p : Nat) (k : Part) : (s.putPart p k).xans = s.xans := rfl
@[simp] theorem putPart_xinvs (s : State) (p : Nat) (k : Part) : (s.putPart p k).xinvs = s.xinvs := rfl
@[simp] theorem putPart_iofences (s : State) (p : Nat) (k : Part) : (s.putPart p k).iofences = s.iofences := rfl
@[simp] theorem putPart_logq (s : State) (p : Nat) (k : Part) : (s.putPart p k).logq = s.logq := rfl
@[simp] theorem putPart_ident (s : State) (p : Nat) (k : Part) : (s.putPart p k).ident = s.ident := rfl
@[simp] theorem putPart_ports (s : State) (p : Nat) (k : Part) : (s.putPart p k).ports = s.ports := rfl
@[simp] theorem putPart_dlinks (s : State) (p : Nat) (k : Part) : (s.putPart p k).dlinks = s.dlinks := rfl
@[simp] theorem putPart_grove (s : State) (p : Nat) (k : Part) : (s.putPart p k).grove = s.grove := rfl
@[simp] theorem putPart_pins (s : State) (p : Nat) (k : Part) : (s.putPart p k).pins = s.pins := rfl
@[simp] theorem putPart_i3c (s : State) (p : Nat) (k : Part) : (s.putPart p k).i3c = s.i3c := rfl
@[simp] theorem putPart_flash (s : State) (p : Nat) (k : Part) : (s.putPart p k).flash = s.flash := rfl
@[simp] theorem putPart_mgt (s : State) (p : Nat) (k : Part) : (s.putPart p k).mgt = s.mgt := rfl
@[simp] theorem putPart_tap (s : State) (p : Nat) (k : Part) : (s.putPart p k).tap = s.tap := rfl
@[simp] theorem putPart_guest (s : State) (p : Nat) (k : Part) : (s.putPart p k).guest = s.guest := rfl
@[simp] theorem putPart_power (s : State) (p : Nat) (k : Part) : (s.putPart p k).power = s.power := rfl

@[simp] theorem putRing_pending (s : State) (n : Nat) (r : Ring) : (s.putRing n r).pending = s.pending := rfl
@[simp] theorem putRing_cyc (s : State) (n : Nat) (r : Ring) : (s.putRing n r).cyc = s.cyc := rfl
@[simp] theorem putRing_free (s : State) (n : Nat) (r : Ring) : (s.putRing n r).free = s.free := rfl
@[simp] theorem putRing_nextId (s : State) (n : Nat) (r : Ring) : (s.putRing n r).nextId = s.nextId := rfl
@[simp] theorem putRing_nextSeq (s : State) (n : Nat) (r : Ring) : (s.putRing n r).nextSeq = s.nextSeq := rfl
@[simp] theorem putRing_resp (s : State) (n : Nat) (r : Ring) : (s.putRing n r).resp = s.resp := rfl
@[simp] theorem putRing_regs (s : State) (n : Nat) (r : Ring) : (s.putRing n r).regs = s.regs := rfl
@[simp] theorem putRing_mem (s : State) (n : Nat) (r : Ring) : (s.putRing n r).mem = s.mem := rfl
@[simp] theorem putRing_spad (s : State) (n : Nat) (r : Ring) : (s.putRing n r).spad = s.spad := rfl
@[simp] theorem putRing_memErr (s : State) (n : Nat) (r : Ring) : (s.putRing n r).memErr = s.memErr := rfl
@[simp] theorem putRing_spadErr (s : State) (n : Nat) (r : Ring) : (s.putRing n r).spadErr = s.spadErr := rfl
@[simp] theorem putRing_cores (s : State) (n : Nat) (r : Ring) : (s.putRing n r).cores = s.cores := rfl
@[simp] theorem putRing_beds (s : State) (n : Nat) (r : Ring) : (s.putRing n r).beds = s.beds := rfl
@[simp] theorem putRing_stks (s : State) (n : Nat) (r : Ring) : (s.putRing n r).stks = s.stks := rfl
@[simp] theorem putRing_net (s : State) (n : Nat) (r : Ring) : (s.putRing n r).net = s.net := rfl
@[simp] theorem putRing_routes (s : State) (n : Nat) (r : Ring) : (s.putRing n r).routes = s.routes := rfl
@[simp] theorem putRing_log (s : State) (n : Nat) (r : Ring) : (s.putRing n r).log = s.log := rfl
@[simp] theorem putRing_logSeq (s : State) (n : Nat) (r : Ring) : (s.putRing n r).logSeq = s.logSeq := rfl
@[simp] theorem putRing_levels (s : State) (n : Nat) (r : Ring) : (s.putRing n r).levels = s.levels := rfl
@[simp] theorem putRing_flashErr (s : State) (n : Nat) (r : Ring) : (s.putRing n r).flashErr = s.flashErr := rfl
@[simp] theorem putRing_heldCe (s : State) (n : Nat) (r : Ring) : (s.putRing n r).heldCe = s.heldCe := rfl
@[simp] theorem putRing_msis (s : State) (n : Nat) (r : Ring) : (s.putRing n r).msis = s.msis := rfl
@[simp] theorem putRing_timeOff (s : State) (n : Nat) (r : Ring) : (s.putRing n r).timeOff = s.timeOff := rfl
@[simp] theorem putRing_parts (s : State) (n : Nat) (r : Ring) : (s.putRing n r).parts = s.parts := rfl
@[simp] theorem putRing_served (s : State) (n : Nat) (r : Ring) : (s.putRing n r).served = s.served := rfl
@[simp] theorem putRing_shelf (s : State) (n : Nat) (r : Ring) : (s.putRing n r).shelf = s.shelf := rfl
@[simp] theorem putRing_heldWrites (s : State) (n : Nat) (r : Ring) : (s.putRing n r).heldWrites = s.heldWrites := rfl
@[simp] theorem putRing_retunes (s : State) (n : Nat) (r : Ring) : (s.putRing n r).retunes = s.retunes := rfl
@[simp] theorem putRing_regClear (s : State) (n : Nat) (r : Ring) : (s.putRing n r).regClear = s.regClear := rfl
@[simp] theorem putRing_regBusy (s : State) (n : Nat) (r : Ring) : (s.putRing n r).regBusy = s.regBusy := rfl
@[simp] theorem putRing_wakes (s : State) (n : Nat) (r : Ring) : (s.putRing n r).wakes = s.wakes := rfl
@[simp] theorem putRing_retains (s : State) (n : Nat) (r : Ring) : (s.putRing n r).retains = s.retains := rfl
@[simp] theorem putRing_ptc (s : State) (n : Nat) (r : Ring) : (s.putRing n r).ptc = s.ptc := rfl
@[simp] theorem putRing_iotlb (s : State) (n : Nat) (r : Ring) : (s.putRing n r).iotlb = s.iotlb := rfl
@[simp] theorem putRing_walkc (s : State) (n : Nat) (r : Ring) : (s.putRing n r).walkc = s.walkc := rfl
@[simp] theorem putRing_walks (s : State) (n : Nat) (r : Ring) : (s.putRing n r).walks = s.walks := rfl
@[simp] theorem putRing_faults (s : State) (n : Nat) (r : Ring) : (s.putRing n r).faults = s.faults := rfl
@[simp] theorem putRing_faultGens (s : State) (n : Nat) (r : Ring) : (s.putRing n r).faultGens = s.faultGens := rfl
@[simp] theorem putRing_faultWait (s : State) (n : Nat) (r : Ring) : (s.putRing n r).faultWait = s.faultWait := rfl
@[simp] theorem putRing_xans (s : State) (n : Nat) (r : Ring) : (s.putRing n r).xans = s.xans := rfl
@[simp] theorem putRing_xinvs (s : State) (n : Nat) (r : Ring) : (s.putRing n r).xinvs = s.xinvs := rfl
@[simp] theorem putRing_iofences (s : State) (n : Nat) (r : Ring) : (s.putRing n r).iofences = s.iofences := rfl
@[simp] theorem putRing_logq (s : State) (n : Nat) (r : Ring) : (s.putRing n r).logq = s.logq := rfl
@[simp] theorem putRing_ident (s : State) (n : Nat) (r : Ring) : (s.putRing n r).ident = s.ident := rfl
@[simp] theorem putRing_ports (s : State) (n : Nat) (r : Ring) : (s.putRing n r).ports = s.ports := rfl
@[simp] theorem putRing_dlinks (s : State) (n : Nat) (r : Ring) : (s.putRing n r).dlinks = s.dlinks := rfl
@[simp] theorem putRing_grove (s : State) (n : Nat) (r : Ring) : (s.putRing n r).grove = s.grove := rfl
@[simp] theorem putRing_pins (s : State) (n : Nat) (r : Ring) : (s.putRing n r).pins = s.pins := rfl
@[simp] theorem putRing_i3c (s : State) (n : Nat) (r : Ring) : (s.putRing n r).i3c = s.i3c := rfl
@[simp] theorem putRing_flash (s : State) (n : Nat) (r : Ring) : (s.putRing n r).flash = s.flash := rfl
@[simp] theorem putRing_mgt (s : State) (n : Nat) (r : Ring) : (s.putRing n r).mgt = s.mgt := rfl
@[simp] theorem putRing_tap (s : State) (n : Nat) (r : Ring) : (s.putRing n r).tap = s.tap := rfl
@[simp] theorem putRing_guest (s : State) (n : Nat) (r : Ring) : (s.putRing n r).guest = s.guest := rfl
@[simp] theorem putRing_power (s : State) (n : Nat) (r : Ring) : (s.putRing n r).power = s.power := rfl

@[simp] theorem putPort_pending (s : State) (n : Nat) (k : Port) : (s.putPort n k).pending = s.pending := rfl
@[simp] theorem putPort_cyc (s : State) (n : Nat) (k : Port) : (s.putPort n k).cyc = s.cyc := rfl
@[simp] theorem putPort_free (s : State) (n : Nat) (k : Port) : (s.putPort n k).free = s.free := rfl
@[simp] theorem putPort_nextId (s : State) (n : Nat) (k : Port) : (s.putPort n k).nextId = s.nextId := rfl
@[simp] theorem putPort_nextSeq (s : State) (n : Nat) (k : Port) : (s.putPort n k).nextSeq = s.nextSeq := rfl
@[simp] theorem putPort_resp (s : State) (n : Nat) (k : Port) : (s.putPort n k).resp = s.resp := rfl
@[simp] theorem putPort_regs (s : State) (n : Nat) (k : Port) : (s.putPort n k).regs = s.regs := rfl
@[simp] theorem putPort_mem (s : State) (n : Nat) (k : Port) : (s.putPort n k).mem = s.mem := rfl
@[simp] theorem putPort_spad (s : State) (n : Nat) (k : Port) : (s.putPort n k).spad = s.spad := rfl
@[simp] theorem putPort_memErr (s : State) (n : Nat) (k : Port) : (s.putPort n k).memErr = s.memErr := rfl
@[simp] theorem putPort_spadErr (s : State) (n : Nat) (k : Port) : (s.putPort n k).spadErr = s.spadErr := rfl
@[simp] theorem putPort_cores (s : State) (n : Nat) (k : Port) : (s.putPort n k).cores = s.cores := rfl
@[simp] theorem putPort_beds (s : State) (n : Nat) (k : Port) : (s.putPort n k).beds = s.beds := rfl
@[simp] theorem putPort_stks (s : State) (n : Nat) (k : Port) : (s.putPort n k).stks = s.stks := rfl
@[simp] theorem putPort_net (s : State) (n : Nat) (k : Port) : (s.putPort n k).net = s.net := rfl
@[simp] theorem putPort_routes (s : State) (n : Nat) (k : Port) : (s.putPort n k).routes = s.routes := rfl
@[simp] theorem putPort_log (s : State) (n : Nat) (k : Port) : (s.putPort n k).log = s.log := rfl
@[simp] theorem putPort_logSeq (s : State) (n : Nat) (k : Port) : (s.putPort n k).logSeq = s.logSeq := rfl
@[simp] theorem putPort_levels (s : State) (n : Nat) (k : Port) : (s.putPort n k).levels = s.levels := rfl
@[simp] theorem putPort_flashErr (s : State) (n : Nat) (k : Port) : (s.putPort n k).flashErr = s.flashErr := rfl
@[simp] theorem putPort_heldCe (s : State) (n : Nat) (k : Port) : (s.putPort n k).heldCe = s.heldCe := rfl
@[simp] theorem putPort_msis (s : State) (n : Nat) (k : Port) : (s.putPort n k).msis = s.msis := rfl
@[simp] theorem putPort_timeOff (s : State) (n : Nat) (k : Port) : (s.putPort n k).timeOff = s.timeOff := rfl
@[simp] theorem putPort_parts (s : State) (n : Nat) (k : Port) : (s.putPort n k).parts = s.parts := rfl
@[simp] theorem putPort_rings (s : State) (n : Nat) (k : Port) : (s.putPort n k).rings = s.rings := rfl
@[simp] theorem putPort_served (s : State) (n : Nat) (k : Port) : (s.putPort n k).served = s.served := rfl
@[simp] theorem putPort_shelf (s : State) (n : Nat) (k : Port) : (s.putPort n k).shelf = s.shelf := rfl
@[simp] theorem putPort_heldWrites (s : State) (n : Nat) (k : Port) : (s.putPort n k).heldWrites = s.heldWrites := rfl
@[simp] theorem putPort_retunes (s : State) (n : Nat) (k : Port) : (s.putPort n k).retunes = s.retunes := rfl
@[simp] theorem putPort_regClear (s : State) (n : Nat) (k : Port) : (s.putPort n k).regClear = s.regClear := rfl
@[simp] theorem putPort_regBusy (s : State) (n : Nat) (k : Port) : (s.putPort n k).regBusy = s.regBusy := rfl
@[simp] theorem putPort_wakes (s : State) (n : Nat) (k : Port) : (s.putPort n k).wakes = s.wakes := rfl
@[simp] theorem putPort_retains (s : State) (n : Nat) (k : Port) : (s.putPort n k).retains = s.retains := rfl
@[simp] theorem putPort_ptc (s : State) (n : Nat) (k : Port) : (s.putPort n k).ptc = s.ptc := rfl
@[simp] theorem putPort_iotlb (s : State) (n : Nat) (k : Port) : (s.putPort n k).iotlb = s.iotlb := rfl
@[simp] theorem putPort_walkc (s : State) (n : Nat) (k : Port) : (s.putPort n k).walkc = s.walkc := rfl
@[simp] theorem putPort_walks (s : State) (n : Nat) (k : Port) : (s.putPort n k).walks = s.walks := rfl
@[simp] theorem putPort_faults (s : State) (n : Nat) (k : Port) : (s.putPort n k).faults = s.faults := rfl
@[simp] theorem putPort_faultGens (s : State) (n : Nat) (k : Port) : (s.putPort n k).faultGens = s.faultGens := rfl
@[simp] theorem putPort_faultWait (s : State) (n : Nat) (k : Port) : (s.putPort n k).faultWait = s.faultWait := rfl
@[simp] theorem putPort_xans (s : State) (n : Nat) (k : Port) : (s.putPort n k).xans = s.xans := rfl
@[simp] theorem putPort_xinvs (s : State) (n : Nat) (k : Port) : (s.putPort n k).xinvs = s.xinvs := rfl
@[simp] theorem putPort_iofences (s : State) (n : Nat) (k : Port) : (s.putPort n k).iofences = s.iofences := rfl
@[simp] theorem putPort_logq (s : State) (n : Nat) (k : Port) : (s.putPort n k).logq = s.logq := rfl
@[simp] theorem putPort_ident (s : State) (n : Nat) (k : Port) : (s.putPort n k).ident = s.ident := rfl
@[simp] theorem putPort_dlinks (s : State) (n : Nat) (k : Port) : (s.putPort n k).dlinks = s.dlinks := rfl
@[simp] theorem putPort_grove (s : State) (n : Nat) (k : Port) : (s.putPort n k).grove = s.grove := rfl
@[simp] theorem putPort_pins (s : State) (n : Nat) (k : Port) : (s.putPort n k).pins = s.pins := rfl
@[simp] theorem putPort_i3c (s : State) (n : Nat) (k : Port) : (s.putPort n k).i3c = s.i3c := rfl
@[simp] theorem putPort_flash (s : State) (n : Nat) (k : Port) : (s.putPort n k).flash = s.flash := rfl
@[simp] theorem putPort_mgt (s : State) (n : Nat) (k : Port) : (s.putPort n k).mgt = s.mgt := rfl
@[simp] theorem putPort_tap (s : State) (n : Nat) (k : Port) : (s.putPort n k).tap = s.tap := rfl
@[simp] theorem putPort_guest (s : State) (n : Nat) (k : Port) : (s.putPort n k).guest = s.guest := rfl
@[simp] theorem putPort_power (s : State) (n : Nat) (k : Port) : (s.putPort n k).power = s.power := rfl

@[simp] theorem putDlink_pending (s : State) (u : Nat) (k : Port) : (s.putDlink u k).pending = s.pending := rfl
@[simp] theorem putDlink_cyc (s : State) (u : Nat) (k : Port) : (s.putDlink u k).cyc = s.cyc := rfl
@[simp] theorem putDlink_free (s : State) (u : Nat) (k : Port) : (s.putDlink u k).free = s.free := rfl
@[simp] theorem putDlink_nextId (s : State) (u : Nat) (k : Port) : (s.putDlink u k).nextId = s.nextId := rfl
@[simp] theorem putDlink_nextSeq (s : State) (u : Nat) (k : Port) : (s.putDlink u k).nextSeq = s.nextSeq := rfl
@[simp] theorem putDlink_resp (s : State) (u : Nat) (k : Port) : (s.putDlink u k).resp = s.resp := rfl
@[simp] theorem putDlink_regs (s : State) (u : Nat) (k : Port) : (s.putDlink u k).regs = s.regs := rfl
@[simp] theorem putDlink_mem (s : State) (u : Nat) (k : Port) : (s.putDlink u k).mem = s.mem := rfl
@[simp] theorem putDlink_spad (s : State) (u : Nat) (k : Port) : (s.putDlink u k).spad = s.spad := rfl
@[simp] theorem putDlink_memErr (s : State) (u : Nat) (k : Port) : (s.putDlink u k).memErr = s.memErr := rfl
@[simp] theorem putDlink_spadErr (s : State) (u : Nat) (k : Port) : (s.putDlink u k).spadErr = s.spadErr := rfl
@[simp] theorem putDlink_cores (s : State) (u : Nat) (k : Port) : (s.putDlink u k).cores = s.cores := rfl
@[simp] theorem putDlink_beds (s : State) (u : Nat) (k : Port) : (s.putDlink u k).beds = s.beds := rfl
@[simp] theorem putDlink_stks (s : State) (u : Nat) (k : Port) : (s.putDlink u k).stks = s.stks := rfl
@[simp] theorem putDlink_net (s : State) (u : Nat) (k : Port) : (s.putDlink u k).net = s.net := rfl
@[simp] theorem putDlink_routes (s : State) (u : Nat) (k : Port) : (s.putDlink u k).routes = s.routes := rfl
@[simp] theorem putDlink_log (s : State) (u : Nat) (k : Port) : (s.putDlink u k).log = s.log := rfl
@[simp] theorem putDlink_logSeq (s : State) (u : Nat) (k : Port) : (s.putDlink u k).logSeq = s.logSeq := rfl
@[simp] theorem putDlink_levels (s : State) (u : Nat) (k : Port) : (s.putDlink u k).levels = s.levels := rfl
@[simp] theorem putDlink_flashErr (s : State) (u : Nat) (k : Port) : (s.putDlink u k).flashErr = s.flashErr := rfl
@[simp] theorem putDlink_heldCe (s : State) (u : Nat) (k : Port) : (s.putDlink u k).heldCe = s.heldCe := rfl
@[simp] theorem putDlink_msis (s : State) (u : Nat) (k : Port) : (s.putDlink u k).msis = s.msis := rfl
@[simp] theorem putDlink_timeOff (s : State) (u : Nat) (k : Port) : (s.putDlink u k).timeOff = s.timeOff := rfl
@[simp] theorem putDlink_parts (s : State) (u : Nat) (k : Port) : (s.putDlink u k).parts = s.parts := rfl
@[simp] theorem putDlink_rings (s : State) (u : Nat) (k : Port) : (s.putDlink u k).rings = s.rings := rfl
@[simp] theorem putDlink_served (s : State) (u : Nat) (k : Port) : (s.putDlink u k).served = s.served := rfl
@[simp] theorem putDlink_shelf (s : State) (u : Nat) (k : Port) : (s.putDlink u k).shelf = s.shelf := rfl
@[simp] theorem putDlink_heldWrites (s : State) (u : Nat) (k : Port) : (s.putDlink u k).heldWrites = s.heldWrites := rfl
@[simp] theorem putDlink_retunes (s : State) (u : Nat) (k : Port) : (s.putDlink u k).retunes = s.retunes := rfl
@[simp] theorem putDlink_regClear (s : State) (u : Nat) (k : Port) : (s.putDlink u k).regClear = s.regClear := rfl
@[simp] theorem putDlink_regBusy (s : State) (u : Nat) (k : Port) : (s.putDlink u k).regBusy = s.regBusy := rfl
@[simp] theorem putDlink_wakes (s : State) (u : Nat) (k : Port) : (s.putDlink u k).wakes = s.wakes := rfl
@[simp] theorem putDlink_retains (s : State) (u : Nat) (k : Port) : (s.putDlink u k).retains = s.retains := rfl
@[simp] theorem putDlink_ptc (s : State) (u : Nat) (k : Port) : (s.putDlink u k).ptc = s.ptc := rfl
@[simp] theorem putDlink_iotlb (s : State) (u : Nat) (k : Port) : (s.putDlink u k).iotlb = s.iotlb := rfl
@[simp] theorem putDlink_walkc (s : State) (u : Nat) (k : Port) : (s.putDlink u k).walkc = s.walkc := rfl
@[simp] theorem putDlink_walks (s : State) (u : Nat) (k : Port) : (s.putDlink u k).walks = s.walks := rfl
@[simp] theorem putDlink_faults (s : State) (u : Nat) (k : Port) : (s.putDlink u k).faults = s.faults := rfl
@[simp] theorem putDlink_faultGens (s : State) (u : Nat) (k : Port) : (s.putDlink u k).faultGens = s.faultGens := rfl
@[simp] theorem putDlink_faultWait (s : State) (u : Nat) (k : Port) : (s.putDlink u k).faultWait = s.faultWait := rfl
@[simp] theorem putDlink_xans (s : State) (u : Nat) (k : Port) : (s.putDlink u k).xans = s.xans := rfl
@[simp] theorem putDlink_xinvs (s : State) (u : Nat) (k : Port) : (s.putDlink u k).xinvs = s.xinvs := rfl
@[simp] theorem putDlink_iofences (s : State) (u : Nat) (k : Port) : (s.putDlink u k).iofences = s.iofences := rfl
@[simp] theorem putDlink_logq (s : State) (u : Nat) (k : Port) : (s.putDlink u k).logq = s.logq := rfl
@[simp] theorem putDlink_ident (s : State) (u : Nat) (k : Port) : (s.putDlink u k).ident = s.ident := rfl
@[simp] theorem putDlink_ports (s : State) (u : Nat) (k : Port) : (s.putDlink u k).ports = s.ports := rfl
@[simp] theorem putDlink_grove (s : State) (u : Nat) (k : Port) : (s.putDlink u k).grove = s.grove := rfl
@[simp] theorem putDlink_pins (s : State) (u : Nat) (k : Port) : (s.putDlink u k).pins = s.pins := rfl
@[simp] theorem putDlink_i3c (s : State) (u : Nat) (k : Port) : (s.putDlink u k).i3c = s.i3c := rfl
@[simp] theorem putDlink_flash (s : State) (u : Nat) (k : Port) : (s.putDlink u k).flash = s.flash := rfl
@[simp] theorem putDlink_mgt (s : State) (u : Nat) (k : Port) : (s.putDlink u k).mgt = s.mgt := rfl
@[simp] theorem putDlink_tap (s : State) (u : Nat) (k : Port) : (s.putDlink u k).tap = s.tap := rfl
@[simp] theorem putDlink_guest (s : State) (u : Nat) (k : Port) : (s.putDlink u k).guest = s.guest := rfl
@[simp] theorem putDlink_power (s : State) (u : Nat) (k : Port) : (s.putDlink u k).power = s.power := rfl

@[simp] theorem respond_pending (id : Nat) (st : Status) (d : BitVec 1024) (s : State) : (respond id st d s).pending = s.pending := rfl
@[simp] theorem respond_cyc (id : Nat) (st : Status) (d : BitVec 1024) (s : State) : (respond id st d s).cyc = s.cyc := rfl
@[simp] theorem respond_free (id : Nat) (st : Status) (d : BitVec 1024) (s : State) : (respond id st d s).free = s.free := rfl
@[simp] theorem respond_nextId (id : Nat) (st : Status) (d : BitVec 1024) (s : State) : (respond id st d s).nextId = s.nextId := rfl
@[simp] theorem respond_nextSeq (id : Nat) (st : Status) (d : BitVec 1024) (s : State) : (respond id st d s).nextSeq = s.nextSeq := rfl
@[simp] theorem respond_regs (id : Nat) (st : Status) (d : BitVec 1024) (s : State) : (respond id st d s).regs = s.regs := rfl
@[simp] theorem respond_mem (id : Nat) (st : Status) (d : BitVec 1024) (s : State) : (respond id st d s).mem = s.mem := rfl
@[simp] theorem respond_spad (id : Nat) (st : Status) (d : BitVec 1024) (s : State) : (respond id st d s).spad = s.spad := rfl
@[simp] theorem respond_memErr (id : Nat) (st : Status) (d : BitVec 1024) (s : State) : (respond id st d s).memErr = s.memErr := rfl
@[simp] theorem respond_spadErr (id : Nat) (st : Status) (d : BitVec 1024) (s : State) : (respond id st d s).spadErr = s.spadErr := rfl
@[simp] theorem respond_cores (id : Nat) (st : Status) (d : BitVec 1024) (s : State) : (respond id st d s).cores = s.cores := rfl
@[simp] theorem respond_beds (id : Nat) (st : Status) (d : BitVec 1024) (s : State) : (respond id st d s).beds = s.beds := rfl
@[simp] theorem respond_stks (id : Nat) (st : Status) (d : BitVec 1024) (s : State) : (respond id st d s).stks = s.stks := rfl
@[simp] theorem respond_net (id : Nat) (st : Status) (d : BitVec 1024) (s : State) : (respond id st d s).net = s.net := rfl
@[simp] theorem respond_routes (id : Nat) (st : Status) (d : BitVec 1024) (s : State) : (respond id st d s).routes = s.routes := rfl
@[simp] theorem respond_log (id : Nat) (st : Status) (d : BitVec 1024) (s : State) : (respond id st d s).log = s.log := rfl
@[simp] theorem respond_logSeq (id : Nat) (st : Status) (d : BitVec 1024) (s : State) : (respond id st d s).logSeq = s.logSeq := rfl
@[simp] theorem respond_levels (id : Nat) (st : Status) (d : BitVec 1024) (s : State) : (respond id st d s).levels = s.levels := rfl
@[simp] theorem respond_flashErr (id : Nat) (st : Status) (d : BitVec 1024) (s : State) : (respond id st d s).flashErr = s.flashErr := rfl
@[simp] theorem respond_heldCe (id : Nat) (st : Status) (d : BitVec 1024) (s : State) : (respond id st d s).heldCe = s.heldCe := rfl
@[simp] theorem respond_msis (id : Nat) (st : Status) (d : BitVec 1024) (s : State) : (respond id st d s).msis = s.msis := rfl
@[simp] theorem respond_timeOff (id : Nat) (st : Status) (d : BitVec 1024) (s : State) : (respond id st d s).timeOff = s.timeOff := rfl
@[simp] theorem respond_parts (id : Nat) (st : Status) (d : BitVec 1024) (s : State) : (respond id st d s).parts = s.parts := rfl
@[simp] theorem respond_rings (id : Nat) (st : Status) (d : BitVec 1024) (s : State) : (respond id st d s).rings = s.rings := rfl
@[simp] theorem respond_served (id : Nat) (st : Status) (d : BitVec 1024) (s : State) : (respond id st d s).served = s.served := rfl
@[simp] theorem respond_shelf (id : Nat) (st : Status) (d : BitVec 1024) (s : State) : (respond id st d s).shelf = s.shelf := rfl
@[simp] theorem respond_heldWrites (id : Nat) (st : Status) (d : BitVec 1024) (s : State) : (respond id st d s).heldWrites = s.heldWrites := rfl
@[simp] theorem respond_retunes (id : Nat) (st : Status) (d : BitVec 1024) (s : State) : (respond id st d s).retunes = s.retunes := rfl
@[simp] theorem respond_regClear (id : Nat) (st : Status) (d : BitVec 1024) (s : State) : (respond id st d s).regClear = s.regClear := rfl
@[simp] theorem respond_regBusy (id : Nat) (st : Status) (d : BitVec 1024) (s : State) : (respond id st d s).regBusy = s.regBusy := rfl
@[simp] theorem respond_wakes (id : Nat) (st : Status) (d : BitVec 1024) (s : State) : (respond id st d s).wakes = s.wakes := rfl
@[simp] theorem respond_retains (id : Nat) (st : Status) (d : BitVec 1024) (s : State) : (respond id st d s).retains = s.retains := rfl
@[simp] theorem respond_ptc (id : Nat) (st : Status) (d : BitVec 1024) (s : State) : (respond id st d s).ptc = s.ptc := rfl
@[simp] theorem respond_iotlb (id : Nat) (st : Status) (d : BitVec 1024) (s : State) : (respond id st d s).iotlb = s.iotlb := rfl
@[simp] theorem respond_walkc (id : Nat) (st : Status) (d : BitVec 1024) (s : State) : (respond id st d s).walkc = s.walkc := rfl
@[simp] theorem respond_walks (id : Nat) (st : Status) (d : BitVec 1024) (s : State) : (respond id st d s).walks = s.walks := rfl
@[simp] theorem respond_faults (id : Nat) (st : Status) (d : BitVec 1024) (s : State) : (respond id st d s).faults = s.faults := rfl
@[simp] theorem respond_faultGens (id : Nat) (st : Status) (d : BitVec 1024) (s : State) : (respond id st d s).faultGens = s.faultGens := rfl
@[simp] theorem respond_faultWait (id : Nat) (st : Status) (d : BitVec 1024) (s : State) : (respond id st d s).faultWait = s.faultWait := rfl
@[simp] theorem respond_xans (id : Nat) (st : Status) (d : BitVec 1024) (s : State) : (respond id st d s).xans = s.xans := rfl
@[simp] theorem respond_xinvs (id : Nat) (st : Status) (d : BitVec 1024) (s : State) : (respond id st d s).xinvs = s.xinvs := rfl
@[simp] theorem respond_iofences (id : Nat) (st : Status) (d : BitVec 1024) (s : State) : (respond id st d s).iofences = s.iofences := rfl
@[simp] theorem respond_logq (id : Nat) (st : Status) (d : BitVec 1024) (s : State) : (respond id st d s).logq = s.logq := rfl
@[simp] theorem respond_ident (id : Nat) (st : Status) (d : BitVec 1024) (s : State) : (respond id st d s).ident = s.ident := rfl
@[simp] theorem respond_ports (id : Nat) (st : Status) (d : BitVec 1024) (s : State) : (respond id st d s).ports = s.ports := rfl
@[simp] theorem respond_dlinks (id : Nat) (st : Status) (d : BitVec 1024) (s : State) : (respond id st d s).dlinks = s.dlinks := rfl
@[simp] theorem respond_grove (id : Nat) (st : Status) (d : BitVec 1024) (s : State) : (respond id st d s).grove = s.grove := rfl
@[simp] theorem respond_pins (id : Nat) (st : Status) (d : BitVec 1024) (s : State) : (respond id st d s).pins = s.pins := rfl
@[simp] theorem respond_i3c (id : Nat) (st : Status) (d : BitVec 1024) (s : State) : (respond id st d s).i3c = s.i3c := rfl
@[simp] theorem respond_flash (id : Nat) (st : Status) (d : BitVec 1024) (s : State) : (respond id st d s).flash = s.flash := rfl
@[simp] theorem respond_mgt (id : Nat) (st : Status) (d : BitVec 1024) (s : State) : (respond id st d s).mgt = s.mgt := rfl
@[simp] theorem respond_tap (id : Nat) (st : Status) (d : BitVec 1024) (s : State) : (respond id st d s).tap = s.tap := rfl
@[simp] theorem respond_guest (id : Nat) (st : Status) (d : BitVec 1024) (s : State) : (respond id st d s).guest = s.guest := rfl
@[simp] theorem respond_power (id : Nat) (st : Status) (d : BitVec 1024) (s : State) : (respond id st d s).power = s.power := rfl

@[simp] theorem netPut_pending (r : Req) (s : State) : (netPut r s).pending = s.pending := rfl
@[simp] theorem netPut_cyc (r : Req) (s : State) : (netPut r s).cyc = s.cyc := rfl
@[simp] theorem netPut_free (r : Req) (s : State) : (netPut r s).free = s.free := rfl
@[simp] theorem netPut_nextId (r : Req) (s : State) : (netPut r s).nextId = s.nextId := rfl
@[simp] theorem netPut_nextSeq (r : Req) (s : State) : (netPut r s).nextSeq = s.nextSeq := rfl
@[simp] theorem netPut_resp (r : Req) (s : State) : (netPut r s).resp = s.resp := rfl
@[simp] theorem netPut_regs (r : Req) (s : State) : (netPut r s).regs = s.regs := rfl
@[simp] theorem netPut_mem (r : Req) (s : State) : (netPut r s).mem = s.mem := rfl
@[simp] theorem netPut_spad (r : Req) (s : State) : (netPut r s).spad = s.spad := rfl
@[simp] theorem netPut_memErr (r : Req) (s : State) : (netPut r s).memErr = s.memErr := rfl
@[simp] theorem netPut_spadErr (r : Req) (s : State) : (netPut r s).spadErr = s.spadErr := rfl
@[simp] theorem netPut_cores (r : Req) (s : State) : (netPut r s).cores = s.cores := rfl
@[simp] theorem netPut_beds (r : Req) (s : State) : (netPut r s).beds = s.beds := rfl
@[simp] theorem netPut_stks (r : Req) (s : State) : (netPut r s).stks = s.stks := rfl
@[simp] theorem netPut_routes (r : Req) (s : State) : (netPut r s).routes = s.routes := rfl
@[simp] theorem netPut_log (r : Req) (s : State) : (netPut r s).log = s.log := rfl
@[simp] theorem netPut_logSeq (r : Req) (s : State) : (netPut r s).logSeq = s.logSeq := rfl
@[simp] theorem netPut_levels (r : Req) (s : State) : (netPut r s).levels = s.levels := rfl
@[simp] theorem netPut_flashErr (r : Req) (s : State) : (netPut r s).flashErr = s.flashErr := rfl
@[simp] theorem netPut_heldCe (r : Req) (s : State) : (netPut r s).heldCe = s.heldCe := rfl
@[simp] theorem netPut_msis (r : Req) (s : State) : (netPut r s).msis = s.msis := rfl
@[simp] theorem netPut_timeOff (r : Req) (s : State) : (netPut r s).timeOff = s.timeOff := rfl
@[simp] theorem netPut_parts (r : Req) (s : State) : (netPut r s).parts = s.parts := rfl
@[simp] theorem netPut_rings (r : Req) (s : State) : (netPut r s).rings = s.rings := rfl
@[simp] theorem netPut_served (r : Req) (s : State) : (netPut r s).served = s.served := rfl
@[simp] theorem netPut_shelf (r : Req) (s : State) : (netPut r s).shelf = s.shelf := rfl
@[simp] theorem netPut_heldWrites (r : Req) (s : State) : (netPut r s).heldWrites = s.heldWrites := rfl
@[simp] theorem netPut_retunes (r : Req) (s : State) : (netPut r s).retunes = s.retunes := rfl
@[simp] theorem netPut_regClear (r : Req) (s : State) : (netPut r s).regClear = s.regClear := rfl
@[simp] theorem netPut_regBusy (r : Req) (s : State) : (netPut r s).regBusy = s.regBusy := rfl
@[simp] theorem netPut_wakes (r : Req) (s : State) : (netPut r s).wakes = s.wakes := rfl
@[simp] theorem netPut_retains (r : Req) (s : State) : (netPut r s).retains = s.retains := rfl
@[simp] theorem netPut_ptc (r : Req) (s : State) : (netPut r s).ptc = s.ptc := rfl
@[simp] theorem netPut_iotlb (r : Req) (s : State) : (netPut r s).iotlb = s.iotlb := rfl
@[simp] theorem netPut_walkc (r : Req) (s : State) : (netPut r s).walkc = s.walkc := rfl
@[simp] theorem netPut_walks (r : Req) (s : State) : (netPut r s).walks = s.walks := rfl
@[simp] theorem netPut_faults (r : Req) (s : State) : (netPut r s).faults = s.faults := rfl
@[simp] theorem netPut_faultGens (r : Req) (s : State) : (netPut r s).faultGens = s.faultGens := rfl
@[simp] theorem netPut_faultWait (r : Req) (s : State) : (netPut r s).faultWait = s.faultWait := rfl
@[simp] theorem netPut_xans (r : Req) (s : State) : (netPut r s).xans = s.xans := rfl
@[simp] theorem netPut_xinvs (r : Req) (s : State) : (netPut r s).xinvs = s.xinvs := rfl
@[simp] theorem netPut_iofences (r : Req) (s : State) : (netPut r s).iofences = s.iofences := rfl
@[simp] theorem netPut_logq (r : Req) (s : State) : (netPut r s).logq = s.logq := rfl
@[simp] theorem netPut_ident (r : Req) (s : State) : (netPut r s).ident = s.ident := rfl
@[simp] theorem netPut_ports (r : Req) (s : State) : (netPut r s).ports = s.ports := rfl
@[simp] theorem netPut_dlinks (r : Req) (s : State) : (netPut r s).dlinks = s.dlinks := rfl
@[simp] theorem netPut_grove (r : Req) (s : State) : (netPut r s).grove = s.grove := rfl
@[simp] theorem netPut_pins (r : Req) (s : State) : (netPut r s).pins = s.pins := rfl
@[simp] theorem netPut_i3c (r : Req) (s : State) : (netPut r s).i3c = s.i3c := rfl
@[simp] theorem netPut_flash (r : Req) (s : State) : (netPut r s).flash = s.flash := rfl
@[simp] theorem netPut_mgt (r : Req) (s : State) : (netPut r s).mgt = s.mgt := rfl
@[simp] theorem netPut_tap (r : Req) (s : State) : (netPut r s).tap = s.tap := rfl
@[simp] theorem netPut_guest (r : Req) (s : State) : (netPut r s).guest = s.guest := rfl
@[simp] theorem netPut_power (r : Req) (s : State) : (netPut r s).power = s.power := rfl

@[simp] theorem netDel_pending (id : Nat) (s : State) : (netDel id s).pending = s.pending := rfl
@[simp] theorem netDel_cyc (id : Nat) (s : State) : (netDel id s).cyc = s.cyc := rfl
@[simp] theorem netDel_free (id : Nat) (s : State) : (netDel id s).free = s.free := rfl
@[simp] theorem netDel_nextId (id : Nat) (s : State) : (netDel id s).nextId = s.nextId := rfl
@[simp] theorem netDel_nextSeq (id : Nat) (s : State) : (netDel id s).nextSeq = s.nextSeq := rfl
@[simp] theorem netDel_resp (id : Nat) (s : State) : (netDel id s).resp = s.resp := rfl
@[simp] theorem netDel_regs (id : Nat) (s : State) : (netDel id s).regs = s.regs := rfl
@[simp] theorem netDel_mem (id : Nat) (s : State) : (netDel id s).mem = s.mem := rfl
@[simp] theorem netDel_spad (id : Nat) (s : State) : (netDel id s).spad = s.spad := rfl
@[simp] theorem netDel_memErr (id : Nat) (s : State) : (netDel id s).memErr = s.memErr := rfl
@[simp] theorem netDel_spadErr (id : Nat) (s : State) : (netDel id s).spadErr = s.spadErr := rfl
@[simp] theorem netDel_cores (id : Nat) (s : State) : (netDel id s).cores = s.cores := rfl
@[simp] theorem netDel_beds (id : Nat) (s : State) : (netDel id s).beds = s.beds := rfl
@[simp] theorem netDel_stks (id : Nat) (s : State) : (netDel id s).stks = s.stks := rfl
@[simp] theorem netDel_routes (id : Nat) (s : State) : (netDel id s).routes = s.routes := rfl
@[simp] theorem netDel_log (id : Nat) (s : State) : (netDel id s).log = s.log := rfl
@[simp] theorem netDel_logSeq (id : Nat) (s : State) : (netDel id s).logSeq = s.logSeq := rfl
@[simp] theorem netDel_levels (id : Nat) (s : State) : (netDel id s).levels = s.levels := rfl
@[simp] theorem netDel_flashErr (id : Nat) (s : State) : (netDel id s).flashErr = s.flashErr := rfl
@[simp] theorem netDel_heldCe (id : Nat) (s : State) : (netDel id s).heldCe = s.heldCe := rfl
@[simp] theorem netDel_msis (id : Nat) (s : State) : (netDel id s).msis = s.msis := rfl
@[simp] theorem netDel_timeOff (id : Nat) (s : State) : (netDel id s).timeOff = s.timeOff := rfl
@[simp] theorem netDel_parts (id : Nat) (s : State) : (netDel id s).parts = s.parts := rfl
@[simp] theorem netDel_rings (id : Nat) (s : State) : (netDel id s).rings = s.rings := rfl
@[simp] theorem netDel_served (id : Nat) (s : State) : (netDel id s).served = s.served := rfl
@[simp] theorem netDel_shelf (id : Nat) (s : State) : (netDel id s).shelf = s.shelf := rfl
@[simp] theorem netDel_heldWrites (id : Nat) (s : State) : (netDel id s).heldWrites = s.heldWrites := rfl
@[simp] theorem netDel_retunes (id : Nat) (s : State) : (netDel id s).retunes = s.retunes := rfl
@[simp] theorem netDel_regClear (id : Nat) (s : State) : (netDel id s).regClear = s.regClear := rfl
@[simp] theorem netDel_regBusy (id : Nat) (s : State) : (netDel id s).regBusy = s.regBusy := rfl
@[simp] theorem netDel_wakes (id : Nat) (s : State) : (netDel id s).wakes = s.wakes := rfl
@[simp] theorem netDel_retains (id : Nat) (s : State) : (netDel id s).retains = s.retains := rfl
@[simp] theorem netDel_ptc (id : Nat) (s : State) : (netDel id s).ptc = s.ptc := rfl
@[simp] theorem netDel_iotlb (id : Nat) (s : State) : (netDel id s).iotlb = s.iotlb := rfl
@[simp] theorem netDel_walkc (id : Nat) (s : State) : (netDel id s).walkc = s.walkc := rfl
@[simp] theorem netDel_walks (id : Nat) (s : State) : (netDel id s).walks = s.walks := rfl
@[simp] theorem netDel_faults (id : Nat) (s : State) : (netDel id s).faults = s.faults := rfl
@[simp] theorem netDel_faultGens (id : Nat) (s : State) : (netDel id s).faultGens = s.faultGens := rfl
@[simp] theorem netDel_faultWait (id : Nat) (s : State) : (netDel id s).faultWait = s.faultWait := rfl
@[simp] theorem netDel_xans (id : Nat) (s : State) : (netDel id s).xans = s.xans := rfl
@[simp] theorem netDel_xinvs (id : Nat) (s : State) : (netDel id s).xinvs = s.xinvs := rfl
@[simp] theorem netDel_iofences (id : Nat) (s : State) : (netDel id s).iofences = s.iofences := rfl
@[simp] theorem netDel_logq (id : Nat) (s : State) : (netDel id s).logq = s.logq := rfl
@[simp] theorem netDel_ident (id : Nat) (s : State) : (netDel id s).ident = s.ident := rfl
@[simp] theorem netDel_ports (id : Nat) (s : State) : (netDel id s).ports = s.ports := rfl
@[simp] theorem netDel_dlinks (id : Nat) (s : State) : (netDel id s).dlinks = s.dlinks := rfl
@[simp] theorem netDel_grove (id : Nat) (s : State) : (netDel id s).grove = s.grove := rfl
@[simp] theorem netDel_pins (id : Nat) (s : State) : (netDel id s).pins = s.pins := rfl
@[simp] theorem netDel_i3c (id : Nat) (s : State) : (netDel id s).i3c = s.i3c := rfl
@[simp] theorem netDel_flash (id : Nat) (s : State) : (netDel id s).flash = s.flash := rfl
@[simp] theorem netDel_mgt (id : Nat) (s : State) : (netDel id s).mgt = s.mgt := rfl
@[simp] theorem netDel_tap (id : Nat) (s : State) : (netDel id s).tap = s.tap := rfl
@[simp] theorem netDel_guest (id : Nat) (s : State) : (netDel id s).guest = s.guest := rfl
@[simp] theorem netDel_power (id : Nat) (s : State) : (netDel id s).power = s.power := rfl

@[simp] theorem writeReg_pending (r : Reg) (i j : Nat) (v : BitVec 64) (s : State) : (writeReg r i j v s).pending = s.pending := rfl
@[simp] theorem writeReg_cyc (r : Reg) (i j : Nat) (v : BitVec 64) (s : State) : (writeReg r i j v s).cyc = s.cyc := rfl
@[simp] theorem writeReg_free (r : Reg) (i j : Nat) (v : BitVec 64) (s : State) : (writeReg r i j v s).free = s.free := rfl
@[simp] theorem writeReg_nextId (r : Reg) (i j : Nat) (v : BitVec 64) (s : State) : (writeReg r i j v s).nextId = s.nextId := rfl
@[simp] theorem writeReg_nextSeq (r : Reg) (i j : Nat) (v : BitVec 64) (s : State) : (writeReg r i j v s).nextSeq = s.nextSeq := rfl
@[simp] theorem writeReg_resp (r : Reg) (i j : Nat) (v : BitVec 64) (s : State) : (writeReg r i j v s).resp = s.resp := rfl
@[simp] theorem writeReg_mem (r : Reg) (i j : Nat) (v : BitVec 64) (s : State) : (writeReg r i j v s).mem = s.mem := rfl
@[simp] theorem writeReg_spad (r : Reg) (i j : Nat) (v : BitVec 64) (s : State) : (writeReg r i j v s).spad = s.spad := rfl
@[simp] theorem writeReg_memErr (r : Reg) (i j : Nat) (v : BitVec 64) (s : State) : (writeReg r i j v s).memErr = s.memErr := rfl
@[simp] theorem writeReg_spadErr (r : Reg) (i j : Nat) (v : BitVec 64) (s : State) : (writeReg r i j v s).spadErr = s.spadErr := rfl
@[simp] theorem writeReg_cores (r : Reg) (i j : Nat) (v : BitVec 64) (s : State) : (writeReg r i j v s).cores = s.cores := rfl
@[simp] theorem writeReg_beds (r : Reg) (i j : Nat) (v : BitVec 64) (s : State) : (writeReg r i j v s).beds = s.beds := rfl
@[simp] theorem writeReg_stks (r : Reg) (i j : Nat) (v : BitVec 64) (s : State) : (writeReg r i j v s).stks = s.stks := rfl
@[simp] theorem writeReg_net (r : Reg) (i j : Nat) (v : BitVec 64) (s : State) : (writeReg r i j v s).net = s.net := rfl
@[simp] theorem writeReg_routes (r : Reg) (i j : Nat) (v : BitVec 64) (s : State) : (writeReg r i j v s).routes = s.routes := rfl
@[simp] theorem writeReg_log (r : Reg) (i j : Nat) (v : BitVec 64) (s : State) : (writeReg r i j v s).log = s.log := rfl
@[simp] theorem writeReg_logSeq (r : Reg) (i j : Nat) (v : BitVec 64) (s : State) : (writeReg r i j v s).logSeq = s.logSeq := rfl
@[simp] theorem writeReg_levels (r : Reg) (i j : Nat) (v : BitVec 64) (s : State) : (writeReg r i j v s).levels = s.levels := rfl
@[simp] theorem writeReg_flashErr (r : Reg) (i j : Nat) (v : BitVec 64) (s : State) : (writeReg r i j v s).flashErr = s.flashErr := rfl
@[simp] theorem writeReg_heldCe (r : Reg) (i j : Nat) (v : BitVec 64) (s : State) : (writeReg r i j v s).heldCe = s.heldCe := rfl
@[simp] theorem writeReg_msis (r : Reg) (i j : Nat) (v : BitVec 64) (s : State) : (writeReg r i j v s).msis = s.msis := rfl
@[simp] theorem writeReg_timeOff (r : Reg) (i j : Nat) (v : BitVec 64) (s : State) : (writeReg r i j v s).timeOff = s.timeOff := rfl
@[simp] theorem writeReg_parts (r : Reg) (i j : Nat) (v : BitVec 64) (s : State) : (writeReg r i j v s).parts = s.parts := rfl
@[simp] theorem writeReg_rings (r : Reg) (i j : Nat) (v : BitVec 64) (s : State) : (writeReg r i j v s).rings = s.rings := rfl
@[simp] theorem writeReg_served (r : Reg) (i j : Nat) (v : BitVec 64) (s : State) : (writeReg r i j v s).served = s.served := rfl
@[simp] theorem writeReg_shelf (r : Reg) (i j : Nat) (v : BitVec 64) (s : State) : (writeReg r i j v s).shelf = s.shelf := rfl
@[simp] theorem writeReg_heldWrites (r : Reg) (i j : Nat) (v : BitVec 64) (s : State) : (writeReg r i j v s).heldWrites = s.heldWrites := rfl
@[simp] theorem writeReg_retunes (r : Reg) (i j : Nat) (v : BitVec 64) (s : State) : (writeReg r i j v s).retunes = s.retunes := rfl
@[simp] theorem writeReg_regClear (r : Reg) (i j : Nat) (v : BitVec 64) (s : State) : (writeReg r i j v s).regClear = s.regClear := rfl
@[simp] theorem writeReg_regBusy (r : Reg) (i j : Nat) (v : BitVec 64) (s : State) : (writeReg r i j v s).regBusy = s.regBusy := rfl
@[simp] theorem writeReg_wakes (r : Reg) (i j : Nat) (v : BitVec 64) (s : State) : (writeReg r i j v s).wakes = s.wakes := rfl
@[simp] theorem writeReg_retains (r : Reg) (i j : Nat) (v : BitVec 64) (s : State) : (writeReg r i j v s).retains = s.retains := rfl
@[simp] theorem writeReg_ptc (r : Reg) (i j : Nat) (v : BitVec 64) (s : State) : (writeReg r i j v s).ptc = s.ptc := rfl
@[simp] theorem writeReg_iotlb (r : Reg) (i j : Nat) (v : BitVec 64) (s : State) : (writeReg r i j v s).iotlb = s.iotlb := rfl
@[simp] theorem writeReg_walkc (r : Reg) (i j : Nat) (v : BitVec 64) (s : State) : (writeReg r i j v s).walkc = s.walkc := rfl
@[simp] theorem writeReg_walks (r : Reg) (i j : Nat) (v : BitVec 64) (s : State) : (writeReg r i j v s).walks = s.walks := rfl
@[simp] theorem writeReg_faults (r : Reg) (i j : Nat) (v : BitVec 64) (s : State) : (writeReg r i j v s).faults = s.faults := rfl
@[simp] theorem writeReg_faultGens (r : Reg) (i j : Nat) (v : BitVec 64) (s : State) : (writeReg r i j v s).faultGens = s.faultGens := rfl
@[simp] theorem writeReg_faultWait (r : Reg) (i j : Nat) (v : BitVec 64) (s : State) : (writeReg r i j v s).faultWait = s.faultWait := rfl
@[simp] theorem writeReg_xans (r : Reg) (i j : Nat) (v : BitVec 64) (s : State) : (writeReg r i j v s).xans = s.xans := rfl
@[simp] theorem writeReg_xinvs (r : Reg) (i j : Nat) (v : BitVec 64) (s : State) : (writeReg r i j v s).xinvs = s.xinvs := rfl
@[simp] theorem writeReg_iofences (r : Reg) (i j : Nat) (v : BitVec 64) (s : State) : (writeReg r i j v s).iofences = s.iofences := rfl
@[simp] theorem writeReg_logq (r : Reg) (i j : Nat) (v : BitVec 64) (s : State) : (writeReg r i j v s).logq = s.logq := rfl
@[simp] theorem writeReg_ident (r : Reg) (i j : Nat) (v : BitVec 64) (s : State) : (writeReg r i j v s).ident = s.ident := rfl
@[simp] theorem writeReg_ports (r : Reg) (i j : Nat) (v : BitVec 64) (s : State) : (writeReg r i j v s).ports = s.ports := rfl
@[simp] theorem writeReg_dlinks (r : Reg) (i j : Nat) (v : BitVec 64) (s : State) : (writeReg r i j v s).dlinks = s.dlinks := rfl
@[simp] theorem writeReg_grove (r : Reg) (i j : Nat) (v : BitVec 64) (s : State) : (writeReg r i j v s).grove = s.grove := rfl
@[simp] theorem writeReg_pins (r : Reg) (i j : Nat) (v : BitVec 64) (s : State) : (writeReg r i j v s).pins = s.pins := rfl
@[simp] theorem writeReg_i3c (r : Reg) (i j : Nat) (v : BitVec 64) (s : State) : (writeReg r i j v s).i3c = s.i3c := rfl
@[simp] theorem writeReg_flash (r : Reg) (i j : Nat) (v : BitVec 64) (s : State) : (writeReg r i j v s).flash = s.flash := rfl
@[simp] theorem writeReg_mgt (r : Reg) (i j : Nat) (v : BitVec 64) (s : State) : (writeReg r i j v s).mgt = s.mgt := rfl
@[simp] theorem writeReg_tap (r : Reg) (i j : Nat) (v : BitVec 64) (s : State) : (writeReg r i j v s).tap = s.tap := rfl
@[simp] theorem writeReg_guest (r : Reg) (i j : Nat) (v : BitVec 64) (s : State) : (writeReg r i j v s).guest = s.guest := rfl
@[simp] theorem writeReg_power (r : Reg) (i j : Nat) (v : BitVec 64) (s : State) : (writeReg r i j v s).power = s.power := rfl

@[simp] theorem setF_pending (f : Fld) (i j v : Nat) (s : State) : (setF f i j v s).pending = s.pending := rfl
@[simp] theorem setF_cyc (f : Fld) (i j v : Nat) (s : State) : (setF f i j v s).cyc = s.cyc := rfl
@[simp] theorem setF_free (f : Fld) (i j v : Nat) (s : State) : (setF f i j v s).free = s.free := rfl
@[simp] theorem setF_nextId (f : Fld) (i j v : Nat) (s : State) : (setF f i j v s).nextId = s.nextId := rfl
@[simp] theorem setF_nextSeq (f : Fld) (i j v : Nat) (s : State) : (setF f i j v s).nextSeq = s.nextSeq := rfl
@[simp] theorem setF_resp (f : Fld) (i j v : Nat) (s : State) : (setF f i j v s).resp = s.resp := rfl
@[simp] theorem setF_mem (f : Fld) (i j v : Nat) (s : State) : (setF f i j v s).mem = s.mem := rfl
@[simp] theorem setF_spad (f : Fld) (i j v : Nat) (s : State) : (setF f i j v s).spad = s.spad := rfl
@[simp] theorem setF_memErr (f : Fld) (i j v : Nat) (s : State) : (setF f i j v s).memErr = s.memErr := rfl
@[simp] theorem setF_spadErr (f : Fld) (i j v : Nat) (s : State) : (setF f i j v s).spadErr = s.spadErr := rfl
@[simp] theorem setF_cores (f : Fld) (i j v : Nat) (s : State) : (setF f i j v s).cores = s.cores := rfl
@[simp] theorem setF_beds (f : Fld) (i j v : Nat) (s : State) : (setF f i j v s).beds = s.beds := rfl
@[simp] theorem setF_stks (f : Fld) (i j v : Nat) (s : State) : (setF f i j v s).stks = s.stks := rfl
@[simp] theorem setF_net (f : Fld) (i j v : Nat) (s : State) : (setF f i j v s).net = s.net := rfl
@[simp] theorem setF_routes (f : Fld) (i j v : Nat) (s : State) : (setF f i j v s).routes = s.routes := rfl
@[simp] theorem setF_log (f : Fld) (i j v : Nat) (s : State) : (setF f i j v s).log = s.log := rfl
@[simp] theorem setF_logSeq (f : Fld) (i j v : Nat) (s : State) : (setF f i j v s).logSeq = s.logSeq := rfl
@[simp] theorem setF_levels (f : Fld) (i j v : Nat) (s : State) : (setF f i j v s).levels = s.levels := rfl
@[simp] theorem setF_flashErr (f : Fld) (i j v : Nat) (s : State) : (setF f i j v s).flashErr = s.flashErr := rfl
@[simp] theorem setF_heldCe (f : Fld) (i j v : Nat) (s : State) : (setF f i j v s).heldCe = s.heldCe := rfl
@[simp] theorem setF_msis (f : Fld) (i j v : Nat) (s : State) : (setF f i j v s).msis = s.msis := rfl
@[simp] theorem setF_timeOff (f : Fld) (i j v : Nat) (s : State) : (setF f i j v s).timeOff = s.timeOff := rfl
@[simp] theorem setF_parts (f : Fld) (i j v : Nat) (s : State) : (setF f i j v s).parts = s.parts := rfl
@[simp] theorem setF_rings (f : Fld) (i j v : Nat) (s : State) : (setF f i j v s).rings = s.rings := rfl
@[simp] theorem setF_served (f : Fld) (i j v : Nat) (s : State) : (setF f i j v s).served = s.served := rfl
@[simp] theorem setF_shelf (f : Fld) (i j v : Nat) (s : State) : (setF f i j v s).shelf = s.shelf := rfl
@[simp] theorem setF_heldWrites (f : Fld) (i j v : Nat) (s : State) : (setF f i j v s).heldWrites = s.heldWrites := rfl
@[simp] theorem setF_retunes (f : Fld) (i j v : Nat) (s : State) : (setF f i j v s).retunes = s.retunes := rfl
@[simp] theorem setF_regClear (f : Fld) (i j v : Nat) (s : State) : (setF f i j v s).regClear = s.regClear := rfl
@[simp] theorem setF_regBusy (f : Fld) (i j v : Nat) (s : State) : (setF f i j v s).regBusy = s.regBusy := rfl
@[simp] theorem setF_wakes (f : Fld) (i j v : Nat) (s : State) : (setF f i j v s).wakes = s.wakes := rfl
@[simp] theorem setF_retains (f : Fld) (i j v : Nat) (s : State) : (setF f i j v s).retains = s.retains := rfl
@[simp] theorem setF_ptc (f : Fld) (i j v : Nat) (s : State) : (setF f i j v s).ptc = s.ptc := rfl
@[simp] theorem setF_iotlb (f : Fld) (i j v : Nat) (s : State) : (setF f i j v s).iotlb = s.iotlb := rfl
@[simp] theorem setF_walkc (f : Fld) (i j v : Nat) (s : State) : (setF f i j v s).walkc = s.walkc := rfl
@[simp] theorem setF_walks (f : Fld) (i j v : Nat) (s : State) : (setF f i j v s).walks = s.walks := rfl
@[simp] theorem setF_faults (f : Fld) (i j v : Nat) (s : State) : (setF f i j v s).faults = s.faults := rfl
@[simp] theorem setF_faultGens (f : Fld) (i j v : Nat) (s : State) : (setF f i j v s).faultGens = s.faultGens := rfl
@[simp] theorem setF_faultWait (f : Fld) (i j v : Nat) (s : State) : (setF f i j v s).faultWait = s.faultWait := rfl
@[simp] theorem setF_xans (f : Fld) (i j v : Nat) (s : State) : (setF f i j v s).xans = s.xans := rfl
@[simp] theorem setF_xinvs (f : Fld) (i j v : Nat) (s : State) : (setF f i j v s).xinvs = s.xinvs := rfl
@[simp] theorem setF_iofences (f : Fld) (i j v : Nat) (s : State) : (setF f i j v s).iofences = s.iofences := rfl
@[simp] theorem setF_logq (f : Fld) (i j v : Nat) (s : State) : (setF f i j v s).logq = s.logq := rfl
@[simp] theorem setF_ident (f : Fld) (i j v : Nat) (s : State) : (setF f i j v s).ident = s.ident := rfl
@[simp] theorem setF_ports (f : Fld) (i j v : Nat) (s : State) : (setF f i j v s).ports = s.ports := rfl
@[simp] theorem setF_dlinks (f : Fld) (i j v : Nat) (s : State) : (setF f i j v s).dlinks = s.dlinks := rfl
@[simp] theorem setF_grove (f : Fld) (i j v : Nat) (s : State) : (setF f i j v s).grove = s.grove := rfl
@[simp] theorem setF_pins (f : Fld) (i j v : Nat) (s : State) : (setF f i j v s).pins = s.pins := rfl
@[simp] theorem setF_i3c (f : Fld) (i j v : Nat) (s : State) : (setF f i j v s).i3c = s.i3c := rfl
@[simp] theorem setF_flash (f : Fld) (i j v : Nat) (s : State) : (setF f i j v s).flash = s.flash := rfl
@[simp] theorem setF_mgt (f : Fld) (i j v : Nat) (s : State) : (setF f i j v s).mgt = s.mgt := rfl
@[simp] theorem setF_tap (f : Fld) (i j v : Nat) (s : State) : (setF f i j v s).tap = s.tap := rfl
@[simp] theorem setF_guest (f : Fld) (i j v : Nat) (s : State) : (setF f i j v s).guest = s.guest := rfl
@[simp] theorem setF_power (f : Fld) (i j v : Nat) (s : State) : (setF f i j v s).power = s.power := rfl

@[simp] theorem flagF_pending (f : Fld) (i j : Nat) (s : State) : (flagF f i j s).pending = s.pending := rfl
@[simp] theorem flagF_cyc (f : Fld) (i j : Nat) (s : State) : (flagF f i j s).cyc = s.cyc := rfl
@[simp] theorem flagF_free (f : Fld) (i j : Nat) (s : State) : (flagF f i j s).free = s.free := rfl
@[simp] theorem flagF_nextId (f : Fld) (i j : Nat) (s : State) : (flagF f i j s).nextId = s.nextId := rfl
@[simp] theorem flagF_nextSeq (f : Fld) (i j : Nat) (s : State) : (flagF f i j s).nextSeq = s.nextSeq := rfl
@[simp] theorem flagF_resp (f : Fld) (i j : Nat) (s : State) : (flagF f i j s).resp = s.resp := rfl
@[simp] theorem flagF_mem (f : Fld) (i j : Nat) (s : State) : (flagF f i j s).mem = s.mem := rfl
@[simp] theorem flagF_spad (f : Fld) (i j : Nat) (s : State) : (flagF f i j s).spad = s.spad := rfl
@[simp] theorem flagF_memErr (f : Fld) (i j : Nat) (s : State) : (flagF f i j s).memErr = s.memErr := rfl
@[simp] theorem flagF_spadErr (f : Fld) (i j : Nat) (s : State) : (flagF f i j s).spadErr = s.spadErr := rfl
@[simp] theorem flagF_cores (f : Fld) (i j : Nat) (s : State) : (flagF f i j s).cores = s.cores := rfl
@[simp] theorem flagF_beds (f : Fld) (i j : Nat) (s : State) : (flagF f i j s).beds = s.beds := rfl
@[simp] theorem flagF_stks (f : Fld) (i j : Nat) (s : State) : (flagF f i j s).stks = s.stks := rfl
@[simp] theorem flagF_net (f : Fld) (i j : Nat) (s : State) : (flagF f i j s).net = s.net := rfl
@[simp] theorem flagF_routes (f : Fld) (i j : Nat) (s : State) : (flagF f i j s).routes = s.routes := rfl
@[simp] theorem flagF_log (f : Fld) (i j : Nat) (s : State) : (flagF f i j s).log = s.log := rfl
@[simp] theorem flagF_logSeq (f : Fld) (i j : Nat) (s : State) : (flagF f i j s).logSeq = s.logSeq := rfl
@[simp] theorem flagF_levels (f : Fld) (i j : Nat) (s : State) : (flagF f i j s).levels = s.levels := rfl
@[simp] theorem flagF_flashErr (f : Fld) (i j : Nat) (s : State) : (flagF f i j s).flashErr = s.flashErr := rfl
@[simp] theorem flagF_heldCe (f : Fld) (i j : Nat) (s : State) : (flagF f i j s).heldCe = s.heldCe := rfl
@[simp] theorem flagF_msis (f : Fld) (i j : Nat) (s : State) : (flagF f i j s).msis = s.msis := rfl
@[simp] theorem flagF_timeOff (f : Fld) (i j : Nat) (s : State) : (flagF f i j s).timeOff = s.timeOff := rfl
@[simp] theorem flagF_parts (f : Fld) (i j : Nat) (s : State) : (flagF f i j s).parts = s.parts := rfl
@[simp] theorem flagF_rings (f : Fld) (i j : Nat) (s : State) : (flagF f i j s).rings = s.rings := rfl
@[simp] theorem flagF_served (f : Fld) (i j : Nat) (s : State) : (flagF f i j s).served = s.served := rfl
@[simp] theorem flagF_shelf (f : Fld) (i j : Nat) (s : State) : (flagF f i j s).shelf = s.shelf := rfl
@[simp] theorem flagF_heldWrites (f : Fld) (i j : Nat) (s : State) : (flagF f i j s).heldWrites = s.heldWrites := rfl
@[simp] theorem flagF_retunes (f : Fld) (i j : Nat) (s : State) : (flagF f i j s).retunes = s.retunes := rfl
@[simp] theorem flagF_regClear (f : Fld) (i j : Nat) (s : State) : (flagF f i j s).regClear = s.regClear := rfl
@[simp] theorem flagF_regBusy (f : Fld) (i j : Nat) (s : State) : (flagF f i j s).regBusy = s.regBusy := rfl
@[simp] theorem flagF_wakes (f : Fld) (i j : Nat) (s : State) : (flagF f i j s).wakes = s.wakes := rfl
@[simp] theorem flagF_retains (f : Fld) (i j : Nat) (s : State) : (flagF f i j s).retains = s.retains := rfl
@[simp] theorem flagF_ptc (f : Fld) (i j : Nat) (s : State) : (flagF f i j s).ptc = s.ptc := rfl
@[simp] theorem flagF_iotlb (f : Fld) (i j : Nat) (s : State) : (flagF f i j s).iotlb = s.iotlb := rfl
@[simp] theorem flagF_walkc (f : Fld) (i j : Nat) (s : State) : (flagF f i j s).walkc = s.walkc := rfl
@[simp] theorem flagF_walks (f : Fld) (i j : Nat) (s : State) : (flagF f i j s).walks = s.walks := rfl
@[simp] theorem flagF_faults (f : Fld) (i j : Nat) (s : State) : (flagF f i j s).faults = s.faults := rfl
@[simp] theorem flagF_faultGens (f : Fld) (i j : Nat) (s : State) : (flagF f i j s).faultGens = s.faultGens := rfl
@[simp] theorem flagF_faultWait (f : Fld) (i j : Nat) (s : State) : (flagF f i j s).faultWait = s.faultWait := rfl
@[simp] theorem flagF_xans (f : Fld) (i j : Nat) (s : State) : (flagF f i j s).xans = s.xans := rfl
@[simp] theorem flagF_xinvs (f : Fld) (i j : Nat) (s : State) : (flagF f i j s).xinvs = s.xinvs := rfl
@[simp] theorem flagF_iofences (f : Fld) (i j : Nat) (s : State) : (flagF f i j s).iofences = s.iofences := rfl
@[simp] theorem flagF_logq (f : Fld) (i j : Nat) (s : State) : (flagF f i j s).logq = s.logq := rfl
@[simp] theorem flagF_ident (f : Fld) (i j : Nat) (s : State) : (flagF f i j s).ident = s.ident := rfl
@[simp] theorem flagF_ports (f : Fld) (i j : Nat) (s : State) : (flagF f i j s).ports = s.ports := rfl
@[simp] theorem flagF_dlinks (f : Fld) (i j : Nat) (s : State) : (flagF f i j s).dlinks = s.dlinks := rfl
@[simp] theorem flagF_grove (f : Fld) (i j : Nat) (s : State) : (flagF f i j s).grove = s.grove := rfl
@[simp] theorem flagF_pins (f : Fld) (i j : Nat) (s : State) : (flagF f i j s).pins = s.pins := rfl
@[simp] theorem flagF_i3c (f : Fld) (i j : Nat) (s : State) : (flagF f i j s).i3c = s.i3c := rfl
@[simp] theorem flagF_flash (f : Fld) (i j : Nat) (s : State) : (flagF f i j s).flash = s.flash := rfl
@[simp] theorem flagF_mgt (f : Fld) (i j : Nat) (s : State) : (flagF f i j s).mgt = s.mgt := rfl
@[simp] theorem flagF_tap (f : Fld) (i j : Nat) (s : State) : (flagF f i j s).tap = s.tap := rfl
@[simp] theorem flagF_guest (f : Fld) (i j : Nat) (s : State) : (flagF f i j s).guest = s.guest := rfl
@[simp] theorem flagF_power (f : Fld) (i j : Nat) (s : State) : (flagF f i j s).power = s.power := rfl

@[simp] theorem incF_pending (f : Fld) (i j n : Nat) (s : State) : (incF f i j n s).pending = s.pending := rfl
@[simp] theorem incF_cyc (f : Fld) (i j n : Nat) (s : State) : (incF f i j n s).cyc = s.cyc := rfl
@[simp] theorem incF_free (f : Fld) (i j n : Nat) (s : State) : (incF f i j n s).free = s.free := rfl
@[simp] theorem incF_nextId (f : Fld) (i j n : Nat) (s : State) : (incF f i j n s).nextId = s.nextId := rfl
@[simp] theorem incF_nextSeq (f : Fld) (i j n : Nat) (s : State) : (incF f i j n s).nextSeq = s.nextSeq := rfl
@[simp] theorem incF_resp (f : Fld) (i j n : Nat) (s : State) : (incF f i j n s).resp = s.resp := rfl
@[simp] theorem incF_mem (f : Fld) (i j n : Nat) (s : State) : (incF f i j n s).mem = s.mem := rfl
@[simp] theorem incF_spad (f : Fld) (i j n : Nat) (s : State) : (incF f i j n s).spad = s.spad := rfl
@[simp] theorem incF_memErr (f : Fld) (i j n : Nat) (s : State) : (incF f i j n s).memErr = s.memErr := rfl
@[simp] theorem incF_spadErr (f : Fld) (i j n : Nat) (s : State) : (incF f i j n s).spadErr = s.spadErr := rfl
@[simp] theorem incF_cores (f : Fld) (i j n : Nat) (s : State) : (incF f i j n s).cores = s.cores := rfl
@[simp] theorem incF_beds (f : Fld) (i j n : Nat) (s : State) : (incF f i j n s).beds = s.beds := rfl
@[simp] theorem incF_stks (f : Fld) (i j n : Nat) (s : State) : (incF f i j n s).stks = s.stks := rfl
@[simp] theorem incF_net (f : Fld) (i j n : Nat) (s : State) : (incF f i j n s).net = s.net := rfl
@[simp] theorem incF_routes (f : Fld) (i j n : Nat) (s : State) : (incF f i j n s).routes = s.routes := rfl
@[simp] theorem incF_log (f : Fld) (i j n : Nat) (s : State) : (incF f i j n s).log = s.log := rfl
@[simp] theorem incF_logSeq (f : Fld) (i j n : Nat) (s : State) : (incF f i j n s).logSeq = s.logSeq := rfl
@[simp] theorem incF_levels (f : Fld) (i j n : Nat) (s : State) : (incF f i j n s).levels = s.levels := rfl
@[simp] theorem incF_flashErr (f : Fld) (i j n : Nat) (s : State) : (incF f i j n s).flashErr = s.flashErr := rfl
@[simp] theorem incF_heldCe (f : Fld) (i j n : Nat) (s : State) : (incF f i j n s).heldCe = s.heldCe := rfl
@[simp] theorem incF_msis (f : Fld) (i j n : Nat) (s : State) : (incF f i j n s).msis = s.msis := rfl
@[simp] theorem incF_timeOff (f : Fld) (i j n : Nat) (s : State) : (incF f i j n s).timeOff = s.timeOff := rfl
@[simp] theorem incF_parts (f : Fld) (i j n : Nat) (s : State) : (incF f i j n s).parts = s.parts := rfl
@[simp] theorem incF_rings (f : Fld) (i j n : Nat) (s : State) : (incF f i j n s).rings = s.rings := rfl
@[simp] theorem incF_served (f : Fld) (i j n : Nat) (s : State) : (incF f i j n s).served = s.served := rfl
@[simp] theorem incF_shelf (f : Fld) (i j n : Nat) (s : State) : (incF f i j n s).shelf = s.shelf := rfl
@[simp] theorem incF_heldWrites (f : Fld) (i j n : Nat) (s : State) : (incF f i j n s).heldWrites = s.heldWrites := rfl
@[simp] theorem incF_retunes (f : Fld) (i j n : Nat) (s : State) : (incF f i j n s).retunes = s.retunes := rfl
@[simp] theorem incF_regClear (f : Fld) (i j n : Nat) (s : State) : (incF f i j n s).regClear = s.regClear := rfl
@[simp] theorem incF_regBusy (f : Fld) (i j n : Nat) (s : State) : (incF f i j n s).regBusy = s.regBusy := rfl
@[simp] theorem incF_wakes (f : Fld) (i j n : Nat) (s : State) : (incF f i j n s).wakes = s.wakes := rfl
@[simp] theorem incF_retains (f : Fld) (i j n : Nat) (s : State) : (incF f i j n s).retains = s.retains := rfl
@[simp] theorem incF_ptc (f : Fld) (i j n : Nat) (s : State) : (incF f i j n s).ptc = s.ptc := rfl
@[simp] theorem incF_iotlb (f : Fld) (i j n : Nat) (s : State) : (incF f i j n s).iotlb = s.iotlb := rfl
@[simp] theorem incF_walkc (f : Fld) (i j n : Nat) (s : State) : (incF f i j n s).walkc = s.walkc := rfl
@[simp] theorem incF_walks (f : Fld) (i j n : Nat) (s : State) : (incF f i j n s).walks = s.walks := rfl
@[simp] theorem incF_faults (f : Fld) (i j n : Nat) (s : State) : (incF f i j n s).faults = s.faults := rfl
@[simp] theorem incF_faultGens (f : Fld) (i j n : Nat) (s : State) : (incF f i j n s).faultGens = s.faultGens := rfl
@[simp] theorem incF_faultWait (f : Fld) (i j n : Nat) (s : State) : (incF f i j n s).faultWait = s.faultWait := rfl
@[simp] theorem incF_xans (f : Fld) (i j n : Nat) (s : State) : (incF f i j n s).xans = s.xans := rfl
@[simp] theorem incF_xinvs (f : Fld) (i j n : Nat) (s : State) : (incF f i j n s).xinvs = s.xinvs := rfl
@[simp] theorem incF_iofences (f : Fld) (i j n : Nat) (s : State) : (incF f i j n s).iofences = s.iofences := rfl
@[simp] theorem incF_logq (f : Fld) (i j n : Nat) (s : State) : (incF f i j n s).logq = s.logq := rfl
@[simp] theorem incF_ident (f : Fld) (i j n : Nat) (s : State) : (incF f i j n s).ident = s.ident := rfl
@[simp] theorem incF_ports (f : Fld) (i j n : Nat) (s : State) : (incF f i j n s).ports = s.ports := rfl
@[simp] theorem incF_dlinks (f : Fld) (i j n : Nat) (s : State) : (incF f i j n s).dlinks = s.dlinks := rfl
@[simp] theorem incF_grove (f : Fld) (i j n : Nat) (s : State) : (incF f i j n s).grove = s.grove := rfl
@[simp] theorem incF_pins (f : Fld) (i j n : Nat) (s : State) : (incF f i j n s).pins = s.pins := rfl
@[simp] theorem incF_i3c (f : Fld) (i j n : Nat) (s : State) : (incF f i j n s).i3c = s.i3c := rfl
@[simp] theorem incF_flash (f : Fld) (i j n : Nat) (s : State) : (incF f i j n s).flash = s.flash := rfl
@[simp] theorem incF_mgt (f : Fld) (i j n : Nat) (s : State) : (incF f i j n s).mgt = s.mgt := rfl
@[simp] theorem incF_tap (f : Fld) (i j n : Nat) (s : State) : (incF f i j n s).tap = s.tap := rfl
@[simp] theorem incF_guest (f : Fld) (i j n : Nat) (s : State) : (incF f i j n s).guest = s.guest := rfl
@[simp] theorem incF_power (f : Fld) (i j n : Nat) (s : State) : (incF f i j n s).power = s.power := rfl

end Sys2Proof.Machine
end

