-- ==== Sys2Proof/Laws/Regs.lean ====
section
/-!
SUPPORT. Registers and units: reading after writing.
-/

namespace Sys2Proof.Machine

theorem ctorIdx_lt (r : Reg) : r.ctorIdx < 256 := by cases r <;> decide

theorem regOfIdx_ctorIdx (r : Reg) : regOfIdx r.ctorIdx = some r := by cases r <;> decide

theorem Reg.eq_of_ctorIdx {r q : Reg} (h : r.ctorIdx = q.ctorIdx) : r = q := by
  have e := regOfIdx_ctorIdx r
  rw [h, regOfIdx_ctorIdx q] at e
  exact (Option.some.inj e).symm

theorem regKey_inj {r q : Reg} {i j u k : Nat} (hj : j < 2048) (hk : k < 2048) (h : regKey r i j = regKey q u k) :
    r = q ∧ i = u ∧ j = k := by
  unfold regKey at h
  have a := ctorIdx_lt r
  have b := ctorIdx_lt q
  have e : r.ctorIdx = q.ctorIdx := by omega
  exact ⟨Reg.eq_of_ctorIdx e, by omega, by omega⟩

/-- A register reads what was written to it. -/
theorem readReg_writeReg (r : Reg) (i j : Nat) (v : BitVec 64) (s : State) (h : swf 0 s.regs) :
    readReg r i j (writeReg r i j v s) = v := by
  unfold readReg writeReg
  simp only [sget_sput _ _ _ _ _ h, if_true, BitVec.xor_assoc, BitVec.xor_self, BitVec.xor_zero]

/-- Another register reads as before. -/
theorem readReg_writeReg_ne (r q : Reg) (i j u k : Nat) (v : BitVec 64) (s : State) (h : swf 0 s.regs)
    (n : regKey q u k ≠ regKey r i j) : readReg q u k (writeReg r i j v s) = readReg q u k s := by
  unfold readReg writeReg
  simp only [sget_sput _ _ _ _ _ h, if_neg n]

theorem core_putCore (s : State) (c d : Nat) (k : Core) (h : swf Core.reset s.cores) :
    (s.putCore c k).core d = if d = c then k else s.core d := sget_sput _ _ _ _ _ h

theorem bed_putBed (s : State) (b d : Nat) (k : Bed) (h : swf Bed.reset s.beds) :
    (s.putBed b k).bed d = if d = b then k else s.bed d := sget_sput _ _ _ _ _ h

theorem stack_putStack (s : State) (b d : Nat) (k : Stack) (h : swf Stack.reset s.stks) :
    (s.putStack b k).stack d = if d = b then k else s.stack d := sget_sput _ _ _ _ _ h

theorem part_putPart (s : State) (b d : Nat) (k : Part) (h : swf Part.reset s.parts) :
    (s.putPart b k).part d = if d = b then k else s.part d := sget_sput _ _ _ _ _ h

theorem ring_putRing (s : State) (b d : Nat) (k : Ring) (h : swf Ring.reset s.rings) :
    (s.putRing b k).ring d = if d = b then k else s.ring d := sget_sput _ _ _ _ _ h

end Sys2Proof.Machine
end

