-- ==== Sys2Proof/Laws/Issue.lean ====
section
/-!
SUPPORT. Issue: what taking a slot command changes of its core and its bed.
-/

namespace Sys2Proof.Machine

theorem core_useSlot (c : Nat) (slot : Slot) (s : State) (h : Sound s) : (useSlot c slot s).core c =
    { s.core c with opened := (s.core c).opened.map fun o => { o with used := slot :: o.used } } := by
  unfold useSlot
  rw [core_putCore _ _ _ _ h.cores, if_pos rfl]

theorem core_incF (f : Fld) (i j n c : Nat) (s : State) : (incF f i j n s).core c = s.core c := rfl

theorem core_openBundle (c : Nat) (s : State) (h : Sound s) : (openBundle c s).core c =
    { s.core c with
      opened := some ⟨actOf c s, (s.core c).pc, (s.core c).bundle.getD 0, (s.core c).loops, if (s.core c).passed then [.sync] else []⟩,
      wait := .none, passed := false,
      pc := BitVec.ofNat 32 (nextPc (s.core c).loops (s.core c).pc.toNat).1,
      loops := (nextPc (s.core c).loops (s.core c).pc.toNat).2 } := by
  unfold openBundle
  simp only
  rw [core_incF, core_putCore _ _ _ _ h.cores, if_pos rfl]

/-- The register files, masks, flags and modes of a core are as before when it takes a slot command. -/
theorem core_beginSlot (c : Nat) (slot : Slot) (s : State) (h : Sound s) :
    ∃ o p l w q, (beginSlot c slot s).core c =
      { s.core c with opened := o, pc := p, loops := l, wait := w, passed := q } := by
  unfold beginSlot
  split
  · exact ⟨_, _, _, _, _, core_useSlot c slot s h⟩
  · rw [core_useSlot _ _ _ ((keep_openBundle c s (Keep.refl s)).2 h), core_openBundle c s h]
    exact ⟨_, _, _, _, _, rfl⟩

theorem rx_beginSlot (c : Nat) (slot : Slot) (s : State) (h : Sound s) (r : BitVec 5) :
    ((beginSlot c slot s).core c).rx r = (s.core c).rx r := by
  obtain ⟨o, p, l, w, q, e⟩ := core_beginSlot c slot s h
  rw [e]; rfl

theorem rv_beginSlot (c : Nat) (slot : Slot) (s : State) (h : Sound s) (r : BitVec 5) :
    ((beginSlot c slot s).core c).rv r = (s.core c).rv r := by
  obtain ⟨o, p, l, w, q, e⟩ := core_beginSlot c slot s h
  rw [e]; rfl

theorem rm_beginSlot (c : Nat) (slot : Slot) (s : State) (h : Sound s) (r : BitVec 3) :
    ((beginSlot c slot s).core c).rm r = (s.core c).rm r := by
  obtain ⟨o, p, l, w, q, e⟩ := core_beginSlot c slot s h
  rw [e]; rfl

/-- Where the core takes it, a slot command has its effect on the state in which the slot is marked. -/
theorem issueSlot_takes (c : Nat) (slot : Slot) (i : Instr) (f : State → State) (s : State) (h : Takes c slot i s) :
    issueSlot c slot i f s = f (beginSlot c slot s) := if_pos h.2

/-- Where the core does not take it, a slot command has no effect. -/
theorem issueSlot_not (c : Nat) (slot : Slot) (i : Instr) (f : State → State) (s : State) (h : canIssue c slot i s = false) :
    issueSlot c slot i f s = s := by
  unfold issueSlot
  rw [h]; rfl

end Sys2Proof.Machine
end

