-- ==== Sys2Proof/Laws/KeepOperands.lean ====
section
/-!
SUPPORT. Keeping: the operations of Operands.
-/

namespace Sys2Proof.Machine

theorem keep_vecLanes {s0 : State} (a0 : Nat) (a1 : Instr) (a2 : BitVec 5) (a3 : BitVec 3) (a4 : Nat) (a5 : Nat) (a6 : Nat) (a7 : Core → Nat → Nat × FpFlags) (s : State) (h : Keep s0 s) :
    Keep s0 (vecLanes a0 a1 a2 a3 a4 a5 a6 a7 s) := by
  unfold vecLanes
  try extract_lets
  repeat' first
    | with_reducible assumption
    | with_reducible apply keep_issueSlot
    | with_reducible apply keep_fpFlags
    | with_reducible apply keep_deliver
    | extract_lets
    | dsimp only
    | intro _

theorem keep_vecOp {s0 : State} (a0 : Nat) (a1 : Instr) (a2 : VecA) (a3 : Nat) (a4 : Nat → Nat → Nat → Nat × FpFlags) (s : State) (h : Keep s0 s) :
    Keep s0 (vecOp a0 a1 a2 a3 a4 s) := by
  unfold vecOp
  try extract_lets
  repeat' first
    | with_reducible assumption
    | with_reducible apply keep_vecLanes

theorem keep_schedule {s0 : State} (a0 : Nat) (a1 : List Acc) (s : State) (h : Keep s0 s) :
    Keep s0 (schedule a0 a1 s) := by
  unfold schedule
  try extract_lets
  repeat' first
    | with_reducible assumption
    | with_reducible apply keep_State_putCore

end Sys2Proof.Machine
end

