-- ==== Sys2Proof/Laws/KeepGrid.lean ====
section
/-!
SUPPORT. Keeping: the operations of Grid.
-/

namespace Sys2Proof.Machine

theorem keep_clash {s0 : State} (a0 : Nat) (s : State) (h : Keep s0 s) :
    Keep s0 (clash a0 s) := by
  unfold clash
  repeat' first
    | with_reducible assumption
    | with_reducible apply keep_incF
    | with_reducible apply keep_flagF

theorem keep_gridRead {s0 : State} (a0 : Nat) (a1 : Nat) (a2 : Bool) (s : State) (h : Keep s0 s) :
    Keep s0 (gridRead a0 a1 a2 s).2 := by
  unfold gridRead
  repeat' first
    | with_reducible assumption
    | with_reducible apply keep_clash
    | with_reducible apply keep_regionViol
    | with_reducible apply keep_spadRead
    | with_reducible apply keep_failLaunchAt
    | with_reducible apply keep_spadConsume
    | (with_reducible apply keep_spadRead_e; · with_reducible assumption)
    | split

theorem keep_gridRead_e {s0 : State} {a0 : Nat} {a1 : Nat} {a2 : Bool} {s t : State} {x} (e : gridRead a0 a1 a2 s = (x, t)) (h : Keep s0 s) : Keep s0 t := by
  have g := keep_gridRead a0 a1 a2 s h 
  rw [e] at g
  exact g

theorem keep_Strm_read1 {s0 : State} (a0 : Strm) (a1 : Nat) (a2 : Nat) (a3 : Bool) (s : State) (h : Keep s0 s) :
    Keep s0 (Strm.read1 a0 a1 a2 a3 s).2 := by
  unfold Strm.read1
  try extract_lets
  repeat' first
    | with_reducible assumption
    | with_reducible apply keep_gridRead
    | (with_reducible apply keep_gridRead_e; · with_reducible assumption)
    | extract_lets
    | split

theorem keep_Strm_read1_e {s0 : State} {a0 : Strm} {a1 : Nat} {a2 : Nat} {a3 : Bool} {s t : State} {x} (e : Strm.read1 a0 a1 a2 a3 s = (x, t)) (h : Keep s0 s) : Keep s0 t := by
  have g := keep_Strm_read1 a0 a1 a2 a3 s h 
  rw [e] at g
  exact g

theorem keep_Strm_readTo {s0 : State} (a0 : Nat) (a1 : Strm) (a2 : Nat) (a3 : Nat) (a4 : Nat) (a5 : Bool) (s : State) (h : Keep s0 s) :
    Keep s0 (Strm.readTo a0 a1 a2 a3 a4 a5 s).2 := by
  induction a0 generalizing s a1 with
  | zero =>
    unfold Strm.readTo
    try extract_lets
    repeat' first
      | with_reducible assumption
  | succ n ih =>
    unfold Strm.readTo
    try extract_lets
    repeat' first
      | with_reducible assumption
      | with_reducible apply ih
      | with_reducible apply keep_Strm_read1
      | (with_reducible apply keep_Strm_read1_e; · with_reducible assumption)
      | extract_lets
      | split

theorem keep_Strm_readTo_e {s0 : State} {a0 : Nat} {a1 : Strm} {a2 : Nat} {a3 : Nat} {a4 : Nat} {a5 : Bool} {s t : State} {x} (e : Strm.readTo a0 a1 a2 a3 a4 a5 s = (x, t)) (h : Keep s0 s) : Keep s0 t := by
  have g := keep_Strm_readTo a0 a1 a2 a3 a4 a5 s h 
  rw [e] at g
  exact g

theorem keep_readStrms {s0 : State} (a0 : List Strm) (a1 : Nat) (a2 : Nat) (a3 : Nat) (a4 : Bool) (s : State) (h : Keep s0 s) :
    Keep s0 (readStrms a0 a1 a2 a3 a4 s).2 := by
  induction a0 generalizing s with
  | nil =>
    unfold readStrms
    try extract_lets
    repeat' first
      | with_reducible assumption
  | cons u l ih =>
    unfold readStrms
    try extract_lets
    repeat' first
      | with_reducible assumption
      | with_reducible apply ih
      | with_reducible apply keep_Strm_readTo

theorem keep_readStrms_e {s0 : State} {a0 : List Strm} {a1 : Nat} {a2 : Nat} {a3 : Nat} {a4 : Bool} {s t : State} {x} (e : readStrms a0 a1 a2 a3 a4 s = (x, t)) (h : Keep s0 s) : Keep s0 t := by
  have g := keep_readStrms a0 a1 a2 a3 a4 s h 
  rw [e] at g
  exact g

theorem keep_Pres_readTo {s0 : State} (a0 : Pres) (a1 : Nat) (a2 : Nat) (s : State) (h : Keep s0 s) :
    Keep s0 (Pres.readTo a0 a1 a2 s).2 := by
  unfold Pres.readTo
  try extract_lets
  repeat' first
    | with_reducible assumption
    | with_reducible apply keep_readStrms

theorem keep_Pres_readTo_e {s0 : State} {a0 : Pres} {a1 : Nat} {a2 : Nat} {s t : State} {x} (e : Pres.readTo a0 a1 a2 s = (x, t)) (h : Keep s0 s) : Keep s0 t := by
  have g := keep_Pres_readTo a0 a1 a2 s h 
  rw [e] at g
  exact g

theorem keep_freeCell {s0 : State}  (s : State) (h : Keep s0 s) :
    Keep s0 (freeCell s).2 := by
  unfold freeCell
  try extract_lets
  repeat' first
    | with_reducible assumption
    | with_reducible apply keep_State_takeFree

theorem keep_freeCell_e {s0 : State}  {s t : State} {x} (e : freeCell s = (x, t)) (h : Keep s0 s) : Keep s0 t := by
  have g := keep_freeCell  s h 
  rw [e] at g
  exact g

theorem keep_drainFlags {s0 : State} (a0 : Nat) (a1 : DrainFlags) (s : State) (h : Keep s0 s) :
    Keep s0 (drainFlags a0 a1 s) := by
  unfold drainFlags
  repeat' first
    | with_reducible assumption
    | with_reducible apply keep_flagIf

theorem keep_putCell {s0 : State} (a0 : CellAt) (a1 : Nat) (a2 : Cell) (s : State) (h : Keep s0 s) :
    Keep s0 (putCell a0 a1 a2 s) := by
  unfold putCell
  try extract_lets
  repeat' first
    | with_reducible assumption
    | with_reducible apply keep_State_putCore

theorem keep_addCell {s0 : State} (a0 : Pres) (a1 : CellAt) (a2 : Nat) (s : State) (h : Keep s0 s) :
    Keep s0 (addCell a0 a1 a2 s) := by
  unfold addCell
  try extract_lets
  repeat' first
    | with_reducible assumption
    | with_reducible apply keep_freeCell
    | with_reducible apply keep_putCell
    | with_reducible apply keep_flagIf
    | (with_reducible apply keep_freeCell_e; · with_reducible assumption)
    | extract_lets
    | split

theorem keep_drainFor {s0 : State} (a0 : Nat) (a1 : Pres) (a2 : Nat) (s : State) (h : Keep s0 s) :
    Keep s0 (drainFor a0 a1 a2 s) := by
  unfold drainFor
  try extract_lets
  repeat' first
    | with_reducible assumption
    | with_reducible apply keep_State_putCore
    | extract_lets
    | split

theorem keep_snapCell {s0 : State} (a0 : Pres) (a1 : CellAt) (s : State) (h : Keep s0 s) :
    Keep s0 (snapCell a0 a1 s) := by
  unfold snapCell
  try extract_lets
  repeat' first
    | with_reducible assumption
    | with_reducible apply keep_drainFor
    | with_reducible apply keep_drainFlags
    | with_reducible apply keep_State_putCore

theorem keep_cellTick {s0 : State} (a0 : Pres) (a1 : Nat) (a3 : CellAt) (s : State) (h : Keep s0 s) :
    Keep s0 (cellTick a0 a1 s a3) := by
  unfold cellTick
  repeat' first
    | with_reducible assumption
    | with_reducible apply keep_snapCell
    | with_reducible apply keep_addCell
    | split

theorem keep_presTick {s0 : State} (a0 : Pres) (a1 : Nat) (a3 : Nat) (s : State) (h : Keep s0 s) :
    Keep s0 (presTick a0 a1 s a3) := by
  unfold presTick
  try extract_lets
  repeat' first
    | with_reducible assumption
    | with_reducible apply keep_incF
    | extract_lets
    | split

theorem keep_orderTick {s0 : State} (a0 : List Nat) (a1 : Bool) (a2 : Nat) (a4 : Pres) (s : State) (h : Keep s0 s) :
    Keep s0 (orderTick a0 a1 a2 s a4) := by
  unfold orderTick
  repeat' first
    | with_reducible assumption
    | with_reducible apply keep_cellTick
    | with_reducible apply keep_presTick
    | with_reducible apply keep_foldl
    | with_reducible apply keep_foldl2
    | with_reducible apply keep_foldl3
    | dsimp only
    | intro _

theorem keep_readHeader {s0 : State} (a0 : Nat) (a1 : Nat) (a2 : Bool) (a3 : Bool) (s : State) (h : Keep s0 s) :
    Keep s0 (readHeader a0 a1 a2 a3 s).2.2 := by
  unfold readHeader
  repeat' first
    | with_reducible assumption
    | with_reducible apply keep_gridRead
    | (with_reducible apply keep_gridRead_e; · with_reducible assumption)
    | split

theorem keep_readHeader_e {s0 : State} {a0 : Nat} {a1 : Nat} {a2 : Bool} {a3 : Bool} {s t : State} {x} {y} (e : readHeader a0 a1 a2 a3 s = (x, y, t)) (h : Keep s0 s) : Keep s0 t := by
  have g := keep_readHeader a0 a1 a2 a3 s h 
  rw [e] at g
  exact g

theorem keep_takeOrder {s0 : State} (a0 : Nat) (a1 : OrderF) (s : State) (h : Keep s0 s) :
    Keep s0 (takeOrder a0 a1 s) := by
  unfold takeOrder
  try extract_lets
  repeat' first
    | with_reducible assumption
    | with_reducible apply keep_State_putCore
    | with_reducible apply keep_readHeader
    | (with_reducible apply keep_readHeader_e; · with_reducible assumption)
    | extract_lets
    | split

theorem keep_doOrder {s0 : State} (a0 : Nat) (a1 : Instr) (a2 : OrderF) (s : State) (h : Keep s0 s) :
    Keep s0 (doOrder a0 a1 a2 s) := by
  unfold doOrder
  repeat' first
    | with_reducible assumption
    | with_reducible apply keep_issueSlot
    | with_reducible apply keep_flagF
    | with_reducible apply keep_takeOrder
    | split
    | dsimp only
    | intro _

theorem keep_execOrder {s0 : State} (a0 : CoreId) (a1 : OrderF) (s : State) (h : Keep s0 s) :
    KeepAll s0 (execOrder a0 a1 s) := by
  unfold execOrder
  repeat' first
    | with_reducible assumption
    | with_reducible apply keep_doOrder
    | with_reducible apply KeepAll.next

theorem keep_presBegin {s0 : State} (a0 : Nat) (a1 : Option Int) (a2 : Bool) (a4 : Nat) (s : State) (h : Keep s0 s) :
    Keep s0 (presBegin a0 a1 a2 s a4) := by
  unfold presBegin
  try extract_lets
  repeat' first
    | with_reducible assumption
    | with_reducible apply keep_flagIf
    | with_reducible apply keep_State_putCore

theorem keep_startPres {s0 : State} (a0 : Nat) (a1 : Nat) (s : State) (h : Keep s0 s) :
    Keep s0 (startPres a0 a1 s) := by
  unfold startPres
  try extract_lets
  repeat' first
    | with_reducible assumption
    | with_reducible apply keep_State_putCore
    | with_reducible apply keep_presBegin
    | extract_lets
    | with_reducible apply keep_foldl
    | with_reducible apply keep_foldl2
    | with_reducible apply keep_foldl3
    | split
    | dsimp only
    | intro _

theorem keep_execGridPresentStart {s0 : State} (a0 : CoreId) (s : State) (h : Keep s0 s) :
    KeepAll s0 (execGridPresentStart a0 s) := by
  unfold execGridPresentStart
  repeat' first
    | with_reducible assumption
    | with_reducible apply keep_startPres
    | with_reducible apply KeepAll.next

theorem keep_drainPiece {s0 : State} (a0 : Nat) (a1 : Drain) (s : State) (h : Keep s0 s) :
    Keep s0 (drainPiece a0 a1 s) := by
  unfold drainPiece
  try extract_lets
  repeat' first
    | with_reducible assumption
    | with_reducible apply keep_regionViol
    | with_reducible apply keep_spadStore
    | with_reducible apply keep_failLaunchAt
    | (with_reducible apply keep_spadStore_e; · with_reducible assumption)
    | extract_lets
    | split

theorem keep_setDrain {s0 : State} (a0 : Nat) (a1 : Drain) (s : State) (h : Keep s0 s) :
    Keep s0 (setDrain a0 a1 s) := by
  unfold setDrain
  try extract_lets
  repeat' first
    | with_reducible assumption
    | with_reducible apply keep_State_putCore
    | extract_lets
    | split

theorem keep_endDrain {s0 : State} (a0 : Nat) (s : State) (h : Keep s0 s) :
    Keep s0 (endDrain a0 s) := by
  unfold endDrain
  try extract_lets
  repeat' first
    | with_reducible assumption
    | with_reducible apply keep_incF
    | with_reducible apply keep_riseFlag
    | with_reducible apply keep_State_putCore
    | extract_lets
    | split

theorem keep_drainStep {s0 : State} (a0 : Nat) (a1 : Nat) (s : State) (h : Keep s0 s) :
    Keep s0 (drainStep a0 a1 s) := by
  unfold drainStep
  try extract_lets
  repeat' first
    | with_reducible assumption
    | with_reducible apply keep_clash
    | with_reducible apply keep_State_putCore
    | with_reducible apply keep_setDrain
    | with_reducible apply keep_drainPiece
    | extract_lets
    | split

theorem keep_drainTick {s0 : State} (a0 : Nat) (a1 : Nat) (s : State) (h : Keep s0 s) :
    Keep s0 (drainTick a0 a1 s) := by
  unfold drainTick
  try extract_lets
  repeat' first
    | with_reducible assumption
    | with_reducible apply keep_drainStep
    | with_reducible apply keep_endDrain
    | extract_lets
    | split

theorem keep_execGridDrain {s0 : State} (a0 : CoreId) (s : State) (h : Keep s0 s) :
    KeepAll s0 (execGridDrain a0 s) := by
  unfold execGridDrain
  repeat' first
    | with_reducible assumption
    | with_reducible apply keep_drainTick
    | with_reducible apply KeepAll.next

theorem keep_gridReads {s0 : State} (a0 : Nat) (a1 : Nat) (s : State) (h : Keep s0 s) :
    Keep s0 (gridReads a0 a1 s) := by
  unfold gridReads
  try dsimp only
  repeat' first
    | with_reducible assumption
    | with_reducible apply keep_Pres_readTo
    | with_reducible apply keep_State_putCore
    | (with_reducible apply keep_Pres_readTo_e; · with_reducible assumption)
    | dsimp only
    | with_reducible apply keep_foldl
    | with_reducible apply keep_foldl2
    | with_reducible apply keep_foldl3
    | split
    | intro _

theorem keep_gridTick {s0 : State} (a0 : Nat) (a1 : Nat) (s : State) (h : Keep s0 s) :
    Keep s0 (gridTick a0 a1 s) := by
  unfold gridTick
  try extract_lets
  repeat' first
    | with_reducible assumption
    | with_reducible apply keep_gridReads
    | with_reducible apply keep_orderTick
    | with_reducible apply keep_State_putCore
    | extract_lets
    | with_reducible apply keep_foldl
    | with_reducible apply keep_foldl2
    | with_reducible apply keep_foldl3
    | split
    | dsimp only
    | intro _

end Sys2Proof.Machine
end

