-- ==== Sys2Proof/Laws/KeepLocalMove.lean ====
section
/-!
SUPPORT. Keeping: the operations of LocalMove.
-/

namespace Sys2Proof.Machine

theorem keep_lmOp {s0 : State} (a0 : Nat) (a1 : Instr) (a2 : State → State) (s : State) (h : Keep s0 s) (h2 : ∀ z, Keep s0 z → Keep s0 (a2 z)) :
    Keep s0 (lmOp a0 a1 a2 s) := by
  unfold lmOp
  try extract_lets
  repeat' first
    | with_reducible assumption
    | with_reducible apply h2
    | with_reducible apply keep_issueSlot
    | with_reducible apply keep_flagF
    | extract_lets
    | split
    | dsimp only
    | intro _

theorem keep_doLdx {s0 : State} (a0 : Nat) (a1 : Instr) (a2 : BitVec 5) (a3 : BitVec 5) (a4 : BitVec 15) (s : State) (h : Keep s0 s) :
    Keep s0 (doLdx a0 a1 a2 a3 a4 s) := by
  unfold doLdx
  try extract_lets
  repeat' first
    | with_reducible assumption
    | with_reducible apply keep_lmOp
    | with_reducible apply keep_schedule
    | extract_lets
    | dsimp only
    | intro _

theorem keep_execLdx {s0 : State} (a0 : CoreId) (a1 : BitVec 5) (a2 : BitVec 5) (a3 : BitVec 15) (s : State) (h : Keep s0 s) :
    KeepAll s0 (execLdx a0 a1 a2 a3 s) := by
  unfold execLdx
  repeat' first
    | with_reducible assumption
    | with_reducible apply keep_doLdx
    | with_reducible apply KeepAll.next

theorem keep_doStx {s0 : State} (a0 : Nat) (a1 : Instr) (a2 : BitVec 5) (a3 : BitVec 5) (a4 : BitVec 15) (s : State) (h : Keep s0 s) :
    Keep s0 (doStx a0 a1 a2 a3 a4 s) := by
  unfold doStx
  try extract_lets
  repeat' first
    | with_reducible assumption
    | with_reducible apply keep_lmOp
    | with_reducible apply keep_schedule
    | extract_lets
    | dsimp only
    | intro _

theorem keep_execStx {s0 : State} (a0 : CoreId) (a1 : BitVec 5) (a2 : BitVec 5) (a3 : BitVec 15) (s : State) (h : Keep s0 s) :
    KeepAll s0 (execStx a0 a1 a2 a3 s) := by
  unfold execStx
  repeat' first
    | with_reducible assumption
    | with_reducible apply keep_doStx
    | with_reducible apply KeepAll.next

theorem keep_lmRun {s0 : State} (a0 : Nat) (a1 : MoveF) (a2 : Nat → List Acc) (s : State) (h : Keep s0 s) :
    Keep s0 (lmRun a0 a1 a2 s) := by
  unfold lmRun
  try extract_lets
  repeat' first
    | with_reducible assumption
    | with_reducible apply keep_schedule
    | with_reducible apply keep_State_putCore
    | with_reducible apply keep_deliver
    | extract_lets
    | split

theorem keep_doCopy {s0 : State} (a0 : Nat) (a1 : Instr) (a2 : MoveF) (s : State) (h : Keep s0 s) :
    Keep s0 (doCopy a0 a1 a2 s) := by
  unfold doCopy
  try extract_lets
  repeat' first
    | with_reducible assumption
    | with_reducible apply keep_lmOp
    | with_reducible apply keep_lmRun
    | extract_lets
    | dsimp only
    | intro _

theorem keep_execCopy {s0 : State} (a0 : CoreId) (a1 : MoveF) (s : State) (h : Keep s0 s) :
    KeepAll s0 (execCopy a0 a1 s) := by
  unfold execCopy
  repeat' first
    | with_reducible assumption
    | with_reducible apply keep_doCopy
    | with_reducible apply KeepAll.next

theorem keep_doFill {s0 : State} (a0 : Nat) (a1 : Instr) (a2 : MoveF) (s : State) (h : Keep s0 s) :
    Keep s0 (doFill a0 a1 a2 s) := by
  unfold doFill
  try extract_lets
  repeat' first
    | with_reducible assumption
    | with_reducible apply keep_lmOp
    | with_reducible apply keep_lmRun
    | extract_lets
    | dsimp only
    | intro _

theorem keep_execFill {s0 : State} (a0 : CoreId) (a1 : MoveF) (s : State) (h : Keep s0 s) :
    KeepAll s0 (execFill a0 a1 s) := by
  unfold execFill
  repeat' first
    | with_reducible assumption
    | with_reducible apply keep_doFill
    | with_reducible apply KeepAll.next

theorem keep_doCsrw {s0 : State} (a0 : Nat) (a1 : Instr) (a2 : BitVec 5) (a3 : BitVec 12) (s : State) (h : Keep s0 s) :
    Keep s0 (doCsrw a0 a1 a2 a3 s) := by
  unfold doCsrw
  repeat' first
    | with_reducible assumption
    | with_reducible apply keep_lmOp
    | with_reducible apply keep_deliver
    | dsimp only
    | intro _

theorem keep_execCsrw {s0 : State} (a0 : CoreId) (a1 : BitVec 5) (a2 : BitVec 12) (s : State) (h : Keep s0 s) :
    KeepAll s0 (execCsrw a0 a1 a2 s) := by
  unfold execCsrw
  repeat' first
    | with_reducible assumption
    | with_reducible apply keep_doCsrw
    | with_reducible apply KeepAll.next

end Sys2Proof.Machine
end

