-- ==== Sys2Proof/Laws/KeepAccess.lean ====
section
/-!
SUPPORT. Keeping: the operations of Access.
-/

namespace Sys2Proof.Machine

theorem keep_loseAcc {s0 : State} (a0 : Nat) (a1 : Acc) (s : State) (h : Keep s0 s) :
    Keep s0 (loseAcc a0 a1 s) := by
  unfold loseAcc
  repeat' first
    | with_reducible assumption
    | with_reducible apply keep_incF
    | with_reducible apply keep_flagF

theorem keep_freeGran {s0 : State} (a0 : Nat) (a1 : Nat) (s : State) (h : Keep s0 s) :
    Keep s0 (freeGran a0 a1 s).2 := by
  unfold freeGran
  try extract_lets
  repeat' first
    | with_reducible assumption
    | with_reducible apply keep_State_takeFree
    | with_reducible apply keep_failLaunchAt
    | with_reducible apply keep_spadConsume

theorem keep_freeGran_e {s0 : State} {a0 : Nat} {a1 : Nat} {s t : State} {x} (e : freeGran a0 a1 s = (x, t)) (h : Keep s0 s) : Keep s0 t := by
  have g := keep_freeGran a0 a1 s h 
  rw [e] at g
  exact g

theorem keep_readGrans {s0 : State} (a0 : Nat) (a1 : Nat) (a2 : Nat) (s : State) (h : Keep s0 s) :
    Keep s0 (readGrans a0 a1 a2 s).2 := by
  induction a2 generalizing s with
  | zero =>
    unfold readGrans
    try dsimp only
    repeat' first
      | with_reducible assumption
  | succ n ih =>
    unfold readGrans
    try dsimp only
    repeat' first
      | with_reducible assumption
      | with_reducible apply ih
      | with_reducible apply keep_spadRead
      | with_reducible apply keep_freeGran
      | (with_reducible apply keep_spadRead_e; · with_reducible assumption)
      | (with_reducible apply keep_freeGran_e; · with_reducible assumption)
      | dsimp only
      | split

theorem keep_readGrans_e {s0 : State} {a0 : Nat} {a1 : Nat} {a2 : Nat} {s t : State} {x} (e : readGrans a0 a1 a2 s = (x, t)) (h : Keep s0 s) : Keep s0 t := by
  have g := keep_readGrans a0 a1 a2 s h 
  rw [e] at g
  exact g

theorem keep_sendInfl {s0 : State} (a0 : Nat) (a1 : Infl) (s : State) (h : Keep s0 s) :
    Keep s0 (sendInfl a0 a1 s) := by
  unfold sendInfl
  try extract_lets
  repeat' first
    | with_reducible assumption
    | with_reducible apply keep_State_putCore

theorem keep_landRead {s0 : State} (a0 : Nat) (a1 : Acc) (a2 : Nat) (s : State) (h : Keep s0 s) :
    Keep s0 (landRead a0 a1 a2 s) := by
  unfold landRead
  repeat' first
    | with_reducible assumption
    | with_reducible apply keep_sendInfl
    | with_reducible apply keep_schedule
    | split

theorem keep_readAcc {s0 : State} (a0 : Nat) (a1 : Acc) (a2 : Bool) (s : State) (h : Keep s0 s) :
    Keep s0 (readAcc a0 a1 a2 s) := by
  unfold readAcc
  try extract_lets
  repeat' first
    | with_reducible assumption
    | with_reducible apply keep_landRead
    | with_reducible apply keep_loseAcc
    | with_reducible apply keep_regionViol
    | with_reducible apply keep_readGrans
    | (with_reducible apply keep_readGrans_e; · with_reducible assumption)
    | extract_lets
    | split

theorem keep_writeAcc {s0 : State} (a0 : Nat) (a1 : Acc) (a2 : Bool) (s : State) (h : Keep s0 s) :
    Keep s0 (writeAcc a0 a1 a2 s) := by
  unfold writeAcc
  try extract_lets
  repeat' first
    | with_reducible assumption
    | with_reducible apply keep_loseAcc
    | with_reducible apply keep_regionViol
    | with_reducible apply keep_spadStore
    | with_reducible apply keep_failLaunchAt
    | (with_reducible apply keep_spadStore_e; · with_reducible assumption)
    | extract_lets
    | split

theorem keep_coreReads {s0 : State} (a0 : Nat) (a1 : Nat) (a2 : Acc → Bool) (s : State) (h : Keep s0 s) :
    Keep s0 (coreReads a0 a1 a2 s) := by
  unfold coreReads
  try extract_lets
  repeat' first
    | with_reducible assumption
    | with_reducible apply keep_State_putCore
    | with_reducible apply keep_readAcc
    | extract_lets
    | with_reducible apply keep_foldl
    | with_reducible apply keep_foldl2
    | with_reducible apply keep_foldl3
    | dsimp only
    | intro _

theorem keep_coreWrites {s0 : State} (a0 : Nat) (a1 : Nat) (a2 : List (Acc × Bool)) (s : State) (h : Keep s0 s) :
    Keep s0 (coreWrites a0 a1 a2 s) := by
  unfold coreWrites
  try extract_lets
  repeat' first
    | with_reducible assumption
    | with_reducible apply keep_State_putCore
    | with_reducible apply keep_writeAcc
    | extract_lets
    | with_reducible apply keep_foldl
    | with_reducible apply keep_foldl2
    | with_reducible apply keep_foldl3
    | dsimp only
    | intro _

theorem keep_readTick {s0 : State} (a0 : Nat) (a1 : Nat) (s : State) (h : Keep s0 s) :
    Keep s0 (readTick a0 a1 s) := by
  unfold readTick
  repeat' first
    | with_reducible assumption
    | with_reducible apply keep_coreReads
    | with_reducible apply keep_gridTick

theorem keep_writeTick {s0 : State} (a0 : Nat) (a1 : Nat) (a2 : List (Acc × Bool)) (s : State) (h : Keep s0 s) :
    Keep s0 (writeTick a0 a1 a2 s) := by
  unfold writeTick
  repeat' first
    | with_reducible assumption
    | with_reducible apply keep_drainTick
    | with_reducible apply keep_coreWrites

end Sys2Proof.Machine
end

