-- ==== Sys2Proof/Laws/KeepMem.lean ====
section
/-!
SUPPORT. Keeping: the operations of Mem.
-/

namespace Sys2Proof.Machine

theorem keep_noteRecent {s0 : State} (a0 : Nat) (a1 : Nat) (a2 : ErrAt) (s : State) (h : Keep s0 s) :
    Keep s0 (noteRecent a0 a1 a2 s) := by
  unfold noteRecent
  try extract_lets
  repeat' first
    | with_reducible assumption
    | with_reducible apply keep_logEvent
    | with_reducible apply keep_State_putStack
    | extract_lets
    | split

theorem keep_memGran {s0 : State} (a0 : Nat) (a1 : Nat) (a2 : Nat) (s : State) (h : Keep s0 s) :
    Keep s0 (memGran a0 a1 a2 s).2 := by
  unfold memGran
  try extract_lets
  repeat' first
    | with_reducible assumption
    | with_reducible apply keep_noteRecent
    | with_reducible apply keep_ceReport
    | with_reducible apply keep_incF
    | with_reducible apply keep_State_putStack
    | extract_lets
    | split

theorem keep_memGran_e {s0 : State} {a0 : Nat} {a1 : Nat} {a2 : Nat} {s t : State} {x} (e : memGran a0 a1 a2 s = (x, t)) (h : Keep s0 s) : Keep s0 t := by
  have g := keep_memGran a0 a1 a2 s h 
  rw [e] at g
  exact g

theorem keep_memConsume {s0 : State} (a0 : Nat) (a1 : Nat) (a2 : Nat) (a3 : Who) (s : State) (h : Keep s0 s) :
    Keep s0 (memConsume a0 a1 a2 a3 s) := by
  unfold memConsume
  try extract_lets
  repeat' first
    | with_reducible assumption
    | with_reducible apply keep_ueConsume
    | with_reducible apply keep_flagF
    | with_reducible apply keep_failLaunch
    | extract_lets
    | split

theorem keep_memGrans {s0 : State} (a0 : Nat) (a1 : Nat) (a2 : Nat) (a3 : Who) (a4 : Nat) (s : State) (h : Keep s0 s) :
    Keep s0 (memGrans a0 a1 a2 a3 a4 s).2.2 := by
  induction a4 generalizing s with
  | zero =>
    unfold memGrans
    try extract_lets
    repeat' first
      | with_reducible assumption
  | succ n ih =>
    unfold memGrans
    try extract_lets
    repeat' first
      | with_reducible assumption
      | with_reducible apply ih
      | with_reducible apply keep_memGran
      | with_reducible apply keep_memConsume
      | (with_reducible apply keep_memGran_e; · with_reducible assumption)
      | extract_lets
      | split

theorem keep_memGrans_e {s0 : State} {a0 : Nat} {a1 : Nat} {a2 : Nat} {a3 : Who} {a4 : Nat} {s t : State} {x} {y} (e : memGrans a0 a1 a2 a3 a4 s = (x, y, t)) (h : Keep s0 s) : Keep s0 t := by
  have g := keep_memGrans a0 a1 a2 a3 a4 s h 
  rw [e] at g
  exact g

theorem keep_memRead {s0 : State} (a0 : Nat) (a1 : Nat) (a2 : Nat) (a3 : Who) (a4 : Nat) (s : State) (h : Keep s0 s) :
    Keep s0 (memRead a0 a1 a2 a3 a4 s).2 := by
  unfold memRead
  try extract_lets
  repeat' first
    | with_reducible assumption
    | with_reducible apply keep_memGrans

theorem keep_memRead_e {s0 : State} {a0 : Nat} {a1 : Nat} {a2 : Nat} {a3 : Who} {a4 : Nat} {s t : State} {x} (e : memRead a0 a1 a2 a3 a4 s = (x, t)) (h : Keep s0 s) : Keep s0 t := by
  have g := keep_memRead a0 a1 a2 a3 a4 s h 
  rw [e] at g
  exact g

theorem keep_memWriteGran {s0 : State} (a0 : Nat) (a1 : Nat) (a2 : Nat) (a3 : Nat) (a4 : Nat) (s : State) (h : Keep s0 s) :
    Keep s0 (memWriteGran a0 a1 a2 a3 a4 s) := by
  unfold memWriteGran
  try extract_lets
  repeat' first
    | with_reducible assumption
    | with_reducible apply keep_writePattern
    | with_reducible apply keep_State_putStack
    | (with_reducible apply keep_writePattern_e; · with_reducible assumption)
    | extract_lets
    | split
    | dsimp only
    | with_reducible exact id
    | with_reducible exact swf_sput _ _ _ _
    | with_reducible exact mwf_sput _ _ _
    | with_reducible exact mwf_putBytes _ _ _ _ _
    | with_reducible exact mwf_filter _ _
    | with_reducible exact swf_filter _ _ _
    | with_reducible exact swf_smap _ _ _
    | with_reducible exact log_take _ _
    | with_reducible exact fun g => mwf_putBytes _ _ _ _ _ (mwf_putBytes _ _ _ _ _ g)
    | with_reducible apply Keep.upd
    | with_reducible apply Keep.all

theorem keep_memStoreGran {s0 : State} (a0 : Nat) (a1 : Nat) (a2 : Nat) (a3 : Who) (a4 : Nat) (a5 : Nat) (a6 : Nat) (a7 : Nat) (a8 : State) (s : State) (h : Keep s0 s) :
    Keep s0 (memStoreGran a0 a1 a2 a3 a4 a5 a6 a7 a8 s) := by
  unfold memStoreGran
  repeat' first
    | with_reducible assumption
    | with_reducible apply keep_memConsume
    | with_reducible apply keep_memWriteGran
    | split

theorem keep_memStore {s0 : State} (a0 : Nat) (a1 : Nat) (a2 : Nat) (a3 : Who) (a4 : Nat) (a5 : Nat) (a6 : Nat) (s : State) (h : Keep s0 s) :
    Keep s0 (memStore a0 a1 a2 a3 a4 a5 a6 s).2 := by
  unfold memStore
  repeat' first
    | with_reducible assumption
    | with_reducible apply keep_memStoreGran
    | with_reducible apply keep_foldl
    | with_reducible apply keep_foldl2
    | with_reducible apply keep_foldl3
    | dsimp only
    | intro _

theorem keep_memStore_e {s0 : State} {a0 : Nat} {a1 : Nat} {a2 : Nat} {a3 : Who} {a4 : Nat} {a5 : Nat} {a6 : Nat} {s t : State} {x} (e : memStore a0 a1 a2 a3 a4 a5 a6 s = (x, t)) (h : Keep s0 s) : Keep s0 t := by
  have g := keep_memStore a0 a1 a2 a3 a4 a5 a6 s h 
  rw [e] at g
  exact g

theorem keep_countRow {s0 : State} (a0 : Home) (s : State) (h : Keep s0 s) :
    Keep s0 (countRow a0 s) := by
  unfold countRow
  try extract_lets
  repeat' first
    | with_reducible assumption
    | with_reducible apply keep_incF
    | with_reducible apply keep_State_putStack
    | extract_lets
    | split

theorem keep_homeRead {s0 : State} (a0 : Home) (a1 : Nat) (a2 : Who) (a3 : Nat) (s : State) (h : Keep s0 s) :
    Keep s0 (homeRead a0 a1 a2 a3 s).2 := by
  unfold homeRead
  try extract_lets
  repeat' first
    | with_reducible assumption
    | with_reducible apply keep_memRead
    | with_reducible apply keep_incF
    | with_reducible apply keep_countRow

theorem keep_homeRead_e {s0 : State} {a0 : Home} {a1 : Nat} {a2 : Who} {a3 : Nat} {s t : State} {x} (e : homeRead a0 a1 a2 a3 s = (x, t)) (h : Keep s0 s) : Keep s0 t := by
  have g := keep_homeRead a0 a1 a2 a3 s h 
  rw [e] at g
  exact g

theorem keep_homeWrite {s0 : State} (a0 : Home) (a1 : Nat) (a2 : Who) (a3 : Nat) (a4 : Nat) (a5 : Nat) (s : State) (h : Keep s0 s) :
    Keep s0 (homeWrite a0 a1 a2 a3 a4 a5 s).2 := by
  unfold homeWrite
  try extract_lets
  repeat' first
    | with_reducible assumption
    | with_reducible apply keep_memStore
    | with_reducible apply keep_incF

theorem keep_homeWrite_e {s0 : State} {a0 : Home} {a1 : Nat} {a2 : Who} {a3 : Nat} {a4 : Nat} {a5 : Nat} {s t : State} {x} (e : homeWrite a0 a1 a2 a3 a4 a5 s = (x, t)) (h : Keep s0 s) : Keep s0 t := by
  have g := keep_homeWrite a0 a1 a2 a3 a4 a5 s h 
  rw [e] at g
  exact g

theorem keep_homeAtomic {s0 : State} (a0 : Home) (a1 : Nat) (a2 : Who) (a3 : Atom) (s : State) (h : Keep s0 s) :
    Keep s0 (homeAtomic a0 a1 a2 a3 s).2 := by
  unfold homeAtomic
  try extract_lets
  repeat' first
    | with_reducible assumption
    | with_reducible apply keep_memRead
    | with_reducible apply keep_countRow
    | with_reducible apply keep_homeWrite
    | with_reducible apply keep_incF
    | (with_reducible apply keep_memRead_e; · with_reducible assumption)
    | (with_reducible apply keep_homeWrite_e; · with_reducible assumption)
    | extract_lets
    | split

theorem keep_homeAtomic_e {s0 : State} {a0 : Home} {a1 : Nat} {a2 : Who} {a3 : Atom} {s t : State} {x} (e : homeAtomic a0 a1 a2 a3 s = (x, t)) (h : Keep s0 s) : Keep s0 t := by
  have g := keep_homeAtomic a0 a1 a2 a3 s h 
  rw [e] at g
  exact g

end Sys2Proof.Machine
end

