-- ==== Sys2Proof/Laws/KeepRoute.lean ====
section
/-!
SUPPORT. Keeping: the operations of Route.
-/

namespace Sys2Proof.Machine

theorem keep_writeRoutes {s0 : State}  (s : State) (h : Keep s0 s) :
    Keep s0 (writeRoutes s) := by
  unfold writeRoutes
  try extract_lets
  repeat' first
    | with_reducible assumption
    | extract_lets
    | dsimp only
    | with_reducible apply Keep.upd

end Sys2Proof.Machine
end

