-- ==== Sys2Proof/Laws/KeepNet.lean ====
section
/-!
SUPPORT. Keeping: the operations of Net.
-/

namespace Sys2Proof.Machine

theorem keep_netPut {s0 : State} (a0 : Req) (s : State) (h : Keep s0 s) :
    Keep s0 (netPut a0 s) := by
  unfold netPut
  try extract_lets
  repeat' first
    | with_reducible assumption
    | extract_lets
    | split
    | dsimp only
    | with_reducible apply Keep.upd

theorem keep_netDel {s0 : State} (a0 : Nat) (s : State) (h : Keep s0 s) :
    Keep s0 (netDel a0 s) := by
  unfold netDel
  try extract_lets
  repeat' first
    | with_reducible assumption
    | extract_lets
    | dsimp only
    | with_reducible apply Keep.upd

theorem keep_putTx {s0 : State} (a0 : E2eTx) (s : State) (h : Keep s0 s) :
    Keep s0 (putTx a0 s) := by
  unfold putTx
  try extract_lets
  repeat' first
    | with_reducible assumption
    | extract_lets
    | dsimp only
    | with_reducible apply Keep.upd

theorem keep_divert {s0 : State} (a0 : Diverted) (s : State) (h : Keep s0 s) :
    Keep s0 (divert a0 s) := by
  unfold divert
  try extract_lets
  repeat' first
    | with_reducible assumption
    | extract_lets
    | dsimp only
    | with_reducible apply Keep.upd

theorem keep_sendMsg {s0 : State} (a0 : Src) (a1 : Nat) (a2 : Nat) (a3 : Bool) (s : State) (h : Keep s0 s) :
    Keep s0 (sendMsg a0 a1 a2 a3 s) := by
  unfold sendMsg
  try extract_lets
  repeat' first
    | with_reducible assumption
    | with_reducible apply keep_divert
    | with_reducible apply keep_putTx
    | extract_lets
    | split

theorem keep_markLink {s0 : State} (a0 : List Nat) (s : State) (h : Keep s0 s) :
    Keep s0 (markLink a0 s) := by
  unfold markLink
  try extract_lets
  repeat' first
    | with_reducible assumption
    | extract_lets
    | split
    | dsimp only
    | with_reducible apply Keep.upd

theorem keep_groupsChanged {s0 : State}  (s : State) (h : Keep s0 s) :
    Keep s0 (groupsChanged s) := by
  unfold groupsChanged
  try extract_lets
  repeat' first
    | with_reducible assumption
    | with_reducible apply keep_markLink
    | extract_lets
    | with_reducible apply keep_foldl
    | with_reducible apply keep_foldl2
    | with_reducible apply keep_foldl3
    | split
    | dsimp only
    | intro _
    | with_reducible apply Keep.upd

theorem keep_depart {s0 : State} (a0 : Req) (s : State) (h : Keep s0 s) :
    Keep s0 (depart a0 s).2 := by
  unfold depart
  try extract_lets
  repeat' first
    | with_reducible assumption
    | with_reducible apply keep_sendMsg
    | extract_lets
    | split
    | dsimp only
    | with_reducible apply Keep.upd

theorem keep_depart_e {s0 : State} {a0 : Req} {s t : State} {x} (e : depart a0 s = (x, t)) (h : Keep s0 s) : Keep s0 t := by
  have g := keep_depart a0 s h 
  rw [e] at g
  exact g

theorem keep_postAs {s0 : State} (a0 : Nat) (a1 : Src) (a2 : Who) (a3 : Nat) (a4 : Nat) (a5 : Bool) (a6 : BitVec 1024) (a7 : BitVec 128) (a8 : Option Atom) (a9 : BitVec 32) (a10 : BitVec 16) (s : State) (h : Keep s0 s) :
    Keep s0 (postAs a0 a1 a2 a3 a4 a5 a6 a7 a8 a9 a10 s) := by
  unfold postAs
  try extract_lets
  repeat' first
    | with_reducible assumption
    | with_reducible apply keep_depart
    | (with_reducible apply keep_depart_e; · with_reducible assumption)
    | extract_lets
    | dsimp only
    | with_reducible apply Keep.upd

theorem keep_post {s0 : State} (a0 : Src) (a1 : Who) (a2 : Nat) (a3 : Nat) (a4 : Bool) (a5 : BitVec 1024) (a6 : BitVec 128) (a7 : Option Atom) (a8 : BitVec 32) (a9 : BitVec 16) (s : State) (h : Keep s0 s) :
    Keep s0 (post a0 a1 a2 a3 a4 a5 a6 a7 a8 a9 s).2 := by
  unfold post
  try extract_lets
  repeat' first
    | with_reducible assumption
    | with_reducible apply keep_State_takeId
    | with_reducible apply keep_postAs

theorem keep_post_e {s0 : State} {a0 : Src} {a1 : Who} {a2 : Nat} {a3 : Nat} {a4 : Bool} {a5 : BitVec 1024} {a6 : BitVec 128} {a7 : Option Atom} {a8 : BitVec 32} {a9 : BitVec 16} {s t : State} {x} (e : post a0 a1 a2 a3 a4 a5 a6 a7 a8 a9 s = (x, t)) (h : Keep s0 s) : Keep s0 t := by
  have g := keep_post a0 a1 a2 a3 a4 a5 a6 a7 a8 a9 s h 
  rw [e] at g
  exact g

theorem keep_answer {s0 : State} (a0 : Req) (a1 : Status) (a2 : BitVec 1024) (s : State) (h : Keep s0 s) :
    Keep s0 (answer a0 a1 a2 s) := by
  unfold answer
  try extract_lets
  repeat' first
    | with_reducible assumption
    | with_reducible apply keep_netPut

theorem keep_dropCopy {s0 : State} (a0 : Req) (s : State) (h : Keep s0 s) :
    Keep s0 (dropCopy a0 s) := by
  unfold dropCopy
  try extract_lets
  repeat' first
    | with_reducible assumption
    | with_reducible apply keep_netPut
    | extract_lets
    | split

theorem keep_hostError {s0 : State} (a0 : Nat) (a1 : Nat) (a2 : Status) (s : State) (h : Keep s0 s) :
    Keep s0 (hostError a0 a1 a2 s) := by
  unfold hostError
  try dsimp only
  repeat' first
    | with_reducible assumption
    | with_reducible apply keep_flagF
    | with_reducible apply keep_setF
    | with_reducible apply keep_eventIrq
    | with_reducible apply keep_incF
    | dsimp only
    | split

theorem keep_complete {s0 : State} (a0 : Req) (a1 : Status) (a2 : BitVec 1024) (s : State) (h : Keep s0 s) :
    Keep s0 (complete a0 a1 a2 s) := by
  unfold complete
  try extract_lets
  repeat' first
    | with_reducible assumption
    | with_reducible apply keep_netDel
    | with_reducible apply keep_answer
    | with_reducible apply keep_respond
    | with_reducible apply keep_hostError
    | extract_lets
    | split

theorem keep_disown {s0 : State} (a0 : Req → Bool) (s : State) (h : Keep s0 s) :
    Keep s0 (disown a0 s) := by
  unfold disown
  try extract_lets
  repeat' first
    | with_reducible assumption
    | extract_lets
    | split
    | dsimp only
    | with_reducible apply Keep.upd

theorem keep_sendOn {s0 : State} (a0 : Req) (a1 : Nat) (s : State) (h : Keep s0 s) :
    Keep s0 (sendOn a0 a1 s) := by
  unfold sendOn
  try extract_lets
  repeat' first
    | with_reducible assumption
    | with_reducible apply keep_depart
    | with_reducible apply keep_netPut
    | with_reducible apply keep_complete
    | (with_reducible apply keep_depart_e; · with_reducible assumption)
    | extract_lets
    | split

theorem keep_releaseOne {s0 : State} (a0 : Nat) (s : State) (h : Keep s0 s) :
    Keep s0 (releaseOne a0 s) := by
  unfold releaseOne
  repeat' first
    | with_reducible assumption
    | with_reducible apply keep_sendOn
    | split

theorem keep_releaseHeld {s0 : State}  (s : State) (h : Keep s0 s) :
    Keep s0 (releaseHeld s) := by
  unfold releaseHeld
  repeat' first
    | with_reducible assumption
    | with_reducible apply keep_releaseOne
    | with_reducible apply keep_foldl
    | with_reducible apply keep_foldl2
    | with_reducible apply keep_foldl3
    | split
    | dsimp only
    | intro _

end Sys2Proof.Machine
end

