-- ==== Sys2Proof/Laws/KeepBus.lean ====
section
/-!
SUPPORT. Keeping: the operations of Bus.
-/

namespace Sys2Proof.Machine

theorem keep_ask {s0 : State} (a0 : Src) (a1 : Nat) (a2 : Who) (a3 : Nat) (a4 : Nat) (s : State) (h : Keep s0 s) :
    Keep s0 (ask a0 a1 a2 a3 a4 s).2 := by
  unfold ask
  repeat' first
    | with_reducible assumption
    | with_reducible apply keep_post
    | (with_reducible apply keep_post_e; · with_reducible assumption)
    | split

theorem keep_ask_e {s0 : State} {a0 : Src} {a1 : Nat} {a2 : Who} {a3 : Nat} {a4 : Nat} {s t : State} {x} (e : ask a0 a1 a2 a3 a4 s = (x, t)) (h : Keep s0 s) : Keep s0 t := by
  have g := keep_ask a0 a1 a2 a3 a4 s h 
  rw [e] at g
  exact g

theorem keep_tell {s0 : State} (a0 : Src) (a1 : Nat) (a2 : Who) (a3 : Nat) (a4 : Nat) (a5 : Nat) (a6 : Nat) (s : State) (h : Keep s0 s) :
    Keep s0 (tell a0 a1 a2 a3 a4 a5 a6 s).2 := by
  unfold tell
  repeat' first
    | with_reducible assumption
    | with_reducible apply keep_post
    | (with_reducible apply keep_post_e; · with_reducible assumption)
    | split

theorem keep_tell_e {s0 : State} {a0 : Src} {a1 : Nat} {a2 : Who} {a3 : Nat} {a4 : Nat} {a5 : Nat} {a6 : Nat} {s t : State} {x} (e : tell a0 a1 a2 a3 a4 a5 a6 s = (x, t)) (h : Keep s0 s) : Keep s0 t := by
  have g := keep_tell a0 a1 a2 a3 a4 a5 a6 s h 
  rw [e] at g
  exact g

theorem keep_askDone {s0 : State} (a0 : Src) (a1 : Nat) (s : State) (h : Keep s0 s) :
    Keep s0 (askDone a0 a1 s) := by
  unfold askDone
  try extract_lets
  repeat' first
    | with_reducible assumption
    | extract_lets
    | dsimp only
    | with_reducible apply Keep.upd

theorem keep_busRead {s0 : State} (a0 : Src) (a1 : Nat) (a2 : Who) (a3 : Nat) (a4 : Nat) (s : State) (h : Keep s0 s) :
    Keep s0 (busRead a0 a1 a2 a3 a4 s).2 := by
  unfold busRead
  repeat' first
    | with_reducible assumption
    | with_reducible apply keep_ask
    | (with_reducible apply keep_ask_e; · with_reducible assumption)
    | split

theorem keep_busRead_e {s0 : State} {a0 : Src} {a1 : Nat} {a2 : Who} {a3 : Nat} {a4 : Nat} {s t : State} {x} (e : busRead a0 a1 a2 a3 a4 s = (x, t)) (h : Keep s0 s) : Keep s0 t := by
  have g := keep_busRead a0 a1 a2 a3 a4 s h 
  rw [e] at g
  exact g

theorem keep_busWrite {s0 : State} (a0 : Src) (a1 : Nat) (a2 : Who) (a3 : Nat) (a4 : Nat) (a5 : Nat) (a6 : Nat) (s : State) (h : Keep s0 s) :
    Keep s0 (busWrite a0 a1 a2 a3 a4 a5 a6 s).2 := by
  unfold busWrite
  repeat' first
    | with_reducible assumption
    | with_reducible apply keep_tell
    | (with_reducible apply keep_tell_e; · with_reducible assumption)
    | split

theorem keep_busWrite_e {s0 : State} {a0 : Src} {a1 : Nat} {a2 : Who} {a3 : Nat} {a4 : Nat} {a5 : Nat} {a6 : Nat} {s t : State} {x} (e : busWrite a0 a1 a2 a3 a4 a5 a6 s = (x, t)) (h : Keep s0 s) : Keep s0 t := by
  have g := keep_busWrite a0 a1 a2 a3 a4 a5 a6 s h 
  rw [e] at g
  exact g

theorem keep_busReadRange {s0 : State} (a0 : Src) (a1 : Nat) (a2 : Who) (a3 : Nat) (a4 : Nat) (s : State) (h : Keep s0 s) :
    Keep s0 (busReadRange a0 a1 a2 a3 a4 s).2 := by
  unfold busReadRange
  try extract_lets
  repeat' first
    | with_reducible assumption
    | with_reducible apply keep_busRead
    | (with_reducible apply keep_busRead_e; · with_reducible assumption)
    | extract_lets
    | with_reducible apply keep_foldl
    | with_reducible apply keep_foldl2
    | with_reducible apply keep_foldl3
    | dsimp only
    | intro _

theorem keep_busReadRange_e {s0 : State} {a0 : Src} {a1 : Nat} {a2 : Who} {a3 : Nat} {a4 : Nat} {s t : State} {x} (e : busReadRange a0 a1 a2 a3 a4 s = (x, t)) (h : Keep s0 s) : Keep s0 t := by
  have g := keep_busReadRange a0 a1 a2 a3 a4 s h 
  rw [e] at g
  exact g

theorem keep_busWriteRange {s0 : State} (a0 : Src) (a1 : Nat) (a2 : Who) (a3 : Nat) (a4 : Nat) (a5 : Nat) (s : State) (h : Keep s0 s) :
    Keep s0 (busWriteRange a0 a1 a2 a3 a4 a5 s).2 := by
  unfold busWriteRange
  try extract_lets
  repeat' first
    | with_reducible assumption
    | with_reducible apply keep_busWrite
    | (with_reducible apply keep_busWrite_e; · with_reducible assumption)
    | extract_lets
    | with_reducible apply keep_foldl
    | with_reducible apply keep_foldl2
    | with_reducible apply keep_foldl3
    | dsimp only
    | intro _

theorem keep_busWriteRange_e {s0 : State} {a0 : Src} {a1 : Nat} {a2 : Who} {a3 : Nat} {a4 : Nat} {a5 : Nat} {s t : State} {x} (e : busWriteRange a0 a1 a2 a3 a4 a5 s = (x, t)) (h : Keep s0 s) : Keep s0 t := by
  have g := keep_busWriteRange a0 a1 a2 a3 a4 a5 s h 
  rw [e] at g
  exact g

end Sys2Proof.Machine
end

