-- ==== Sys2Proof/Laws/KeepRings.lean ====
section
/-!
SUPPORT. Keeping: the operations of Rings.
-/

namespace Sys2Proof.Machine

theorem keep_State_putRing {s0 : State} (s : State) (c : Nat) (k : Ring) (h : Keep s0 s) : Keep s0 (s.putRing c k) :=
  h.rings _ (swf_sput _ _ _ _)

theorem keep_storeAdvance {s0 : State} (a0 : Nat) (s : State) (h : Keep s0 s) :
    Keep s0 (storeAdvance a0 s) := by
  unfold storeAdvance
  repeat' first
    | with_reducible assumption
    | with_reducible apply keep_irq
    | with_reducible apply keep_setF

theorem keep_sendReport {s0 : State} (a0 : Nat) (a1 : Nat) (a2 : Status) (a3 : Nat) (a4 : Nat) (s : State) (h : Keep s0 s) :
    Keep s0 (sendReport a0 a1 a2 a3 a4 s) := by
  unfold sendReport
  try extract_lets
  repeat' first
    | with_reducible assumption
    | with_reducible apply keep_State_putRing

theorem keep_flood {s0 : State} (a0 : Flood) (s : State) (h : Keep s0 s) :
    Keep s0 (flood a0 s) := by
  unfold flood
  try extract_lets
  repeat' first
    | with_reducible assumption
    | extract_lets
    | dsimp only
    | with_reducible apply Keep.upd

theorem keep_forgetReady {s0 : State} (a0 : BitVec 512) (s : State) (h : Keep s0 s) :
    Keep s0 (forgetReady a0 s) := by
  unfold forgetReady
  try extract_lets
  repeat' first
    | with_reducible assumption
    | extract_lets
    | dsimp only
    | with_reducible apply Keep.upd

end Sys2Proof.Machine
end

