-- ==== Sys2Proof/Laws/KeepHalene.lean ====
section
/-!
SUPPORT. Keeping: the operations of Halene.
-/

namespace Sys2Proof.Machine

theorem keep_State_putPort {s0 : State} (s : State) (c : Nat) (k : Port) (h : Keep s0 s) : Keep s0 (s.putPort c k) :=
  h.ports _ (swf_sput _ _ _ _)

theorem keep_setPort {s0 : State} (a0 : Nat) (a1 : Nat) (a2 : Nat) (s : State) (h : Keep s0 s) :
    Keep s0 (setPort a0 a1 a2 s) := by
  unfold setPort
  repeat' first
    | with_reducible assumption
    | with_reducible apply keep_setF

theorem keep_startTrain {s0 : State} (a0 : Nat) (s : State) (h : Keep s0 s) :
    Keep s0 (startTrain a0 s) := by
  unfold startTrain
  repeat' first
    | with_reducible assumption
    | with_reducible apply keep_setPort
    | split

theorem keep_portDown {s0 : State} (a0 : Nat) (a1 : Nat) (s : State) (h : Keep s0 s) :
    Keep s0 (portDown a0 a1 s) := by
  unfold portDown
  try extract_lets
  repeat' first
    | with_reducible assumption
    | with_reducible apply keep_State_putPort
    | with_reducible apply keep_setPort
    | with_reducible apply keep_setF
    | with_reducible apply keep_groupsChanged
    | extract_lets
    | split

theorem keep_laserSettle {s0 : State} (a0 : Nat) (s : State) (h : Keep s0 s) :
    Keep s0 (laserSettle a0 s) := by
  unfold laserSettle
  repeat' first
    | with_reducible assumption
    | with_reducible apply keep_startTrain
    | with_reducible apply keep_portDown
    | with_reducible apply keep_foldl
    | with_reducible apply keep_foldl2
    | with_reducible apply keep_foldl3
    | split
    | dsimp only
    | intro _

theorem keep_laserRead {s0 : State} (a0 : Nat) (a1 : Nat) (a2 : Nat) (a3 : Nat) (s : State) (h : Keep s0 s) :
    Keep s0 (laserRead a0 a1 a2 a3 s) := by
  unfold laserRead
  try extract_lets
  repeat' first
    | with_reducible assumption
    | with_reducible apply keep_setF

theorem keep_laserEvent {s0 : State} (a0 : Nat) (a1 : LaserEvent) (s : State) (h : Keep s0 s) :
    Keep s0 (laserEvent a0 a1 s) := by
  unfold laserEvent
  try extract_lets
  repeat' first
    | with_reducible assumption
    | with_reducible apply keep_laserSettle
    | with_reducible apply keep_laserRead
    | with_reducible apply keep_setF
    | extract_lets
    | split

theorem keep_execLaserEvent {s0 : State} (a0 : Fin 4) (a1 : LaserEvent) (s : State) (h : Keep s0 s) :
    KeepAll s0 (execLaserEvent a0 a1 s) := by
  unfold execLaserEvent
  repeat' first
    | with_reducible assumption
    | with_reducible apply keep_laserEvent
    | with_reducible apply KeepAll.next

theorem keep_bypassBusy {s0 : State} (a0 : Nat) (s : State) (h : Keep s0 s) :
    Keep s0 (bypassBusy a0 s) := by
  unfold bypassBusy
  repeat' first
    | with_reducible assumption
    | with_reducible apply keep_setF

theorem keep_bypassSwitch {s0 : State} (a0 : Nat) (a1 : Bool) (s : State) (h : Keep s0 s) :
    Keep s0 (bypassSwitch a0 a1 s) := by
  unfold bypassSwitch
  try extract_lets
  repeat' first
    | with_reducible assumption
    | with_reducible apply keep_portDown
    | with_reducible apply keep_bypassBusy
    | extract_lets
    | split
    | dsimp only
    | with_reducible apply Keep.upd

theorem keep_execBypassClose {s0 : State} (a0 : Fin 8) (s : State) (h : Keep s0 s) :
    KeepAll s0 (execBypassClose a0 s) := by
  unfold execBypassClose
  repeat' first
    | with_reducible assumption
    | with_reducible apply keep_bypassSwitch
    | with_reducible apply KeepAll.next

theorem keep_bypassOpen {s0 : State} (a0 : Nat) (s : State) (h : Keep s0 s) :
    Keep s0 (bypassOpen a0 s) := by
  unfold bypassOpen
  repeat' first
    | with_reducible assumption
    | with_reducible apply keep_bypassSwitch
    | split

theorem keep_execBypassOpen {s0 : State} (a0 : Fin 8) (s : State) (h : Keep s0 s) :
    KeepAll s0 (execBypassOpen a0 s) := by
  unfold execBypassOpen
  repeat' first
    | with_reducible assumption
    | with_reducible apply keep_bypassOpen
    | with_reducible apply KeepAll.next

theorem keep_settlePort {s0 : State} (a0 : Nat) (a1 : Bool) (s : State) (h : Keep s0 s) :
    Keep s0 (settlePort a0 a1 s) := by
  unfold settlePort
  repeat' first
    | with_reducible assumption
    | with_reducible apply keep_startTrain
    | with_reducible apply keep_setPort
    | split

theorem keep_bypassAt {s0 : State} (a0 : Nat) (a1 : Bool) (s : State) (h : Keep s0 s) :
    Keep s0 (bypassAt a0 a1 s) := by
  unfold bypassAt
  try extract_lets
  repeat' first
    | with_reducible assumption
    | with_reducible apply keep_setF
    | with_reducible apply keep_bypassBusy
    | with_reducible apply keep_settlePort
    | extract_lets
    | split
    | dsimp only
    | with_reducible apply Keep.upd

theorem keep_bypassDone {s0 : State} (a0 : Nat) (s : State) (h : Keep s0 s) :
    Keep s0 (bypassDone a0 s) := by
  unfold bypassDone
  repeat' first
    | with_reducible assumption
    | with_reducible apply keep_bypassAt
    | split

theorem keep_execBypassSwitchDone {s0 : State} (a0 : Fin 8) (s : State) (h : Keep s0 s) :
    KeepAll s0 (execBypassSwitchDone a0 s) := by
  unfold execBypassSwitchDone
  repeat' first
    | with_reducible assumption
    | with_reducible apply keep_bypassDone
    | with_reducible apply KeepAll.next

theorem keep_closePairs {s0 : State}  (s : State) (h : Keep s0 s) :
    Keep s0 (closePairs s) := by
  unfold closePairs
  repeat' first
    | with_reducible assumption
    | with_reducible apply keep_bypassAt
    | with_reducible apply keep_foldl
    | with_reducible apply keep_foldl2
    | with_reducible apply keep_foldl3
    | dsimp only
    | intro _

theorem keep_portUp {s0 : State} (a0 : Nat) (a1 : Nat) (a2 : Nat) (a3 : Nat) (s : State) (h : Keep s0 s) :
    Keep s0 (portUp a0 a1 a2 a3 s) := by
  unfold portUp
  try extract_lets
  repeat' first
    | with_reducible assumption
    | with_reducible apply keep_State_putPort
    | with_reducible apply keep_setF
    | with_reducible apply keep_groupsChanged
    | with_reducible apply keep_setPort

theorem keep_portTrain {s0 : State} (a0 : Nat) (a1 : PortTrain) (s : State) (h : Keep s0 s) :
    Keep s0 (portTrain a0 a1 s) := by
  unfold portTrain
  repeat' first
    | with_reducible assumption
    | with_reducible apply keep_portUp
    | with_reducible apply keep_portDown
    | split

theorem keep_execPortTrain {s0 : State} (a0 : PortId) (a1 : PortTrain) (s : State) (h : Keep s0 s) :
    KeepAll s0 (execPortTrain a0 a1 s) := by
  unfold execPortTrain
  repeat' first
    | with_reducible assumption
    | with_reducible apply keep_portTrain
    | with_reducible apply KeepAll.next

theorem keep_logLinkDown {s0 : State} (a0 : Nat) (s : State) (h : Keep s0 s) :
    Keep s0 (logLinkDown a0 s) := by
  unfold logLinkDown
  repeat' first
    | with_reducible assumption
    | with_reducible apply keep_logEvent

theorem keep_portErrors {s0 : State} (a0 : Nat) (s : State) (h : Keep s0 s) :
    Keep s0 (portErrors a0 s) := by
  unfold portErrors
  try extract_lets
  repeat' first
    | with_reducible assumption
    | with_reducible apply keep_portDown
    | with_reducible apply keep_logLinkDown
    | with_reducible apply keep_State_putPort
    | with_reducible apply keep_setPort
    | extract_lets
    | split

theorem keep_portFail {s0 : State} (a0 : Nat) (a1 : PortFail) (s : State) (h : Keep s0 s) :
    Keep s0 (portFail a0 a1 s) := by
  unfold portFail
  try extract_lets
  repeat' first
    | with_reducible assumption
    | with_reducible apply keep_portErrors
    | with_reducible apply keep_portDown
    | extract_lets
    | split

theorem keep_execPortDown {s0 : State} (a0 : PortId) (a1 : PortFail) (s : State) (h : Keep s0 s) :
    KeepAll s0 (execPortDown a0 a1 s) := by
  unfold execPortDown
  repeat' first
    | with_reducible assumption
    | with_reducible apply keep_portFail
    | with_reducible apply KeepAll.next

theorem keep_portRetrain {s0 : State} (a0 : Nat) (s : State) (h : Keep s0 s) :
    Keep s0 (portRetrain a0 s) := by
  unfold portRetrain
  repeat' first
    | with_reducible assumption
    | with_reducible apply keep_portDown
    | split

theorem keep_execRetrain {s0 : State} (a0 : PortId) (s : State) (h : Keep s0 s) :
    KeepAll s0 (execRetrain a0 s) := by
  unfold execRetrain
  repeat' first
    | with_reducible assumption
    | with_reducible apply keep_portRetrain
    | with_reducible apply KeepAll.next

theorem keep_clearRetired {s0 : State} (a0 : Nat) (s : State) (h : Keep s0 s) :
    Keep s0 (clearRetired a0 s) := by
  unfold clearRetired
  try extract_lets
  repeat' first
    | with_reducible assumption
    | with_reducible apply keep_State_putPort
    | with_reducible apply keep_portDown
    | extract_lets
    | split

theorem keep_execClearRetired {s0 : State} (a0 : PortId) (s : State) (h : Keep s0 s) :
    KeepAll s0 (execClearRetired a0 s) := by
  unfold execClearRetired
  repeat' first
    | with_reducible assumption
    | with_reducible apply keep_clearRetired
    | with_reducible apply KeepAll.next

theorem keep_portEnabled {s0 : State} (a0 : Nat) (s : State) (h : Keep s0 s) :
    Keep s0 (portEnabled a0 s) := by
  unfold portEnabled
  repeat' first
    | with_reducible assumption
    | with_reducible apply keep_startTrain
    | with_reducible apply keep_setPort
    | with_reducible apply keep_portDown
    | split

theorem keep_flitCorrect {s0 : State} (a0 : Fld) (a1 : Nat) (a2 : ErrAt) (a3 : List (BitVec 16 × Fin 36)) (s : State) (h : Keep s0 s) :
    Keep s0 (flitCorrect a0 a1 a2 a3 s) := by
  unfold flitCorrect
  repeat' first
    | with_reducible assumption
    | with_reducible apply keep_ceReport
    | with_reducible apply keep_incF
    | with_reducible apply keep_foldl
    | with_reducible apply keep_foldl2
    | with_reducible apply keep_foldl3
    | dsimp only
    | intro _

theorem keep_flitTake {s0 : State} (a0 : Nat) (a1 : Flit) (s : State) (h : Keep s0 s) :
    Keep s0 (flitTake a0 a1 s) := by
  unfold flitTake
  try extract_lets
  repeat' first
    | with_reducible assumption
    | with_reducible apply keep_State_putPort
    | with_reducible apply keep_incF
    | extract_lets
    | split

theorem keep_flitReceive {s0 : State} (a0 : Nat) (a1 : Flit) (s : State) (h : Keep s0 s) :
    Keep s0 (flitReceive a0 a1 s) := by
  unfold flitReceive
  try extract_lets
  repeat' first
    | with_reducible assumption
    | with_reducible apply keep_flitCorrect
    | with_reducible apply keep_incF
    | with_reducible apply keep_State_putPort
    | with_reducible apply keep_flitTake
    | extract_lets
    | split

theorem keep_execFlitReceive {s0 : State} (a0 : PortId) (a1 : Flit) (s : State) (h : Keep s0 s) :
    KeepAll s0 (execFlitReceive a0 a1 s) := by
  unfold execFlitReceive
  repeat' first
    | with_reducible assumption
    | with_reducible apply keep_flitReceive
    | with_reducible apply KeepAll.next

theorem keep_portCounts {s0 : State} (a0 : Nat) (s : State) (h : Keep s0 s) :
    Keep s0 (portCounts a0 s) := by
  unfold portCounts
  try extract_lets
  repeat' first
    | with_reducible assumption
    | with_reducible apply keep_State_takeFree
    | with_reducible apply keep_incF
    | (with_reducible apply keep_State_takeFree_e; · with_reducible assumption)
    | extract_lets
    | split

theorem keep_replayMark {s0 : State} (a0 : Nat) (s : State) (h : Keep s0 s) :
    Keep s0 (replayMark a0 s) := by
  unfold replayMark
  repeat' first
    | with_reducible assumption
    | with_reducible apply keep_markLink
    | with_reducible apply keep_foldl
    | with_reducible apply keep_foldl2
    | with_reducible apply keep_foldl3
    | split
    | dsimp only
    | intro _

theorem keep_flitReplay {s0 : State} (a0 : Nat) (a1 : Nat) (a2 : Nat) (s : State) (h : Keep s0 s) :
    Keep s0 (flitReplay a0 a1 a2 s) := by
  unfold flitReplay
  try extract_lets
  repeat' first
    | with_reducible assumption
    | with_reducible apply keep_incF
    | with_reducible apply keep_replayMark
    | with_reducible apply keep_State_putPort
    | with_reducible apply keep_portErrors
    | extract_lets
    | split

theorem keep_execFlitReplay {s0 : State} (a0 : PortId) (a1 : BitVec 12) (a2 : Nat) (s : State) (h : Keep s0 s) :
    KeepAll s0 (execFlitReplay a0 a1 a2 s) := by
  unfold execFlitReplay
  repeat' first
    | with_reducible assumption
    | with_reducible apply keep_flitReplay
    | with_reducible apply KeepAll.next

end Sys2Proof.Machine
end

