-- ==== Sys2Proof/Laws/KeepBedc.lean ====
section
/-!
SUPPORT. Keeping: the operations of Bedc.
-/

namespace Sys2Proof.Machine

theorem keep_installLine {s0 : State} (a0 : Nat) (a1 : Line) (s : State) (h : Keep s0 s) :
    Keep s0 (installLine a0 a1 s) := by
  unfold installLine
  try extract_lets
  repeat' first
    | with_reducible assumption
    | with_reducible apply keep_State_putBed

theorem keep_cacheHit {s0 : State} (b line : Nat) (s : State) (h : Keep s0 s) : ∀ y, cacheHit b line s = some y → Keep s0 y.2 := by
  intro y e
  unfold cacheHit at e
  extract_lets k n at e
  split at e
  · cases e
    exact keep_incF _ _ _ _ _ (keep_State_putBed _ _ _ h)
  · split at e
    · cases e
      exact keep_installLine _ _ _ (keep_incF _ _ _ _ _ (keep_State_putBed _ _ _ h))
    · split at e
      · cases e
        exact keep_incF _ _ _ _ _ (keep_State_putBed _ _ _ h)
      · cases e

theorem keep_sendFill {s0 : State} (a0 : Nat) (a1 : Nat) (a2 : Policy) (a3 : Bool) (a4 : Src) (a5 : List Nat) (s : State) (h : Keep s0 s) :
    Keep s0 (sendFill a0 a1 a2 a3 a4 a5 s) := by
  unfold sendFill
  try extract_lets
  repeat' first
    | with_reducible assumption
    | with_reducible apply keep_post
    | with_reducible apply keep_incF
    | with_reducible apply keep_State_putBed

theorem keep_deliverLine {s0 : State} (a0 : Status) (a1 : BitVec 1024) (a3 : Nat) (s : State) (h : Keep s0 s) :
    Keep s0 (deliverLine a0 a1 s a3) := by
  unfold deliverLine
  repeat' first
    | with_reducible assumption
    | with_reducible apply keep_complete
    | with_reducible apply keep_respond
    | split

theorem keep_bedcLookup {s0 : State} (a0 a1 a2 : Nat) (a3 : Src) (a4 : Policy) (s : State) (h : Keep s0 s) :
    Keep s0 (bedcLookup a0 a1 a2 a3 a4 s) := by
  unfold bedcLookup
  extract_lets k
  have g : ∀ y, (if a4 = .uncached then none else cacheHit a0 a2 s) = some y → Keep s0 y.2 := by
    intro y e
    split at e
    · cases e
    · exact keep_cacheHit a0 a2 s h y e
  generalize (if a4 = .uncached then none else cacheHit a0 a2 s) = hit at g
  generalize (if a4 = .uncached then none else k.joinable a2) = j
  by_cases e : (!isDram (a2 * 128)) = true
  · rw [if_pos e]; exact h
  · rw [if_neg e]
    cases hit with
    | some y => exact keep_deliverLine _ _ _ _ (g y rfl)
    | none =>
      cases j with
      | some f => exact keep_State_putBed _ _ _ h
      | none =>
        by_cases e : k.fills.length < 4096
        · simp only [if_pos e]; exact keep_sendFill _ _ _ _ _ _ _ h
        · simp only [if_neg e]; exact h

theorem keep_execBedcLookup {s0 : State} (a0 : BedId) (a1 : Nat) (a2 : BitVec 61) (a3 : LookF) (s : State) (h : Keep s0 s) :
    KeepAll s0 (execBedcLookup a0 a1 a2 a3 s) := by
  unfold execBedcLookup
  repeat' first
    | with_reducible assumption
    | with_reducible apply keep_bedcLookup
    | with_reducible apply KeepAll.next

theorem keep_sidePush {s0 : State} (a0 : Nat) (a1 : Line) (s : State) (h : Keep s0 s) :
    Keep s0 (sidePush a0 a1 s) := by
  unfold sidePush
  try extract_lets
  repeat' first
    | with_reducible assumption
    | with_reducible apply keep_State_putBed
    | with_reducible apply keep_incF
    | extract_lets
    | split

theorem keep_landFill {s0 : State} (a0 : Nat) (a1 : Fill) (a2 : BitVec 1024) (s : State) (h : Keep s0 s) :
    Keep s0 (landFill a0 a1 a2 s) := by
  unfold landFill
  try extract_lets
  repeat' first
    | with_reducible assumption
    | with_reducible apply keep_sidePush
    | with_reducible apply keep_incF
    | with_reducible apply keep_installLine
    | extract_lets
    | split

theorem keep_fillReturn {s0 : State} (a0 : Nat) (a1 : Nat) (s : State) (h : Keep s0 s) :
    Keep s0 (fillReturn a0 a1 s) := by
  unfold fillReturn
  try extract_lets
  repeat' first
    | with_reducible assumption
    | with_reducible apply keep_netDel
    | with_reducible apply keep_State_putBed
    | with_reducible apply keep_deliverLine
    | with_reducible apply keep_landFill
    | extract_lets
    | with_reducible apply keep_foldl
    | with_reducible apply keep_foldl2
    | with_reducible apply keep_foldl3
    | split
    | dsimp only
    | intro _

theorem keep_execBedcFillReturn {s0 : State} (a0 : BedId) (a1 : Nat) (s : State) (h : Keep s0 s) :
    KeepAll s0 (execBedcFillReturn a0 a1 s) := by
  unfold execBedcFillReturn
  repeat' first
    | with_reducible assumption
    | with_reducible apply keep_fillReturn
    | with_reducible apply KeepAll.next

theorem keep_bedcPrefetch {s0 : State} (a0 : Nat) (a1 : Nat) (a2 : Src) (a3 : Policy) (s : State) (h : Keep s0 s) :
    Keep s0 (bedcPrefetch a0 a1 a2 a3 s) := by
  unfold bedcPrefetch
  try extract_lets
  repeat' first
    | with_reducible assumption
    | with_reducible apply keep_sendFill
    | extract_lets
    | split

theorem keep_execBedcPrefetch {s0 : State} (a0 : BedId) (a1 : BitVec 61) (a2 : Policy) (s : State) (h : Keep s0 s) :
    KeepAll s0 (execBedcPrefetch a0 a1 a2 s) := by
  unfold execBedcPrefetch
  repeat' first
    | with_reducible assumption
    | with_reducible apply keep_bedcPrefetch
    | with_reducible apply KeepAll.next

theorem keep_postBed {s0 : State} (a0 : Src) (a1 : Nat) (a2 : Nat) (a3 : Nat) (a4 : Bool) (a5 : Nat) (s : State) (h : Keep s0 s) :
    Keep s0 (postBed a0 a1 a2 a3 a4 a5 s).2 := by
  unfold postBed
  try extract_lets
  repeat' first
    | with_reducible assumption
    | with_reducible apply keep_State_takeId
    | (with_reducible apply keep_State_takeId_e; · with_reducible assumption)
    | extract_lets
    | split
    | dsimp only
    | with_reducible apply Keep.upd

theorem keep_postBed_e {s0 : State} {a0 : Src} {a1 : Nat} {a2 : Nat} {a3 : Nat} {a4 : Bool} {a5 : Nat} {s t : State} {x} (e : postBed a0 a1 a2 a3 a4 a5 s = (x, t)) (h : Keep s0 s) : Keep s0 t := by
  have g := keep_postBed a0 a1 a2 a3 a4 a5 s h 
  rw [e] at g
  exact g

theorem keep_lookAgain {s0 : State} (a0 : Nat) (a1 : Nat) (a2 : Nat) (a3 : Src) (a4 : Policy) (s : State) (h : Keep s0 s) :
    Keep s0 (lookAgain a0 a1 a2 a3 a4 s) := by
  unfold lookAgain
  repeat' first
    | with_reducible assumption
    | with_reducible apply keep_bedcLookup
    | split

theorem keep_readLine {s0 : State} (a0 : Src) (a1 : Nat) (a2 : Nat) (a3 : Nat) (a4 : Nat) (a5 : Policy) (s : State) (h : Keep s0 s) :
    Keep s0 (readLine a0 a1 a2 a3 a4 a5 s).2 := by
  unfold readLine
  try extract_lets
  repeat' first
    | with_reducible assumption
    | with_reducible apply keep_postBed
    | with_reducible apply keep_bedcLookup

theorem keep_readLine_e {s0 : State} {a0 : Src} {a1 : Nat} {a2 : Nat} {a3 : Nat} {a4 : Nat} {a5 : Policy} {s t : State} {x} (e : readLine a0 a1 a2 a3 a4 a5 s = (x, t)) (h : Keep s0 s) : Keep s0 t := by
  have g := keep_readLine a0 a1 a2 a3 a4 a5 s h 
  rw [e] at g
  exact g

theorem keep_askLine {s0 : State} (a0 : Src) (a1 : Nat) (a2 : Nat) (a3 : Nat) (a4 : Nat) (a5 : Policy) (s : State) (h : Keep s0 s) :
    Keep s0 (askLine a0 a1 a2 a3 a4 a5 s).2 := by
  unfold askLine
  try extract_lets
  repeat' first
    | with_reducible assumption
    | with_reducible apply keep_lookAgain
    | with_reducible apply keep_readLine
    | (with_reducible apply keep_readLine_e; · with_reducible assumption)
    | extract_lets
    | split

theorem keep_askLine_e {s0 : State} {a0 : Src} {a1 : Nat} {a2 : Nat} {a3 : Nat} {a4 : Nat} {a5 : Policy} {s t : State} {x} (e : askLine a0 a1 a2 a3 a4 a5 s = (x, t)) (h : Keep s0 s) : Keep s0 t := by
  have g := keep_askLine a0 a1 a2 a3 a4 a5 s h 
  rw [e] at g
  exact g

theorem keep_sendMerge {s0 : State} (a0 : Nat) (a1 : Merge) (s : State) (h : Keep s0 s) :
    Keep s0 (sendMerge a0 a1 s) := by
  unfold sendMerge
  try extract_lets
  repeat' first
    | with_reducible assumption
    | with_reducible apply keep_postAs
    | with_reducible apply keep_incF
    | with_reducible apply keep_State_putBed

theorem keep_drainMerge_go {s0 : State} (a0 : Nat) (a1 : Merge → Bool) (a2 : List Merge) (s : State) (h : Keep s0 s) :
    Keep s0 (drainMerge.go a0 a1 a2 s) := by
  induction a2 generalizing s with
  | nil =>
    unfold drainMerge.go
    repeat' first
      | with_reducible assumption
  | cons u l ih =>
    unfold drainMerge.go
    repeat' first
      | with_reducible assumption
      | with_reducible apply ih
      | with_reducible apply keep_sendMerge
      | split

theorem keep_drainMerge {s0 : State} (a0 : Nat) (a1 : Merge → Bool) (s : State) (h : Keep s0 s) :
    Keep s0 (drainMerge a0 a1 s) := by
  unfold drainMerge
  try extract_lets
  repeat' first
    | with_reducible assumption
    | with_reducible apply keep_drainMerge_go

theorem keep_drainHigh {s0 : State} (a0 : Nat) (s : State) (h : Keep s0 s) :
    Keep s0 (drainHigh a0 s) := by
  unfold drainHigh
  try extract_lets
  repeat' first
    | with_reducible assumption
    | with_reducible apply keep_drainMerge
    | extract_lets
    | split

theorem keep_mergeEnter {s0 : State} (a0 : Nat) (a1 : BedWrite) (s : State) (h : Keep s0 s) :
    Keep s0 (mergeEnter a0 a1 s) := by
  unfold mergeEnter
  try dsimp only
  repeat' first
    | with_reducible assumption
    | with_reducible apply keep_incF
    | with_reducible apply keep_State_putBed
    | with_reducible apply keep_State_takeId
    | with_reducible apply keep_drainHigh
    | (with_reducible apply keep_State_takeId_e; · with_reducible assumption)
    | dsimp only
    | split

theorem keep_mergeWrite {s0 : State} (a0 : Nat) (a1 : BedWrite) (s : State) (h : Keep s0 s) :
    Keep s0 (mergeWrite a0 a1 s) := by
  unfold mergeWrite
  try extract_lets
  repeat' first
    | with_reducible assumption
    | with_reducible apply keep_State_putBed
    | with_reducible apply keep_mergeEnter
    | extract_lets
    | split

theorem keep_execMergeWrite {s0 : State} (a0 : BedId) (a1 : BedWrite) (s : State) (h : Keep s0 s) :
    KeepAll s0 (execMergeWrite a0 a1 s) := by
  unfold execMergeWrite
  repeat' first
    | with_reducible assumption
    | with_reducible apply keep_mergeWrite
    | with_reducible apply KeepAll.next

theorem keep_mergeIdle {s0 : State} (a0 : Nat) (s : State) (h : Keep s0 s) :
    Keep s0 (mergeIdle a0 s) := by
  unfold mergeIdle
  repeat' first
    | with_reducible assumption
    | with_reducible apply keep_drainMerge

theorem keep_execMergeIdleExpiry {s0 : State} (a0 : BedId) (s : State) (h : Keep s0 s) :
    KeepAll s0 (execMergeIdleExpiry a0 s) := by
  unfold execMergeIdleExpiry
  repeat' first
    | with_reducible assumption
    | with_reducible apply keep_mergeIdle
    | with_reducible apply KeepAll.next

theorem keep_mergeNext {s0 : State} (a0 : Nat) (s : State) (h : Keep s0 s) :
    Keep s0 (mergeNext a0 s) := by
  unfold mergeNext
  try extract_lets
  repeat' first
    | with_reducible assumption
    | with_reducible apply keep_mergeEnter
    | with_reducible apply keep_State_putBed
    | extract_lets
    | split

theorem keep_ackOwner {s0 : State} (a0 : Nat) (a1 : Nat) (a2 : Status) (a4 : Nat) (s : State) (h : Keep s0 s) :
    Keep s0 (ackOwner a0 a1 a2 s a4) := by
  unfold ackOwner
  repeat' first
    | with_reducible assumption
    | with_reducible apply keep_complete
    | with_reducible apply keep_failLaunchAt
    | split

theorem keep_mergeAck {s0 : State} (a0 : Nat) (a1 : Nat) (s : State) (h : Keep s0 s) :
    Keep s0 (mergeAck a0 a1 s) := by
  unfold mergeAck
  try extract_lets
  repeat' first
    | with_reducible assumption
    | with_reducible apply keep_netDel
    | with_reducible apply keep_State_putBed
    | with_reducible apply keep_mergeNext
    | with_reducible apply keep_ackOwner
    | extract_lets
    | with_reducible apply keep_foldl
    | with_reducible apply keep_foldl2
    | with_reducible apply keep_foldl3
    | split
    | dsimp only
    | intro _

theorem keep_execMergeAck {s0 : State} (a0 : BedId) (a1 : Nat) (s : State) (h : Keep s0 s) :
    KeepAll s0 (execMergeAck a0 a1 s) := by
  unfold execMergeAck
  repeat' first
    | with_reducible assumption
    | with_reducible apply keep_mergeAck
    | with_reducible apply KeepAll.next

theorem keep_writeLine {s0 : State} (a0 : Src) (a1 : Nat) (a2 : Nat) (a3 : Nat) (a4 : Nat) (a5 : Nat) (a6 : Nat) (a7 : Nat) (a8 : Policy) (s : State) (h : Keep s0 s) :
    Keep s0 (writeLine a0 a1 a2 a3 a4 a5 a6 a7 a8 s).2 := by
  unfold writeLine
  try extract_lets
  repeat' first
    | with_reducible assumption
    | with_reducible apply keep_postBed
    | with_reducible apply keep_mergeWrite

theorem keep_writeLine_e {s0 : State} {a0 : Src} {a1 : Nat} {a2 : Nat} {a3 : Nat} {a4 : Nat} {a5 : Nat} {a6 : Nat} {a7 : Nat} {a8 : Policy} {s t : State} {x} (e : writeLine a0 a1 a2 a3 a4 a5 a6 a7 a8 s = (x, t)) (h : Keep s0 s) : Keep s0 t := by
  have g := keep_writeLine a0 a1 a2 a3 a4 a5 a6 a7 a8 s h 
  rw [e] at g
  exact g

theorem keep_tellLine {s0 : State} (a0 : Src) (a1 : Nat) (a2 : Nat) (a3 : Nat) (a4 : Nat) (a5 : Nat) (a6 : Nat) (a7 : Nat) (a8 : Policy) (s : State) (h : Keep s0 s) :
    Keep s0 (tellLine a0 a1 a2 a3 a4 a5 a6 a7 a8 s).2 := by
  unfold tellLine
  try extract_lets
  repeat' first
    | with_reducible assumption
    | with_reducible apply keep_writeLine
    | with_reducible apply keep_drainMerge
    | (with_reducible apply keep_writeLine_e; · with_reducible assumption)
    | extract_lets
    | split

theorem keep_tellLine_e {s0 : State} {a0 : Src} {a1 : Nat} {a2 : Nat} {a3 : Nat} {a4 : Nat} {a5 : Nat} {a6 : Nat} {a7 : Nat} {a8 : Policy} {s t : State} {x} (e : tellLine a0 a1 a2 a3 a4 a5 a6 a7 a8 s = (x, t)) (h : Keep s0 s) : Keep s0 t := by
  have g := keep_tellLine a0 a1 a2 a3 a4 a5 a6 a7 a8 s h 
  rw [e] at g
  exact g

theorem keep_invShared {s0 : State} (a0 : Nat) (s : State) (h : Keep s0 s) :
    Keep s0 (invShared a0 s) := by
  unfold invShared
  try extract_lets
  repeat' first
    | with_reducible assumption
    | with_reducible apply keep_incF
    | with_reducible apply keep_State_putBed

theorem keep_execInvShared {s0 : State} (a0 : BedId) (s : State) (h : Keep s0 s) :
    KeepAll s0 (execInvShared a0 s) := by
  unfold execInvShared
  repeat' first
    | with_reducible assumption
    | with_reducible apply keep_invShared
    | with_reducible apply KeepAll.next

theorem keep_invAll {s0 : State} (a0 : Nat) (s : State) (h : Keep s0 s) :
    Keep s0 (invAll a0 s) := by
  unfold invAll
  try extract_lets
  repeat' first
    | with_reducible assumption
    | with_reducible apply keep_State_putBed

theorem keep_execInvAll {s0 : State} (a0 : BedId) (s : State) (h : Keep s0 s) :
    KeepAll s0 (execInvAll a0 s) := by
  unfold execInvAll
  repeat' first
    | with_reducible assumption
    | with_reducible apply keep_invAll
    | with_reducible apply KeepAll.next

theorem keep_drainAll {s0 : State} (a0 : Nat) (s : State) (h : Keep s0 s) :
    Keep s0 (drainAll a0 s) := by
  unfold drainAll
  try extract_lets
  repeat' first
    | with_reducible assumption
    | with_reducible apply keep_drainMerge
    | with_reducible apply keep_State_putBed

theorem keep_execDrain {s0 : State} (a0 : BedId) (s : State) (h : Keep s0 s) :
    KeepAll s0 (execDrain a0 s) := by
  unfold execDrain
  repeat' first
    | with_reducible assumption
    | with_reducible apply keep_drainAll
    | with_reducible apply KeepAll.next

theorem keep_invLine {s0 : State} (a0 : Nat) (a1 : Nat) (s : State) (h : Keep s0 s) :
    Keep s0 (invLine a0 a1 s) := by
  unfold invLine
  try extract_lets
  repeat' first
    | with_reducible assumption
    | with_reducible apply keep_State_putBed

end Sys2Proof.Machine
end

