-- ==== Sys2Proof/Laws/KeepXlt.lean ====
section
/-!
SUPPORT. Keeping: the operations of Xlt.
-/

namespace Sys2Proof.Machine

theorem keep_readEntry {s0 : State} (a0 : Nat) (a1 : Nat) (a2 : Nat) (s : State) (h : Keep s0 s) :
    Keep s0 (readEntry a0 a1 a2 s).2 := by
  unfold readEntry
  try extract_lets
  repeat' first
    | with_reducible assumption
    | with_reducible apply keep_post
    | (with_reducible apply keep_post_e; · with_reducible assumption)
    | extract_lets
    | split

theorem keep_readEntry_e {s0 : State} {a0 : Nat} {a1 : Nat} {a2 : Nat} {s t : State} {x} (e : readEntry a0 a1 a2 s = (x, t)) (h : Keep s0 s) : Keep s0 t := by
  have g := keep_readEntry a0 a1 a2 s h 
  rw [e] at g
  exact g

theorem keep_Walk_begin {s0 : State} (a0 : Walk) (s : State) (h : Keep s0 s) :
    Keep s0 (Walk.begin a0 s).2 := by
  unfold Walk.begin
  try extract_lets
  repeat' first
    | with_reducible assumption
    | with_reducible apply keep_readEntry
    | with_reducible apply keep_incF

theorem keep_Walk_begin_e {s0 : State} {a0 : Walk} {s t : State} {x} (e : Walk.begin a0 s = (x, t)) (h : Keep s0 s) : Keep s0 t := by
  have g := keep_Walk_begin a0 s h 
  rw [e] at g
  exact g

theorem keep_Walk_advance {s0 : State} (a0 : Walk) (a1 : Req) (s : State) (h : Keep s0 s) :
    Keep s0 (Walk.advance a0 a1 s).2 := by
  unfold Walk.advance
  try extract_lets
  repeat' first
    | with_reducible assumption
    | with_reducible apply keep_netDel
    | with_reducible apply keep_readEntry
    | (with_reducible apply keep_readEntry_e; · with_reducible assumption)
    | extract_lets
    | split

theorem keep_Walk_advance_e {s0 : State} {a0 : Walk} {a1 : Req} {s t : State} {x} (e : Walk.advance a0 a1 s = (x, t)) (h : Keep s0 s) : Keep s0 t := by
  have g := keep_Walk_advance a0 a1 s h 
  rw [e] at g
  exact g

theorem keep_cacheWalk {s0 : State} (a0 : List WalkEnt) (s : State) (h : Keep s0 s) :
    Keep s0 (cacheWalk a0 s) := by
  unfold cacheWalk
  try extract_lets
  repeat' first
    | with_reducible assumption
    | extract_lets
    | dsimp only
    | with_reducible apply Keep.upd

theorem keep_fillAll {s0 : State} (a0 : Asker) (a1 : Tlb) (s : State) (h : Keep s0 s) :
    Keep s0 (fillAll a0 a1 s) := by
  unfold fillAll
  try extract_lets
  repeat' first
    | with_reducible assumption
    | with_reducible apply keep_State_putBed
    | extract_lets
    | split
    | dsimp only
    | with_reducible apply Keep.upd

theorem keep_lookPtc {s0 : State} (a0 : Nat) (a1 : Nat) (a2 : Nat) (s : State) (h : Keep s0 s) :
    Keep s0 (lookPtc a0 a1 a2 s).2 := by
  unfold lookPtc
  try extract_lets
  repeat' first
    | with_reducible assumption
    | with_reducible apply keep_incF
    | with_reducible apply keep_State_putBed
    | extract_lets
    | split
    | dsimp only
    | with_reducible apply Keep.upd

theorem keep_lookPtc_e {s0 : State} {a0 : Nat} {a1 : Nat} {a2 : Nat} {s t : State} {x} (e : lookPtc a0 a1 a2 s = (x, t)) (h : Keep s0 s) : Keep s0 t := by
  have g := keep_lookPtc a0 a1 a2 s h 
  rw [e] at g
  exact g

theorem keep_lookTlb {s0 : State} (a0 : Asker) (a1 : Nat) (a2 : Nat) (s : State) (h : Keep s0 s) :
    Keep s0 (lookTlb a0 a1 a2 s).2 := by
  unfold lookTlb
  try extract_lets
  repeat' first
    | with_reducible assumption
    | with_reducible apply keep_incF
    | with_reducible apply keep_State_putBed
    | with_reducible apply keep_lookPtc
    | (with_reducible apply keep_lookPtc_e; · with_reducible assumption)
    | extract_lets
    | split
    | dsimp only
    | with_reducible apply Keep.upd

theorem keep_lookTlb_e {s0 : State} {a0 : Asker} {a1 : Nat} {a2 : Nat} {s t : State} {x} (e : lookTlb a0 a1 a2 s = (x, t)) (h : Keep s0 s) : Keep s0 t := by
  have g := keep_lookTlb a0 a1 a2 s h 
  rw [e] at g
  exact g

theorem keep_joinWalk {s0 : State} (a0 : Nat) (a1 : XWait) (s : State) (h : Keep s0 s) :
    Keep s0 (joinWalk a0 a1 s) := by
  unfold joinWalk
  try dsimp only
  repeat' first
    | with_reducible assumption
    | with_reducible apply keep_State_takeId
    | with_reducible apply keep_Walk_begin
    | (with_reducible apply keep_State_takeId_e; · with_reducible assumption)
    | (with_reducible apply keep_Walk_begin_e; · with_reducible assumption)
    | dsimp only
    | split
    | with_reducible apply Keep.upd

theorem keep_hostWrite {s0 : State} (a0 : Nat) (a1 : Nat) (a2 : Nat) (s : State) (h : Keep s0 s) :
    Keep s0 (hostWrite a0 a1 a2 s).2 := by
  unfold hostWrite
  repeat' first
    | with_reducible assumption
    | with_reducible apply keep_post

theorem keep_hostWrite_e {s0 : State} {a0 : Nat} {a1 : Nat} {a2 : Nat} {s t : State} {x} (e : hostWrite a0 a1 a2 s = (x, t)) (h : Keep s0 s) : Keep s0 t := by
  have g := keep_hostWrite a0 a1 a2 s h 
  rw [e] at g
  exact g

theorem keep_putFault {s0 : State} (a0 : FaultRec) (s : State) (h : Keep s0 s) :
    Keep s0 (putFault a0 s) := by
  unfold putFault
  try extract_lets
  repeat' first
    | with_reducible assumption
    | extract_lets
    | split
    | dsimp only
    | with_reducible apply Keep.upd

theorem keep_writeFault {s0 : State} (a0 : FaultRec) (s : State) (h : Keep s0 s) :
    Keep s0 (writeFault a0 s) := by
  unfold writeFault
  try extract_lets
  repeat' first
    | with_reducible assumption
    | with_reducible apply keep_setF
    | with_reducible apply keep_hostWrite
    | with_reducible apply keep_putFault
    | with_reducible apply keep_irq
    | (with_reducible apply keep_hostWrite_e; · with_reducible assumption)
    | extract_lets
    | split

theorem keep_joinFault {s0 : State} (a0 : FaultRec) (a1 : XWait) (s : State) (h : Keep s0 s) :
    Keep s0 (joinFault a0 a1 s) := by
  unfold joinFault
  try extract_lets
  repeat' first
    | with_reducible assumption
    | with_reducible apply keep_incF
    | with_reducible apply keep_putFault
    | with_reducible apply keep_hostWrite
    | (with_reducible apply keep_hostWrite_e; · with_reducible assumption)
    | extract_lets
    | split

theorem keep_openFault {s0 : State} (a0 : Nat) (a1 : Nat) (a2 : Nat) (a3 : XWait) (s : State) (h : Keep s0 s) :
    Keep s0 (openFault a0 a1 a2 a3 s) := by
  unfold openFault
  try extract_lets
  repeat' first
    | with_reducible assumption
    | with_reducible apply keep_flagIf
    | with_reducible apply keep_joinFault
    | with_reducible apply keep_incF
    | with_reducible apply keep_writeFault
    | extract_lets
    | split
    | dsimp only
    | with_reducible exact id
    | with_reducible exact swf_sput _ _ _ _
    | with_reducible exact mwf_sput _ _ _
    | with_reducible exact mwf_putBytes _ _ _ _ _
    | with_reducible exact mwf_filter _ _
    | with_reducible exact swf_filter _ _ _
    | with_reducible exact swf_smap _ _ _
    | with_reducible exact log_take _ _
    | with_reducible exact fun g => mwf_putBytes _ _ _ _ _ (mwf_putBytes _ _ _ _ _ g)
    | with_reducible apply Keep.upd
    | with_reducible apply Keep.all

theorem keep_writeHeld {s0 : State} (a0 : List FaultRec) (s : State) (h : Keep s0 s) :
    Keep s0 (writeHeld a0 s) := by
  induction a0 generalizing s with
  | nil =>
    unfold writeHeld
    repeat' first
      | with_reducible assumption
  | cons u l ih =>
    unfold writeHeld
    repeat' first
      | with_reducible assumption
      | with_reducible apply ih
      | with_reducible apply keep_writeFault
      | split

theorem keep_fqHead {s0 : State} (a0 : Nat) (s : State) (h : Keep s0 s) :
    Keep s0 (fqHead a0 s) := by
  unfold fqHead
  try extract_lets
  repeat' first
    | with_reducible assumption
    | with_reducible apply keep_setF
    | with_reducible apply keep_writeHeld

theorem keep_execFqHeadWrite {s0 : State} (a0 : BitVec 16) (s : State) (h : Keep s0 s) :
    KeepAll s0 (execFqHeadWrite a0 s) := by
  unfold execFqHeadWrite
  repeat' first
    | with_reducible assumption
    | with_reducible apply keep_fqHead
    | with_reducible apply KeepAll.next

theorem keep_giveUp {s0 : State} (a0 : XWait) (a1 : Status) (s : State) (h : Keep s0 s) :
    Keep s0 (giveUp a0 a1 s) := by
  unfold giveUp
  try extract_lets
  repeat' first
    | with_reducible assumption
    | with_reducible apply keep_respond
    | with_reducible apply keep_complete
    | extract_lets
    | split
    | dsimp only
    | with_reducible apply Keep.upd

theorem keep_faultFor {s0 : State} (a0 : Nat) (a1 : Nat) (a2 : XWait) (s : State) (h : Keep s0 s) :
    Keep s0 (faultFor a0 a1 a2 s) := by
  unfold faultFor
  repeat' first
    | with_reducible assumption
    | with_reducible apply keep_giveUp
    | with_reducible apply keep_openFault
    | split

theorem keep_found {s0 : State} (a0 : XWait) (a1 : Nat) (s : State) (h : Keep s0 s) :
    Keep s0 (found a0 a1 s) := by
  unfold found
  repeat' first
    | with_reducible assumption
    | with_reducible apply keep_respond
    | with_reducible apply keep_sendOn
    | split

theorem keep_leafFor {s0 : State} (a0 : Nat) (a1 : Tlb) (a2 : XWait) (s : State) (h : Keep s0 s) :
    Keep s0 (leafFor a0 a1 a2 s) := by
  unfold leafFor
  repeat' first
    | with_reducible assumption
    | with_reducible apply keep_faultFor
    | with_reducible apply keep_found
    | split

theorem keep_askXlt {s0 : State} (a0 : Nat) (a1 : XWait) (s : State) (h : Keep s0 s) :
    Keep s0 (askXlt a0 a1 s) := by
  unfold askXlt
  repeat' first
    | with_reducible assumption
    | with_reducible apply keep_giveUp
    | with_reducible apply keep_lookTlb
    | with_reducible apply keep_leafFor
    | with_reducible apply keep_joinWalk
    | (with_reducible apply keep_lookTlb_e; · with_reducible assumption)
    | split

theorem keep_faultRecordOpen {s0 : State} (a0 : XltReq) (a1 : Nat) (s : State) (h : Keep s0 s) :
    Keep s0 (faultRecordOpen a0 a1 s) := by
  unfold faultRecordOpen
  repeat' first
    | with_reducible assumption
    | with_reducible apply keep_openFault
    | with_reducible apply keep_giveUp
    | split

theorem keep_execFaultRecordOpen {s0 : State} (a0 : XltReq) (a1 : Fin 8) (s : State) (h : Keep s0 s) :
    KeepAll s0 (execFaultRecordOpen a0 a1 s) := by
  unfold execFaultRecordOpen
  repeat' first
    | with_reducible assumption
    | with_reducible apply keep_faultRecordOpen
    | with_reducible apply KeepAll.next

theorem keep_execXltWalk {s0 : State} (a0 : XltReq) (s : State) (h : Keep s0 s) :
    KeepAll s0 (execXltWalk a0 s) := by
  unfold execXltWalk
  repeat' first
    | with_reducible assumption
    | with_reducible apply keep_askXlt
    | with_reducible apply KeepAll.next

theorem keep_leaveXlt {s0 : State} (a0 : Asker → Nat → Bool) (s : State) (h : Keep s0 s) :
    Keep s0 (leaveXlt a0 s) := by
  unfold leaveXlt
  try extract_lets
  repeat' first
    | with_reducible assumption
    | extract_lets
    | dsimp only
    | with_reducible apply Keep.upd

theorem keep_endFor {s0 : State} (a0 : Nat) (a1 : WalkRes) (a3 : XWait) (s : State) (h : Keep s0 s) :
    Keep s0 (endFor a0 a1 s a3) := by
  unfold endFor
  repeat' first
    | with_reducible assumption
    | with_reducible apply keep_giveUp
    | with_reducible apply keep_leafFor
    | with_reducible apply keep_fillAll
    | with_reducible apply keep_faultFor
    | split

theorem keep_nextWalk {s0 : State}  (s : State) (h : Keep s0 s) :
    Keep s0 (nextWalk s) := by
  unfold nextWalk
  try extract_lets
  repeat' first
    | with_reducible assumption
    | with_reducible apply keep_Walk_begin
    | (with_reducible apply keep_Walk_begin_e; · with_reducible assumption)
    | extract_lets
    | split
    | dsimp only
    | with_reducible apply Keep.upd

theorem keep_endWalk {s0 : State} (a0 : Walk) (a1 : WalkRes) (s : State) (h : Keep s0 s) :
    Keep s0 (endWalk a0 a1 s) := by
  unfold endWalk
  try extract_lets
  repeat' first
    | with_reducible assumption
    | with_reducible apply keep_cacheWalk
    | with_reducible apply keep_nextWalk
    | with_reducible apply keep_endFor
    | extract_lets
    | with_reducible apply keep_foldl
    | with_reducible apply keep_foldl2
    | with_reducible apply keep_foldl3
    | split
    | dsimp only
    | intro _
    | with_reducible apply Keep.upd

theorem keep_putWalk {s0 : State} (a0 : Walk) (s : State) (h : Keep s0 s) :
    Keep s0 (putWalk a0 s) := by
  unfold putWalk
  try extract_lets
  repeat' first
    | with_reducible assumption
    | with_reducible apply keep_endWalk
    | extract_lets
    | split
    | dsimp only
    | with_reducible apply Keep.upd

theorem keep_xltFill {s0 : State} (a0 : Nat) (s : State) (h : Keep s0 s) :
    Keep s0 (xltFill a0 s) := by
  unfold xltFill
  try extract_lets
  repeat' first
    | with_reducible assumption
    | with_reducible apply keep_endWalk
    | with_reducible apply keep_Walk_begin
    | with_reducible apply keep_netDel
    | with_reducible apply keep_putWalk
    | with_reducible apply keep_Walk_advance
    | (with_reducible apply keep_Walk_begin_e; · with_reducible assumption)
    | (with_reducible apply keep_Walk_advance_e; · with_reducible assumption)
    | extract_lets
    | split

theorem keep_execXltFillReturn {s0 : State} (a0 : Nat) (s : State) (h : Keep s0 s) :
    KeepAll s0 (execXltFillReturn a0 s) := by
  unfold execXltFillReturn
  repeat' first
    | with_reducible assumption
    | with_reducible apply keep_xltFill
    | with_reducible apply KeepAll.next

theorem keep_translate {s0 : State} (a0 : Nat) (a1 : XWait) (s : State) (h : Keep s0 s) :
    Keep s0 (translate a0 a1 s).2 := by
  unfold translate
  try extract_lets
  repeat' first
    | with_reducible assumption
    | with_reducible apply keep_lookTlb
    | with_reducible apply keep_joinWalk
    | with_reducible apply keep_openFault
    | (with_reducible apply keep_lookTlb_e; · with_reducible assumption)
    | extract_lets
    | split
    | dsimp only
    | with_reducible apply Keep.upd

theorem keep_translate_e {s0 : State} {a0 : Nat} {a1 : XWait} {s t : State} {x} (e : translate a0 a1 s = (x, t)) (h : Keep s0 s) : Keep s0 t := by
  have g := keep_translate a0 a1 s h 
  rw [e] at g
  exact g

end Sys2Proof.Machine
end

