-- ==== Sys2Proof/Laws/KeepReach.lean ====
section
/-!
SUPPORT. Keeping: the operations of Reach.
-/

namespace Sys2Proof.Machine

theorem keep_Via_readAt {s0 : State} (a0 : Via) (a1 : Nat) (a2 : Nat) (a3 : Policy) (s : State) (h : Keep s0 s) :
    Keep s0 (Via.readAt a0 a1 a2 a3 s).2 := by
  unfold Via.readAt
  try extract_lets
  repeat' first
    | with_reducible assumption
    | with_reducible apply keep_askLine
    | with_reducible apply keep_busRead
    | (with_reducible apply keep_askLine_e; · with_reducible assumption)
    | (with_reducible apply keep_busRead_e; · with_reducible assumption)
    | extract_lets
    | split

theorem keep_Via_readAt_e {s0 : State} {a0 : Via} {a1 : Nat} {a2 : Nat} {a3 : Policy} {s t : State} {x} (e : Via.readAt a0 a1 a2 a3 s = (x, t)) (h : Keep s0 s) : Keep s0 t := by
  have g := keep_Via_readAt a0 a1 a2 a3 s h 
  rw [e] at g
  exact g

theorem keep_Via_get {s0 : State} (a0 : Via) (a1 : Nat) (a2 : Nat) (s : State) (h : Keep s0 s) :
    Keep s0 (Via.get a0 a1 a2 s).2 := by
  unfold Via.get
  repeat' first
    | with_reducible assumption
    | with_reducible apply keep_translate
    | with_reducible apply keep_Via_readAt
    | (with_reducible apply keep_translate_e; · with_reducible assumption)
    | (with_reducible apply keep_Via_readAt_e; · with_reducible assumption)
    | split

theorem keep_Via_get_e {s0 : State} {a0 : Via} {a1 : Nat} {a2 : Nat} {s t : State} {x} (e : Via.get a0 a1 a2 s = (x, t)) (h : Keep s0 s) : Keep s0 t := by
  have g := keep_Via_get a0 a1 a2 s h 
  rw [e] at g
  exact g

theorem keep_Via_put {s0 : State} (a0 : Via) (a1 : Nat) (a2 : Nat) (a3 : Nat) (s : State) (h : Keep s0 s) :
    Keep s0 (Via.put a0 a1 a2 a3 s).2 := by
  unfold Via.put
  try dsimp only
  repeat' first
    | with_reducible assumption
    | with_reducible apply keep_translate
    | with_reducible apply keep_tellLine
    | with_reducible apply keep_busWrite
    | (with_reducible apply keep_translate_e; · with_reducible assumption)
    | (with_reducible apply keep_tellLine_e; · with_reducible assumption)
    | (with_reducible apply keep_busWrite_e; · with_reducible assumption)
    | dsimp only
    | split

theorem keep_Via_put_e {s0 : State} {a0 : Via} {a1 : Nat} {a2 : Nat} {a3 : Nat} {s t : State} {x} (e : Via.put a0 a1 a2 a3 s = (x, t)) (h : Keep s0 s) : Keep s0 t := by
  have g := keep_Via_put a0 a1 a2 a3 s h 
  rw [e] at g
  exact g

theorem keep_Via_getRange {s0 : State} (a0 : Via) (a1 : Nat) (a2 : Nat) (s : State) (h : Keep s0 s) :
    Keep s0 (Via.getRange a0 a1 a2 s).2 := by
  unfold Via.getRange
  try extract_lets
  repeat' first
    | with_reducible assumption
    | with_reducible apply keep_Via_get
    | (with_reducible apply keep_Via_get_e; · with_reducible assumption)
    | extract_lets
    | with_reducible apply keep_foldl
    | with_reducible apply keep_foldl2
    | with_reducible apply keep_foldl3
    | dsimp only
    | intro _

theorem keep_Via_getRange_e {s0 : State} {a0 : Via} {a1 : Nat} {a2 : Nat} {s t : State} {x} (e : Via.getRange a0 a1 a2 s = (x, t)) (h : Keep s0 s) : Keep s0 t := by
  have g := keep_Via_getRange a0 a1 a2 s h 
  rw [e] at g
  exact g

theorem keep_Via_putRange {s0 : State} (a0 : Via) (a1 : Nat) (a2 : Nat) (a3 : Nat) (s : State) (h : Keep s0 s) :
    Keep s0 (Via.putRange a0 a1 a2 a3 s).2 := by
  unfold Via.putRange
  try extract_lets
  repeat' first
    | with_reducible assumption
    | with_reducible apply keep_Via_put
    | (with_reducible apply keep_Via_put_e; · with_reducible assumption)
    | extract_lets
    | with_reducible apply keep_foldl
    | with_reducible apply keep_foldl2
    | with_reducible apply keep_foldl3
    | dsimp only
    | intro _

theorem keep_Via_putRange_e {s0 : State} {a0 : Via} {a1 : Nat} {a2 : Nat} {a3 : Nat} {s t : State} {x} (e : Via.putRange a0 a1 a2 a3 s = (x, t)) (h : Keep s0 s) : Keep s0 t := by
  have g := keep_Via_putRange a0 a1 a2 a3 s h 
  rw [e] at g
  exact g

theorem keep_bsqWriteRange {s0 : State} (a0 : Nat) (a1 : Nat) (a2 : Nat) (a3 : Nat) (a4 : Nat) (a5 : Nat) (s : State) (h : Keep s0 s) :
    Keep s0 (bsqWriteRange a0 a1 a2 a3 a4 a5 s).2 := by
  unfold bsqWriteRange
  try extract_lets
  repeat' first
    | with_reducible assumption
    | with_reducible apply keep_tellLine
    | with_reducible apply keep_busWrite
    | (with_reducible apply keep_tellLine_e; · with_reducible assumption)
    | (with_reducible apply keep_busWrite_e; · with_reducible assumption)
    | extract_lets
    | with_reducible apply keep_foldl
    | with_reducible apply keep_foldl2
    | with_reducible apply keep_foldl3
    | split
    | dsimp only
    | intro _

theorem keep_bsqWriteRange_e {s0 : State} {a0 : Nat} {a1 : Nat} {a2 : Nat} {a3 : Nat} {a4 : Nat} {a5 : Nat} {s t : State} {x} (e : bsqWriteRange a0 a1 a2 a3 a4 a5 s = (x, t)) (h : Keep s0 s) : Keep s0 t := by
  have g := keep_bsqWriteRange a0 a1 a2 a3 a4 a5 s h 
  rw [e] at g
  exact g

theorem keep_Via_done {s0 : State} (a0 : Via) (s : State) (h : Keep s0 s) :
    Keep s0 (Via.done a0 s) := by
  unfold Via.done
  repeat' first
    | with_reducible assumption
    | with_reducible apply keep_askDone

end Sys2Proof.Machine
end

