-- ==== Sys2Proof/Laws/KeepProg.lean ====
section
/-!
SUPPORT. Keeping: the operations of Prog.
-/

namespace Sys2Proof.Machine

theorem keep_putProg {s0 : State} (a0 : Nat) (a1 : Prog) (s : State) (h : Keep s0 s) :
    Keep s0 (putProg a0 a1 s) := by
  unfold putProg
  try extract_lets
  repeat' first
    | with_reducible assumption
    | with_reducible apply keep_State_putBed

theorem keep_putMove {s0 : State} (a0 : Nat) (a1 : Nat) (a2 : Move) (s : State) (h : Keep s0 s) :
    Keep s0 (putMove a0 a1 a2 s) := by
  unfold putMove
  try extract_lets
  repeat' first
    | with_reducible assumption
    | with_reducible apply keep_State_putBed

theorem keep_tookFallback {s0 : State} (a0 : Nat) (a1 : Nat) (a2 : Nat) (s : State) (h : Keep s0 s) :
    Keep s0 (tookFallback a0 a1 a2 s) := by
  unfold tookFallback
  repeat' first
    | with_reducible assumption
    | with_reducible apply keep_failLaunch
    | with_reducible apply keep_incF
    | with_reducible apply keep_flagF

theorem keep_armProg {s0 : State} (a0 : Nat) (a1 : Prog) (s : State) (h : Keep s0 s) :
    Keep s0 (armProg a0 a1 s) := by
  unfold armProg
  try extract_lets
  repeat' first
    | with_reducible assumption
    | with_reducible apply keep_flagF
    | with_reducible apply keep_State_putBed
    | with_reducible apply keep_incF
    | extract_lets
    | split

theorem keep_doKick {s0 : State} (a0 : Nat) (a1 : Instr) (a2 : Nat) (s : State) (h : Keep s0 s) :
    Keep s0 (doKick a0 a1 a2 s) := by
  unfold doKick
  try extract_lets
  repeat' first
    | with_reducible assumption
    | with_reducible apply keep_issueSlot
    | with_reducible apply keep_State_takeId
    | with_reducible apply keep_armProg
    | (with_reducible apply keep_State_takeId_e; · with_reducible assumption)
    | extract_lets
    | split
    | dsimp only
    | intro _

theorem keep_execKick {s0 : State} (a0 : CoreId) (a1 : BitVec 12) (s : State) (h : Keep s0 s) :
    KeepAll s0 (execKick a0 a1 s) := by
  unfold execKick
  repeat' first
    | with_reducible assumption
    | with_reducible apply keep_doKick
    | with_reducible apply KeepAll.next

theorem keep_dropFlies {s0 : State} (a0 : Prog) (s : State) (h : Keep s0 s) :
    Keep s0 (dropFlies a0 s) := by
  unfold dropFlies
  repeat' first
    | with_reducible assumption
    | with_reducible apply keep_disown

theorem keep_endProg {s0 : State} (a0 : Nat) (a1 : Prog) (s : State) (h : Keep s0 s) :
    Keep s0 (endProg a0 a1 s) := by
  unfold endProg
  try extract_lets
  repeat' first
    | with_reducible assumption
    | with_reducible apply keep_dropFlies
    | with_reducible apply keep_State_putBed
    | with_reducible apply keep_sendReport
    | extract_lets
    | split

theorem keep_reap {s0 : State} (a0 : Nat) (a1 : Nat) (s : State) (h : Keep s0 s) :
    Keep s0 (reap a0 a1 s) := by
  unfold reap
  repeat' first
    | with_reducible assumption
    | with_reducible apply keep_endProg
    | split

theorem keep_failProg {s0 : State} (a0 : Nat) (a1 : Prog) (a2 : Nat) (a3 : Status) (a4 : Bool) (s : State) (h : Keep s0 s) :
    Keep s0 (failProg a0 a1 a2 a3 a4 s) := by
  unfold failProg
  try extract_lets
  repeat' first
    | with_reducible assumption
    | with_reducible apply keep_flagIf
    | with_reducible apply keep_setF
    | with_reducible apply keep_flagF
    | with_reducible apply keep_failLaunchAt
    | with_reducible apply keep_rollbackPart
    | with_reducible apply keep_reap
    | with_reducible apply keep_putProg
    | extract_lets
    | split
    | dsimp only
    | with_reducible apply Keep.upd

theorem keep_takeRecord {s0 : State} (a0 : Nat) (a1 : Prog) (a2 : Nat) (s : State) (h : Keep s0 s) :
    Keep s0 (takeRecord a0 a1 a2 s) := by
  unfold takeRecord
  try extract_lets
  repeat' first
    | with_reducible assumption
    | with_reducible apply keep_State_takeId
    | with_reducible apply keep_tookFallback
    | with_reducible apply keep_putProg
    | (with_reducible apply keep_State_takeId_e; · with_reducible assumption)
    | extract_lets
    | split

theorem keep_readNext {s0 : State} (a0 : Nat) (a1 : Prog) (s : State) (h : Keep s0 s) :
    Keep s0 (readNext a0 a1 s) := by
  unfold readNext
  try extract_lets
  repeat' first
    | with_reducible assumption
    | with_reducible apply keep_Via_getRange
    | with_reducible apply keep_takeRecord
    | with_reducible apply keep_Via_done
    | with_reducible apply keep_failProg
    | (with_reducible apply keep_Via_getRange_e; · with_reducible assumption)
    | extract_lets
    | split

theorem keep_readMore {s0 : State} (a0 : Nat) (a1 : Nat) (s : State) (h : Keep s0 s) :
    Keep s0 (readMore a0 a1 s) := by
  unfold readMore
  repeat' first
    | with_reducible assumption
    | with_reducible apply keep_readNext
    | split

theorem keep_startProg {s0 : State} (a0 : Nat) (a1 : Prog) (a2 : Nat) (s : State) (h : Keep s0 s) :
    Keep s0 (startProg a0 a1 a2 s) := by
  unfold startProg
  try extract_lets
  repeat' first
    | with_reducible assumption
    | with_reducible apply keep_State_putBed
    | with_reducible apply keep_endProg
    | with_reducible apply keep_readNext
    | extract_lets
    | split

theorem keep_programStart {s0 : State} (a0 : Nat) (s : State) (h : Keep s0 s) :
    Keep s0 (programStart a0 s) := by
  unfold programStart
  try extract_lets
  repeat' first
    | with_reducible assumption
    | with_reducible apply keep_Via_getRange
    | with_reducible apply keep_startProg
    | with_reducible apply keep_Via_done
    | with_reducible apply keep_failProg
    | with_reducible apply keep_State_putBed
    | (with_reducible apply keep_Via_getRange_e; · with_reducible assumption)
    | extract_lets
    | split

theorem keep_execProgramStart {s0 : State} (a0 : BedId) (s : State) (h : Keep s0 s) :
    KeepAll s0 (execProgramStart a0 s) := by
  unfold execProgramStart
  repeat' first
    | with_reducible assumption
    | with_reducible apply keep_programStart
    | with_reducible apply KeepAll.next

end Sys2Proof.Machine
end

