-- ==== Sys2Proof/Laws/KeepSync.lean ====
section
/-!
SUPPORT. Keeping: the operations of Sync.
-/

namespace Sys2Proof.Machine

theorem keep_holdCore {s0 : State} (a0 : Nat) (s : State) (h : Keep s0 s) :
    Keep s0 (holdCore a0 s) := by
  unfold holdCore
  try extract_lets
  repeat' first
    | with_reducible assumption
    | with_reducible apply keep_State_putCore
    | extract_lets
    | split

theorem keep_passSync {s0 : State} (a0 : Nat) (s : State) (h : Keep s0 s) :
    Keep s0 (passSync a0 s) := by
  unfold passSync
  try extract_lets
  repeat' first
    | with_reducible assumption
    | with_reducible apply keep_State_putCore

theorem keep_doWaitf {s0 : State} (a0 : Nat) (a1 : Instr) (a2 : BitVec 5) (a3 : Bool) (s : State) (h : Keep s0 s) :
    Keep s0 (doWaitf a0 a1 a2 a3 s) := by
  unfold doWaitf
  try extract_lets
  repeat' first
    | with_reducible assumption
    | with_reducible apply keep_beginSlot
    | with_reducible apply keep_State_putCore
    | with_reducible apply keep_holdCore
    | extract_lets
    | split

theorem keep_execWaitf {s0 : State} (a0 : CoreId) (a1 : BitVec 5) (a2 : Bool) (s : State) (h : Keep s0 s) :
    KeepAll s0 (execWaitf a0 a1 a2 s) := by
  unfold execWaitf
  repeat' first
    | with_reducible assumption
    | with_reducible apply keep_doWaitf
    | with_reducible apply KeepAll.next

theorem keep_doPost {s0 : State} (a0 : Nat) (a1 : Instr) (a2 : BitVec 6) (a3 : BitVec 5) (s : State) (h : Keep s0 s) :
    Keep s0 (doPost a0 a1 a2 a3 s) := by
  unfold doPost
  repeat' first
    | with_reducible assumption
    | with_reducible apply keep_issueSlot
    | with_reducible apply keep_deliver

theorem keep_execPost {s0 : State} (a0 : CoreId) (a1 : BitVec 6) (a2 : BitVec 5) (s : State) (h : Keep s0 s) :
    KeepAll s0 (execPost a0 a1 a2 s) := by
  unfold execPost
  repeat' first
    | with_reducible assumption
    | with_reducible apply keep_doPost
    | with_reducible apply KeepAll.next

theorem keep_doSync {s0 : State} (a0 : Nat) (a1 : Instr) (s : State) (h : Keep s0 s) :
    Keep s0 (doSync a0 a1 s) := by
  unfold doSync
  repeat' first
    | with_reducible assumption
    | with_reducible apply keep_holdCore
    | split

theorem keep_execSync {s0 : State} (a0 : CoreId) (a1 : BitVec 2) (s : State) (h : Keep s0 s) :
    KeepAll s0 (execSync a0 a1 s) := by
  unfold execSync
  repeat' first
    | with_reducible assumption
    | with_reducible apply keep_doSync
    | with_reducible apply KeepAll.next

theorem keep_doSkip {s0 : State} (a0 : Nat) (a1 : Instr) (a2 : BitVec 12) (s : State) (h : Keep s0 s) :
    Keep s0 (doSkip a0 a1 a2 s) := by
  unfold doSkip
  try extract_lets
  repeat' first
    | with_reducible assumption
    | with_reducible apply keep_issueSlot
    | with_reducible apply keep_State_putCore
    | extract_lets
    | dsimp only
    | intro _

theorem keep_execSkip {s0 : State} (a0 : CoreId) (a1 : BitVec 12) (s : State) (h : Keep s0 s) :
    KeepAll s0 (execSkip a0 a1 s) := by
  unfold execSkip
  repeat' first
    | with_reducible assumption
    | with_reducible apply keep_doSkip
    | with_reducible apply KeepAll.next

theorem keep_doLoop {s0 : State} (a0 : Nat) (a1 : Instr) (a2 : LoopF) (s : State) (h : Keep s0 s) :
    Keep s0 (doLoop a0 a1 a2 s) := by
  unfold doLoop
  try extract_lets
  repeat' first
    | with_reducible assumption
    | with_reducible apply keep_issueSlot
    | with_reducible apply keep_flagF
    | with_reducible apply keep_flagIf
    | with_reducible apply keep_State_putCore
    | extract_lets
    | split
    | dsimp only
    | intro _

theorem keep_execLoop {s0 : State} (a0 : CoreId) (a1 : LoopF) (s : State) (h : Keep s0 s) :
    KeepAll s0 (execLoop a0 a1 s) := by
  unfold execLoop
  repeat' first
    | with_reducible assumption
    | with_reducible apply keep_doLoop
    | with_reducible apply KeepAll.next

theorem keep_doPhase {s0 : State} (a0 : Nat) (a1 : Instr) (a2 : BitVec 8) (s : State) (h : Keep s0 s) :
    Keep s0 (doPhase a0 a1 a2 s) := by
  unfold doPhase
  try extract_lets
  repeat' first
    | with_reducible assumption
    | with_reducible apply keep_issueSlot
    | with_reducible apply keep_State_putCore
    | with_reducible apply keep_State_putBed
    | extract_lets
    | split
    | dsimp only
    | intro _

theorem keep_execPhase {s0 : State} (a0 : CoreId) (a1 : BitVec 8) (s : State) (h : Keep s0 s) :
    KeepAll s0 (execPhase a0 a1 s) := by
  unfold execPhase
  repeat' first
    | with_reducible assumption
    | with_reducible apply keep_doPhase
    | with_reducible apply KeepAll.next

theorem keep_doHalt {s0 : State} (a0 : Nat) (a1 : Instr) (s : State) (h : Keep s0 s) :
    Keep s0 (doHalt a0 a1 s) := by
  unfold doHalt
  try extract_lets
  repeat' first
    | with_reducible assumption
    | with_reducible apply keep_issueSlot
    | with_reducible apply keep_State_putCore
    | extract_lets
    | dsimp only
    | intro _

theorem keep_execHalt {s0 : State} (a0 : CoreId) (s : State) (h : Keep s0 s) :
    KeepAll s0 (execHalt a0 s) := by
  unfold execHalt
  repeat' first
    | with_reducible assumption
    | with_reducible apply keep_doHalt
    | with_reducible apply KeepAll.next

theorem keep_execNop {s0 : State} (a0 : CoreId) (a1 : Slot) (s : State) (h : Keep s0 s) : KeepAll s0 (execNop a0 a1 s) :=
  KeepAll.next (keep_issueSlot _ _ _ _ _ h fun _ g => g)

end Sys2Proof.Machine
end

