-- ==== Sys2Proof/Laws/KeepSpad.lean ====
section
/-!
SUPPORT. Keeping: the operations of Spad.
-/

namespace Sys2Proof.Machine

theorem keep_ownerLost {s0 : State} (a0 : Nat) (s : State) (h : Keep s0 s) :
    Keep s0 (ownerLost a0 s) := by
  unfold ownerLost
  repeat' first
    | with_reducible assumption
    | with_reducible apply keep_failLaunchAt
    | split

theorem keep_answerOut {s0 : State} (a0 : Outside) (a1 : Status) (a2 : BitVec 1024) (s : State) (h : Keep s0 s) :
    Keep s0 (answerOut a0 a1 a2 s) := by
  unfold answerOut
  repeat' first
    | with_reducible assumption
    | with_reducible apply keep_complete
    | with_reducible apply keep_respond
    | split

theorem keep_bankOut {s0 : State} (a0 : Nat) (a1 : Outside) (s : State) (h : Keep s0 s) :
    Keep s0 (bankOut a0 a1 s) := by
  unfold bankOut
  try extract_lets
  repeat' first
    | with_reducible assumption
    | with_reducible apply keep_State_putCore
    | with_reducible apply keep_netPut
    | extract_lets
    | split

theorem keep_meshHold {s0 : State} (a0 : Nat) (a1 : Outside) (s : State) (h : Keep s0 s) :
    Keep s0 (meshHold a0 a1 s) := by
  unfold meshHold
  try extract_lets
  repeat' first
    | with_reducible assumption
    | extract_lets
    | dsimp only
    | with_reducible apply Keep.upd

theorem keep_outsideAccess {s0 : State} (a0 : Nat) (a1 : Outside) (s : State) (h : Keep s0 s) :
    Keep s0 (outsideAccess a0 a1 s) := by
  unfold outsideAccess
  repeat' first
    | with_reducible assumption
    | with_reducible apply keep_answerOut
    | with_reducible apply keep_meshHold
    | with_reducible apply keep_bankOut
    | split

theorem keep_underSpad {s0 : State} (a0 : Nat) (a1 : Bool) (s : State) (h : Keep s0 s) :
    Keep s0 (underSpad a0 a1 s) := by
  unfold underSpad
  try extract_lets
  repeat' first
    | with_reducible assumption
    | with_reducible apply keep_dropCopy
    | with_reducible apply keep_complete
    | with_reducible apply keep_outsideAccess
    | extract_lets
    | split

theorem keep_reachSpad {s0 : State} (a0 a1 : Nat) (a2 : Bool) (s : State) (h : Keep s0 s) :
    Keep s0 (reachSpad a0 a1 a2 s) := by
  unfold reachSpad
  repeat' first
    | with_reducible assumption
    | with_reducible apply keep_underSpad
    | split

theorem keep_spadArrive {s0 : State} (a1 : Nat) (a0 : SpadIn) (s : State) (h : Keep s0 s) :
    Keep s0 (spadArrive a1 a0 s) := by
  unfold spadArrive
  repeat' first
    | with_reducible assumption
    | with_reducible apply keep_reachSpad
    | with_reducible apply keep_outsideAccess
    | split

theorem keep_execSpadOutsideAccess {s0 : State} (a1 : CoreId) (a0 : SpadIn) (s : State) (h : Keep s0 s) :
    KeepAll s0 (execSpadOutsideAccess a1 a0 s) := by
  unfold execSpadOutsideAccess
  repeat' first
    | with_reducible assumption
    | with_reducible apply keep_spadArrive
    | with_reducible apply KeepAll.next
    | with_reducible apply KeepAll.fault
    | split

theorem keep_spadAtomic {s0 : State} (a0 a1 a2 : Nat) (a3 : Option Atom) (a4 : Who) (s : State) (h : Keep s0 s) :
    Keep s0 (spadAtomic a0 a1 a2 a3 a4 s) := by
  unfold spadAtomic
  repeat' first
    | with_reducible assumption
    | with_reducible apply keep_reachSpad
    | with_reducible apply keep_outsideAccess
    | split

theorem keep_execSpadAtomic {s0 : State} (a0 : CoreId) (a1 : Nat) (a2 : BitVec 15) (a3 : Option Atom) (a4 : Who) (s : State) (h : Keep s0 s) :
    KeepAll s0 (execSpadAtomic a0 a1 a2 a3 a4 s) := by
  unfold execSpadAtomic
  repeat' first
    | with_reducible assumption
    | with_reducible apply keep_spadAtomic
    | with_reducible apply KeepAll.next

theorem keep_answerFront {s0 : State} (a0 : Nat) (a1 : Outside) (a2 : Status) (a3 : BitVec 1024) (s : State) (h : Keep s0 s) :
    Keep s0 (answerFront a0 a1 a2 a3 s) := by
  unfold answerFront
  try extract_lets
  repeat' first
    | with_reducible assumption
    | with_reducible apply keep_answerOut
    | with_reducible apply keep_State_putCore

theorem keep_advance {s0 : State} (a0 : Nat) (a1 : Outside) (s : State) (h : Keep s0 s) :
    Keep s0 (advance a0 a1 s) := by
  unfold advance
  try extract_lets
  repeat' first
    | with_reducible assumption
    | with_reducible apply keep_State_putCore
    | with_reducible apply keep_answerFront
    | extract_lets
    | split

theorem keep_lostData {s0 : State} (a0 : Nat) (a1 : Outside) (s : State) (h : Keep s0 s) :
    Keep s0 (lostData a0 a1 s).2 := by
  unfold lostData
  try extract_lets
  repeat' first
    | with_reducible assumption
    | with_reducible apply keep_ownerLost

theorem keep_lostData_e {s0 : State} {a0 : Nat} {a1 : Outside} {s t : State} {x} (e : lostData a0 a1 s = (x, t)) (h : Keep s0 s) : Keep s0 t := by
  have g := keep_lostData a0 a1 s h 
  rw [e] at g
  exact g

theorem keep_outsideRead {s0 : State} (a0 : Nat) (a1 : Nat) (a2 : Nat) (s : State) (h : Keep s0 s) :
    Keep s0 (outsideRead a0 a1 a2 s).2 := by
  induction a2 generalizing s with
  | zero =>
    unfold outsideRead
    try extract_lets
    repeat' first
      | with_reducible assumption
  | succ n ih =>
    unfold outsideRead
    try extract_lets
    repeat' first
      | with_reducible assumption
      | with_reducible apply ih
      | with_reducible apply keep_spadRead
      | with_reducible apply keep_spadConsume
      | (with_reducible apply keep_spadRead_e; · with_reducible assumption)
      | extract_lets
      | split

theorem keep_outsideRead_e {s0 : State} {a0 : Nat} {a1 : Nat} {a2 : Nat} {s t : State} {x} (e : outsideRead a0 a1 a2 s = (x, t)) (h : Keep s0 s) : Keep s0 t := by
  have g := keep_outsideRead a0 a1 a2 s h 
  rw [e] at g
  exact g

theorem keep_storeLate {s0 : State} (a0 : Nat) (a1 : Outside) (a2 : Nat) (a3 : Nat) (s : State) (h : Keep s0 s) :
    Keep s0 (storeLate a0 a1 a2 a3 s) := by
  unfold storeLate
  try extract_lets
  repeat' first
    | with_reducible assumption
    | with_reducible apply keep_spadStore
    | with_reducible apply keep_advance
    | with_reducible apply keep_State_putCore
    | with_reducible apply keep_lostData
    | (with_reducible apply keep_spadStore_e; · with_reducible assumption)
    | (with_reducible apply keep_lostData_e; · with_reducible assumption)
    | extract_lets
    | split

theorem keep_doPart {s0 : State} (a0 : Nat) (a1 : Outside) (s : State) (h : Keep s0 s) :
    Keep s0 (doPart a0 a1 s) := by
  unfold doPart
  try extract_lets
  repeat' first
    | with_reducible assumption
    | with_reducible apply keep_storeLate
    | with_reducible apply keep_outsideRead
    | with_reducible apply keep_advance
    | with_reducible apply keep_lostData
    | (with_reducible apply keep_outsideRead_e; · with_reducible assumption)
    | (with_reducible apply keep_lostData_e; · with_reducible assumption)
    | extract_lets
    | split

theorem keep_rmwRead {s0 : State} (a0 : Nat) (a1 : Outside) (s : State) (h : Keep s0 s) :
    Keep s0 (rmwRead a0 a1 s) := by
  unfold rmwRead
  try extract_lets
  repeat' first
    | with_reducible assumption
    | with_reducible apply keep_outsideRead
    | with_reducible apply keep_State_putCore
    | with_reducible apply keep_lostData
    | with_reducible apply keep_advance
    | (with_reducible apply keep_outsideRead_e; · with_reducible assumption)
    | (with_reducible apply keep_lostData_e; · with_reducible assumption)
    | extract_lets
    | split

theorem keep_rmwWrite {s0 : State} (a0 : Nat) (a1 : Outside) (a2 : BitVec 512) (s : State) (h : Keep s0 s) :
    Keep s0 (rmwWrite a0 a1 a2 s) := by
  unfold rmwWrite
  try extract_lets
  repeat' first
    | with_reducible assumption
    | with_reducible apply keep_State_putCore
    | with_reducible apply keep_storeLate
    | with_reducible apply keep_incF
    | extract_lets
    | split

theorem keep_rmwCycle {s0 : State} (a0 : Nat) (a1 : Outside) (s : State) (h : Keep s0 s) :
    Keep s0 (rmwCycle a0 a1 s) := by
  unfold rmwCycle
  repeat' first
    | with_reducible assumption
    | with_reducible apply keep_rmwRead
    | with_reducible apply keep_incF
    | with_reducible apply keep_flagF
    | with_reducible apply keep_rmwWrite
    | split

theorem keep_serveOut {s0 : State} (a0 : Nat) (a1 : Outside) (s : State) (h : Keep s0 s) :
    Keep s0 (serveOut a0 a1 s) := by
  unfold serveOut
  try extract_lets
  repeat' first
    | with_reducible assumption
    | with_reducible apply keep_answerFront
    | with_reducible apply keep_advance
    | with_reducible apply keep_regionViol
    | with_reducible apply keep_rmwCycle
    | with_reducible apply keep_doPart
    | extract_lets
    | split

theorem keep_noteGrant {s0 : State} (a0 : Nat) (a1 : Nat) (a2 : Outside) (s : State) (h : Keep s0 s) :
    Keep s0 (noteGrant a0 a1 a2 s) := by
  unfold noteGrant
  try extract_lets
  repeat' first
    | with_reducible assumption
    | with_reducible apply keep_State_putCore

theorem keep_grantOutside {s0 : State} (a0 : Nat) (a1 : Nat) (a2 : Bool) (s : State) (h : Keep s0 s) :
    Keep s0 (grantOutside a0 a1 a2 s) := by
  unfold grantOutside
  repeat' first
    | with_reducible assumption
    | with_reducible apply keep_serveOut
    | with_reducible apply keep_noteGrant
    | split

theorem keep_execSpadOutsideGrant {s0 : State} (a0 : CoreId) (a1 : Fin 16) (s : State) (h : Keep s0 s) :
    KeepAll s0 (execSpadOutsideGrant a0 a1 s) := by
  unfold execSpadOutsideGrant
  repeat' first
    | with_reducible assumption
    | with_reducible apply keep_grantOutside
    | with_reducible apply KeepAll.next

theorem keep_execSpadAliasWrite {s0 : State} (a0 : CoreId) (a1 : Fin 16) (s : State) (h : Keep s0 s) :
    KeepAll s0 (execSpadAliasWrite a0 a1 s) := by
  unfold execSpadAliasWrite
  repeat' first
    | with_reducible assumption
    | with_reducible apply keep_grantOutside
    | with_reducible apply KeepAll.next

theorem keep_grantAll {s0 : State} (a0 : Nat) (s : State) (h : Keep s0 s) :
    Keep s0 (grantAll a0 s) := by
  unfold grantAll
  repeat' first
    | with_reducible assumption
    | with_reducible apply keep_grantOutside
    | with_reducible apply keep_foldl
    | with_reducible apply keep_foldl2
    | with_reducible apply keep_foldl3
    | dsimp only
    | intro _

theorem keep_countWait {s0 : State} (a0 : Nat) (s : State) (h : Keep s0 s) :
    Keep s0 (countWait a0 s) := by
  unfold countWait
  try dsimp only
  repeat' first
    | with_reducible assumption
    | with_reducible apply keep_incF
    | dsimp only
    | split

theorem keep_outsideTick {s0 : State} (a0 : Nat) (s : State) (h : Keep s0 s) :
    Keep s0 (outsideTick a0 s) := by
  unfold outsideTick
  repeat' first
    | with_reducible assumption
    | with_reducible apply keep_countWait
    | with_reducible apply keep_grantAll
    | split

theorem keep_flushLate {s0 : State} (a0 : Nat) (s : State) (h : Keep s0 s) :
    Keep s0 (flushLate a0 s) := by
  unfold flushLate
  try extract_lets
  repeat' first
    | with_reducible assumption
    | with_reducible apply keep_spadStore
    | with_reducible apply keep_State_putCore
    | (with_reducible apply keep_spadStore_e; · with_reducible assumption)
    | extract_lets
    | with_reducible apply keep_foldl
    | with_reducible apply keep_foldl2
    | with_reducible apply keep_foldl3
    | split
    | dsimp only
    | intro _

theorem keep_answerWaiting {s0 : State} (a0 : Nat) (a1 : Status) (s : State) (h : Keep s0 s) :
    Keep s0 (answerWaiting a0 a1 s) := by
  unfold answerWaiting
  try extract_lets
  repeat' first
    | with_reducible assumption
    | with_reducible apply keep_answerOut
    | with_reducible apply keep_State_putCore
    | extract_lets
    | with_reducible apply keep_foldl
    | with_reducible apply keep_foldl2
    | with_reducible apply keep_foldl3
    | dsimp only
    | intro _

theorem keep_drainGroup {s0 : State} (a0 : Nat) (s : State) (h : Keep s0 s) :
    Keep s0 (drainGroup a0 s) := by
  unfold drainGroup
  repeat' first
    | with_reducible assumption
    | with_reducible apply keep_drainMerge
    | with_reducible apply keep_foldl
    | with_reducible apply keep_foldl2
    | with_reducible apply keep_foldl3
    | dsimp only
    | intro _

theorem keep_emptyGroup {s0 : State} (a0 : Nat) (s : State) (h : Keep s0 s) :
    Keep s0 (emptyGroup a0 s) := by
  unfold emptyGroup
  repeat' first
    | with_reducible assumption
    | with_reducible apply keep_invAll
    | with_reducible apply keep_foldl
    | with_reducible apply keep_foldl2
    | with_reducible apply keep_foldl3
    | dsimp only
    | intro _

theorem keep_retentionStep {s0 : State} (a0 : Nat) (s : State) (h : Keep s0 s) :
    Keep s0 (retentionStep a0 s) := by
  unfold retentionStep
  try extract_lets
  repeat' first
    | with_reducible assumption
    | with_reducible apply keep_State_putBgPower
    | with_reducible apply keep_emptyGroup
    | with_reducible apply keep_drainGroup
    | extract_lets
    | split
    | dsimp only
    | with_reducible apply Keep.upd

theorem keep_retentionEnter {s0 : State} (a0 : Nat) (s : State) (h : Keep s0 s) :
    Keep s0 (retentionEnter a0 s) := by
  unfold retentionEnter
  try extract_lets
  repeat' first
    | with_reducible assumption
    | with_reducible apply keep_retentionStep
    | extract_lets
    | split
    | dsimp only
    | with_reducible apply Keep.upd

theorem keep_execBgRetentionEnter {s0 : State} (a0 : BgId) (s : State) (h : Keep s0 s) :
    KeepAll s0 (execBgRetentionEnter a0 s) := by
  unfold execBgRetentionEnter
  repeat' first
    | with_reducible assumption
    | with_reducible apply keep_retentionEnter
    | with_reducible apply KeepAll.next

theorem keep_wakeGroup {s0 : State} (a0 : Nat) (s : State) (h : Keep s0 s) : Keep s0 (wakeGroup a0 s) := by
  unfold wakeGroup
  split
  · exact (keep_State_putBgPower _ _ _ h).wakes _ (swf_sput _ _ _ _)
  · exact h

theorem keep_execBgWake {s0 : State} (a0 : BgId) (s : State) (h : Keep s0 s) :
    KeepAll s0 (execBgWake a0 s) := by
  unfold execBgWake
  repeat' first
    | with_reducible assumption
    | with_reducible apply keep_wakeGroup
    | with_reducible apply KeepAll.next

theorem keep_wakeDone {s0 : State} (a0 : Nat) (s : State) (h : Keep s0 s) :
    Keep s0 (wakeDone a0 s) := by
  unfold wakeDone
  try extract_lets
  repeat' first
    | with_reducible assumption
    | with_reducible apply keep_emptyGroup
    | with_reducible apply keep_State_putBgPower
    | extract_lets
    | split
    | dsimp only
    | with_reducible exact id
    | with_reducible exact swf_sput _ _ _ _
    | with_reducible exact mwf_sput _ _ _
    | with_reducible exact mwf_putBytes _ _ _ _ _
    | with_reducible exact mwf_filter _ _
    | with_reducible exact swf_filter _ _ _
    | with_reducible exact swf_smap _ _ _
    | with_reducible exact log_take _ _
    | with_reducible exact fun g => mwf_putBytes _ _ _ _ _ (mwf_putBytes _ _ _ _ _ g)
    | with_reducible apply Keep.upd
    | with_reducible apply Keep.all

theorem keep_execBgWakeDone {s0 : State} (a0 : BgId) (s : State) (h : Keep s0 s) :
    KeepAll s0 (execBgWakeDone a0 s) := by
  unfold execBgWakeDone
  repeat' first
    | with_reducible assumption
    | with_reducible apply keep_wakeDone
    | with_reducible apply KeepAll.next

end Sys2Proof.Machine
end

