-- ==== Sys2Proof/Laws/KeepBarrow.lean ====
section
/-!
SUPPORT. Keeping: the operations of Barrow.
-/

namespace Sys2Proof.Machine

theorem keep_Seg_find {s0 : State} (a0 : Seg) (a1 : Nat) (a2 : Prog) (a3 : Move) (s : State) (h : Keep s0 s) :
    Keep s0 (Seg.find a0 a1 a2 a3 s).2 := by
  unfold Seg.find
  repeat' first
    | with_reducible assumption
    | with_reducible apply keep_translate
    | (with_reducible apply keep_translate_e; · with_reducible assumption)
    | split

theorem keep_Seg_find_e {s0 : State} {a0 : Seg} {a1 : Nat} {a2 : Prog} {a3 : Move} {s t : State} {x} (e : Seg.find a0 a1 a2 a3 s = (x, t)) (h : Keep s0 s) : Keep s0 t := by
  have g := keep_Seg_find a0 a1 a2 a3 s h 
  rw [e] at g
  exact g

theorem keep_noteTier {s0 : State} (a0 : Nat) (a1 : Move) (a2 : Nat) (s : State) (h : Keep s0 s) :
    Keep s0 (noteTier a0 a1 a2 s).2 := by
  unfold noteTier
  try extract_lets
  repeat' first
    | with_reducible assumption
    | with_reducible apply keep_flagIf
    | extract_lets
    | split

theorem keep_noteTier_e {s0 : State} {a0 : Nat} {a1 : Move} {a2 : Nat} {s t : State} {x} (e : noteTier a0 a1 a2 s = (x, t)) (h : Keep s0 s) : Keep s0 t := by
  have g := keep_noteTier a0 a1 a2 s h 
  rw [e] at g
  exact g

theorem keep_postSelf {s0 : State} (a0 : Nat) (a1 : Prog) (a2 : Nat) (a3 : Nat) (a4 : Nat) (a5 : Bool) (a6 : Nat) (a7 : Option Atom) (a8 : BitVec 32) (a9 : BitVec 16) (s : State) (h : Keep s0 s) :
    Keep s0 (postSelf a0 a1 a2 a3 a4 a5 a6 a7 a8 a9 s).2 := by
  unfold postSelf
  try extract_lets
  repeat' first
    | with_reducible assumption
    | with_reducible apply keep_post
    | with_reducible apply keep_underSpad
    | (with_reducible apply keep_post_e; · with_reducible assumption)
    | extract_lets
    | split

theorem keep_postSelf_e {s0 : State} {a0 : Nat} {a1 : Prog} {a2 : Nat} {a3 : Nat} {a4 : Nat} {a5 : Bool} {a6 : Nat} {a7 : Option Atom} {a8 : BitVec 32} {a9 : BitVec 16} {s t : State} {x} (e : postSelf a0 a1 a2 a3 a4 a5 a6 a7 a8 a9 s = (x, t)) (h : Keep s0 s) : Keep s0 t := by
  have g := keep_postSelf a0 a1 a2 a3 a4 a5 a6 a7 a8 a9 s h 
  rw [e] at g
  exact g

theorem keep_sendRead {s0 : State} (a0 : Nat) (a1 : Prog) (a2 : Move) (a3 : Seg) (a4 : Nat) (a5 : Policy) (s : State) (h : Keep s0 s) :
    Keep s0 (sendRead a0 a1 a2 a3 a4 a5 s).2 := by
  unfold sendRead
  try dsimp only
  repeat' first
    | with_reducible assumption
    | with_reducible apply keep_noteTier
    | with_reducible apply keep_readLine
    | with_reducible apply keep_postSelf
    | (with_reducible apply keep_noteTier_e; · with_reducible assumption)
    | (with_reducible apply keep_readLine_e; · with_reducible assumption)
    | (with_reducible apply keep_postSelf_e; · with_reducible assumption)
    | dsimp only
    | split

theorem keep_sendRead_e {s0 : State} {a0 : Nat} {a1 : Prog} {a2 : Move} {a3 : Seg} {a4 : Nat} {a5 : Policy} {s t : State} {x} (e : sendRead a0 a1 a2 a3 a4 a5 s = (x, t)) (h : Keep s0 s) : Keep s0 t := by
  have g := keep_sendRead a0 a1 a2 a3 a4 a5 s h 
  rw [e] at g
  exact g

theorem keep_sendWrite {s0 : State} (a0 : Nat) (a1 : Prog) (a2 : Move) (a3 : Seg) (a4 : Nat) (a5 : Policy) (s : State) (h : Keep s0 s) :
    Keep s0 (sendWrite a0 a1 a2 a3 a4 a5 s).2 := by
  unfold sendWrite
  try extract_lets
  repeat' first
    | with_reducible assumption
    | with_reducible apply keep_writeLine
    | with_reducible apply keep_postSelf
    | (with_reducible apply keep_writeLine_e; · with_reducible assumption)
    | (with_reducible apply keep_postSelf_e; · with_reducible assumption)
    | extract_lets
    | split

theorem keep_sendWrite_e {s0 : State} {a0 : Nat} {a1 : Prog} {a2 : Move} {a3 : Seg} {a4 : Nat} {a5 : Policy} {s t : State} {x} (e : sendWrite a0 a1 a2 a3 a4 a5 s = (x, t)) (h : Keep s0 s) : Keep s0 t := by
  have g := keep_sendWrite a0 a1 a2 a3 a4 a5 s h 
  rw [e] at g
  exact g

theorem keep_sendElem {s0 : State} (b : Nat) (p : Prog) (g : Seg) (pa : Nat) (z : Move × State) (i : Nat) (h : Keep s0 z.2) :
    Keep s0 (sendElem b p g pa z i).2 := by
  unfold sendElem
  dsimp only
  split
  · exact keep_post _ _ _ _ _ _ _ _ _ _ _ h
  · exact keep_postSelf _ _ _ _ _ _ _ _ _ _ _ h

theorem keep_sendAtoms {s0 : State} (a0 : Nat) (a1 : Prog) (a2 : Move) (a3 : Seg) (a4 : Nat) (a5 : Policy) (s : State) (h : Keep s0 s) :
    Keep s0 (sendAtoms a0 a1 a2 a3 a4 a5 s).2 := by
  unfold sendAtoms
  try dsimp only
  repeat' first
    | with_reducible assumption
    | with_reducible apply keep_sendRead
    | with_reducible apply keep_sendWrite
    | with_reducible apply keep_invLine
    | with_reducible apply keep_sendElem
    | (with_reducible apply keep_sendRead_e; · with_reducible assumption)
    | (with_reducible apply keep_sendWrite_e; · with_reducible assumption)
    | dsimp only
    | with_reducible apply keep_foldl
    | with_reducible apply keep_foldl2
    | with_reducible apply keep_foldl3
    | split

theorem keep_sendAtoms_e {s0 : State} {a0 : Nat} {a1 : Prog} {a2 : Move} {a3 : Seg} {a4 : Nat} {a5 : Policy} {s t : State} {x} (e : sendAtoms a0 a1 a2 a3 a4 a5 s = (x, t)) (h : Keep s0 s) : Keep s0 t := by
  have g := keep_sendAtoms a0 a1 a2 a3 a4 a5 s h 
  rw [e] at g
  exact g

theorem keep_sendAhead {s0 : State} (a0 : Nat) (a1 : Move) (a2 : Nat) (a3 : Policy) (s : State) (h : Keep s0 s) :
    Keep s0 (sendAhead a0 a1 a2 a3 s).2 := by
  unfold sendAhead
  try extract_lets
  repeat' first
    | with_reducible assumption
    | with_reducible apply keep_noteTier
    | with_reducible apply keep_bedcPrefetch

theorem keep_sendAhead_e {s0 : State} {a0 : Nat} {a1 : Move} {a2 : Nat} {a3 : Policy} {s t : State} {x} (e : sendAhead a0 a1 a2 a3 s = (x, t)) (h : Keep s0 s) : Keep s0 t := by
  have g := keep_sendAhead a0 a1 a2 a3 s h 
  rw [e] at g
  exact g

theorem keep_sendPiece {s0 : State} (a0 : Nat) (a1 : Prog) (a2 : Move) (a3 : Seg) (a4 : Nat) (a5 : Policy) (s : State) (h : Keep s0 s) :
    Keep s0 (sendPiece a0 a1 a2 a3 a4 a5 s).2 := by
  unfold sendPiece
  try extract_lets
  repeat' first
    | with_reducible assumption
    | with_reducible apply keep_sendRead
    | with_reducible apply keep_sendWrite
    | with_reducible apply keep_sendAtoms
    | with_reducible apply keep_sendAhead
    | (with_reducible apply keep_sendRead_e; · with_reducible assumption)
    | (with_reducible apply keep_sendWrite_e; · with_reducible assumption)
    | (with_reducible apply keep_sendAtoms_e; · with_reducible assumption)
    | (with_reducible apply keep_sendAhead_e; · with_reducible assumption)
    | extract_lets
    | split

theorem keep_sendPiece_e {s0 : State} {a0 : Nat} {a1 : Prog} {a2 : Move} {a3 : Seg} {a4 : Nat} {a5 : Policy} {s t : State} {x} (e : sendPiece a0 a1 a2 a3 a4 a5 s = (x, t)) (h : Keep s0 s) : Keep s0 t := by
  have g := keep_sendPiece a0 a1 a2 a3 a4 a5 s h 
  rw [e] at g
  exact g

theorem keep_beginRel {s0 : State} (a0 : Nat) (a1 : Move) (s : State) (h : Keep s0 s) :
    Keep s0 (beginRel a0 a1 s).2 := by
  unfold beginRel
  try extract_lets
  repeat' first
    | with_reducible assumption
    | with_reducible apply keep_drainMerge
    | extract_lets
    | split

theorem keep_beginRel_e {s0 : State} {a0 : Nat} {a1 : Move} {s t : State} {x} (e : beginRel a0 a1 s = (x, t)) (h : Keep s0 s) : Keep s0 t := by
  have g := keep_beginRel a0 a1 s h 
  rw [e] at g
  exact g

theorem keep_issuePiece {s0 : State} (a0 : Nat) (a1 : Prog) (a2 : Move) (a3 : Seg) (a4 : Bool) (s : State) (h : Keep s0 s) :
    Keep s0 (issuePiece a0 a1 a2 a3 a4 s).2.2 := by
  unfold issuePiece
  try extract_lets
  repeat' first
    | with_reducible assumption
    | with_reducible apply keep_beginRel
    | with_reducible apply keep_drainMerge
    | with_reducible apply keep_Seg_find
    | with_reducible apply keep_sendPiece
    | (with_reducible apply keep_beginRel_e; · with_reducible assumption)
    | (with_reducible apply keep_Seg_find_e; · with_reducible assumption)
    | (with_reducible apply keep_sendPiece_e; · with_reducible assumption)
    | extract_lets
    | split

theorem keep_issuePiece_e {s0 : State} {a0 : Nat} {a1 : Prog} {a2 : Move} {a3 : Seg} {a4 : Bool} {s t : State} {x} {y} (e : issuePiece a0 a1 a2 a3 a4 s = (x, y, t)) (h : Keep s0 s) : Keep s0 t := by
  have g := keep_issuePiece a0 a1 a2 a3 a4 s h 
  rw [e] at g
  exact g

theorem keep_issueMove {s0 : State} (b : Nat) (p : Prog) (lines : Bool) (f : Nat) (m : Move) (s : State) (h : Keep s0 s) :
    Keep s0 (issueMove b p lines f m s).s := by
  induction f generalizing m s with
  | zero => exact h
  | succ n ih =>
    unfold issueMove
    split
    · exact h
    · dsimp only
      split
      · exact keep_issuePiece _ _ _ _ _ _ h
      · split
        · exact keep_issuePiece _ _ _ _ _ _ h
        · exact ih _ _ (keep_issuePiece _ _ _ _ _ _ h)

theorem keep_runIssue {s0 : State} (a0 : Nat) (a1 : Prog) (a2 : Move) (a3 : Bool) (s : State) (h : Keep s0 s) :
    Keep s0 (runIssue a0 a1 a2 a3 s).2 := by
  unfold runIssue
  try extract_lets
  repeat' first
    | with_reducible assumption
    | with_reducible apply keep_issueMove
    | with_reducible apply keep_putMove

theorem keep_runIssue_e {s0 : State} {a0 : Nat} {a1 : Prog} {a2 : Move} {a3 : Bool} {s t : State} {x} (e : runIssue a0 a1 a2 a3 s = (x, t)) (h : Keep s0 s) : Keep s0 t := by
  have g := keep_runIssue a0 a1 a2 a3 s h 
  rw [e] at g
  exact g

theorem keep_Move_take {s0 : State} (a0 : Nat) (a1 : Move) (a2 : Fly) (a3 : Req) (s : State) (h : Keep s0 s) :
    Keep s0 (Move.take a0 a1 a2 a3 s).2 := by
  unfold Move.take
  try extract_lets
  repeat' first
    | with_reducible assumption
    | with_reducible apply keep_incF
    | extract_lets
    | split

theorem keep_Move_take_e {s0 : State} {a0 : Nat} {a1 : Move} {a2 : Fly} {a3 : Req} {s t : State} {x} (e : Move.take a0 a1 a2 a3 s = (x, t)) (h : Keep s0 s) : Keep s0 t := by
  have g := keep_Move_take a0 a1 a2 a3 s h 
  rw [e] at g
  exact g

theorem keep_collectFly {s0 : State} (a0 : Nat) (a2 : Nat × Nat × Nat) (s : State) (h : Keep s0 s) :
    Keep s0 (collectFly a0 s a2) := by
  unfold collectFly
  try extract_lets
  repeat' first
    | with_reducible assumption
    | with_reducible apply keep_Move_take
    | with_reducible apply keep_netDel
    | with_reducible apply keep_runIssue
    | (with_reducible apply keep_Move_take_e; · with_reducible assumption)
    | (with_reducible apply keep_runIssue_e; · with_reducible assumption)
    | extract_lets
    | split

theorem keep_collect {s0 : State} (a0 : Nat) (s : State) (h : Keep s0 s) :
    Keep s0 (collect a0 s) := by
  unfold collect
  try extract_lets
  repeat' first
    | with_reducible assumption
    | with_reducible apply keep_collectFly
    | with_reducible apply keep_reap
    | extract_lets
    | with_reducible apply keep_foldl
    | with_reducible apply keep_foldl2
    | with_reducible apply keep_foldl3
    | dsimp only
    | intro _

theorem keep_acquire {s0 : State} (a0 : Nat) (a1 : Move) (s : State) (h : Keep s0 s) :
    Keep s0 (acquire a0 a1 s).2 := by
  unfold acquire
  try extract_lets
  repeat' first
    | with_reducible assumption
    | with_reducible apply keep_invShared
    | extract_lets
    | split

theorem keep_acquire_e {s0 : State} {a0 : Nat} {a1 : Move} {s t : State} {x} (e : acquire a0 a1 s = (x, t)) (h : Keep s0 s) : Keep s0 t := by
  have g := keep_acquire a0 a1 s h 
  rw [e] at g
  exact g

theorem keep_tryIssue {s0 : State} (b : Nat) (z : Bool × State) (x : Nat × Nat) (h : Keep s0 z.2) :
    Keep s0 (tryIssue b z x).2 := by
  unfold tryIssue
  repeat' first
    | with_reducible assumption
    | with_reducible apply keep_State_putBed
    | with_reducible apply keep_readMore
    | with_reducible apply keep_runIssue
    | split
    | dsimp only

theorem keep_moveIssue {s0 : State} (a0 : Nat) (s : State) (h : Keep s0 s) :
    Keep s0 (moveIssue a0 s) := by
  unfold moveIssue
  try extract_lets
  repeat' first
    | with_reducible assumption
    | with_reducible apply keep_collect
    | with_reducible apply keep_readMore
    | with_reducible apply keep_tryIssue
    | extract_lets
    | with_reducible apply keep_foldl
    | with_reducible apply keep_foldl2
    | with_reducible apply keep_foldl3
    | split
    | dsimp only
    | intro _

theorem keep_execMoveIssue {s0 : State} (a0 : BedId) (s : State) (h : Keep s0 s) :
    KeepAll s0 (execMoveIssue a0 s) := by
  unfold execMoveIssue
  repeat' first
    | with_reducible assumption
    | with_reducible apply keep_moveIssue
    | with_reducible apply KeepAll.next

theorem keep_stepMove {s0 : State} (a0 : Nat) (a1 : Nat) (a2 : Nat) (a3 : Nat) (a4 : Prog →   Move → State → Move × State) (s : State) (h : Keep s0 s) (h4 : ∀ u0 u1 z, Keep s0 z → Keep s0 (a4 u0 u1 z).2) :
    Keep s0 (stepMove a0 a1 a2 a3 a4 s) := by
  unfold stepMove
  try extract_lets
  repeat' first
    | with_reducible assumption
    | with_reducible apply h4
    | with_reducible apply keep_collect
    | with_reducible apply keep_readMore
    | with_reducible apply keep_runIssue
    | (with_reducible apply keep_runIssue_e; · with_reducible assumption)
    | extract_lets
    | split

theorem keep_withAddr {s0 : State} (a0 : Nat) (a1 : Prog) (a2 : Move) (a3 : Nat) (a4 : Bool) (a5 : Nat → State → Move × State) (s : State) (h : Keep s0 s) (h5 : ∀ u0 z, Keep s0 z → Keep s0 (a5 u0 z).2) :
    Keep s0 (withAddr a0 a1 a2 a3 a4 a5 s).2 := by
  unfold withAddr
  try extract_lets
  repeat' first
    | with_reducible assumption
    | with_reducible apply h5
    | with_reducible apply keep_translate
    | (with_reducible apply keep_translate_e; · with_reducible assumption)
    | extract_lets
    | split

theorem keep_withAddr_e {s0 : State} {a0 : Nat} {a1 : Prog} {a2 : Move} {a3 : Nat} {a4 : Bool} {a5 : Nat → State → Move × State} {s t : State} {x} (e : withAddr a0 a1 a2 a3 a4 a5 s = (x, t)) (h : Keep s0 s) (h5 : ∀ u0 z, Keep s0 z → Keep s0 (a5 u0 z).2) : Keep s0 t := by
  have g := keep_withAddr a0 a1 a2 a3 a4 a5 s h h5
  rw [e] at g
  exact g

theorem keep_withT0 {s0 : State} (a0 : Nat) (a1 : Prog) (a2 : Move) (a3 : Nat) (a4 : Bool) (a5 : Nat → Nat → Nat → State → Move × State) (s : State) (h : Keep s0 s) (h5 : ∀ u0 u1 u2 z, Keep s0 z → Keep s0 (a5 u0 u1 u2 z).2) :
    Keep s0 (withT0 a0 a1 a2 a3 a4 a5 s).2 := by
  unfold withT0
  repeat' first
    | with_reducible assumption
    | with_reducible apply h5
    | with_reducible apply keep_withAddr
    | split
    | dsimp only
    | intro _

theorem keep_withT0_e {s0 : State} {a0 : Nat} {a1 : Prog} {a2 : Move} {a3 : Nat} {a4 : Bool} {a5 : Nat → Nat → Nat → State → Move × State} {s t : State} {x} (e : withT0 a0 a1 a2 a3 a4 a5 s = (x, t)) (h : Keep s0 s) (h5 : ∀ u0 u1 u2 z, Keep s0 z → Keep s0 (a5 u0 u1 u2 z).2) : Keep s0 t := by
  have g := keep_withT0 a0 a1 a2 a3 a4 a5 s h h5
  rw [e] at g
  exact g

end Sys2Proof.Machine
end

