-- ==== Sys2Proof/Laws/KeepMoves.lean ====
section
/-!
SUPPORT. Keeping: the operations of Moves.
-/

namespace Sys2Proof.Machine

theorem keep_loadStep {s0 : State} (a0 : Nat) (a1 : Prog) (a2 : Move) (s : State) (h : Keep s0 s) :
    Keep s0 (loadStep a0 a1 a2 s).2 := by
  unfold loadStep
  try extract_lets
  repeat' first
    | with_reducible assumption
    | with_reducible apply keep_acquire
    | with_reducible apply keep_withT0
    | with_reducible apply keep_flagIf
    | (with_reducible apply keep_acquire_e; · with_reducible assumption)
    | extract_lets
    | dsimp only
    | with_reducible exact id
    | with_reducible exact swf_sput _ _ _ _
    | with_reducible exact mwf_sput _ _ _
    | with_reducible exact mwf_putBytes _ _ _ _ _
    | with_reducible exact mwf_filter _ _
    | with_reducible exact swf_filter _ _ _
    | with_reducible exact swf_smap _ _ _
    | with_reducible exact log_take _ _
    | with_reducible exact fun g => mwf_putBytes _ _ _ _ _ (mwf_putBytes _ _ _ _ _ g)
    | intro _

theorem keep_loadStep_e {s0 : State} {a0 : Nat} {a1 : Prog} {a2 : Move} {s t : State} {x} (e : loadStep a0 a1 a2 s = (x, t)) (h : Keep s0 s) : Keep s0 t := by
  have g := keep_loadStep a0 a1 a2 s h 
  rw [e] at g
  exact g

theorem keep_execMoveLoad {s0 : State} (a0 : BedId) (a1 : Nat) (a2 : Nat) (s : State) (h : Keep s0 s) :
    KeepAll s0 (execMoveLoad a0 a1 a2 s) := by
  unfold execMoveLoad
  repeat' first
    | with_reducible assumption
    | with_reducible apply keep_stepMove
    | with_reducible apply keep_loadStep
    | with_reducible apply KeepAll.next

theorem keep_storeStep {s0 : State} (a0 : Nat) (a1 : Prog) (a2 : Move) (s : State) (h : Keep s0 s) :
    Keep s0 (storeStep a0 a1 a2 s).2 := by
  unfold storeStep
  try extract_lets
  repeat' first
    | with_reducible assumption
    | with_reducible apply keep_withT0
    | with_reducible apply keep_acquire
    | with_reducible apply keep_flagIf
    | (with_reducible apply keep_withT0_e; · with_reducible assumption)
    | (with_reducible apply keep_acquire_e; · with_reducible assumption)
    | extract_lets
    | split
    | dsimp only
    | intro _

theorem keep_storeStep_e {s0 : State} {a0 : Nat} {a1 : Prog} {a2 : Move} {s t : State} {x} (e : storeStep a0 a1 a2 s = (x, t)) (h : Keep s0 s) : Keep s0 t := by
  have g := keep_storeStep a0 a1 a2 s h 
  rw [e] at g
  exact g

theorem keep_execMoveStore {s0 : State} (a0 : BedId) (a1 : Nat) (a2 : Nat) (s : State) (h : Keep s0 s) :
    KeepAll s0 (execMoveStore a0 a1 a2 s) := by
  unfold execMoveStore
  repeat' first
    | with_reducible assumption
    | with_reducible apply keep_stepMove
    | with_reducible apply keep_storeStep
    | with_reducible apply KeepAll.next

theorem keep_tcopyStep {s0 : State} (a0 : Nat) (a1 : Prog) (a2 : Move) (s : State) (h : Keep s0 s) :
    Keep s0 (tcopyStep a0 a1 a2 s).2 := by
  unfold tcopyStep
  try extract_lets
  repeat' first
    | with_reducible assumption
    | with_reducible apply keep_acquire
    | with_reducible apply keep_flagIf

theorem keep_tcopyStep_e {s0 : State} {a0 : Nat} {a1 : Prog} {a2 : Move} {s t : State} {x} (e : tcopyStep a0 a1 a2 s = (x, t)) (h : Keep s0 s) : Keep s0 t := by
  have g := keep_tcopyStep a0 a1 a2 s h 
  rw [e] at g
  exact g

theorem keep_execMoveTcopy {s0 : State} (a0 : BedId) (a1 : Nat) (a2 : Nat) (s : State) (h : Keep s0 s) :
    KeepAll s0 (execMoveTcopy a0 a1 a2 s) := by
  unfold execMoveTcopy
  repeat' first
    | with_reducible assumption
    | with_reducible apply keep_stepMove
    | with_reducible apply keep_tcopyStep
    | with_reducible apply KeepAll.next

theorem keep_copyStep {s0 : State} (a0 : Nat) (a1 : Prog) (a2 : Move) (s : State) (h : Keep s0 s) :
    Keep s0 (copyStep a0 a1 a2 s).2 := by
  unfold copyStep
  try extract_lets
  repeat' first
    | with_reducible assumption
    | with_reducible apply keep_acquire

theorem keep_copyStep_e {s0 : State} {a0 : Nat} {a1 : Prog} {a2 : Move} {s t : State} {x} (e : copyStep a0 a1 a2 s = (x, t)) (h : Keep s0 s) : Keep s0 t := by
  have g := keep_copyStep a0 a1 a2 s h 
  rw [e] at g
  exact g

theorem keep_execMoveCopy {s0 : State} (a0 : BedId) (a1 : Nat) (a2 : Nat) (s : State) (h : Keep s0 s) :
    KeepAll s0 (execMoveCopy a0 a1 a2 s) := by
  unfold execMoveCopy
  repeat' first
    | with_reducible assumption
    | with_reducible apply keep_stepMove
    | with_reducible apply keep_copyStep
    | with_reducible apply KeepAll.next

theorem keep_idleStep {s0 : State} (a0 : Nat) (a1 : Prog) (a2 : Move) (s : State) (h : Keep s0 s) :
    Keep s0 (idleStep a0 a1 a2 s).2 := by
  unfold idleStep
  try extract_lets
  repeat' first
    | with_reducible assumption
    | with_reducible apply keep_acquire

theorem keep_idleStep_e {s0 : State} {a0 : Nat} {a1 : Prog} {a2 : Move} {s t : State} {x} (e : idleStep a0 a1 a2 s = (x, t)) (h : Keep s0 s) : Keep s0 t := by
  have g := keep_idleStep a0 a1 a2 s h 
  rw [e] at g
  exact g

theorem keep_execMoveNop {s0 : State} (a0 : BedId) (a1 : Nat) (a2 : Nat) (s : State) (h : Keep s0 s) :
    KeepAll s0 (execMoveNop a0 a1 a2 s) := by
  unfold execMoveNop
  repeat' first
    | with_reducible assumption
    | with_reducible apply keep_stepMove
    | with_reducible apply keep_idleStep
    | with_reducible apply KeepAll.next

theorem keep_execMovePrefetch {s0 : State} (a0 : BedId) (a1 : Nat) (a2 : Nat) (s : State) (h : Keep s0 s) :
    KeepAll s0 (execMovePrefetch a0 a1 a2 s) := by
  unfold execMovePrefetch
  repeat' first
    | with_reducible assumption
    | with_reducible apply keep_stepMove
    | with_reducible apply keep_idleStep
    | with_reducible apply KeepAll.next

theorem keep_atomicStep {s0 : State} (a0 : Nat) (a1 : Prog) (a2 : Move) (s : State) (h : Keep s0 s) :
    Keep s0 (atomicStep a0 a1 a2 s).2 := by
  unfold atomicStep
  try extract_lets
  repeat' first
    | with_reducible assumption
    | with_reducible apply keep_withT0
    | (with_reducible apply keep_withT0_e; · with_reducible assumption)
    | extract_lets
    | split
    | dsimp only
    | with_reducible exact id
    | with_reducible exact swf_sput _ _ _ _
    | with_reducible exact mwf_sput _ _ _
    | with_reducible exact mwf_putBytes _ _ _ _ _
    | with_reducible exact mwf_filter _ _
    | with_reducible exact swf_filter _ _ _
    | with_reducible exact swf_smap _ _ _
    | with_reducible exact log_take _ _
    | with_reducible exact fun g => mwf_putBytes _ _ _ _ _ (mwf_putBytes _ _ _ _ _ g)
    | intro _

theorem keep_atomicStep_e {s0 : State} {a0 : Nat} {a1 : Prog} {a2 : Move} {s t : State} {x} (e : atomicStep a0 a1 a2 s = (x, t)) (h : Keep s0 s) : Keep s0 t := by
  have g := keep_atomicStep a0 a1 a2 s h 
  rw [e] at g
  exact g

theorem keep_execMoveAtomic {s0 : State} (a0 : BedId) (a1 : Nat) (a2 : Nat) (s : State) (h : Keep s0 s) :
    KeepAll s0 (execMoveAtomic a0 a1 a2 s) := by
  unfold execMoveAtomic
  repeat' first
    | with_reducible assumption
    | with_reducible apply keep_stepMove
    | with_reducible apply keep_atomicStep
    | with_reducible apply KeepAll.next

theorem keep_fetchTag4 {s0 : State} (a0 : Nat) (a1 : Prog) (a2 : Move) (s : State) (h : Keep s0 s) :
    Keep s0 (fetchTag4 a0 a1 a2 s).2 := by
  unfold fetchTag4
  try extract_lets
  repeat' first
    | with_reducible assumption
    | with_reducible apply keep_withAddr
    | with_reducible apply keep_drainMerge
    | (with_reducible apply keep_withAddr_e; · with_reducible assumption)
    | extract_lets
    | split
    | dsimp only
    | with_reducible exact id
    | with_reducible exact swf_sput _ _ _ _
    | with_reducible exact mwf_sput _ _ _
    | with_reducible exact mwf_putBytes _ _ _ _ _
    | with_reducible exact mwf_filter _ _
    | with_reducible exact swf_filter _ _ _
    | with_reducible exact swf_smap _ _ _
    | with_reducible exact log_take _ _
    | with_reducible exact fun g => mwf_putBytes _ _ _ _ _ (mwf_putBytes _ _ _ _ _ g)
    | intro _

theorem keep_fetchTag4_e {s0 : State} {a0 : Nat} {a1 : Prog} {a2 : Move} {s t : State} {x} (e : fetchTag4 a0 a1 a2 s = (x, t)) (h : Keep s0 s) : Keep s0 t := by
  have g := keep_fetchTag4 a0 a1 a2 s h 
  rw [e] at g
  exact g

theorem keep_fetchWrite {s0 : State} (a0 : Nat) (a1 : Prog) (a2 : Move) (s : State) (h : Keep s0 s) :
    Keep s0 (fetchWrite a0 a1 a2 s).2 := by
  unfold fetchWrite
  try extract_lets
  repeat' first
    | with_reducible assumption
    | with_reducible apply keep_drainMerge
    | extract_lets
    | split

theorem keep_fetchWrite_e {s0 : State} {a0 : Nat} {a1 : Prog} {a2 : Move} {s t : State} {x} (e : fetchWrite a0 a1 a2 s = (x, t)) (h : Keep s0 s) : Keep s0 t := by
  have g := keep_fetchWrite a0 a1 a2 s h 
  rw [e] at g
  exact g

theorem keep_fetchStep {s0 : State} (a0 : Nat) (a1 : Prog) (a2 : Move) (s : State) (h : Keep s0 s) :
    Keep s0 (fetchStep a0 a1 a2 s).2 := by
  unfold fetchStep
  try extract_lets
  repeat' first
    | with_reducible assumption
    | with_reducible apply keep_fetchTag4
    | with_reducible apply keep_fetchWrite
    | with_reducible apply keep_storeAdvance
    | (with_reducible apply keep_fetchTag4_e; · with_reducible assumption)
    | (with_reducible apply keep_fetchWrite_e; · with_reducible assumption)
    | extract_lets
    | split

theorem keep_fetchStep_e {s0 : State} {a0 : Nat} {a1 : Prog} {a2 : Move} {s t : State} {x} (e : fetchStep a0 a1 a2 s = (x, t)) (h : Keep s0 s) : Keep s0 t := by
  have g := keep_fetchStep a0 a1 a2 s h 
  rw [e] at g
  exact g

theorem keep_fetch4 {s0 : State} (a0 : Nat) (a1 : Nat) (a2 : Nat) (s : State) (h : Keep s0 s) :
    Keep s0 (fetch4 a0 a1 a2 s) := by
  unfold fetch4
  try extract_lets
  repeat' first
    | with_reducible assumption
    | with_reducible apply keep_stepMove
    | with_reducible apply keep_fetchStep
    | with_reducible apply keep_drainMerge
    | (with_reducible apply keep_fetchStep_e; · with_reducible assumption)
    | extract_lets
    | split

theorem keep_execMoveFetch4 {s0 : State} (a0 : BedId) (a1 : Nat) (a2 : Nat) (s : State) (h : Keep s0 s) :
    KeepAll s0 (execMoveFetch4 a0 a1 a2 s) := by
  unfold execMoveFetch4
  repeat' first
    | with_reducible assumption
    | with_reducible apply keep_fetch4
    | with_reducible apply KeepAll.next

theorem keep_t4Done {s0 : State} (a0 : Nat) (a1 : Nat) (a2 : Bool) (s : State) (h : Keep s0 s) :
    Keep s0 (t4Done a0 a1 a2 s) := by
  unfold t4Done
  try extract_lets
  repeat' first
    | with_reducible assumption
    | with_reducible apply keep_putMove
    | with_reducible apply keep_incF
    | with_reducible apply keep_invShared
    | extract_lets
    | split

theorem keep_execT4Done {s0 : State} (a0 : BedId) (a1 : Fin 16) (a2 : Bool) (s : State) (h : Keep s0 s) :
    KeepAll s0 (execT4Done a0 a1 a2 s) := by
  unfold execT4Done
  repeat' first
    | with_reducible assumption
    | with_reducible apply keep_t4Done
    | with_reducible apply KeepAll.next

end Sys2Proof.Machine
end

