-- ==== Sys2Proof/Laws/KeepMoveEnd.lean ====
section
/-!
SUPPORT. Keeping: the operations of MoveEnd.
-/

namespace Sys2Proof.Machine

theorem keep_flagMay {s0 : State} (a0 : Nat) (a1 : Nat) (a2 : Move) (s : State) (h : Keep s0 s) :
    Keep s0 (flagMay a0 a1 a2 s).2 := by
  unfold flagMay
  try extract_lets
  repeat' first
    | with_reducible assumption
    | with_reducible apply keep_drainMerge
    | with_reducible apply keep_putMove
    | extract_lets
    | split

theorem keep_flagMay_e {s0 : State} {a0 : Nat} {a1 : Nat} {a2 : Move} {s t : State} {x} (e : flagMay a0 a1 a2 s = (x, t)) (h : Keep s0 s) : Keep s0 t := by
  have g := keep_flagMay a0 a1 a2 s h 
  rw [e] at g
  exact g

theorem keep_finishMove {s0 : State} (a0 : Nat) (a1 : Prog) (a2 : Move) (s : State) (h : Keep s0 s) :
    Keep s0 (finishMove a0 a1 a2 s) := by
  unfold finishMove
  try extract_lets
  repeat' first
    | with_reducible assumption
    | with_reducible apply keep_deliver
    | with_reducible apply keep_incF
    | with_reducible apply keep_flagF
    | with_reducible apply keep_acquire
    | with_reducible apply keep_putMove
    | with_reducible apply keep_endProg
    | with_reducible apply keep_readMore
    | (with_reducible apply keep_acquire_e; · with_reducible assumption)
    | extract_lets
    | with_reducible apply keep_foldl
    | with_reducible apply keep_foldl2
    | with_reducible apply keep_foldl3
    | split
    | dsimp only
    | intro _
    | with_reducible apply Keep.upd

theorem keep_moveComplete {s0 : State} (a0 : Nat) (a1 : Nat) (a2 : Nat) (s : State) (h : Keep s0 s) :
    Keep s0 (moveComplete a0 a1 a2 s) := by
  unfold moveComplete
  try extract_lets
  repeat' first
    | with_reducible assumption
    | with_reducible apply keep_collect
    | with_reducible apply keep_flagMay
    | with_reducible apply keep_finishMove
    | (with_reducible apply keep_flagMay_e; · with_reducible assumption)
    | extract_lets
    | split

theorem keep_execMoveComplete {s0 : State} (a0 : BedId) (a1 : Nat) (a2 : Nat) (s : State) (h : Keep s0 s) :
    KeepAll s0 (execMoveComplete a0 a1 a2 s) := by
  unfold execMoveComplete
  repeat' first
    | with_reducible assumption
    | with_reducible apply keep_moveComplete
    | with_reducible apply KeepAll.next

theorem keep_moveError {s0 : State} (a0 : Nat) (a1 : Nat) (a2 : Nat) (s : State) (h : Keep s0 s) :
    Keep s0 (moveError a0 a1 a2 s) := by
  unfold moveError
  try extract_lets
  repeat' first
    | with_reducible assumption
    | with_reducible apply keep_collect
    | with_reducible apply keep_failProg
    | extract_lets
    | split

theorem keep_execMoveError {s0 : State} (a0 : BedId) (a1 : Nat) (a2 : Nat) (s : State) (h : Keep s0 s) :
    KeepAll s0 (execMoveError a0 a1 a2 s) := by
  unfold execMoveError
  repeat' first
    | with_reducible assumption
    | with_reducible apply keep_moveError
    | with_reducible apply KeepAll.next

theorem keep_brwStall {s0 : State} (a0 : Nat) (s : State) (h : Keep s0 s) :
    Keep s0 (brwStall a0 s) := by
  unfold brwStall
  repeat' first
    | with_reducible assumption
    | with_reducible apply keep_incF
    | split

end Sys2Proof.Machine
end

