-- ==== Sys2Proof/Laws/KeepSeq.lean ====
section
/-!
SUPPORT. Keeping: the operations of Seq.
-/

namespace Sys2Proof.Machine

theorem keep_ibRefill {s0 : State} (a0 : Nat) (a1 : Nat) (a2 : Nat) (s : State) (h : Keep s0 s) :
    Keep s0 (ibRefill a0 a1 a2 s) := by
  unfold ibRefill
  try extract_lets
  repeat' first
    | with_reducible assumption
    | with_reducible apply keep_State_putCore
    | extract_lets
    | with_reducible apply keep_foldl
    | with_reducible apply keep_foldl2
    | with_reducible apply keep_foldl3
    | split
    | dsimp only
    | intro _

theorem keep_execIbRefill {s0 : State} (a0 : BedId) (a1 : Nat) (a2 : Nat) (s : State) (h : Keep s0 s) :
    KeepAll s0 (execIbRefill a0 a1 a2 s) := by
  unfold execIbRefill
  repeat' first
    | with_reducible assumption
    | with_reducible apply keep_ibRefill
    | with_reducible apply KeepAll.next

theorem keep_takeLine {s0 : State} (a0 : Nat) (a1 : Nat) (a2 : Nat) (a3 : Nat) (s : State) (h : Keep s0 s) :
    Keep s0 (takeLine a0 a1 a2 a3 s) := by
  unfold takeLine
  try extract_lets
  repeat' first
    | with_reducible assumption
    | with_reducible apply keep_State_putCore

theorem keep_prefetchNext {s0 : State} (a0 : Nat) (a1 : Nat) (a2 : Nat) (a3 : Nat) (a4 : Core) (s : State) (h : Keep s0 s) :
    Keep s0 (prefetchNext a0 a1 a2 a3 a4 s) := by
  unfold prefetchNext
  try extract_lets
  repeat' first
    | with_reducible assumption
    | with_reducible apply keep_translate
    | with_reducible apply keep_bedcPrefetch
    | (with_reducible apply keep_translate_e; · with_reducible assumption)
    | extract_lets
    | split

theorem keep_dropBlock {s0 : State} (a0 : Nat) (a1 : Nat) (a2 : List Nat) (s : State) (h : Keep s0 s) :
    Keep s0 (dropBlock a0 a1 a2 s) := by
  unfold dropBlock
  try extract_lets
  repeat' first
    | with_reducible assumption
    | with_reducible apply keep_State_putCore
    | with_reducible apply keep_ceReport
    | extract_lets
    | with_reducible apply keep_foldl
    | with_reducible apply keep_foldl2
    | with_reducible apply keep_foldl3
    | dsimp only
    | intro _

theorem keep_refillFail {s0 : State} (a0 : List Nat) (a1 : Nat) (a2 : Status) (s : State) (h : Keep s0 s) :
    Keep s0 (refillFail a0 a1 a2 s) := by
  unfold refillFail
  try extract_lets
  repeat' first
    | with_reducible assumption
    | with_reducible apply keep_failLaunchAt
    | with_reducible apply keep_State_putCore
    | extract_lets
    | with_reducible apply keep_foldl
    | with_reducible apply keep_foldl2
    | with_reducible apply keep_foldl3
    | dsimp only
    | intro _

theorem keep_ibReturn {s0 : State} (a0 : Nat) (a1 : Nat) (a2 : Nat) (a3 : Nat) (a4 : Bool) (s : State) (h : Keep s0 s) :
    Keep s0 (ibReturn a0 a1 a2 a3 a4 s) := by
  unfold ibReturn
  try extract_lets
  repeat' first
    | with_reducible assumption
    | with_reducible apply keep_dropBlock
    | with_reducible apply keep_Via_getRange
    | with_reducible apply keep_prefetchNext
    | with_reducible apply keep_refillFail
    | with_reducible apply keep_Via_done
    | with_reducible apply keep_incF
    | with_reducible apply keep_takeLine
    | with_reducible apply keep_State_putBed
    | (with_reducible apply keep_Via_getRange_e; · with_reducible assumption)
    | extract_lets
    | with_reducible apply keep_foldl
    | with_reducible apply keep_foldl2
    | with_reducible apply keep_foldl3
    | split
    | dsimp only
    | intro _
    | with_reducible apply Keep.upd

theorem keep_execIbRefillReturn {s0 : State} (a0 : BedId) (a1 : Nat) (a2 : Nat) (a3 : Fin 8) (a4 : Bool) (s : State) (h : Keep s0 s) :
    KeepAll s0 (execIbRefillReturn a0 a1 a2 a3 a4 s) := by
  unfold execIbRefillReturn
  repeat' first
    | with_reducible assumption
    | with_reducible apply keep_ibReturn
    | with_reducible apply KeepAll.next

theorem keep_reportIfDone {s0 : State} (a0 : Nat) (s : State) (h : Keep s0 s) :
    Keep s0 (reportIfDone a0 s) := by
  unfold reportIfDone
  repeat' first
    | with_reducible assumption
    | with_reducible apply keep_sendReport
    | split

theorem keep_coreFinish {s0 : State} (a0 : Nat) (s : State) (h : Keep s0 s) :
    Keep s0 (coreFinish a0 s) := by
  unfold coreFinish
  try extract_lets
  repeat' first
    | with_reducible assumption
    | with_reducible apply keep_State_putCore
    | with_reducible apply keep_reportIfDone
    | with_reducible apply keep_State_putBed
    | extract_lets
    | split

theorem keep_execCoreFinish {s0 : State} (a0 : CoreId) (s : State) (h : Keep s0 s) :
    KeepAll s0 (execCoreFinish a0 s) := by
  unfold execCoreFinish
  repeat' first
    | with_reducible assumption
    | with_reducible apply keep_coreFinish
    | with_reducible apply KeepAll.next

end Sys2Proof.Machine
end

