-- ==== Sys2Proof/Laws/KeepStk.lean ====
section
/-!
SUPPORT. Keeping: the operations of Stk.
-/

namespace Sys2Proof.Machine

theorem keep_arriving {s0 : State} (a0 : Arrival) (s : State) (h : Keep s0 s) :
    Keep s0 (arriving a0 s).2 := by
  unfold arriving
  try extract_lets
  repeat' first
    | with_reducible assumption
    | with_reducible apply keep_dropCopy
    | extract_lets
    | split
    | dsimp only
    | with_reducible apply Keep.upd

theorem keep_arriving_e {s0 : State} {a0 : Arrival} {s t : State} {x} (e : arriving a0 s = (x, t)) (h : Keep s0 s) : Keep s0 t := by
  have g := keep_arriving a0 s h 
  rw [e] at g
  exact g

theorem keep_spend {s0 : State} (a0 : Req) (a1 : Nat) (s : State) (h : Keep s0 s) :
    Keep s0 (spend a0 a1 s) := by
  unfold spend
  try extract_lets
  repeat' first
    | with_reducible assumption
    | with_reducible apply keep_incF
    | with_reducible apply keep_State_putStack
    | with_reducible apply keep_setF
    | extract_lets
    | split

theorem keep_applyAdd {s0 : State} (a0 : Nat) (a1 : OAdd) (s : State) (h : Keep s0 s) :
    Keep s0 (applyAdd a0 a1 s) := by
  unfold applyAdd
  try extract_lets
  repeat' first
    | with_reducible assumption
    | with_reducible apply keep_homeAtomic

theorem keep_applyAdds {s0 : State} (a0 : Nat) (a1 : Nat) (s : State) (h : Keep s0 s) :
    Keep s0 (applyAdds a0 a1 s) := by
  unfold applyAdds
  try extract_lets
  repeat' first
    | with_reducible assumption
    | with_reducible apply keep_applyAdd
    | with_reducible apply keep_State_putStack
    | extract_lets
    | with_reducible apply keep_foldl
    | with_reducible apply keep_foldl2
    | with_reducible apply keep_foldl3
    | dsimp only
    | intro _

theorem keep_endAdds {s0 : State} (a0 : Req → Bool) (a1 : Status) (s : State) (h : Keep s0 s) :
    Keep s0 (endAdds a0 a1 s) := by
  unfold endAdds
  repeat' first
    | with_reducible assumption
    | with_reducible apply keep_complete
    | with_reducible apply keep_foldl
    | with_reducible apply keep_foldl2
    | with_reducible apply keep_foldl3
    | dsimp only
    | intro _

theorem keep_dropAdds {s0 : State} (a0 : Nat) (s : State) (h : Keep s0 s) :
    Keep s0 (dropAdds a0 s) := by
  unfold dropAdds
  try extract_lets
  repeat' first
    | with_reducible assumption
    | with_reducible apply keep_endAdds
    | with_reducible apply keep_State_putStack
    | extract_lets
    | with_reducible apply keep_foldl
    | with_reducible apply keep_foldl2
    | with_reducible apply keep_foldl3
    | dsimp only
    | intro _

theorem keep_doAtomic {s0 : State} (a0 : Req) (a1 : Home) (a2 : Atom) (s : State) (h : Keep s0 s) :
    Keep s0 (doAtomic a0 a1 a2 s) := by
  unfold doAtomic
  try extract_lets
  repeat' first
    | with_reducible assumption
    | with_reducible apply keep_homeAtomic
    | with_reducible apply keep_complete
    | (with_reducible apply keep_homeAtomic_e; · with_reducible assumption)
    | extract_lets
    | split

theorem keep_accept {s0 : State} (a0 : Req) (a1 : Home) (s : State) (h : Keep s0 s) :
    Keep s0 (accept a0 a1 s) := by
  unfold accept
  try extract_lets
  repeat' first
    | with_reducible assumption
    | with_reducible apply keep_doAtomic
    | with_reducible apply keep_homeWrite
    | with_reducible apply keep_netPut
    | (with_reducible apply keep_homeWrite_e; · with_reducible assumption)
    | extract_lets
    | split

theorem keep_admitted {s0 : State} (a0 : Req) (a1 : Home) (s : State) (h : Keep s0 s) :
    Keep s0 (admitted a0 a1 s) := by
  unfold admitted
  try extract_lets
  repeat' first
    | with_reducible assumption
    | with_reducible apply keep_spend
    | with_reducible apply keep_netPut
    | with_reducible apply keep_incF
    | with_reducible apply keep_accept
    | extract_lets
    | split

theorem keep_oaddEnter {s0 : State} (a0 : Req) (a1 : Atom) (a2 : Home) (s : State) (h : Keep s0 s) :
    Keep s0 (oaddEnter a0 a1 a2 s) := by
  unfold oaddEnter
  try extract_lets
  repeat' first
    | with_reducible assumption
    | with_reducible apply keep_netPut
    | with_reducible apply keep_spend
    | with_reducible apply keep_complete
    | with_reducible apply keep_State_putStack
    | extract_lets
    | split

theorem keep_atHome {s0 : State} (a0 : Req) (s : State) (h : Keep s0 s) :
    Keep s0 (atHome a0 s) := by
  unfold atHome
  try extract_lets
  repeat' first
    | with_reducible assumption
    | with_reducible apply keep_complete
    | with_reducible apply keep_oaddEnter
    | with_reducible apply keep_admitted
    | with_reducible apply keep_netPut
    | extract_lets
    | split

theorem keep_dramRequest {s0 : State} (a0 : Arrival) (s : State) (h : Keep s0 s) :
    Keep s0 (dramRequest a0 s) := by
  unfold dramRequest
  try extract_lets
  repeat' first
    | with_reducible assumption
    | with_reducible apply keep_arriving
    | with_reducible apply keep_atHome
    | (with_reducible apply keep_arriving_e; · with_reducible assumption)
    | extract_lets
    | split

theorem keep_execDramRequest {s0 : State} (a0 : Arrival) (s : State) (h : Keep s0 s) :
    KeepAll s0 (execDramRequest a0 s) := by
  unfold execDramRequest
  repeat' first
    | with_reducible assumption
    | with_reducible apply keep_dramRequest
    | with_reducible apply KeepAll.next

theorem keep_dramAtomic {s0 : State} (a0 : Arrival) (s : State) (h : Keep s0 s) :
    Keep s0 (dramAtomic a0 s) := by
  unfold dramAtomic
  try extract_lets
  repeat' first
    | with_reducible assumption
    | with_reducible apply keep_arriving
    | with_reducible apply keep_atHome
    | with_reducible apply keep_incF
    | (with_reducible apply keep_arriving_e; · with_reducible assumption)
    | extract_lets
    | split

theorem keep_execDramAtomic {s0 : State} (a0 : Arrival) (s : State) (h : Keep s0 s) :
    KeepAll s0 (execDramAtomic a0 s) := by
  unfold execDramAtomic
  repeat' first
    | with_reducible assumption
    | with_reducible apply keep_dramAtomic
    | with_reducible apply KeepAll.next

theorem keep_oaddAccept {s0 : State} (a0 : Arrival) (s : State) (h : Keep s0 s) :
    Keep s0 (oaddAccept a0 s) := by
  unfold oaddAccept
  try extract_lets
  repeat' first
    | with_reducible assumption
    | with_reducible apply keep_arriving
    | with_reducible apply keep_atHome
    | (with_reducible apply keep_arriving_e; · with_reducible assumption)
    | extract_lets
    | split

theorem keep_execOaddAccept {s0 : State} (a0 : Arrival) (s : State) (h : Keep s0 s) :
    KeepAll s0 (execOaddAccept a0 s) := by
  unfold execOaddAccept
  repeat' first
    | with_reducible assumption
    | with_reducible apply keep_oaddAccept
    | with_reducible apply KeepAll.next

theorem keep_ackWrite {s0 : State} (a0 : Req) (s : State) (h : Keep s0 s) :
    Keep s0 (ackWrite a0 s) := by
  unfold ackWrite
  repeat' first
    | with_reducible assumption
    | with_reducible apply keep_complete
    | with_reducible apply keep_countRow
    | split

theorem keep_writeAck {s0 : State} (a0 : Nat) (s : State) (h : Keep s0 s) :
    Keep s0 (writeAck a0 s) := by
  unfold writeAck
  repeat' first
    | with_reducible assumption
    | with_reducible apply keep_ackWrite
    | split

theorem keep_execDramWriteAck {s0 : State} (a0 : Nat) (s : State) (h : Keep s0 s) :
    KeepAll s0 (execDramWriteAck a0 s) := by
  unfold execDramWriteAck
  repeat' first
    | with_reducible assumption
    | with_reducible apply keep_writeAck
    | with_reducible apply KeepAll.next

theorem keep_readReturn {s0 : State} (a0 : Nat) (s : State) (h : Keep s0 s) :
    Keep s0 (readReturn a0 s) := by
  unfold readReturn
  try extract_lets
  repeat' first
    | with_reducible assumption
    | with_reducible apply keep_complete
    | with_reducible apply keep_homeRead
    | (with_reducible apply keep_homeRead_e; · with_reducible assumption)
    | extract_lets
    | split

theorem keep_execDramReadReturn {s0 : State} (a0 : Nat) (s : State) (h : Keep s0 s) :
    KeepAll s0 (execDramReadReturn a0 s) := by
  unfold execDramReadReturn
  repeat' first
    | with_reducible assumption
    | with_reducible apply keep_readReturn
    | with_reducible apply KeepAll.next

theorem keep_refill {s0 : State} (a0 : Nat) (a1 : Nat) (s : State) (h : Keep s0 s) :
    Keep s0 (refill a0 a1 s) := by
  unfold refill
  try extract_lets
  repeat' first
    | with_reducible assumption
    | with_reducible apply keep_setF
    | with_reducible apply keep_State_putStack

theorem keep_refillAll {s0 : State} (a0 : Nat) (a1 : Nat) (s : State) (h : Keep s0 s) :
    Keep s0 (refillAll a0 a1 s) := by
  induction a1 generalizing s with
  | zero =>
    unfold refillAll
    repeat' first
      | with_reducible assumption
  | succ n ih =>
    unfold refillAll
    repeat' first
      | with_reducible assumption
      | with_reducible apply ih
      | with_reducible apply keep_refill

theorem keep_retry {s0 : State} (a0 : Nat) (s : State) (h : Keep s0 s) :
    Keep s0 (retry a0 s) := by
  unfold retry
  repeat' first
    | with_reducible assumption
    | with_reducible apply keep_atHome
    | split

theorem keep_countWaits {s0 : State} (a0 : Nat) (s : State) (h : Keep s0 s) :
    Keep s0 (countWaits a0 s) := by
  unfold countWaits
  try extract_lets
  repeat' first
    | with_reducible assumption
    | with_reducible apply keep_incF
    | extract_lets
    | with_reducible apply keep_foldl
    | with_reducible apply keep_foldl2
    | with_reducible apply keep_foldl3
    | dsimp only
    | intro _

theorem keep_regulatorPeriod {s0 : State} (a0 : Nat) (s : State) (h : Keep s0 s) :
    Keep s0 (regulatorPeriod a0 s) := by
  unfold regulatorPeriod
  try extract_lets
  repeat' first
    | with_reducible assumption
    | with_reducible apply keep_refillAll
    | with_reducible apply keep_State_putStack
    | with_reducible apply keep_countWaits
    | with_reducible apply keep_retry
    | extract_lets
    | with_reducible apply keep_foldl
    | with_reducible apply keep_foldl2
    | with_reducible apply keep_foldl3
    | dsimp only
    | intro _

theorem keep_execRegulatorPeriod {s0 : State} (a0 : StackId) (s : State) (h : Keep s0 s) :
    KeepAll s0 (execRegulatorPeriod a0 s) := by
  unfold execRegulatorPeriod
  repeat' first
    | with_reducible assumption
    | with_reducible apply keep_regulatorPeriod
    | with_reducible apply KeepAll.next

theorem keep_putHalf {s0 : State} (a0 : Home) (a1 : Nat) (a2 : Nat) (a3 : Option (BitVec 512)) (s : State) (h : Keep s0 s) :
    Keep s0 (putHalf a0 a1 a2 a3 s) := by
  unfold putHalf
  try extract_lets
  repeat' first
    | with_reducible assumption
    | with_reducible apply keep_homeWrite
    | with_reducible apply keep_countRow
    | (with_reducible apply keep_homeWrite_e; · with_reducible assumption)
    | extract_lets
    | split

theorem keep_settleFilter {s0 : State} (a0 : Home) (a1 : Req) (s : State) (h : Keep s0 s) :
    Keep s0 (settleFilter a0 a1 s) := by
  unfold settleFilter
  try extract_lets
  repeat' first
    | with_reducible assumption
    | with_reducible apply keep_State_putStack
    | extract_lets
    | split

theorem keep_snoopResponse {s0 : State} (a0 : Nat) (a1 : Option (BitVec 512)) (a2 : Option (BitVec 512)) (s : State) (h : Keep s0 s) :
    Keep s0 (snoopResponse a0 a1 a2 s) := by
  unfold snoopResponse
  try dsimp only
  repeat' first
    | with_reducible assumption
    | with_reducible apply keep_complete
    | with_reducible apply keep_putHalf
    | with_reducible apply keep_accept
    | with_reducible apply keep_settleFilter
    | dsimp only
    | split

theorem keep_execSnoopResponse {s0 : State} (a0 : Nat) (a1 : Option (BitVec 512)) (a2 : Option (BitVec 512)) (s : State) (h : Keep s0 s) :
    KeepAll s0 (execSnoopResponse a0 a1 a2 s) := by
  unfold execSnoopResponse
  repeat' first
    | with_reducible assumption
    | with_reducible apply keep_snoopResponse
    | with_reducible apply KeepAll.next

theorem keep_filterFill {s0 : State} (a0 : Nat) (a1 : Nat) (a2 : Bool) (s : State) (h : Keep s0 s) :
    Keep s0 (filterFill a0 a1 a2 s) := by
  unfold filterFill
  try extract_lets
  repeat' first
    | with_reducible assumption
    | with_reducible apply keep_State_putStack

theorem keep_backInvalidate {s0 : State} (a0 : Nat) (a1 : Bool) (a2 : Option (BitVec 512)) (s : State) (h : Keep s0 s) :
    Keep s0 (backInvalidate a0 a1 a2 s) := by
  unfold backInvalidate
  try dsimp only
  repeat' first
    | with_reducible assumption
    | with_reducible apply keep_filterFill
    | with_reducible apply keep_incF
    | with_reducible apply keep_putHalf
    | with_reducible apply keep_State_putStack
    | dsimp only
    | split

theorem keep_execBisnp {s0 : State} (a0 : BitVec 52) (a1 : Bool) (a2 : Option (BitVec 512)) (s : State) (h : Keep s0 s) :
    KeepAll s0 (execBisnp a0 a1 a2 s) := by
  unfold execBisnp
  repeat' first
    | with_reducible assumption
    | with_reducible apply keep_backInvalidate
    | with_reducible apply KeepAll.next

end Sys2Proof.Machine
end

