-- ==== Sys2Proof/Laws/KeepStkRegs.lean ====
section
/-!
SUPPORT. Keeping: the operations of StkRegs.
-/

namespace Sys2Proof.Machine

theorem keep_regionRefuse {s0 : State} (a0 : Fld) (a1 : Nat) (s : State) (h : Keep s0 s) :
    Keep s0 (regionRefuse a0 a1 s) := by
  unfold regionRefuse
  repeat' first
    | with_reducible assumption
    | with_reducible apply keep_setF
    | with_reducible apply keep_flagF

theorem keep_regionWrite {s0 : State} (a0 : Nat) (a1 : BitVec 64) (s : State) (h : Keep s0 s) :
    Keep s0 (regionWrite a0 a1 s) := by
  unfold regionWrite
  try extract_lets
  repeat' first
    | with_reducible assumption
    | with_reducible apply keep_regionRefuse
    | with_reducible apply keep_writeReg
    | extract_lets
    | split
    | dsimp only
    | with_reducible apply Keep.upd

theorem keep_regionInvalidDone {s0 : State} (a0 : Nat) (s : State) (h : Keep s0 s) :
    Keep s0 (regionInvalidDone a0 s) := by
  unfold regionInvalidDone
  try extract_lets
  repeat' first
    | with_reducible assumption
    | with_reducible apply keep_setF
    | extract_lets
    | split
    | dsimp only
    | with_reducible apply Keep.upd

theorem keep_execRegionInvalidDone {s0 : State} (a0 : Fin 64) (s : State) (h : Keep s0 s) :
    KeepAll s0 (execRegionInvalidDone a0 s) := by
  unfold execRegionInvalidDone
  repeat' first
    | with_reducible assumption
    | with_reducible apply keep_regionInvalidDone
    | with_reducible apply KeepAll.next

theorem keep_clearFault {s0 : State} (a0 : Nat) (s : State) (h : Keep s0 s) :
    Keep s0 (clearFault a0 s) := by
  unfold clearFault
  repeat' first
    | with_reducible assumption
    | with_reducible apply keep_setF
    | split

theorem keep_execClearFault {s0 : State} (a0 : Fin 64) (s : State) (h : Keep s0 s) :
    KeepAll s0 (execClearFault a0 s) := by
  unfold execClearFault
  repeat' first
    | with_reducible assumption
    | with_reducible apply keep_clearFault
    | with_reducible apply KeepAll.next

theorem keep_faultRegions {s0 : State} (a0 : Nat) (a1 : Nat) (s : State) (h : Keep s0 s) :
    Keep s0 (faultRegions a0 a1 s) := by
  induction a1 generalizing s with
  | zero =>
    unfold faultRegions
    try extract_lets
    repeat' first
      | with_reducible assumption
  | succ n ih =>
    unfold faultRegions
    try extract_lets
    repeat' first
      | with_reducible assumption
      | with_reducible apply ih
      | with_reducible apply keep_setF
      | extract_lets
      | split

theorem keep_refreshDue {s0 : State} (a0 : Nat) (s : State) (h : Keep s0 s) :
    Keep s0 (refreshDue a0 s) := by
  unfold refreshDue
  repeat' first
    | with_reducible assumption
    | with_reducible apply keep_incF
    | split

theorem keep_execRefreshDue {s0 : State} (a0 : StackId) (s : State) (h : Keep s0 s) :
    KeepAll s0 (execRefreshDue a0 s) := by
  unfold execRefreshDue
  repeat' first
    | with_reducible assumption
    | with_reducible apply keep_refreshDue
    | with_reducible apply KeepAll.next

theorem keep_patrolRead {s0 : State} (a0 : Nat) (s : State) (h : Keep s0 s) :
    Keep s0 (patrolRead a0 s) := by
  unfold patrolRead
  try extract_lets
  repeat' first
    | with_reducible assumption
    | with_reducible apply keep_memGran
    | with_reducible apply keep_ueFound
    | with_reducible apply keep_flagF
    | with_reducible apply keep_State_putStack
    | with_reducible apply keep_incF
    | (with_reducible apply keep_memGran_e; · with_reducible assumption)
    | extract_lets
    | split
    | dsimp only
    | with_reducible apply Keep.upd

theorem keep_execPatrolRead {s0 : State} (a0 : StackId) (s : State) (h : Keep s0 s) :
    KeepAll s0 (execPatrolRead a0 s) := by
  unfold execPatrolRead
  repeat' first
    | with_reducible assumption
    | with_reducible apply keep_patrolRead
    | with_reducible apply KeepAll.next

theorem keep_ceWriteback {s0 : State} (a0 : Nat) (s : State) (h : Keep s0 s) :
    Keep s0 (ceWriteback a0 s) := by
  unfold ceWriteback
  try extract_lets
  repeat' first
    | with_reducible assumption
    | with_reducible apply keep_State_putStack
    | with_reducible apply keep_memWriteGran
    | extract_lets
    | split

theorem keep_execCeWriteback {s0 : State} (a0 : StackId) (s : State) (h : Keep s0 s) :
    KeepAll s0 (execCeWriteback a0 s) := by
  unfold execCeWriteback
  repeat' first
    | with_reducible assumption
    | with_reducible apply keep_ceWriteback
    | with_reducible apply KeepAll.next

theorem keep_noIdentity {s0 : State} (a0 : Nat) (a1 : Nat) (s : State) (h : Keep s0 s) :
    Keep s0 (noIdentity a0 a1 s) := by
  unfold noIdentity
  try extract_lets
  repeat' first
    | with_reducible assumption
    | with_reducible apply keep_setF
    | extract_lets
    | dsimp only
    | with_reducible apply Keep.upd

theorem keep_checkStack {s0 : State} (a0 : Nat) (a1 : Nat) (s : State) (h : Keep s0 s) :
    Keep s0 (checkStack a0 a1 s) := by
  unfold checkStack
  repeat' first
    | with_reducible assumption
    | with_reducible apply keep_noIdentity
    | split

theorem keep_trainStack {s0 : State} (a0 : Nat) (a1 : TrainRes) (s : State) (h : Keep s0 s) :
    Keep s0 (trainStack a0 a1 s) := by
  unfold trainStack
  try dsimp only
  repeat' first
    | with_reducible assumption
    | with_reducible apply keep_setF
    | with_reducible apply keep_checkStack
    | with_reducible apply keep_faultRegions
    | dsimp only
    | split
    | with_reducible apply Keep.upd

theorem keep_stackTrain {s0 : State} (a0 : Nat) (a1 : TrainRes) (a2 : TrainRes) (s : State) (h : Keep s0 s) :
    Keep s0 (stackTrain a0 a1 a2 s) := by
  unfold stackTrain
  repeat' first
    | with_reducible assumption
    | with_reducible apply keep_trainStack

theorem keep_execStackTrain {s0 : State} (a0 : PlotId) (a1 : TrainRes) (a2 : TrainRes) (s : State) (h : Keep s0 s) :
    KeepAll s0 (execStackTrain a0 a1 a2 s) := by
  unfold execStackTrain
  repeat' first
    | with_reducible assumption
    | with_reducible apply keep_stackTrain
    | with_reducible apply KeepAll.next

theorem keep_execStackRecalibrate {s0 : State} (a0 : StackId) (s : State) (h : Keep s0 s) :
    KeepAll s0 (execStackRecalibrate a0 s) := by
  unfold execStackRecalibrate
  repeat' first
    | with_reducible assumption
    | with_reducible apply KeepAll.next

theorem keep_freeBytes {s0 : State} (a0 : Nat) (a1 : Nat) (a2 : Nat) (s : State) (h : Keep s0 s) :
    Keep s0 (freeBytes a0 a1 a2 s) := by
  induction a1 generalizing s with
  | zero =>
    unfold freeBytes
    try extract_lets
    repeat' first
      | with_reducible assumption
  | succ n ih =>
    unfold freeBytes
    try extract_lets
    repeat' first
      | with_reducible assumption
      | with_reducible apply ih
      | with_reducible apply keep_State_takeFree
      | (with_reducible apply keep_State_takeFree_e; · with_reducible assumption)
      | extract_lets
      | split
      | dsimp only
      | with_reducible exact id
      | with_reducible exact swf_sput _ _ _ _
      | with_reducible exact mwf_sput _ _ _
      | with_reducible exact mwf_putBytes _ _ _ _ _
      | with_reducible exact mwf_filter _ _
      | with_reducible exact swf_filter _ _ _
      | with_reducible exact swf_smap _ _ _
      | with_reducible exact log_take _ _
      | with_reducible exact fun g => mwf_putBytes _ _ _ _ _ (mwf_putBytes _ _ _ _ _ g)
      | with_reducible apply Keep.upd
      | with_reducible apply Keep.all

theorem keep_loseWrite {s0 : State} (a0 : Req) (s : State) (h : Keep s0 s) :
    Keep s0 (loseWrite a0 s) := by
  unfold loseWrite
  repeat' first
    | with_reducible assumption
    | with_reducible apply keep_complete
    | with_reducible apply keep_freeBytes
    | split

theorem keep_selfRefresh {s0 : State} (a0 : Nat) (a1 : Bool) (s : State) (h : Keep s0 s) :
    Keep s0 (selfRefresh a0 a1 s) := by
  unfold selfRefresh
  try extract_lets
  repeat' first
    | with_reducible assumption
    | with_reducible apply keep_ackWrite
    | with_reducible apply keep_loseWrite
    | with_reducible apply keep_setF
    | extract_lets
    | with_reducible apply keep_foldl
    | with_reducible apply keep_foldl2
    | with_reducible apply keep_foldl3
    | split
    | dsimp only
    | intro _

theorem keep_execSelfRefreshEntry {s0 : State} (a0 : StackId) (a1 : Bool) (s : State) (h : Keep s0 s) :
    KeepAll s0 (execSelfRefreshEntry a0 a1 s) := by
  unfold execSelfRefreshEntry
  repeat' first
    | with_reducible assumption
    | with_reducible apply keep_selfRefresh
    | with_reducible apply KeepAll.next

end Sys2Proof.Machine
end

