-- ==== Sys2Proof/Laws/KeepShelvable.lean ====
section
/-!
SUPPORT. Keeping: the operations of Shelvable.
-/

namespace Sys2Proof.Machine

theorem keep_dropSpad {s0 : State} (a0 : Nat) (s : State) (h : Keep s0 s) :
    Keep s0 (dropSpad a0 s) := by
  unfold dropSpad
  try extract_lets
  repeat' first
    | with_reducible assumption
    | extract_lets
    | dsimp only
    | with_reducible exact id
    | with_reducible exact swf_sput _ _ _ _
    | with_reducible exact mwf_sput _ _ _
    | with_reducible exact mwf_putBytes _ _ _ _ _
    | with_reducible exact mwf_filter _ _
    | with_reducible exact swf_filter _ _ _
    | with_reducible exact swf_smap _ _ _
    | with_reducible exact log_take _ _
    | with_reducible exact fun g => mwf_putBytes _ _ _ _ _ (mwf_putBytes _ _ _ _ _ g)
    | with_reducible apply Keep.upd
    | with_reducible apply Keep.all

theorem keep_ownerPower {s0 : State} (a0 : Nat) (s : State) (h : Keep s0 s) :
    Keep s0 (ownerPower a0 s) := by
  unfold ownerPower
  repeat' first
    | with_reducible assumption
    | with_reducible apply keep_State_putBgPower
    | with_reducible apply keep_dropSpad
    | split

theorem keep_CsrAt_put {s0 : State} (a0 : CsrAt) (a1 : BitVec 64) (a2 : BitVec 64) (s : State) (h : Keep s0 s) :
    Keep s0 (CsrAt.put a0 a1 a2 s) := by
  unfold CsrAt.put
  try extract_lets
  repeat' first
    | with_reducible assumption
    | with_reducible apply keep_writeReg
    | with_reducible apply keep_ownerPower
    | extract_lets
    | split

theorem keep_directNow {s0 : State} (a0 : CsrAt) (a1 : BitVec 64) (a2 : BitVec 64) (s : State) (h : Keep s0 s) :
    Keep s0 (directNow a0 a1 a2 s) := by
  unfold directNow
  try extract_lets
  repeat' first
    | with_reducible assumption
    | with_reducible apply keep_regionWrite
    | with_reducible apply keep_CsrAt_put
    | with_reducible apply keep_setF
    | with_reducible apply keep_flagF
    | extract_lets
    | split

theorem keep_directWrite {s0 : State} (a0 : CsrAt) (a1 : BitVec 64) (a2 : BitVec 64) (s : State) (h : Keep s0 s) :
    Keep s0 (directWrite a0 a1 a2 s) := by
  unfold directWrite
  try extract_lets
  repeat' first
    | with_reducible assumption
    | with_reducible apply keep_directNow
    | extract_lets
    | split
    | dsimp only
    | with_reducible apply Keep.upd

theorem keep_releaseWrites {s0 : State}  (s : State) (h : Keep s0 s) :
    Keep s0 (releaseWrites s) := by
  unfold releaseWrites
  try extract_lets
  repeat' first
    | with_reducible assumption
    | with_reducible apply keep_directWrite
    | extract_lets
    | with_reducible apply keep_foldl
    | with_reducible apply keep_foldl2
    | with_reducible apply keep_foldl3
    | dsimp only
    | intro _
    | with_reducible apply Keep.upd

theorem keep_execStkRegionWrite {s0 : State} (a0 : Fin 64) (a1 : BitVec 64) (s : State) (h : Keep s0 s) :
    KeepAll s0 (execStkRegionWrite a0 a1 s) := by
  unfold execStkRegionWrite
  repeat' first
    | with_reducible assumption
    | with_reducible apply keep_directWrite
    | with_reducible apply KeepAll.next

theorem keep_execBgOwnerWrite {s0 : State} (a0 : BgId) (a1 : BitVec 32) (s : State) (h : Keep s0 s) :
    KeepAll s0 (execBgOwnerWrite a0 a1 s) := by
  unfold execBgOwnerWrite
  repeat' first
    | with_reducible assumption
    | with_reducible apply keep_directWrite
    | with_reducible apply KeepAll.next

end Sys2Proof.Machine
end

