-- ==== Sys2Proof/Laws/KeepLaunch.lean ====
section
/-!
SUPPORT. Keeping: the operations of Launch.
-/

namespace Sys2Proof.Machine

theorem keep_putDesc {s0 : State} (a0 : Nat) (a1 : Desc) (s : State) (h : Keep s0 s) :
    Keep s0 (putDesc a0 a1 s) := by
  unfold putDesc
  try extract_lets
  repeat' first
    | with_reducible assumption
    | with_reducible apply keep_State_putRing

theorem keep_finishDesc {s0 : State} (a0 : Nat) (a1 : Nat) (a2 : Status) (a3 : Nat) (a4 : Nat) (s : State) (h : Keep s0 s) :
    Keep s0 (finishDesc a0 a1 a2 a3 a4 s) := by
  unfold finishDesc
  try extract_lets
  repeat' first
    | with_reducible assumption
    | with_reducible apply keep_putDesc
    | extract_lets
    | split

theorem keep_descDone {s0 : State} (a0 : Desc) (s : State) (h : Keep s0 s) :
    Keep s0 (descDone a0 s) := by
  unfold descDone
  try extract_lets
  repeat' first
    | with_reducible assumption
    | with_reducible apply keep_disown
    | with_reducible apply keep_leaveXlt

theorem keep_askLog {s0 : State} (a0 : Nat) (a1 : Nat) (a2 : Nat) (a3 : Nat) (s : State) (h : Keep s0 s) :
    Keep s0 (askLog a0 a1 a2 a3 s) := by
  unfold askLog
  try extract_lets
  repeat' first
    | with_reducible assumption
    | extract_lets
    | dsimp only
    | with_reducible apply Keep.upd

theorem keep_logStep {s0 : State} (a0 : Nat) (s : State) (h : Keep s0 s) :
    Keep s0 (logStep a0 s) := by
  unfold logStep
  try extract_lets
  repeat' first
    | with_reducible assumption
    | with_reducible apply keep_Via_putRange
    | with_reducible apply keep_Via_done
    | (with_reducible apply keep_Via_putRange_e; · with_reducible assumption)
    | extract_lets
    | split
    | dsimp only
    | with_reducible apply Keep.upd

theorem keep_logTick {s0 : State}  (s : State) (h : Keep s0 s) :
    Keep s0 (logTick s) := by
  unfold logTick
  repeat' first
    | with_reducible assumption
    | with_reducible apply keep_logStep
    | with_reducible apply keep_foldl
    | with_reducible apply keep_foldl2
    | with_reducible apply keep_foldl3
    | split
    | dsimp only
    | intro _

theorem keep_putLaunch {s0 : State} (a0 : Nat) (a1 : Launch) (s : State) (h : Keep s0 s) :
    Keep s0 (putLaunch a0 a1 s) := by
  unfold putLaunch
  try extract_lets
  repeat' first
    | with_reducible assumption
    | with_reducible apply keep_State_putPart

theorem keep_readImgHeader {s0 : State} (a0 : Via) (a1 : Nat) (s : State) (h : Keep s0 s) :
    Keep s0 (readImgHeader a0 a1 s).2 := by
  unfold readImgHeader
  repeat' first
    | with_reducible assumption
    | with_reducible apply keep_Via_getRange

theorem keep_readImgHeader_e {s0 : State} {a0 : Via} {a1 : Nat} {s t : State} {x} (e : readImgHeader a0 a1 s = (x, t)) (h : Keep s0 s) : Keep s0 t := by
  have g := keep_readImgHeader a0 a1 s h 
  rw [e] at g
  exact g

theorem keep_readTables {s0 : State} (a0 : Via) (a1 : Nat) (a2 : ImgHdr) (s : State) (h : Keep s0 s) :
    Keep s0 (readTables a0 a1 a2 s).2.2 := by
  unfold readTables
  try extract_lets
  repeat' first
    | with_reducible assumption
    | with_reducible apply keep_Via_getRange
    | (with_reducible apply keep_Via_getRange_e; · with_reducible assumption)
    | extract_lets
    | split

theorem keep_readTables_e {s0 : State} {a0 : Via} {a1 : Nat} {a2 : ImgHdr} {s t : State} {x} {y} (e : readTables a0 a1 a2 s = (x, y, t)) (h : Keep s0 s) : Keep s0 t := by
  have g := keep_readTables a0 a1 a2 s h 
  rw [e] at g
  exact g

theorem keep_startBed {s0 : State} (a0 : Nat) (a1 : Nat) (a2 : Nat) (a3 : Bool) (a4 : Nat → Nat × Nat × Nat) (s : State) (h : Keep s0 s) :
    Keep s0 (startBed a0 a1 a2 a3 a4 s) := by
  unfold startBed
  try extract_lets
  repeat' first
    | with_reducible assumption
    | with_reducible apply keep_State_putCore
    | with_reducible apply keep_State_putBed
    | extract_lets
    | with_reducible apply keep_foldl
    | with_reducible apply keep_foldl2
    | with_reducible apply keep_foldl3
    | dsimp only
    | intro _

theorem keep_coreGo {s0 : State} (a0 : Nat) (a1 : Nat) (s : State) (h : Keep s0 s) :
    Keep s0 (coreGo a0 a1 s) := by
  unfold coreGo
  try extract_lets
  repeat' first
    | with_reducible assumption
    | with_reducible apply keep_State_putCore
    | with_reducible apply keep_passSync
    | extract_lets
    | split

theorem keep_launchGo {s0 : State} (a0 : Nat) (s : State) (h : Keep s0 s) :
    Keep s0 (launchGo a0 s) := by
  unfold launchGo
  try extract_lets
  repeat' first
    | with_reducible assumption
    | with_reducible apply keep_putLaunch
    | with_reducible apply keep_coreGo
    | with_reducible apply keep_State_putBed
    | with_reducible apply keep_reportIfDone
    | extract_lets
    | with_reducible apply keep_foldl
    | with_reducible apply keep_foldl2
    | with_reducible apply keep_foldl3
    | split
    | dsimp only
    | intro _

theorem keep_stopCore {s0 : State} (a0 : Nat) (s : State) (h : Keep s0 s) :
    Keep s0 (stopCore a0 s) := by
  unfold stopCore
  try extract_lets
  repeat' first
    | with_reducible assumption
    | with_reducible apply keep_State_putCore

theorem keep_stopBed {s0 : State} (a0 : Nat) (a1 : Nat) (s : State) (h : Keep s0 s) :
    Keep s0 (stopBed a0 a1 s) := by
  unfold stopBed
  try extract_lets
  repeat' first
    | with_reducible assumption
    | with_reducible apply keep_drainMerge
    | with_reducible apply keep_leaveXlt
    | with_reducible apply keep_State_putBed
    | extract_lets
    | with_reducible apply keep_foldl
    | with_reducible apply keep_foldl2
    | with_reducible apply keep_foldl3
    | split
    | dsimp only
    | intro _

theorem keep_stopTick {s0 : State} (s : State) (h : Keep s0 s) : Keep s0 (stopTick s) := by
  unfold stopTick
  repeat' first
    | with_reducible assumption
    | with_reducible apply keep_stopCore
    | with_reducible apply keep_foldl
    | with_reducible apply keep_foldl2
    | intro _

theorem keep_launchStop {s0 : State} (a0 : Nat) (s : State) (h : Keep s0 s) :
    Keep s0 (launchStop a0 s) := by
  unfold launchStop
  try extract_lets
  repeat' first
    | with_reducible assumption
    | with_reducible apply keep_putLaunch
    | with_reducible apply keep_stopBed
    | with_reducible apply keep_sendReport
    | extract_lets
    | with_reducible apply keep_foldl
    | with_reducible apply keep_foldl2
    | with_reducible apply keep_foldl3
    | split
    | dsimp only
    | intro _

theorem keep_execLaunchStop {s0 : State} (a0 : PartId) (s : State) (h : Keep s0 s) :
    KeepAll s0 (execLaunchStop a0 s) := by
  unfold execLaunchStop
  repeat' first
    | with_reducible assumption
    | with_reducible apply keep_launchStop
    | with_reducible apply KeepAll.next

theorem keep_idleBed {s0 : State} (a0 : Nat) (a1 : Nat) (s : State) (h : Keep s0 s) :
    Keep s0 (idleBed a0 a1 s) := by
  unfold idleBed
  try extract_lets
  repeat' first
    | with_reducible assumption
    | with_reducible apply keep_dropFlies
    | with_reducible apply keep_leaveXlt
    | with_reducible apply keep_disown
    | with_reducible apply keep_State_putCore
    | with_reducible apply keep_State_putBed
    | extract_lets
    | with_reducible apply keep_foldl
    | with_reducible apply keep_foldl2
    | with_reducible apply keep_foldl3
    | dsimp only
    | intro _

theorem keep_releaseWaiters {s0 : State} (a0 : Nat) (s : State) (h : Keep s0 s) :
    Keep s0 (releaseWaiters a0 s) := by
  unfold releaseWaiters
  try extract_lets
  repeat' first
    | with_reducible assumption
    | with_reducible apply keep_finishDesc
    | with_reducible apply keep_State_putPart
    | extract_lets
    | with_reducible apply keep_foldl
    | with_reducible apply keep_foldl2
    | with_reducible apply keep_foldl3
    | dsimp only
    | intro _

theorem keep_putShelf {s0 : State} (e : Nat) (x : Shelf) (s : State) (h : Keep s0 s) : Keep s0 (putShelf e x s) :=
  h.shelf _ (swf_sput _ _ _ _)

theorem keep_freeShelf {s0 : State} (a0 : Nat) (s : State) (h : Keep s0 s) :
    Keep s0 (freeShelf a0 s) := by
  unfold freeShelf
  repeat' first
    | with_reducible assumption
    | with_reducible apply keep_releaseWrites
    | with_reducible apply keep_putShelf
    | with_reducible apply keep_setF

theorem keep_abandonShelf {s0 : State} (a0 : Nat) (a1 : Nat) (a2 : Nat) (s : State) (h : Keep s0 s) :
    Keep s0 (abandonShelf a0 a1 a2 s) := by
  unfold abandonShelf
  try extract_lets
  repeat' first
    | with_reducible assumption
    | with_reducible apply keep_freeShelf
    | with_reducible apply keep_setF
    | with_reducible apply keep_sendReport
    | with_reducible apply keep_incF
    | extract_lets
    | split

theorem keep_abandonFor {s0 : State} (a0 : Nat) (s : State) (h : Keep s0 s) :
    Keep s0 (abandonFor a0 s) := by
  unfold abandonFor
  try extract_lets
  repeat' first
    | with_reducible assumption
    | with_reducible apply keep_abandonShelf
    | extract_lets
    | with_reducible apply keep_foldl
    | with_reducible apply keep_foldl2
    | with_reducible apply keep_foldl3
    | split
    | dsimp only
    | intro _

theorem keep_wokenDone {s0 : State} (a0 : Nat) (a1 : Nat) (s : State) (h : Keep s0 s) :
    Keep s0 (wokenDone a0 a1 s) := by
  unfold wokenDone
  try extract_lets
  repeat' first
    | with_reducible assumption
    | with_reducible apply keep_finishDesc
    | with_reducible apply keep_State_putPart
    | extract_lets
    | split

theorem keep_endLaunch {s0 : State} (a0 : Nat) (a1 : Launch) (a2 : Status) (s : State) (h : Keep s0 s) :
    Keep s0 (endLaunch a0 a1 a2 s) := by
  unfold endLaunch
  try extract_lets
  repeat' first
    | with_reducible assumption
    | with_reducible apply keep_idleBed
    | with_reducible apply keep_wokenDone
    | with_reducible apply keep_State_putPart
    | with_reducible apply keep_finishDesc
    | with_reducible apply keep_abandonFor
    | extract_lets
    | with_reducible apply keep_foldl
    | with_reducible apply keep_foldl2
    | with_reducible apply keep_foldl3
    | dsimp only
    | intro _

theorem keep_launchDrained {s0 : State} (a0 : Nat) (s : State) (h : Keep s0 s) :
    Keep s0 (launchDrained a0 s) := by
  unfold launchDrained
  try extract_lets
  repeat' first
    | with_reducible assumption
    | with_reducible apply keep_drainMerge
    | with_reducible apply keep_dropAdds
    | with_reducible apply keep_applyAdds
    | with_reducible apply keep_State_putPart
    | with_reducible apply keep_releaseWaiters
    | with_reducible apply keep_endLaunch
    | extract_lets
    | with_reducible apply keep_foldl
    | with_reducible apply keep_foldl2
    | with_reducible apply keep_foldl3
    | split
    | dsimp only
    | intro _
    | with_reducible apply Keep.upd

theorem keep_execLaunchDrained {s0 : State} (a0 : PartId) (s : State) (h : Keep s0 s) :
    KeepAll s0 (execLaunchDrained a0 s) := by
  unfold execLaunchDrained
  repeat' first
    | with_reducible assumption
    | with_reducible apply keep_launchDrained
    | with_reducible apply KeepAll.next

end Sys2Proof.Machine
end

