-- ==== Sys2Proof/Laws/KeepRecord.lean ====
section
/-!
SUPPORT. Keeping: the operations of Record.
-/

namespace Sys2Proof.Machine

theorem keep_spadImage {s0 : State} (a0 : Nat) (s : State) (h : Keep s0 s) :
    Keep s0 (spadImage a0 s).2.2 := by
  unfold spadImage
  repeat' first
    | with_reducible assumption
    | with_reducible apply keep_spadRead
    | with_reducible apply keep_spadConsume
    | (with_reducible apply keep_spadRead_e; · with_reducible assumption)
    | with_reducible apply keep_foldl
    | with_reducible apply keep_foldl2
    | with_reducible apply keep_foldl3
    | split
    | dsimp only
    | intro _

theorem keep_spadImage_e {s0 : State} {a0 : Nat} {s t : State} {x} {y} (e : spadImage a0 s = (x, y, t)) (h : Keep s0 s) : Keep s0 t := by
  have g := keep_spadImage a0 s h 
  rw [e] at g
  exact g

theorem keep_spadImages {s0 : State} (cs : List Nat) (s : State) (h : Keep s0 s) : Keep s0 (spadImages cs s).2.2 := by
  refine keep_foldl3 _ _ _ h fun z c g => ?_
  have y := keep_spadImage c z.2.2 g
  generalize spadImage c z.2.2 = r at y
  exact Keep.triple _ _ y

theorem keep_spadImages_e {s0 : State} {a0 : List Nat} {s t : State} {x} {y} (e : spadImages a0 s = (x, y, t)) (h : Keep s0 s) : Keep s0 t := by
  have g := keep_spadImages a0 s h 
  rw [e] at g
  exact g

theorem keep_bedRecord {s0 : State} (b step fb : Nat) (s : State) (h : Keep s0 s) : Keep s0 (bedRecord b step fb s).2.2 := by
  unfold bedRecord
  exact Keep.triple _ _ (keep_spadImages _ _ h)

theorem keep_bedRecord_e {s0 : State} {a0 : Nat} {a1 : Nat} {a2 : Nat} {s t : State} {x} {y} (e : bedRecord a0 a1 a2 s = (x, y, t)) (h : Keep s0 s) : Keep s0 t := by
  have g := keep_bedRecord a0 a1 a2 s h 
  rw [e] at g
  exact g

theorem keep_restoreRegs {s0 : State} (a0 : Nat) (a1 : Nat) (s : State) (h : Keep s0 s) :
    Keep s0 (restoreRegs a0 a1 s) := by
  unfold restoreRegs
  try extract_lets
  repeat' first
    | with_reducible assumption
    | with_reducible apply keep_writeReg
    | extract_lets
    | with_reducible apply keep_foldl
    | with_reducible apply keep_foldl2
    | with_reducible apply keep_foldl3
    | dsimp only
    | intro _

theorem keep_writeSpad {s0 : State} (a0 : Nat) (a1 : Nat) (s : State) (h : Keep s0 s) :
    Keep s0 (writeSpad a0 a1 s) := by
  unfold writeSpad
  repeat' first
    | with_reducible assumption
    | with_reducible apply keep_spadStore
    | (with_reducible apply keep_spadStore_e; · with_reducible assumption)
    | with_reducible apply keep_foldl
    | with_reducible apply keep_foldl2
    | with_reducible apply keep_foldl3
    | dsimp only
    | intro _

theorem keep_restoreBed {s0 : State} (a0 : Nat) (a1 : Nat) (a2 : Nat) (a3 : Bool) (s : State) (h : Keep s0 s) :
    Keep s0 (restoreBed a0 a1 a2 a3 s) := by
  unfold restoreBed
  try extract_lets
  repeat' first
    | with_reducible assumption
    | with_reducible apply keep_restoreRegs
    | with_reducible apply keep_State_putCore
    | with_reducible apply keep_writeSpad
    | with_reducible apply keep_State_putBed
    | extract_lets
    | with_reducible apply keep_foldl
    | with_reducible apply keep_foldl2
    | with_reducible apply keep_foldl3
    | split
    | dsimp only
    | intro _
    | with_reducible apply Keep.upd

theorem keep_restoreStart {s0 : State} (a0 : Nat) (s : State) (h : Keep s0 s) :
    Keep s0 (restoreStart a0 s) := by
  unfold restoreStart
  try extract_lets
  repeat' first
    | with_reducible assumption
    | with_reducible apply keep_writeReg
    | with_reducible apply keep_writeSpad
    | extract_lets
    | with_reducible apply keep_foldl
    | with_reducible apply keep_foldl2
    | with_reducible apply keep_foldl3
    | dsimp only
    | intro _

end Sys2Proof.Machine
end

