-- ==== Sys2Proof/Laws/KeepDorm.lean ====
section
/-!
SUPPORT. Keeping: the operations of Dorm.
-/

namespace Sys2Proof.Machine

theorem keep_writeRecord {s0 : State} (a0 : Nat) (a1 : Nat) (a2 : Nat) (a3 : Nat) (a4 : Nat) (a5 : Nat) (a6 : Bool) (s : State) (h : Keep s0 s) :
    Keep s0 (writeRecord a0 a1 a2 a3 a4 a5 a6 s).2 := by
  unfold writeRecord
  try extract_lets
  repeat' first
    | with_reducible assumption
    | with_reducible apply keep_busRead
    | with_reducible apply keep_bsqWriteRange
    | with_reducible apply keep_askDone
    | (with_reducible apply keep_busRead_e; · with_reducible assumption)
    | (with_reducible apply keep_bsqWriteRange_e; · with_reducible assumption)
    | extract_lets
    | split

theorem keep_writeRecord_e {s0 : State} {a0 : Nat} {a1 : Nat} {a2 : Nat} {a3 : Nat} {a4 : Nat} {a5 : Nat} {a6 : Bool} {s t : State} {x} (e : writeRecord a0 a1 a2 a3 a4 a5 a6 s = (x, t)) (h : Keep s0 s) : Keep s0 t := by
  have g := keep_writeRecord a0 a1 a2 a3 a4 a5 a6 s h 
  rw [e] at g
  exact g

theorem keep_beginSave {s0 : State} (a0 : Nat) (a1 : Launch) (s : State) (h : Keep s0 s) :
    Keep s0 (beginSave a0 a1 s) := by
  unfold beginSave
  try extract_lets
  repeat' first
    | with_reducible assumption
    | with_reducible apply keep_State_putPart
    | extract_lets
    | split

theorem keep_noteSave {s0 : State} (a0 : Nat) (a1 : Nat) (a2 : Got) (s : State) (h : Keep s0 s) :
    Keep s0 (noteSave a0 a1 a2 s) := by
  unfold noteSave
  try extract_lets
  repeat' first
    | with_reducible assumption
    | with_reducible apply keep_failLaunchAt
    | with_reducible apply keep_flagF
    | with_reducible apply keep_State_putPart
    | with_reducible apply keep_State_putBed
    | extract_lets
    | split

theorem keep_putRecords {s0 : State} (p b : Nat) (s1 : State) (r : Bool × Nat × State) (h : Keep s0 r.2.2) :
    Keep s0 (putRecords p b s1 r) := by
  have g3 := keep_writeRecord p b (s1.bed b).lbed (freeSaveSlot (s1.part p)) 2 r.2.1 false r.2.2 h
  unfold putRecords
  dsimp only
  generalize writeRecord p b (s1.bed b).lbed (freeSaveSlot (s1.part p)) 2 r.2.1 false r.2.2 = w at g3 ⊢
  split
  · exact keep_failLaunchAt _ _ _ _ h
  · apply keep_noteSave
    split
    · exact keep_writeRecord _ _ _ _ _ _ _ _ g3
    · exact g3

theorem keep_saveBed {s0 : State} (p b : Nat) (l : Launch) (s : State) (h : Keep s0 s) : Keep s0 (saveBed p b l s) :=
  keep_putRecords _ _ _ _ (keep_bedRecord _ _ _ _ (keep_beginSave _ _ _ h))

theorem keep_quiesceSave {s0 : State} (a0 : Nat) (s : State) (h : Keep s0 s) :
    Keep s0 (quiesceSave a0 s) := by
  unfold quiesceSave
  try extract_lets
  repeat' first
    | with_reducible assumption
    | with_reducible apply keep_saveBed
    | extract_lets
    | split

theorem keep_execQuiesceSave {s0 : State} (a0 : BedId) (s : State) (h : Keep s0 s) :
    KeepAll s0 (execQuiesceSave a0 s) := by
  unfold execQuiesceSave
  repeat' first
    | with_reducible assumption
    | with_reducible apply keep_quiesceSave
    | with_reducible apply KeepAll.next

theorem keep_noteReady {s0 : State} (a0 : ReadyF) (s : State) (h : Keep s0 s) :
    Keep s0 (noteReady a0 s) := by
  unfold noteReady
  try extract_lets
  repeat' first
    | with_reducible assumption
    | extract_lets
    | dsimp only
    | with_reducible apply Keep.upd

theorem keep_launchReady {s0 : State} (a0 : Nat) (s : State) (h : Keep s0 s) :
    Keep s0 (launchReady a0 s) := by
  unfold launchReady
  try extract_lets
  repeat' first
    | with_reducible assumption
    | with_reducible apply keep_launchGo
    | with_reducible apply keep_forgetReady
    | with_reducible apply keep_failLaunch
    | with_reducible apply keep_putLaunch
    | with_reducible apply keep_flood
    | with_reducible apply keep_noteReady
    | extract_lets
    | split

theorem keep_launchPlaced {s0 : State} (a0 : Nat) (s : State) (h : Keep s0 s) :
    Keep s0 (launchPlaced a0 s) := by
  unfold launchPlaced
  repeat' first
    | with_reducible assumption
    | with_reducible apply keep_beginSave
    | with_reducible apply keep_launchReady
    | split

theorem keep_notePoint {s0 : State} (a0 : Nat) (a1 : Nat) (a2 : Nat) (a3 : Nat) (s : State) (h : Keep s0 s) :
    Keep s0 (notePoint a0 a1 a2 a3 s) := by
  unfold notePoint
  try dsimp only
  repeat' first
    | with_reducible assumption
    | with_reducible apply keep_setF
    | with_reducible apply keep_incF
    | dsimp only
    | split

theorem keep_pointCommit {s0 : State} (a0 : Nat) (s : State) (h : Keep s0 s) :
    Keep s0 (pointCommit a0 s) := by
  unfold pointCommit
  try extract_lets
  repeat' first
    | with_reducible assumption
    | with_reducible apply keep_State_putPart
    | with_reducible apply keep_notePoint
    | extract_lets
    | split

theorem keep_packageSaved {s0 : State} (a0 : Nat) (s : State) (h : Keep s0 s) :
    Keep s0 (packageSaved a0 s) := by
  unfold packageSaved
  try extract_lets
  repeat' first
    | with_reducible assumption
    | with_reducible apply keep_State_putPart
    | with_reducible apply keep_pointCommit
    | with_reducible apply keep_flood
    | with_reducible apply keep_launchReady
    | extract_lets
    | split

theorem keep_saveComplete {s0 : State} (a0 : Nat) (s : State) (h : Keep s0 s) :
    Keep s0 (saveComplete a0 s) := by
  unfold saveComplete
  try extract_lets
  repeat' first
    | with_reducible assumption
    | with_reducible apply keep_askDone
    | with_reducible apply keep_flagF
    | with_reducible apply keep_State_putPart
    | with_reducible apply keep_packageSaved
    | with_reducible apply keep_State_putBed
    | extract_lets
    | split

theorem keep_execSaveComplete {s0 : State} (a0 : BedId) (s : State) (h : Keep s0 s) :
    KeepAll s0 (execSaveComplete a0 s) := by
  unfold execSaveComplete
  repeat' first
    | with_reducible assumption
    | with_reducible apply keep_saveComplete
    | with_reducible apply KeepAll.next

theorem keep_execPointCommit {s0 : State} (a0 : PartId) (s : State) (h : Keep s0 s) :
    KeepAll s0 (execPointCommit a0 s) := by
  unfold execPointCommit
  repeat' first
    | with_reducible assumption
    | with_reducible apply keep_pointCommit
    | with_reducible apply KeepAll.next

theorem keep_readCopy {s0 : State} (a0 : Nat) (a1 : Nat) (a2 : Nat) (a3 : Nat) (a4 : Nat) (a5 : Nat) (a6 : Bool) (s : State) (h : Keep s0 s) :
    Keep s0 (readCopy a0 a1 a2 a3 a4 a5 a6 s).2 := by
  unfold readCopy
  try extract_lets
  repeat' first
    | with_reducible assumption
    | with_reducible apply keep_busRead
    | with_reducible apply keep_busReadRange
    | (with_reducible apply keep_busRead_e; · with_reducible assumption)
    | (with_reducible apply keep_busReadRange_e; · with_reducible assumption)
    | extract_lets
    | split

theorem keep_readCopy_e {s0 : State} {a0 : Nat} {a1 : Nat} {a2 : Nat} {a3 : Nat} {a4 : Nat} {a5 : Nat} {a6 : Bool} {s t : State} {x} (e : readCopy a0 a1 a2 a3 a4 a5 a6 s = (x, t)) (h : Keep s0 s) : Keep s0 t := by
  have g := keep_readCopy a0 a1 a2 a3 a4 a5 a6 s h 
  rw [e] at g
  exact g

theorem keep_readRecord {s0 : State} (a0 : Nat) (a1 : Nat) (a2 : Nat) (a3 : Nat) (a4 : Nat) (s : State) (h : Keep s0 s) :
    Keep s0 (readRecord a0 a1 a2 a3 a4 s).2 := by
  unfold readRecord
  try extract_lets
  repeat' first
    | with_reducible assumption
    | with_reducible apply keep_readCopy
    | with_reducible apply keep_flagF
    | (with_reducible apply keep_readCopy_e; · with_reducible assumption)
    | extract_lets
    | split

theorem keep_readRecord_e {s0 : State} {a0 : Nat} {a1 : Nat} {a2 : Nat} {a3 : Nat} {a4 : Nat} {s t : State} {x} (e : readRecord a0 a1 a2 a3 a4 s = (x, t)) (h : Keep s0 s) : Keep s0 t := by
  have g := keep_readRecord a0 a1 a2 a3 a4 s h 
  rw [e] at g
  exact g

theorem keep_restoreDone {s0 : State} (a0 : Nat) (s : State) (h : Keep s0 s) :
    Keep s0 (restoreDone a0 s) := by
  unfold restoreDone
  repeat' first
    | with_reducible assumption
    | with_reducible apply keep_askDone

theorem keep_readRecords {s0 : State} (a0 : Nat) (a1 : Nat) (a2 : Nat → Nat) (a3 : List (Nat × Nat)) (s : State) (h : Keep s0 s) :
    Keep s0 (readRecords a0 a1 a2 a3 s).2 := by
  unfold readRecords
  try extract_lets
  repeat' first
    | with_reducible assumption
    | with_reducible apply keep_readRecord
    | with_reducible apply keep_restoreDone
    | (with_reducible apply keep_readRecord_e; · with_reducible assumption)
    | extract_lets
    | with_reducible apply keep_foldl
    | with_reducible apply keep_foldl2
    | with_reducible apply keep_foldl3
    | split
    | dsimp only
    | intro _

theorem keep_readRecords_e {s0 : State} {a0 : Nat} {a1 : Nat} {a2 : Nat → Nat} {a3 : List (Nat × Nat)} {s t : State} {x} (e : readRecords a0 a1 a2 a3 s = (x, t)) (h : Keep s0 s) : Keep s0 t := by
  have g := keep_readRecords a0 a1 a2 a3 s h 
  rw [e] at g
  exact g

theorem keep_restart {s0 : State} (a0 : Nat) (a1 : Launch) (a2 : List (Nat × Nat)) (s : State) (h : Keep s0 s) :
    Keep s0 (restart a0 a1 a2 s) := by
  unfold restart
  try extract_lets
  repeat' first
    | with_reducible assumption
    | with_reducible apply keep_State_putBed
    | with_reducible apply keep_startBed
    | extract_lets
    | with_reducible apply keep_foldl
    | with_reducible apply keep_foldl2
    | with_reducible apply keep_foldl3
    | dsimp only
    | intro _

theorem keep_setLogCount {s0 : State} (a0 : Nat) (a1 : Launch) (s : State) (h : Keep s0 s) :
    Keep s0 (setLogCount a0 a1 s) := by
  unfold setLogCount
  repeat' first
    | with_reducible assumption
    | with_reducible apply keep_askLog
    | split

theorem keep_restoreAll {s0 : State} (a0 : List (Nat × Nat × Nat)) (a1 : Nat) (a2 : Nat → Bool) (s : State) (h : Keep s0 s) :
    Keep s0 (restoreAll a0 a1 a2 s) := by
  unfold restoreAll
  repeat' first
    | with_reducible assumption
    | with_reducible apply keep_restoreBed
    | with_reducible apply keep_foldl
    | with_reducible apply keep_foldl2
    | with_reducible apply keep_foldl3
    | dsimp only
    | intro _

theorem keep_noteRestore {s0 : State} (a0 : Nat) (s : State) (h : Keep s0 s) :
    Keep s0 (noteRestore a0 s) := by
  unfold noteRestore
  try extract_lets
  repeat' first
    | with_reducible assumption
    | with_reducible apply keep_State_takeFree
    | with_reducible apply keep_setF

theorem keep_heldAt {s0 : State} (a0 : Nat) (a1 : Launch) (a2 : Status) (a3 : List (Nat × Nat)) (a4 : Nat) (a5 : Nat) (s : State) (h : Keep s0 s) :
    Keep s0 (heldAt a0 a1 a2 a3 a4 a5 s) := by
  unfold heldAt
  try extract_lets
  repeat' first
    | with_reducible assumption
    | with_reducible apply keep_finishDesc
    | with_reducible apply keep_abandonFor
    | with_reducible apply keep_wokenDone
    | with_reducible apply keep_State_putPart
    | with_reducible apply keep_incF
    | with_reducible apply keep_flagF
    | with_reducible apply keep_setLogCount
    | with_reducible apply keep_noteRestore

theorem keep_rollbackNone {s0 : State} (a0 : Nat) (a1 : Launch) (a2 : Status) (s : State) (h : Keep s0 s) :
    Keep s0 (rollbackNone a0 a1 a2 s) := by
  unfold rollbackNone
  try extract_lets
  repeat' first
    | with_reducible assumption
    | with_reducible apply keep_releaseWaiters
    | with_reducible apply keep_endLaunch
    | with_reducible apply keep_State_putPart

theorem keep_rollback {s0 : State} (a0 : Nat) (s : State) (h : Keep s0 s) :
    Keep s0 (rollback a0 s) := by
  unfold rollback
  try extract_lets
  repeat' first
    | with_reducible assumption
    | with_reducible apply keep_rollbackNone
    | with_reducible apply keep_idleBed
    | with_reducible apply keep_restart
    | with_reducible apply keep_heldAt
    | with_reducible apply keep_restoreStart
    | with_reducible apply keep_readRecords
    | with_reducible apply keep_restoreAll
    | (with_reducible apply keep_readRecords_e; · with_reducible assumption)
    | extract_lets
    | with_reducible apply keep_foldl
    | with_reducible apply keep_foldl2
    | with_reducible apply keep_foldl3
    | split
    | dsimp only
    | intro _

theorem keep_execRollback {s0 : State} (a0 : PartId) (s : State) (h : Keep s0 s) :
    KeepAll s0 (execRollback a0 s) := by
  unfold execRollback
  repeat' first
    | with_reducible assumption
    | with_reducible apply keep_rollback
    | with_reducible apply KeepAll.next

end Sys2Proof.Machine
end

