-- ==== Sys2Proof/Laws/KeepDesc.lean ====
section
/-!
SUPPORT. Keeping: the operations of Desc.
-/

namespace Sys2Proof.Machine

theorem keep_beginDesc {s0 : State} (a0 : Nat) (a1 : Desc) (s : State) (h : Keep s0 s) :
    Keep s0 (beginDesc a0 a1 s) := by
  unfold beginDesc
  try extract_lets
  repeat' first
    | with_reducible assumption
    | with_reducible apply keep_putDesc

theorem keep_withDesc {s0 : State} (a0 : Nat) (a1 : Nat) (a2 : List Nat) (a3 : Desc → State → State) (s : State) (h : Keep s0 s) (h3 : ∀ u0 z, Keep s0 z → Keep s0 (a3 u0 z)) :
    Keep s0 (withDesc a0 a1 a2 a3 s) := by
  unfold withDesc
  try extract_lets
  repeat' first
    | with_reducible assumption
    | with_reducible apply h3
    | with_reducible apply keep_putDesc
    | extract_lets
    | split

theorem keep_descLost {s0 : State} (a0 : Nat) (a1 : Desc) (a2 : Status) (s : State) (h : Keep s0 s) :
    Keep s0 (descLost a0 a1 a2 s) := by
  unfold descLost
  repeat' first
    | with_reducible assumption
    | with_reducible apply keep_rollbackPart
    | split

theorem keep_descGo {s0 : State} (a0 : Nat) (a1 : Desc) (a2 : Got) (a3 : Nat → State → State) (s : State) (h : Keep s0 s) (h3 : ∀ u0 z, Keep s0 z → Keep s0 (a3 u0 z)) :
    Keep s0 (descGo a0 a1 a2 a3 s) := by
  unfold descGo
  repeat' first
    | with_reducible assumption
    | with_reducible apply h3
    | with_reducible apply keep_descDone
    | with_reducible apply keep_finishDesc
    | with_reducible apply keep_descLost
    | split

theorem keep_descNop {s0 : State} (a0 : Nat) (a1 : Nat) (s : State) (h : Keep s0 s) :
    Keep s0 (descNop a0 a1 s) := by
  unfold descNop
  repeat' first
    | with_reducible assumption
    | with_reducible apply keep_withDesc
    | with_reducible apply keep_finishDesc
    | split
    | dsimp only
    | intro _

theorem keep_execDescNop {s0 : State} (a0 : RingId) (a1 : BitVec 32) (s : State) (h : Keep s0 s) :
    KeepAll s0 (execDescNop a0 a1 s) := by
  unfold execDescNop
  repeat' first
    | with_reducible assumption
    | with_reducible apply keep_descNop
    | with_reducible apply KeepAll.next

theorem keep_descFence {s0 : State} (a0 : Nat) (a1 : Nat) (s : State) (h : Keep s0 s) :
    Keep s0 (descFence a0 a1 s) := by
  unfold descFence
  repeat' first
    | with_reducible assumption
    | with_reducible apply keep_withDesc
    | with_reducible apply keep_finishDesc
    | split
    | dsimp only
    | intro _

theorem keep_execFence {s0 : State} (a0 : RingId) (a1 : BitVec 32) (s : State) (h : Keep s0 s) :
    KeepAll s0 (execFence a0 a1 s) := by
  unfold execFence
  repeat' first
    | with_reducible assumption
    | with_reducible apply keep_descFence
    | with_reducible apply KeepAll.next

theorem keep_signalSend {s0 : State} (a0 : Via) (a1 : Atom) (a2 : Nat) (s : State) (h : Keep s0 s) :
    Keep s0 (signalSend a0 a1 a2 s) := by
  unfold signalSend
  try extract_lets
  repeat' first
    | with_reducible assumption
    | with_reducible apply keep_post

theorem keep_signalGot {s0 : State} (a0 : Nat) (a1 : Via) (a2 : Nat) (a3 : Atom) (s : State) (h : Keep s0 s) :
    Keep s0 (signalGot a0 a1 a2 a3 s).2 := by
  unfold signalGot
  try extract_lets
  repeat' first
    | with_reducible assumption
    | with_reducible apply keep_netDel
    | with_reducible apply keep_translate
    | with_reducible apply keep_signalSend
    | (with_reducible apply keep_translate_e; · with_reducible assumption)
    | extract_lets
    | split

theorem keep_signalGot_e {s0 : State} {a0 : Nat} {a1 : Via} {a2 : Nat} {a3 : Atom} {s t : State} {x} (e : signalGot a0 a1 a2 a3 s = (x, t)) (h : Keep s0 s) : Keep s0 t := by
  have g := keep_signalGot a0 a1 a2 a3 s h 
  rw [e] at g
  exact g

theorem keep_descSignal {s0 : State} (a0 : Nat) (a1 : Nat) (s : State) (h : Keep s0 s) :
    Keep s0 (descSignal a0 a1 s) := by
  unfold descSignal
  try extract_lets
  repeat' first
    | with_reducible assumption
    | with_reducible apply keep_withDesc
    | with_reducible apply keep_signalGot
    | with_reducible apply keep_descGo
    | with_reducible apply keep_finishDesc
    | (with_reducible apply keep_signalGot_e; · with_reducible assumption)
    | extract_lets
    | dsimp only
    | intro _

theorem keep_execSignal {s0 : State} (a0 : RingId) (a1 : BitVec 32) (s : State) (h : Keep s0 s) :
    KeepAll s0 (execSignal a0 a1 s) := by
  unfold execSignal
  repeat' first
    | with_reducible assumption
    | with_reducible apply keep_descSignal
    | with_reducible apply KeepAll.next

theorem keep_waitRead {s0 : State} (a0 : Nat) (a1 : Desc) (s : State) (h : Keep s0 s) :
    Keep s0 (waitRead a0 a1 s) := by
  unfold waitRead
  try extract_lets
  repeat' first
    | with_reducible assumption
    | with_reducible apply keep_Via_get
    | with_reducible apply keep_putDesc
    | with_reducible apply keep_sendReport
    | with_reducible apply keep_descLost
    | with_reducible apply keep_descDone
    | with_reducible apply keep_descGo
    | (with_reducible apply keep_Via_get_e; · with_reducible assumption)
    | extract_lets
    | split
    | dsimp only
    | intro _

theorem keep_descWait {s0 : State} (a0 : Nat) (a1 : Nat) (s : State) (h : Keep s0 s) :
    Keep s0 (descWait a0 a1 s) := by
  unfold descWait
  repeat' first
    | with_reducible assumption
    | with_reducible apply keep_withDesc
    | with_reducible apply keep_waitRead
    | split
    | dsimp only
    | intro _

theorem keep_execWait {s0 : State} (a0 : RingId) (a1 : BitVec 32) (s : State) (h : Keep s0 s) :
    KeepAll s0 (execWait a0 a1 s) := by
  unfold execWait
  repeat' first
    | with_reducible assumption
    | with_reducible apply keep_descWait
    | with_reducible apply KeepAll.next

theorem keep_descPoll {s0 : State} (a0 : Nat) (a1 : Nat) (s : State) (h : Keep s0 s) :
    Keep s0 (descPoll a0 a1 s) := by
  unfold descPoll
  repeat' first
    | with_reducible assumption
    | with_reducible apply keep_withDesc
    | with_reducible apply keep_waitRead
    | split
    | dsimp only
    | intro _

theorem keep_execWaitPoll {s0 : State} (a0 : RingId) (a1 : BitVec 32) (s : State) (h : Keep s0 s) :
    KeepAll s0 (execWaitPoll a0 a1 s) := by
  unfold execWaitPoll
  repeat' first
    | with_reducible assumption
    | with_reducible apply keep_descPoll
    | with_reducible apply KeepAll.next

theorem keep_descMove {s0 : State} (a0 : Nat) (a1 : Nat) (s : State) (h : Keep s0 s) :
    Keep s0 (descMove a0 a1 s) := by
  unfold descMove
  try extract_lets
  repeat' first
    | with_reducible apply keep_putDesc
    | with_reducible assumption
    | with_reducible apply keep_withDesc
    | with_reducible apply keep_finishDesc
    | with_reducible apply keep_State_takeId
    | with_reducible apply keep_armProg
    | (with_reducible apply keep_State_takeId_e; · with_reducible assumption)
    | extract_lets
    | split
    | dsimp only
    | intro _

theorem keep_execMove {s0 : State} (a0 : RingId) (a1 : BitVec 32) (s : State) (h : Keep s0 s) :
    KeepAll s0 (execMove a0 a1 s) := by
  unfold execMove
  repeat' first
    | with_reducible assumption
    | with_reducible apply keep_descMove
    | with_reducible apply KeepAll.next

end Sys2Proof.Machine
end

