-- ==== Sys2Proof/Laws/KeepShelf.lean ====
section
/-!
SUPPORT. Keeping: the operations of Shelf.
-/

namespace Sys2Proof.Machine

theorem keep_shelfStage {s0 : State} (a0 : Nat) (a1 : Nat) (a2 : Nat) (a3 : Bool) (a4 : List ShelfWrite) (s : State) (h : Keep s0 s) :
    Keep s0 (shelfStage a0 a1 a2 a3 a4 s) := by
  unfold shelfStage
  try extract_lets
  repeat' first
    | with_reducible assumption
    | with_reducible apply keep_finishDesc
    | with_reducible apply keep_setF
    | with_reducible apply keep_putShelf
    | extract_lets
    | split

theorem keep_configStage {s0 : State} (a0 : Nat) (a1 : Nat) (s : State) (h : Keep s0 s) :
    Keep s0 (configStage a0 a1 s) := by
  unfold configStage
  try extract_lets
  repeat' first
    | with_reducible assumption
    | with_reducible apply keep_withDesc
    | with_reducible apply keep_finishDesc
    | with_reducible apply keep_Via_getRange
    | with_reducible apply keep_descGo
    | with_reducible apply keep_shelfStage
    | (with_reducible apply keep_Via_getRange_e; · with_reducible assumption)
    | extract_lets
    | split
    | dsimp only
    | intro _

theorem keep_execConfigStage {s0 : State} (a0 : RingId) (a1 : BitVec 32) (s : State) (h : Keep s0 s) :
    KeepAll s0 (execConfigStage a0 a1 s) := by
  unfold execConfigStage
  repeat' first
    | with_reducible assumption
    | with_reducible apply keep_configStage
    | with_reducible apply KeepAll.next

theorem keep_commitRefused {s0 : State} (a0 : Nat) (a1 : Nat) (a2 : Nat) (a3 : Nat) (s : State) (h : Keep s0 s) :
    Keep s0 (commitRefused a0 a1 a2 a3 s) := by
  unfold commitRefused
  repeat' first
    | with_reducible assumption
    | with_reducible apply keep_sendReport
    | with_reducible apply keep_setF

theorem keep_configCommit {s0 : State} (a0 : Nat) (a1 : Nat) (s : State) (h : Keep s0 s) :
    Keep s0 (configCommit a0 a1 s) := by
  unfold configCommit
  try extract_lets
  repeat' first
    | with_reducible assumption
    | with_reducible apply keep_withDesc
    | with_reducible apply keep_finishDesc
    | with_reducible apply keep_commitRefused
    | with_reducible apply keep_incF
    | with_reducible apply keep_freeShelf
    | with_reducible apply keep_putShelf
    | with_reducible apply keep_setF
    | extract_lets
    | split
    | dsimp only
    | intro _

theorem keep_execConfigCommit {s0 : State} (a0 : RingId) (a1 : BitVec 32) (s : State) (h : Keep s0 s) :
    KeepAll s0 (execConfigCommit a0 a1 s) := by
  unfold execConfigCommit
  repeat' first
    | with_reducible assumption
    | with_reducible apply keep_configCommit
    | with_reducible apply KeepAll.next

theorem keep_ShelfWrite_put {s0 : State} (a0 : ShelfWrite) (s : State) (h : Keep s0 s) :
    Keep s0 (ShelfWrite.put a0 s) := by
  unfold ShelfWrite.put
  repeat' first
    | with_reducible assumption
    | with_reducible apply keep_CsrAt_put
    | split

theorem keep_shelfReport {s0 : State} (a0 : Nat) (a1 : Nat) (s : State) (h : Keep s0 s) :
    Keep s0 (shelfReport a0 a1 s) := by
  unfold shelfReport
  try extract_lets
  repeat' first
    | with_reducible assumption
    | with_reducible apply keep_putShelf
    | extract_lets
    | split

theorem keep_execShelfParticipantReport {s0 : State} (a0 : Fin 16) (a1 : Fin 13) (s : State) (h : Keep s0 s) :
    KeepAll s0 (execShelfParticipantReport a0 a1 s) := by
  unfold execShelfParticipantReport
  repeat' first
    | with_reducible assumption
    | with_reducible apply keep_shelfReport
    | with_reducible apply KeepAll.next

theorem keep_shelfPut {s0 : State} (a0 : Nat) (a1 : Nat) (s : State) (h : Keep s0 s) :
    Keep s0 (shelfPut a0 a1 s) := by
  unfold shelfPut
  try extract_lets
  repeat' first
    | with_reducible assumption
    | with_reducible apply keep_ShelfWrite_put
    | with_reducible apply keep_sendReport
    | with_reducible apply keep_freeShelf
    | with_reducible apply keep_incF
    | extract_lets
    | with_reducible apply keep_foldl
    | with_reducible apply keep_foldl2
    | with_reducible apply keep_foldl3
    | split
    | dsimp only
    | intro _

theorem keep_shelfClose {s0 : State} (a0 : Nat) (a1 : Nat) (a2 : Option Nat) (a3 : Bool) (s : State) (h : Keep s0 s) :
    Keep s0 (shelfClose a0 a1 a2 a3 s) := by
  unfold shelfClose
  try extract_lets
  repeat' first
    | with_reducible assumption
    | with_reducible apply keep_abandonShelf
    | with_reducible apply keep_shelfPut
    | with_reducible apply keep_putShelf
    | extract_lets
    | split

theorem keep_shelfTick {s0 : State}  (s : State) (h : Keep s0 s) :
    Keep s0 (shelfTick s) := by
  unfold shelfTick
  repeat' first
    | with_reducible assumption
    | with_reducible apply keep_shelfPut
    | with_reducible apply keep_foldl
    | with_reducible apply keep_foldl2
    | with_reducible apply keep_foldl3
    | split
    | dsimp only
    | intro _

theorem keep_shelfApply {s0 : State} (a0 : Nat) (a1 : Nat) (a2 : Option Nat) (s : State) (h : Keep s0 s) :
    Keep s0 (shelfApply a0 a1 a2 s) := by
  unfold shelfApply
  repeat' first
    | with_reducible assumption
    | with_reducible apply keep_shelfClose
    | with_reducible apply keep_foldl
    | with_reducible apply keep_foldl2
    | with_reducible apply keep_foldl3
    | dsimp only
    | intro _

theorem keep_shelfVoteClose {s0 : State} (a0 : Nat) (s : State) (h : Keep s0 s) :
    Keep s0 (shelfVoteClose a0 s) := by
  unfold shelfVoteClose
  try extract_lets
  repeat' first
    | with_reducible assumption
    | with_reducible apply keep_shelfClose
    | extract_lets
    | split

theorem keep_execShelfVoteClose {s0 : State} (a0 : Fin 16) (s : State) (h : Keep s0 s) :
    KeepAll s0 (execShelfVoteClose a0 s) := by
  unfold execShelfVoteClose
  repeat' first
    | with_reducible assumption
    | with_reducible apply keep_shelfVoteClose
    | with_reducible apply KeepAll.next

end Sys2Proof.Machine
end

