-- ==== Sys2Proof/Laws/KeepRelease.lean ====
section
/-!
SUPPORT. Keeping: the operations of Release.
-/

namespace Sys2Proof.Machine

theorem keep_retainLaunch {s0 : State} (a0 : Nat) (a1 : Launch) (s : State) (h : Keep s0 s) :
    Keep s0 (retainLaunch a0 a1 s) := by
  unfold retainLaunch
  try extract_lets
  repeat' first
    | with_reducible assumption
    | with_reducible apply keep_retentionEnter
    | with_reducible apply keep_State_putPart
    | extract_lets
    | with_reducible apply keep_foldl
    | with_reducible apply keep_foldl2
    | with_reducible apply keep_foldl3
    | dsimp only
    | intro _

theorem keep_retainedDone {s0 : State} (a0 : Nat) (s : State) (h : Keep s0 s) :
    Keep s0 (retainedDone a0 s) := by
  unfold retainedDone
  repeat' first
    | with_reducible assumption
    | with_reducible apply keep_finishDesc
    | with_reducible apply keep_foldl
    | with_reducible apply keep_foldl2
    | with_reducible apply keep_foldl3
    | split
    | dsimp only
    | intro _

theorem keep_retentionTick {s0 : State}  (s : State) (h : Keep s0 s) :
    Keep s0 (retentionTick s) := by
  unfold retentionTick
  repeat' first
    | with_reducible assumption
    | with_reducible apply keep_retainedDone
    | with_reducible apply keep_retentionStep
    | with_reducible apply keep_foldl
    | with_reducible apply keep_foldl2
    | with_reducible apply keep_foldl3
    | split
    | dsimp only
    | intro _

theorem keep_holdPart {s0 : State} (a0 : Nat) (s : State) (h : Keep s0 s) :
    Keep s0 (holdPart a0 s) := by
  unfold holdPart
  try extract_lets
  repeat' first
    | with_reducible assumption
    | with_reducible apply keep_State_putPart

theorem keep_dormantAt {s0 : State} (a0 : Nat) (a1 : Launch) (a2 : DescRef) (s : State) (h : Keep s0 s) :
    Keep s0 (dormantAt a0 a1 a2 s).2 := by
  unfold dormantAt
  repeat' first
    | with_reducible assumption
    | with_reducible apply keep_finishDesc
    | with_reducible apply keep_holdPart
    | with_reducible apply keep_retainedDone
    | with_reducible apply keep_retainLaunch
    | split

theorem keep_dormantAt_e {s0 : State} {a0 : Nat} {a1 : Launch} {a2 : DescRef} {s t : State} {x} (e : dormantAt a0 a1 a2 s = (x, t)) (h : Keep s0 s) : Keep s0 t := by
  have g := keep_dormantAt a0 a1 a2 s h 
  rw [e] at g
  exact g

theorem keep_descAt {s0 : State} (a0 : Nat) (a1 : Launch) (a2 : DescRef) (s : State) (h : Keep s0 s) :
    Keep s0 (descAt a0 a1 a2 s).2 := by
  unfold descAt
  try extract_lets
  repeat' first
    | with_reducible assumption
    | with_reducible apply keep_holdPart
    | with_reducible apply keep_finishDesc
    | with_reducible apply keep_State_putPart
    | with_reducible apply keep_dormantAt
    | (with_reducible apply keep_dormantAt_e; · with_reducible assumption)
    | extract_lets
    | split
    | dsimp only
    | with_reducible apply Keep.upd

theorem keep_descAt_e {s0 : State} {a0 : Nat} {a1 : Launch} {a2 : DescRef} {s t : State} {x} (e : descAt a0 a1 a2 s = (x, t)) (h : Keep s0 s) : Keep s0 t := by
  have g := keep_descAt a0 a1 a2 s h 
  rw [e] at g
  exact g

theorem keep_pointEvents {s0 : State} (a0 : Nat) (a1 : Launch) (a2 : List DescRef) (a3 : List DescRef) (s : State) (h : Keep s0 s) :
    Keep s0 (pointEvents a0 a1 a2 a3 s) := by
  induction a2 generalizing s a3 with
  | nil =>
    unfold pointEvents
    try extract_lets
    repeat' first
      | with_reducible assumption
      | with_reducible apply ih
      | with_reducible apply keep_State_putPart
  | cons u l ih =>
    unfold pointEvents
    try extract_lets
    repeat' first
      | with_reducible assumption
      | with_reducible apply ih
      | with_reducible apply keep_State_putPart
      | with_reducible apply keep_descAt
      | (with_reducible apply keep_descAt_e; · with_reducible assumption)
      | extract_lets
      | split

theorem keep_runPoint {s0 : State} (a0 : Nat) (s : State) (h : Keep s0 s) :
    Keep s0 (runPoint a0 s) := by
  unfold runPoint
  repeat' first
    | with_reducible assumption
    | with_reducible apply keep_pointEvents
    | split

theorem keep_releaseCore {s0 : State} (a0 : Nat → Bool) (a1 : Nat) (s : State) (h : Keep s0 s) :
    Keep s0 (releaseCore a0 a1 s) := by
  unfold releaseCore
  try extract_lets
  repeat' first
    | with_reducible assumption
    | with_reducible apply keep_State_putCore
    | with_reducible apply keep_passSync
    | extract_lets
    | split

theorem keep_releaseBed {s0 : State} (a0 : Nat) (s : State) (h : Keep s0 s) :
    Keep s0 (releaseBed a0 s) := by
  unfold releaseBed
  try extract_lets
  repeat' first
    | with_reducible assumption
    | with_reducible apply keep_invShared
    | with_reducible apply keep_State_putBed

theorem keep_releaseStep {s0 : State} (a0 : Nat) (a1 : Nat) (a2 : Option Nat) (a3 : Nat → Bool) (s : State) (h : Keep s0 s) :
    Keep s0 (releaseStep a0 a1 a2 a3 s) := by
  unfold releaseStep
  try dsimp only
  repeat' first
    | with_reducible assumption
    | with_reducible apply keep_applyAdds
    | with_reducible apply keep_shelfApply
    | with_reducible apply keep_wokenDone
    | with_reducible apply keep_putLaunch
    | with_reducible apply keep_releaseCore
    | with_reducible apply keep_releaseBed
    | dsimp only
    | with_reducible apply keep_foldl
    | with_reducible apply keep_foldl2
    | with_reducible apply keep_foldl3
    | split
    | intro _

theorem keep_freeRelease {s0 : State} (a0 : Nat) (a1 : Launch → Nat → Bool) (s : State) (h : Keep s0 s) :
    Keep s0 (freeRelease a0 a1 s) := by
  unfold freeRelease
  try extract_lets
  repeat' first
    | with_reducible assumption
    | with_reducible apply keep_drainMerge
    | with_reducible apply keep_runPoint
    | with_reducible apply keep_releaseStep
    | extract_lets
    | with_reducible apply keep_foldl
    | with_reducible apply keep_foldl2
    | with_reducible apply keep_foldl3
    | split
    | dsimp only
    | intro _

theorem keep_wokenTick {s0 : State}  (s : State) (h : Keep s0 s) :
    Keep s0 (wokenTick s) := by
  unfold wokenTick
  repeat' first
    | with_reducible assumption
    | with_reducible apply keep_freeRelease
    | with_reducible apply keep_foldl
    | with_reducible apply keep_foldl2
    | with_reducible apply keep_foldl3
    | split
    | dsimp only
    | intro _

theorem keep_bedRelease {s0 : State} (a0 : Nat) (s : State) (h : Keep s0 s) :
    Keep s0 (bedRelease a0 s) := by
  unfold bedRelease
  repeat' first
    | with_reducible assumption
    | with_reducible apply keep_passSync
    | with_reducible apply keep_foldl
    | with_reducible apply keep_foldl2
    | with_reducible apply keep_foldl3
    | split
    | dsimp only
    | intro _

theorem keep_execSyncRelease {s0 : State} (a0 : SyncScope) (s : State) (h : Keep s0 s) :
    KeepAll s0 (execSyncRelease a0 s) := by
  unfold execSyncRelease
  repeat' first
    | with_reducible assumption
    | with_reducible apply keep_bedRelease
    | with_reducible apply keep_freeRelease
    | with_reducible apply KeepAll.next
    | split

end Sys2Proof.Machine
end

