-- ==== Sys2Proof/Laws/KeepLock.lean ====
section
/-!
SUPPORT. Keeping: the operations of Lock.
-/

namespace Sys2Proof.Machine

theorem keep_noteReadyTick {s0 : State} (a0 : Nat) (s : State) (h : Keep s0 s) :
    Keep s0 (noteReadyTick a0 s) := by
  unfold noteReadyTick
  try extract_lets
  repeat' first
    | with_reducible assumption
    | with_reducible apply keep_putLaunch
    | extract_lets
    | split

theorem keep_noteMargin {s0 : State} (a0 : Launch) (s : State) (h : Keep s0 s) :
    Keep s0 (noteMargin a0 s) := by
  unfold noteMargin
  try extract_lets
  repeat' first
    | with_reducible assumption
    | with_reducible apply keep_setF
    | extract_lets
    | split

theorem keep_diverged {s0 : State} (a0 : Nat) (s : State) (h : Keep s0 s) :
    Keep s0 (diverged a0 s) := by
  unfold diverged
  try extract_lets
  repeat' first
    | with_reducible assumption
    | with_reducible apply keep_dropAdds
    | with_reducible apply keep_flagF
    | with_reducible apply keep_failLaunch
    | with_reducible apply keep_putLaunch
    | extract_lets
    | split

theorem keep_floodDiverge {s0 : State} (a0 : Nat) (s : State) (h : Keep s0 s) :
    Keep s0 (floodDiverge a0 s) := by
  unfold floodDiverge
  repeat' first
    | with_reducible assumption
    | with_reducible apply keep_diverged
    | with_reducible apply keep_flood
    | split

theorem keep_oaddOverflow {s0 : State} (a0 : Nat) (a1 : List Nat) (s : State) (h : Keep s0 s) :
    Keep s0 (oaddOverflow a0 a1 s) := by
  unfold oaddOverflow
  repeat' first
    | with_reducible assumption
    | with_reducible apply keep_floodDiverge
    | with_reducible apply keep_incF
    | with_reducible apply keep_foldl
    | with_reducible apply keep_foldl2
    | with_reducible apply keep_foldl3
    | dsimp only
    | intro _

theorem keep_sendShort {s0 : State} (a0 : Nat) (a1 : Launch) (s : State) (h : Keep s0 s) :
    Keep s0 (sendShort a0 a1 s) := by
  unfold sendShort
  try extract_lets
  repeat' first
    | with_reducible assumption
    | with_reducible apply keep_incF
    | with_reducible apply keep_putLaunch
    | with_reducible apply keep_flood
    | extract_lets
    | split

theorem keep_lockCheck {s0 : State} (a0 : Nat) (s : State) (h : Keep s0 s) :
    Keep s0 (lockCheck a0 s) := by
  unfold lockCheck
  try extract_lets
  repeat' first
    | with_reducible assumption
    | with_reducible apply keep_noteReadyTick
    | with_reducible apply keep_runPoint
    | with_reducible apply keep_oaddOverflow
    | with_reducible apply keep_drainMerge
    | with_reducible apply keep_sendShort
    | extract_lets
    | with_reducible apply keep_foldl
    | with_reducible apply keep_foldl2
    | with_reducible apply keep_foldl3
    | split
    | dsimp only
    | intro _

theorem keep_execLockCheckTick {s0 : State} (a0 : PartId) (s : State) (h : Keep s0 s) :
    KeepAll s0 (execLockCheckTick a0 s) := by
  unfold execLockCheckTick
  repeat' first
    | with_reducible assumption
    | with_reducible apply keep_lockCheck
    | with_reducible apply KeepAll.next

theorem keep_slipStep {s0 : State} (a0 : Nat) (a1 : Launch) (a2 : Nat) (s : State) (h : Keep s0 s) :
    Keep s0 (slipStep a0 a1 a2 s) := by
  unfold slipStep
  try extract_lets
  repeat' first
    | with_reducible assumption
    | with_reducible apply keep_incF
    | with_reducible apply keep_putLaunch
    | with_reducible apply keep_flagIf

theorem keep_lockStep {s0 : State} (a0 : Nat) (s : State) (h : Keep s0 s) :
    Keep s0 (lockStep a0 s) := by
  unfold lockStep
  try extract_lets
  repeat' first
    | with_reducible assumption
    | with_reducible apply keep_noteReadyTick
    | with_reducible apply keep_slipStep
    | with_reducible apply keep_releaseStep
    | with_reducible apply keep_noteMargin
    | extract_lets
    | split

theorem keep_execLockStepTick {s0 : State} (a0 : PartId) (s : State) (h : Keep s0 s) :
    KeepAll s0 (execLockStepTick a0 s) := by
  unfold execLockStepTick
  repeat' first
    | with_reducible assumption
    | with_reducible apply keep_lockStep
    | with_reducible apply KeepAll.next

theorem keep_resumeAt {s0 : State} (a0 : Nat) (a1 : Launch) (a2 : Nat) (s : State) (h : Keep s0 s) :
    Keep s0 (resumeAt a0 a1 a2 s).2 := by
  unfold resumeAt
  try extract_lets
  repeat' first
    | with_reducible assumption
    | with_reducible apply keep_failLaunch
    | with_reducible apply keep_readRecords
    | with_reducible apply keep_restoreAll
    | with_reducible apply keep_setLogCount
    | with_reducible apply keep_putLaunch
    | (with_reducible apply keep_readRecords_e; · with_reducible assumption)
    | extract_lets
    | split

theorem keep_resumeAt_e {s0 : State} {a0 : Nat} {a1 : Launch} {a2 : Nat} {s t : State} {x} (e : resumeAt a0 a1 a2 s = (x, t)) (h : Keep s0 s) : Keep s0 t := by
  have g := keep_resumeAt a0 a1 a2 s h 
  rw [e] at g
  exact g

theorem keep_groveStart {s0 : State} (a0 : Nat) (s : State) (h : Keep s0 s) :
    Keep s0 (groveStart a0 s) := by
  unfold groveStart
  try extract_lets
  repeat' first
    | with_reducible assumption
    | with_reducible apply keep_failLaunch
    | with_reducible apply keep_resumeAt
    | with_reducible apply keep_launchGo
    | with_reducible apply keep_forgetReady
    | with_reducible apply keep_putLaunch
    | (with_reducible apply keep_resumeAt_e; · with_reducible assumption)
    | extract_lets
    | split

theorem keep_execGroveLaunchStart {s0 : State} (a0 : PartId) (s : State) (h : Keep s0 s) :
    KeepAll s0 (execGroveLaunchStart a0 s) := by
  unfold execGroveLaunchStart
  repeat' first
    | with_reducible assumption
    | with_reducible apply keep_groveStart
    | with_reducible apply KeepAll.next

end Sys2Proof.Machine
end

