-- ==== Sys2Proof/Laws/KeepMsg.lean ====
section
/-!
SUPPORT. Keeping: the operations of Msg.
-/

namespace Sys2Proof.Machine

theorem keep_putRx {s0 : State} (a0 : E2eRx) (s : State) (h : Keep s0 s) :
    Keep s0 (putRx a0 s) := by
  unfold putRx
  try extract_lets
  repeat' first
    | with_reducible assumption
    | extract_lets
    | dsimp only
    | with_reducible apply Keep.upd

theorem keep_takeE2e {s0 : State} (a0 : MsgHdr) (s : State) (h : Keep s0 s) :
    Keep s0 (takeE2e a0 s).2 := by
  unfold takeE2e
  try extract_lets
  repeat' first
    | with_reducible assumption
    | with_reducible apply keep_putRx
    | extract_lets
    | split

theorem keep_takeE2e_e {s0 : State} {a0 : MsgHdr} {s t : State} {x} (e : takeE2e a0 s = (x, t)) (h : Keep s0 s) : Keep s0 t := by
  have g := keep_takeE2e a0 s h 
  rw [e] at g
  exact g

theorem keep_farAnswer {s0 : State} (a0 : Req) (a1 : Status) (a2 : Nat) (s : State) (h : Keep s0 s) :
    Keep s0 (farAnswer a0 a1 a2 s) := by
  unfold farAnswer
  try extract_lets
  repeat' first
    | with_reducible assumption
    | extract_lets
    | dsimp only
    | with_reducible apply Keep.upd

theorem keep_serveFar {s0 : State} (a0 : Req) (a1 : MsgHdr) (s : State) (h : Keep s0 s) :
    Keep s0 (serveFar a0 a1 s) := by
  unfold serveFar
  try dsimp only
  repeat' first
    | with_reducible assumption
    | with_reducible apply keep_depart
    | with_reducible apply keep_farAnswer
    | (with_reducible apply keep_depart_e; · with_reducible assumption)
    | dsimp only
    | split
    | with_reducible apply Keep.upd

theorem keep_takeResp {s0 : State} (a0 : Nat) (a1 : Status) (a2 : RespData) (s : State) (h : Keep s0 s) :
    Keep s0 (takeResp a0 a1 a2 s) := by
  unfold takeResp
  repeat' first
    | with_reducible assumption
    | with_reducible apply keep_complete
    | split

theorem keep_serve {s0 : State} (a0 : Msg) (s : State) (h : Keep s0 s) :
    Keep s0 (serve a0 s) := by
  unfold serve
  try extract_lets
  repeat' first
    | with_reducible assumption
    | with_reducible apply keep_State_takeId
    | with_reducible apply keep_serveFar
    | with_reducible apply keep_takeResp
    | (with_reducible apply keep_State_takeId_e; · with_reducible assumption)
    | extract_lets
    | split

theorem keep_passMsg {s0 : State} (a0 : Msg) (s : State) (h : Keep s0 s) :
    Keep s0 (passMsg a0 s) := by
  unfold passMsg
  try extract_lets
  repeat' first
    | with_reducible assumption
    | with_reducible apply keep_incF
    | with_reducible apply keep_takeE2e
    | with_reducible apply keep_serve
    | (with_reducible apply keep_takeE2e_e; · with_reducible assumption)
    | extract_lets
    | split

theorem keep_arrive {s0 : State} (a0 : Nat) (a1 : Msg) (s : State) (h : Keep s0 s) :
    Keep s0 (arrive a0 a1 s) := by
  unfold arrive
  repeat' first
    | with_reducible assumption
    | with_reducible apply keep_divert
    | with_reducible apply keep_passMsg
    | split

theorem keep_badMsg {s0 : State} : KeepAll s0 badMsg := KeepAll.fault _

theorem keep_execMsgRead {s0 : State} (a0 : PortId) (a1 : MsgHdr) (s : State) (h : Keep s0 s) :
    KeepAll s0 (execMsgRead a0 a1 s) := by
  unfold execMsgRead
  repeat' first
    | with_reducible assumption
    | with_reducible apply keep_arrive
    | with_reducible apply keep_badMsg
    | with_reducible apply KeepAll.next
    | split

theorem keep_execMsgWrite {s0 : State} (a0 : PortId) (a1 : MsgHdr) (a2 : BitVec 1024) (s : State) (h : Keep s0 s) :
    KeepAll s0 (execMsgWrite a0 a1 a2 s) := by
  unfold execMsgWrite
  repeat' first
    | with_reducible assumption
    | with_reducible apply keep_arrive
    | with_reducible apply keep_badMsg
    | with_reducible apply KeepAll.next
    | split

theorem keep_execMsgAtomic {s0 : State} (a0 : PortId) (a1 : MsgHdr) (a2 : Atom) (a3 : BitVec 32) (a4 : BitVec 16) (s : State) (h : Keep s0 s) :
    KeepAll s0 (execMsgAtomic a0 a1 a2 a3 a4 s) := by
  unfold execMsgAtomic
  repeat' first
    | with_reducible assumption
    | with_reducible apply keep_arrive
    | with_reducible apply keep_badMsg
    | with_reducible apply KeepAll.next
    | split

theorem keep_leaveResp {s0 : State} (a0 : Nat) (s : State) (h : Keep s0 s) :
    Keep s0 (leaveResp a0 s) := by
  unfold leaveResp
  repeat' first
    | with_reducible assumption
    | with_reducible apply keep_sendMsg
    | with_reducible apply keep_netDel
    | split

theorem keep_msgResp {s0 : State} (a0 : Nat) (a1 : RespF) (s : State) (h : Keep s0 s) :
    Keep s0 (msgResp a0 a1 s) := by
  unfold msgResp
  repeat' first
    | with_reducible assumption
    | with_reducible apply keep_arrive
    | with_reducible apply keep_leaveResp
    | split

theorem keep_execMsgResp {s0 : State} (a0 : PortId) (a1 : RespF) (s : State) (h : Keep s0 s) :
    KeepAll s0 (execMsgResp a0 a1 s) := by
  unfold execMsgResp
  repeat' first
    | with_reducible assumption
    | with_reducible apply keep_msgResp
    | with_reducible apply KeepAll.next

theorem keep_e2eAck {s0 : State} (a0 : Nat) (a1 : Nat) (a2 : Nat) (s : State) (h : Keep s0 s) :
    Keep s0 (e2eAck a0 a1 a2 s) := by
  unfold e2eAck
  try extract_lets
  repeat' first
    | with_reducible assumption
    | with_reducible apply keep_putTx
    | extract_lets
    | split

theorem keep_execE2eAck {s0 : State} (a0 : PkgId) (a1 : Fin 16) (a2 : BitVec 11) (s : State) (h : Keep s0 s) :
    KeepAll s0 (execE2eAck a0 a1 a2 s) := by
  unfold execE2eAck
  repeat' first
    | with_reducible assumption
    | with_reducible apply keep_e2eAck
    | with_reducible apply KeepAll.next

theorem keep_e2eReissue {s0 : State} (a0 : Nat) (a1 : Nat) (s : State) (h : Keep s0 s) :
    Keep s0 (e2eReissue a0 a1 s) := by
  unfold e2eReissue
  try extract_lets
  repeat' first
    | with_reducible assumption
    | with_reducible apply keep_markLink
    | with_reducible apply keep_incF
    | with_reducible apply keep_putTx
    | extract_lets
    | split

theorem keep_execE2eReissue {s0 : State} (a0 : PkgId) (a1 : Fin 16) (s : State) (h : Keep s0 s) :
    KeepAll s0 (execE2eReissue a0 a1 s) := by
  unfold execE2eReissue
  repeat' first
    | with_reducible assumption
    | with_reducible apply keep_e2eReissue
    | with_reducible apply KeepAll.next

theorem keep_e2eAckTimer {s0 : State} (a0 : Nat) (a1 : Nat) (s : State) (h : Keep s0 s) :
    Keep s0 (e2eAckTimer a0 a1 s) := by
  unfold e2eAckTimer
  try extract_lets
  repeat' first
    | with_reducible assumption
    | with_reducible apply keep_putRx
    | extract_lets
    | split

theorem keep_execE2eAckTimer {s0 : State} (a0 : PkgId) (a1 : Fin 16) (s : State) (h : Keep s0 s) :
    KeepAll s0 (execE2eAckTimer a0 a1 s) := by
  unfold execE2eAckTimer
  repeat' first
    | with_reducible assumption
    | with_reducible apply keep_e2eAckTimer
    | with_reducible apply KeepAll.next

theorem keep_passDiverted {s0 : State} (a0 : Diverted) (s : State) (h : Keep s0 s) :
    Keep s0 (passDiverted a0 s) := by
  unfold passDiverted
  repeat' first
    | with_reducible assumption
    | with_reducible apply keep_passMsg
    | with_reducible apply keep_putTx
    | split

theorem keep_releaseDiverted {s0 : State} (a0 : List Diverted) (s : State) (h : Keep s0 s) :
    Keep s0 (releaseDiverted a0 s) := by
  induction a0 generalizing s with
  | nil =>
    unfold releaseDiverted
    repeat' first
      | with_reducible assumption
  | cons u l ih =>
    unfold releaseDiverted
    repeat' first
      | with_reducible assumption
      | with_reducible apply ih
      | with_reducible apply keep_divert
      | with_reducible apply keep_passDiverted
      | split

theorem keep_atomicDivert {s0 : State}  (s : State) (h : Keep s0 s) :
    Keep s0 (atomicDivert s) := by
  unfold atomicDivert
  try extract_lets
  repeat' first
    | with_reducible assumption
    | with_reducible apply keep_releaseDiverted
    | with_reducible apply keep_passDiverted
    | extract_lets
    | split
    | dsimp only
    | with_reducible apply Keep.upd

theorem keep_execAtomicDivert {s0 : State}  (s : State) (h : Keep s0 s) :
    KeepAll s0 (execAtomicDivert s) := by
  unfold execAtomicDivert
  repeat' first
    | with_reducible assumption
    | with_reducible apply keep_atomicDivert
    | with_reducible apply KeepAll.next

end Sys2Proof.Machine
end

