-- ==== Sys2Proof/Laws/KeepCards.lean ====
section
/-!
SUPPORT. Keeping: the operations of Cards.
-/

namespace Sys2Proof.Machine

theorem keep_cardSend {s0 : State}  (s : State) (h : Keep s0 s) :
    Keep s0 (cardSend s) := by
  unfold cardSend
  repeat' first
    | with_reducible assumption
    | with_reducible apply keep_flood
    | split

theorem keep_execCardSend {s0 : State}  (s : State) (h : Keep s0 s) :
    KeepAll s0 (execCardSend s) := by
  unfold execCardSend
  repeat' first
    | with_reducible assumption
    | with_reducible apply keep_cardSend
    | with_reducible apply KeepAll.next

theorem keep_takeCtl {s0 : State} (a0 : Nat) (a1 : Nat) (a2 : Nat) (a3 : Flood) (s : State) (h : Keep s0 s) :
    Keep s0 (takeCtl a0 a1 a2 a3 s).2 := by
  unfold takeCtl
  try extract_lets
  repeat' first
    | with_reducible assumption
    | extract_lets
    | split
    | dsimp only
    | with_reducible apply Keep.upd

theorem keep_takeCtl_e {s0 : State} {a0 : Nat} {a1 : Nat} {a2 : Nat} {a3 : Flood} {s t : State} {x} (e : takeCtl a0 a1 a2 a3 s = (x, t)) (h : Keep s0 s) : Keep s0 t := by
  have g := keep_takeCtl a0 a1 a2 a3 s h 
  rw [e] at g
  exact g

theorem keep_takeHdr {s0 : State} (a0 : CtlHdr) (a1 : Flood) (s : State) (h : Keep s0 s) :
    Keep s0 (takeHdr a0 a1 s).2 := by
  unfold takeHdr
  repeat' first
    | with_reducible assumption
    | with_reducible apply keep_takeCtl
    | (with_reducible apply keep_takeCtl_e; · with_reducible assumption)
    | split

theorem keep_takeHdr_e {s0 : State} {a0 : CtlHdr} {a1 : Flood} {s t : State} {x} (e : takeHdr a0 a1 s = (x, t)) (h : Keep s0 s) : Keep s0 t := by
  have g := keep_takeHdr a0 a1 s h 
  rw [e] at g
  exact g

theorem keep_dropRemote {s0 : State} (a0 : Nat → Bool) (s : State) (h : Keep s0 s) :
    Keep s0 (dropRemote a0 s) := by
  unfold dropRemote
  try extract_lets
  repeat' first
    | with_reducible assumption
    | with_reducible apply keep_complete
    | extract_lets
    | with_reducible apply keep_foldl
    | with_reducible apply keep_foldl2
    | with_reducible apply keep_foldl3
    | split
    | dsimp only
    | intro _
    | with_reducible apply Keep.upd

theorem keep_endGrove {s0 : State} (a0 : Nat → Bool) (s : State) (h : Keep s0 s) :
    Keep s0 (endGrove a0 s) := by
  unfold endGrove
  repeat' first
    | with_reducible assumption
    | with_reducible apply keep_rollbackPart
    | with_reducible apply keep_failLaunch
    | with_reducible apply keep_foldl
    | with_reducible apply keep_foldl2
    | with_reducible apply keep_foldl3
    | split
    | dsimp only
    | intro _

theorem keep_leaveGrove {s0 : State}  (s : State) (h : Keep s0 s) :
    Keep s0 (leaveGrove s) := by
  unfold leaveGrove
  try extract_lets
  repeat' first
    | with_reducible assumption
    | with_reducible apply keep_endGrove
    | with_reducible apply keep_setF
    | with_reducible apply keep_dropRemote
    | extract_lets
    | with_reducible apply keep_foldl
    | with_reducible apply keep_foldl2
    | with_reducible apply keep_foldl3
    | dsimp only
    | intro _
    | with_reducible apply Keep.upd

theorem keep_exclude {s0 : State} (a0 : Nat) (s : State) (h : Keep s0 s) :
    Keep s0 (exclude a0 s) := by
  unfold exclude
  try extract_lets
  repeat' first
    | with_reducible assumption
    | with_reducible apply keep_setF
    | with_reducible apply keep_leaveGrove
    | with_reducible apply keep_bypassSwitch
    | extract_lets
    | with_reducible apply keep_foldl
    | with_reducible apply keep_foldl2
    | with_reducible apply keep_foldl3
    | split
    | dsimp only
    | intro _

theorem keep_joinGrove {s0 : State}  (s : State) (h : Keep s0 s) :
    Keep s0 (joinGrove s) := by
  unfold joinGrove
  try extract_lets
  repeat' first
    | with_reducible assumption
    | with_reducible apply keep_exclude
    | with_reducible apply keep_setF
    | extract_lets
    | split
    | dsimp only
    | with_reducible apply Keep.upd

theorem keep_execJoin {s0 : State}  (s : State) (h : Keep s0 s) :
    KeepAll s0 (execJoin s) := by
  unfold execJoin
  repeat' first
    | with_reducible assumption
    | with_reducible apply keep_joinGrove
    | with_reducible apply KeepAll.next

theorem keep_leave {s0 : State}  (s : State) (h : Keep s0 s) :
    Keep s0 (leave s) := by
  unfold leave
  repeat' first
    | with_reducible assumption
    | with_reducible apply keep_leaveGrove
    | split

theorem keep_execLeave {s0 : State}  (s : State) (h : Keep s0 s) :
    KeepAll s0 (execLeave s) := by
  unfold execLeave
  repeat' first
    | with_reducible assumption
    | with_reducible apply keep_leave
    | with_reducible apply KeepAll.next

theorem keep_noteCard {s0 : State} (a0 : Nat) (a1 : Card) (s : State) (h : Keep s0 s) :
    Keep s0 (noteCard a0 a1 s) := by
  unfold noteCard
  try extract_lets
  repeat' first
    | with_reducible assumption
    | extract_lets
    | split
    | dsimp only
    | with_reducible apply Keep.upd

theorem keep_digestMismatch {s0 : State}  (s : State) (h : Keep s0 s) :
    Keep s0 (digestMismatch s) := by
  unfold digestMismatch
  try extract_lets
  repeat' first
    | with_reducible assumption
    | with_reducible apply keep_setF
    | extract_lets
    | split

theorem keep_lostMember {s0 : State} (a0 : Nat) (s : State) (h : Keep s0 s) :
    Keep s0 (lostMember a0 s) := by
  unfold lostMember
  try extract_lets
  repeat' first
    | with_reducible assumption
    | with_reducible apply keep_endGrove
    | with_reducible apply keep_setF
    | extract_lets
    | split
    | dsimp only
    | intro _
    | with_reducible apply Keep.upd

theorem keep_memberLost {s0 : State} (a0 : Nat) (s : State) (h : Keep s0 s) :
    Keep s0 (memberLost a0 s) := by
  unfold memberLost
  try extract_lets
  repeat' first
    | with_reducible assumption
    | with_reducible apply keep_lostMember
    | extract_lets
    | split

theorem keep_execMemberLost {s0 : State} (a0 : PkgId) (s : State) (h : Keep s0 s) :
    KeepAll s0 (execMemberLost a0 s) := by
  unfold execMemberLost
  repeat' first
    | with_reducible assumption
    | with_reducible apply keep_memberLost
    | with_reducible apply KeepAll.next

theorem keep_judgeCard {s0 : State} (a0 : Card) (s : State) (h : Keep s0 s) :
    Keep s0 (judgeCard a0 s) := by
  unfold judgeCard
  try extract_lets
  repeat' first
    | with_reducible assumption
    | with_reducible apply keep_lostMember
    | with_reducible apply keep_joinGrove
    | with_reducible apply keep_exclude
    | with_reducible apply keep_digestMismatch
    | extract_lets
    | split

theorem keep_card {s0 : State} (a0 : Nat) (a1 : Card) (s : State) (h : Keep s0 s) :
    Keep s0 (card a0 a1 s) := by
  unfold card
  try extract_lets
  repeat' first
    | with_reducible assumption
    | with_reducible apply keep_takeCtl
    | with_reducible apply keep_exclude
    | with_reducible apply keep_judgeCard
    | with_reducible apply keep_noteCard
    | (with_reducible apply keep_takeCtl_e; · with_reducible assumption)
    | extract_lets
    | split

theorem keep_execCard {s0 : State} (a0 : PortId) (a1 : Card) (s : State) (h : Keep s0 s) :
    KeepAll s0 (execCard a0 a1 s) := by
  unfold execCard
  repeat' first
    | with_reducible assumption
    | with_reducible apply keep_card
    | with_reducible apply KeepAll.next

theorem keep_timeExchange {s0 : State} (a0 : TimeF) (s : State) (h : Keep s0 s) :
    Keep s0 (timeExchange a0 s) := by
  unfold timeExchange
  try extract_lets
  repeat' first
    | with_reducible assumption
    | with_reducible apply keep_setF
    | with_reducible apply keep_exclude
    | extract_lets
    | split
    | dsimp only
    | with_reducible apply Keep.upd

theorem keep_execTime {s0 : State} (a0 : TimeF) (s : State) (h : Keep s0 s) :
    KeepAll s0 (execTime a0 s) := by
  unfold execTime
  repeat' first
    | with_reducible assumption
    | with_reducible apply keep_timeExchange
    | with_reducible apply KeepAll.next

theorem keep_extTime {s0 : State} (a0 : Bool) (a1 : Bool) (s : State) (h : Keep s0 s) :
    Keep s0 (extTime a0 a1 s) := by
  unfold extTime
  try extract_lets
  repeat' first
    | with_reducible assumption
    | with_reducible apply keep_setF
    | extract_lets
    | split

theorem keep_execExtTimeChange {s0 : State} (a0 : Bool) (a1 : Bool) (s : State) (h : Keep s0 s) :
    KeepAll s0 (execExtTimeChange a0 a1 s) := by
  unfold execExtTimeChange
  repeat' first
    | with_reducible assumption
    | with_reducible apply keep_extTime
    | with_reducible apply KeepAll.next

end Sys2Proof.Machine
end

