-- ==== Sys2Proof/Laws/KeepCharter.lean ====
section
/-!
SUPPORT. Keeping: the operations of Charter.
-/

namespace Sys2Proof.Machine

theorem keep_charterIssue {s0 : State} (a0 : List Wire) (s : State) (h : Keep s0 s) :
    Keep s0 (charterIssue a0 s) := by
  unfold charterIssue
  try extract_lets
  repeat' first
    | with_reducible assumption
    | with_reducible apply keep_flood
    | extract_lets
    | split
    | dsimp only
    | with_reducible apply Keep.upd

theorem keep_execCharterIssue {s0 : State} (a0 : List Wire) (s : State) (h : Keep s0 s) :
    KeepAll s0 (execCharterIssue a0 s) := by
  unfold execCharterIssue
  repeat' first
    | with_reducible assumption
    | with_reducible apply keep_charterIssue
    | with_reducible apply KeepAll.next

theorem keep_charterIn {s0 : State} (a0 : CtlHdr) (a1 : Charter) (s : State) (h : Keep s0 s) :
    Keep s0 (charterIn a0 a1 s) := by
  unfold charterIn
  try extract_lets
  repeat' first
    | with_reducible assumption
    | with_reducible apply keep_takeCtl
    | (with_reducible apply keep_takeCtl_e; · with_reducible assumption)
    | extract_lets
    | split
    | dsimp only
    | with_reducible apply Keep.upd

theorem keep_execCharter {s0 : State} (a0 : CtlHdr) (a1 : Charter) (s : State) (h : Keep s0 s) :
    KeepAll s0 (execCharter a0 a1 s) := by
  unfold execCharter
  repeat' first
    | with_reducible assumption
    | with_reducible apply keep_charterIn
    | with_reducible apply KeepAll.next

theorem keep_stepTime {s0 : State} (a0 : Charter) (s : State) (h : Keep s0 s) :
    Keep s0 (stepTime a0 s) := by
  unfold stepTime
  try extract_lets
  repeat' first
    | with_reducible assumption
    | extract_lets
    | split
    | dsimp only
    | with_reducible apply Keep.upd

theorem keep_chartPorts {s0 : State} (a0 : Charter) (a1 : Member) (s : State) (h : Keep s0 s) :
    Keep s0 (chartPorts a0 a1 s) := by
  unfold chartPorts
  try extract_lets
  repeat' first
    | with_reducible assumption
    | with_reducible apply keep_setF
    | extract_lets
    | with_reducible apply keep_foldl
    | with_reducible apply keep_foldl2
    | with_reducible apply keep_foldl3
    | split
    | dsimp only
    | intro _

theorem keep_memberRegs {s0 : State} (a0 : Charter) (a1 : Member) (s : State) (h : Keep s0 s) :
    Keep s0 (memberRegs a0 a1 s) := by
  unfold memberRegs
  try extract_lets
  repeat' first
    | with_reducible assumption
    | with_reducible apply keep_setF
    | with_reducible apply keep_flagIf
    | extract_lets
    | with_reducible apply keep_foldl
    | with_reducible apply keep_foldl2
    | with_reducible apply keep_foldl3
    | split
    | dsimp only
    | intro _
    | with_reducible apply Keep.upd

theorem keep_adopt {s0 : State} (a0 : Charter) (a1 : Member) (s : State) (h : Keep s0 s) :
    Keep s0 (adopt a0 a1 s) := by
  unfold adopt
  try extract_lets
  repeat' first
    | with_reducible assumption
    | with_reducible apply keep_stepTime
    | with_reducible apply keep_memberRegs
    | with_reducible apply keep_endGrove
    | with_reducible apply keep_setF
    | with_reducible apply keep_dropRemote
    | with_reducible apply keep_chartPorts
    | with_reducible apply keep_digestMismatch
    | with_reducible apply keep_e2eReissue
    | with_reducible apply keep_groupsChanged
    | with_reducible apply keep_incF
    | extract_lets
    | with_reducible apply keep_foldl
    | with_reducible apply keep_foldl2
    | with_reducible apply keep_foldl3
    | split
    | dsimp only
    | intro _
    | with_reducible apply Keep.upd

theorem keep_charterEffective {s0 : State}  (s : State) (h : Keep s0 s) :
    Keep s0 (charterEffective s) := by
  unfold charterEffective
  repeat' first
    | with_reducible assumption
    | with_reducible apply keep_adopt
    | with_reducible apply keep_exclude
    | split

theorem keep_execCharterEffective {s0 : State}  (s : State) (h : Keep s0 s) :
    KeepAll s0 (execCharterEffective s) := by
  unfold execCharterEffective
  repeat' first
    | with_reducible assumption
    | with_reducible apply keep_charterEffective
    | with_reducible apply KeepAll.next

theorem keep_adoptEpoch {s0 : State}  (s : State) (h : Keep s0 s) :
    Keep s0 (adoptEpoch s) := by
  unfold adoptEpoch
  try extract_lets
  repeat' first
    | with_reducible assumption
    | with_reducible apply keep_setF
    | extract_lets
    | split

theorem keep_execAdopt {s0 : State}  (s : State) (h : Keep s0 s) :
    KeepAll s0 (execAdopt s) := by
  unfold execAdopt
  repeat' first
    | with_reducible assumption
    | with_reducible apply keep_adoptEpoch
    | with_reducible apply KeepAll.next

end Sys2Proof.Machine
end

