-- ==== Sys2Proof/Laws/KeepFallback.lean ====
section
/-!
SUPPORT. Keeping: the operations of Fallback.
-/

namespace Sys2Proof.Machine

theorem keep_mapSet {s0 : State} (a0 : Nat) (a1 : Nat) (a2 : Nat) (a3 : Nat) (a4 : Move → Move) (a5 : Nat) (s : State) (h : Keep s0 s) :
    Keep s0 (mapSet a0 a1 a2 a3 a4 a5 s) := by
  unfold mapSet
  try extract_lets
  repeat' first
    | with_reducible assumption
    | with_reducible apply keep_State_putBed

theorem keep_fallBed {s0 : State} (a0 : Nat) (a1 : Nat) (a2 : Nat) (a3 : Nat) (a4 : Nat) (s : State) (h : Keep s0 s) :
    Keep s0 (fallBed a0 a1 a2 a3 a4 s) := by
  unfold fallBed
  try extract_lets
  repeat' first
    | with_reducible assumption
    | with_reducible apply keep_tookFallback
    | with_reducible apply keep_mapSet
    | extract_lets
    | split

theorem keep_applySet {s0 : State} (a0 : Nat) (a1 : Launch) (a2 : Nat) (a3 : Nat) (a4 : Nat) (a5 : Bool) (s : State) (h : Keep s0 s) :
    Keep s0 (applySet a0 a1 a2 a3 a4 a5 s) := by
  unfold applySet
  try extract_lets
  repeat' first
    | with_reducible assumption
    | with_reducible apply keep_fallBed
    | with_reducible apply keep_mapSet
    | extract_lets
    | with_reducible apply keep_foldl
    | with_reducible apply keep_foldl2
    | with_reducible apply keep_foldl3
    | split
    | dsimp only
    | intro _

theorem keep_logFallback {s0 : State} (a0 : Nat) (a1 : Launch) (a2 : FbSet) (a3 : Nat) (s : State) (h : Keep s0 s) :
    Keep s0 (logFallback a0 a1 a2 a3 s) := by
  unfold logFallback
  try extract_lets
  repeat' first
    | with_reducible assumption
    | with_reducible apply keep_askLog
    | with_reducible apply keep_putLaunch
    | extract_lets
    | split

theorem keep_replayHas {s0 : State} (a0 : Nat) (a1 : Launch) (a2 : Nat) (a3 : Nat) (a4 : Nat) (s : State) (h : Keep s0 s) :
    Keep s0 (replayHas a0 a1 a2 a3 a4 s).2 := by
  unfold replayHas
  try extract_lets
  repeat' first
    | with_reducible assumption
    | with_reducible apply keep_Via_getRange
    | with_reducible apply keep_Via_done
    | with_reducible apply keep_failLaunch
    | (with_reducible apply keep_Via_getRange_e; · with_reducible assumption)
    | extract_lets
    | split

theorem keep_replayHas_e {s0 : State} {a0 : Nat} {a1 : Launch} {a2 : Nat} {a3 : Nat} {a4 : Nat} {s t : State} {x} (e : replayHas a0 a1 a2 a3 a4 s = (x, t)) (h : Keep s0 s) : Keep s0 t := by
  have g := keep_replayHas a0 a1 a2 a3 a4 s h 
  rw [e] at g
  exact g

theorem keep_reportLate {s0 : State} (a0 : Nat) (a1 : Launch) (a2 : Nat) (a3 : Nat) (a4 : Nat) (s : State) (h : Keep s0 s) :
    Keep s0 (reportLate a0 a1 a2 a3 a4 s) := by
  unfold reportLate
  try extract_lets
  repeat' first
    | with_reducible assumption
    | with_reducible apply keep_putLaunch
    | with_reducible apply keep_flood
    | extract_lets
    | split

theorem keep_decideSet {s0 : State} (a0 : Nat) (a1 : Nat) (a2 : Nat) (a3 : Nat) (a4 : Nat) (s : State) (h : Keep s0 s) :
    Keep s0 (decideSet a0 a1 a2 a3 a4 s) := by
  unfold decideSet
  try extract_lets
  repeat' first
    | with_reducible assumption
    | with_reducible apply keep_replayHas
    | with_reducible apply keep_applySet
    | with_reducible apply keep_putLaunch
    | with_reducible apply keep_collect
    | with_reducible apply keep_mapSet
    | with_reducible apply keep_reportLate
    | (with_reducible apply keep_replayHas_e; · with_reducible assumption)
    | extract_lets
    | with_reducible apply keep_foldl
    | with_reducible apply keep_foldl2
    | with_reducible apply keep_foldl3
    | split
    | dsimp only
    | with_reducible exact id
    | with_reducible exact swf_sput _ _ _ _
    | with_reducible exact mwf_sput _ _ _
    | with_reducible exact mwf_putBytes _ _ _ _ _
    | with_reducible exact mwf_filter _ _
    | with_reducible exact swf_filter _ _ _
    | with_reducible exact swf_smap _ _ _
    | with_reducible exact log_take _ _
    | with_reducible exact fun g => mwf_putBytes _ _ _ _ _ (mwf_putBytes _ _ _ _ _ g)
    | intro _

theorem keep_fbDecide {s0 : State} (a0 : Nat) (a1 : Nat) (a2 : Nat) (s : State) (h : Keep s0 s) :
    Keep s0 (fbDecide a0 a1 a2 s) := by
  unfold fbDecide
  repeat' first
    | with_reducible assumption
    | with_reducible apply keep_decideSet
    | with_reducible apply keep_foldl
    | with_reducible apply keep_foldl2
    | with_reducible apply keep_foldl3
    | split
    | dsimp only
    | intro _

theorem keep_execFbDecide {s0 : State} (a0 : PartId) (a1 : BitVec 16) (a2 : BitVec 16) (s : State) (h : Keep s0 s) :
    KeepAll s0 (execFbDecide a0 a1 a2 s) := by
  unfold execFbDecide
  repeat' first
    | with_reducible assumption
    | with_reducible apply keep_fbDecide
    | with_reducible apply KeepAll.next

theorem keep_agreeSet {s0 : State} (a0 : Nat) (a1 : FbSet) (s : State) (h : Keep s0 s) :
    Keep s0 (agreeSet a0 a1 s) := by
  unfold agreeSet
  try extract_lets
  repeat' first
    | with_reducible assumption
    | with_reducible apply keep_applySet
    | with_reducible apply keep_putLaunch
    | with_reducible apply keep_collect
    | with_reducible apply keep_logFallback
    | extract_lets
    | with_reducible apply keep_foldl
    | with_reducible apply keep_foldl2
    | with_reducible apply keep_foldl3
    | split
    | dsimp only
    | intro _

theorem keep_fbAgree {s0 : State} (a0 : Nat) (a1 : Nat) (a2 : Nat) (s : State) (h : Keep s0 s) :
    Keep s0 (fbAgree a0 a1 a2 s) := by
  unfold fbAgree
  repeat' first
    | with_reducible assumption
    | with_reducible apply keep_agreeSet
    | with_reducible apply keep_foldl
    | with_reducible apply keep_foldl2
    | with_reducible apply keep_foldl3
    | split
    | dsimp only
    | intro _

theorem keep_execFbAgree {s0 : State} (a0 : PartId) (a1 : BitVec 16) (a2 : BitVec 16) (s : State) (h : Keep s0 s) :
    KeepAll s0 (execFbAgree a0 a1 a2 s) := by
  unfold execFbAgree
  repeat' first
    | with_reducible assumption
    | with_reducible apply keep_fbAgree
    | with_reducible apply KeepAll.next

end Sys2Proof.Machine
end

