-- ==== Sys2Proof/Laws/KeepAgree.lean ====
section
/-!
SUPPORT. Keeping: the operations of Agree.
-/

namespace Sys2Proof.Machine

theorem keep_keepReport {s0 : State} (a0 : Nat) (a1 : Launch) (a2 : Report) (s : State) (h : Keep s0 s) :
    Keep s0 (keepReport a0 a1 a2 s) := by
  unfold keepReport
  try extract_lets
  repeat' first
    | with_reducible assumption
    | with_reducible apply keep_putLaunch
    | extract_lets
    | split

theorem keep_lateAgree {s0 : State} (a0 : Nat) (a1 : Bool) (s : State) (h : Keep s0 s) :
    Keep s0 (lateAgree a0 a1 s) := by
  unfold lateAgree
  repeat' first
    | with_reducible assumption
    | with_reducible apply keep_floodDiverge
    | with_reducible apply keep_incF
    | split

theorem keep_takeShort {s0 : State} (a0 : Nat) (a1 : Launch) (a2 : Nat) (a3 : Nat) (a4 : Nat) (s : State) (h : Keep s0 s) :
    Keep s0 (takeShort a0 a1 a2 a3 a4 s) := by
  unfold takeShort
  try extract_lets
  repeat' first
    | with_reducible assumption
    | with_reducible apply keep_lateAgree
    | with_reducible apply keep_keepReport
    | extract_lets
    | split

theorem keep_takeLateSet {s0 : State} (a0 : Nat) (a1 : Launch) (a2 : Nat) (a3 : Nat) (a4 : Nat) (a5 : Nat) (s : State) (h : Keep s0 s) :
    Keep s0 (takeLateSet a0 a1 a2 a3 a4 a5 s) := by
  unfold takeLateSet
  repeat' first
    | with_reducible assumption
    | with_reducible apply keep_lateAgree
    | with_reducible apply keep_keepReport
    | split

theorem keep_agree {s0 : State} (a0 : CtlHdr) (a1 : Nat) (a2 : AgreeF) (s : State) (h : Keep s0 s) :
    Keep s0 (agree a0 a1 a2 s) := by
  unfold agree
  try extract_lets
  repeat' first
    | with_reducible assumption
    | with_reducible apply keep_takeHdr
    | with_reducible apply keep_takeShort
    | with_reducible apply keep_takeLateSet
    | with_reducible apply keep_keepReport
    | (with_reducible apply keep_takeHdr_e; · with_reducible assumption)
    | extract_lets
    | split

theorem keep_execAgree {s0 : State} (a0 : CtlHdr) (a1 : PartId) (a2 : AgreeF) (s : State) (h : Keep s0 s) :
    KeepAll s0 (execAgree a0 a1 a2 s) := by
  unfold execAgree
  repeat' first
    | with_reducible assumption
    | with_reducible apply keep_agree
    | with_reducible apply KeepAll.next

theorem keep_ready {s0 : State} (a0 : CtlHdr) (a1 : ReadyF) (s : State) (h : Keep s0 s) :
    Keep s0 (ready a0 a1 s) := by
  unfold ready
  try extract_lets
  repeat' first
    | with_reducible assumption
    | with_reducible apply keep_takeHdr
    | with_reducible apply keep_noteReady
    | with_reducible apply keep_forgetReady
    | with_reducible apply keep_failLaunch
    | (with_reducible apply keep_takeHdr_e; · with_reducible assumption)
    | extract_lets
    | with_reducible apply keep_foldl
    | with_reducible apply keep_foldl2
    | with_reducible apply keep_foldl3
    | split
    | dsimp only
    | intro _

theorem keep_execReady {s0 : State} (a0 : CtlHdr) (a1 : ReadyF) (s : State) (h : Keep s0 s) :
    KeepAll s0 (execReady a0 a1 s) := by
  unfold execReady
  repeat' first
    | with_reducible assumption
    | with_reducible apply keep_ready
    | with_reducible apply KeepAll.next

theorem keep_readyTimeout {s0 : State} (a0 : Nat) (s : State) (h : Keep s0 s) :
    Keep s0 (readyTimeout a0 s) := by
  unfold readyTimeout
  try extract_lets
  repeat' first
    | with_reducible assumption
    | with_reducible apply keep_forgetReady
    | with_reducible apply keep_failLaunch
    | extract_lets
    | with_reducible apply keep_foldl
    | with_reducible apply keep_foldl2
    | with_reducible apply keep_foldl3
    | split

theorem keep_execReadyTimeout {s0 : State} (a0 : PartId) (s : State) (h : Keep s0 s) :
    KeepAll s0 (execReadyTimeout a0 s) := by
  unfold execReadyTimeout
  repeat' first
    | with_reducible assumption
    | with_reducible apply keep_readyTimeout
    | with_reducible apply KeepAll.next

theorem keep_diverge {s0 : State} (a0 : CtlHdr) (a1 : BitVec 512) (a2 : BitVec 32) (a3 : BitVec 64) (s : State) (h : Keep s0 s) :
    Keep s0 (diverge a0 a1 a2 a3 s) := by
  unfold diverge
  try extract_lets
  repeat' first
    | with_reducible assumption
    | with_reducible apply keep_takeHdr
    | with_reducible apply keep_diverged
    | (with_reducible apply keep_takeHdr_e; · with_reducible assumption)
    | extract_lets
    | with_reducible apply keep_foldl
    | with_reducible apply keep_foldl2
    | with_reducible apply keep_foldl3
    | split
    | dsimp only
    | intro _

theorem keep_execDiverge {s0 : State} (a0 : CtlHdr) (a1 : BitVec 512) (a2 : BitVec 32) (a3 : BitVec 64) (s : State) (h : Keep s0 s) :
    KeepAll s0 (execDiverge a0 a1 a2 a3 s) := by
  unfold execDiverge
  repeat' first
    | with_reducible assumption
    | with_reducible apply keep_diverge
    | with_reducible apply KeepAll.next

theorem keep_lockLaunches {s0 : State}  (s : State) (h : Keep s0 s) :
    Keep s0 (lockLaunches s) := by
  unfold lockLaunches
  try extract_lets
  repeat' first
    | with_reducible assumption
    | with_reducible apply keep_putLaunch
    | extract_lets
    | with_reducible apply keep_foldl
    | with_reducible apply keep_foldl2
    | with_reducible apply keep_foldl3
    | split
    | dsimp only
    | intro _

theorem keep_lockDecide {s0 : State} (a0 : Nat) (s : State) (h : Keep s0 s) :
    Keep s0 (lockDecide a0 s) := by
  unfold lockDecide
  try extract_lets
  repeat' first
    | with_reducible assumption
    | with_reducible apply keep_flood
    | with_reducible apply keep_setF
    | extract_lets
    | split
    | dsimp only
    | with_reducible apply Keep.upd

theorem keep_lock {s0 : State} (a0 : LockF) (s : State) (h : Keep s0 s) :
    Keep s0 (lock a0 s) := by
  unfold lock
  try extract_lets
  repeat' first
    | with_reducible assumption
    | with_reducible apply keep_lockDecide
    | with_reducible apply keep_flood
    | with_reducible apply keep_takeHdr
    | with_reducible apply keep_setF
    | (with_reducible apply keep_takeHdr_e; · with_reducible assumption)
    | extract_lets
    | split
    | dsimp only
    | with_reducible apply Keep.upd

theorem keep_execLock {s0 : State} (a0 : LockF) (s : State) (h : Keep s0 s) :
    KeepAll s0 (execLock a0 s) := by
  unfold execLock
  repeat' first
    | with_reducible assumption
    | with_reducible apply keep_lock
    | with_reducible apply KeepAll.next

theorem keep_lockEntry {s0 : State}  (s : State) (h : Keep s0 s) :
    Keep s0 (lockEntry s) := by
  unfold lockEntry
  try extract_lets
  repeat' first
    | with_reducible assumption
    | with_reducible apply keep_lockLaunches
    | with_reducible apply keep_setF
    | extract_lets
    | split
    | dsimp only
    | with_reducible apply Keep.upd

theorem keep_execLockEntry {s0 : State}  (s : State) (h : Keep s0 s) :
    KeepAll s0 (execLockEntry s) := by
  unfold execLockEntry
  repeat' first
    | with_reducible assumption
    | with_reducible apply keep_lockEntry
    | with_reducible apply KeepAll.next

theorem keep_settleUnlock {s0 : State}  (s : State) (h : Keep s0 s) :
    Keep s0 (settleUnlock s) := by
  unfold settleUnlock
  try extract_lets
  repeat' first
    | with_reducible assumption
    | with_reducible apply keep_lockLaunches
    | with_reducible apply keep_setF
    | extract_lets
    | split
    | dsimp only
    | with_reducible apply Keep.upd

theorem keep_unlockAsk {s0 : State} (a0 : UnlockF) (s : State) (h : Keep s0 s) :
    Keep s0 (unlockAsk a0 s) := by
  unfold unlockAsk
  try dsimp only
  repeat' first
    | with_reducible assumption
    | with_reducible apply keep_flood
    | with_reducible apply keep_takeHdr
    | with_reducible apply keep_settleUnlock
    | (with_reducible apply keep_takeHdr_e; · with_reducible assumption)
    | dsimp only
    | split
    | with_reducible apply Keep.upd

theorem keep_execUnlock {s0 : State} (a0 : UnlockF) (s : State) (h : Keep s0 s) :
    KeepAll s0 (execUnlock a0 s) := by
  unfold execUnlock
  repeat' first
    | with_reducible assumption
    | with_reducible apply keep_unlockAsk
    | with_reducible apply KeepAll.next

end Sys2Proof.Machine
end

