-- ==== Sys2Proof/Laws/KeepPlace.lean ====
section
/-!
SUPPORT. Keeping: the operations of Place.
-/

namespace Sys2Proof.Machine

theorem keep_queueDesc {s0 : State} (a0 : Nat) (a1 : Nat) (a2 : Nat) (s : State) (h : Keep s0 s) :
    Keep s0 (queueDesc a0 a1 a2 s) := by
  unfold queueDesc
  try extract_lets
  repeat' first
    | with_reducible assumption
    | with_reducible apply keep_State_putPart
    | extract_lets
    | split

theorem keep_unqueue {s0 : State} (a0 : Nat) (a1 : Nat) (a2 : Nat) (s : State) (h : Keep s0 s) :
    Keep s0 (unqueue a0 a1 a2 s) := by
  unfold unqueue
  try extract_lets
  repeat' first
    | with_reducible assumption
    | with_reducible apply keep_State_putPart

theorem keep_startFails {s0 : State} (a0 : Nat) (a1 : Nat) (a2 : Desc) (a3 : Status) (s : State) (h : Keep s0 s) :
    Keep s0 (startFails a0 a1 a2 a3 s) := by
  unfold startFails
  repeat' first
    | with_reducible assumption
    | with_reducible apply keep_sendReport
    | with_reducible apply keep_unqueue
    | with_reducible apply keep_descDone

theorem keep_refuseGrove {s0 : State} (a0 : Bool) (a1 : Bool) (a2 : BitVec 512) (s : State) (h : Keep s0 s) :
    Keep s0 (refuseGrove a0 a1 a2 s) := by
  unfold refuseGrove
  repeat' first
    | with_reducible assumption
    | with_reducible apply keep_forgetReady
    | with_reducible apply keep_flood
    | split

theorem keep_initLog {s0 : State} (a0 : Nat) (a1 : Launch) (s : State) (h : Keep s0 s) :
    Keep s0 (initLog a0 a1 s) := by
  unfold initLog
  repeat' first
    | with_reducible assumption
    | with_reducible apply keep_askLog
    | split

theorem keep_placeLaunch {s0 : State} (a0 : Nat) (a1 : Launch) (a2 : ImgHdr) (a3 : ImgTabs) (s : State) (h : Keep s0 s) :
    Keep s0 (placeLaunch a0 a1 a2 a3 s) := by
  unfold placeLaunch
  try extract_lets
  repeat' first
    | with_reducible assumption
    | with_reducible apply keep_startBed
    | with_reducible apply keep_unqueue
    | with_reducible apply keep_State_putPart
    | extract_lets
    | with_reducible apply keep_foldl
    | with_reducible apply keep_foldl2
    | with_reducible apply keep_foldl3
    | dsimp only
    | intro _

theorem keep_freshPoints {s0 : State} (a0 : Nat) (s : State) (h : Keep s0 s) :
    Keep s0 (freshPoints a0 s) := by
  unfold freshPoints
  try extract_lets
  repeat' first
    | with_reducible assumption
    | with_reducible apply keep_setF
    | with_reducible apply keep_State_putPart

theorem keep_launchRead {s0 : State} (a0 : Nat) (a1 : Nat) (a2 : Desc) (a3 : LaunchArgs) (a4 : ImgHdr) (s : State) (h : Keep s0 s) :
    Keep s0 (launchRead a0 a1 a2 a3 a4 s) := by
  unfold launchRead
  try extract_lets
  repeat' first
    | with_reducible assumption
    | with_reducible apply keep_readTables
    | with_reducible apply keep_startFails
    | with_reducible apply keep_refuseGrove
    | with_reducible apply keep_descGo
    | with_reducible apply keep_launchPlaced
    | with_reducible apply keep_initLog
    | with_reducible apply keep_freshPoints
    | with_reducible apply keep_placeLaunch
    | (with_reducible apply keep_readTables_e; · with_reducible assumption)
    | extract_lets
    | split
    | dsimp only
    | intro _

theorem keep_withHeader {s0 : State} (a0 : Nat) (a1 : Desc) (a2 : Nat) (a3 : Status → State → State) (a4 : ImgHdr → State → State) (s : State) (h : Keep s0 s) (h3 : ∀ u0 z, Keep s0 z → Keep s0 (a3 u0 z)) (h4 : ∀ u0 z, Keep s0 z → Keep s0 (a4 u0 z)) :
    Keep s0 (withHeader a0 a1 a2 a3 a4 s) := by
  unfold withHeader
  try extract_lets
  repeat' first
    | with_reducible assumption
    | with_reducible apply h3
    | with_reducible apply h4
    | with_reducible apply keep_readImgHeader
    | (with_reducible apply keep_readImgHeader_e; · with_reducible assumption)
    | extract_lets
    | split

theorem keep_launchChecks {s0 : State} (a0 : Nat) (a1 : Nat) (a2 : Desc) (s : State) (h : Keep s0 s) :
    Keep s0 (launchChecks a0 a1 a2 s) := by
  unfold launchChecks
  try dsimp only
  repeat' first
    | with_reducible assumption
    | with_reducible apply keep_startFails
    | with_reducible apply keep_withHeader
    | with_reducible apply keep_refuseGrove
    | with_reducible apply keep_launchRead
    | dsimp only
    | split
    | intro _

theorem keep_descLaunch {s0 : State} (a0 : Nat) (a1 : Nat) (s : State) (h : Keep s0 s) :
    Keep s0 (descLaunch a0 a1 s) := by
  unfold descLaunch
  try extract_lets
  repeat' first
    | with_reducible assumption
    | with_reducible apply keep_queueDesc
    | with_reducible apply keep_putDesc
    | with_reducible apply keep_launchChecks
    | with_reducible apply keep_beginDesc
    | extract_lets
    | split

theorem keep_execLaunch {s0 : State} (a0 : RingId) (a1 : BitVec 32) (s : State) (h : Keep s0 s) :
    KeepAll s0 (execLaunch a0 a1 s) := by
  unfold execLaunch
  repeat' first
    | with_reducible assumption
    | with_reducible apply keep_descLaunch
    | with_reducible apply KeepAll.next

end Sys2Proof.Machine
end

