-- ==== Sys2Proof/Laws/KeepWake.lean ====
section
/-!
SUPPORT. Keeping: the operations of Wake.
-/

namespace Sys2Proof.Machine

theorem keep_awaitPoint {s0 : State} (a0 : Nat) (a1 : Nat) (a2 : Nat) (s : State) (h : Keep s0 s) :
    Keep s0 (awaitPoint a0 a1 a2 s) := by
  unfold awaitPoint
  try extract_lets
  repeat' first
    | with_reducible assumption
    | with_reducible apply keep_runPoint
    | with_reducible apply keep_State_putPart
    | extract_lets
    | split

theorem keep_withPart {s0 : State} (a0 : Nat) (a1 : Nat) (a2 : Nat) (a3 : Desc → Bool) (a4 : Nat → Desc → State → State) (s : State) (h : Keep s0 s) (h4 : ∀ u0 u1 z, Keep s0 z → Keep s0 (a4 u0 u1 z)) :
    Keep s0 (withPart a0 a1 a2 a3 a4 s) := by
  unfold withPart
  try extract_lets
  repeat' first
    | with_reducible assumption
    | with_reducible apply h4
    | with_reducible apply keep_putDesc
    | extract_lets
    | split

theorem keep_descQuiesce {s0 : State} (a0 : Nat) (a1 : Nat) (s : State) (h : Keep s0 s) :
    Keep s0 (descQuiesce a0 a1 s) := by
  unfold descQuiesce
  try extract_lets
  repeat' first
    | with_reducible assumption
    | with_reducible apply keep_withPart
    | with_reducible apply keep_finishDesc
    | with_reducible apply keep_awaitPoint
    | extract_lets
    | split
    | dsimp only
    | intro _

theorem keep_execQuiesce {s0 : State} (a0 : RingId) (a1 : BitVec 32) (s : State) (h : Keep s0 s) :
    KeepAll s0 (execQuiesce a0 a1 s) := by
  unfold execQuiesce
  repeat' first
    | with_reducible assumption
    | with_reducible apply keep_descQuiesce
    | with_reducible apply KeepAll.next

theorem keep_descRetain {s0 : State} (a0 : Nat) (a1 : Nat) (s : State) (h : Keep s0 s) :
    Keep s0 (descRetain a0 a1 s) := by
  unfold descRetain
  try extract_lets
  repeat' first
    | with_reducible assumption
    | with_reducible apply keep_withPart
    | with_reducible apply keep_retainedDone
    | with_reducible apply keep_awaitPoint
    | with_reducible apply keep_finishDesc
    | with_reducible apply keep_retainLaunch
    | extract_lets
    | split
    | dsimp only
    | intro _

theorem keep_execDormantRetention {s0 : State} (a0 : RingId) (a1 : BitVec 32) (s : State) (h : Keep s0 s) :
    KeepAll s0 (execDormantRetention a0 a1 s) := by
  unfold execDormantRetention
  repeat' first
    | with_reducible assumption
    | with_reducible apply keep_descRetain
    | with_reducible apply KeepAll.next

theorem keep_wakeFailed {s0 : State} (a0 : Nat) (a1 : Status) (s : State) (h : Keep s0 s) :
    Keep s0 (wakeFailed a0 a1 s) := by
  unfold wakeFailed
  try extract_lets
  repeat' first
    | with_reducible assumption
    | with_reducible apply keep_State_putPart
    | with_reducible apply keep_releaseWaiters
    | with_reducible apply keep_endLaunch
    | with_reducible apply keep_idleBed
    | extract_lets
    | with_reducible apply keep_foldl
    | with_reducible apply keep_foldl2
    | with_reducible apply keep_foldl3
    | split
    | dsimp only
    | intro _

theorem keep_putHeld {s0 : State} (a0 : Nat) (a1 : Launch) (s : State) (h : Keep s0 s) :
    Keep s0 (putHeld a0 a1 s) := by
  unfold putHeld
  try extract_lets
  repeat' first
    | with_reducible assumption
    | with_reducible apply keep_putLaunch
    | with_reducible apply keep_State_putPart
    | extract_lets
    | split

theorem keep_restoreHeld {s0 : State} (a0 : Nat) (a1 : Launch) (a2 : List (Nat × Nat)) (s : State) (h : Keep s0 s) :
    Keep s0 (restoreHeld a0 a1 a2 s).2 := by
  unfold restoreHeld
  try extract_lets
  repeat' first
    | with_reducible assumption
    | with_reducible apply keep_readRecords
    | with_reducible apply keep_restart
    | with_reducible apply keep_restoreAll
    | with_reducible apply keep_State_putCore
    | with_reducible apply keep_State_putBed
    | with_reducible apply keep_putHeld
    | with_reducible apply keep_noteRestore
    | (with_reducible apply keep_readRecords_e; · with_reducible assumption)
    | extract_lets
    | with_reducible apply keep_foldl
    | with_reducible apply keep_foldl2
    | with_reducible apply keep_foldl3
    | split
    | dsimp only
    | with_reducible exact id
    | with_reducible exact swf_sput _ _ _ _
    | with_reducible exact mwf_sput _ _ _
    | with_reducible exact mwf_putBytes _ _ _ _ _
    | with_reducible exact mwf_filter _ _
    | with_reducible exact swf_filter _ _ _
    | with_reducible exact swf_smap _ _ _
    | with_reducible exact log_take _ _
    | with_reducible exact fun g => mwf_putBytes _ _ _ _ _ (mwf_putBytes _ _ _ _ _ g)
    | intro _

theorem keep_restoreHeld_e {s0 : State} {a0 : Nat} {a1 : Launch} {a2 : List (Nat × Nat)} {s t : State} {x} (e : restoreHeld a0 a1 a2 s = (x, t)) (h : Keep s0 s) : Keep s0 t := by
  have g := keep_restoreHeld a0 a1 a2 s h 
  rw [e] at g
  exact g

theorem keep_wakeHeld {s0 : State} (a0 : Nat) (a1 : Launch) (s : State) (h : Keep s0 s) :
    Keep s0 (wakeHeld a0 a1 s).2 := by
  unfold wakeHeld
  try extract_lets
  repeat' first
    | with_reducible assumption
    | with_reducible apply keep_wakeGroup
    | with_reducible apply keep_restoreHeld
    | (with_reducible apply keep_restoreHeld_e; · with_reducible assumption)
    | extract_lets
    | with_reducible apply keep_foldl
    | with_reducible apply keep_foldl2
    | with_reducible apply keep_foldl3
    | split
    | dsimp only
    | intro _

theorem keep_wakeHeld_e {s0 : State} {a0 : Nat} {a1 : Launch} {s t : State} {x} (e : wakeHeld a0 a1 s = (x, t)) (h : Keep s0 s) : Keep s0 t := by
  have g := keep_wakeHeld a0 a1 s h 
  rw [e] at g
  exact g

theorem keep_resumeHeld {s0 : State} (a0 : Nat) (a1 : Nat) (a2 : Nat) (s : State) (h : Keep s0 s) :
    Keep s0 (resumeHeld a0 a1 a2 s) := by
  unfold resumeHeld
  try extract_lets
  repeat' first
    | with_reducible assumption
    | with_reducible apply keep_State_putPart

theorem keep_resumeLaunch {s0 : State} (a0 : Nat) (a1 : Nat) (a2 : Desc) (a3 : Launch) (s : State) (h : Keep s0 s) :
    Keep s0 (resumeLaunch a0 a1 a2 a3 s) := by
  unfold resumeLaunch
  try extract_lets
  repeat' first
    | with_reducible assumption
    | with_reducible apply keep_unqueue
    | with_reducible apply keep_State_putPart
    | with_reducible apply keep_launchReady
    | with_reducible apply keep_setF
    | extract_lets
    | split

theorem keep_wakeChecks {s0 : State} (a0 : Nat) (a1 : Nat) (a2 : Desc) (a3 : Launch) (s : State) (h : Keep s0 s) :
    Keep s0 (wakeChecks a0 a1 a2 a3 s) := by
  unfold wakeChecks
  try extract_lets
  repeat' first
    | with_reducible assumption
    | with_reducible apply keep_startFails
    | with_reducible apply keep_refuseGrove
    | with_reducible apply keep_withHeader
    | with_reducible apply keep_resumeLaunch
    | with_reducible apply keep_descDone
    | extract_lets
    | split
    | dsimp only
    | intro _

theorem keep_wakeAsLaunch {s0 : State} (a0 : Nat) (a1 : Nat) (a2 : Desc) (a3 : State → State) (s : State) (h : Keep s0 s) (h3 : ∀ z, Keep s0 z → Keep s0 (a3 z)) :
    Keep s0 (wakeAsLaunch a0 a1 a2 a3 s) := by
  unfold wakeAsLaunch
  try extract_lets
  repeat' first
    | with_reducible assumption
    | with_reducible apply h3
    | with_reducible apply keep_queueDesc
    | with_reducible apply keep_putDesc
    | with_reducible apply keep_beginDesc
    | extract_lets
    | split

theorem keep_wakeRolled {s0 : State} (a0 : Nat) (a1 : Nat) (a2 : Desc) (s : State) (h : Keep s0 s) :
    Keep s0 (wakeRolled a0 a1 a2 s) := by
  unfold wakeRolled
  try extract_lets
  repeat' first
    | with_reducible assumption
    | with_reducible apply keep_wakeAsLaunch
    | with_reducible apply keep_wakeChecks
    | extract_lets
    | split

theorem keep_descWakeHold {s0 : State} (a0 : Nat) (a1 : Nat) (s : State) (h : Keep s0 s) :
    Keep s0 (descWakeHold a0 a1 s) := by
  unfold descWakeHold
  try extract_lets
  repeat' first
    | with_reducible assumption
    | with_reducible apply keep_withPart
    | with_reducible apply keep_wakeRolled
    | with_reducible apply keep_finishDesc
    | with_reducible apply keep_unqueue
    | with_reducible apply keep_putDesc
    | with_reducible apply keep_resumeHeld
    | extract_lets
    | split
    | dsimp only
    | intro _

theorem keep_execWakeHold {s0 : State} (a0 : RingId) (a1 : BitVec 32) (s : State) (h : Keep s0 s) :
    KeepAll s0 (execWakeHold a0 a1 s) := by
  unfold execWakeHold
  repeat' first
    | with_reducible assumption
    | with_reducible apply keep_descWakeHold
    | with_reducible apply KeepAll.next

theorem keep_descWakeRetention {s0 : State} (a0 : Nat) (a1 : Nat) (s : State) (h : Keep s0 s) :
    Keep s0 (descWakeRetention a0 a1 s) := by
  unfold descWakeRetention
  try extract_lets
  repeat' first
    | with_reducible assumption
    | with_reducible apply keep_withPart
    | with_reducible apply keep_wakeRolled
    | with_reducible apply keep_wakeHeld
    | with_reducible apply keep_finishDesc
    | with_reducible apply keep_wakeFailed
    | with_reducible apply keep_State_putPart
    | with_reducible apply keep_resumeHeld
    | (with_reducible apply keep_wakeHeld_e; · with_reducible assumption)
    | extract_lets
    | split
    | dsimp only
    | intro _

theorem keep_execWakeRetention {s0 : State} (a0 : RingId) (a1 : BitVec 32) (s : State) (h : Keep s0 s) :
    KeepAll s0 (execWakeRetention a0 a1 s) := by
  unfold execWakeRetention
  repeat' first
    | with_reducible assumption
    | with_reducible apply keep_descWakeRetention
    | with_reducible apply KeepAll.next

end Sys2Proof.Machine
end

