-- ==== Sys2Proof/Laws/KeepImage.lean ====
section
/-!
SUPPORT. Keeping: the operations of Image.
-/

namespace Sys2Proof.Machine

theorem keep_imageRecords {s0 : State} (l : Launch) (step : Nat) (s : State) (h : Keep s0 s) :
    Keep s0 (imageRecords l step s).2.2 := by
  refine keep_foldl3 _ _ _ h fun z i g => ?_
  have y := keep_bedRecord (l.bedFor i) step l.fbCount z.2.2 g
  generalize bedRecord (l.bedFor i) step l.fbCount z.2.2 = r at y
  exact Keep.triple _ _ y

theorem keep_imageRecords_e {s0 : State} {a0 : Launch} {a1 : Nat} {s t : State} {x} {y} (e : imageRecords a0 a1 s = (x, y, t)) (h : Keep s0 s) : Keep s0 t := by
  have g := keep_imageRecords a0 a1 s h 
  rw [e] at g
  exact g

theorem keep_writePart {s0 : State} (p dest : Nat) (l : Launch) (recs : Nat) (d : Desc) (z : Got × State) (i : Nat)
    (h : Keep s0 z.2) : Keep s0 (writePart p dest l recs d z i).2 := by
  unfold writePart
  extract_lets a r
  exact keep_Via_putRange _ _ _ _ _ h

theorem keep_writeImage {s0 : State} (p dest : Nat) (l : Launch) (hdr recs : Nat) (d : Desc) (s : State) (h : Keep s0 s) :
    Keep s0 (writeImage p dest l hdr recs d s).2 :=
  keep_foldl2 _ _ _ (keep_Via_putRange _ _ _ _ _ h) fun _ _ g => keep_writePart _ _ _ _ _ _ _ g

theorem keep_writeImage_e {s0 : State} {a0 : Nat} {a1 : Nat} {a2 : Launch} {a3 : Nat} {a4 : Nat} {a5 : Desc} {s t : State} {x} (e : writeImage a0 a1 a2 a3 a4 a5 s = (x, t)) (h : Keep s0 s) : Keep s0 t := by
  have g := keep_writeImage a0 a1 a2 a3 a4 a5 s h 
  rw [e] at g
  exact g

theorem keep_imageEnds {s0 : State} (a0 : Nat) (a1 : Nat) (a2 : Nat) (a3 : Launch) (a4 : Nat) (s : State) (h : Keep s0 s) :
    Keep s0 (imageEnds a0 a1 a2 a3 a4 s) := by
  unfold imageEnds
  try extract_lets
  repeat' first
    | with_reducible assumption
    | with_reducible apply keep_State_putPart
    | with_reducible apply keep_finishDesc
    | with_reducible apply keep_releaseWaiters
    | with_reducible apply keep_endLaunch
    | with_reducible apply keep_idleBed
    | extract_lets
    | with_reducible apply keep_foldl
    | with_reducible apply keep_foldl2
    | with_reducible apply keep_foldl3
    | split
    | dsimp only
    | intro _
    | with_reducible apply Keep.upd

theorem keep_imageNow {s0 : State} (a0 : Nat) (a1 : Nat) (a2 : Desc) (a3 : Launch) (s : State) (h : Keep s0 s) :
    Keep s0 (imageNow a0 a1 a2 a3 s) := by
  unfold imageNow
  try extract_lets
  repeat' first
    | with_reducible assumption
    | with_reducible apply keep_State_putPart
    | with_reducible apply keep_finishDesc
    | with_reducible apply keep_imageRecords
    | with_reducible apply keep_writeImage
    | with_reducible apply keep_imageEnds
    | with_reducible apply keep_descDone
    | (with_reducible apply keep_imageRecords_e; · with_reducible assumption)
    | (with_reducible apply keep_writeImage_e; · with_reducible assumption)
    | extract_lets
    | split

theorem keep_descImage {s0 : State} (a0 : Nat) (a1 : Nat) (s : State) (h : Keep s0 s) :
    Keep s0 (descImage a0 a1 s) := by
  unfold descImage
  try extract_lets
  repeat' first
    | with_reducible assumption
    | with_reducible apply keep_withPart
    | with_reducible apply keep_awaitPoint
    | with_reducible apply keep_wakeHeld
    | with_reducible apply keep_finishDesc
    | with_reducible apply keep_wakeFailed
    | with_reducible apply keep_State_putPart
    | with_reducible apply keep_imageNow
    | (with_reducible apply keep_wakeHeld_e; · with_reducible assumption)
    | extract_lets
    | split
    | dsimp only
    | intro _

theorem keep_execDormantImage {s0 : State} (a0 : RingId) (a1 : BitVec 32) (s : State) (h : Keep s0 s) :
    KeepAll s0 (execDormantImage a0 a1 s) := by
  unfold execDormantImage
  repeat' first
    | with_reducible assumption
    | with_reducible apply keep_descImage
    | with_reducible apply KeepAll.next

theorem keep_wakePlaced {s0 : State} (a0 : Nat) (a1 : Nat) (a2 : Desc) (a3 : Nat) (a4 : LaunchArgs) (a5 : ImgHdr) (a6 : ImgTabs) (s : State) (h : Keep s0 s) :
    Keep s0 (wakePlaced a0 a1 a2 a3 a4 a5 a6 s) := by
  unfold wakePlaced
  try extract_lets
  repeat' first
    | with_reducible assumption
    | with_reducible apply keep_noteRestore
    | with_reducible apply keep_restoreAll
    | with_reducible apply keep_freshPoints
    | with_reducible apply keep_placeLaunch
    | with_reducible apply keep_launchPlaced
    | with_reducible apply keep_setLogCount
    | extract_lets
    | split

theorem keep_wakeSched {s0 : State} (a0 : Nat) (a1 : Nat) (a2 : Desc) (a3 : Nat) (a4 : LaunchArgs) (s : State) (h : Keep s0 s) :
    Keep s0 (wakeSched a0 a1 a2 a3 a4 s) := by
  unfold wakeSched
  try extract_lets
  repeat' first
    | with_reducible assumption
    | with_reducible apply keep_startFails
    | with_reducible apply keep_refuseGrove
    | with_reducible apply keep_withHeader
    | with_reducible apply keep_readTables
    | with_reducible apply keep_descGo
    | with_reducible apply keep_wakePlaced
    | (with_reducible apply keep_readTables_e; · with_reducible assumption)
    | extract_lets
    | split
    | dsimp only
    | intro _

theorem keep_imageChecks {s0 : State} (a0 : Nat) (a1 : Nat) (a2 : Desc) (s : State) (h : Keep s0 s) :
    Keep s0 (imageChecks a0 a1 a2 s) := by
  unfold imageChecks
  try extract_lets
  repeat' first
    | with_reducible assumption
    | with_reducible apply keep_startFails
    | with_reducible apply keep_Via_getRange
    | with_reducible apply keep_wakeSched
    | (with_reducible apply keep_Via_getRange_e; · with_reducible assumption)
    | extract_lets
    | split

theorem keep_descWakeImage {s0 : State} (a0 : Nat) (a1 : Nat) (s : State) (h : Keep s0 s) :
    Keep s0 (descWakeImage a0 a1 s) := by
  unfold descWakeImage
  try extract_lets
  repeat' first
    | with_reducible assumption
    | with_reducible apply keep_withPart
    | with_reducible apply keep_wakeAsLaunch
    | with_reducible apply keep_imageChecks
    | extract_lets
    | split
    | dsimp only
    | intro _

theorem keep_execWakeImage {s0 : State} (a0 : RingId) (a1 : BitVec 32) (s : State) (h : Keep s0 s) :
    KeepAll s0 (execWakeImage a0 a1 s) := by
  unfold execWakeImage
  repeat' first
    | with_reducible assumption
    | with_reducible apply keep_descWakeImage
    | with_reducible apply KeepAll.next

theorem keep_partDesc {s0 : State} (a0 : Nat) (a1 : Nat) (s : State) (h : Keep s0 s) :
    Keep s0 (partDesc a0 a1 s) := by
  unfold partDesc
  repeat' first
    | with_reducible assumption
    | with_reducible apply keep_descWakeHold
    | with_reducible apply keep_descWakeImage
    | with_reducible apply keep_descWakeRetention
    | with_reducible apply keep_descImage
    | with_reducible apply keep_descRetain
    | with_reducible apply keep_descQuiesce

theorem keep_partTick {s0 : State}  (s : State) (h : Keep s0 s) :
    Keep s0 (partTick s) := by
  unfold partTick
  repeat' first
    | with_reducible assumption
    | with_reducible apply keep_partDesc
    | with_reducible apply keep_foldl
    | with_reducible apply keep_foldl2
    | with_reducible apply keep_foldl3
    | split
    | dsimp only
    | intro _

theorem keep_descPartReady {s0 : State} (a0 : Nat) (a1 : Nat) (s : State) (h : Keep s0 s) :
    Keep s0 (descPartReady a0 a1 s) := by
  unfold descPartReady
  repeat' first
    | with_reducible assumption
    | with_reducible apply keep_partDesc
    | split

theorem keep_execDescWaitPartitionReady {s0 : State} (a0 : RingId) (a1 : BitVec 32) (s : State) (h : Keep s0 s) :
    KeepAll s0 (execDescWaitPartitionReady a0 a1 s) := by
  unfold execDescWaitPartitionReady
  repeat' first
    | with_reducible assumption
    | with_reducible apply keep_descPartReady
    | with_reducible apply KeepAll.next

end Sys2Proof.Machine
end

