-- ==== Sys2Proof/Laws/KeepCommand.lean ====
section
/-!
SUPPORT. Keeping: the operations of Command.
-/

namespace Sys2Proof.Machine

theorem keep_ringEnable {s0 : State} (a0 : Nat) (s : State) (h : Keep s0 s) :
    Keep s0 (ringEnable a0 s) := by
  unfold ringEnable
  try extract_lets
  repeat' first
    | with_reducible assumption
    | with_reducible apply keep_setF
    | with_reducible apply keep_disown
    | extract_lets
    | split

theorem keep_ringCfg {s0 : State} (a0 : Nat) (a1 : BitVec 64) (a2 : BitVec 64) (s : State) (h : Keep s0 s) :
    Keep s0 (ringCfg a0 a1 a2 s) := by
  unfold ringCfg
  try extract_lets
  repeat' first
    | with_reducible assumption
    | with_reducible apply keep_swWriteReg
    | with_reducible apply keep_ringEnable
    | extract_lets
    | split

theorem keep_execRingCfgWrite {s0 : State} (a0 : RingId) (a1 : BitVec 32) (s : State) (h : Keep s0 s) :
    KeepAll s0 (execRingCfgWrite a0 a1 s) := by
  unfold execRingCfgWrite
  repeat' first
    | with_reducible assumption
    | with_reducible apply keep_ringCfg
    | with_reducible apply KeepAll.next

theorem keep_ringEvent {s0 : State} (a0 : Fld) (a1 : Nat) (s : State) (h : Keep s0 s) :
    Keep s0 (ringEvent a0 a1 s) := by
  unfold ringEvent
  repeat' first
    | with_reducible assumption
    | with_reducible apply keep_setF
    | with_reducible apply keep_flagF

theorem keep_tailClamped {s0 : State} (a0 : Nat) (s : State) (h : Keep s0 s) :
    Keep s0 (tailClamped a0 s) := by
  unfold tailClamped
  repeat' first
    | with_reducible assumption
    | with_reducible apply keep_flagF
    | with_reducible apply keep_ringEvent

theorem keep_moveIndex {s0 : State} (a0 : Fld) (a1 : Nat) (a2 : Nat) (a3 : Nat) (s : State) (h : Keep s0 s) :
    Keep s0 (moveIndex a0 a1 a2 a3 s) := by
  unfold moveIndex
  try extract_lets
  repeat' first
    | with_reducible assumption
    | with_reducible apply keep_setF
    | with_reducible apply keep_tailClamped
    | extract_lets
    | split

theorem keep_doorbell {s0 : State} (a0 : Nat) (a1 : Who) (a2 : State → State) (s : State) (h : Keep s0 s) (h2 : ∀ z, Keep s0 z → Keep s0 (a2 z)) :
    Keep s0 (doorbell a0 a1 a2 s) := by
  unfold doorbell
  repeat' first
    | with_reducible assumption
    | with_reducible apply h2
    | with_reducible apply keep_ringEvent
    | split

theorem keep_dbTail {s0 : State} (a0 : Nat) (a1 : Nat) (s : State) (h : Keep s0 s) :
    Keep s0 (dbTail a0 a1 s) := by
  unfold dbTail
  repeat' first
    | with_reducible assumption
    | with_reducible apply keep_moveIndex
    | split

theorem keep_execCmdDbTail {s0 : State} (a0 : RingId) (a1 : BitVec 32) (a2 : Who) (s : State) (h : Keep s0 s) :
    KeepAll s0 (execCmdDbTail a0 a1 a2 s) := by
  unfold execCmdDbTail
  repeat' first
    | with_reducible assumption
    | with_reducible apply keep_doorbell
    | with_reducible apply keep_dbTail
    | with_reducible apply KeepAll.next

theorem keep_dbCqHead {s0 : State} (a0 : Nat) (a1 : Nat) (s : State) (h : Keep s0 s) :
    Keep s0 (dbCqHead a0 a1 s) := by
  unfold dbCqHead
  repeat' first
    | with_reducible assumption
    | with_reducible apply keep_moveIndex
    | split

theorem keep_execCmdDbCqHead {s0 : State} (a0 : RingId) (a1 : BitVec 32) (a2 : Who) (s : State) (h : Keep s0 s) :
    KeepAll s0 (execCmdDbCqHead a0 a1 a2 s) := by
  unfold execCmdDbCqHead
  repeat' first
    | with_reducible assumption
    | with_reducible apply keep_doorbell
    | with_reducible apply keep_dbCqHead
    | with_reducible apply KeepAll.next

theorem keep_dbHead {s0 : State} (a0 : Nat) (a1 : Nat) (s : State) (h : Keep s0 s) :
    Keep s0 (dbHead a0 a1 s) := by
  unfold dbHead
  repeat' first
    | with_reducible assumption
    | with_reducible apply keep_moveIndex
    | split

theorem keep_execCmdDbHead {s0 : State} (a0 : RingId) (a1 : BitVec 32) (a2 : Who) (s : State) (h : Keep s0 s) :
    KeepAll s0 (execCmdDbHead a0 a1 a2 s) := by
  unfold execCmdDbHead
  repeat' first
    | with_reducible assumption
    | with_reducible apply keep_doorbell
    | with_reducible apply keep_dbHead
    | with_reducible apply KeepAll.next

theorem keep_abortDone {s0 : State} (a0 : Nat) (a1 : Desc) (a2 : Status) (s : State) (h : Keep s0 s) :
    Keep s0 (abortDone a0 a1 a2 s) := by
  unfold abortDone
  try extract_lets
  repeat' first
    | with_reducible assumption
    | with_reducible apply keep_incF
    | with_reducible apply keep_finishDesc
    | with_reducible apply keep_putDesc
    | extract_lets
    | split
    | dsimp only
    | with_reducible apply Keep.upd

theorem keep_descAbort {s0 : State} (a0 : Nat) (a1 : Nat) (s : State) (h : Keep s0 s) :
    Keep s0 (descAbort a0 a1 s) := by
  unfold descAbort
  try extract_lets
  repeat' first
    | with_reducible assumption
    | with_reducible apply keep_withDesc
    | with_reducible apply keep_finishDesc
    | with_reducible apply keep_State_putRing
    | extract_lets
    | split
    | dsimp only
    | intro _

theorem keep_execAbort {s0 : State} (a0 : RingId) (a1 : BitVec 32) (s : State) (h : Keep s0 s) :
    KeepAll s0 (execAbort a0 a1 s) := by
  unfold execAbort
  repeat' first
    | with_reducible assumption
    | with_reducible apply keep_descAbort
    | with_reducible apply KeepAll.next

theorem keep_startDesc {s0 : State} (a0 : Nat) (a1 : Nat) (s : State) (h : Keep s0 s) :
    Keep s0 (startDesc a0 a1 s) := by
  unfold startDesc
  repeat' first
    | with_reducible assumption
    | with_reducible apply keep_descLaunch
    | with_reducible apply keep_descMove
    | with_reducible apply keep_descFence
    | with_reducible apply keep_descSignal
    | with_reducible apply keep_descWait
    | with_reducible apply keep_configStage
    | with_reducible apply keep_configCommit
    | with_reducible apply keep_partDesc
    | with_reducible apply keep_descAbort
    | with_reducible apply keep_descNop
    | split

theorem keep_ringAccess {s0 : State} (a0 : Nat) (a1 : State → Got × State) (s : State) (h : Keep s0 s) (h1 : ∀ z, Keep s0 z → Keep s0 (a1 z).2) :
    Keep s0 (ringAccess a0 a1 s).2 := by
  unfold ringAccess
  repeat' first
    | with_reducible assumption
    | with_reducible apply h1
    | split

theorem keep_ringAccess_e {s0 : State} {a0 : Nat} {a1 : State → Got × State} {s t : State} {x} (e : ringAccess a0 a1 s = (x, t)) (h : Keep s0 s) (h1 : ∀ z, Keep s0 z → Keep s0 (a1 z).2) : Keep s0 t := by
  have g := keep_ringAccess a0 a1 s h h1
  rw [e] at g
  exact g

theorem keep_descArrives {s0 : State} (a0 : Nat) (a1 : BitVec 512) (a2 : Option Status) (s : State) (h : Keep s0 s) :
    Keep s0 (descArrives a0 a1 a2 s) := by
  unfold descArrives
  try extract_lets
  repeat' first
    | with_reducible assumption
    | with_reducible apply keep_State_takeId
    | with_reducible apply keep_setF
    | with_reducible apply keep_State_putRing
    | with_reducible apply keep_startDesc
    | with_reducible apply keep_incF
    | (with_reducible apply keep_State_takeId_e; · with_reducible assumption)
    | extract_lets
    | dsimp only
    | with_reducible apply Keep.upd

theorem keep_descFetch {s0 : State}  (s : State) (h : Keep s0 s) :
    Keep s0 (descFetch s) := by
  unfold descFetch
  try extract_lets
  repeat' first
    | with_reducible assumption
    | with_reducible apply keep_ringAccess
    | with_reducible apply keep_ask
    | with_reducible apply keep_descArrives
    | with_reducible apply keep_askDone
    | with_reducible apply keep_rollbackPart
    | (with_reducible apply keep_ringAccess_e; · with_reducible assumption)
    | (with_reducible apply keep_ask_e; · with_reducible assumption)
    | extract_lets
    | split

theorem keep_execDescFetch {s0 : State}  (s : State) (h : Keep s0 s) :
    KeepAll s0 (execDescFetch s) := by
  unfold execDescFetch
  repeat' first
    | with_reducible assumption
    | with_reducible apply keep_descFetch
    | with_reducible apply KeepAll.next

theorem keep_takeReport {s0 : State} (a0 : Nat) (a1 : RingReport) (s : State) (h : Keep s0 s) :
    Keep s0 (takeReport a0 a1 s) := by
  unfold takeReport
  try extract_lets
  repeat' first
    | with_reducible assumption
    | with_reducible apply keep_putDesc
    | with_reducible apply keep_finishDesc
    | extract_lets
    | split

theorem keep_commitReport {s0 : State} (a0 : Nat) (s : State) (h : Keep s0 s) :
    Keep s0 (commitReport a0 s) := by
  unfold commitReport
  try extract_lets
  repeat' first
    | with_reducible assumption
    | with_reducible apply keep_takeReport
    | with_reducible apply keep_State_putRing
    | extract_lets
    | split

theorem keep_execCommitReport {s0 : State} (a0 : RingId) (s : State) (h : Keep s0 s) :
    KeepAll s0 (execCommitReport a0 s) := by
  unfold execCommitReport
  repeat' first
    | with_reducible assumption
    | with_reducible apply keep_commitReport
    | with_reducible apply KeepAll.next

theorem keep_abortLaunch {s0 : State} (a0 : Nat) (a1 : Nat) (a2 : Desc) (s : State) (h : Keep s0 s) :
    Keep s0 (abortLaunch a0 a1 a2 s) := by
  unfold abortLaunch
  try extract_lets
  repeat' first
    | with_reducible assumption
    | with_reducible apply keep_putDesc
    | with_reducible apply keep_putLaunch
    | extract_lets
    | split

theorem keep_abortMove {s0 : State} (a0 : Nat) (a1 : Desc) (s : State) (h : Keep s0 s) :
    Keep s0 (abortMove a0 a1 s) := by
  unfold abortMove
  try extract_lets
  repeat' first
    | with_reducible assumption
    | with_reducible apply keep_putDesc
    | with_reducible apply keep_leaveXlt
    | with_reducible apply keep_State_putBed

theorem keep_abortTarget {s0 : State} (a0 : Nat) (a1 : Desc) (s : State) (h : Keep s0 s) :
    Keep s0 (abortTarget a0 a1 s).2 := by
  unfold abortTarget
  try extract_lets
  repeat' first
    | with_reducible assumption
    | with_reducible apply keep_finishDesc
    | with_reducible apply keep_unqueue
    | with_reducible apply keep_descDone
    | with_reducible apply keep_abortLaunch
    | with_reducible apply keep_abortMove
    | with_reducible apply keep_freeShelf
    | extract_lets
    | split

theorem keep_abortTarget_e {s0 : State} {a0 : Nat} {a1 : Desc} {s t : State} {x} (e : abortTarget a0 a1 s = (x, t)) (h : Keep s0 s) : Keep s0 t := by
  have g := keep_abortTarget a0 a1 s h 
  rw [e] at g
  exact g

theorem keep_takeAbort {s0 : State} (a0 : Nat) (a1 : RingAbort) (s : State) (h : Keep s0 s) :
    Keep s0 (takeAbort a0 a1 s) := by
  unfold takeAbort
  try dsimp only
  repeat' first
    | with_reducible assumption
    | with_reducible apply keep_abortTarget
    | with_reducible apply keep_abortDone
    | (with_reducible apply keep_abortTarget_e; · with_reducible assumption)
    | dsimp only
    | split

theorem keep_abortResolve {s0 : State} (a0 : Nat) (s : State) (h : Keep s0 s) :
    Keep s0 (abortResolve a0 s) := by
  unfold abortResolve
  try extract_lets
  repeat' first
    | with_reducible assumption
    | with_reducible apply keep_takeAbort
    | with_reducible apply keep_State_putRing
    | extract_lets
    | split

theorem keep_execAbortResolve {s0 : State} (a0 : RingId) (s : State) (h : Keep s0 s) :
    KeepAll s0 (execAbortResolve a0 s) := by
  unfold execAbortResolve
  repeat' first
    | with_reducible assumption
    | with_reducible apply keep_abortResolve
    | with_reducible apply KeepAll.next

theorem keep_moveOver {s0 : State} (a0 : Nat) (a1 : Desc) (s : State) (h : Keep s0 s) :
    Keep s0 (moveOver a0 a1 s) := by
  unfold moveOver
  try extract_lets
  repeat' first
    | with_reducible assumption
    | with_reducible apply keep_dropFlies
    | with_reducible apply keep_finishDesc
    | with_reducible apply keep_State_putBed
    | extract_lets
    | with_reducible apply keep_foldl
    | with_reducible apply keep_foldl2
    | with_reducible apply keep_foldl3
    | split
    | dsimp only
    | intro _

theorem keep_dropDesc {s0 : State} (a0 : Nat) (a1 : Nat) (s : State) (h : Keep s0 s) :
    Keep s0 (dropDesc a0 a1 s) := by
  unfold dropDesc
  try extract_lets
  repeat' first
    | with_reducible assumption
    | with_reducible apply keep_State_putRing

theorem keep_completionRecord {s0 : State} (a0 : Nat) (s : State) (h : Keep s0 s) :
    Keep s0 (completionRecord a0 s) := by
  unfold completionRecord
  try dsimp only
  repeat' first
    | with_reducible assumption
    | with_reducible apply keep_moveOver
    | with_reducible apply keep_dropDesc
    | with_reducible apply keep_ringAccess
    | with_reducible apply keep_tell
    | with_reducible apply keep_putDesc
    | with_reducible apply keep_flagF
    | with_reducible apply keep_ringEvent
    | with_reducible apply keep_askDone
    | with_reducible apply keep_setF
    | with_reducible apply keep_incF
    | with_reducible apply keep_irq
    | (with_reducible apply keep_ringAccess_e; · with_reducible assumption)
    | (with_reducible apply keep_tell_e; · with_reducible assumption)
    | dsimp only
    | with_reducible apply keep_foldl
    | with_reducible apply keep_foldl2
    | with_reducible apply keep_foldl3
    | split
    | intro _

theorem keep_execCompletionRecord {s0 : State} (a0 : RingId) (s : State) (h : Keep s0 s) :
    KeepAll s0 (execCompletionRecord a0 s) := by
  unfold execCompletionRecord
  repeat' first
    | with_reducible assumption
    | with_reducible apply keep_completionRecord
    | with_reducible apply KeepAll.next

end Sys2Proof.Machine
end

