-- ==== Sys2Proof/Laws/KeepLink.lean ====
section
/-!
SUPPORT. Keeping: the operations of Link.
-/

namespace Sys2Proof.Machine

theorem keep_execIrqSignal {s0 : State} (a0 : Fin 2048) (s : State) (h : Keep s0 s) :
    KeepAll s0 (execIrqSignal a0 s) := by
  unfold execIrqSignal
  repeat' first
    | with_reducible assumption
    | with_reducible apply keep_irq
    | with_reducible apply KeepAll.next

theorem keep_irqMapWrite {s0 : State} (a0 : Nat) (a1 : BitVec 64) (a2 : BitVec 64) (s : State) (h : Keep s0 s) :
    Keep s0 (irqMapWrite a0 a1 a2 s) := by
  unfold irqMapWrite
  try extract_lets
  repeat' first
    | with_reducible assumption
    | with_reducible apply keep_swWriteReg
    | with_reducible apply keep_irq
    | with_reducible apply keep_setF
    | extract_lets
    | split

theorem keep_execIrqMapWrite {s0 : State} (a0 : Fin 2048) (a1 : BitVec 32) (s : State) (h : Keep s0 s) :
    KeepAll s0 (execIrqMapWrite a0 a1 s) := by
  unfold execIrqMapWrite
  repeat' first
    | with_reducible assumption
    | with_reducible apply keep_irqMapWrite
    | with_reducible apply KeepAll.next

theorem keep_setLink {s0 : State} (a0 : Nat) (a1 : Nat) (a2 : Nat) (a3 : Nat) (s : State) (h : Keep s0 s) :
    Keep s0 (setLink a0 a1 a2 a3 s) := by
  unfold setLink
  repeat' first
    | with_reducible assumption
    | with_reducible apply keep_setF
    | split

theorem keep_setBoth {s0 : State} (slot l st fail : Nat) (s : State) (h : Keep s0 s) : Keep s0 (setBoth slot l st fail s) := by
  unfold setBoth
  split
  · exact keep_setLink _ _ _ _ _ h
  · exact (keep_setLink _ _ _ _ _ (keep_setLink _ _ _ _ _ h)).dlinks _ fun w => swf_sput _ _ _ _ (swf_sput _ _ _ _ w)

theorem keep_checkDie {s0 : State} (a0 : Nat) (a1 : Nat) (a2 : Nat) (s : State) (h : Keep s0 s) :
    Keep s0 (checkDie a0 a1 a2 s) := by
  unfold checkDie
  repeat' first
    | with_reducible assumption
    | with_reducible apply keep_noIdentity
    | split

theorem keep_setDieKind {s0 : State} (a0 : Nat) (a1 : Nat) (a2 : Nat) (s : State) (h : Keep s0 s) :
    Keep s0 (setDieKind a0 a1 a2 s) := by
  unfold setDieKind
  try extract_lets
  repeat' first
    | with_reducible assumption
    | with_reducible apply keep_setF

theorem keep_reportDie {s0 : State} (a0 : Nat) (a1 : DieInfo) (s : State) (h : Keep s0 s) :
    Keep s0 (reportDie a0 a1 s) := by
  unfold reportDie
  try extract_lets
  repeat' first
    | with_reducible assumption
    | with_reducible apply keep_setDieKind
    | with_reducible apply keep_setF
    | extract_lets
    | dsimp only
    | with_reducible apply Keep.upd

theorem keep_returnEnds {s0 : State} (s : State) (h : Keep s0 s) :
    Keep s0 (returnEnds s) := by
  unfold returnEnds
  repeat' first
    | with_reducible assumption
    | with_reducible apply keep_setF
    | split

theorem keep_settleDie {s0 : State} (a0 : Nat) (s : State) (h : Keep s0 s) :
    Keep s0 (settleDie a0 s) := by
  unfold settleDie
  try extract_lets
  repeat' first
    | with_reducible assumption
    | with_reducible apply keep_setF
    | with_reducible apply keep_checkDie
    | with_reducible apply keep_setDieKind
    | with_reducible apply keep_returnEnds
    | extract_lets
    | split

theorem keep_linkTrain {s0 : State} (a0 : Nat) (a1 : Nat) (a2 : LinkTrain) (s : State) (h : Keep s0 s) :
    Keep s0 (linkTrain a0 a1 a2 s) := by
  unfold linkTrain
  try extract_lets
  repeat' first
    | with_reducible assumption
    | with_reducible apply keep_setLink
    | with_reducible apply keep_setF
    | with_reducible apply keep_setBoth
    | with_reducible apply keep_settleDie
    | with_reducible apply keep_reportDie
    | extract_lets
    | split

theorem keep_execLinkTrain {s0 : State} (a0 : SlotId) (a1 : Fin 4) (a2 : LinkTrain) (s : State) (h : Keep s0 s) :
    KeepAll s0 (execLinkTrain a0 a1 a2 s) := by
  unfold execLinkTrain
  repeat' first
    | with_reducible assumption
    | with_reducible apply keep_linkTrain
    | with_reducible apply KeepAll.next

theorem keep_linkRetrain {s0 : State} (a0 : Nat) (a1 : Nat) (s : State) (h : Keep s0 s) :
    Keep s0 (linkRetrain a0 a1 s) := by
  unfold linkRetrain
  repeat' first
    | with_reducible assumption
    | with_reducible apply keep_setBoth
    | split

theorem keep_execD2dRetrain {s0 : State} (a0 : SlotId) (a1 : Fin 4) (s : State) (h : Keep s0 s) :
    KeepAll s0 (execD2dRetrain a0 a1 s) := by
  unfold execD2dRetrain
  repeat' first
    | with_reducible assumption
    | with_reducible apply keep_linkRetrain
    | with_reducible apply KeepAll.next

theorem keep_State_putDlink {s0 : State} (s : State) (c : Nat) (k : Port) (h : Keep s0 s) : Keep s0 (s.putDlink c k) :=
  h.dlinks _ (swf_sput _ _ _ _)

theorem keep_senderReplays {s0 : State} (a0 : Nat) (a1 : Nat) (s : State) (h : Keep s0 s) :
    Keep s0 (senderReplays a0 a1 s) := by
  unfold senderReplays
  try extract_lets
  repeat' first
    | with_reducible assumption
    | with_reducible apply keep_incF
    | with_reducible apply keep_State_putDlink
    | extract_lets
    | split

theorem keep_senderSent {s0 : State} (a0 : Nat) (a1 : Nat) (a2 : Bool) (s : State) (h : Keep s0 s) :
    Keep s0 (senderSent a0 a1 a2 s) := by
  unfold senderSent
  try extract_lets
  repeat' first
    | with_reducible assumption
    | with_reducible apply keep_incF
    | with_reducible apply keep_State_putDlink
    | extract_lets
    | split

theorem keep_dflitReceive {s0 : State} (a0 : Nat) (a1 : Nat) (a2 : DFlit) (s : State) (h : Keep s0 s) :
    Keep s0 (dflitReceive a0 a1 a2 s) := by
  unfold dflitReceive
  try extract_lets
  repeat' first
    | with_reducible assumption
    | with_reducible apply keep_flitCorrect
    | with_reducible apply keep_senderReplays
    | with_reducible apply keep_senderSent
    | with_reducible apply keep_incF
    | with_reducible apply keep_State_putDlink
    | extract_lets
    | split

theorem keep_execD2dFlitReceive {s0 : State} (a0 : SlotId) (a1 : Fin 4) (a2 : DFlit) (s : State) (h : Keep s0 s) :
    KeepAll s0 (execD2dFlitReceive a0 a1 a2 s) := by
  unfold execD2dFlitReceive
  repeat' first
    | with_reducible assumption
    | with_reducible apply keep_dflitReceive
    | with_reducible apply KeepAll.next

end Sys2Proof.Machine
end

