-- ==== Sys2Proof/Laws/KeepXinval.lean ====
section
/-!
SUPPORT. Keeping: the operations of Xinval.
-/

namespace Sys2Proof.Machine

theorem keep_removeAll {s0 : State} (a0 : Names) (s : State) (h : Keep s0 s) :
    Keep s0 (removeAll a0 s) := by
  unfold removeAll
  try extract_lets
  repeat' first
    | with_reducible assumption
    | extract_lets
    | dsimp only
    | with_reducible exact id
    | with_reducible exact swf_sput _ _ _ _
    | with_reducible exact mwf_sput _ _ _
    | with_reducible exact mwf_putBytes _ _ _ _ _
    | with_reducible exact mwf_filter _ _
    | with_reducible exact swf_filter _ _ _
    | with_reducible exact swf_smap _ _ _
    | with_reducible exact log_take _ _
    | with_reducible exact fun g => mwf_putBytes _ _ _ _ _ (mwf_putBytes _ _ _ _ _ g)
    | with_reducible apply Keep.upd
    | with_reducible apply Keep.all

theorem keep_countInval {s0 : State} (a0 : Nat) (s : State) (h : Keep s0 s) :
    Keep s0 (countInval a0 s) := by
  induction a0 generalizing s with
  | zero =>
    unfold countInval
    try extract_lets
    repeat' first
      | with_reducible assumption
  | succ n ih =>
    unfold countInval
    try extract_lets
    repeat' first
      | with_reducible assumption
      | with_reducible apply ih
      | with_reducible apply keep_incF
      | extract_lets
      | split

theorem keep_invBeds {s0 : State} (a0 : Names) (a1 : Bool) (s : State) (h : Keep s0 s) :
    Keep s0 (invBeds a0 a1 s) := by
  unfold invBeds
  repeat' first
    | with_reducible assumption
    | with_reducible apply keep_invAll
    | with_reducible apply keep_foldl
    | with_reducible apply keep_foldl2
    | with_reducible apply keep_foldl3
    | split
    | dsimp only
    | intro _

theorem keep_startInv {s0 : State} (a0 : Names) (a1 : Option (BitVec 32)) (a2 : Bool) (s : State) (h : Keep s0 s) :
    Keep s0 (startInv a0 a1 a2 s) := by
  unfold startInv
  try extract_lets
  repeat' first
    | with_reducible assumption
    | with_reducible apply keep_State_takeId
    | with_reducible apply keep_invBeds
    | with_reducible apply keep_countInval
    | with_reducible apply keep_removeAll
    | (with_reducible apply keep_State_takeId_e; · with_reducible assumption)
    | extract_lets
    | split
    | dsimp only
    | with_reducible apply Keep.upd

theorem keep_execXinvalPage {s0 : State} (a0 : XInvF) (s : State) (h : Keep s0 s) :
    KeepAll s0 (execXinvalPage a0 s) := by
  unfold execXinvalPage
  repeat' first
    | with_reducible assumption
    | with_reducible apply keep_startInv
    | with_reducible apply KeepAll.next

theorem keep_execXinvalRange {s0 : State} (a0 : XInvF) (s : State) (h : Keep s0 s) :
    KeepAll s0 (execXinvalRange a0 s) := by
  unfold execXinvalRange
  repeat' first
    | with_reducible assumption
    | with_reducible apply keep_startInv
    | with_reducible apply KeepAll.next

theorem keep_execXinvalContext {s0 : State} (a0 : XInvF) (s : State) (h : Keep s0 s) :
    KeepAll s0 (execXinvalContext a0 s) := by
  unfold execXinvalContext
  repeat' first
    | with_reducible assumption
    | with_reducible apply keep_startInv
    | with_reducible apply KeepAll.next

theorem keep_execXinvalAll {s0 : State} (a0 : XInvF) (s : State) (h : Keep s0 s) :
    KeepAll s0 (execXinvalAll a0 s) := by
  unfold execXinvalAll
  repeat' first
    | with_reducible assumption
    | with_reducible apply keep_startInv
    | with_reducible apply KeepAll.next

theorem keep_invDrained {s0 : State} (a0 : Nat) (a1 : Nat) (s : State) (h : Keep s0 s) :
    Keep s0 (invDrained a0 a1 s) := by
  unfold invDrained
  try extract_lets
  repeat' first
    | with_reducible assumption
    | extract_lets
    | split
    | dsimp only
    | with_reducible apply Keep.upd

theorem keep_execXinvalDrained {s0 : State} (a0 : Nat) (a1 : Fin 4802) (s : State) (h : Keep s0 s) :
    KeepAll s0 (execXinvalDrained a0 a1 s) := by
  unfold execXinvalDrained
  repeat' first
    | with_reducible assumption
    | with_reducible apply keep_invDrained
    | with_reducible apply KeepAll.next

theorem keep_advanceEpoch {s0 : State} (a0 : Nat) (a1 : BitVec 32) (s : State) (h : Keep s0 s) :
    Keep s0 (advanceEpoch a0 a1 s) := by
  unfold advanceEpoch
  try dsimp only
  repeat' first
    | with_reducible assumption
    | with_reducible apply keep_setF
    | dsimp only
    | split

theorem keep_fencesPass {s0 : State} (a0 : Nat) (s : State) (h : Keep s0 s) :
    Keep s0 (fencesPass a0 s) := by
  unfold fencesPass
  try extract_lets
  repeat' first
    | with_reducible assumption
    | with_reducible apply keep_respond
    | extract_lets
    | with_reducible apply keep_foldl
    | with_reducible apply keep_foldl2
    | with_reducible apply keep_foldl3
    | dsimp only
    | intro _
    | with_reducible apply Keep.upd

theorem keep_invEnds {s0 : State} (a0 : XInv) (s : State) (h : Keep s0 s) :
    Keep s0 (invEnds a0 s) := by
  unfold invEnds
  try extract_lets
  repeat' first
    | with_reducible assumption
    | with_reducible apply keep_fencesPass
    | with_reducible apply keep_incF
    | extract_lets
    | split
    | dsimp only
    | with_reducible apply Keep.upd

theorem keep_invEpoch {s0 : State} (a0 : XInv) (a1 : Nat) (a2 : BitVec 32) (s : State) (h : Keep s0 s) :
    Keep s0 (invEpoch a0 a1 a2 s) := by
  unfold invEpoch
  try extract_lets
  repeat' first
    | with_reducible assumption
    | with_reducible apply keep_advanceEpoch
    | with_reducible apply keep_invEnds
    | with_reducible apply keep_hostWrite
    | (with_reducible apply keep_hostWrite_e; · with_reducible assumption)
    | extract_lets
    | split
    | dsimp only
    | with_reducible apply Keep.upd

theorem keep_invComplete {s0 : State} (a0 : Nat) (s : State) (h : Keep s0 s) :
    Keep s0 (invComplete a0 s) := by
  unfold invComplete
  repeat' first
    | with_reducible assumption
    | with_reducible apply keep_invEnds
    | with_reducible apply keep_invEpoch
    | split

theorem keep_execXinvalComplete {s0 : State} (a0 : Nat) (s : State) (h : Keep s0 s) :
    KeepAll s0 (execXinvalComplete a0 s) := by
  unfold execXinvalComplete
  repeat' first
    | with_reducible assumption
    | with_reducible apply keep_invComplete
    | with_reducible apply KeepAll.next

theorem keep_ctxDisable {s0 : State} (a0 : Nat) (s : State) (h : Keep s0 s) :
    Keep s0 (ctxDisable a0 s) := by
  unfold ctxDisable
  repeat' first
    | with_reducible assumption
    | with_reducible apply keep_startInv
    | with_reducible apply keep_setF
    | split

theorem keep_execCtxDisable {s0 : State} (a0 : CtxId) (s : State) (h : Keep s0 s) :
    KeepAll s0 (execCtxDisable a0 s) := by
  unfold execCtxDisable
  repeat' first
    | with_reducible assumption
    | with_reducible apply keep_ctxDisable
    | with_reducible apply KeepAll.next

theorem keep_ioFence {s0 : State} (a0 : Nat) (s : State) (h : Keep s0 s) :
    Keep s0 (ioFence a0 s) := by
  unfold ioFence
  try extract_lets
  repeat' first
    | with_reducible assumption
    | with_reducible apply keep_respond
    | extract_lets
    | split
    | dsimp only
    | with_reducible apply Keep.upd

theorem keep_execIofenceC {s0 : State} (a0 : Nat) (s : State) (h : Keep s0 s) :
    KeepAll s0 (execIofenceC a0 s) := by
  unfold execIofenceC
  repeat' first
    | with_reducible assumption
    | with_reducible apply keep_ioFence
    | with_reducible apply KeepAll.next

end Sys2Proof.Machine
end

