-- ==== Sys2Proof/Laws/KeepFence.lean ====
section
/-!
SUPPORT. Keeping: the operations of Fence.
-/

namespace Sys2Proof.Machine

theorem keep_fenceReq {s0 : State} (a0 : Nat) (a1 : Nat) (s : State) (h : Keep s0 s) :
    Keep s0 (fenceReq a0 a1 s) := by
  unfold fenceReq
  repeat' first
    | with_reducible assumption
    | with_reducible apply keep_netDel
    | with_reducible apply keep_complete
    | split

theorem keep_fenceNet {s0 : State} (a0 : Nat) (s : State) (h : Keep s0 s) :
    Keep s0 (fenceNet a0 s) := by
  unfold fenceNet
  repeat' first
    | with_reducible assumption
    | with_reducible apply keep_fenceReq
    | with_reducible apply keep_foldl
    | with_reducible apply keep_foldl2
    | with_reducible apply keep_foldl3
    | dsimp only
    | intro _

theorem keep_reroute {s0 : State} (a0 : Nat) (s : State) (h : Keep s0 s) :
    Keep s0 (reroute a0 s) := by
  unfold reroute
  try extract_lets
  repeat' first
    | with_reducible assumption
    | with_reducible apply keep_complete
    | with_reducible apply keep_netPut
    | extract_lets
    | split

theorem keep_rerouteAll {s0 : State}  (s : State) (h : Keep s0 s) :
    Keep s0 (rerouteAll s) := by
  unfold rerouteAll
  try extract_lets
  repeat' first
    | with_reducible assumption
    | with_reducible apply keep_writeRoutes
    | with_reducible apply keep_reroute
    | extract_lets
    | with_reducible apply keep_foldl
    | with_reducible apply keep_foldl2
    | with_reducible apply keep_foldl3
    | dsimp only
    | intro _

theorem keep_fenceXlt {s0 : State} (a0 : Nat) (s : State) (h : Keep s0 s) :
    Keep s0 (fenceXlt a0 s) := by
  unfold fenceXlt
  try extract_lets
  repeat' first
    | with_reducible assumption
    | with_reducible apply keep_leaveXlt
    | extract_lets
    | dsimp only
    | intro _
    | with_reducible apply Keep.upd

theorem keep_cutMoves {s0 : State} (a0 : Nat) (s : State) (h : Keep s0 s) :
    Keep s0 (cutMoves a0 s) := by
  unfold cutMoves
  try extract_lets
  repeat' first
    | with_reducible assumption
    | with_reducible apply keep_sendReport
    | extract_lets
    | with_reducible apply keep_foldl
    | with_reducible apply keep_foldl2
    | with_reducible apply keep_foldl3
    | split
    | dsimp only
    | intro _

theorem keep_cutWaiting {s0 : State} (a0 : Nat) (s : State) (h : Keep s0 s) :
    Keep s0 (cutWaiting a0 s) := by
  unfold cutWaiting
  repeat' first
    | with_reducible assumption
    | with_reducible apply keep_answerWaiting
    | with_reducible apply keep_foldl
    | with_reducible apply keep_foldl2
    | with_reducible apply keep_foldl3
    | dsimp only
    | intro _

theorem keep_cutPlot {s0 : State} (a0 : Nat) (s : State) (h : Keep s0 s) :
    Keep s0 (cutPlot a0 s) := by
  unfold cutPlot
  try extract_lets
  repeat' first
    | with_reducible assumption
    | with_reducible apply keep_cutMoves
    | with_reducible apply keep_cutWaiting
    | extract_lets
    | with_reducible apply keep_foldl
    | with_reducible apply keep_foldl2
    | with_reducible apply keep_foldl3
    | split
    | dsimp only
    | with_reducible exact id
    | with_reducible exact swf_sput _ _ _ _
    | with_reducible exact mwf_sput _ _ _
    | with_reducible exact mwf_putBytes _ _ _ _ _
    | with_reducible exact mwf_filter _ _
    | with_reducible exact swf_filter _ _ _
    | with_reducible exact swf_smap _ _ _
    | with_reducible exact log_take _ _
    | with_reducible exact fun g => mwf_putBytes _ _ _ _ _ (mwf_putBytes _ _ _ _ _ g)
    | intro _
    | with_reducible apply Keep.upd
    | with_reducible apply Keep.all

theorem keep_fenceParts {s0 : State} (a0 : Nat) (s : State) (h : Keep s0 s) :
    Keep s0 (fenceParts a0 s) := by
  unfold fenceParts
  repeat' first
    | with_reducible assumption
    | with_reducible apply keep_rollbackPart
    | with_reducible apply keep_foldl
    | with_reducible apply keep_foldl2
    | with_reducible apply keep_foldl3
    | split
    | dsimp only
    | intro _

theorem keep_fenceStack {s0 : State} (a0 : Nat) (s : State) (h : Keep s0 s) :
    Keep s0 (fenceStack a0 s) := by
  unfold fenceStack
  try extract_lets
  repeat' first
    | with_reducible assumption
    | with_reducible apply keep_faultRegions
    | with_reducible apply keep_failLaunch
    | with_reducible apply keep_State_putStack
    | extract_lets
    | with_reducible apply keep_foldl
    | with_reducible apply keep_foldl2
    | with_reducible apply keep_foldl3
    | dsimp only
    | intro _

theorem keep_fencePlot {s0 : State} (a0 : Nat) (s : State) (h : Keep s0 s) :
    Keep s0 (fencePlot a0 s) := by
  unfold fencePlot
  repeat' first
    | with_reducible assumption
    | with_reducible apply keep_cutPlot
    | with_reducible apply keep_fenceParts
    | with_reducible apply keep_fenceStack

theorem keep_snoopCut {s0 : State} (a0 : Nat) (s : State) (h : Keep s0 s) :
    Keep s0 (snoopCut a0 s) := by
  unfold snoopCut
  repeat' first
    | with_reducible assumption
    | with_reducible apply keep_snoopResponse
    | split

theorem keep_fenceHost {s0 : State}  (s : State) (h : Keep s0 s) :
    Keep s0 (fenceHost s) := by
  unfold fenceHost
  try extract_lets
  repeat' first
    | with_reducible assumption
    | with_reducible apply keep_snoopCut
    | extract_lets
    | with_reducible apply keep_foldl
    | with_reducible apply keep_foldl2
    | with_reducible apply keep_foldl3
    | dsimp only
    | with_reducible exact id
    | with_reducible exact swf_sput _ _ _ _
    | with_reducible exact mwf_sput _ _ _
    | with_reducible exact mwf_putBytes _ _ _ _ _
    | with_reducible exact mwf_filter _ _
    | with_reducible exact swf_filter _ _ _
    | with_reducible exact swf_smap _ _ _
    | with_reducible exact log_take _ _
    | with_reducible exact fun g => mwf_putBytes _ _ _ _ _ (mwf_putBytes _ _ _ _ _ g)
    | intro _
    | with_reducible apply Keep.upd
    | with_reducible apply Keep.all

theorem keep_noteFence {s0 : State} (a0 : Nat) (a1 : Nat) (s : State) (h : Keep s0 s) :
    Keep s0 (noteFence a0 a1 s) := by
  unfold noteFence
  try extract_lets
  repeat' first
    | with_reducible assumption
    | with_reducible apply keep_setF

theorem keep_fenceNow {s0 : State} (a0 : Nat) (a1 : Nat) (a2 : Nat) (a3 : Bool) (s : State) (h : Keep s0 s) :
    Keep s0 (fenceNow a0 a1 a2 a3 s) := by
  unfold fenceNow
  try extract_lets
  repeat' first
    | with_reducible assumption
    | with_reducible apply keep_logEvent
    | with_reducible apply keep_selfRefresh
    | with_reducible apply keep_setBoth
    | with_reducible apply keep_noteFence
    | with_reducible apply keep_fenceXlt
    | with_reducible apply keep_rerouteAll
    | with_reducible apply keep_fenceNet
    | with_reducible apply keep_fencePlot
    | with_reducible apply keep_fenceHost
    | with_reducible apply keep_eventIrq
    | extract_lets
    | with_reducible apply keep_foldl
    | with_reducible apply keep_foldl2
    | with_reducible apply keep_foldl3
    | split
    | dsimp only
    | intro _
    | with_reducible apply Keep.upd

theorem keep_fenceDie {s0 : State} (a0 : Nat) (a1 : Nat) (a2 : Nat) (a3 : Bool) (s : State) (h : Keep s0 s) :
    Keep s0 (fenceDie a0 a1 a2 a3 s) := by
  unfold fenceDie
  try extract_lets
  repeat' first
    | with_reducible assumption
    | with_reducible apply keep_setF
    | with_reducible apply keep_fenceNow
    | extract_lets
    | split
    | dsimp only
    | with_reducible apply Keep.upd

theorem keep_dieFence {s0 : State} (a0 : Nat) (a1 : FenceWhy) (s : State) (h : Keep s0 s) :
    Keep s0 (dieFence a0 a1 s) := by
  unfold dieFence
  try extract_lets
  repeat' first
    | with_reducible assumption
    | with_reducible apply keep_fenceDie
    | extract_lets
    | split

theorem keep_execDieFence {s0 : State} (a0 : SlotId) (a1 : FenceWhy) (s : State) (h : Keep s0 s) :
    KeepAll s0 (execDieFence a0 a1 s) := by
  unfold execDieFence
  repeat' first
    | with_reducible assumption
    | with_reducible apply keep_dieFence
    | with_reducible apply KeepAll.next

theorem keep_linkFailing {s0 : State} (a0 : Nat) (a1 : Nat) (a2 : LinkFail) (s : State) (h : Keep s0 s) :
    Keep s0 (linkFailing a0 a1 a2 s) := by
  unfold linkFailing
  try extract_lets
  repeat' first
    | with_reducible assumption
    | with_reducible apply keep_fenceDie
    | extract_lets
    | split

theorem keep_execLinkFailing {s0 : State} (a0 : SlotId) (a1 : Fin 4) (a2 : LinkFail) (s : State) (h : Keep s0 s) :
    KeepAll s0 (execLinkFailing a0 a1 a2 s) := by
  unfold execLinkFailing
  repeat' first
    | with_reducible assumption
    | with_reducible apply keep_linkFailing
    | with_reducible apply KeepAll.next

theorem keep_cxlInvalidate {s0 : State} (a0 : Nat) (a1 : Nat) (s : State) (h : Keep s0 s) :
    Keep s0 (cxlInvalidate a0 a1 s) := by
  unfold cxlInvalidate
  try extract_lets
  repeat' first
    | with_reducible assumption
    | with_reducible apply keep_State_putStack
    | with_reducible apply keep_incF
    | extract_lets
    | split

theorem keep_execCxlFenceInvalidate {s0 : State} (a0 : PlotId) (a1 : Nat) (s : State) (h : Keep s0 s) :
    KeepAll s0 (execCxlFenceInvalidate a0 a1 s) := by
  unfold execCxlFenceInvalidate
  repeat' first
    | with_reducible assumption
    | with_reducible apply keep_cxlInvalidate
    | with_reducible apply KeepAll.next

theorem keep_plotRegs {s0 : State} (a0 : Nat) (s : State) (h : Keep s0 s) :
    Keep s0 (plotRegs a0 s) := by
  unfold plotRegs
  try extract_lets
  repeat' first
    | with_reducible assumption
    | extract_lets
    | split
    | dsimp only
    | with_reducible exact id
    | with_reducible exact swf_sput _ _ _ _
    | with_reducible exact mwf_sput _ _ _
    | with_reducible exact mwf_putBytes _ _ _ _ _
    | with_reducible exact mwf_filter _ _
    | with_reducible exact swf_filter _ _ _
    | with_reducible exact swf_smap _ _ _
    | with_reducible exact log_take _ _
    | with_reducible exact fun g => mwf_putBytes _ _ _ _ _ (mwf_putBytes _ _ _ _ _ g)
    | with_reducible apply Keep.upd
    | with_reducible apply Keep.all

theorem keep_trainLinks {s0 : State} (a0 : Nat) (s : State) (h : Keep s0 s) :
    Keep s0 (trainLinks a0 s) := by
  unfold trainLinks
  repeat' first
    | with_reducible assumption
    | with_reducible apply keep_setBoth
    | with_reducible apply keep_foldl
    | with_reducible apply keep_foldl2
    | with_reducible apply keep_foldl3
    | split
    | dsimp only
    | intro _

theorem keep_plotGroups {s0 : State} (a0 : Nat) (s : State) (h : Keep s0 s) :
    Keep s0 (plotGroups a0 s) := by
  unfold plotGroups
  try extract_lets
  repeat' first
    | with_reducible assumption
    | with_reducible apply keep_State_putBgPower
    | extract_lets
    | with_reducible apply keep_foldl
    | with_reducible apply keep_foldl2
    | with_reducible apply keep_foldl3
    | split
    | dsimp only
    | intro _

theorem keep_unfence {s0 : State} (a0 : Nat) (s : State) (h : Keep s0 s) :
    Keep s0 (unfence a0 s) := by
  unfold unfence
  try extract_lets
  repeat' first
    | with_reducible assumption
    | with_reducible apply keep_setF
    | with_reducible apply keep_writeRoutes

theorem keep_plotReturn {s0 : State} (a0 : Nat) (s : State) (h : Keep s0 s) :
    Keep s0 (plotReturn a0 s) := by
  unfold plotReturn
  try extract_lets
  repeat' first
    | with_reducible assumption
    | with_reducible apply keep_plotGroups
    | with_reducible apply keep_plotRegs
    | with_reducible apply keep_unfence
    | with_reducible apply keep_trainLinks
    | with_reducible apply keep_setF

theorem keep_guestReturn {s0 : State}  (s : State) (h : Keep s0 s) :
    Keep s0 (guestReturn s) := by
  unfold guestReturn
  try extract_lets
  repeat' first
    | with_reducible assumption
    | with_reducible apply keep_setF
    | with_reducible apply keep_unfence
    | with_reducible apply keep_setLink

theorem keep_returnDie {s0 : State} (a0 : Nat) (s : State) (h : Keep s0 s) :
    Keep s0 (returnDie a0 s) := by
  unfold returnDie
  repeat' first
    | with_reducible assumption
    | with_reducible apply keep_plotReturn
    | with_reducible apply keep_guestReturn
    | split

theorem keep_fenceReturn {s0 : State} (a0 : Nat) (s : State) (h : Keep s0 s) :
    Keep s0 (fenceReturn a0 s) := by
  unfold fenceReturn
  repeat' first
    | with_reducible assumption
    | with_reducible apply keep_returnDie
    | split

theorem keep_execFenceReturn {s0 : State} (a0 : SlotId) (s : State) (h : Keep s0 s) :
    KeepAll s0 (execFenceReturn a0 s) := by
  unfold execFenceReturn
  repeat' first
    | with_reducible assumption
    | with_reducible apply keep_fenceReturn
    | with_reducible apply KeepAll.next

theorem keep_guestGrant {s0 : State}  (s : State) (h : Keep s0 s) :
    Keep s0 (guestGrant s) := by
  unfold guestGrant
  repeat' first
    | with_reducible assumption
    | with_reducible apply keep_setF

theorem keep_guestGone {s0 : State} (a0 : Nat) (a1 : Nat) (a2 : Nat) (s : State) (h : Keep s0 s) :
    Keep s0 (guestGone a0 a1 a2 s) := by
  unfold guestGone
  try extract_lets
  repeat' first
    | with_reducible apply keep_returnEnds
    | with_reducible assumption
    | with_reducible apply keep_setF
    | with_reducible apply keep_setLink
    | extract_lets
    | dsimp only
    | with_reducible apply Keep.upd

theorem keep_guestRead_guestUp {s0 : State} (a0 : Nat) (a1 : Nat) (s : State) (h : Keep s0 s) :
    Keep s0 (guestRead.guestUp a0 a1 s) := by
  unfold guestRead.guestUp
  try extract_lets
  repeat' first
    | with_reducible apply keep_returnEnds
    | with_reducible assumption
    | with_reducible apply keep_setF
    | with_reducible apply keep_setLink
    | with_reducible apply keep_guestGrant

theorem keep_guestRead {s0 : State} (a0 : BitVec 2048) (a1 : Nat) (s : State) (h : Keep s0 s) :
    Keep s0 (guestRead a0 a1 s) := by
  unfold guestRead
  try extract_lets
  repeat' first
    | with_reducible assumption
    | with_reducible apply keep_guestGone
    | with_reducible apply keep_noIdentity
    | with_reducible apply keep_guestRead_guestUp
    | with_reducible apply keep_setF
    | with_reducible apply keep_setLink
    | with_reducible apply keep_guestGrant
    | extract_lets
    | split
    | dsimp only
    | with_reducible apply Keep.upd

theorem keep_guestDiscovery {s0 : State} (a0 : GuestStep) (s : State) (h : Keep s0 s) :
    Keep s0 (guestDiscovery a0 s) := by
  unfold guestDiscovery
  repeat' first
    | with_reducible assumption
    | with_reducible apply keep_guestGone
    | with_reducible apply keep_guestRead
    | split

theorem keep_execGuestDiscovery {s0 : State} (a0 : GuestStep) (s : State) (h : Keep s0 s) :
    KeepAll s0 (execGuestDiscovery a0 s) := by
  unfold execGuestDiscovery
  repeat' first
    | with_reducible assumption
    | with_reducible apply keep_guestDiscovery
    | with_reducible apply KeepAll.next

theorem keep_guestSample {s0 : State} (a0 : Nat) (a1 : Nat) (s : State) (h : Keep s0 s) :
    Keep s0 (guestSample a0 a1 s) := by
  unfold guestSample
  try dsimp only
  repeat' first
    | with_reducible assumption
    | with_reducible apply keep_guestGrant
    | with_reducible apply keep_setF
    | with_reducible apply keep_eventIrq
    | with_reducible apply keep_flagF
    | with_reducible apply keep_fenceDie
    | dsimp only
    | split

theorem keep_execGuestPowerSample {s0 : State} (a0 : Nat) (a1 : Nat) (s : State) (h : Keep s0 s) :
    KeepAll s0 (execGuestPowerSample a0 a1 s) := by
  unfold execGuestPowerSample
  repeat' first
    | with_reducible assumption
    | with_reducible apply keep_guestSample
    | with_reducible apply KeepAll.next

end Sys2Proof.Machine
end

