-- ==== Sys2Proof/Laws/KeepSupply.lean ====
section
/-!
SUPPORT. Keeping: the operations of Supply.
-/

namespace Sys2Proof.Machine

theorem keep_resetState {s0 : State} (p : Reg → Bool) (s : State) (h : Keep s0 s) : Keep s0 (resetState p s) :=
  h.trans ⟨rfl, fun x => ⟨x.mem, rfl, x.memErr, rfl, swf_filter _ _ _ x.regs, rfl, rfl, rfl, rfl, rfl, rfl, rfl, rfl, rfl, rfl, rfl,
    x.log⟩⟩

theorem keep_refreshAll {s0 : State} (a0 : Bool) (s : State) (h : Keep s0 s) :
    Keep s0 (refreshAll a0 s) := by
  unfold refreshAll
  repeat' first
    | with_reducible assumption
    | with_reducible apply keep_selfRefresh
    | with_reducible apply keep_foldl
    | with_reducible apply keep_foldl2
    | with_reducible apply keep_foldl3
    | dsimp only
    | intro _

theorem keep_bootAt {s0 : State} (a0 : Nat) (a1 : Nat) (s : State) (h : Keep s0 s) :
    Keep s0 (bootAt a0 a1 s) := by
  unfold bootAt
  try extract_lets
  repeat' first
    | with_reducible assumption
    | with_reducible apply keep_setF
    | extract_lets
    | split
    | dsimp only
    | with_reducible apply Keep.upd

theorem keep_tapReset {s0 : State}  (s : State) (h : Keep s0 s) :
    Keep s0 (tapReset s) := by
  unfold tapReset
  try extract_lets
  repeat' first
    | with_reducible assumption
    | extract_lets
    | dsimp only
    | with_reducible apply Keep.upd

theorem keep_packageReset {s0 : State} (a0 : Nat) (s : State) (h : Keep s0 s) :
    Keep s0 (packageReset a0 s) := by
  unfold packageReset
  try extract_lets
  repeat' first
    | with_reducible assumption
    | with_reducible apply keep_resetState
    | with_reducible apply keep_refreshAll
    | with_reducible apply keep_bootAt
    | extract_lets
    | dsimp only
    | intro _
    | with_reducible apply Keep.upd

theorem keep_reportAgain {s0 : State} (a0 : State) (s : State) (h : Keep s0 s) :
    Keep s0 (reportAgain a0 s) := by
  unfold reportAgain
  repeat' first
    | with_reducible assumption
    | with_reducible apply keep_setF

theorem keep_hostReset {s0 : State} (reason : Nat) (s : State) (h : Keep s0 s) : Keep s0 (hostReset reason s) := by
  have g := keep_resetState keptAtHostLoss _ (keep_refreshAll true _ h)
  refine keep_bootAt _ _ _ (keep_reportAgain _ _ ⟨g.1, fun x => ?_⟩)
  exact { g.2 x with levels := (h.2 x).levels }

theorem keep_endForReset {s0 : State} (a0 : Nat) (s : State) (h : Keep s0 s) :
    Keep s0 (endForReset a0 s) := by
  unfold endForReset
  try extract_lets
  repeat' first
    | with_reducible assumption
    | with_reducible apply keep_putLaunch
    | extract_lets
    | split

theorem keep_orderReset {s0 : State} (a0 : Nat) (a1 : Nat) (s : State) (h : Keep s0 s) :
    Keep s0 (orderReset a0 a1 s) := by
  unfold orderReset
  try extract_lets
  repeat' first
    | with_reducible assumption
    | with_reducible apply keep_endForReset
    | with_reducible apply keep_leave
    | extract_lets
    | with_reducible apply keep_foldl
    | with_reducible apply keep_foldl2
    | with_reducible apply keep_foldl3
    | split
    | dsimp only
    | intro _
    | with_reducible apply Keep.upd

theorem keep_tryReset {s0 : State}  (s : State) (h : Keep s0 s) :
    Keep s0 (tryReset s) := by
  unfold tryReset
  repeat' first
    | with_reducible assumption
    | with_reducible apply keep_hostReset
    | with_reducible apply keep_packageReset
    | with_reducible apply keep_refreshAll
    | split

theorem keep_auxOn {s0 : State} (strap : BitVec 2) (s : State) (h : Keep s0 s) : Keep s0 (auxOn strap s) := by
  unfold auxOn
  split
  · exact h
  · exact keep_setF _ _ _ _ _ (keep_bootAt _ _ _ (h.trans ⟨rfl, fun _ => ⟨rfl, rfl, rfl, rfl, rfl, rfl, rfl, rfl, rfl, rfl, rfl, rfl,
      rfl, rfl, rfl, rfl, Nat.zero_le _⟩⟩))

theorem keep_execAuxPowerOn {s0 : State} (a0 : BitVec 2) (s : State) (h : Keep s0 s) :
    KeepAll s0 (execAuxPowerOn a0 s) := by
  unfold execAuxPowerOn
  repeat' first
    | with_reducible assumption
    | with_reducible apply keep_auxOn
    | with_reducible apply KeepAll.next

theorem keep_auxLoss {s0 : State} (s : State) (h : Keep s0 s) : Keep s0 (auxLoss s) :=
  h.trans ⟨rfl, fun _ => ⟨rfl, rfl, rfl, rfl, rfl, rfl, rfl, rfl, rfl, rfl, rfl, rfl, rfl, rfl, rfl, rfl, Nat.zero_le _⟩⟩

theorem keep_execAuxLoss {s0 : State}  (s : State) (h : Keep s0 s) :
    KeepAll s0 (execAuxLoss s) := by
  unfold execAuxLoss
  repeat' first
    | with_reducible assumption
    | with_reducible apply keep_auxLoss
    | with_reducible apply KeepAll.next

theorem keep_mainOn {s0 : State}  (s : State) (h : Keep s0 s) :
    Keep s0 (mainOn s) := by
  unfold mainOn
  try extract_lets
  repeat' first
    | with_reducible assumption
    | extract_lets
    | dsimp only
    | with_reducible apply Keep.upd

theorem keep_execMainPresent {s0 : State}  (s : State) (h : Keep s0 s) :
    KeepAll s0 (execMainPresent s) := by
  unfold execMainPresent
  repeat' first
    | with_reducible assumption
    | with_reducible apply keep_mainOn
    | with_reducible apply KeepAll.next

theorem keep_convertersOff {s0 : State} (s : State) (h : Keep s0 s) : Keep s0 (convertersOff s) := by
  have g := keep_resetState ofMgt _ h
  refine ⟨g.1, fun x => ?_⟩
  exact { g.2 x with mem := rfl, memErr := rfl, levels := (h.2 x).levels }

theorem keep_mainLoss {s0 : State}  (s : State) (h : Keep s0 s) :
    Keep s0 (mainLoss s) := by
  unfold mainLoss
  try extract_lets
  repeat' first
    | with_reducible assumption
    | with_reducible apply keep_convertersOff
    | with_reducible apply keep_bootAt
    | extract_lets
    | split
    | dsimp only
    | with_reducible apply Keep.upd

theorem keep_execMainLoss {s0 : State}  (s : State) (h : Keep s0 s) :
    KeepAll s0 (execMainLoss s) := by
  unfold execMainLoss
  repeat' first
    | with_reducible assumption
    | with_reducible apply keep_mainLoss
    | with_reducible apply KeepAll.next

theorem keep_raiseIbi {s0 : State} (a0 : BitVec 8) (s : State) (h : Keep s0 s) :
    Keep s0 (raiseIbi a0 s) := by
  unfold raiseIbi
  try extract_lets
  repeat' first
    | with_reducible assumption
    | extract_lets
    | dsimp only
    | with_reducible apply Keep.upd

theorem keep_trip {s0 : State} (src : Nat) (s : State) (h : Keep s0 s) : Keep s0 (trip src s) := by
  have g1 : Keep s0 { s with flash := { s.flash with trips := s.flash.trips ++ [(src, s.tick)] } } := Keep.upd h ..
  have g2 := keep_convertersOff _ g1
  refine keep_raiseIbi _ _ (keep_setF _ _ _ _ _ ?_)
  have g3 : Keep s0 (resetState alwaysOn { convertersOff { s with flash := { s.flash with trips := s.flash.trips ++ [(src, s.tick)] } } with
      pins := { (convertersOff { s with flash := { s.flash with trips := s.flash.trips ++ [(src, s.tick)] } }).pins with
        tripHold := true, thermTrip := true } }) := keep_resetState _ _ (Keep.upd g2 ..)
  exact ⟨g3.1, fun x => { g3.2 x with mem := rfl, memErr := rfl }⟩

theorem keep_resetAssert {s0 : State}  (s : State) (h : Keep s0 s) :
    Keep s0 (resetAssert s) := by
  unfold resetAssert
  try extract_lets
  repeat' first
    | with_reducible assumption
    | with_reducible apply keep_packageReset
    | with_reducible apply keep_setF
    | extract_lets
    | split
    | dsimp only
    | with_reducible apply Keep.upd

theorem keep_execPkgResetAssert {s0 : State}  (s : State) (h : Keep s0 s) :
    KeepAll s0 (execPkgResetAssert s) := by
  unfold execPkgResetAssert
  repeat' first
    | with_reducible assumption
    | with_reducible apply keep_resetAssert
    | with_reducible apply KeepAll.next
    | split

theorem keep_resetRelease {s0 : State} (a0 : Bool) (s : State) (h : Keep s0 s) :
    Keep s0 (resetRelease a0 s) := by
  unfold resetRelease
  try extract_lets
  repeat' first
    | with_reducible assumption
    | with_reducible apply keep_setF
    | with_reducible apply keep_bootAt
    | extract_lets
    | split
    | dsimp only
    | with_reducible apply Keep.upd

theorem keep_execPkgResetRelease {s0 : State} (a0 : Bool) (s : State) (h : Keep s0 s) :
    KeepAll s0 (execPkgResetRelease a0 s) := by
  unfold execPkgResetRelease
  repeat' first
    | with_reducible assumption
    | with_reducible apply keep_resetRelease
    | with_reducible apply KeepAll.next

theorem keep_i3cReset {s0 : State}  (s : State) (h : Keep s0 s) :
    Keep s0 (i3cReset s) := by
  unfold i3cReset
  try extract_lets
  repeat' first
    | with_reducible assumption
    | with_reducible apply keep_packageReset
    | with_reducible apply keep_setF
    | extract_lets
    | split
    | dsimp only
    | with_reducible apply Keep.upd

end Sys2Proof.Machine
end

