-- ==== Sys2Proof/Laws/KeepFlash.lean ====
section
/-!
SUPPORT. Keeping: the operations of Flash.
-/

namespace Sys2Proof.Machine

theorem keep_State_putSlot {s0 : State} (a1 : Nat) (a2 : FwSlot) (s : State) (h : Keep s0 s) :
    Keep s0 (State.putSlot s a1 a2) := by
  unfold State.putSlot
  try extract_lets
  repeat' first
    | with_reducible assumption
    | extract_lets
    | dsimp only
    | with_reducible apply Keep.upd

theorem keep_flashWrite {s0 : State} (a0 : Bool) (a1 : State → State) (s : State) (h : Keep s0 s) (h1 : ∀ z, Keep s0 z → Keep s0 (a1 z)) :
    Keep s0 (flashWrite a0 a1 s) := by
  unfold flashWrite
  repeat' first
    | with_reducible assumption
    | with_reducible apply h1
    | with_reducible apply keep_flagF
    | split

theorem keep_setSlot {s0 : State} (a0 : Bool) (a1 : Nat) (a2 : Nat) (a3 : Nat) (s : State) (h : Keep s0 s) :
    Keep s0 (setSlot a0 a1 a2 a3 s) := by
  unfold setSlot
  try extract_lets
  repeat' first
    | with_reducible assumption
    | with_reducible apply keep_flashWrite
    | with_reducible apply keep_State_putSlot
    | extract_lets
    | dsimp only
    | intro _

theorem keep_spentGrafts {s0 : State} (a0 : Bool) (s : State) (h : Keep s0 s) :
    Keep s0 (spentGrafts a0 s) := by
  unfold spentGrafts
  repeat' first
    | with_reducible assumption
    | with_reducible apply keep_setSlot
    | with_reducible apply keep_foldl
    | with_reducible apply keep_foldl2
    | with_reducible apply keep_foldl3
    | split
    | dsimp only
    | intro _

theorem keep_chooseSlot {s0 : State} (a0 : Bool) (s : State) (h : Keep s0 s) :
    Keep s0 (chooseSlot a0 s).2 := by
  unfold chooseSlot
  try extract_lets
  repeat' first
    | with_reducible assumption
    | with_reducible apply keep_spentGrafts
    | with_reducible apply keep_setSlot
    | extract_lets
    | split

theorem keep_chooseSlot_e {s0 : State} {a0 : Bool} {s t : State} {x} (e : chooseSlot a0 s = (x, t)) (h : Keep s0 s) : Keep s0 t := by
  have g := keep_chooseSlot a0 s h 
  rw [e] at g
  exact g

theorem keep_storeSettings {s0 : State} (a0 : BitVec 2048) (s : State) (h : Keep s0 s) :
    Keep s0 (storeSettings a0 s) := by
  unfold storeSettings
  try extract_lets
  repeat' first
    | with_reducible assumption
    | extract_lets
    | dsimp only
    | with_reducible apply Keep.upd

theorem keep_loadSettings {s0 : State} (a0 : Bool) (s : State) (h : Keep s0 s) :
    Keep s0 (loadSettings a0 s) := by
  unfold loadSettings
  try extract_lets
  repeat' first
    | with_reducible assumption
    | with_reducible apply keep_flashWrite
    | with_reducible apply keep_storeSettings
    | with_reducible apply keep_flagF
    | extract_lets
    | split
    | dsimp only
    | intro _
    | with_reducible apply Keep.upd

theorem keep_reserveIndex {s0 : State} (a0 : Bool) (s : State) (h : Keep s0 s) :
    Keep s0 (reserveIndex a0 s).2 := by
  unfold reserveIndex
  try extract_lets
  repeat' first
    | with_reducible assumption
    | with_reducible apply keep_flagF
    | extract_lets
    | split
    | dsimp only
    | with_reducible apply Keep.upd

theorem keep_reserveIndex_e {s0 : State} {a0 : Bool} {s t : State} {x} (e : reserveIndex a0 s = (x, t)) (h : Keep s0 s) : Keep s0 t := by
  have g := keep_reserveIndex a0 s h 
  rw [e] at g
  exact g

theorem keep_confirmGraft {s0 : State} (a0 : Bool) (a1 : Nat) (s : State) (h : Keep s0 s) :
    Keep s0 (confirmGraft a0 a1 s) := by
  unfold confirmGraft
  try extract_lets
  repeat' first
    | with_reducible assumption
    | with_reducible apply keep_setSlot
    | extract_lets
    | split
    | dsimp only
    | with_reducible apply Keep.upd

theorem keep_endGraft {s0 : State} (a0 : Bool) (a1 : Nat) (s : State) (h : Keep s0 s) :
    Keep s0 (endGraft a0 a1 s) := by
  unfold endGraft
  try extract_lets
  repeat' first
    | with_reducible assumption
    | with_reducible apply keep_setSlot
    | with_reducible apply keep_orderReset
    | with_reducible apply keep_raiseIbi
    | extract_lets
    | dsimp only
    | with_reducible apply Keep.upd

theorem keep_graftSettle {s0 : State} (a0 : Bool) (s : State) (h : Keep s0 s) :
    Keep s0 (graftSettle a0 s) := by
  unfold graftSettle
  repeat' first
    | with_reducible assumption
    | with_reducible apply keep_confirmGraft
    | split

theorem keep_graftWindowEnd {s0 : State} (a0 : Bool) (s : State) (h : Keep s0 s) :
    Keep s0 (graftWindowEnd a0 s) := by
  unfold graftWindowEnd
  repeat' first
    | with_reducible assumption
    | with_reducible apply keep_tryReset
    | with_reducible apply keep_graftSettle
    | with_reducible apply keep_confirmGraft
    | with_reducible apply keep_endGraft
    | split

theorem keep_execGraftWindowEnd {s0 : State} (a0 : Bool) (s : State) (h : Keep s0 s) :
    KeepAll s0 (execGraftWindowEnd a0 s) := by
  unfold execGraftWindowEnd
  repeat' first
    | with_reducible assumption
    | with_reducible apply keep_graftWindowEnd
    | with_reducible apply KeepAll.next

end Sys2Proof.Machine
end

