-- ==== Sys2Proof/Laws/KeepPower.lean ====
section
/-!
SUPPORT. Keeping: the operations of Power.
-/

namespace Sys2Proof.Machine

theorem keep_putRetune {s0 : State} (a0 : Nat) (a1 : Option Retune) (s : State) (h : Keep s0 s) :
    Keep s0 (putRetune a0 a1 s) := by
  unfold putRetune
  try extract_lets
  repeat' first
    | with_reducible assumption
    | extract_lets
    | dsimp only
    | with_reducible apply Keep.upd

theorem keep_beginRetune {s0 : State} (a0 : Nat) (s : State) (h : Keep s0 s) :
    Keep s0 (beginRetune a0 s) := by
  unfold beginRetune
  try extract_lets
  repeat' first
    | with_reducible assumption
    | with_reducible apply keep_setF
    | with_reducible apply keep_putRetune
    | extract_lets
    | split

theorem keep_orderOpp {s0 : State} (a0 : Nat) (a1 : Nat) (s : State) (h : Keep s0 s) :
    Keep s0 (orderOpp a0 a1 s) := by
  unfold orderOpp
  try extract_lets
  repeat' first
    | with_reducible assumption
    | with_reducible apply keep_beginRetune
    | extract_lets
    | split
    | dsimp only
    | with_reducible apply Keep.upd

theorem keep_oppChange {s0 : State} (a0 : Nat) (s : State) (h : Keep s0 s) :
    Keep s0 (oppChange a0 s) := by
  unfold oppChange
  try extract_lets
  repeat' first
    | with_reducible assumption
    | with_reducible apply keep_putRetune
    | with_reducible apply keep_incF
    | with_reducible apply keep_setF
    | with_reducible apply keep_beginRetune
    | extract_lets
    | split

theorem keep_execOppChange {s0 : State} (a0 : PlotId) (s : State) (h : Keep s0 s) :
    KeepAll s0 (execOppChange a0 s) := by
  unfold execOppChange
  repeat' first
    | with_reducible assumption
    | with_reducible apply keep_oppChange
    | with_reducible apply KeepAll.next

theorem keep_putLearn {s0 : State} (a0 : Learn) (s : State) (h : Keep s0 s) :
    Keep s0 (putLearn a0 s) := by
  unfold putLearn
  try extract_lets
  repeat' first
    | with_reducible assumption
    | extract_lets
    | dsimp only
    | with_reducible apply Keep.upd

theorem keep_learnOne {s0 : State} (a0 : Meters) (a1 : Nat) (a2 : Nat) (a3 : Nat) (s : State) (h : Keep s0 s) :
    Keep s0 (learnOne a0 a1 a2 a3 s) := by
  unfold learnOne
  try extract_lets
  repeat' first
    | with_reducible assumption
    | with_reducible apply keep_putLearn
    | extract_lets
    | split

theorem keep_learnAll {s0 : State} (a0 : Meters) (s : State) (h : Keep s0 s) :
    Keep s0 (learnAll a0 s) := by
  unfold learnAll
  try extract_lets
  repeat' first
    | with_reducible assumption
    | with_reducible apply keep_learnOne
    | extract_lets
    | with_reducible apply keep_foldl
    | with_reducible apply keep_foldl2
    | with_reducible apply keep_foldl3
    | split
    | dsimp only
    | intro _
    | with_reducible apply Keep.upd

theorem keep_learnClear {s0 : State}  (s : State) (h : Keep s0 s) :
    Keep s0 (learnClear s) := by
  unfold learnClear
  try extract_lets
  repeat' first
    | with_reducible assumption
    | extract_lets
    | dsimp only
    | with_reducible apply Keep.upd

theorem keep_execLearnClear {s0 : State}  (s : State) (h : Keep s0 s) :
    KeepAll s0 (execLearnClear s) := by
  unfold execLearnClear
  repeat' first
    | with_reducible assumption
    | with_reducible apply keep_learnClear
    | with_reducible apply KeepAll.next

theorem keep_setFallow {s0 : State} (a0 : Nat) (a1 : Nat) (s : State) (h : Keep s0 s) :
    Keep s0 (setFallow a0 a1 s) := by
  unfold setFallow
  repeat' first
    | with_reducible assumption
    | with_reducible apply keep_setF

theorem keep_stepFallow {s0 : State} (a0 : Meters) (a1 : Nat) (a2 : Nat) (s : State) (h : Keep s0 s) :
    Keep s0 (stepFallow a0 a1 a2 s) := by
  unfold stepFallow
  try extract_lets
  repeat' first
    | with_reducible assumption
    | with_reducible apply keep_failLaunch
    | with_reducible apply keep_flagF
    | with_reducible apply keep_setFallow
    | extract_lets
    | split

theorem keep_moveGroups {s0 : State} (a0 : Nat) (a1 : Nat) (a2 : Nat) (s : State) (h : Keep s0 s) :
    Keep s0 (moveGroups a0 a1 a2 s) := by
  unfold moveGroups
  repeat' first
    | with_reducible assumption
    | with_reducible apply keep_State_putBgPower
    | with_reducible apply keep_foldl
    | with_reducible apply keep_foldl2
    | with_reducible apply keep_foldl3
    | split
    | dsimp only
    | intro _

theorem keep_pausePart {s0 : State} (a0 : Nat) (s : State) (h : Keep s0 s) :
    Keep s0 (pausePart a0 s) := by
  unfold pausePart
  try extract_lets
  repeat' first
    | with_reducible assumption
    | with_reducible apply keep_setF
    | extract_lets
    | with_reducible apply keep_foldl
    | with_reducible apply keep_foldl2
    | with_reducible apply keep_foldl3
    | dsimp only
    | intro _
    | with_reducible apply Keep.upd

theorem keep_pauseTick {s0 : State}  (s : State) (h : Keep s0 s) :
    Keep s0 (pauseTick s) := by
  unfold pauseTick
  try extract_lets
  repeat' first
    | with_reducible assumption
    | with_reducible apply keep_moveGroups
    | extract_lets
    | with_reducible apply keep_foldl
    | with_reducible apply keep_foldl2
    | with_reducible apply keep_foldl3
    | dsimp only
    | intro _
    | with_reducible apply Keep.upd

theorem keep_pauseOne {s0 : State}  (s : State) (h : Keep s0 s) :
    Keep s0 (pauseOne s) := by
  unfold pauseOne
  try extract_lets
  repeat' first
    | with_reducible assumption
    | with_reducible apply keep_pausePart
    | extract_lets
    | with_reducible apply keep_foldl
    | with_reducible apply keep_foldl2
    | with_reducible apply keep_foldl3
    | split

theorem keep_resumeOne {s0 : State}  (s : State) (h : Keep s0 s) :
    Keep s0 (resumeOne s) := by
  unfold resumeOne
  try extract_lets
  repeat' first
    | with_reducible assumption
    | extract_lets
    | with_reducible apply keep_foldl
    | with_reducible apply keep_foldl2
    | with_reducible apply keep_foldl3
    | split
    | dsimp only
    | intro _
    | with_reducible apply Keep.upd

theorem keep_resumeIssue {s0 : State} (a0 : Nat) (s : State) (h : Keep s0 s) :
    Keep s0 (resumeIssue a0 s) := by
  unfold resumeIssue
  try extract_lets
  repeat' first
    | with_reducible assumption
    | with_reducible apply keep_setFallow
    | with_reducible apply keep_setF
    | with_reducible apply keep_moveGroups
    | extract_lets
    | split
    | dsimp only
    | with_reducible apply Keep.upd

theorem keep_execPauseResumeIssue {s0 : State} (a0 : PartId) (s : State) (h : Keep s0 s) :
    KeepAll s0 (execPauseResumeIssue a0 s) := by
  unfold execPauseResumeIssue
  repeat' first
    | with_reducible assumption
    | with_reducible apply keep_resumeIssue
    | with_reducible apply KeepAll.next

theorem keep_allot {s0 : State} (a0 : List (Nat × Nat)) (s : State) (h : Keep s0 s) :
    Keep s0 (allot a0 s) := by
  unfold allot
  try extract_lets
  repeat' first
    | with_reducible assumption
    | with_reducible apply keep_setF
    | extract_lets
    | with_reducible apply keep_foldl
    | with_reducible apply keep_foldl2
    | with_reducible apply keep_foldl3
    | dsimp only
    | intro _

theorem keep_takeCap {s0 : State}  (s : State) (h : Keep s0 s) :
    Keep s0 (takeCap s) := by
  unfold takeCap
  try extract_lets
  repeat' first
    | with_reducible assumption
    | extract_lets
    | with_reducible apply keep_foldl
    | with_reducible apply keep_foldl2
    | with_reducible apply keep_foldl3
    | split
    | dsimp only
    | intro _
    | with_reducible apply Keep.upd

theorem keep_noteDraws {s0 : State} (a0 : Meters) (s : State) (h : Keep s0 s) :
    Keep s0 (noteDraws a0 s) := by
  unfold noteDraws
  try extract_lets
  repeat' first
    | with_reducible assumption
    | with_reducible apply keep_setF
    | with_reducible apply keep_flagIf
    | with_reducible apply keep_incF
    | extract_lets
    | with_reducible apply keep_foldl
    | with_reducible apply keep_foldl2
    | with_reducible apply keep_foldl3
    | dsimp only
    | intro _
    | with_reducible apply Keep.upd

theorem keep_notePartEnergy {s0 : State} (a0 : Meters) (s : State) (h : Keep s0 s) :
    Keep s0 (notePartEnergy a0 s) := by
  unfold notePartEnergy
  repeat' first
    | with_reducible assumption
    | with_reducible apply keep_incF
    | with_reducible apply keep_foldl
    | with_reducible apply keep_foldl2
    | with_reducible apply keep_foldl3
    | dsimp only
    | intro _

theorem keep_throttle {s0 : State}  (s : State) (h : Keep s0 s) :
    Keep s0 (throttle s) := by
  unfold throttle
  try extract_lets
  repeat' first
    | with_reducible assumption
    | with_reducible apply keep_incF
    | with_reducible apply keep_setFallow
    | extract_lets
    | with_reducible apply keep_foldl
    | with_reducible apply keep_foldl2
    | with_reducible apply keep_foldl3
    | split
    | dsimp only
    | intro _
    | with_reducible apply Keep.upd

theorem keep_powerFlags {s0 : State}  (s : State) (h : Keep s0 s) :
    Keep s0 (powerFlags s) := by
  unfold powerFlags
  try extract_lets
  repeat' first
    | with_reducible assumption
    | with_reducible apply keep_setF

theorem keep_manageDies {s0 : State} (a0 : Nat) (s : State) (h : Keep s0 s) :
    Keep s0 (manageDies a0 s) := by
  unfold manageDies
  try extract_lets
  repeat' first
    | with_reducible assumption
    | with_reducible apply keep_setF
    | extract_lets
    | with_reducible apply keep_foldl
    | with_reducible apply keep_foldl2
    | with_reducible apply keep_foldl3
    | split
    | dsimp only
    | intro _

theorem keep_missInterval {s0 : State}  (s : State) (h : Keep s0 s) :
    Keep s0 (missInterval s) := by
  unfold missInterval
  try extract_lets
  repeat' first
    | with_reducible assumption
    | with_reducible apply keep_powerFlags
    | with_reducible apply keep_manageDies
    | extract_lets
    | split
    | dsimp only
    | with_reducible apply Keep.upd

theorem keep_goodInterval {s0 : State}  (s : State) (h : Keep s0 s) :
    Keep s0 (goodInterval s) := by
  unfold goodInterval
  try extract_lets
  repeat' first
    | with_reducible assumption
    | with_reducible apply keep_manageDies
    | with_reducible apply keep_powerFlags
    | extract_lets
    | split
    | dsimp only
    | with_reducible apply Keep.upd

theorem keep_powerInterval {s0 : State} (a0 : Meters) (s : State) (h : Keep s0 s) :
    Keep s0 (powerInterval a0 s) := by
  unfold powerInterval
  try extract_lets
  repeat' first
    | with_reducible assumption
    | with_reducible apply keep_missInterval
    | with_reducible apply keep_notePartEnergy
    | with_reducible apply keep_learnAll
    | with_reducible apply keep_noteDraws
    | with_reducible apply keep_throttle
    | with_reducible apply keep_takeCap
    | with_reducible apply keep_setF
    | with_reducible apply keep_stepFallow
    | with_reducible apply keep_orderOpp
    | with_reducible apply keep_pauseOne
    | with_reducible apply keep_goodInterval
    | with_reducible apply keep_allot
    | with_reducible apply keep_resumeOne
    | extract_lets
    | with_reducible apply keep_foldl
    | with_reducible apply keep_foldl2
    | with_reducible apply keep_foldl3
    | split
    | dsimp only
    | intro _
    | with_reducible apply Keep.upd

theorem keep_execPowerInterval {s0 : State} (a0 : Meters) (s : State) (h : Keep s0 s) :
    KeepAll s0 (execPowerInterval a0 s) := by
  unfold execPowerInterval
  repeat' first
    | with_reducible assumption
    | with_reducible apply keep_powerInterval
    | with_reducible apply KeepAll.next

theorem keep_capWrite {s0 : State} (a0 : BitVec 64) (a1 : BitVec 64) (s : State) (h : Keep s0 s) :
    Keep s0 (capWrite a0 a1 s) := by
  unfold capWrite
  try extract_lets
  repeat' first
    | with_reducible assumption
    | with_reducible apply keep_swWriteReg
    | with_reducible apply keep_setF

theorem keep_execPwrCapWrite {s0 : State} (a0 : BitVec 32) (s : State) (h : Keep s0 s) :
    KeepAll s0 (execPwrCapWrite a0 s) := by
  unfold execPwrCapWrite
  repeat' first
    | with_reducible assumption
    | with_reducible apply keep_capWrite
    | with_reducible apply KeepAll.next

theorem keep_peakLimiter {s0 : State} (a0 : Nat) (a1 : Nat) (s : State) (h : Keep s0 s) :
    Keep s0 (peakLimiter a0 a1 s) := by
  unfold peakLimiter
  try extract_lets
  repeat' first
    | with_reducible assumption
    | with_reducible apply keep_setF
    | with_reducible apply keep_incF
    | extract_lets
    | with_reducible apply keep_foldl
    | with_reducible apply keep_foldl2
    | with_reducible apply keep_foldl3
    | split
    | dsimp only
    | intro _
    | with_reducible apply Keep.upd

theorem keep_execPeakLimiter {s0 : State} (a0 : PlotId) (a1 : Nat) (s : State) (h : Keep s0 s) :
    KeepAll s0 (execPeakLimiter a0 a1 s) := by
  unfold execPeakLimiter
  repeat' first
    | with_reducible assumption
    | with_reducible apply keep_peakLimiter
    | with_reducible apply KeepAll.next

theorem keep_droopDetect_flagCross {s0 : State} (a0 : Nat) (a1 : Bool) (s : State) (h : Keep s0 s) :
    Keep s0 (droopDetect.flagCross a0 a1 s) := by
  unfold droopDetect.flagCross
  repeat' first
    | with_reducible assumption
    | with_reducible apply keep_incF
    | split

theorem keep_droopDetect {s0 : State} (a0 : Nat) (a1 : Nat) (a2 : Nat) (s : State) (h : Keep s0 s) :
    Keep s0 (droopDetect a0 a1 a2 s) := by
  unfold droopDetect
  try extract_lets
  repeat' first
    | with_reducible assumption
    | with_reducible apply keep_droopDetect_flagCross
    | with_reducible apply keep_incF
    | extract_lets
    | split
    | dsimp only
    | with_reducible apply Keep.upd

theorem keep_execDroopDetect {s0 : State} (a0 : BgId) (a1 : Nat) (a2 : Nat) (s : State) (h : Keep s0 s) :
    KeepAll s0 (execDroopDetect a0 a1 a2 s) := by
  unfold execDroopDetect
  repeat' first
    | with_reducible assumption
    | with_reducible apply keep_droopDetect
    | with_reducible apply KeepAll.next

theorem keep_heatDie {s0 : State} (a0 : Nat) (a1 : Nat) (s : State) (h : Keep s0 s) :
    Keep s0 (heatDie a0 a1 s) := by
  unfold heatDie
  try extract_lets
  repeat' first
    | with_reducible assumption
    | with_reducible apply keep_setF
    | extract_lets
    | split
    | dsimp only
    | with_reducible apply Keep.upd

theorem keep_heatStack {s0 : State} (a0 : Nat) (a1 : Nat) (s : State) (h : Keep s0 s) :
    Keep s0 (heatStack a0 a1 s) := by
  unfold heatStack
  try extract_lets
  repeat' first
    | with_reducible assumption
    | with_reducible apply keep_setF
    | with_reducible apply keep_State_putStack

theorem keep_thermalSample {s0 : State} (a0 : Temps) (s : State) (h : Keep s0 s) :
    Keep s0 (thermalSample a0 s) := by
  unfold thermalSample
  try extract_lets
  repeat' first
    | with_reducible assumption
    | with_reducible apply keep_trip
    | with_reducible apply keep_heatDie
    | with_reducible apply keep_heatStack
    | with_reducible apply keep_setF
    | with_reducible apply keep_powerFlags
    | with_reducible apply keep_flagIf
    | extract_lets
    | with_reducible apply keep_foldl
    | with_reducible apply keep_foldl2
    | with_reducible apply keep_foldl3
    | split
    | dsimp only
    | intro _
    | with_reducible apply Keep.upd

theorem keep_execThermalSample {s0 : State} (a0 : Temps) (s : State) (h : Keep s0 s) :
    KeepAll s0 (execThermalSample a0 s) := by
  unfold execThermalSample
  repeat' first
    | with_reducible assumption
    | with_reducible apply keep_thermalSample
    | with_reducible apply KeepAll.next

theorem keep_budgetMessage {s0 : State} (a0 : Nat) (a1 : Option (Nat × Nat)) (s : State) (h : Keep s0 s) :
    Keep s0 (budgetMessage a0 a1 s) := by
  unfold budgetMessage
  try extract_lets
  repeat' first
    | with_reducible assumption
    | with_reducible apply keep_powerFlags
    | with_reducible apply keep_setF
    | with_reducible apply keep_orderOpp
    | extract_lets
    | split
    | dsimp only
    | with_reducible apply Keep.upd

theorem keep_execBudgetMessage {s0 : State} (a0 : SlotId) (a1 : Option (Nat × Fin 8)) (s : State) (h : Keep s0 s) :
    KeepAll s0 (execBudgetMessage a0 a1 s) := by
  unfold execBudgetMessage
  repeat' first
    | with_reducible assumption
    | with_reducible apply keep_budgetMessage
    | with_reducible apply KeepAll.next

end Sys2Proof.Machine
end

