-- ==== Sys2Proof/Laws/KeepBoot.lean ====
section
/-!
SUPPORT. Keeping: the operations of Boot.
-/

namespace Sys2Proof.Machine

theorem keep_toStage {s0 : State} (a0 : Nat) (s : State) (h : Keep s0 s) :
    Keep s0 (toStage a0 s) := by
  unfold toStage
  repeat' first
    | with_reducible assumption
    | with_reducible apply keep_setF

theorem keep_useIdent {s0 : State} (a0 : Nat) (a1 : IdCopy) (s : State) (h : Keep s0 s) :
    Keep s0 (useIdent a0 a1 s) := by
  unfold useIdent
  try extract_lets
  repeat' first
    | with_reducible assumption
    | with_reducible apply keep_setF
    | extract_lets
    | dsimp only
    | with_reducible apply Keep.upd

theorem keep_checkIdentity {s0 : State} (a0 : IdCopy) (a1 : IdCopy) (s : State) (h : Keep s0 s) :
    Keep s0 (checkIdentity a0 a1 s) := by
  unfold checkIdentity
  repeat' first
    | with_reducible assumption
    | with_reducible apply keep_useIdent
    | with_reducible apply keep_noIdentity
    | split

theorem keep_identityCheck {s0 : State} (a0 : BootIn) (s : State) (h : Keep s0 s) :
    Keep s0 (identityCheck a0 s) := by
  unfold identityCheck
  try extract_lets
  repeat' first
    | with_reducible assumption
    | with_reducible apply keep_checkIdentity
    | extract_lets
    | dsimp only
    | with_reducible apply Keep.upd

theorem keep_pickSlot {s0 : State} (a0 : Bool) (a2 : Nat) (s : State) (h : Keep s0 s) :
    Keep s0 (pickSlot a0 s a2) := by
  induction a2 generalizing s with
  | zero =>
    unfold pickSlot
    try extract_lets
    repeat' first
      | with_reducible assumption
      | with_reducible apply ih
      | with_reducible apply keep_setF
  | succ n ih =>
    unfold pickSlot
    try extract_lets
    repeat' first
      | with_reducible assumption
      | with_reducible apply ih
      | with_reducible apply keep_setF
      | with_reducible apply keep_chooseSlot
      | with_reducible apply keep_toStage
      | with_reducible apply keep_setSlot
      | (with_reducible apply keep_chooseSlot_e; · with_reducible assumption)
      | extract_lets
      | split
      | dsimp only
      | with_reducible apply Keep.upd

theorem keep_loadImage {s0 : State} (a0 : ImgIn) (a1 : Bool) (s : State) (h : Keep s0 s) :
    Keep s0 (loadImage a0 a1 s) := by
  unfold loadImage
  try extract_lets
  repeat' first
    | with_reducible assumption
    | with_reducible apply keep_toStage
    | with_reducible apply keep_setSlot
    | with_reducible apply keep_setF
    | extract_lets
    | split
    | dsimp only
    | with_reducible apply Keep.upd

theorem keep_takeSettings {s0 : State} (a0 : Bool) (s : State) (h : Keep s0 s) :
    Keep s0 (takeSettings a0 s) := by
  unfold takeSettings
  try extract_lets
  repeat' first
    | with_reducible assumption
    | with_reducible apply keep_loadSettings
    | with_reducible apply keep_setF
    | with_reducible apply keep_toStage
    | extract_lets
    | dsimp only
    | with_reducible apply Keep.upd

theorem keep_beginStacks {s0 : State}  (s : State) (h : Keep s0 s) :
    Keep s0 (beginStacks s) := by
  unfold beginStacks
  try extract_lets
  repeat' first
    | with_reducible assumption
    | with_reducible apply keep_setF
    | extract_lets
    | with_reducible apply keep_foldl
    | with_reducible apply keep_foldl2
    | with_reducible apply keep_foldl3
    | split
    | dsimp only
    | intro _

theorem keep_handoffRegions {s0 : State}  (s : State) (h : Keep s0 s) :
    Keep s0 (handoffRegions s) := by
  unfold handoffRegions
  repeat' first
    | with_reducible assumption
    | with_reducible apply keep_writeReg
    | with_reducible apply keep_foldl
    | with_reducible apply keep_foldl2
    | with_reducible apply keep_foldl3
    | split
    | dsimp only
    | intro _

theorem keep_writeTables_openPairs {s0 : State}  (s : State) (h : Keep s0 s) :
    Keep s0 (writeTables.openPairs s) := by
  unfold writeTables.openPairs
  repeat' first
    | with_reducible assumption
    | with_reducible apply keep_bypassSwitch
    | with_reducible apply keep_startTrain
    | with_reducible apply keep_foldl
    | with_reducible apply keep_foldl2
    | with_reducible apply keep_foldl3
    | split
    | dsimp only
    | intro _

theorem keep_writeTables {s0 : State}  (s : State) (h : Keep s0 s) :
    Keep s0 (writeTables s) := by
  unfold writeTables
  try extract_lets
  repeat' first
    | with_reducible assumption
    | with_reducible apply keep_setF
    | with_reducible apply keep_writeRoutes
    | with_reducible apply keep_handoffRegions
    | with_reducible apply keep_plotGroups
    | with_reducible apply keep_toStage
    | with_reducible apply keep_writeTables_openPairs
    | with_reducible apply keep_bypassSwitch
    | with_reducible apply keep_startTrain
    | extract_lets
    | with_reducible apply keep_foldl
    | with_reducible apply keep_foldl2
    | with_reducible apply keep_foldl3
    | split
    | dsimp only
    | intro _

theorem keep_putBootImage {s0 : State} (a0 : Nat) (a1 : State) (s : State) (h : Keep s0 s) :
    Keep s0 (putBootImage a0 a1 s) := by
  unfold putBootImage
  try extract_lets
  repeat' first
    | with_reducible assumption
    | with_reducible apply keep_busWriteRange
    | with_reducible apply keep_toStage
    | with_reducible apply keep_askDone
    | (with_reducible apply keep_busWriteRange_e; · with_reducible assumption)
    | extract_lets
    | split

theorem keep_putHandoff {s0 : State} (a0 : Nat) (a1 : State) (s : State) (h : Keep s0 s) :
    Keep s0 (putHandoff a0 a1 s) := by
  unfold putHandoff
  try extract_lets
  repeat' first
    | with_reducible assumption
    | with_reducible apply keep_busWriteRange
    | with_reducible apply keep_putBootImage
    | with_reducible apply keep_askDone
    | (with_reducible apply keep_busWriteRange_e; · with_reducible assumption)
    | extract_lets
    | split

theorem keep_writeHandoff {s0 : State}  (s : State) (h : Keep s0 s) :
    Keep s0 (writeHandoff s) := by
  unfold writeHandoff
  try extract_lets
  repeat' first
    | with_reducible assumption
    | with_reducible apply keep_putHandoff
    | extract_lets
    | split
    | dsimp only
    | with_reducible apply Keep.upd

theorem keep_handOff {s0 : State}  (s : State) (h : Keep s0 s) :
    Keep s0 (handOff s) := by
  unfold handOff
  try extract_lets
  repeat' first
    | with_reducible assumption
    | with_reducible apply keep_setF
    | with_reducible apply keep_toStage
    | extract_lets
    | dsimp only
    | with_reducible apply Keep.upd

theorem keep_loadIndices {s0 : State}  (s : State) (h : Keep s0 s) :
    Keep s0 (loadIndices s) := by
  unfold loadIndices
  try extract_lets
  repeat' first
    | with_reducible assumption
    | extract_lets
    | dsimp only
    | with_reducible apply Keep.upd

theorem keep_boot {s0 : State} (a0 : BootIn) (s : State) (h : Keep s0 s) :
    Keep s0 (boot a0 s) := by
  unfold boot
  try extract_lets
  repeat' first
    | with_reducible assumption
    | with_reducible apply keep_toStage
    | with_reducible apply keep_loadIndices
    | with_reducible apply keep_identityCheck
    | with_reducible apply keep_pickSlot
    | with_reducible apply keep_loadImage
    | with_reducible apply keep_takeSettings
    | with_reducible apply keep_powerFlags
    | with_reducible apply keep_manageDies
    | with_reducible apply keep_beginStacks
    | with_reducible apply keep_writeTables
    | with_reducible apply keep_joinGrove
    | with_reducible apply keep_writeHandoff
    | with_reducible apply keep_handOff
    | with_reducible apply keep_graftSettle
    | extract_lets
    | split

theorem keep_execBoot {s0 : State} (a0 : BootIn) (s : State) (h : Keep s0 s) :
    KeepAll s0 (execBoot a0 s) := by
  unfold execBoot
  repeat' first
    | with_reducible assumption
    | with_reducible apply keep_boot
    | with_reducible apply KeepAll.next

end Sys2Proof.Machine
end

