-- ==== Sys2Proof/Laws/KeepSec.lean ====
section
/-!
SUPPORT. Keeping: the operations of Sec.
-/

namespace Sys2Proof.Machine

theorem keep_secCmd {s0 : State} (a0 : Nat) (s : State) (h : Keep s0 s) :
    Keep s0 (secCmd a0 s) := by
  unfold secCmd
  try extract_lets
  repeat' first
    | with_reducible assumption
    | with_reducible apply keep_flagF
    | with_reducible apply keep_setF
    | extract_lets
    | split
    | dsimp only
    | with_reducible apply Keep.upd

theorem keep_secDone {s0 : State} (a0 : Nat) (s : State) (h : Keep s0 s) :
    Keep s0 (secDone a0 s) := by
  unfold secDone
  try extract_lets
  repeat' first
    | with_reducible assumption
    | with_reducible apply keep_setF
    | with_reducible apply keep_irq
    | extract_lets
    | split
    | dsimp only
    | with_reducible apply Keep.upd

theorem keep_secAbandon {s0 : State}  (s : State) (h : Keep s0 s) :
    Keep s0 (secAbandon s) := by
  unfold secAbandon
  try extract_lets
  repeat' first
    | with_reducible assumption
    | with_reducible apply keep_State_takeFree
    | with_reducible apply keep_secDone

theorem keep_secRun {s0 : State} (a0 : Nat) (a1 : State → State) (s : State) (h : Keep s0 s) (h1 : ∀ z, Keep s0 z → Keep s0 (a1 z)) :
    Keep s0 (secRun a0 a1 s) := by
  unfold secRun
  try dsimp only
  repeat' first
    | with_reducible assumption
    | with_reducible apply h1
    | with_reducible apply keep_secCmd
    | dsimp only
    | split

theorem keep_secRead {s0 : State} (a0 : Nat) (a1 : Nat → State → State) (s : State) (h : Keep s0 s) (h1 : ∀ u0 z, Keep s0 z → Keep s0 (a1 u0 z)) :
    Keep s0 (secRead a0 a1 s) := by
  unfold secRead
  try extract_lets
  repeat' first
    | with_reducible assumption
    | with_reducible apply h1
    | with_reducible apply keep_busReadRange
    | with_reducible apply keep_askDone
    | with_reducible apply keep_secAbandon
    | (with_reducible apply keep_busReadRange_e; · with_reducible assumption)
    | extract_lets
    | split

theorem keep_stageImage {s0 : State} (a0 : ImgIn) (s : State) (h : Keep s0 s) :
    Keep s0 (stageImage a0 s) := by
  unfold stageImage
  try extract_lets
  repeat' first
    | with_reducible assumption
    | with_reducible apply keep_secRun
    | with_reducible apply keep_secDone
    | with_reducible apply keep_secRead
    | with_reducible apply keep_State_putSlot
    | with_reducible apply keep_setSlot
    | extract_lets
    | split
    | dsimp only
    | intro _

theorem keep_execStageImage {s0 : State} (a0 : ImgIn) (s : State) (h : Keep s0 s) :
    KeepAll s0 (execStageImage a0 s) := by
  unfold execStageImage
  repeat' first
    | with_reducible assumption
    | with_reducible apply keep_stageImage
    | with_reducible apply KeepAll.next

theorem keep_activate {s0 : State} (a0 : Bool) (s : State) (h : Keep s0 s) :
    Keep s0 (activate a0 s) := by
  unfold activate
  repeat' first
    | with_reducible assumption
    | with_reducible apply keep_tryReset
    | with_reducible apply keep_secRun
    | with_reducible apply keep_secDone
    | with_reducible apply keep_orderReset
    | with_reducible apply keep_setSlot
    | split
    | dsimp only
    | intro _

theorem keep_execActivate {s0 : State} (a0 : Bool) (s : State) (h : Keep s0 s) :
    KeepAll s0 (execActivate a0 s) := by
  unfold execActivate
  repeat' first
    | with_reducible assumption
    | with_reducible apply keep_activate
    | with_reducible apply KeepAll.next

theorem keep_confirm {s0 : State} (a0 : Bool) (s : State) (h : Keep s0 s) :
    Keep s0 (confirm a0 s) := by
  unfold confirm
  repeat' first
    | with_reducible assumption
    | with_reducible apply keep_secRun
    | with_reducible apply keep_secDone
    | with_reducible apply keep_flagF
    | with_reducible apply keep_graftSettle
    | with_reducible apply keep_setF
    | split
    | dsimp only
    | intro _

theorem keep_execConfirm {s0 : State} (a0 : Bool) (s : State) (h : Keep s0 s) :
    KeepAll s0 (execConfirm a0 s) := by
  unfold execConfirm
  repeat' first
    | with_reducible assumption
    | with_reducible apply keep_confirm
    | with_reducible apply KeepAll.next

theorem keep_abandonGraft {s0 : State} (a0 : Bool) (s : State) (h : Keep s0 s) :
    Keep s0 (abandonGraft a0 s) := by
  unfold abandonGraft
  repeat' first
    | with_reducible assumption
    | with_reducible apply keep_tryReset
    | with_reducible apply keep_secRun
    | with_reducible apply keep_secDone
    | with_reducible apply keep_endGraft
    | split
    | dsimp only
    | intro _

theorem keep_execAbandonGraft {s0 : State} (a0 : Bool) (s : State) (h : Keep s0 s) :
    KeepAll s0 (execAbandonGraft a0 s) := by
  unfold execAbandonGraft
  repeat' first
    | with_reducible assumption
    | with_reducible apply keep_abandonGraft
    | with_reducible apply KeepAll.next

theorem keep_writeSettings {s0 : State} (a0 : Bool) (s : State) (h : Keep s0 s) :
    Keep s0 (writeSettings a0 s) := by
  unfold writeSettings
  repeat' first
    | with_reducible assumption
    | with_reducible apply keep_secRun
    | with_reducible apply keep_secDone
    | with_reducible apply keep_secRead
    | with_reducible apply keep_flashWrite
    | with_reducible apply keep_storeSettings
    | split
    | dsimp only
    | intro _

theorem keep_execWriteSettings {s0 : State} (a0 : Bool) (s : State) (h : Keep s0 s) :
    KeepAll s0 (execWriteSettings a0 s) := by
  unfold execWriteSettings
  repeat' first
    | with_reducible assumption
    | with_reducible apply keep_writeSettings
    | with_reducible apply KeepAll.next

theorem keep_writeQuote {s0 : State} (a0 : BitVec 83240) (s : State) (h : Keep s0 s) :
    Keep s0 (writeQuote a0 s) := by
  unfold writeQuote
  try extract_lets
  repeat' first
    | with_reducible assumption
    | with_reducible apply keep_askDone
    | with_reducible apply keep_busWriteRange
    | with_reducible apply keep_secDone
    | with_reducible apply keep_secAbandon
    | (with_reducible apply keep_busWriteRange_e; · with_reducible assumption)
    | extract_lets
    | split
    | dsimp only
    | with_reducible apply Keep.upd

theorem keep_formQuote {s0 : State} (a0 : BitVec 79144) (a1 : Nat) (s : State) (h : Keep s0 s) :
    Keep s0 (formQuote a0 a1 s) := by
  unfold formQuote
  try extract_lets
  repeat' first
    | with_reducible assumption
    | with_reducible apply keep_writeQuote
    | extract_lets
    | dsimp only
    | with_reducible apply Keep.upd

theorem keep_attest {s0 : State} (a0 : BitVec 79144) (a1 : Bool) (s : State) (h : Keep s0 s) :
    Keep s0 (attest a0 a1 s) := by
  unfold attest
  repeat' first
    | with_reducible assumption
    | with_reducible apply keep_secRun
    | with_reducible apply keep_writeQuote
    | with_reducible apply keep_secDone
    | with_reducible apply keep_reserveIndex
    | with_reducible apply keep_secRead
    | with_reducible apply keep_formQuote
    | (with_reducible apply keep_reserveIndex_e; · with_reducible assumption)
    | split
    | dsimp only
    | intro _

theorem keep_execAttest {s0 : State} (a0 : BitVec 79144) (a1 : Bool) (s : State) (h : Keep s0 s) :
    KeepAll s0 (execAttest a0 a1 s) := by
  unfold execAttest
  repeat' first
    | with_reducible assumption
    | with_reducible apply keep_attest
    | with_reducible apply KeepAll.next

end Sys2Proof.Machine
end

