-- ==== Sys2Proof/Laws/KeepErrors.lean ====
section
/-!
SUPPORT. Keeping: the operations of Errors.
-/

namespace Sys2Proof.Machine

theorem keep_countCe {s0 : State} (a0 : Nat) (a1 : Nat) (a2 : Nat) (s : State) (h : Keep s0 s) :
    Keep s0 (countCe a0 a1 a2 s) := by
  unfold countCe
  repeat' first
    | with_reducible assumption
    | with_reducible apply keep_incF
    | split

theorem keep_recentCe {s0 : State} (a0 : Nat) (a1 : ErrAt) (s : State) (h : Keep s0 s) :
    Keep s0 (recentCe a0 a1 s) := by
  unfold recentCe
  repeat' first
    | with_reducible assumption
    | with_reducible apply keep_noteRecent
    | split

theorem keep_ceEvent {s0 : State} (a0 : CeF) (s : State) (h : Keep s0 s) :
    Keep s0 (ceEvent a0 s) := by
  unfold ceEvent
  try extract_lets
  repeat' first
    | with_reducible assumption
    | with_reducible apply keep_ceReport
    | with_reducible apply keep_countCe
    | with_reducible apply keep_recentCe
    | with_reducible apply keep_dropBlock
    | extract_lets
    | split

theorem keep_execCeReport {s0 : State} (a0 : CeF) (s : State) (h : Keep s0 s) :
    KeepAll s0 (execCeReport a0 s) := by
  unfold execCeReport
  repeat' first
    | with_reducible assumption
    | with_reducible apply keep_ceEvent
    | with_reducible apply KeepAll.next

theorem keep_ceWindow {s0 : State} (a0 : Nat) (s : State) (h : Keep s0 s) :
    Keep s0 (ceWindow a0 s) := by
  unfold ceWindow
  try extract_lets
  repeat' first
    | with_reducible assumption
    | extract_lets
    | split
    | dsimp only
    | with_reducible exact id
    | with_reducible exact swf_sput _ _ _ _
    | with_reducible exact mwf_sput _ _ _
    | with_reducible exact mwf_putBytes _ _ _ _ _
    | with_reducible exact mwf_filter _ _
    | with_reducible exact swf_filter _ _ _
    | with_reducible exact swf_smap _ _ _
    | with_reducible exact log_take _ _
    | with_reducible exact fun g => mwf_putBytes _ _ _ _ _ (mwf_putBytes _ _ _ _ _ g)
    | with_reducible apply Keep.upd
    | with_reducible apply Keep.all

theorem keep_execCeWindow {s0 : State} (a0 : Fin 8) (s : State) (h : Keep s0 s) :
    KeepAll s0 (execCeWindow a0 s) := by
  unfold execCeWindow
  repeat' first
    | with_reducible assumption
    | with_reducible apply keep_ceWindow
    | with_reducible apply KeepAll.next

theorem keep_injectArm {s0 : State} (a0 : BitVec 64) (a1 : BitVec 64) (s : State) (h : Keep s0 s) :
    Keep s0 (injectArm a0 a1 s) := by
  unfold injectArm
  try extract_lets
  repeat' first
    | with_reducible assumption
    | with_reducible apply keep_swWriteReg
    | with_reducible apply keep_setF

theorem keep_execErrInjectArm {s0 : State} (a0 : BitVec 32) (s : State) (h : Keep s0 s) :
    KeepAll s0 (execErrInjectArm a0 s) := by
  unfold execErrInjectArm
  repeat' first
    | with_reducible assumption
    | with_reducible apply keep_injectArm
    | with_reducible apply KeepAll.next

theorem keep_noteRestart {s0 : State}  (s : State) (h : Keep s0 s) :
    Keep s0 (noteRestart s) := by
  unfold noteRestart
  try extract_lets
  repeat' first
    | with_reducible assumption
    | with_reducible apply keep_raiseIbi
    | with_reducible apply keep_setF
    | extract_lets
    | split
    | dsimp only
    | with_reducible apply Keep.upd

theorem keep_noGood {s0 : State}  (s : State) (h : Keep s0 s) :
    Keep s0 (noGood s) := by
  unfold noGood
  try extract_lets
  repeat' first
    | with_reducible assumption
    | extract_lets
    | dsimp only
    | with_reducible apply Keep.upd

theorem keep_restartShown {s0 : State} (a0 : Nat) (s : State) (h : Keep s0 s) :
    Keep s0 (restartShown a0 s) := by
  unfold restartShown
  try extract_lets
  repeat' first
    | with_reducible assumption
    | with_reducible apply keep_setF
    | with_reducible apply keep_incF
    | with_reducible apply keep_logEvent
    | with_reducible apply keep_noGood
    | with_reducible apply keep_powerFlags
    | with_reducible apply keep_manageDies
    | with_reducible apply keep_noteRestart

theorem keep_restartBegins {s0 : State} (a0 : Nat) (s : State) (h : Keep s0 s) :
    Keep s0 (restartBegins a0 s) := by
  unfold restartBegins
  try extract_lets
  repeat' first
    | with_reducible assumption
    | with_reducible apply keep_restartShown
    | with_reducible apply keep_endGraft
    | extract_lets
    | split

theorem keep_heldFences {s0 : State}  (s : State) (h : Keep s0 s) :
    Keep s0 (heldFences s) := by
  unfold heldFences
  try extract_lets
  repeat' first
    | with_reducible apply keep_returnEnds
    | with_reducible assumption
    | with_reducible apply keep_fenceDie
    | with_reducible apply keep_setF
    | extract_lets
    | with_reducible apply keep_foldl
    | with_reducible apply keep_foldl2
    | with_reducible apply keep_foldl3
    | dsimp only
    | intro _
    | with_reducible apply Keep.upd

theorem keep_restartEnds {s0 : State}  (s : State) (h : Keep s0 s) :
    Keep s0 (restartEnds s) := by
  unfold restartEnds
  try extract_lets
  repeat' first
    | with_reducible assumption
    | with_reducible apply keep_setF
    | with_reducible apply keep_ceNow
    | with_reducible apply keep_heldFences
    | extract_lets
    | with_reducible apply keep_foldl
    | with_reducible apply keep_foldl2
    | with_reducible apply keep_foldl3
    | split
    | dsimp only
    | intro _
    | with_reducible apply Keep.upd

theorem keep_mgtRestart {s0 : State} (a0 : RestartF) (s : State) (h : Keep s0 s) :
    Keep s0 (mgtRestart a0 s) := by
  unfold mgtRestart
  repeat' first
    | with_reducible assumption
    | with_reducible apply keep_restartBegins
    | with_reducible apply keep_restartEnds
    | split

theorem keep_execMgtRestart {s0 : State} (a0 : RestartF) (s : State) (h : Keep s0 s) :
    KeepAll s0 (execMgtRestart a0 s) := by
  unfold execMgtRestart
  repeat' first
    | with_reducible assumption
    | with_reducible apply keep_mgtRestart
    | with_reducible apply KeepAll.next

theorem keep_mgtCheck {s0 : State} (a0 : Nat) (a1 : Bool) (s : State) (h : Keep s0 s) :
    Keep s0 (mgtCheck a0 a1 s) := by
  unfold mgtCheck
  repeat' first
    | with_reducible assumption
    | with_reducible apply keep_restartBegins
    | split

theorem keep_execMgtCheck {s0 : State} (a0 : Fin 6) (a1 : Bool) (s : State) (h : Keep s0 s) :
    KeepAll s0 (execMgtCheck a0 a1 s) := by
  unfold execMgtCheck
  repeat' first
    | with_reducible assumption
    | with_reducible apply keep_mgtCheck
    | with_reducible apply KeepAll.next

theorem keep_coreLost {s0 : State} (a0 : Nat) (s : State) (h : Keep s0 s) :
    Keep s0 (coreLost a0 s) := by
  unfold coreLost
  repeat' first
    | with_reducible assumption
    | with_reducible apply keep_failLaunchAt

theorem keep_mergeLost {s0 : State} (a0 : Nat) (a1 : Nat) (s : State) (h : Keep s0 s) :
    Keep s0 (mergeLost a0 a1 s) := by
  unfold mergeLost
  try extract_lets
  repeat' first
    | with_reducible assumption
    | with_reducible apply keep_ueConsume
    | with_reducible apply keep_State_putBed
    | with_reducible apply keep_flagF
    | with_reducible apply keep_mergeNext
    | with_reducible apply keep_ackOwner
    | with_reducible apply keep_failLaunchAt
    | extract_lets
    | with_reducible apply keep_foldl
    | with_reducible apply keep_foldl2
    | with_reducible apply keep_foldl3
    | split
    | dsimp only
    | intro _

theorem keep_ueEvent {s0 : State} (a0 : UeF) (s : State) (h : Keep s0 s) :
    Keep s0 (ueEvent a0 s) := by
  unfold ueEvent
  try extract_lets
  repeat' first
    | with_reducible assumption
    | with_reducible apply keep_memConsume
    | with_reducible apply keep_coreLost
    | with_reducible apply keep_spadConsume
    | with_reducible apply keep_logEvent
    | with_reducible apply keep_incF
    | with_reducible apply keep_mergeLost
    | with_reducible apply keep_ueFound
    | with_reducible apply keep_flagF
    | with_reducible apply keep_invLine
    | with_reducible apply keep_respond
    | with_reducible apply keep_ueConsume
    | with_reducible apply keep_eventIrq
    | with_reducible apply keep_restartBegins
    | extract_lets
    | split

theorem keep_execUeConsumed {s0 : State} (a0 : UeF) (s : State) (h : Keep s0 s) :
    KeepAll s0 (execUeConsumed a0 s) := by
  unfold execUeConsumed
  repeat' first
    | with_reducible assumption
    | with_reducible apply keep_ueEvent
    | with_reducible apply KeepAll.next

theorem keep_reportLoss {s0 : State}  (s : State) (h : Keep s0 s) :
    Keep s0 (reportLoss s) := by
  unfold reportLoss
  try extract_lets
  repeat' first
    | with_reducible assumption
    | with_reducible apply keep_raiseIbi
    | with_reducible apply keep_logEvent
    | with_reducible apply keep_flagF
    | extract_lets
    | dsimp only
    | with_reducible apply Keep.upd

theorem keep_hostLoss {s0 : State}  (s : State) (h : Keep s0 s) :
    Keep s0 (hostLoss s) := by
  unfold hostLoss
  try extract_lets
  repeat' first
    | with_reducible assumption
    | with_reducible apply keep_tryReset
    | with_reducible apply keep_reportLoss
    | with_reducible apply keep_orderReset
    | extract_lets
    | split

theorem keep_execHostLoss {s0 : State}  (s : State) (h : Keep s0 s) :
    KeepAll s0 (execHostLoss s) := by
  unfold execHostLoss
  repeat' first
    | with_reducible assumption
    | with_reducible apply keep_hostLoss
    | with_reducible apply KeepAll.next

end Sys2Proof.Machine
end

