-- ==== Sys2Proof/Laws/KeepTap.lean ====
section
/-!
SUPPORT. Keeping: the operations of Tap.
-/

namespace Sys2Proof.Machine

theorem keep_standinSwitch {s0 : State}  (s : State) (h : Keep s0 s) :
    Keep s0 (standinSwitch s) := by
  unfold standinSwitch
  try extract_lets
  repeat' first
    | with_reducible assumption
    | with_reducible apply keep_setF
    | extract_lets
    | split
    | dsimp only
    | with_reducible apply Keep.upd

theorem keep_execStandinSwitch {s0 : State}  (s : State) (h : Keep s0 s) :
    KeepAll s0 (execStandinSwitch s) := by
  unfold execStandinSwitch
  repeat' first
    | with_reducible assumption
    | with_reducible apply keep_standinSwitch
    | with_reducible apply KeepAll.next

theorem keep_enterDie {s0 : State} (a0 : Nat) (s : State) (h : Keep s0 s) :
    Keep s0 (enterDie a0 s) := by
  unfold enterDie
  try extract_lets
  repeat' first
    | with_reducible assumption
    | with_reducible apply keep_setF
    | with_reducible apply keep_fenceDie
    | with_reducible apply keep_powerFlags
    | extract_lets
    | split

theorem keep_leaveDie {s0 : State} (a0 : Nat) (s : State) (h : Keep s0 s) :
    Keep s0 (leaveDie a0 s) := by
  unfold leaveDie
  try extract_lets
  repeat' first
    | with_reducible assumption
    | with_reducible apply keep_setF
    | with_reducible apply keep_returnDie
    | extract_lets
    | split
    | dsimp only
    | with_reducible apply Keep.upd

theorem keep_dieEnWrite {s0 : State} (a0 : Nat) (s : State) (h : Keep s0 s) :
    Keep s0 (dieEnWrite a0 s) := by
  unfold dieEnWrite
  try extract_lets
  repeat' first
    | with_reducible assumption
    | with_reducible apply keep_setF
    | with_reducible apply keep_enterDie
    | with_reducible apply keep_leaveDie
    | extract_lets
    | with_reducible apply keep_foldl
    | with_reducible apply keep_foldl2
    | with_reducible apply keep_foldl3
    | split
    | dsimp only
    | intro _

theorem keep_execTapDieEnter {s0 : State} (a0 : SlotId) (s : State) (h : Keep s0 s) :
    KeepAll s0 (execTapDieEnter a0 s) := by
  unfold execTapDieEnter
  repeat' first
    | with_reducible assumption
    | with_reducible apply keep_dieEnWrite
    | with_reducible apply KeepAll.next

theorem keep_execTapDieLeave {s0 : State} (a0 : SlotId) (s : State) (h : Keep s0 s) :
    KeepAll s0 (execTapDieLeave a0 s) := by
  unfold execTapDieLeave
  repeat' first
    | with_reducible assumption
    | with_reducible apply keep_dieEnWrite
    | with_reducible apply KeepAll.next

theorem keep_tapResetAll {s0 : State}  (s : State) (h : Keep s0 s) :
    Keep s0 (tapResetAll s) := by
  unfold tapResetAll
  repeat' first
    | with_reducible assumption
    | with_reducible apply keep_setF
    | with_reducible apply keep_tapReset
    | with_reducible apply keep_foldl
    | with_reducible apply keep_foldl2
    | with_reducible apply keep_foldl3
    | dsimp only
    | intro _

theorem keep_execTapReset {s0 : State}  (s : State) (h : Keep s0 s) :
    KeepAll s0 (execTapReset s) := by
  unfold execTapReset
  repeat' first
    | with_reducible assumption
    | with_reducible apply keep_tapResetAll
    | with_reducible apply KeepAll.next

theorem keep_shiftOut {s0 : State} (a0 : Nat) (s : State) (h : Keep s0 s) :
    Keep s0 (shiftOut a0 s) := by
  unfold shiftOut
  repeat' first
    | with_reducible assumption
    | with_reducible apply keep_respond

theorem keep_putCells {s0 : State} (a0 : Nat) (a1 : BitVec 64) (s : State) (h : Keep s0 s) :
    Keep s0 (putCells a0 a1 s) := by
  unfold putCells
  try extract_lets
  repeat' first
    | with_reducible assumption
    | extract_lets
    | dsimp only
    | with_reducible apply Keep.upd

theorem keep_tapLoad {s0 : State} (a0 : Nat) (a1 : Nat) (s : State) (h : Keep s0 s) :
    Keep s0 (tapLoad a0 a1 s) := by
  unfold tapLoad
  try extract_lets
  repeat' first
    | with_reducible assumption
    | with_reducible apply keep_setF
    | extract_lets
    | split
    | dsimp only
    | with_reducible apply Keep.upd

theorem keep_tapDo {s0 : State} (a0 : Nat) (a1 : Nat) (a2 : State → State) (s : State) (h : Keep s0 s) (h2 : ∀ z, Keep s0 z → Keep s0 (a2 z)) :
    Keep s0 (tapDo a0 a1 a2 s) := by
  unfold tapDo
  try extract_lets
  repeat' first
    | with_reducible assumption
    | with_reducible apply h2
    | with_reducible apply keep_tapLoad
    | with_reducible apply keep_shiftOut
    | extract_lets
    | split

theorem keep_execExtest {s0 : State} (a0 : SlotId) (a1 : BitVec 64) (a2 : BitVec 64) (s : State) (h : Keep s0 s) :
    KeepAll s0 (execExtest a0 a1 a2 s) := by
  unfold execExtest
  repeat' first
    | with_reducible assumption
    | with_reducible apply keep_tapDo
    | with_reducible apply keep_shiftOut
    | with_reducible apply keep_putCells
    | with_reducible apply KeepAll.next
    | dsimp only
    | intro _

theorem keep_execSamplePreload {s0 : State} (a0 : SlotId) (a1 : BitVec 64) (a2 : BitVec 64) (s : State) (h : Keep s0 s) :
    KeepAll s0 (execSamplePreload a0 a1 a2 s) := by
  unfold execSamplePreload
  repeat' first
    | with_reducible assumption
    | with_reducible apply keep_tapDo
    | with_reducible apply keep_shiftOut
    | with_reducible apply keep_putCells
    | with_reducible apply KeepAll.next
    | dsimp only
    | intro _

theorem keep_execIdcode {s0 : State} (a0 : SlotId) (s : State) (h : Keep s0 s) :
    KeepAll s0 (execIdcode a0 s) := by
  unfold execIdcode
  repeat' first
    | with_reducible assumption
    | with_reducible apply keep_tapDo
    | with_reducible apply keep_shiftOut
    | with_reducible apply KeepAll.next
    | dsimp only
    | intro _

theorem keep_execClamp {s0 : State} (a0 : SlotId) (s : State) (h : Keep s0 s) :
    KeepAll s0 (execClamp a0 s) := by
  unfold execClamp
  repeat' first
    | with_reducible assumption
    | with_reducible apply keep_tapDo
    | with_reducible apply keep_shiftOut
    | with_reducible apply KeepAll.next

theorem keep_execHighz {s0 : State} (a0 : SlotId) (s : State) (h : Keep s0 s) :
    KeepAll s0 (execHighz a0 s) := by
  unfold execHighz
  repeat' first
    | with_reducible assumption
    | with_reducible apply keep_tapDo
    | with_reducible apply keep_shiftOut
    | with_reducible apply KeepAll.next

theorem keep_execIjtag {s0 : State} (a0 : SlotId) (s : State) (h : Keep s0 s) :
    KeepAll s0 (execIjtag a0 s) := by
  unfold execIjtag
  try extract_lets
  repeat' first
    | with_reducible assumption
    | with_reducible apply keep_tapDo
    | with_reducible apply keep_State_takeFree
    | with_reducible apply keep_shiftOut
    | (with_reducible apply keep_State_takeFree_e; · with_reducible assumption)
    | extract_lets
    | with_reducible apply KeepAll.next
    | dsimp only
    | intro _

theorem keep_execStack {s0 : State} (a0 : SlotId) (a1 : BitVec 2) (s : State) (h : Keep s0 s) :
    KeepAll s0 (execStack a0 a1 s) := by
  unfold execStack
  repeat' first
    | with_reducible assumption
    | with_reducible apply keep_tapDo
    | with_reducible apply keep_setF
    | with_reducible apply KeepAll.next

theorem keep_execLaneLoop {s0 : State} (d : SlotId) (s : State) (h : Keep s0 s) : KeepAll s0 (execLaneLoop d s) :=
  KeepAll.next (keep_tapDo _ _ _ _ h fun _ g => g)

theorem keep_execBypass {s0 : State} (a0 : SlotId) (s : State) (h : Keep s0 s) :
    KeepAll s0 (execBypass a0 s) := by
  unfold execBypass
  repeat' first
    | with_reducible assumption
    | with_reducible apply keep_tapDo
    | with_reducible apply keep_shiftOut
    | with_reducible apply KeepAll.next

end Sys2Proof.Machine
end

