-- ==== Sys2Proof/Laws/KeepRegView.lean ====
section
/-!
SUPPORT. Keeping: the operations of RegView.
-/

namespace Sys2Proof.Machine

theorem keep_readAt {s0 : State} (a0 : CsrAt) (s : State) (h : Keep s0 s) :
    Keep s0 (readAt a0 s).2 := by
  unfold readAt
  repeat' first
    | with_reducible assumption
    | with_reducible apply keep_readClearReg

theorem keep_readAt_e {s0 : State} {a0 : CsrAt} {s t : State} {x} (e : readAt a0 s = (x, t)) (h : Keep s0 s) : Keep s0 t := by
  have g := keep_readAt a0 s h 
  rw [e] at g
  exact g

end Sys2Proof.Machine
end

