-- ==== Sys2Proof/Laws/KeepRegWrite.lean ====
section
/-!
SUPPORT. Keeping: the operations of RegWrite.
-/

namespace Sys2Proof.Machine

theorem keep_actIf {s0 : State} (a0 : Fld) (a1 : BitVec 64) (a2 : BitVec 64) (a3 : State → State) (s : State) (h : Keep s0 s) (h3 : ∀ z, Keep s0 z → Keep s0 (a3 z)) :
    Keep s0 (actIf a0 a1 a2 a3 s) := by
  unfold actIf
  repeat' first
    | with_reducible assumption
    | with_reducible apply h3
    | split

theorem keep_bedcCmd {s0 : State} (a0 : Nat) (a1 : BitVec 64) (a2 : BitVec 64) (s : State) (h : Keep s0 s) :
    Keep s0 (bedcCmd a0 a1 a2 s) := by
  unfold bedcCmd
  repeat' first
    | with_reducible assumption
    | with_reducible apply keep_actIf
    | with_reducible apply keep_drainAll
    | with_reducible apply keep_invAll
    | with_reducible apply keep_invShared

theorem keep_ctxRoot {s0 : State} (a0 : Nat) (a1 : BitVec 64) (a2 : BitVec 64) (s : State) (h : Keep s0 s) :
    Keep s0 (ctxRoot a0 a1 a2 s) := by
  unfold ctxRoot
  repeat' first
    | with_reducible assumption
    | with_reducible apply keep_ctxDisable
    | with_reducible apply keep_swWriteReg
    | split

theorem keep_fqHeadWrite {s0 : State} (a0 : BitVec 64) (a1 : BitVec 64) (s : State) (h : Keep s0 s) :
    Keep s0 (fqHeadWrite a0 a1 s) := by
  unfold fqHeadWrite
  repeat' first
    | with_reducible assumption
    | with_reducible apply keep_fqHead

theorem keep_ringBaseWrite {s0 : State} (a0 : Reg) (a1 : Nat) (a2 : BitVec 64) (a3 : BitVec 64) (s : State) (h : Keep s0 s) :
    Keep s0 (ringBaseWrite a0 a1 a2 a3 s) := by
  unfold ringBaseWrite
  repeat' first
    | with_reducible assumption
    | with_reducible apply keep_swWriteReg
    | split

theorem keep_doorbellWrite {s0 : State} (a0 : CsrAt) (a1 : Who) (a2 : BitVec 64) (a3 : BitVec 64) (a4 : Nat → Nat → State → State) (s : State) (h : Keep s0 s) (h4 : ∀ u0 u1 z, Keep s0 z → Keep s0 (a4 u0 u1 z)) :
    Keep s0 (doorbellWrite a0 a1 a2 a3 a4 s) := by
  unfold doorbellWrite
  try extract_lets
  repeat' first
    | with_reducible assumption
    | with_reducible apply h4
    | with_reducible apply keep_doorbell

theorem keep_portCfg {s0 : State} (a0 : Nat) (a1 : BitVec 64) (a2 : BitVec 64) (s : State) (h : Keep s0 s) :
    Keep s0 (portCfg a0 a1 a2 s) := by
  unfold portCfg
  try dsimp only
  repeat' first
    | with_reducible assumption
    | with_reducible apply keep_swWriteReg
    | with_reducible apply keep_portEnabled
    | with_reducible apply keep_actIf
    | with_reducible apply keep_clearRetired
    | with_reducible apply keep_portRetrain
    | dsimp only
    | split

theorem keep_bypassWrite {s0 : State} (a0 : Nat) (a1 : BitVec 64) (a2 : BitVec 64) (s : State) (h : Keep s0 s) :
    Keep s0 (bypassWrite a0 a1 a2 s) := by
  unfold bypassWrite
  try extract_lets
  repeat' first
    | with_reducible assumption
    | with_reducible apply keep_bypassSwitch
    | with_reducible apply keep_bypassOpen
    | extract_lets
    | with_reducible apply keep_foldl
    | with_reducible apply keep_foldl2
    | with_reducible apply keep_foldl3
    | split
    | dsimp only
    | intro _

theorem keep_groveCmd {s0 : State} (a0 : BitVec 64) (a1 : BitVec 64) (s : State) (h : Keep s0 s) :
    Keep s0 (groveCmd a0 a1 s) := by
  unfold groveCmd
  repeat' first
    | with_reducible assumption
    | with_reducible apply keep_actIf
    | with_reducible apply keep_adoptEpoch
    | with_reducible apply keep_unlockAsk
    | with_reducible apply keep_lock
    | with_reducible apply keep_leave
    | with_reducible apply keep_joinGrove

theorem keep_fenceCmd {s0 : State} (a0 : BitVec 64) (a1 : BitVec 64) (s : State) (h : Keep s0 s) :
    Keep s0 (fenceCmd a0 a1 s) := by
  unfold fenceCmd
  try extract_lets
  repeat' first
    | with_reducible assumption
    | with_reducible apply keep_actIf
    | with_reducible apply keep_fenceReturn
    | with_reducible apply keep_dieFence
    | extract_lets
    | split

theorem keep_tapCtrl {s0 : State} (a0 : BitVec 64) (a1 : BitVec 64) (s : State) (h : Keep s0 s) :
    Keep s0 (tapCtrl a0 a1 s) := by
  unfold tapCtrl
  try extract_lets
  repeat' first
    | with_reducible assumption
    | with_reducible apply keep_dieEnWrite

theorem keep_guestCfg {s0 : State} (a0 : BitVec 64) (a1 : BitVec 64) (s : State) (h : Keep s0 s) :
    Keep s0 (guestCfg a0 a1 s) := by
  unfold guestCfg
  try extract_lets
  repeat' first
    | with_reducible assumption
    | with_reducible apply keep_swWriteReg
    | with_reducible apply keep_guestGrant
    | extract_lets
    | split

theorem keep_writeAct {s0 : State} (a0 : CsrAt) (a1 : Writer) (a2 : BitVec 64) (a3 : BitVec 64) (s : State) (h : Keep s0 s) :
    Keep s0 (writeAct a0 a1 a2 a3 s) := by
  unfold writeAct
  repeat' first
    | with_reducible assumption
    | with_reducible apply keep_ringCfg
    | with_reducible apply keep_ringBaseWrite
    | with_reducible apply keep_doorbellWrite
    | with_reducible apply keep_dbTail
    | with_reducible apply keep_dbCqHead
    | with_reducible apply keep_dbHead
    | with_reducible apply keep_actIf
    | with_reducible apply keep_clearFault
    | with_reducible apply keep_bedcCmd
    | with_reducible apply keep_t4Done
    | with_reducible apply keep_ctxRoot
    | with_reducible apply keep_fqHeadWrite
    | with_reducible apply keep_portCfg
    | with_reducible apply keep_bypassWrite
    | with_reducible apply keep_laserSettle
    | with_reducible apply keep_swWriteReg
    | with_reducible apply keep_groveCmd
    | with_reducible apply keep_linkRetrain
    | with_reducible apply keep_fenceCmd
    | with_reducible apply keep_irqMapWrite
    | with_reducible apply keep_guestCfg
    | with_reducible apply keep_capWrite
    | with_reducible apply keep_learnClear
    | with_reducible apply keep_injectArm
    | with_reducible apply keep_secCmd
    | with_reducible apply keep_tapCtrl
    | with_reducible apply keep_directWrite
    | split

theorem keep_writeAt {s0 : State} (a0 : CsrAt) (a1 : Writer) (a2 : BitVec 64) (a3 : BitVec 64) (s : State) (h : Keep s0 s) :
    Keep s0 (writeAt a0 a1 a2 a3 s) := by
  unfold writeAt
  repeat' first
    | with_reducible assumption
    | with_reducible apply keep_writeAct
    | split

end Sys2Proof.Machine
end

