-- ==== Sys2Proof/Laws/KeepWindow.lean ====
section
/-!
SUPPORT. Keeping: the operations of Window.
-/

namespace Sys2Proof.Machine

theorem keep_csrWrite {s0 : State} (a0 : Nat) (a1 : Nat) (a2 : Nat) (a3 : Nat) (a4 : Nat) (a5 : Who) (s : State) (h : Keep s0 s) :
    Keep s0 (csrWrite a0 a1 a2 a3 a4 a5 s) := by
  unfold csrWrite
  try extract_lets
  repeat' first
    | with_reducible assumption
    | with_reducible apply keep_writeAt
    | extract_lets
    | with_reducible apply keep_foldl
    | with_reducible apply keep_foldl2
    | with_reducible apply keep_foldl3
    | split
    | dsimp only
    | intro _

theorem keep_csrRead {s0 : State} (a0 : Nat) (a1 : Nat) (a2 : Nat) (s : State) (h : Keep s0 s) :
    Keep s0 (csrRead a0 a1 a2 s).2 := by
  unfold csrRead
  try extract_lets
  repeat' first
    | with_reducible assumption
    | with_reducible apply keep_readAt
    | with_reducible apply keep_State_takeFree
    | (with_reducible apply keep_readAt_e; · with_reducible assumption)
    | (with_reducible apply keep_State_takeFree_e; · with_reducible assumption)
    | extract_lets
    | with_reducible apply keep_foldl
    | with_reducible apply keep_foldl2
    | with_reducible apply keep_foldl3
    | split
    | dsimp only
    | intro _

theorem keep_csrRead_e {s0 : State} {a0 : Nat} {a1 : Nat} {a2 : Nat} {s t : State} {x} (e : csrRead a0 a1 a2 s = (x, t)) (h : Keep s0 s) : Keep s0 t := by
  have g := keep_csrRead a0 a1 a2 s h 
  rw [e] at g
  exact g

theorem keep_windowWrite {s0 : State} (a0 : Nat) (a1 : Nat) (a2 : Nat) (a3 : Nat) (a4 : Who) (s : State) (h : Keep s0 s) :
    Keep s0 (windowWrite a0 a1 a2 a3 a4 s).2 := by
  unfold windowWrite
  try extract_lets
  repeat' first
    | with_reducible assumption
    | with_reducible apply keep_csrWrite
    | extract_lets
    | split

theorem keep_windowWrite_e {s0 : State} {a0 : Nat} {a1 : Nat} {a2 : Nat} {a3 : Nat} {a4 : Who} {s t : State} {x} (e : windowWrite a0 a1 a2 a3 a4 s = (x, t)) (h : Keep s0 s) : Keep s0 t := by
  have g := keep_windowWrite a0 a1 a2 a3 a4 s h 
  rw [e] at g
  exact g

theorem keep_windowRead {s0 : State} (a0 : Nat) (a1 : Nat) (s : State) (h : Keep s0 s) :
    Keep s0 (windowRead a0 a1 s).2.2 := by
  unfold windowRead
  try extract_lets
  repeat' first
    | with_reducible assumption
    | with_reducible apply keep_csrRead
    | (with_reducible apply keep_csrRead_e; · with_reducible assumption)
    | extract_lets
    | split

theorem keep_windowRead_e {s0 : State} {a0 : Nat} {a1 : Nat} {s t : State} {x} {y} (e : windowRead a0 a1 s = (x, y, t)) (h : Keep s0 s) : Keep s0 t := by
  have g := keep_windowRead a0 a1 s h 
  rw [e] at g
  exact g

theorem keep_underWrite {s0 : State} (a0 : Req) (s : State) (h : Keep s0 s) :
    Keep s0 (underWrite a0 s) := by
  unfold underWrite
  try extract_lets
  repeat' first
    | with_reducible assumption
    | with_reducible apply keep_complete
    | with_reducible apply keep_windowWrite
    | (with_reducible apply keep_windowWrite_e; · with_reducible assumption)
    | extract_lets
    | split

theorem keep_underRead {s0 : State} (a0 : Req) (s : State) (h : Keep s0 s) :
    Keep s0 (underRead a0 s) := by
  unfold underRead
  try extract_lets
  repeat' first
    | with_reducible assumption
    | with_reducible apply keep_complete
    | with_reducible apply keep_windowRead
    | (with_reducible apply keep_windowRead_e; · with_reducible assumption)
    | extract_lets
    | split

theorem keep_registerWrite {s0 : State} (a0 : CsrIn) (s : State) (h : Keep s0 s) :
    Keep s0 (registerWrite a0 s) := by
  unfold registerWrite
  try extract_lets
  repeat' first
    | with_reducible assumption
    | with_reducible apply keep_underWrite
    | with_reducible apply keep_windowWrite
    | with_reducible apply keep_respond
    | (with_reducible apply keep_windowWrite_e; · with_reducible assumption)
    | extract_lets
    | split

theorem keep_registerRead {s0 : State} (a0 : CsrIn) (s : State) (h : Keep s0 s) :
    Keep s0 (registerRead a0 s) := by
  unfold registerRead
  try extract_lets
  repeat' first
    | with_reducible assumption
    | with_reducible apply keep_underRead
    | with_reducible apply keep_windowRead
    | with_reducible apply keep_respond
    | (with_reducible apply keep_windowRead_e; · with_reducible assumption)
    | extract_lets
    | split

theorem keep_badLine {s0 : State} : KeepAll s0 badLine := KeepAll.fault _

theorem keep_execRegisterWrite {s0 : State} (a0 : CsrIn) (s : State) (h : Keep s0 s) :
    KeepAll s0 (execRegisterWrite a0 s) := by
  unfold execRegisterWrite
  repeat' first
    | with_reducible assumption
    | with_reducible apply keep_registerWrite
    | with_reducible apply keep_badLine
    | with_reducible apply KeepAll.next
    | split

theorem keep_execRegisterReadClear {s0 : State} (a0 : CsrIn) (s : State) (h : Keep s0 s) :
    KeepAll s0 (execRegisterReadClear a0 s) := by
  unfold execRegisterReadClear
  repeat' first
    | with_reducible assumption
    | with_reducible apply keep_registerRead
    | with_reducible apply keep_badLine
    | with_reducible apply KeepAll.next
    | split

end Sys2Proof.Machine
end

