-- ==== Sys2Proof/Laws/KeepHostSide.lean ====
section
/-!
SUPPORT. Keeping: the operations of HostSide.
-/

namespace Sys2Proof.Machine

theorem keep_hostIssue {s0 : State} (a0 : Src) (a1 : Nat) (a2 : Nat) (a3 : Nat) (a4 : Bool) (a5 : BitVec 1024) (a6 : Option Atom) (a7 : Nat) (a8 : Gate) (s : State) (h : Keep s0 s) :
    Keep s0 (hostIssue a0 a1 a2 a3 a4 a5 a6 a7 a8 s) := by
  unfold hostIssue
  try extract_lets
  repeat' first
    | with_reducible assumption
    | with_reducible apply keep_State_takeId
    | with_reducible apply keep_releaseOne
    | (with_reducible apply keep_State_takeId_e; · with_reducible assumption)
    | extract_lets
    | split
    | dsimp only
    | with_reducible apply Keep.upd

theorem keep_opsanAccess {s0 : State} (a0 : OpsanF) (s : State) (h : Keep s0 s) :
    Keep s0 (opsanAccess a0 s) := by
  unfold opsanAccess
  repeat' first
    | with_reducible assumption
    | with_reducible apply keep_respond
    | with_reducible apply keep_hostIssue
    | with_reducible apply keep_releaseHeld
    | split

theorem keep_execOpsanAccess {s0 : State} (a0 : OpsanF) (s : State) (h : Keep s0 s) :
    KeepAll s0 (execOpsanAccess a0 s) := by
  unfold execOpsanAccess
  repeat' first
    | with_reducible assumption
    | with_reducible apply keep_opsanAccess
    | with_reducible apply keep_badLine
    | with_reducible apply KeepAll.next
    | split

theorem keep_pcieDma {s0 : State} (a0 : DmaF) (s : State) (h : Keep s0 s) :
    Keep s0 (pcieDma a0 s) := by
  unfold pcieDma
  repeat' first
    | with_reducible assumption
    | with_reducible apply keep_respond
    | with_reducible apply keep_hostIssue
    | split

theorem keep_execPcieDma {s0 : State} (a0 : DmaF) (s : State) (h : Keep s0 s) :
    KeepAll s0 (execPcieDma a0 s) := by
  unfold execPcieDma
  repeat' first
    | with_reducible assumption
    | with_reducible apply keep_pcieDma
    | with_reducible apply keep_badLine
    | with_reducible apply KeepAll.next
    | split

theorem keep_guestRequest {s0 : State} (a0 : GuestF) (s : State) (h : Keep s0 s) :
    Keep s0 (guestRequest a0 s) := by
  unfold guestRequest
  try extract_lets
  repeat' first
    | with_reducible assumption
    | with_reducible apply keep_respond
    | with_reducible apply keep_State_takeId
    | with_reducible apply keep_askXlt
    | (with_reducible apply keep_State_takeId_e; · with_reducible assumption)
    | extract_lets
    | split
    | dsimp only
    | with_reducible apply Keep.upd

theorem keep_execGuestRequest {s0 : State} (a0 : GuestF) (s : State) (h : Keep s0 s) :
    KeepAll s0 (execGuestRequest a0 s) := by
  unfold execGuestRequest
  repeat' first
    | with_reducible assumption
    | with_reducible apply keep_guestRequest
    | with_reducible apply keep_badLine
    | with_reducible apply KeepAll.next
    | split

end Sys2Proof.Machine
end

