-- ==== Sys2Proof/Laws/KeepResume.lean ====
section
/-!
SUPPORT. Keeping: the operations of Resume.
-/

namespace Sys2Proof.Machine

theorem keep_retryWaiter {s0 : State} (a0 : Nat) (a2 : XWait) (s : State) (h : Keep s0 s) :
    Keep s0 (retryWaiter a0 s a2) := by
  unfold retryWaiter
  repeat' first
    | with_reducible assumption
    | with_reducible apply keep_askXlt
    | split

theorem keep_failWaiter {s0 : State} (a0 : Nat) (a2 : XWait) (s : State) (h : Keep s0 s) :
    Keep s0 (failWaiter a0 s a2) := by
  unfold failWaiter
  repeat' first
    | with_reducible assumption
    | with_reducible apply keep_giveUp

theorem keep_openWaiting {s0 : State} (a0 : List FaultWait) (s : State) (h : Keep s0 s) :
    Keep s0 (openWaiting a0 s) := by
  unfold openWaiting
  try extract_lets
  repeat' first
    | with_reducible assumption
    | with_reducible apply keep_openFault
    | extract_lets
    | with_reducible apply keep_foldl
    | with_reducible apply keep_foldl2
    | with_reducible apply keep_foldl3
    | dsimp only
    | intro _
    | with_reducible apply Keep.upd

theorem keep_closeFault {s0 : State} (a0 : FaultRec) (a1 : Nat → State → XWait → State) (s : State) (h : Keep s0 s) (h1 : ∀ u0 z u2, Keep s0 z → Keep s0 (a1 u0 z u2)) :
    Keep s0 (closeFault a0 a1 s) := by
  unfold closeFault
  try extract_lets
  repeat' first
    | with_reducible assumption
    | with_reducible apply h1
    | with_reducible apply keep_openWaiting
    | extract_lets
    | with_reducible apply keep_foldl
    | with_reducible apply keep_foldl2
    | with_reducible apply keep_foldl3
    | dsimp only
    | intro _
    | with_reducible apply Keep.upd

theorem keep_xresp {s0 : State} (a0 : Nat) (a1 : Nat → State → XWait → State) (s : State) (h : Keep s0 s) (h1 : ∀ u0 z u2, Keep s0 z → Keep s0 (a1 u0 z u2)) :
    Keep s0 (xresp a0 a1 s) := by
  unfold xresp
  repeat' first
    | with_reducible assumption
    | with_reducible apply h1
    | with_reducible apply keep_closeFault
    | with_reducible apply keep_flagF
    | split

theorem keep_execXrespRetry {s0 : State} (a0 : BitVec 16) (s : State) (h : Keep s0 s) :
    KeepAll s0 (execXrespRetry a0 s) := by
  unfold execXrespRetry
  repeat' first
    | with_reducible assumption
    | with_reducible apply keep_xresp
    | with_reducible apply keep_retryWaiter
    | with_reducible apply KeepAll.next
    | dsimp only
    | intro _

theorem keep_execXrespFail {s0 : State} (a0 : BitVec 16) (s : State) (h : Keep s0 s) :
    KeepAll s0 (execXrespFail a0 s) := by
  unfold execXrespFail
  repeat' first
    | with_reducible assumption
    | with_reducible apply keep_xresp
    | with_reducible apply keep_failWaiter
    | with_reducible apply KeepAll.next
    | dsimp only
    | intro _

theorem keep_faultTimeout {s0 : State} (a0 : Nat) (s : State) (h : Keep s0 s) :
    Keep s0 (faultTimeout a0 s) := by
  unfold faultTimeout
  try extract_lets
  repeat' first
    | with_reducible assumption
    | with_reducible apply keep_closeFault
    | with_reducible apply keep_failWaiter
    | with_reducible apply keep_incF
    | with_reducible apply keep_flagF
    | extract_lets
    | split
    | dsimp only
    | intro _

theorem keep_execFaultTimeout {s0 : State} (a0 : Fin 256) (s : State) (h : Keep s0 s) :
    KeepAll s0 (execFaultTimeout a0 s) := by
  unfold execFaultTimeout
  repeat' first
    | with_reducible assumption
    | with_reducible apply keep_faultTimeout
    | with_reducible apply KeepAll.next

end Sys2Proof.Machine
end

