-- ==== Sys2Proof/Laws/KeepScalar.lean ====
section
/-!
SUPPORT. Keeping: the operations of Scalar.
-/

namespace Sys2Proof.Machine

theorem keep_scalarR {s0 : State} (a0 : Nat) (a1 : Instr) (a2 : ScR) (a3 : Nat) (a4 : BitVec 64 → BitVec 64 → BitVec 64) (s : State) (h : Keep s0 s) :
    Keep s0 (scalarR a0 a1 a2 a3 a4 s) := by
  unfold scalarR
  repeat' first
    | with_reducible assumption
    | with_reducible apply keep_issueSlot
    | with_reducible apply keep_deliver
    | dsimp only
    | intro _

theorem keep_scalarI {s0 : State} (a0 : Nat) (a1 : Instr) (a2 : ScI) (a3 : BitVec 64 → BitVec 64 → BitVec 64) (s : State) (h : Keep s0 s) :
    Keep s0 (scalarI a0 a1 a2 a3 s) := by
  unfold scalarI
  repeat' first
    | with_reducible assumption
    | with_reducible apply keep_issueSlot
    | with_reducible apply keep_deliver
    | dsimp only
    | intro _

theorem keep_execAdd {s0 : State} (a0 : CoreId) (a1 : ScR) (s : State) (h : Keep s0 s) :
    KeepAll s0 (execAdd a0 a1 s) := by
  unfold execAdd
  repeat' first
    | with_reducible assumption
    | with_reducible apply keep_scalarR
    | with_reducible apply KeepAll.next

theorem keep_execSub {s0 : State} (a0 : CoreId) (a1 : ScR) (s : State) (h : Keep s0 s) :
    KeepAll s0 (execSub a0 a1 s) := by
  unfold execSub
  repeat' first
    | with_reducible assumption
    | with_reducible apply keep_scalarR
    | with_reducible apply KeepAll.next

theorem keep_execAnd {s0 : State} (a0 : CoreId) (a1 : ScR) (s : State) (h : Keep s0 s) :
    KeepAll s0 (execAnd a0 a1 s) := by
  unfold execAnd
  repeat' first
    | with_reducible assumption
    | with_reducible apply keep_scalarR
    | with_reducible apply KeepAll.next

theorem keep_execOr {s0 : State} (a0 : CoreId) (a1 : ScR) (s : State) (h : Keep s0 s) :
    KeepAll s0 (execOr a0 a1 s) := by
  unfold execOr
  repeat' first
    | with_reducible assumption
    | with_reducible apply keep_scalarR
    | with_reducible apply KeepAll.next

theorem keep_execXor {s0 : State} (a0 : CoreId) (a1 : ScR) (s : State) (h : Keep s0 s) :
    KeepAll s0 (execXor a0 a1 s) := by
  unfold execXor
  repeat' first
    | with_reducible assumption
    | with_reducible apply keep_scalarR
    | with_reducible apply KeepAll.next

theorem keep_execSll {s0 : State} (a0 : CoreId) (a1 : ScR) (s : State) (h : Keep s0 s) :
    KeepAll s0 (execSll a0 a1 s) := by
  unfold execSll
  repeat' first
    | with_reducible assumption
    | with_reducible apply keep_scalarR
    | with_reducible apply KeepAll.next

theorem keep_execSrl {s0 : State} (a0 : CoreId) (a1 : ScR) (s : State) (h : Keep s0 s) :
    KeepAll s0 (execSrl a0 a1 s) := by
  unfold execSrl
  repeat' first
    | with_reducible assumption
    | with_reducible apply keep_scalarR
    | with_reducible apply KeepAll.next

theorem keep_execSra {s0 : State} (a0 : CoreId) (a1 : ScR) (s : State) (h : Keep s0 s) :
    KeepAll s0 (execSra a0 a1 s) := by
  unfold execSra
  repeat' first
    | with_reducible assumption
    | with_reducible apply keep_scalarR
    | with_reducible apply KeepAll.next

theorem keep_execMul {s0 : State} (a0 : CoreId) (a1 : ScR) (s : State) (h : Keep s0 s) :
    KeepAll s0 (execMul a0 a1 s) := by
  unfold execMul
  repeat' first
    | with_reducible assumption
    | with_reducible apply keep_scalarR
    | with_reducible apply KeepAll.next

theorem keep_execMulhu {s0 : State} (a0 : CoreId) (a1 : ScR) (s : State) (h : Keep s0 s) :
    KeepAll s0 (execMulhu a0 a1 s) := by
  unfold execMulhu
  repeat' first
    | with_reducible assumption
    | with_reducible apply keep_scalarR
    | with_reducible apply KeepAll.next

theorem keep_execMin {s0 : State} (a0 : CoreId) (a1 : ScR) (s : State) (h : Keep s0 s) :
    KeepAll s0 (execMin a0 a1 s) := by
  unfold execMin
  repeat' first
    | with_reducible assumption
    | with_reducible apply keep_scalarR
    | with_reducible apply KeepAll.next

theorem keep_execMax {s0 : State} (a0 : CoreId) (a1 : ScR) (s : State) (h : Keep s0 s) :
    KeepAll s0 (execMax a0 a1 s) := by
  unfold execMax
  repeat' first
    | with_reducible assumption
    | with_reducible apply keep_scalarR
    | with_reducible apply KeepAll.next

theorem keep_execMinu {s0 : State} (a0 : CoreId) (a1 : ScR) (s : State) (h : Keep s0 s) :
    KeepAll s0 (execMinu a0 a1 s) := by
  unfold execMinu
  repeat' first
    | with_reducible assumption
    | with_reducible apply keep_scalarR
    | with_reducible apply KeepAll.next

theorem keep_execMaxu {s0 : State} (a0 : CoreId) (a1 : ScR) (s : State) (h : Keep s0 s) :
    KeepAll s0 (execMaxu a0 a1 s) := by
  unfold execMaxu
  repeat' first
    | with_reducible assumption
    | with_reducible apply keep_scalarR
    | with_reducible apply KeepAll.next

theorem keep_execSlt {s0 : State} (a0 : CoreId) (a1 : ScR) (s : State) (h : Keep s0 s) :
    KeepAll s0 (execSlt a0 a1 s) := by
  unfold execSlt
  repeat' first
    | with_reducible assumption
    | with_reducible apply keep_scalarR
    | with_reducible apply KeepAll.next

theorem keep_execSltu {s0 : State} (a0 : CoreId) (a1 : ScR) (s : State) (h : Keep s0 s) :
    KeepAll s0 (execSltu a0 a1 s) := by
  unfold execSltu
  repeat' first
    | with_reducible assumption
    | with_reducible apply keep_scalarR
    | with_reducible apply KeepAll.next

theorem keep_doSel {s0 : State} (a0 : Nat) (a1 : Instr) (a2 : ScR) (s : State) (h : Keep s0 s) :
    Keep s0 (doSel a0 a1 a2 s) := by
  unfold doSel
  try extract_lets
  repeat' first
    | with_reducible assumption
    | with_reducible apply keep_issueSlot
    | with_reducible apply keep_deliver
    | extract_lets
    | split
    | dsimp only
    | intro _

theorem keep_execSel {s0 : State} (a0 : CoreId) (a1 : ScR) (s : State) (h : Keep s0 s) :
    KeepAll s0 (execSel a0 a1 s) := by
  unfold execSel
  repeat' first
    | with_reducible assumption
    | with_reducible apply keep_doSel
    | with_reducible apply KeepAll.next

theorem keep_execAddi {s0 : State} (a0 : CoreId) (a1 : ScI) (s : State) (h : Keep s0 s) :
    KeepAll s0 (execAddi a0 a1 s) := by
  unfold execAddi
  repeat' first
    | with_reducible assumption
    | with_reducible apply keep_scalarI
    | with_reducible apply KeepAll.next

theorem keep_execAndi {s0 : State} (a0 : CoreId) (a1 : ScI) (s : State) (h : Keep s0 s) :
    KeepAll s0 (execAndi a0 a1 s) := by
  unfold execAndi
  repeat' first
    | with_reducible assumption
    | with_reducible apply keep_scalarI
    | with_reducible apply KeepAll.next

theorem keep_execOri {s0 : State} (a0 : CoreId) (a1 : ScI) (s : State) (h : Keep s0 s) :
    KeepAll s0 (execOri a0 a1 s) := by
  unfold execOri
  repeat' first
    | with_reducible assumption
    | with_reducible apply keep_scalarI
    | with_reducible apply KeepAll.next

theorem keep_execXori {s0 : State} (a0 : CoreId) (a1 : ScI) (s : State) (h : Keep s0 s) :
    KeepAll s0 (execXori a0 a1 s) := by
  unfold execXori
  repeat' first
    | with_reducible assumption
    | with_reducible apply keep_scalarI
    | with_reducible apply KeepAll.next

theorem keep_execSlli {s0 : State} (a0 : CoreId) (a1 : ScI) (s : State) (h : Keep s0 s) :
    KeepAll s0 (execSlli a0 a1 s) := by
  unfold execSlli
  repeat' first
    | with_reducible assumption
    | with_reducible apply keep_scalarI
    | with_reducible apply KeepAll.next

theorem keep_execSrli {s0 : State} (a0 : CoreId) (a1 : ScI) (s : State) (h : Keep s0 s) :
    KeepAll s0 (execSrli a0 a1 s) := by
  unfold execSrli
  repeat' first
    | with_reducible assumption
    | with_reducible apply keep_scalarI
    | with_reducible apply KeepAll.next

theorem keep_execSrai {s0 : State} (a0 : CoreId) (a1 : ScI) (s : State) (h : Keep s0 s) :
    KeepAll s0 (execSrai a0 a1 s) := by
  unfold execSrai
  repeat' first
    | with_reducible assumption
    | with_reducible apply keep_scalarI
    | with_reducible apply KeepAll.next

theorem keep_execLui {s0 : State} (a0 : CoreId) (a1 : ScI) (s : State) (h : Keep s0 s) :
    KeepAll s0 (execLui a0 a1 s) := by
  unfold execLui
  repeat' first
    | with_reducible assumption
    | with_reducible apply keep_scalarI
    | with_reducible apply KeepAll.next

theorem keep_doCsrr {s0 : State} (a0 : Nat) (a1 : Instr) (a2 : ScI) (s : State) (h : Keep s0 s) :
    Keep s0 (doCsrr a0 a1 a2 s) := by
  unfold doCsrr
  repeat' first
    | with_reducible assumption
    | with_reducible apply keep_issueSlot
    | with_reducible apply keep_deliver
    | dsimp only
    | intro _

theorem keep_execCsrr {s0 : State} (a0 : CoreId) (a1 : ScI) (s : State) (h : Keep s0 s) :
    KeepAll s0 (execCsrr a0 a1 s) := by
  unfold execCsrr
  repeat' first
    | with_reducible assumption
    | with_reducible apply keep_doCsrr
    | with_reducible apply KeepAll.next

end Sys2Proof.Machine
end

