-- ==== Sys2Proof/Laws/KeepSideband.lean ====
section
/-!
SUPPORT. Keeping: the operations of Sideband.
-/

namespace Sys2Proof.Machine

theorem keep_i3cRespond {s0 : State} (a0 : Nat) (a1 : Nat) (s : State) (h : Keep s0 s) :
    Keep s0 (i3cRespond a0 a1 s) := by
  unfold i3cRespond
  try extract_lets
  repeat' first
    | with_reducible assumption
    | extract_lets
    | dsimp only
    | with_reducible apply Keep.upd

theorem keep_i3cServe {s0 : State} (a0 : State → State) (s : State) (h : Keep s0 s) (h0 : ∀ z, Keep s0 z → Keep s0 (a0 z)) :
    Keep s0 (i3cServe a0 s) := by
  unfold i3cServe
  repeat' first
    | with_reducible assumption
    | with_reducible apply h0
    | split

theorem keep_execStatus {s0 : State}  (s : State) (h : Keep s0 s) :
    KeepAll s0 (execStatus s) := by
  unfold execStatus
  repeat' first
    | with_reducible assumption
    | with_reducible apply keep_i3cServe
    | with_reducible apply keep_i3cRespond
    | with_reducible apply KeepAll.next
    | dsimp only
    | intro _

theorem keep_execReset {s0 : State}  (s : State) (h : Keep s0 s) :
    KeepAll s0 (execReset s) := by
  unfold execReset
  repeat' first
    | with_reducible assumption
    | with_reducible apply keep_i3cServe
    | with_reducible apply keep_i3cRespond
    | with_reducible apply keep_i3cReset
    | with_reducible apply KeepAll.next
    | dsimp only
    | intro _

theorem keep_i3cRead {s0 : State} (a0 : Nat) (s : State) (h : Keep s0 s) :
    Keep s0 (i3cRead a0 s) := by
  unfold i3cRead
  try extract_lets
  repeat' first
    | with_reducible assumption
    | with_reducible apply keep_i3cRespond
    | with_reducible apply keep_csrRead
    | (with_reducible apply keep_csrRead_e; · with_reducible assumption)
    | extract_lets
    | split

theorem keep_execRead {s0 : State} (a0 : BitVec 32) (s : State) (h : Keep s0 s) :
    KeepAll s0 (execRead a0 s) := by
  unfold execRead
  repeat' first
    | with_reducible assumption
    | with_reducible apply keep_i3cServe
    | with_reducible apply keep_i3cRead
    | with_reducible apply KeepAll.next

theorem keep_recoveryPut {s0 : State} (a0 : Nat) (a1 : Nat) (a2 : Nat) (s : State) (h : Keep s0 s) :
    Keep s0 (recoveryPut a0 a1 a2 s) := by
  unfold recoveryPut
  try extract_lets
  repeat' first
    | with_reducible assumption
    | with_reducible apply keep_State_putSlot

theorem keep_recoveryWrite {s0 : State} (a0 : Nat) (a1 : Nat) (a2 : Nat) (s : State) (h : Keep s0 s) :
    Keep s0 (recoveryWrite a0 a1 a2 s) := by
  unfold recoveryWrite
  repeat' first
    | with_reducible assumption
    | with_reducible apply keep_i3cRespond
    | with_reducible apply keep_recoveryPut
    | split

theorem keep_execRecoveryWrite {s0 : State} (a0 : BitVec 32) (a1 : Nat) (a2 : BitVec 1920) (s : State) (h : Keep s0 s) :
    KeepAll s0 (execRecoveryWrite a0 a1 a2 s) := by
  unfold execRecoveryWrite
  repeat' first
    | with_reducible assumption
    | with_reducible apply keep_i3cServe
    | with_reducible apply keep_recoveryWrite
    | with_reducible apply KeepAll.next
    | with_reducible apply KeepAll.fault
    | split

theorem keep_recover {s0 : State} (a0 : Nat) (a1 : ImgIn) (s : State) (h : Keep s0 s) :
    Keep s0 (recover a0 a1 s).2 := by
  unfold recover
  try extract_lets
  repeat' first
    | with_reducible assumption
    | with_reducible apply keep_State_putSlot
    | with_reducible apply keep_toStage
    | with_reducible apply keep_setF
    | with_reducible apply keep_setSlot
    | extract_lets
    | split

theorem keep_recover_e {s0 : State} {a0 : Nat} {a1 : ImgIn} {s t : State} {x} (e : recover a0 a1 s = (x, t)) (h : Keep s0 s) : Keep s0 t := by
  have g := keep_recover a0 a1 s h 
  rw [e] at g
  exact g

theorem keep_recoveryDone {s0 : State} (a0 : Nat) (a1 : ImgIn) (s : State) (h : Keep s0 s) :
    Keep s0 (recoveryDone a0 a1 s) := by
  unfold recoveryDone
  try extract_lets
  repeat' first
    | with_reducible assumption
    | with_reducible apply keep_recover
    | with_reducible apply keep_i3cRespond
    | with_reducible apply keep_State_takeFree
    | (with_reducible apply keep_recover_e; · with_reducible assumption)
    | (with_reducible apply keep_State_takeFree_e; · with_reducible assumption)
    | extract_lets
    | split

theorem keep_execRecoveryDone {s0 : State} (a0 : BitVec 64) (a1 : ImgIn) (s : State) (h : Keep s0 s) :
    KeepAll s0 (execRecoveryDone a0 a1 s) := by
  unfold execRecoveryDone
  repeat' first
    | with_reducible assumption
    | with_reducible apply keep_i3cServe
    | with_reducible apply keep_recoveryDone
    | with_reducible apply KeepAll.next

theorem keep_tftpWrite {s0 : State} (a0 : List (BitVec 8)) (a1 : ImgIn) (s : State) (h : Keep s0 s) :
    Keep s0 (tftpWrite a0 a1 s) := by
  unfold tftpWrite
  repeat' first
    | with_reducible assumption
    | with_reducible apply keep_recover
    | with_reducible apply keep_recoveryPut
    | with_reducible apply keep_State_putSlot
    | (with_reducible apply keep_recover_e; · with_reducible assumption)
    | split

theorem keep_execTftpWrite {s0 : State} (a0 : List (BitVec 8)) (a1 : ImgIn) (s : State) (h : Keep s0 s) :
    KeepAll s0 (execTftpWrite a0 a1 s) := by
  unfold execTftpWrite
  repeat' first
    | with_reducible assumption
    | with_reducible apply keep_tftpWrite
    | with_reducible apply KeepAll.next

theorem keep_i3cIbi {s0 : State} (a0 : IbiF) (s : State) (h : Keep s0 s) :
    Keep s0 (i3cIbi a0 s) := by
  unfold i3cIbi
  try extract_lets
  repeat' first
    | with_reducible assumption
    | extract_lets
    | split
    | dsimp only
    | with_reducible apply Keep.upd

theorem keep_execI3cIbi {s0 : State} (a0 : IbiF) (s : State) (h : Keep s0 s) :
    KeepAll s0 (execI3cIbi a0 s) := by
  unfold execI3cIbi
  repeat' first
    | with_reducible assumption
    | with_reducible apply keep_i3cServe
    | with_reducible apply keep_i3cIbi
    | with_reducible apply KeepAll.next

theorem keep_execDynamicAddressAssignment {s0 : State} (a0 : BitVec 7) (s : State) (h : Keep s0 s) :
    KeepAll s0 (execDynamicAddressAssignment a0 s) := by
  unfold execDynamicAddressAssignment
  try extract_lets
  repeat' first
    | with_reducible assumption
    | with_reducible apply keep_i3cServe
    | extract_lets
    | with_reducible apply KeepAll.next
    | dsimp only
    | intro _
    | with_reducible apply Keep.upd

end Sys2Proof.Machine
end

