-- ==== Sys2Proof/Laws/KeepVector.lean ====
section
/-!
SUPPORT. Keeping: the operations of Vector.
-/

namespace Sys2Proof.Machine

theorem keep_execVadd {s0 : State} (a0 : CoreId) (a1 : VecA) (s : State) (h : Keep s0 s) :
    KeepAll s0 (execVadd a0 a1 s) := by
  unfold execVadd
  repeat' first
    | with_reducible assumption
    | with_reducible apply keep_vecOp
    | with_reducible apply KeepAll.next

theorem keep_execVsub {s0 : State} (a0 : CoreId) (a1 : VecA) (s : State) (h : Keep s0 s) :
    KeepAll s0 (execVsub a0 a1 s) := by
  unfold execVsub
  repeat' first
    | with_reducible assumption
    | with_reducible apply keep_vecOp
    | with_reducible apply KeepAll.next

theorem keep_execVmul {s0 : State} (a0 : CoreId) (a1 : VecA) (s : State) (h : Keep s0 s) :
    KeepAll s0 (execVmul a0 a1 s) := by
  unfold execVmul
  repeat' first
    | with_reducible assumption
    | with_reducible apply keep_vecOp
    | with_reducible apply KeepAll.next

theorem keep_execVfma {s0 : State} (a0 : CoreId) (a1 : VecA) (s : State) (h : Keep s0 s) :
    KeepAll s0 (execVfma a0 a1 s) := by
  unfold execVfma
  repeat' first
    | with_reducible assumption
    | with_reducible apply keep_vecOp
    | with_reducible apply KeepAll.next

theorem keep_execVmin {s0 : State} (a0 : CoreId) (a1 : VecA) (s : State) (h : Keep s0 s) :
    KeepAll s0 (execVmin a0 a1 s) := by
  unfold execVmin
  repeat' first
    | with_reducible assumption
    | with_reducible apply keep_vecOp
    | with_reducible apply KeepAll.next

theorem keep_execVmax {s0 : State} (a0 : CoreId) (a1 : VecA) (s : State) (h : Keep s0 s) :
    KeepAll s0 (execVmax a0 a1 s) := by
  unfold execVmax
  repeat' first
    | with_reducible assumption
    | with_reducible apply keep_vecOp
    | with_reducible apply KeepAll.next

theorem keep_execVabs {s0 : State} (a0 : CoreId) (a1 : VecA) (s : State) (h : Keep s0 s) :
    KeepAll s0 (execVabs a0 a1 s) := by
  unfold execVabs
  repeat' first
    | with_reducible assumption
    | with_reducible apply keep_vecOp
    | with_reducible apply KeepAll.next

theorem keep_execVneg {s0 : State} (a0 : CoreId) (a1 : VecA) (s : State) (h : Keep s0 s) :
    KeepAll s0 (execVneg a0 a1 s) := by
  unfold execVneg
  repeat' first
    | with_reducible assumption
    | with_reducible apply keep_vecOp
    | with_reducible apply KeepAll.next

theorem keep_vecCompare {s0 : State} (a0 : Nat) (a1 : Instr) (a2 : VecA) (a3 : Fval → Fval → Bool) (s : State) (h : Keep s0 s) :
    Keep s0 (vecCompare a0 a1 a2 a3 s) := by
  unfold vecCompare
  try extract_lets
  repeat' first
    | with_reducible assumption
    | with_reducible apply keep_issueSlot
    | with_reducible apply keep_deliver
    | extract_lets
    | split
    | dsimp only
    | intro _

theorem keep_execVcmplt {s0 : State} (a0 : CoreId) (a1 : VecA) (s : State) (h : Keep s0 s) :
    KeepAll s0 (execVcmplt a0 a1 s) := by
  unfold execVcmplt
  repeat' first
    | with_reducible assumption
    | with_reducible apply keep_vecCompare
    | with_reducible apply KeepAll.next

theorem keep_execVcmple {s0 : State} (a0 : CoreId) (a1 : VecA) (s : State) (h : Keep s0 s) :
    KeepAll s0 (execVcmple a0 a1 s) := by
  unfold execVcmple
  repeat' first
    | with_reducible assumption
    | with_reducible apply keep_vecCompare
    | with_reducible apply KeepAll.next

theorem keep_execVcmpeq {s0 : State} (a0 : CoreId) (a1 : VecA) (s : State) (h : Keep s0 s) :
    KeepAll s0 (execVcmpeq a0 a1 s) := by
  unfold execVcmpeq
  repeat' first
    | with_reducible assumption
    | with_reducible apply keep_vecCompare
    | with_reducible apply KeepAll.next

theorem keep_doVsel {s0 : State} (a0 : Nat) (a1 : Instr) (a2 : VecA) (s : State) (h : Keep s0 s) :
    Keep s0 (doVsel a0 a1 a2 s) := by
  unfold doVsel
  try extract_lets
  repeat' first
    | with_reducible assumption
    | with_reducible apply keep_issueSlot
    | with_reducible apply keep_deliver
    | extract_lets
    | dsimp only
    | intro _

theorem keep_execVsel {s0 : State} (a0 : CoreId) (a1 : VecA) (s : State) (h : Keep s0 s) :
    KeepAll s0 (execVsel a0 a1 s) := by
  unfold execVsel
  repeat' first
    | with_reducible assumption
    | with_reducible apply keep_doVsel
    | with_reducible apply KeepAll.next

theorem keep_vecBits {s0 : State} (a0 : Nat) (a1 : Instr) (a2 : VecA) (a3 : BitVec 512 → BitVec 512 → BitVec 512) (s : State) (h : Keep s0 s) :
    Keep s0 (vecBits a0 a1 a2 a3 s) := by
  unfold vecBits
  try extract_lets
  repeat' first
    | with_reducible assumption
    | with_reducible apply keep_issueSlot
    | with_reducible apply keep_deliver
    | extract_lets
    | dsimp only
    | intro _

theorem keep_execVand {s0 : State} (a0 : CoreId) (a1 : VecA) (s : State) (h : Keep s0 s) :
    KeepAll s0 (execVand a0 a1 s) := by
  unfold execVand
  repeat' first
    | with_reducible assumption
    | with_reducible apply keep_vecBits
    | with_reducible apply KeepAll.next

theorem keep_execVor {s0 : State} (a0 : CoreId) (a1 : VecA) (s : State) (h : Keep s0 s) :
    KeepAll s0 (execVor a0 a1 s) := by
  unfold execVor
  repeat' first
    | with_reducible assumption
    | with_reducible apply keep_vecBits
    | with_reducible apply KeepAll.next

theorem keep_execVxor {s0 : State} (a0 : CoreId) (a1 : VecA) (s : State) (h : Keep s0 s) :
    KeepAll s0 (execVxor a0 a1 s) := by
  unfold execVxor
  repeat' first
    | with_reducible assumption
    | with_reducible apply keep_vecBits
    | with_reducible apply KeepAll.next

theorem keep_doVcvt {s0 : State} (a0 : Nat) (a1 : Instr) (a2 : VecA) (s : State) (h : Keep s0 s) :
    Keep s0 (doVcvt a0 a1 a2 s) := by
  unfold doVcvt
  try extract_lets
  repeat' first
    | with_reducible assumption
    | with_reducible apply keep_issueSlot
    | with_reducible apply keep_fpFlags
    | with_reducible apply keep_deliver
    | extract_lets
    | split
    | dsimp only
    | intro _

theorem keep_execVcvt {s0 : State} (a0 : CoreId) (a1 : VecA) (s : State) (h : Keep s0 s) :
    KeepAll s0 (execVcvt a0 a1 s) := by
  unfold execVcvt
  repeat' first
    | with_reducible assumption
    | with_reducible apply keep_doVcvt
    | with_reducible apply KeepAll.next

theorem keep_vecSpecial {s0 : State} (a0 : Nat) (a1 : Instr) (a2 : VecA) (a3 : Fval → Fval) (s : State) (h : Keep s0 s) :
    Keep s0 (vecSpecial a0 a1 a2 a3 s) := by
  unfold vecSpecial
  try extract_lets
  repeat' first
    | with_reducible assumption
    | with_reducible apply keep_vecOp

theorem keep_execVexp2 {s0 : State} (a0 : CoreId) (a1 : VecA) (s : State) (h : Keep s0 s) :
    KeepAll s0 (execVexp2 a0 a1 s) := by
  unfold execVexp2
  repeat' first
    | with_reducible assumption
    | with_reducible apply keep_vecSpecial
    | with_reducible apply KeepAll.next

theorem keep_execVlog2 {s0 : State} (a0 : CoreId) (a1 : VecA) (s : State) (h : Keep s0 s) :
    KeepAll s0 (execVlog2 a0 a1 s) := by
  unfold execVlog2
  repeat' first
    | with_reducible assumption
    | with_reducible apply keep_vecSpecial
    | with_reducible apply KeepAll.next

theorem keep_execVrcp {s0 : State} (a0 : CoreId) (a1 : VecA) (s : State) (h : Keep s0 s) :
    KeepAll s0 (execVrcp a0 a1 s) := by
  unfold execVrcp
  repeat' first
    | with_reducible assumption
    | with_reducible apply keep_vecSpecial
    | with_reducible apply KeepAll.next

theorem keep_execVrsqrt {s0 : State} (a0 : CoreId) (a1 : VecA) (s : State) (h : Keep s0 s) :
    KeepAll s0 (execVrsqrt a0 a1 s) := by
  unfold execVrsqrt
  repeat' first
    | with_reducible assumption
    | with_reducible apply keep_vecSpecial
    | with_reducible apply KeepAll.next

theorem keep_execVsqrt {s0 : State} (a0 : CoreId) (a1 : VecA) (s : State) (h : Keep s0 s) :
    KeepAll s0 (execVsqrt a0 a1 s) := by
  unfold execVsqrt
  repeat' first
    | with_reducible assumption
    | with_reducible apply keep_vecSpecial
    | with_reducible apply KeepAll.next

theorem keep_execVtanh {s0 : State} (a0 : CoreId) (a1 : VecA) (s : State) (h : Keep s0 s) :
    KeepAll s0 (execVtanh a0 a1 s) := by
  unfold execVtanh
  repeat' first
    | with_reducible assumption
    | with_reducible apply keep_vecSpecial
    | with_reducible apply KeepAll.next

theorem keep_execVred {s0 : State} (a0 : CoreId) (a1 : VecA) (s : State) (h : Keep s0 s) :
    KeepAll s0 (execVred a0 a1 s) := by
  unfold execVred
  try extract_lets
  repeat' first
    | with_reducible assumption
    | with_reducible apply keep_vecLanes
    | extract_lets
    | with_reducible apply KeepAll.next

theorem keep_execVhalf {s0 : State} (a0 : CoreId) (a1 : VecA) (s : State) (h : Keep s0 s) :
    KeepAll s0 (execVhalf a0 a1 s) := by
  unfold execVhalf
  try extract_lets
  repeat' first
    | with_reducible assumption
    | with_reducible apply keep_vecLanes
    | extract_lets
    | with_reducible apply KeepAll.next

theorem keep_execVperm {s0 : State} (a0 : CoreId) (a1 : VecA) (s : State) (h : Keep s0 s) :
    KeepAll s0 (execVperm a0 a1 s) := by
  unfold execVperm
  repeat' first
    | with_reducible assumption
    | with_reducible apply keep_vecLanes
    | with_reducible apply KeepAll.next

theorem keep_execVadd128 {s0 : State} (a0 : CoreId) (a1 : VecA) (s : State) (h : Keep s0 s) :
    KeepAll s0 (execVadd128 a0 a1 s) := by
  unfold execVadd128
  repeat' first
    | with_reducible assumption
    | with_reducible apply keep_vecLanes
    | with_reducible apply KeepAll.next

theorem keep_vecMem {s0 : State} (a0 : Nat) (a1 : Instr) (a2 : Bool) (a3 : Core → Nat → List Acc) (s : State) (h : Keep s0 s) :
    Keep s0 (vecMem a0 a1 a2 a3 s) := by
  unfold vecMem
  try extract_lets
  repeat' first
    | with_reducible assumption
    | with_reducible apply keep_issueSlot
    | with_reducible apply keep_flagF
    | with_reducible apply keep_schedule
    | with_reducible apply keep_State_putCore
    | extract_lets
    | split
    | dsimp only
    | intro _

theorem keep_execVld {s0 : State} (a0 : CoreId) (a1 : VecM) (s : State) (h : Keep s0 s) :
    KeepAll s0 (execVld a0 a1 s) := by
  unfold execVld
  repeat' first
    | with_reducible assumption
    | with_reducible apply keep_vecMem
    | with_reducible apply KeepAll.next

theorem keep_execVst {s0 : State} (a0 : CoreId) (a1 : VecM) (s : State) (h : Keep s0 s) :
    KeepAll s0 (execVst a0 a1 s) := by
  unfold execVst
  try extract_lets
  repeat' first
    | with_reducible assumption
    | with_reducible apply keep_vecMem
    | extract_lets
    | with_reducible apply KeepAll.next

theorem keep_execVgather {s0 : State} (a0 : CoreId) (a1 : VecM) (s : State) (h : Keep s0 s) :
    KeepAll s0 (execVgather a0 a1 s) := by
  unfold execVgather
  repeat' first
    | with_reducible assumption
    | with_reducible apply keep_vecMem
    | with_reducible apply KeepAll.next

theorem keep_execVscatter {s0 : State} (a0 : CoreId) (a1 : VecM) (s : State) (h : Keep s0 s) :
    KeepAll s0 (execVscatter a0 a1 s) := by
  unfold execVscatter
  repeat' first
    | with_reducible assumption
    | with_reducible apply keep_vecMem
    | with_reducible apply KeepAll.next

theorem keep_execVbcasti {s0 : State} (a0 : CoreId) (a1 : VecI) (s : State) (h : Keep s0 s) :
    KeepAll s0 (execVbcasti a0 a1 s) := by
  unfold execVbcasti
  repeat' first
    | with_reducible assumption
    | with_reducible apply keep_vecLanes
    | with_reducible apply KeepAll.next

theorem keep_execVfromx {s0 : State} (a0 : CoreId) (a1 : VecX) (s : State) (h : Keep s0 s) :
    KeepAll s0 (execVfromx a0 a1 s) := by
  unfold execVfromx
  repeat' first
    | with_reducible assumption
    | with_reducible apply keep_vecLanes
    | with_reducible apply KeepAll.next

theorem keep_doVtox {s0 : State} (a0 : Nat) (a1 : Instr) (a2 : VecX) (s : State) (h : Keep s0 s) :
    Keep s0 (doVtox a0 a1 a2 s) := by
  unfold doVtox
  try extract_lets
  repeat' first
    | with_reducible assumption
    | with_reducible apply keep_issueSlot
    | with_reducible apply keep_deliver
    | extract_lets
    | dsimp only
    | intro _

theorem keep_execVtox {s0 : State} (a0 : CoreId) (a1 : VecX) (s : State) (h : Keep s0 s) :
    KeepAll s0 (execVtox a0 a1 s) := by
  unfold execVtox
  repeat' first
    | with_reducible assumption
    | with_reducible apply keep_doVtox
    | with_reducible apply KeepAll.next

end Sys2Proof.Machine
end

