-- ==== Sys2Proof/Laws/KeepExec.lean ====
section
/-!
SUPPORT. Keeping: every command keeps the state.
-/

namespace Sys2Proof.Machine

/-- Whatever next state a command answers, the waiting commands are the same, and it is sound if the state before was. -/
theorem keep_exec {s0 : State} (c : Instr) (s : State) (hk : Keep s0 s) : KeepAll s0 (exec c s) := by
  cases c with
  | registerWrite x => exact keep_execRegisterWrite x s hk
  | registerReadClear x => exact keep_execRegisterReadClear x s hk
  | dieFence d why => exact keep_execDieFence d why s hk
  | fenceReturn d => exact keep_execFenceReturn d s hk
  | bgOwnerWrite g v => exact keep_execBgOwnerWrite g v s hk
  | nop c slot => exact keep_execNop c slot s hk
  | order c o => exact keep_execOrder c o s hk
  | gridPresentStart c => exact keep_execGridPresentStart c s hk
  | gridDrain c => exact keep_execGridDrain c s hk
  | vadd c a => exact keep_execVadd c a s hk
  | vsub c a => exact keep_execVsub c a s hk
  | vmul c a => exact keep_execVmul c a s hk
  | vfma c a => exact keep_execVfma c a s hk
  | vmin c a => exact keep_execVmin c a s hk
  | vmax c a => exact keep_execVmax c a s hk
  | vabs c a => exact keep_execVabs c a s hk
  | vneg c a => exact keep_execVneg c a s hk
  | vcmplt c a => exact keep_execVcmplt c a s hk
  | vcmple c a => exact keep_execVcmple c a s hk
  | vcmpeq c a => exact keep_execVcmpeq c a s hk
  | vsel c a => exact keep_execVsel c a s hk
  | vand c a => exact keep_execVand c a s hk
  | vor c a => exact keep_execVor c a s hk
  | vxor c a => exact keep_execVxor c a s hk
  | vcvt c a => exact keep_execVcvt c a s hk
  | vexp2 c a => exact keep_execVexp2 c a s hk
  | vlog2 c a => exact keep_execVlog2 c a s hk
  | vrcp c a => exact keep_execVrcp c a s hk
  | vrsqrt c a => exact keep_execVrsqrt c a s hk
  | vsqrt c a => exact keep_execVsqrt c a s hk
  | vtanh c a => exact keep_execVtanh c a s hk
  | vred c a => exact keep_execVred c a s hk
  | vhalf c a => exact keep_execVhalf c a s hk
  | vperm c a => exact keep_execVperm c a s hk
  | vadd128 c a => exact keep_execVadd128 c a s hk
  | vld c m => exact keep_execVld c m s hk
  | vst c m => exact keep_execVst c m s hk
  | vgather c m => exact keep_execVgather c m s hk
  | vscatter c m => exact keep_execVscatter c m s hk
  | vbcasti c v => exact keep_execVbcasti c v s hk
  | vfromx c v => exact keep_execVfromx c v s hk
  | vtox c v => exact keep_execVtox c v s hk
  | add c r => exact keep_execAdd c r s hk
  | sub c r => exact keep_execSub c r s hk
  | and c r => exact keep_execAnd c r s hk
  | or c r => exact keep_execOr c r s hk
  | xor c r => exact keep_execXor c r s hk
  | sll c r => exact keep_execSll c r s hk
  | srl c r => exact keep_execSrl c r s hk
  | sra c r => exact keep_execSra c r s hk
  | mul c r => exact keep_execMul c r s hk
  | mulhu c r => exact keep_execMulhu c r s hk
  | min c r => exact keep_execMin c r s hk
  | max c r => exact keep_execMax c r s hk
  | minu c r => exact keep_execMinu c r s hk
  | maxu c r => exact keep_execMaxu c r s hk
  | slt c r => exact keep_execSlt c r s hk
  | sltu c r => exact keep_execSltu c r s hk
  | sel c r => exact keep_execSel c r s hk
  | addi c r => exact keep_execAddi c r s hk
  | andi c r => exact keep_execAndi c r s hk
  | ori c r => exact keep_execOri c r s hk
  | xori c r => exact keep_execXori c r s hk
  | slli c r => exact keep_execSlli c r s hk
  | srli c r => exact keep_execSrli c r s hk
  | srai c r => exact keep_execSrai c r s hk
  | lui c r => exact keep_execLui c r s hk
  | csrr c r => exact keep_execCsrr c r s hk
  | ldx c xd xbase off => exact keep_execLdx c xd xbase off s hk
  | stx c xs xbase off => exact keep_execStx c xs xbase off s hk
  | copy c m => exact keep_execCopy c m s hk
  | fill c m => exact keep_execFill c m s hk
  | csrw c xs off => exact keep_execCsrw c xs off s hk
  | waitf c flag keep => exact keep_execWaitf c flag keep s hk
  | post c target flag => exact keep_execPost c target flag s hk
  | sync c level => exact keep_execSync c level s hk
  | syncRelease scope => exact keep_execSyncRelease scope s hk
  | skip c n => exact keep_execSkip c n s hk
  | loop c l => exact keep_execLoop c l s hk
  | kick c program => exact keep_execKick c program s hk
  | phase c tag => exact keep_execPhase c tag s hk
  | halt c => exact keep_execHalt c s hk
  | coreFinish c => exact keep_execCoreFinish c s hk
  | ibRefill b stream block => exact keep_execIbRefill b stream block s hk
  | ibRefillReturn b stream block line parity => exact keep_execIbRefillReturn b stream block line parity s hk
  | spadOutsideAccess c x => exact keep_execSpadOutsideAccess c x s hk
  | spadOutsideGrant c bank => exact keep_execSpadOutsideGrant c bank s hk
  | spadAliasWrite c bank => exact keep_execSpadAliasWrite c bank s hk
  | spadAtomic c id off a w => exact keep_execSpadAtomic c id off a w s hk
  | bgRetentionEnter g => exact keep_execBgRetentionEnter g s hk
  | bgWake g => exact keep_execBgWake g s hk
  | bgWakeDone g => exact keep_execBgWakeDone g s hk
  | bedcLookup b id pa f => exact keep_execBedcLookup b id pa f s hk
  | bedcFillReturn b id => exact keep_execBedcFillReturn b id s hk
  | bedcPrefetch b pa pol => exact keep_execBedcPrefetch b pa pol s hk
  | mergeWrite b w => exact keep_execMergeWrite b w s hk
  | mergeIdleExpiry b => exact keep_execMergeIdleExpiry b s hk
  | mergeAck b id => exact keep_execMergeAck b id s hk
  | invShared b => exact keep_execInvShared b s hk
  | invAll b => exact keep_execInvAll b s hk
  | drain b => exact keep_execDrain b s hk
  | dramRequest a => exact keep_execDramRequest a s hk
  | dramAtomic a => exact keep_execDramAtomic a s hk
  | bisnp pa owned dirty => exact keep_execBisnp pa owned dirty s hk
  | dramWriteAck id => exact keep_execDramWriteAck id s hk
  | dramReadReturn id => exact keep_execDramReadReturn id s hk
  | oaddAccept a => exact keep_execOaddAccept a s hk
  | stkRegionWrite k0 v => exact keep_execStkRegionWrite k0 v s hk
  | regionInvalidDone k0 => exact keep_execRegionInvalidDone k0 s hk
  | clearFault k0 => exact keep_execClearFault k0 s hk
  | regulatorPeriod st => exact keep_execRegulatorPeriod st s hk
  | refreshDue st => exact keep_execRefreshDue st s hk
  | patrolRead st => exact keep_execPatrolRead st s hk
  | ceWriteback st => exact keep_execCeWriteback st s hk
  | stackTrain p a b => exact keep_execStackTrain p a b s hk
  | stackRecalibrate st => exact keep_execStackRecalibrate st s hk
  | selfRefreshEntry st ordered => exact keep_execSelfRefreshEntry st ordered s hk
  | programStart b => exact keep_execProgramStart b s hk
  | moveIssue b => exact keep_execMoveIssue b s hk
  | moveNop b prog idx => exact keep_execMoveNop b prog idx s hk
  | moveLoad b prog idx => exact keep_execMoveLoad b prog idx s hk
  | moveStore b prog idx => exact keep_execMoveStore b prog idx s hk
  | moveTcopy b prog idx => exact keep_execMoveTcopy b prog idx s hk
  | moveCopy b prog idx => exact keep_execMoveCopy b prog idx s hk
  | moveAtomic b prog idx => exact keep_execMoveAtomic b prog idx s hk
  | movePrefetch b prog idx => exact keep_execMovePrefetch b prog idx s hk
  | moveFetch4 b prog idx => exact keep_execMoveFetch4 b prog idx s hk
  | t4Done b tag error => exact keep_execT4Done b tag error s hk
  | moveComplete b prog idx => exact keep_execMoveComplete b prog idx s hk
  | moveError b prog idx => exact keep_execMoveError b prog idx s hk
  | fbDecide p group decide => exact keep_execFbDecide p group decide s hk
  | fbAgree p group decide => exact keep_execFbAgree p group decide s hk
  | xltWalk x => exact keep_execXltWalk x s hk
  | xltFillReturn id => exact keep_execXltFillReturn id s hk
  | faultRecordOpen x cause => exact keep_execFaultRecordOpen x cause s hk
  | fqHeadWrite v => exact keep_execFqHeadWrite v s hk
  | faultTimeout slot => exact keep_execFaultTimeout slot s hk
  | xinvalPage f => exact keep_execXinvalPage f s hk
  | xinvalRange f => exact keep_execXinvalRange f s hk
  | xinvalContext f => exact keep_execXinvalContext f s hk
  | xinvalAll f => exact keep_execXinvalAll f s hk
  | xinvalDrained id recv => exact keep_execXinvalDrained id recv s hk
  | xinvalComplete id => exact keep_execXinvalComplete id s hk
  | xrespRetry id => exact keep_execXrespRetry id s hk
  | xrespFail id => exact keep_execXrespFail id s hk
  | ctxDisable k0 => exact keep_execCtxDisable k0 s hk
  | cmdDbTail ring v who => exact keep_execCmdDbTail ring v who s hk
  | cmdDbCqHead ring v who => exact keep_execCmdDbCqHead ring v who s hk
  | cmdDbHead ring v who => exact keep_execCmdDbHead ring v who s hk
  | ringCfgWrite ring v => exact keep_execRingCfgWrite ring v s hk
  | descFetch => exact keep_execDescFetch s hk
  | descNop ring idx => exact keep_execDescNop ring idx s hk
  | launch ring idx => exact keep_execLaunch ring idx s hk
  | launchStop p => exact keep_execLaunchStop p s hk
  | launchDrained p => exact keep_execLaunchDrained p s hk
  | move ring idx => exact keep_execMove ring idx s hk
  | fence ring idx => exact keep_execFence ring idx s hk
  | signal ring idx => exact keep_execSignal ring idx s hk
  | wait ring idx => exact keep_execWait ring idx s hk
  | waitPoll ring idx => exact keep_execWaitPoll ring idx s hk
  | configStage ring idx => exact keep_execConfigStage ring idx s hk
  | configCommit ring idx => exact keep_execConfigCommit ring idx s hk
  | shelfParticipantReport e q => exact keep_execShelfParticipantReport e q s hk
  | shelfVoteClose e => exact keep_execShelfVoteClose e s hk
  | quiesce ring idx => exact keep_execQuiesce ring idx s hk
  | dormantRetention ring idx => exact keep_execDormantRetention ring idx s hk
  | dormantImage ring idx => exact keep_execDormantImage ring idx s hk
  | wakeRetention ring idx => exact keep_execWakeRetention ring idx s hk
  | wakeImage ring idx => exact keep_execWakeImage ring idx s hk
  | wakeHold ring idx => exact keep_execWakeHold ring idx s hk
  | descWaitPartitionReady ring idx => exact keep_execDescWaitPartitionReady ring idx s hk
  | abort ring idx => exact keep_execAbort ring idx s hk
  | abortResolve ring => exact keep_execAbortResolve ring s hk
  | commitReport ring => exact keep_execCommitReport ring s hk
  | completionRecord ring => exact keep_execCompletionRecord ring s hk
  | irqSignal iid => exact keep_execIrqSignal iid s hk
  | irqMapWrite k0 v => exact keep_execIrqMapWrite k0 v s hk
  | laserEvent m e => exact keep_execLaserEvent m e s hk
  | bypassClose k => exact keep_execBypassClose k s hk
  | bypassOpen k => exact keep_execBypassOpen k s hk
  | bypassSwitchDone k => exact keep_execBypassSwitchDone k s hk
  | portTrain n r => exact keep_execPortTrain n r s hk
  | portDown n why => exact keep_execPortDown n why s hk
  | retrain n => exact keep_execRetrain n s hk
  | clearRetired n => exact keep_execClearRetired n s hk
  | flitReceive n f => exact keep_execFlitReceive n f s hk
  | flitReplay n start count => exact keep_execFlitReplay n start count s hk
  | msgRead n h => exact keep_execMsgRead n h s hk
  | msgWrite n h data => exact keep_execMsgWrite n h data s hk
  | msgAtomic n h a step key => exact keep_execMsgAtomic n h a step key s hk
  | msgResp n f => exact keep_execMsgResp n f s hk
  | e2eAck src chan seq => exact keep_execE2eAck src chan seq s hk
  | e2eReissue dst chan => exact keep_execE2eReissue dst chan s hk
  | card n c => exact keep_execCard n c s hk
  | cardSend => exact keep_execCardSend s hk
  | charter h c => exact keep_execCharter h c s hk
  | charterIssue ws => exact keep_execCharterIssue ws s hk
  | charterEffective => exact keep_execCharterEffective s hk
  | time t => exact keep_execTime t s hk
  | agree h p f => exact keep_execAgree h p f s hk
  | ready h r => exact keep_execReady h r s hk
  | readyTimeout p => exact keep_execReadyTimeout p s hk
  | diverge h digest step tick => exact keep_execDiverge h digest step tick s hk
  | memberLost q => exact keep_execMemberLost q s hk
  | join => exact keep_execJoin s hk
  | leave => exact keep_execLeave s hk
  | lock f => exact keep_execLock f s hk
  | lockEntry => exact keep_execLockEntry s hk
  | unlock f => exact keep_execUnlock f s hk
  | adopt => exact keep_execAdopt s hk
  | lockCheckTick p => exact keep_execLockCheckTick p s hk
  | lockStepTick p => exact keep_execLockStepTick p s hk
  | extTimeChange pps present => exact keep_execExtTimeChange pps present s hk
  | linkTrain d l r => exact keep_execLinkTrain d l r s hk
  | d2dFlitReceive d l f => exact keep_execD2dFlitReceive d l f s hk
  | linkFailing d l why => exact keep_execLinkFailing d l why s hk
  | d2dRetrain d l => exact keep_execD2dRetrain d l s hk
  | atomicDivert => exact keep_execAtomicDivert s hk
  | opsanAccess o => exact keep_execOpsanAccess o s hk
  | cxlFenceInvalidate p dirty => exact keep_execCxlFenceInvalidate p dirty s hk
  | guestDiscovery g => exact keep_execGuestDiscovery g s hk
  | guestPowerSample ms us => exact keep_execGuestPowerSample ms us s hk
  | powerInterval m => exact keep_execPowerInterval m s hk
  | pauseResumeIssue p => exact keep_execPauseResumeIssue p s hk
  | oppChange p => exact keep_execOppChange p s hk
  | peakLimiter p mw => exact keep_execPeakLimiter p mw s hk
  | droopDetect g mv n => exact keep_execDroopDetect g mv n s hk
  | thermalSample t => exact keep_execThermalSample t s hk
  | budgetMessage d b => exact keep_execBudgetMessage d b s hk
  | pwrCapWrite v => exact keep_execPwrCapWrite v s hk
  | learnClear => exact keep_execLearnClear s hk
  | quiesceSave b => exact keep_execQuiesceSave b s hk
  | saveComplete b => exact keep_execSaveComplete b s hk
  | pointCommit p => exact keep_execPointCommit p s hk
  | rollback p => exact keep_execRollback p s hk
  | ceReport f => exact keep_execCeReport f s hk
  | ceWindow site => exact keep_execCeWindow site s hk
  | ueConsumed f => exact keep_execUeConsumed f s hk
  | errInjectArm v => exact keep_execErrInjectArm v s hk
  | hostLoss => exact keep_execHostLoss s hk
  | mgtRestart r => exact keep_execMgtRestart r s hk
  | mgtCheck check ok => exact keep_execMgtCheck check ok s hk
  | auxPowerOn strap => exact keep_execAuxPowerOn strap s hk
  | auxLoss => exact keep_execAuxLoss s hk
  | mainPresent => exact keep_execMainPresent s hk
  | mainLoss => exact keep_execMainLoss s hk
  | pkgResetAssert => exact keep_execPkgResetAssert s hk
  | pkgResetRelease scanning => exact keep_execPkgResetRelease scanning s hk
  | boot b => exact keep_execBoot b s hk
  | stageImage x => exact keep_execStageImage x s hk
  | activate flashOk => exact keep_execActivate flashOk s hk
  | confirm flashOk => exact keep_execConfirm flashOk s hk
  | abandonGraft flashOk => exact keep_execAbandonGraft flashOk s hk
  | writeSettings flashOk => exact keep_execWriteSettings flashOk s hk
  | attest sig flashOk => exact keep_execAttest sig flashOk s hk
  | graftWindowEnd flashOk => exact keep_execGraftWindowEnd flashOk s hk
  | status => exact keep_execStatus s hk
  | reset => exact keep_execReset s hk
  | read off => exact keep_execRead off s hk
  | recoveryWrite off n data => exact keep_execRecoveryWrite off n data s hk
  | recoveryDone len x => exact keep_execRecoveryDone len x s hk
  | i3cIbi f => exact keep_execI3cIbi f s hk
  | tftpWrite data x => exact keep_execTftpWrite data x s hk
  | tapDieEnter d => exact keep_execTapDieEnter d s hk
  | tapDieLeave d => exact keep_execTapDieLeave d s hk
  | tapReset => exact keep_execTapReset s hk
  | standinSwitch => exact keep_execStandinSwitch s hk
  | extest d drive pads => exact keep_execExtest d drive pads s hk
  | samplePreload d load pads => exact keep_execSamplePreload d load pads s hk
  | idcode d => exact keep_execIdcode d s hk
  | clamp d => exact keep_execClamp d s hk
  | highz d => exact keep_execHighz d s hk
  | ijtag d => exact keep_execIjtag d s hk
  | stack d ports => exact keep_execStack d ports s hk
  | laneLoop d => exact keep_execLaneLoop d s hk
  | bypass d => exact keep_execBypass d s hk
  | guestRequest g => exact keep_execGuestRequest g s hk
  | pcieDma d => exact keep_execPcieDma d s hk
  | snoopResponse id lo hi => exact keep_execSnoopResponse id lo hi s hk
  | iofenceC id => exact keep_execIofenceC id s hk
  | dynamicAddressAssignment a => exact keep_execDynamicAddressAssignment a s hk
  | e2eAckTimer src chan => exact keep_execE2eAckTimer src chan s hk
  | groveLaunchStart p => exact keep_execGroveLaunchStart p s hk

end Sys2Proof.Machine
end

