-- ==== Sys2Proof/Laws/KeepTick.lean ====
section
/-!
SUPPORT. Keeping: the operations of Tick.
-/

namespace Sys2Proof.Machine

theorem keep_coreCsr {s0 : State} (a0 : Nat) (a1 : Nat) (a2 : BitVec 64) (s : State) (h : Keep s0 s) :
    Keep s0 (coreCsr a0 a1 a2 s) := by
  unfold coreCsr
  try extract_lets
  repeat' first
    | with_reducible assumption
    | with_reducible apply keep_writeAt
    | extract_lets
    | with_reducible apply keep_foldl
    | with_reducible apply keep_foldl2
    | with_reducible apply keep_foldl3
    | split
    | dsimp only
    | intro _

theorem keep_landOne {s0 : State} (a0 : Nat) (a2 : Infl) (s : State) (h : Keep s0 s) :
    Keep s0 (landOne a0 s a2) := by
  unfold landOne
  repeat' first
    | with_reducible assumption
    | with_reducible apply keep_State_putCore
    | with_reducible apply keep_riseFlag
    | with_reducible apply keep_coreCsr
    | split

theorem keep_landDue {s0 : State} (a0 : Nat) (a1 : Nat) (a2 : Bool) (s : State) (h : Keep s0 s) :
    Keep s0 (landDue a0 a1 a2 s) := by
  unfold landDue
  try extract_lets
  repeat' first
    | with_reducible assumption
    | with_reducible apply keep_landOne
    | with_reducible apply keep_State_putCore
    | extract_lets
    | with_reducible apply keep_foldl
    | with_reducible apply keep_foldl2
    | with_reducible apply keep_foldl3
    | dsimp only
    | intro _

theorem keep_runSlot {s0 : State} (a0 : Nat) (a2 : Slot) (s : State) (h : Keep s0 s) : Keep s0 (runSlot a0 s a2) := by
  unfold runSlot
  split
  · exact h
  · rename_i w _
    have g := keep_exec (slotCmd (coreId a0) a2 w) s h
    split
    · rename_i t e
      exact g t e
    · exact h

theorem keep_issueCore {s0 : State} (a0 : Nat) (s : State) (h : Keep s0 s) :
    Keep s0 (issueCore a0 s) := by
  unfold issueCore
  try extract_lets
  repeat' first
    | with_reducible assumption
    | with_reducible apply keep_holdCore
    | with_reducible apply keep_runSlot
    | extract_lets
    | with_reducible apply keep_foldl
    | with_reducible apply keep_foldl2
    | with_reducible apply keep_foldl3
    | split
    | dsimp only
    | intro _

theorem keep_stallCore {s0 : State} (a0 : Nat) (s : State) (h : Keep s0 s) :
    Keep s0 (stallCore a0 s) := by
  unfold stallCore
  repeat' first
    | with_reducible assumption
    | with_reducible apply keep_incF
    | split

theorem keep_stallBed {s0 : State} (a0 : Nat) (a1 : List Nat) (s : State) (h : Keep s0 s) :
    Keep s0 (stallBed a0 a1 s) := by
  unfold stallBed
  try dsimp only
  repeat' first
    | with_reducible assumption
    | with_reducible apply keep_incF
    | with_reducible apply keep_brwStall
    | with_reducible apply keep_stallCore
    | dsimp only
    | with_reducible apply keep_foldl
    | with_reducible apply keep_foldl2
    | with_reducible apply keep_foldl3
    | split
    | intro _

theorem keep_enterCycle {s0 : State} (a0 : Nat) (a1 : Nat) (s : State) (h : Keep s0 s) :
    Keep s0 (enterCycle a0 a1 s) := by
  unfold enterCycle
  try extract_lets
  repeat' first
    | with_reducible assumption
    | with_reducible apply keep_startPres
    | with_reducible apply keep_landDue
    | with_reducible apply keep_State_putCore

theorem keep_bedAccess {s0 : State} (a0 : Nat) (a1 : List Nat) (s : State) (h : Keep s0 s) :
    Keep s0 (bedAccess a0 a1 s) := by
  unfold bedAccess
  try extract_lets
  repeat' first
    | with_reducible assumption
    | with_reducible apply keep_flushLate
    | with_reducible apply keep_readTick
    | with_reducible apply keep_writeTick
    | extract_lets
    | with_reducible apply keep_foldl
    | with_reducible apply keep_foldl2
    | with_reducible apply keep_foldl3
    | dsimp only
    | intro _

theorem keep_bedOutside {s0 : State} (a0 : Nat) (s : State) (h : Keep s0 s) :
    Keep s0 (bedOutside a0 s) := by
  unfold bedOutside
  repeat' first
    | with_reducible assumption
    | with_reducible apply keep_outsideTick
    | with_reducible apply keep_foldl
    | with_reducible apply keep_foldl2
    | with_reducible apply keep_foldl3
    | dsimp only
    | intro _

theorem keep_bedCycle {s0 : State} (a0 : Nat) (s : State) (h : Keep s0 s) :
    Keep s0 (bedCycle a0 s) := by
  unfold bedCycle
  try extract_lets
  repeat' first
    | with_reducible assumption
    | with_reducible apply keep_bedRelease
    | with_reducible apply keep_bedOutside
    | with_reducible apply keep_issueCore
    | with_reducible apply keep_landDue
    | with_reducible apply keep_bedAccess
    | with_reducible apply keep_stallBed
    | with_reducible apply keep_State_putBed
    | with_reducible apply keep_enterCycle
    | extract_lets
    | with_reducible apply keep_foldl
    | with_reducible apply keep_foldl2
    | with_reducible apply keep_foldl3
    | split
    | dsimp only
    | intro _
    | with_reducible apply Keep.upd

theorem keep_bedStill {s0 : State} (a0 : Nat) (s : State) (h : Keep s0 s) :
    Keep s0 (bedStill a0 s) := by
  unfold bedStill
  try extract_lets
  repeat' first
    | with_reducible assumption
    | with_reducible apply keep_bedOutside
    | with_reducible apply keep_flushLate
    | with_reducible apply keep_brwStall
    | extract_lets
    | with_reducible apply keep_foldl
    | with_reducible apply keep_foldl2
    | with_reducible apply keep_foldl3
    | dsimp only
    | intro _

theorem keep_waitCount {s0 : State} (a0 : Nat) (s : State) (h : Keep s0 s) :
    Keep s0 (waitCount a0 s) := by
  unfold waitCount
  try dsimp only
  repeat' first
    | with_reducible assumption
    | with_reducible apply keep_incF
    | dsimp only
    | split

theorem keep_countRan {s0 : State} (a0 : Nat) (s : State) (h : Keep s0 s) :
    Keep s0 (countRan a0 s) := by
  unfold countRan
  try extract_lets
  repeat' first
    | with_reducible assumption
    | extract_lets
    | dsimp only
    | with_reducible apply Keep.upd

theorem keep_bedTick {s0 : State} (a0 : Nat) (s : State) (h : Keep s0 s) :
    Keep s0 (bedTick a0 s) := by
  unfold bedTick
  try extract_lets
  repeat' first
    | with_reducible assumption
    | with_reducible apply keep_waitCount
    | with_reducible apply keep_bedStill
    | with_reducible apply keep_bedCycle
    | with_reducible apply keep_countRan
    | with_reducible apply keep_settleFlags
    | with_reducible apply keep_State_putBed
    | extract_lets
    | with_reducible apply keep_foldl
    | with_reducible apply keep_foldl2
    | with_reducible apply keep_foldl3
    | split
    | dsimp only
    | intro _
    | with_reducible apply Keep.upd

theorem keep_oaddWaitCount {s0 : State}  (s : State) (h : Keep s0 s) :
    Keep s0 (oaddWaitCount s) := by
  unfold oaddWaitCount
  repeat' first
    | with_reducible assumption
    | with_reducible apply keep_incF
    | with_reducible apply keep_foldl
    | with_reducible apply keep_foldl2
    | with_reducible apply keep_foldl3
    | split
    | dsimp only
    | intro _

theorem keep_fallowNow {s0 : State} (a0 : Nat) (s : State) (h : Keep s0 s) :
    Keep s0 (fallowNow a0 s) := by
  unfold fallowNow
  try extract_lets
  repeat' first
    | with_reducible assumption
    | with_reducible apply keep_setF

theorem keep_tickBoundary {s0 : State}  (s : State) (h : Keep s0 s) :
    Keep s0 (tickBoundary s) := by
  unfold tickBoundary
  try extract_lets
  repeat' first
    | with_reducible assumption
    | with_reducible apply keep_fallowNow
    | with_reducible apply keep_portCounts
    | with_reducible apply keep_noteReadyTick
    | with_reducible apply keep_tryReset
    | with_reducible apply keep_graftSettle
    | with_reducible apply keep_settleUnlock
    | with_reducible apply keep_shelfTick
    | with_reducible apply keep_wokenTick
    | with_reducible apply keep_pauseTick
    | with_reducible apply keep_stopTick
    | extract_lets
    | with_reducible apply keep_foldl
    | with_reducible apply keep_foldl2
    | with_reducible apply keep_foldl3
    | dsimp only
    | intro _

theorem keep_cycle {s0 : State}  (s : State) (h : Keep s0 s) :
    Keep s0 (cycle s) := by
  unfold cycle
  try extract_lets
  repeat' first
    | with_reducible assumption
    | with_reducible apply keep_incF
    | with_reducible apply keep_bedTick
    | with_reducible apply keep_releaseHeld
    | with_reducible apply keep_logTick
    | with_reducible apply keep_retentionTick
    | with_reducible apply keep_partTick
    | with_reducible apply keep_oaddWaitCount
    | with_reducible apply keep_tickBoundary
    | extract_lets
    | with_reducible apply keep_foldl
    | with_reducible apply keep_foldl2
    | with_reducible apply keep_foldl3
    | split
    | dsimp only
    | intro _
    | with_reducible apply Keep.upd

end Sys2Proof.Machine
end

