-- ==== Sys2Proof/Tests/Slice0.lean ====
section
/-!
SUPPORT. The model's own tests: ill-formed commands that are refused, worked examples of the specification, and for every statement
with hypotheses a state and operands that meet them.
-/

namespace Sys2Proof.Tests

set_option Elab.async false

open Sys2Proof Sys2Proof.Machine

/-! ## Helpers -/

/-- A core that runs a launch of partition 1 with both bundles of its stream resident, NOP in every slot. -/
def runCore : Core := { Core.reset with active := true, part := 1, streamLen := 2, ib := [(0, 0), (1, 0)] }

/-- The processor die and plot 0 PRESENT, bed group 0 RUN and owned by partition 1, bed 0 running with core 0 ready to issue. -/
def run0 : State :=
  let s := (setF F.MGT_DIE_INFO_STATE 0 0 0 (setF F.MGT_DIE_INFO_STATE 14 0 0 (setF F.MGT_BG_OWNER_VALID 0 0 1
    (setF F.MGT_BG_OWNER_PART 0 0 1 State.reset)))).putBgPower 0 0
  (s.putBed 0 { Bed.reset with running := true, go := true, part := 1 }).putCore 0 runCore

/-- `run0` with core 0 before a bundle that holds a command in a slot. -/
def runs (slot : Slot) (i : Instr) : State := run0.putCore 0 { runCore with ib := [(0, bundleOf slot i), (1, 0)] }

/-- The same, in a state whose core 0 is `k`. -/
def holding (slot : Slot) (i : Instr) (k : Core) (s : State) : State := s.putCore 0 { k with ib := [(0, bundleOf slot i), (1, 0)] }

/-- The step's next state satisfies `p`. -/
def next (o : Host.Outcome State Fault Refusal) (p : State → Bool) : Bool :=
  match o with
  | .next t => p t
  | _ => false

/-- The command is stopped as ill formed. -/
def stopped (o : Host.Outcome State Fault Refusal) : Bool :=
  match o with
  | .fault (.illFormed _) => true
  | _ => false

/-- A translation of the first 4 TiB onto themselves for context 1, with every permission. -/
def flat1 : Tlb := ⟨1, 0, 0, 0, true, true, true, .stable⟩

/-- The same for the 4 TiB that begin with the scratchpad windows. -/
def pad1 : Tlb := ⟨1, 128, 0, 2 ^ 49, true, true, true, .stable⟩

/-- A near-only region of 2 GiB of plot 0 for partition 1 at address 0, in the state of `run0`, with both stacks serving and the flat
translation of context 1 cached. -/
def dram0 : State :=
  let s := setF F.STK_REGION_VALID 0 0 1 (setF F.STK_REGION_SIZE 0 0 2 (setF F.STK_REGION_PART 0 0 1
    (setF F.STK_STATUS_STATE 0 0 1 (setF F.STK_STATUS_STATE 1 0 1
    (setF F.XLT_CTRL_DEV_EN 0 0 1 (setF F.XLT_CTX_ROOT_EN 0 1 1 run0))))))
  { s with iotlb := [(0, ⟨0, [(0, flat1)]⟩)] }.putBed 0 { s.bed 0 with utlb := ⟨0, [(0, flat1), (1, pad1)]⟩ }

/-- A request of the barrow of bed 0 for one line of `dram0`. -/
def req0 (id : Nat) (st : ReqState) (write : Bool) : Req :=
  { id := id, src := .brw 0, who := ⟨1, false, false⟩, pkg := 0, pa := 256, len := 16, write := write, data := 7, mask := 65535,
    atom := none, step := 0, key := 0, st := st, status := .ok, rdata := 0, tick := 0, regMark := false, oaddMark := false,
    linkMark := false, ext := none, orphan := false, seq := 0, route := [], again := false, gate := ⟨false, false, false⟩ }

/-- The same as a request given whole, with an atomic or none. -/
def dreq (a : Option Atom) (write : Bool) (who : Who) : DramReq := ⟨9, .brw 0, who, 256, 16, write, 7, 65535, a, 0, 0⟩

/-- The home of address 256 of `dram0`. -/
def home256 : Home := ⟨0, 1, 0⟩

/-- A launch of partition 1 on bed 0, started. -/
def launch0 : Launch :=
  { ring := 0, idx := 0, image := 0x10000, digest := 0, beds := [(0, 0)], syncs := [(0, 0, false)], phases := [], streams := 1,
    streamTable := 0, barrowTable := 0, storeQ := none, fbLog := 0, fbCap := 0, fbCount := 0, replayLog := 0, mode := 0,
    espalier := false, grove := false, epoch := 0, locked := false, span := [], reports := [], step := 0, stepTick := 0,
    nextTick := none, readyTick := none, started := true, statuses := [], detail := 0xFFFF, stop := false, stopSent := false,
    rollback := false, slips := 0, short := false, fbDropped := 0, decided := [], readyAt := none, resumed := false, holds := [],
    past := [], diverged := false }

/-- `dram0` with a launch in partition 1. -/
def launched (l : Launch) : State := dram0.putPart 1 { Part.reset with launch := some l }

/-- A move record of a kind from `src` to `dst`, 64 bytes, one tile of one line. -/
def rec0 (kind src dst : Nat) : MoveRec :=
  { kind := kind, waitPrev := false, noAlloc := false, raise := false, hasDue := false, hasFb := false, attr := 0, xpose := 0,
    place := 0, flag := 0, core := 0, count := 1, src := src, dst := dst, len := 64, srcStride := 128, due := 0, decide := 0,
    fbGroup := 0, key := 0, fbSrc := 0, operand := 0, lines := 1, tileBand := 1, tileSlot := 1 }

/-- A move that is issuing with every request out. -/
def move0 (r : MoveRec) : Move := { Move.new 0 7 r with st := .issuing }

/-- A program of bed 0 with moves. -/
def prog0 (l : List Move) : Prog :=
  { id := 1, at0 := 0, core := 0, table := 0x2000000000000, prog := 0, part := 1, step := 0, stepTick := 0, storeQ := none,
    desc := none, base := 0x2000000000100, count := 1, moves := l, stop := false, failed := none }

/-- `dram0` with a program running on bed 0. -/
def moving (l : List Move) : State := dram0.putBed 0 { dram0.bed 0 with progs := [prog0 l] }

/-! ## Well-formedness: one ill-formed term for each check -/

theorem test_wf_window_access : stopped (exec (.registerWrite (.direct 1 0xF000000000078 16 0 ⟨0, true, false⟩)) State.reset) = true := by
  decide +kernel

theorem test_wf_window_read : stopped (exec (.registerReadClear (.direct 1 0xF000000000000 0 0 ⟨0, true, false⟩)) State.reset) = true := by
  decide +kernel

theorem test_wf_outside_access :
    stopped (exec (.spadOutsideAccess 0 (.direct ⟨1, false, 120, 16, false, .plain, 0, ⟨0, false, false⟩⟩)) State.reset) = true := by
  decide +kernel

/-- A message of 64 bytes from byte 96 of a line. -/
def longMsg : MsgHdr := ⟨0, 1, 0, 0, 0, false, 0, 0, 96, 64⟩

theorem test_wf_messages : (Instr.msgRead 0 longMsg).wf = false ∧ (Instr.msgWrite 0 longMsg 0).wf = false := by
  decide +kernel

theorem test_wf_recovery : stopped (exec (.recoveryWrite 0 241 0) State.reset) = true := by
  decide +kernel

theorem test_wf_others : (Instr.nop 0 .vec).wf = true ∧ (Instr.recoveryWrite 0 240 0).wf = true ∧ (Instr.registerWrite (.under 3)).wf = true := by
  decide +kernel

/-! ## The queue (StepRunsFront, IdleStepRuns) -/

theorem test_queue_in_order : next (step { runs .sync (.halt 0) with pending := [.nop 0 .vec, .halt 0] })
    (fun t => decide (t.pending = [.halt 0]) && (t.core 0).pc == 1) = true := by
  decide +kernel

theorem test_idle_counts : next (step run0) (fun t => decide (t.cyc = run0.cyc + 1)) = true := by
  decide +kernel

/-! ## The core (Takes; ScalarRegisterForms to SyncSlotForms) -/

theorem wit_run0_sound : Sound run0 := by
  constructor <;> decide +kernel

theorem wit_runs_sound (slot : Slot) (i : Instr) : Sound (runs slot i) := by
  constructor <;> first | rfl | exact Nat.zero_le _

/-- The commands whose statements take them from a core of any state, one of each slot and form. -/
theorem wit_takes :
    Takes 0 .scalar (.add 0 ⟨3, 1, 2⟩) (runs .scalar (.add 0 ⟨3, 1, 2⟩)) ∧
    Takes 0 .scalar (.addi 0 ⟨3, 1, 2⟩) (runs .scalar (.addi 0 ⟨3, 1, 2⟩)) ∧
    Takes 0 .vec (.vadd 0 ⟨0, 3, 0, false, 1, 2, 0, 0, 0⟩) (runs .vec (.vadd 0 ⟨0, 3, 0, false, 1, 2, 0, 0, 0⟩)) ∧
    Takes 0 .vec (.vcmplt 0 ⟨0, 3, 0, false, 1, 2, 0, 0, 0⟩) (runs .vec (.vcmplt 0 ⟨0, 3, 0, false, 1, 2, 0, 0, 0⟩)) ∧
    Takes 0 .vec (.vld 0 ⟨0, 3, 0, false, 1, 2, 3, 0, 0⟩) (runs .vec (.vld 0 ⟨0, 3, 0, false, 1, 2, 3, 0, 0⟩)) ∧
    Takes 0 .vec (.vbcasti 0 ⟨0, 3, 0, false, 7⟩) (runs .vec (.vbcasti 0 ⟨0, 3, 0, false, 7⟩)) ∧
    Takes 0 .vec (.vtox 0 ⟨0, 3, 0, false, 1, 2⟩) (runs .vec (.vtox 0 ⟨0, 3, 0, false, 1, 2⟩)) ∧
    Takes 0 .lm (.ldx 0 1 2 8) (runs .lm (.ldx 0 1 2 8)) ∧
    Takes 0 .lm (.copy 0 ⟨1, 2, 3, 4, 5, 6, true⟩) (runs .lm (.copy 0 ⟨1, 2, 3, 4, 5, 6, true⟩)) ∧
    Takes 0 .sync (.post 0 1 2) (runs .sync (.post 0 1 2)) ∧
    Takes 0 .sync (.loop 0 ⟨1, false, 2⟩) (runs .sync (.loop 0 ⟨1, false, 2⟩)) ∧
    Takes 0 .sync (.halt 0) (runs .sync (.halt 0)) ∧ Takes 0 .grid (.nop 0 .grid) (runs .grid (.nop 0 .grid)) := by
  refine ⟨?_, ?_, ?_, ?_, ?_, ?_, ?_, ?_, ?_, ?_, ?_, ?_, ?_⟩ <;> exact ⟨wit_runs_sound _ _, by decide +kernel⟩

/-! ## The words of the slots, written out from R80, R83 and R90 to R93 -/

/-- Grid slot: FLAG 9, FINAL 1, INIT 0, TCFG 2, DEPTH 127, D_GRAN 3, B_GRAN 2, A_GRAN 1, XBASE 4, OP 1. -/
theorem test_word_order :
    slotCmd 7 .grid 0b000_01001_1_0_10_000001111111_00000000011_00000000010_00000000001_00100_01 =
      .order 7 ⟨4, 1, 2, 3, 127, 2, false, true, 9⟩ ∧
    slotCmd 7 .grid 0b11 = .nop 7 .grid := by
  decide +kernel

/-- Vector slot: VFMA (AUX 5, RND 1, VS3 4, VS2 3, VS1 2, SAT 1, MASK 6, VD 1, VT 0), VLD (VS1 7, RPART 1, NGRAN 3, GRAN 5, XBASE 2),
VBCASTI (IMM32 9) and VTOX (LANE 33, XREG 8). -/
theorem test_word_vector :
    slotCmd 7 .vec (0b101_01_00100_00011_00010_1_110_00001_000_00000100 <<< 64) = .vfma 7 ⟨0, 1, 6, true, 2, 3, 4, 1, 5⟩ ∧
    slotCmd 7 .vec (0b00111_01_10_00000000101_00010_0_000_00011_010_00100000 <<< 64) = .vld 7 ⟨2, 3, 0, false, 2, 5, 2, 1, 7⟩ ∧
    slotCmd 7 .vec (0b1001_000000000000_0_010_00011_001_00100100 <<< 64) = .vbcasti 7 ⟨1, 3, 2, false, 9⟩ ∧
    slotCmd 7 .vec (0b100001_01000_0_000_00011_001_00100110 <<< 64) = .vtox 7 ⟨1, 3, 0, false, 8, 33⟩ ∧
    slotCmd 7 .vec (0x17 <<< 64) = .nop 7 .vec := by
  decide +kernel

/-- Scalar slot: SUB x3, x1, x2 and ADDI x3, x1, −1; opcode 0x12 is reserved. -/
theorem test_word_scalar :
    slotCmd 7 .scalar (0b00010_00001_00011_000010 <<< 128) = .sub 7 ⟨3, 1, 2⟩ ∧
    slotCmd 7 .scalar (0b111111111111111111111111_00001_00011_100000 <<< 128) = .addi 7 ⟨3, 1, 0xFFFFFF⟩ ∧
    slotCmd 7 .scalar (0x12 <<< 128) = .nop 7 .scalar := by
  decide +kernel

/-- Local-move slot: STX (OFF 40, XBASE 2, XS 1), COPY (RAISE, FLAG 6, LEN 5, DST_GRAN 4, XDST 3, SRC_GRAN 2, XSRC 1) and CSRW (OFF 0x40,
XS 3). -/
theorem test_word_local_move :
    slotCmd 7 .lm (0b000000000101000_00010_00001_0010 <<< 168) = .stx 7 1 2 40 ∧
    slotCmd 7 .lm (0b1_00110_000101_00000000100_00011_00000000010_00001_0011 <<< 168) = .copy 7 ⟨1, 2, 3, 4, 5, 6, true⟩ ∧
    slotCmd 7 .lm (0b000001000000_00011_0101 <<< 168) = .csrw 7 3 0x40 := by
  decide +kernel

/-- Sync slot: WAITF 9 with KEEP, POST of flag 2 to core 33, LOOP of 4 bundles x5 times; opcode 0xF is reserved. -/
theorem test_word_sync :
    slotCmd 7 .sync (0b1_01001_0001 <<< 224) = .waitf 7 9 true ∧ slotCmd 7 .sync (0b00010_100001_0010 <<< 224) = .post 7 33 2 ∧
    slotCmd 7 .sync (0b00101_1_0000011_0101 <<< 224) = .loop 7 ⟨3, true, 5⟩ ∧ slotCmd 7 .sync (0xF <<< 224) = .nop 7 .sync := by
  decide +kernel

/-- Command queue of the IOMMU (R240, R249): XINVAL.RANGE with BEDC 1, VPN 6, EPOCH 5, COUNT 4, CTX 3; FUNC 5 acts as ALL. -/
theorem test_word_iommu :
    iommuCmd (2 ^ 103 + 6 <<< 64 + 5 <<< 32 + 4 <<< 16 + 3 <<< 10 + 1 <<< 7 + 56) = some (.xinvalRange ⟨3, 4, 5, 6, true⟩) ∧
    iommuCmd (5 <<< 7 + 56) = some (.xinvalAll ⟨0, 0, 0, 0, false⟩) ∧ iommuCmd (9 <<< 10 + 1 <<< 7 + 57) = some (.xrespFail 9) := by
  decide +kernel

/-- A core of `run0` with two scalar registers set: x1 = 2^64 - 1, x2 = 2. -/
def coreX : Core := { runCore with x := (runCore.x.set! 1 (BitVec.allOnes 64)).set! 2 2 }

/-- What the command of a slot leads to from the registers of `coreX`. -/
def runX (slot : Slot) (i : Instr) : Host.Outcome State Fault Refusal := exec i (holding slot i coreX run0)

/-- The value in flight to a scalar register. -/
def xIn (r : BitVec 5) (t : State) : Option (BitVec 64) :=
  (t.core 0).infl.findSome? fun i => match i.dst with
    | .x d v => if d = r then some v else none
    | _ => none

/-- R91: sums are modulo 2^64, MULHU is the upper half of the unsigned product, and SRA copies the sign. -/
theorem test_scalar_values :
    let out (i : Instr) (v : BitVec 64) : Bool := next (runX .scalar i) fun t => decide (xIn 3 t = some v)
    out (.add 0 ⟨3, 1, 2⟩) 1 = true ∧ out (.mulhu 0 ⟨3, 1, 2⟩) 1 = true ∧ out (.sra 0 ⟨3, 1, 2⟩) (BitVec.allOnes 64) = true ∧
    out (.slt 0 ⟨3, 1, 2⟩) 1 = true ∧ out (.sltu 0 ⟨3, 1, 2⟩) 0 = true ∧ out (.addi 0 ⟨3, 2, 0xFFFFFF⟩) 1 = true ∧
    out (.lui 0 ⟨3, 0, 1⟩) 0x1000000 = true := by
  decide +kernel

theorem wit_issueFrame_open : ((runCore).bundleAt (actOf 0 run0)) = none ∧
    next (exec (.nop 0 .vec) run0) (fun t => ((t.core 0).bundleAt (actOf 0 t)).isSome) = true := by
  decide +kernel

theorem wit_slotNotTaken : (Instr.add 64 ⟨1, 1, 1⟩).slotOf = some (64, .scalar) ∧ canIssue 64 .scalar (.add 64 ⟨1, 1, 1⟩) run0 = false ∧
    (bundleNow 0 run0).map (slotCmd 0 .sync) ≠ some (.waitf 0 1 false) ∧ canIssue 0 .sync (.waitf 0 1 false) run0 = false := by
  decide +kernel

theorem test_other_bundle : next (exec (.add 0 ⟨3, 1, 2⟩) run0) (fun t => decide (t = run0)) = true := by
  decide +kernel

/-- The value in flight to a vector register. -/
def vIn (r : BitVec 5) (t : State) : Option (BitVec 512) :=
  (t.core 0).infl.findSome? fun i => match i.dst with
    | .v d v _ => if d = r then some v else none
    | _ => none

/-- VADD of FP32 (R85): 1.0 + 2.0 = 3.0 in lane 0. -/
theorem test_vadd :
    let i : Instr := .vadd 0 ⟨0, 3, 0, false, 1, 2, 0, 0, 0⟩
    next (exec i (holding .vec i { runCore with v := (runCore.v.set! 1 0x3F800000).set! 2 0x40000000 } run0))
      (fun t => decide ((vIn 3 t).map (fun v => v.toNat % 2 ^ 32) = some 0x40400000)) = true := by
  decide +kernel

theorem wit_vectorMemory_held :
    let s := run0.putCore 0 { runCore with vmBusy := 16 }
    (actOf 0 (beginSlot 0 .vec s) ≤ ((beginSlot 0 .vec s).core 0).vmBusy ∧ ((beginSlot 0 .vec s).core 0).vmBusy ≠ 0) ∧
    ¬(actOf 0 run0 ≤ (run0.core 0).vmBusy ∧ (run0.core 0).vmBusy ≠ 0) := by
  decide +kernel

theorem wit_localMove_held :
    let s := run0.putCore 0 { runCore with lmBusy := 1 }
    (actOf 0 (beginSlot 0 .lm s) ≤ ((beginSlot 0 .lm s).core 0).lmBusy ∧ ((beginSlot 0 .lm s).core 0).lmBusy ≠ 0) := by
  decide +kernel

theorem wit_syncSlot :
    let w : Instr := .waitf 0 3 false
    let y : Instr := .sync 0 1
    let s := holding .sync w { runCore with flags := runCore.flags.set! 3 1 } run0
    (atBundle 0 (runs .sync w) = true ∧ ((runs .sync w).core 0).bundleAt (actOf 0 (runs .sync w)) = none ∧
      ((runs .sync w).core 0).bundle.map (slotCmd 0 .sync) = some w ∧ ((runs .sync w).core 0).flag 3 = 0) ∧
    canIssue 0 .sync w s = true ∧
    (atBundle 0 (runs .sync y) = true ∧ ((runs .sync y).core 0).bundle.map (slotCmd 0 .sync) = some y ∧
      ((runs .sync y).core 0).passed = false ∧ ((runs .sync y).core 0).wait = .none) ∧
    ((beginSlot 0 .sync run0).core 0).opened ≠ none := by
  decide +kernel

/-- R94: with the flag at 63, a rise and a WAITF in one cycle leave it at 63 and no overflow; a rise alone is held there with FLAG_OVF. -/
theorem test_flag_events :
    let k : Core := { runCore with flags := runCore.flags.set! 3 63, rises := [3] }
    let both := settleFlags 0 (run0.putCore 0 { k with took := some 3 })
    let one := settleFlags 0 (run0.putCore 0 k)
    (both.core 0).flag 3 = 63 ∧ bitF F.CORE_STATUS_FLAG_OVF 0 0 both = false ∧ (one.core 0).flag 3 = 63 ∧
    bitF F.CORE_STATUS_FLAG_OVF 0 0 one = true := by
  decide +kernel

theorem test_halt : next (exec (.halt 0) (runs .sync (.halt 0))) (fun t => (t.core 0).halted) = true := by
  decide +kernel

/-! ## Registers (RegisterFields to WrittenRegisterReadsBack) -/

theorem wit_registerFields : Sound State.reset ∧ F.PWR_BG_STATE.lo + F.PWR_BG_STATE.w ≤ 64 :=
  ⟨by constructor <;> decide +kernel, by decide +kernel⟩

theorem wit_accessCodes : F.CORE_ISSUED_COUNT ∈ Reg.flds .CORE_ISSUED ∧ F.CORE_ISSUED_COUNT.acc = .rc ∧
    F.MGT_ERR_CTRL_IE ∈ Reg.flds .MGT_ERR_CTRL ∧ F.MGT_ERR_CTRL_IE.acc = .rw ∧
    F.MGT_ERR_STATUS_LOG_OVERFLOW ∈ Reg.flds .MGT_ERR_STATUS ∧ F.MGT_ERR_STATUS_LOG_OVERFLOW.acc = .w1c := by
  decide +kernel

/-- R11's example: LOG2_SIZE of CMD_RING_CFG, written as 14, is held at 12. -/
theorem test_clamp : getF F.CMD_RING_CFG_LOG2_SIZE 0 0
    (swWriteReg .CMD_RING_CFG 0 0 (F.CMD_RING_CFG_LOG2_SIZE.put 0 14) (BitVec.allOnes 64) State.reset) = 12 := by
  decide +kernel

theorem wit_window :
    let at0 (l : Nat) := l / 2 ^ 48 = 15 ∧ l % 2 ^ 48 < 2 ^ 36
    ¬at0 0xE000000000000 ∧ (at0 0xF000000100000 ∧ csrBad 1 0x100000 State.reset ≠ none) ∧
    (at0 0xF000000000000 ∧ csrBad 0 0 State.reset = none) ∧ csrBad 0 0x100000 run0 = none := by
  decide +kernel

theorem wit_window_under :
    let r : Req := { req0 5 .sent true with src := .mgt, who := ⟨0, true, false⟩, pa := 0xF000000000000, len := 8 }
    let a : Atom := ⟨3, true, true, 5, 0⟩
    let s := { run0 with net := [r] }
    netGet 5 s = some r ∧ isLocal r.pkg s = true ∧ inCsr r.pa = true ∧ cutOff r.src r.pkg r.pa s = false ∧
    csrBad (r.pa / 2 ^ 32 % 16) (r.pa % 2 ^ 32) s = none ∧ atomPlain a = false ∧
    csrBad 1 0x100000 run0 = some .dieAbsent ∧
    netGet 5 { run0 with net := [{ r with atom := some a }] } = some { r with atom := some a } := by
  decide +kernel

theorem wit_written : dieState 12 (setF F.MGT_DIE_INFO_STATE 12 0 0 State.reset) = 0 ∧
    dieState 12 (setF F.MGT_DIE_INFO_STATE 12 0 4 State.reset) = 4 ∧ dieState 0 run0 = 0 := by
  decide +kernel

/-! ## Routes -/

/-- R14, R15: along the row and then the column; from I/O die B to column 0 through plot 2. R16: its example, plot 5 fenced. -/
theorem test_routes : fullRoute 0 11 = [0, 1, 2, 3, 7, 11] ∧ fullRoute 13 4 = [13, 2, 1, 0, 4] ∧ fullRoute 4 13 = [4, 0, 1, 2, 13] ∧
    bestPath [5] 4 6 = some [4, 8, 9, 10, 6] := by
  decide +kernel

/-! ## Stacks (GuardCode to OrderedAddsSorted) -/

/-- R388: one nibble is corrected, two are reported. -/
theorem test_guard : guardDecode (syndrome (flipNibble (codeword 0x0123456789ABCDEF) 35 9)) = .correct 35 9 ∧
    guardDecode (syndrome (flipNibble (flipNibble (codeword 1) 0 1) 1 1)) = .uncorrectable := by
  decide +kernel

theorem wit_stackMapping : regionOf 256 dram0 = some 0 ∧ dram0.regClear ≠ some 0 := by
  decide +kernel

theorem wit_dram0_sound : Sound dram0 := by
  constructor <;> decide +kernel

theorem wit_dramReadAfterWrite : bitF F.MGT_ERR_INJ_CTL_ARM 0 0 dram0 = false ∧ home256.addr % 128 + 128 ≤ 128 ∧ dram0.memErr = [] ∧
    (⟨1, true, true, 5, 0⟩ : Atom).bytes = 8 ∧ home256.addr % 8 = 0 := by
  decide +kernel

theorem test_dram_write_read :
    (homeRead home256 256 ⟨1, false, false⟩ 16 (homeWrite home256 256 ⟨1, false, false⟩ 16 65535 0xABCD dram0).2).1 = some 0xABCD := by
  decide +kernel

theorem wit_dramRequests :
    let r := reqOf (dreq none true ⟨1, false, false⟩) 0
    let s1 := { dram0 with net := [r] }
    let full := s1.putStack 1 { Stack.reset with used := 440 }
    let held := dram0.putStack 1 { Stack.reset with snoop := [(0, true)] }
    homeOf 256 State.reset = none ∧ homeOf r.pa dram0 = some home256 ∧
    homeBadFor r.src ⟨2, false, false⟩ home256 dram0 = some .pageFault ∧ homeBadFor r.src r.who home256 dram0 = none ∧
    admits r 1 s1 = true ∧ admits r 1 full = false ∧ srcHost r.src = false ∧ mustSnoop r home256 s1 = false ∧
    mustSnoop r home256 held = true := by
  decide +kernel

theorem wit_dramReplies :
    let s (r : Req) := { dram0 with net := [r] }
    netGet 5 (s (req0 5 .queued true)) = some (req0 5 .queued true) ∧ servesNext 5 home256 (s (req0 5 .queued true)) = true ∧
    netGet 5 (s (req0 5 .queued false)) = some (req0 5 .queued false) ∧ homeBad hostWho home256 (s (req0 5 .queued false)) = none ∧
    servesNext 5 home256 (s (req0 5 .queued false)) = true ∧
    netGet 5 (s (req0 5 .snooping false)) = some (req0 5 .snooping false) ∧
    netGet 5 (s (req0 5 .sent false)) = some (req0 5 .sent false) ∧ isLocal 0 (s (req0 5 .sent false)) = true ∧ isDram 256 = true ∧
    reqStack (req0 5 .sent false) (s (req0 5 .sent false)) = some 1 ∧
    onItsWay (req0 5 .sent false) 1 (s (req0 5 .sent false)) = false ∧
    onItsWay (req0 5 .sent false) 1 { dram0 with net := [req0 4 .sent true, req0 5 .sent false] } = true ∧ netGet 6 dram0 = none := by
  decide +kernel

/-- R186: the oldest request of a pseudo-channel's queue goes first unless a younger one hits an open row. -/
theorem test_row_hit_first :
    let l : List (Req × Home) := [(req0 5 .queued false, ⟨0, 1, 2 ^ 30⟩), (req0 6 .queued false, home256)]
    let s := dram0.putStack 1 { Stack.reset with rows := [((bankRow 0).1, 0)] }
    pcNext l dram0 = some 5 ∧ pcNext l s = some 6 ∧ pcNext l { s with cyc := 64 * 50 } = some 5 := by
  decide +kernel

/-- A floating-point add of 1.0 (FP32). -/
def fadd1 : Atom := ⟨0xB, false, false, 0x3F800000, 0⟩

theorem wit_dramAtomics :
    let r := reqOf (dreq (some fadd1) true ⟨1, false, false⟩) 0
    let locked := launched { launch0 with locked := true }
    let late := launched { launch0 with locked := true, step := 1 }
    homeOf r.pa dram0 = some home256 ∧ homeBadFor r.src r.who home256 dram0 = none ∧ isOrdered r dram0 = false ∧
    admits r 1 { dram0 with net := [r] } = true ∧ mustSnoop r home256 dram0 = false ∧
    admits r 1 ({ dram0 with net := [r] }.putStack 1 { Stack.reset with used := 440 }) = false ∧
    homeOf r.pa locked = some home256 ∧ homeBadFor r.src r.who home256 locked = none ∧ isOrdered r locked = true ∧
    isLockedAdd r locked = true ∧ (locked.stack 1).oadd.length < 4096 ∧ isOrdered r late = false ∧ isLockedAdd r late = true := by
  decide +kernel

/-- A held add. -/
def add0 (id : Nat) (key : BitVec 16) (bed : Nat) : OAdd := ⟨id, 0, 256, 4, 0, 1, 0, key, 0, 0, bed⟩

theorem wit_oaddFull :
    let s := (launched { launch0 with locked := true }).putStack 1 { Stack.reset with oadd := .replicate 4096 (add0 0 0 0) }
    4096 ≤ (s.stack 1).oadd.length := by
  decide +kernel

theorem test_adds_sorted : sortAdds [add0 1 5 0, add0 2 0 9, add0 3 5 0, add0 4 0 1] =
    [add0 4 0 1, add0 2 0 9, add0 1 5 0, add0 3 5 0] := by
  decide +kernel

theorem wit_addsDiffer : ∀ a ∈ [add0 1 5 0, add0 2 0 9], ∀ b ∈ [add0 1 5 0, add0 2 0 9],
    (a.key, a.pkg, a.slot, a.bed) = (b.key, b.pkg, b.slot, b.bed) → a = b := by
  decide +kernel

theorem wit_fills :
    let full := dram0.putStack 1 { Stack.reset with snoop := (List.range 16).map fun i => (16384 * (i + 1), false) }
    homeOf 256 dram0 = some home256 ∧ (dram0.stack 1).snoop = [] ∧
    16 ≤ ((full.stack 1).snoop.filter fun e => decide (filterSet e.1 = filterSet 0)).length ∧ look (full.stack 1).snoop 0 = none := by
  decide +kernel

/-! ## Scratchpads and bed groups (UnownedGroupsAreOff to BedGroupCommands) -/

theorem wit_groupOwner : bgBusy 0 run0 = false ∧ CsrAt.isHeld ⟨.MGT_BG_OWNER, 0, 0⟩ run0 = false ∧ bgOwner 0 State.reset = none ∧
    bgOwner 0 run0 = some 1 := by
  decide +kernel

theorem test_owner_taken : next (exec (.bgOwnerWrite 0 0) run0) (fun t => decide (bgOwner 0 t = none) && decide (t.bgPower 0 = 3)) =
    true := by
  decide +kernel

/-- The plain window address of the scratchpad of core 0. -/
def padB0 : Nat := 0x2000000000000

/-- An outside access of 16 bytes at byte 0. -/
def out0 (write : Bool) (form : Form) : OutReq := ⟨3, false, 0, 16, write, form, 0xF0, ⟨1, false, false⟩⟩

/-- `run0` with an access waiting at core 0. -/
def waiting0 (o : Outside) : State := run0.putCore 0 { runCore with outside := [o] }

/-- An atomic increment by 5 of a word at byte 0 of a scratchpad, returning its old value. -/
def inc5 : Atom := ⟨3, true, true, 5, 0⟩

theorem wit_outside :
    let closed := setF F.SPAD_REGION_EN 0 32 1 run0
    winBad ⟨1, false, false⟩ 0 run0 = none ∧ winBad ⟨2, false, false⟩ 0 run0 = some .pageFault ∧
    regionOk 0 4 0 0 true false run0 = true ∧ regionOk 0 4 0 0 true false closed = false ∧ winBad ⟨1, false, false⟩ 0 closed = none := by
  decide +kernel

theorem wit_outsideArrives :
    let room := (run0.core 0).outside.filter fun x => !x.brw
    let full := run0.putCore 0 { runCore with outside := .replicate 16 (outOf (out0 false .plain)) }
    let r : Req := { req0 3 .sent false with pa := padB0 }
    let s := { run0 with net := [r] }
    room.length < 16 ∧ winBad ⟨1, false, false⟩ 0 full = none ∧ winFull 0 full = true ∧ bgOwner 1 run0 = none ∧ bgOf (bedOf 1600) = 1 ∧
    netGet 3 s = some r ∧ isLocal r.pkg s = true ∧ placeOf r.pa s = .spad 0 0 .plain ∧ cutOff r.src r.pkg r.pa s = false ∧
    cutOff (.brw 400) 0 padB0 { run0 with routes := [(pairKey 1 0, [])] } = true := by
  decide +kernel

theorem wit_outsideGrant :
    let o := outOf (out0 false .plain)
    let w := outOf (out0 true .plain)
    let m := outOf (out0 true .bitSet)
    let opened : Outside := { m with opened := some 0xF }
    let spoilt : Outside := { opened with spoiled := true }
    (outsideNow 0 0 (waiting0 o) = some o ∧ o.isRmw = false ∧ o.write = false ∧ outBad 0 o (waiting0 o) = none ∧
      (outsideRead 0 0 1 (waiting0 o)).1 = some 0 ∧ regionOk 0 4 0 0 o.reads o.write (noteGrant 0 0 o (waiting0 o)) = true) ∧
    (outsideNow 0 0 (waiting0 w) = some w ∧ w.isRmw = false ∧ w.write = true) ∧
    (outsideNow 0 0 (waiting0 m) = some m ∧ m.isRmw = true ∧ m.part = (0, 16) ∧ m.opened = none) ∧
    outsideNow 0 0 (waiting0 opened) = some opened ∧ outsideNow 0 0 (waiting0 spoilt) = some spoilt ∧
    (spadStore 0 0 1 opened.bits.1 0xFF (waiting0 opened)).1 = true ∧
    outBad 0 o ((waiting0 o).putBgPower 0 3) = some .dieAbsent := by
  decide +kernel

/-- R122: the second granted cycle of a write through the bit-set alias stores the combined value at the end of its cycle. -/
theorem test_alias_write : next (exec (.spadAliasWrite 0 0) (waiting0 { outOf (out0 true .bitSet) with opened := some 0xF05 }))
    (fun t => decide (getBytes (flushLate 0 t).spad 0 16 = 0xFF5) && decide ((t.core 0).outside = [])) = true := by
  decide +kernel

theorem wit_spadAtomic :
    let o : Outside := { outAtom 3 false false ⟨1, false, false⟩ 0 .plain inc5 with opened := some 7 }
    Sound (waiting0 o) ∧ outsideNow 0 0 (waiting0 o) = some o ∧ winBad ⟨1, false, false⟩ 0 (waiting0 o) = none ∧ inc5.isFadd = false ∧
    atomPlain inc5 = false ∧ ((waiting0 o).core 0).late = [] ∧ bitF F.MGT_ERR_INJ_CTL_ARM 0 0 (waiting0 o) = false ∧
    regionOk 0 (masterOf o) 0 0 inc5.returns true (waiting0 o) = true ∧ sget 0 (waiting0 o).spadErr 0 = 0 :=
  ⟨by constructor <;> decide +kernel, by decide +kernel, by decide +kernel, by decide +kernel, by decide +kernel, by decide +kernel,
    by decide +kernel, by decide +kernel, by decide +kernel⟩

theorem wit_busyGroup : bgBusy 0 (launched launch0) = true ∧ CsrAt.isHeld ⟨.MGT_BG_OWNER, 0, 0⟩ (launched launch0) = false := by
  decide +kernel

theorem wit_groupPower : run0.bgPower 0 ≤ 1 ∧ groupAtRest 0 (run0.putCore 0 Core.reset) = true ∧ groupAtRest 0 run0 = false ∧
    (run0.putBgPower 0 2).bgPower 0 = 2 ∧ (run0.putBgPower 0 4).bgPower 0 = 4 := by
  decide +kernel

/-! ## The bed cache (BedCacheAndMerging to FlashInvalidation) -/

/-- Line 2 of DRAM, held in the cache of bed 0 or in flight to it. -/
def cached0 : State := run0.putBed 0 { run0.bed 0 with cache := [(setOf 2, ⟨0, [(0, ⟨2, true, 0xAA⟩)]⟩)] }

theorem wit_bedc :
    let f : Fill := ⟨8, 2, .stable, false, true, [], 0, 0⟩
    let filling := { run0 with net := [req0 8 .answered false] }.putBed 0 { run0.bed 0 with fills := [f] }
    isDram (2 * 128) = true ∧ isDram (2 ^ 42 * 128) = false ∧ (cacheHit 0 2 cached0).isSome = true ∧ cacheHit 0 2 filling = none ∧
    ((filling.bed 0).fills.find? fun f => decide (f.line = 2) && f.install) = some f ∧
    ((filling.bed 0).fills.find? fun x => decide (x.id = 8)) = some f ∧ netGet 8 filling = some (req0 8 .answered false) ∧
    cacheHit 0 2 run0 = none ∧ (run0.bed 0).fills = [] ∧ (run0.bed 0).holds 2 = false ∧ (run0.bed 0).writesOf 2 = [] ∧
    bitF F.BEDC_CTRL_PF_EN 0 0 run0 = true := by
  decide +kernel

theorem wit_merge :
    let w : BedWrite := ⟨1, 256, 1, 0, .stable, 1, 0⟩
    let e : Merge := ⟨8, 2, 1, 0, mergeDest 2 run0, false, 0, true, 1, []⟩
    let s := { run0 with net := [req0 8 .answered true] }.putBed 0 { run0.bed 0 with merge := [e], mergeWait := [w] }
    let k := (run0.bed 0).patch 2 w.mask w.data
    k.mergeWait = [] ∧ mergeTarget k.merge 2 (mergeDest 2 run0) = none ∧
    mergeTarget [{ e with sent := false }] 2 (mergeDest 2 run0) = some 8 ∧ bitF F.BEDC_CTRL_MERGE_EN 0 0 run0 = true ∧
    (s.bed 0).mergeWait ≠ [] ∧ netGet 8 s = some (req0 8 .answered true) ∧
    ((s.bed 0).merge.find? fun x => decide (x.id = 8) && x.sent) = some e ∧ netGet 8 run0 = none := by
  decide +kernel

theorem wit_install : swf CacheSet.empty Bed.reset.cache = true ∧ (Bed.reset.set (setOf 2)).find 2 = none := by
  decide +kernel

theorem test_flash_invalidation : next (exec (.invShared 0) cached0) (fun t => decide (((t.bed 0).set (setOf 2)).ways = [])) = true := by
  decide +kernel

/-! ## Stack upkeep (RegionTable to TokensRefilled) -/

theorem wit_regionTable :
    let v : BitVec 64 := F.STK_REGION_VALID.put (F.STK_REGION_SIZE.put 0 2) 1
    let s := dram0
    CsrAt.isHeld ⟨.STK_REGION, 0, 0⟩ s = false ∧ { s with regClear := some 0 }.regClear ≠ none ∧
    bitF F.STK_REGION_VALID 0 0 s = true ∧ F.STK_REGION_VALID.of v = 1 ∧ F.STK_REGION_VALID.of (0 : BitVec 64) = 0 ∧
    bitF F.STK_REGION_VALID 0 1 s = false ∧ regionsOverlap (clampRegion v (readReg .STK_REGION 0 1 s)) (readReg .STK_REGION 0 0 s) = true ∧
    regionsOverlap (clampRegion v (readReg .STK_REGION 0 1 State.reset)) (readReg .STK_REGION 0 0 State.reset) = false ∧ s.net = [] := by
  decide +kernel

theorem wit_stackUpkeep :
    let lost := { dram0 with memErr := [(memKey 0 0 / 16, flipNibble (flipNibble 0 0 1) 1 1)] }
    let fix := { dram0 with memErr := [(0, flipNibble 0 3 5)] }.putStack 0 { Stack.reset with writeback := [0] }
    stackUp 0 dram0 = true ∧ bitF F.STK_CTRL_PATROL_EN 0 0 dram0 = true ∧ (dram0.stack 0).patrolAt + 1 < 72 * 2 ^ 26 ∧
    dram0.memErr = [] ∧ guardDecode (syndrome (sget 0 lost.memErr (memKey 0 0 / 16))) = .uncorrectable ∧
    (fix.stack 0).writeback = [0] ∧ guardDecode (syndrome (sget 0 fix.memErr 0)) = .correct 3 5 ∧
    getF F.STK_STATUS_STATE 0 0 dram0 = 1 := by
  decide +kernel

theorem wit_tokens :
    let s := setF F.STK_REG_LEVEL_LEVEL 0 1 0 (setF F.STK_REG_BURST 0 1 100 (setF F.STK_REG_RATE 0 1 5 dram0))
    Sound s ∧ sget 0 (s.stack 0).frac 1 < 16 ∧ swf 0 (s.stack 0).frac = true ∧
    getF F.STK_REG_LEVEL_LEVEL 0 1 s + getF F.STK_REG_RATE 0 1 s + 1 ≤ getF F.STK_REG_BURST 0 1 s :=
  ⟨by constructor <;> decide +kernel, by decide +kernel, by decide +kernel, by decide +kernel⟩

/-! ## The barrow (BarrowMoves, BarrowPrograms) -/

/-- Scratchpads of cores 1 and 0 of bed 0. -/
def padA : Nat := 0x2000000008000
def padB : Nat := 0x2000000000000

/-- The move of program 1 of bed 0, after a step. -/
def moveNow (o : Host.Outcome State Fault Refusal) (p : Move → Bool) : Bool :=
  next o fun t => match moveOf 0 1 0 t with
    | some (_, m) => p m
    | none => false

theorem wit_moveReady : ∀ k ∈ [0, 1, 2, 3, 4, 5, 6, 7],
    let m := move0 (rec0 k padA padB)
    moveOf 0 1 0 (collect 0 (moving [m])) = some (prog0 [m], m) ∧ m.r.kind = k ∧ m.ready = true ∧ (prog0 [m]).stop = false ∧
    (prog0 [m]).failed = none := by
  decide +kernel

theorem wit_moveAddresses :
    let m := move0 (rec0 1 padA padB)
    let s := moving [m]
    let spad (w : Bool) (va : Nat) : Bool := match translate 1 ⟨brwAsker 0, 0, !w, w, false, 0, va, false, false⟩ s with
      | (.ok pa _, z) => decide (pa = va) && (match placeOf pa z with
        | .spad _ _ .plain => true
        | _ => false)
      | _ => false
    spad true padB = true ∧ spad false padA = true ∧ windowOf (localOf padA) = some (1, 0) := by
  decide +kernel

/-- R212: COPY writes to DST the bytes that it has read, here to the scratchpad of core 0 through its own port. -/
theorem test_move_copy :
    let s := moving [{ move0 (rec0 4 padA padB) with buf := 0x1234 }]
    moveNow (exec (.moveCopy 0 1 0) s) (fun m => decide (m.todo = []) && decide (m.fly.length = 1) && decide (m.buf = 0x1234)) = true ∧
    next (exec (.moveCopy 0 1 0) s) (fun t => decide (((t.core 0).outside).map (fun o => o.data.toNat % 65536) = [0x1234])) = true := by
  decide +kernel

/-- `moving` with ring 2 a storage queue of partition 1. -/
def storing (m : Move) : State :=
  let s := setF F.CMD_RING_CFG_EN 0 2 1 (setF F.CMD_RING_CFG_DIR 0 2 1 (setF F.CMD_RING_CFG_PART 0 2 1 (moving [m])))
  s.putBed 0 { s.bed 0 with progs := [{ prog0 [m] with storeQ := some 2 }] }

theorem wit_fetch4 :
    let m := move0 (rec0 7 padA padB)
    let s := storing m
    let m1 : Move := { m with stage := 1, tag := some (0, 0), rel := some 0 }
    m.stage = 0 ∧ m.r.len ≠ 0 ∧ storeFull 2 s = false ∧ storeBusy 2 s = false ∧
    ((List.range 16).find? fun x => !(tagsOf (s.bed 0)).contains x) = some 0 ∧
    (match translate 1 ⟨brwAsker 0, 0, false, true, false, 0, padB, false, false⟩ s with
      | (.ok pa _, _) => decide (pa = padB)
      | _ => false) = true ∧
    moveNow (exec (.moveFetch4 0 1 0) s) (fun m => decide (m.stage = 1) && decide (m.tag = some (0, 0))) = true ∧
    bedPerformed 0 0 (storing m1) = true ∧ storeBusy 2 (storing m1) = true := by
  decide +kernel

theorem wit_t4Done :
    let m := { move0 (rec0 7 padA padB) with tag := some (3, 0), stage := 3 }
    (((moving [m]).bed 0).progs.findSome? fun q =>
      (q.moves.find? fun x => decide (x.tag.map (·.1) = some 3) && decide (x.stage = 3)).map fun x => (q, x)) = some (prog0 [m], m) := by
  decide +kernel

theorem wit_kick :
    let s := holding .sync (.kick 0 5) runCore (launched launch0)
    let u := s.putBed 0 { s.bed 0 with stopping := true }
    canIssue 0 .sync (.kick 0 5) u = true ∧ ((beginSlot 0 .sync u).bed 0).stopping = true ∧ ((beginSlot 0 .sync s).bed 0).stopping = false ∧
    canIssue 0 .sync (.kick 0 5) s = true ∧ ((beginSlot 0 .sync s).part ((beginSlot 0 .sync s).core 0).part).launch = some launch0 ∧
    next (exec (.kick 0 5) s) (fun t => decide ((t.bed 0).armed.map (fun p => (p.prog, p.core)) = [(5, 0)])) = true := by
  decide +kernel

/-- Every request under way answered with zeros. -/
def answered (s : State) : State := { s with net := s.net.map fun r => { r with st := .answered } }

/-- A program armed on bed 0 three active cycles ago. -/
def armed0 : State := dram0.putBed 0 { dram0.bed 0 with armed := [{ prog0 [] with desc := some (0, 0) }], act := 3 }

theorem wit_programStart : ((armed0.bed 0).armed.head?.map (·.id)) = some 1 ∧ (armed0.bed 0).progs.length < 16 ∧
    armed0.bgPower (bgOf 0) = 0 ∧ (prog0 []).stop = false ∧
    (let q : Prog := { prog0 [] with desc := some (0, 0) }
     let get (s : State) := (q.via 0).getRange (q.table + 16 * q.prog) 16 s
     (get armed0).1 = .wait ∧ (get (answered (get armed0).2)).1 = .ok 0) ∧
    next (exec (.programStart 0) armed0) (fun t => decide (t.net.length = 1)) = true := by
  decide +kernel

theorem wit_moveIssue :
    let m := Move.new 0 7 (rec0 4 padA padB)
    candidates 0 (prog0 [m]) (moving [m]) [] [m] = [0] ∧ acquirer 0 (moving [m]) = none ∧
    moveNow (exec (.moveIssue 0) (moving [m])) (fun x => decide (x.st = .issuing) && decide (x.fly.length = 1)) = true := by
  decide +kernel

theorem wit_moveComplete :
    let m : Move := { move0 (rec0 4 padA padB) with st := .written }
    let late : Move := { m with r := { m.r with hasFb := true } }
    m.performed = true ∧ m.undecided = false ∧ late.undecided = true ∧ agreeCame (prog0 [m]) m (moving [m]) = true ∧ m.r.raise = false ∧
    ({ m with bad := some .dataLost } : Move).bad = some .dataLost ∧ (move0 (rec0 4 padA padB)).performed = false := by
  decide +kernel

theorem test_move_completes : next (exec (.moveComplete 0 1 0) (moving [{ move0 (rec0 4 padA padB) with st := .written }]))
    (fun t => decide ((t.bed 0).progs = []) && decide (getF F.BRW_MOVES_COUNT 0 0 t = 1)) = true := by
  decide +kernel

/-! ## Fallbacks (FallbackSets) -/

/-- A move of fallback set (0, 0) that is not done. -/
def lateMove : Move := { move0 { rec0 4 padA padB with hasFb := true } with st := .issuing }

/-- `launch0` with set (0, 0) past its decision tick, reported late by `n` packages. -/
def decided0 (n : Nat) : Launch :=
  { launch0 with decided := [⟨0, 0, 0, 0, n, none⟩], reports := (List.range n).map fun i => ⟨i, 0, 1, 0, 0⟩ }

theorem wit_fbDecide :
    let s := (moving [lateMove]).putPart 1 { Part.reset with launch := some launch0 }
    let late (z : State) := launch0.bedList.filter fun b => bedLate 1 0 0 0 b (launch0.bedList.foldl (fun z b => collect b z) z)
    launchOf 1 s = some launch0 ∧ launch0.stepTick + 0 ≤ s.tick ∧ launch0.fbSet 0 0 0 = none ∧ launch0.replayLog = 0 ∧
    launch0.started = true ∧ launch0.stop = false ∧ late s = [0] ∧ late (launched launch0) = [] ∧ s.tick < launch0.stepTick + 1 := by
  decide +kernel

theorem wit_fbAgree :
    let s := launched (decided0 0)
    let t := { launched (decided0 1) with cyc := 64 }
    launchOf 1 s = some (decided0 0) ∧ (decided0 0).decided.map (·.outcome) = [none] ∧ s.tick < 0 + 0 + (decided0 0).delay s ∧
    0 + 0 + (decided0 1).delay t ≤ t.tick ∧ (decided0 0).latePkgs 0 0 0 = 0 ∧ 0 < (decided0 1).latePkgs 0 0 0 := by
  decide +kernel

/-! ## Translation (Translations to FaultAnswers) -/

/-- A read of virtual address 4096 of context 1 by the barrow of bed 0. -/
def xreq : XltReq := { who := .barrow 0, ctx := 1, va := 4096, id := 4, r := true, w := false, a := false, step := 0 }

/-- The one that waits for it. -/
def xwait : XWait := ⟨.barrow 0, 4, true, false, false, 0, 4096, true, false⟩

theorem wit_walk :
    let far : Nat := 2 ^ 45
    ctxOn 1 State.reset = false ∧ ctxOn 1 dram0 = true ∧ (lookTlb (.barrow 0) 1 4096 dram0).1 = some flat1 ∧
    flat1.denies true false false = none ∧ { flat1 with r := false }.denies true false false = some 4 ∧
    (lookTlb (.barrow 0) 1 far dram0).1 = none ∧ walkOf 1 far dram0 = none ∧ dram0.walks = [] ∧ dram0.faults = [] ∧
    freeSlot dram0 = some 0 ∧ next (exec (.faultRecordOpen xreq 2) dram0) (fun t => decide (t.faults.map (·.cause) = [2])) = true := by
  decide +kernel

/-- A walk of context 1 that reads an entry of level 2 by request 5, and the answer. -/
def walking (e : Nat) (st : Status) (stale : Bool) : State :=
  { dram0 with
    walks := [{ id := 3, ctx := 1, va := 4096, waiters := [xwait], now := .read 5, level := 2, path := [], stale := stale }],
    net := [{ req0 5 .answered false with src := .iommu, status := st, rdata := BitVec.ofNat 1024 e }] }

theorem wit_fill :
    let leads (e : Nat) : WalkRes ⊕ WalkEnt := entryLeads 1 4096 2 e
    (match leads 0 with
      | .inl (.fault _) => true
      | _ => false) = true ∧
    netGet 5 (walking 0 .ok false) = some { req0 5 .answered false with src := .iommu, status := .ok, rdata := 0 } ∧
    next (exec (.xltFillReturn 3) (walking 0 .dieAbsent false)) (fun t => decide (t.faults.map (·.cause) = [7])) = true ∧
    next (exec (.xltFillReturn 3) (walking 0 .dataLost false)) (fun t => decide (t.resp.map (·.status) = [.dataLost])) = true := by
  decide +kernel

theorem wit_filled : (2 < 3) ∧ (∀ x ∈ (State.reset.bed 0).utlb.ways, x.2.hits 1 0 = false) := by
  decide +kernel

theorem wit_invalidations :
    let x (w : List Nat) : XInv := ⟨3, some 1, some 5, 3, w, none⟩
    let s := { dram0 with xinvs := [x []] }
    bitF F.XLT_CTX_ROOT_EN 0 1 dram0 = true ∧ (s.xinvs.find? fun x => decide (x.id = 3)) = some (x []) ∧
    behind 3 (some 1) s.xinvs = false ∧ dram0.xinvs = [] ∧ owes 0 (some 1) 3 s = false ∧ iommuClear s = true ∧
    getF F.XLT_CTX_EPADDR_ADDR 0 1 s * 4 = 0 := by
  decide +kernel

theorem test_invalidated : next (exec (.xinvalPage { ctx := 1, vpn := 0, count := 0, epoch := 1, bedc := false }) dram0)
    (fun t => decide ((lookTlb (.barrow 0) 1 0 t).1 = none)) = true := by
  decide +kernel

theorem wit_faults :
    let f : FaultRec := ⟨0, 0, 1, 0, 4, [xwait], 1, 0, 0, none, [.barrow 0], 0⟩
    let s := { dram0 with faults := [f] }
    let found (id : Nat) := s.faults.find? fun f => decide (f.slot = id % 256) && decide (f.gen = id / 256)
    found 0 = some f ∧ found 256 = none ∧ s.tick ≤ f.tick + 25000 * getF F.XLT_CTRL_TIMEOUT_MS 0 0 s ∧
    f.tick + 25000 * getF F.XLT_CTRL_TIMEOUT_MS 0 0 s < { s with cyc := 64 * 25000 * 65536 }.tick := by
  decide +kernel

/-! ## The command front end (RingsRun to HeldPartitionsRun) -/

/-- `dram0` with the front end and ring 0 enabled, a host ring of 16 entries at 0x100000 with its completions at 0x200000. -/
def ringed : State :=
  setF F.CMD_CTRL_EN 0 0 1 (setF F.CMD_RING_CFG_EN 0 0 1 (setF F.CMD_RING_CFG_HOST 0 0 1 (setF F.CMD_RING_CFG_LOG2_SIZE 0 0 4
    (setF F.CMD_RING_BASE_BASE 0 0 0x100 (setF F.CMD_RING_CQ_BASE 0 0 0x200 dram0)))))

/-- A descriptor of a kind for partition 1, with more bytes. -/
def desc0 (kind more : Nat) (st : DescState) : Desc :=
  ⟨0, BitVec.ofNat 512 (kind + 256 ^ 2 + more), none, st, 0xFFFF, 0, 0, 20, none, 0, false⟩

/-- `ringed` with descriptors in flight on ring 0. -/
def flying (l : List Desc) (s : State) : State := s.putRing 0 { Ring.reset with descs := l }

/-- Host standing. -/
def host : Who := ⟨0, true, false⟩

theorem wit_doorbells :
    let store := setF F.CMD_RING_CFG_DIR 0 0 1 ringed
    host.host = true ∧ (⟨1, false, false⟩ : Who).host = false ∧ bitF F.CMD_RING_CFG_EN 0 0 ringed = true ∧
    bitF F.CMD_RING_CFG_DIR 0 0 ringed = false ∧ bitF F.CMD_RING_CFG_DIR 0 0 store = true ∧ bitF F.CMD_RING_CFG_EN 0 0 dram0 = false := by
  decide +kernel

theorem test_tail_clamp : next (exec (.cmdDbTail 0 20 host) ringed) (fun t => decide (getF F.CMD_DB_TAIL_TAIL 0 0 t = 16) &&
    bitF F.CMD_RING_STAT_TAIL_CLAMP 0 0 t) = true := by
  decide +kernel

theorem wit_tailRoom : idxDiff (getF F.CMD_DB_TAIL_TAIL 0 0 ringed) (getF F.CMD_DB_CQ_HEAD_CQ_HEAD 0 0 ringed) ≤ ringSize 0 ringed ∧
    Sound ringed := ⟨by decide +kernel, by constructor <;> decide +kernel⟩

theorem wit_descFetch :
    let s := setF F.CMD_DB_TAIL_TAIL 0 0 1 ringed
    let got (z : State) := ringAccess (ringBase 0 z) (ask (.cmd 0) 1 (ringWho 0 z) (ringBase 0 z) 64) z
    bitF F.CMD_CTRL_EN 0 0 s = true ∧ nextRing s = some 0 ∧ getF F.CMD_DB_HEAD_HEAD 0 0 s = 0 ∧ (got s).1 = .wait ∧
    (got (answered (got s).2)).1 = .ok 0 ∧
    next (exec .descFetch (answered (got s).2)) (fun t => decide ((t.ring 0).descs.map (·.st) = [.done .ok])) = true := by
  decide +kernel

theorem wit_arbiter :
    let r : RingReport := ⟨0, .completed, 0, 0, 5⟩
    let a (cyc : Nat) : RingAbort := ⟨0, 1, 0, cyc⟩
    let s (l : List RingAbort) := ringed.putRing 0 ⟨[], [r], l⟩
    ((s [a 6]).ring 0).reports = [r] ∧ ((s [a 6]).ring 0).aborts.any (fun a => decide (a.cyc < r.cyc)) = false ∧
    ((s [a 4]).ring 0).aborts = [a 4] ∧ ((s [a 4]).ring 0).reports.any (fun r => decide (r.cyc ≤ 4)) = false := by
  decide +kernel

theorem wit_abort :
    let d := desc0 11 0 .held
    let s := flying [d] ringed
    getDesc 0 0 s = some d ∧ d.kind = 11 ∧ descRuns 0 d s = true ∧ ringHost 0 s = true ∧ d.target = (0, 0) ∧
    (submitted 0 0 s && unfetched 0 0 s) = false := by
  decide +kernel

theorem wit_completion :
    let d := desc0 0 0 (.done .ok)
    let s := flying [d] ringed
    let away := setF F.CMD_RING_CQ_BASE 0 0 (2 ^ 36) s
    let at0 (z : State) : Nat := getF F.CMD_RING_CQ_BASE 0 0 z * 4096
    let put (z : State) := ringAccess (at0 z) (tell (.cmd 0) 2 (ringWho 0 z) (at0 z) 16 65535 (recordBytes 0 0 d z)) z
    (s.ring 0).descs.foldl (fun z d => moveOver 0 d z) s = s ∧ nextRecord 0 s = some d ∧ bitF F.CMD_RING_STAT_STOPPED 0 0 s = false ∧
    ringPerformed 0 s = true ∧ (put s).1 = .wait ∧ (put (answered (put s).2)).1 = .ok 0 ∧ (put away).1 = .bad .dieAbsent ∧
    ringPerformed 0 { s with net := [{ req0 4 .sent true with src := .cmd 0 }] } = false := by
  decide +kernel

theorem test_record :
    let s := flying [desc0 0 0 (.done .ok)] ringed
    next (exec (.completionRecord 0) s) (fun t => next (exec (.completionRecord 0) (answered t))
      fun u => decide (getF F.CMD_DB_CQ_TAIL_CQ_TAIL 0 0 u = 1) && decide ((u.ring 0).descs = [])) = true := by
  decide +kernel

theorem wit_descriptors : ∀ k ∈ [0, 1, 2, 3, 4, 5, 6, 7, 8, 9, 10, 12, 15],
    let d := desc0 k 0 .held
    getDesc 0 0 (flying [d] ringed) = some d ∧ d.kind = k ∧ descRuns 0 d (flying [d] ringed) = true ∧ d.st ≠ .started ∧
    earlierDescs 0 0 (flying [d] ringed) = [] ∧ ringHost 0 (flying [d] ringed) = true := by
  decide +kernel

theorem wit_signal :
    let d := desc0 4 (0x3000 * 256 ^ 8) .started
    let s := flying [d] ringed
    let v := descVia 0 d s
    descPart 0 d s = 1 ∧ signalAsked v s = none ∧ ringPerformed 0 s = true ∧
    (match translate v.ctx ⟨v.who, v.id, false, true, !atomPlain (signalAtom d), v.step, d.get 8 8, false, false⟩ s with
      | (.ok pa _, z) => decide (placeOf pa z ≠ .gone) && (signalAsked v (signalSend v (signalAtom d) pa z)).isSome
      | _ => false) = true := by
  decide +kernel

theorem wit_wait :
    let d := desc0 5 (0x3000 * 256 ^ 8) .started
    let s := flying [d] ringed
    let got (z : State) := (descVia 0 d z).get (d.get 8 8 / 4 * 4) 4 z
    (got s).1 = .wait ∧ (got (answered (got s).2)).1 = .ok 0 ∧ d.pollAt = 0 ∧ waitMet d 0 = true ∧
    waitMet { d with bytes := d.bytes ||| 0x1 <<< (8 * 0x20) } 0 = false ∧ ({ d with pollAt := 1 } : Desc).pollAt ≤ { s with cyc := 64 }.tick := by
  decide +kernel

theorem wit_move :
    let d := desc0 2 (0x8000 * 256 ^ 0x14) .started
    let s := flying [d] ringed
    moveArmed 0 0 0 s = false ∧ bgOwner 0 s = some 1 ∧ slotPresent 0 s = true ∧ storeBad (d.get 0x14 2) 1 s = false ∧
    (s.bed 0).armed.length < 64 ∧ min 4799 (d.get 0x12 2) = 0 ∧
    bitF F.PWR_PART_STATUS_PAUSED 0 (descPart 0 d s) s = false ∧
    (let z := setF F.PWR_PART_STATUS_PAUSED 0 1 1 s
     bitF F.PWR_PART_STATUS_PAUSED 0 (descPart 0 d z) z = true ∧ moveArmed 0 0 0 z = false) := by
  decide +kernel

theorem wit_stage :
    let d := desc0 6 (0x3000 * 256 ^ 8 + 1 * 256 ^ 0x10) .started
    let s := flying [d] ringed
    let got (z : State) := (descVia 0 d z).getRange (d.get 8 8) (24 * min 256 (d.get 0x10 2)) z
    (got s).1 = .wait ∧ (got (answered (got s).2)).1 = .ok 0 := by
  decide +kernel

/-- A shelf entry with one write, of the owner of bed group 0. -/
def shelf0 (commit : Option (Nat × Nat × Nat × Nat)) (reports : List (Nat × Option Nat × Nat)) : Shelf :=
  ⟨[⟨0xF000C00101000, 33, 255⟩], commit, reports, false⟩

/-- A state with that entry as number 0. -/
def shelved (x : Shelf) (s : State) : State := putShelf 0 x s

theorem wit_commit :
    let s := shelved (shelf0 none []) (flying [desc0 7 (0xFFFFFFFF * 256 ^ 0xC) .held] ringed)
    (shelfOf 0 s).commit = none ∧ (shelfOf 0 s).writes ≠ [] ∧ (desc0 7 (0xFFFFFFFF * 256 ^ 0xC) .held).get 0xC 4 = 0xFFFFFFFF ∧
    partStep 1 (launched launch0) = some 0 := by
  decide +kernel

theorem wit_vote :
    let c := some (0, 0, 1, 0xFFFFFFFF)
    let s := setF F.MGT_DIE_INFO_STATE 12 0 0 (shelved (shelf0 c []) ringed)
    let t := shelved (shelf0 c [(12, none, 0)]) s
    let u := shelved (shelf0 c [(12, some 0, 0)]) s
    (shelfOf 0 s).parts.contains 12 = true ∧ partPresent 12 s = true ∧ (shelfOf 0 t).gathered t = true ∧
    (shelfOf 0 t).verdict none t = none ∧ (shelfOf 0 u).gathered u = true ∧ (shelfOf 0 u).verdict none u = some (2, 0) ∧
    CsrAt.isHeld ⟨.MGT_BG_OWNER, 0, 0⟩ t = true := by
  decide +kernel

/-! ## Launches -/

theorem wit_launch :
    let d := { desc0 1 (0x3000 * 256 ^ 8) .held with st := .waiting }
    let s := queueDesc 1 0 0 (flying [d] ringed)
    launchTurn 1 0 0 s = true ∧
    launchTurn 1 0 0 (s.putPart 1 { s.part 1 with launch := some launch0 }) = false := by
  decide +kernel

/-- `launched` with core 0 waiting for the first block of its stream, and none of it held. -/
def refilling : State := (launched launch0).putCore 0 { runCore with ibWanted := [0], ib := [], streamVA := 0x4000 }

theorem wit_refill :
    let k := refilling.core 0
    let got (z : State) := (bsqVia 0 0 0 0 k).getRange (k.streamVA + 1024 * 0 + 128 * 0) 128 z
    wantsBlock 0 0 0 refilling = [0] ∧ 32 * 0 + 4 * 0 < k.streamLen ∧ (refilling.bed 0).lineAt ≠ refilling.cyc + 1 ∧
    (got refilling).1 = .wait ∧ (got (answered (got refilling).2)).1 = .ok 0 ∧
    asked (.bsq 0) (bsqVia 0 0 0 0 k).tag (answered (got refilling).2) ≠ [] := by
  decide +kernel

/-- R100: the line of a block that returns brings the bundles of the stream in it, all-zero ones here. -/
theorem test_refilled :
    next (exec (.ibRefillReturn 0 0 0 0 false) refilling) (fun t => next (exec (.ibRefillReturn 0 0 0 0 false) (answered t))
      fun u => decide ((u.core 0).ib = [(0, 0), (1, 0)])) = true := by
  decide +kernel

theorem wit_coreFinish :
    let k := { runCore with halted := true }
    k.active = true ∧ k.finished = false ∧ k.ended = true ∧ k.wait = .none ∧ coreQuiet 0 (run0.putCore 0 k) = true := by
  decide +kernel

/-- `launched` with every core of bed 0 arrived at a sync point of a level. -/
def arrived (level : BitVec 2) (l : Launch) : State :=
  let s := (launched l).putBed 0 { (launched l).bed 0 with act := 4 }
  (coresOf 0).foldl (fun z c => z.putCore c { runCore with wait := .sync level 0 }) s

theorem wit_syncRelease :
    let s := arrived 1 launch0
    let g := arrived 2 { launch0 with grove := true }
    (coresOf 0).all (fun c => (s.core c).arrived && decide ((s.core c).arrivedAt + 4 ≤ (s.bed 0).act)) = true ∧ s.cyc % 64 = 0 ∧ launchOf 1 s = some launch0 ∧ stepGathered launch0 s = true ∧
    launch0.quiesces = false ∧ (s.part 1).hold = .none ∧ votesIn 1 1 s = true ∧
    launch0.coreList.any (fun c => (s.core c).atSync fun v => decide (1 ≤ v)) = true ∧
    launch0.coreList.any (fun c => (g.core c).atSync fun v => decide (1 ≤ v)) = true := by
  decide +kernel

theorem test_sync_bed : next (exec (.syncRelease (.bed 0)) (arrived 0 launch0)) (fun t => decide ((t.core 5).wait = .none)) = true := by
  decide +kernel

theorem wit_launchStop : ({ launch0 with stop := true }).stop = true ∧ launchOf 2 (launched launch0) = none := by
  decide +kernel

theorem wit_launchDrained :
    let s := flying [desc0 1 0 (.committed .completed)] (launched { launch0 with stop := true })
    let t := (s.putCore 0 Core.reset).putBed 0 { s.bed 0 with running := true }
    let l1 : Launch := { launch0 with stop := true }
    committedTo l1 s = some .completed ∧ (s.part 1).hold ≠ .rolling ∧
    l1.bedList.all (fun b => bedDrained 1 b t) = true ∧ t.mgt.resetTo = none := by
  decide +kernel

/-! ## Held partitions -/

/-- `ringed` with partition 1 held in a way, with a launch. -/
def held0 (h : Hold) (l : Option Launch) : State := ringed.putPart 1 { Part.reset with hold := h, launch := l }

theorem wit_quiesce : transitional 1 ringed = false ∧ (ringed.part 1).hold = .none ∧ (ringed.part 1).launch = none ∧
    transitional 1 (held0 .quiesce (some launch0)) = false ∧ ((held0 .quiesce (some launch0)).part 1).hold ≠ .none ∧
    transitional 1 (held0 .rolling none) = true ∧ descPart 0 (desc0 8 0 .held) ringed = 1 := by
  decide +kernel

theorem wit_dormant :
    let s := setF F.MGT_QSAVE_EN 0 1 1 (ringed.putPart 1 { Part.reset with hold := .quiesce, launch := some launch0, committed := some (0, 1) })
    let r := (held0 .retained (some launch0)).putBgPower 0 2
    (desc0 9 0 .held).form1 = false ∧ (r.part 1).hold = .retained ∧ transitional 1 r = false ∧ heldLaunch 1 s = some launch0 ∧
    heldSaved 1 s = true ∧ (s.part 1).saving = none ∧ (desc0 9 (256 ^ 8) .held).form1 = true := by
  decide +kernel

theorem wit_wake :
    let s := held0 .quiesce (some { launch0 with idx := 5 })
    let r := (held0 .retained (some { launch0 with idx := 5 })).putBgPower 0 2
    (desc0 10 (2 * 256 ^ 8) .held).wakeForm = 2 ∧ (desc0 10 (256 ^ 8) .held).wakeForm = 1 ∧ (desc0 10 0 .held).wakeForm = 0 ∧
    wakeRuns 1 0 0 s = false ∧ (s.part 1).queue.contains ⟨0, 0⟩ = false ∧ ((resumeHeld 1 0 0 s).part 1).woken = some ⟨0, 0⟩ ∧
    (wakeHeld 1 { launch0 with idx := 5 } r).1 = .wait ∧ (wakeHeld 1 { launch0 with idx := 5 } { r with retains := [] }).1 = .wait := by
  decide +kernel

theorem wit_save :
    let l := { launch0 with started := false }
    let s := setF F.MGT_QSAVE_EN 0 1 1 (ringed.putPart 1 { Part.reset with launch := some l, saving := some 0 })
    let t := (s.putBed 0 { s.bed 0 with saving := true })
    launchOf 1 s = some l ∧ (s.bed 0).part = 1 ∧ (s.bed 0).running = true ∧ maySave 1 0 l s = true ∧ (t.bed 0).saving = true ∧
    saveAnswers 0 t = some .ok ∧ l.bedList.all (fun b => ((s.putBed 0 { s.bed 0 with saved := true }).bed b).saved) = true := by
  decide +kernel

theorem wit_rollback :
    let s := flying [desc0 1 0 (.committed .dataLost)] (held0 .rolling (some launch0))
    let gone := setF F.MGT_DIE_INFO_STATE 0 0 2 s
    committedTo launch0 s = some .dataLost ∧ replace 1 launch0.beds s = some [(0, 0)] ∧ rollbackPoint 1 launch0 s = none ∧
    replace 1 launch0.beds gone = none ∧ committedTo launch0 gone = some .dataLost := by
  decide +kernel

/-! ## Grid orders, ports and links (GridOrders, PortsAndLinks) -/

/-- An order with a depth. -/
def order0 (depth : BitVec 12) : OrderF := ⟨0, 0, 0, 0, depth, 0, false, false, 5⟩

/-- A presentation of that order in core `c` from cycle 4 on. -/
def pres0 (c : Nat) (s : State) : Pres :=
  ⟨⟨0, 0, 0, 0, 1, readReg .GRID_TCFG c 0 s, false, false, 5, false, 127, 127, false⟩, 4, 8, 0, 0, false, [], []⟩

/-- `launched` with a grid of core `c` of bed 0, which is before a bundle with an order. -/
def gridded (c : CoreId) (g : Grid) : State :=
  (launched launch0).putCore c { runCore with grid := g, ib := [(0, bundleOf .grid (.order c (order0 0))), (1, 0)] }

theorem wit_gridOrders :
    let i := Instr.order 0 (order0 0)
    let busy := gridded 0 { Grid.reset with pending := some (pres0 0 run0) }
    let follower := (gridded 1 Grid.reset).putBed 0 { (launched launch0).bed 0 with espalier := true }
    let z := beginSlot 0 .grid (gridded 0 Grid.reset)
    let y := beginSlot 1 .grid follower
    (canIssue 0 .grid i (gridded 0 Grid.reset) = true ∧ (z.bed 0).espalier = false ∧ (z.core 0).grid.pending = none ∧
      F.GRID_TCFG_ANCHOR_SRC.of (readReg .GRID_TCFG 0 0 z) ≠ 1) ∧
    (canIssue 0 .grid i busy = true ∧ ((beginSlot 0 .grid busy).core 0).grid.pending.isSome = true) ∧
    (canIssue 1 .grid (.order 1 (order0 0)) follower = true ∧ (y.bed 0).espalier = true ∧ (1 : Nat) % 64 ≠ 0) := by
  decide +kernel

theorem wit_gridOrders_sound : Sound (gridded 0 { Grid.reset with pending := some (pres0 0 run0) }) := by
  constructor <;> decide +kernel

theorem wit_gridPresent :
    let p := pres0 0 run0
    let s := gridded 0 { Grid.reset with pending := some p }
    let later := s.putBed 0 { s.bed 0 with act := 4 }
    gridLead 0 run0 = 0 ∧ (run0.core 0).grid.pending = none ∧ (s.core 0).grid.pending = some p ∧ actOf 0 s < p.start ∧
    (later.core 0).grid.pending = some p ∧ p.start ≤ actOf 0 later := by
  decide +kernel

theorem wit_gridDrain :
    let d : Drain := ⟨0, 2048, 0, 4, [], 0, 5⟩
    let s (d : Drain) := gridded 0 { Grid.reset with drains := [d] }
    let o : Pres := { pres0 0 run0 with a := [⟨0, 128, 1, 1, 2, 0, 0, []⟩], b := [⟨0, 128, 1, 1, 2, 0, 0, []⟩] }
    let full := gridded 0 { Grid.reset with drains := [d], flow := [o] }
    (run0.core 0).grid.drains = [] ∧ ((s d).core 0).grid.drains = [d] ∧ d.next < d.count ∧ d.at0 + d.next ≤ actOf 0 (s d) ∧
    askReads ((s d).core 0).grid 0 0 (bankOf (d.addr / 16)) < ports (bankOf (d.addr / 16)) ∧
    ports (bankOf (d.addr / 16)) ≤ askReads (full.core (gridLead 0 full)).grid 0 0 (bankOf (d.addr / 16)) ∧
    actOf 0 (s { d with at0 := 1 }) < 1 ∧ ({ d with next := 8, at0 := 0 } : Drain).count = 8 := by
  decide +kernel

theorem test_grid_drain_flag :
    let s := gridded 0 { Grid.reset with drains := [⟨0, 0, 0, 4, [], 8, 5⟩] }
    next (exec (.gridDrain 0) (s.putBed 0 { s.bed 0 with act := 8 }))
      (fun t => decide ((t.core 0).grid.drains = []) && decide (getF F.GRID_TILES_COUNT 0 0 t = 1)) = true := by
  decide +kernel

theorem wit_irq :
    let en := setF F.D2D_IRQ_MAP_EN 0 7 1 run0
    let s := setF F.D2D_IRQ_MAP_EIID 0 7 3 en
    slotPresent 14 s = true ∧ bitF F.D2D_IRQ_MAP_EN 0 7 run0 = false ∧ bitF F.D2D_IRQ_MAP_EN 0 7 en = true ∧
    getF F.D2D_IRQ_MAP_EIID 0 7 en = 0 ∧ getF F.D2D_IRQ_MAP_EIID 0 7 s ≠ 0 := by
  decide +kernel

theorem wit_bypass :
    let moving := { run0 with grove := { run0.grove with switching := [(1, true)] } }
    let opened := setF F.HAL_BYPASS_CLOSED 0 0 0 run0
    pairClosed 1 opened = false ∧ 1 ∈ moving.grove.switching.map Prod.fst ∧ inReset opened = false ∧ inReset run0 = false ∧ pairClosed 1 run0 = true ∧
    inReset { run0 with pins := { run0.pins with resetLow := true } } = true ∧ look moving.grove.switching 1 = some true := by
  decide +kernel

/-- `run0` with port 0 in a state, enabled, its pair open and its laser on. -/
def ported (st : Nat) : State :=
  setF F.HAL_BYPASS_CLOSED 0 0 0 (setF F.HAL_PORT_CFG_EN 0 0 1 (setF F.HAL_PORT_STATUS_STATE 0 0 st (setF F.HAL_LASER_PRESENT 0 0 1 (setF F.HAL_LASER_POWER_OK 0 0 1
    (setF F.HAL_LASER_EN 0 0 1 run0)))))

theorem wit_ports :
    let dark := setF F.HAL_LASER_EN 0 0 0 (ported 3)
    let k : Port := { Port.reset with again := some (5, 8) }
    let m : Port := { Port.reset with badMs := 2, replays := 1000000 }
    let worn := (ported 3).putPort 0 m
    (portState 0 (ported 2) = 2 ∧ mayTrain 0 (ported 2) = true ∧ laserOn 0 (ported 2) = true) ∧ portState 0 (ported 4) = 4 ∧
    portState 0 dark = 3 ∧ laserOn 0 dark = false ∧
    (((ported 3).putPort 0 k).port 0).eightTimes = true ∧
    (worn.port 0).tooMany (getF F.HAL_PORT_CFG_REPLAY_LIMIT 0 0 worn) worn.tick = true ∧
    portState 0 (ported 5) = 5 := by
  decide +kernel

/-- The flit of the bytes below the CRC field given, with its CRC. -/
def flitOf (v : Nat) (bad : Bool) : Flit := ⟨BitVec.ofNat 2048 (v + (crc32c v 256).toNat * 2 ^ 96), [], bad⟩

theorem flitOf_bytes (v : Nat) (bad : Bool) (h : v < 2 ^ 96) :
    (flitOf v bad).bytes.toNat = v + (crc32c v 256).toNat * 2 ^ 96 := by
  unfold flitOf
  generalize crc32c v 256 = c
  have hc := c.isLt
  rw [BitVec.toNat_ofNat]
  exact Nat.mod_eq_of_lt (by omega)

/-- Such a flit passes its check (R290, R291). -/
theorem flitOf_good (v : Nat) (h : v < 2 ^ 96) : (flitOf v false).bad = false ∧ (flitOf v false).seq = v / 2 ^ 16 % 4096 := by
  have hb := flitOf_bytes v false h
  have hu : (flitOf v false).uncorrectable = false := rfl
  generalize hf : flitOf v false = f at hb hu
  generalize hg : crc32c v 256 = c at hb
  have hc := c.isLt
  have hk : f.crc = c.toNat := by
    unfold Flit.crc Flit.field
    rw [hb]
    omega
  have hv : f.checked = v := by
    unfold Flit.checked
    rw [hb, hk]
    omega
  constructor
  · unfold Flit.bad
    rw [hv, hk, hg, hu]
    simp
  · unfold Flit.seq Flit.field
    rw [hb]
    omega

theorem flitOf_bad (v : Nat) : (flitOf v true).bad = true := rfl

theorem wit_flits :
    let s1 := flitCorrect F.HAL_PORT_CE_COUNT 0 ⟨5, 12, 0, 0⟩ [] (ported 3)
    portState 0 (ported 3) = 3 ∧ (s1.port 0).rxSeq = 0 ∧ (s1.port 0).discarding = false ∧ (flitOf 1 true).bad = true ∧
    ((flitOf 1 false).bad = false ∧ (flitOf 1 false).seq = 0) ∧ (flitOf 0x10001 false).bad = false ∧ (flitOf 0x10001 false).seq = 1 :=
  ⟨by decide +kernel, by decide +kernel, by decide +kernel, flitOf_bad 1, flitOf_good 1 (by decide), flitOf_good 0x10001 (by decide)⟩

/-- `run0` with main power and link 0 of die 0 in a state at both ends, dies 0 and 1 TRAINING. -/
def linked (st : Nat) : State :=
  let s := setF F.D2D_LINK_STATUS_STATE (linkUnit 0 0) 0 st (setF F.D2D_LINK_STATUS_STATE (linkUnit 1 2) 0 st
    (setF F.MGT_DIE_INFO_STATE 0 0 4 (setF F.MGT_DIE_INFO_STATE 1 0 4 run0)))
  { s with pins := { s.pins with vmain := true } }

theorem wit_links :
    let bad := (linked 2).putDlink (linkUnit 0 0) { Port.reset with discarding := true }
    peerLink 0 0 = some (1, 2) ∧ (linked 1).pins.vmain = true ∧ inReset (linked 1) = false ∧ linkState 0 0 (linked 1) = 1 ∧
    dieState 0 (linked 1) ≠ 1 ∧ dieState 1 (linked 1) ≠ 1 ∧ linkState 0 0 (linked 2) = 2 ∧ linkState 0 0 bad = 2 ∧
    (bad.dlink (linkUnit 0 0)).discarding = true ∧ ((linked 2).dlink (linkUnit 0 0)).discarding = false := by
  decide +kernel

theorem test_link_up : next (exec (.linkTrain 0 0 (.up 0 ⟨0, 1, 0x7FF⟩ ⟨0, 1, 0x7FF⟩)) (linked 1))
    (fun t => decide (linkState 0 0 t = 2) && decide (linkState 1 2 t = 2)) = true := by
  decide +kernel

/-! ## Messages and the grove (MessagesPass, GroveMembership, GroveLockstep) -/

/-- A member package 3 of a grove with packages 1 and 2, port 0 UP. -/
def member0 : State :=
  setF F.HAL_GROVE_STATUS_STATE 0 0 2 (setF F.HAL_GROVE_STATUS_PKG 0 0 3 (setF F.HAL_MEMBERS_BITS 0 0 14
    (setF F.MGT_DIE_FEATURES_BITMAP 12 0 0x7FF (ported 3))))

/-- A message header from package 1. -/
def hdr0 (dst : PkgId) (len : Nat) : MsgHdr := ⟨1, dst, 1, 0, 0, false, 4, 0, 0x100, len⟩

theorem wit_messages :
    MsgOk (hdr0 3 200) = false ∧ MsgOk (hdr0 3 64) = true ∧ getF F.HAL_GROVE_STATUS_STATE 0 0 member0 = 2 ∧
    getF F.HAL_PORT_STATUS_STATE 0 0 member0 = 3 ∧ (∀ h ∈ [hdr0 2 64, hdr0 3 64], flowHeld (.come (.read h)) member0 = false) ∧ (hdr0 2 64).dst.val ≠ ownPkg member0 ∧
    isMember (hdr0 2 64).dst member0 = true ∧ forwardsAtomics 0 member0 = true ∧
    outForwards 2 4 (setF F.HAL_PORT_STATUS_PEER 0 0 2 member0) = true ∧ (hdr0 3 64).dst.val = ownPkg member0 ∧
    (getRx 1 4 member0).expect = (hdr0 3 64).e2e.toNat := by
  decide +kernel

theorem wit_messageLeaves :
    let r := { req0 5 .answered false with src := .pkg 1 0 0 }
    netGet 5 { member0 with net := [r] } = some r ∧ r.st = .answered ∧ r.src = .pkg 1 0 0 := by
  decide +kernel

theorem wit_endToEnd :
    let s := putRx ⟨1, 4, 7, 3⟩ (putTx ⟨1, 4, 3, [(1, 20), (2, 21)], [], 0, false⟩ member0)
    (getTx 1 4 s).held.any (fun x => decide (x.1 = 2)) = true ∧ (getTx 1 4 s).held.isEmpty = false ∧ (getRx 1 4 s).owed ≠ 0 := by
  decide +kernel

theorem test_e2eAck : next (exec (.e2eAck 1 4 1) (putTx ⟨1, 4, 3, [(1, 20), (2, 21)], [], 0, false⟩ member0))
    (fun t => decide ((getTx 1 4 t).held = [(2, 21)])) = true := by
  decide +kernel

theorem wit_divert : ({ member0.grove with diverted := [.come (.read (hdr0 2 64)), .come (.read (hdr0 3 64))] } : Grove).diverted =
    .come (.read (hdr0 2 64)) :: [.come (.read (hdr0 3 64))] := by
  decide +kernel

/-- A card of a package by its number and serial. -/
def card0 (pkg : BitVec 16) (serial : BitVec 128) : Card := ⟨1, 0, pkg, pkg, 9, 1, 1, 1, 1, 0x7FF, 5, 0, 0, 1, serial, 0, 1⟩

/-- `member0` with an identity of serial 9. -/
def named0 : State := { member0 with ident := some ⟨0, 0, 0x5454, 9, []⟩ }

/-- A message is taken. -/
def taken (r : Bool × State) : Bool := r.1

theorem wit_card :
    taken (takeCtl 0 1 1 (.card (card0 1 8)) named0) = true ∧ (card0 1 8).serial ≠ ownSerial named0 ∧ named0.ident.isSome = true ∧
    (card0 1 9).serial = ownSerial named0 ∧ (card0 1 9).pkg.toNat ≠ ownPkg named0 ∧
    taken (takeCtl 0 1 1 (.card (card0 1 9)) named0) = true ∧ (card0 1 9).pkg ≠ 0 ∧ portState 0 named0 = 3 ∧ member0.ident.isSome = false := by
  decide +kernel

/-- A charter of package 1 whose members are serials. -/
def charter0 (l : List (BitVec 128)) : Charter := ⟨card0 1 8, 1, 0, l.map fun x => ⟨x, x.setWidth 16, 0, 0⟩⟩

/-- A header of package 1 through port 0. -/
def ctl0 : CtlHdr := ⟨0, 1, 1⟩

theorem wit_charter :
    let r := takeCtl 0 1 1 (.charter (charter0 [8, 9])) named0
    (charter0 [8, 9]).author.serial ≠ ownSerial named0 ∧ getF F.HAL_GROVE_STATUS_STATE 0 0 named0 = 2 ∧ r.1 = true ∧
    r.2.grove.next = none ∧ r.2.grove.charter = none := by
  decide +kernel

theorem wit_charterIssue :
    let s := { setF F.HAL_GROVE_STATUS_STATE 0 0 1 named0 with cyc := 500000 * 64 }
    getF F.HAL_GROVE_STATUS_STATE 0 0 s = 1 ∧ isAuthor s = true ∧ s.grove.newAt + 500000 ≤ s.tick := by
  decide +kernel

theorem wit_charterEffective :
    let s (c : Charter) := { named0 with grove := { named0.grove with next := some c } }
    let t := s (charter0 [8, 9])
    let u := s (charter0 [8])
    t.grove.next = some (charter0 [8, 9]) ∧ (t.tick + 2 ^ 32 - (charter0 [8, 9]).effective.toNat) % 2 ^ 32 < 2 ^ 31 ∧
    ((charter0 [8, 9]).members.find? (fun m => decide (m.serial = ownSerial t))).isSome = true ∧ u.grove.next = some (charter0 [8]) ∧
    (charter0 [8]).members.find? (fun m => decide (m.serial = ownSerial u)) = none := by
  decide +kernel

theorem wit_time : getF F.HAL_GROVE_STATUS_STATE 0 0 member0 = 2 ∧ bitF F.HAL_GROVE_STATUS_TIMEKEEPER 0 0 member0 = false ∧
    member0.pins.aux = true := by
  decide +kernel

theorem test_time_residual : next (exec (.time ⟨30000, 10000, 500⟩) member0)
    (fun t => decide (getF F.HAL_TIME_STATUS_RESIDUAL 0 0 t = 10500) && bitF F.HAL_TIME_STATUS_DPLL_LOCK 0 0 t) = true := by
  decide +kernel

theorem wit_memberLost :
    let s := { named0 with cyc := 250000 * 64, grove := { named0.grove with cards := [⟨card0 1 8, 0, 0⟩] } }
    isMember 1 s = true ∧ (1 : Nat) ≠ ownPkg s ∧
    s.grove.cards.any (fun c => decide (c.card.pkg.toNat = 1) && decide (c.tick + 250000 ≤ s.tick)) = true := by
  decide +kernel

theorem wit_join :
    let s := setF F.HAL_GROVE_STATUS_STATE 0 0 0 named0
    getF F.HAL_GROVE_STATUS_STATE 0 0 s ≠ 1 ∧ getF F.HAL_GROVE_STATUS_STATE 0 0 s ≠ 2 ∧ healthy s = true ∧ healthy run0 = false ∧
    getF F.HAL_GROVE_STATUS_STATE 0 0 run0 ≠ 1 ∧ getF F.HAL_GROVE_STATUS_STATE 0 0 run0 ≠ 2 := by
  decide +kernel

theorem wit_adopt :
    let s := setF F.HAL_GROVE_STATUS_STALE 0 0 1 { named0 with grove := { named0.grove with charter := some (charter0 [8, 9]) } }
    bitF F.HAL_GROVE_STATUS_STALE 0 0 s = true ∧ s.parts = [] ∧
    ((tkCard s).map (·.epoch)).or (s.grove.charter.map fun c => c.author.epoch) = some 5 := by
  decide +kernel

/-- A launch of packages 1 and 3, in locked mode or not. -/
def far0 (locked started : Bool) : Launch :=
  { launch0 with grove := true, locked := locked, started := started, span := [1, 3], syncs := [(10, 5, false)] }

/-- A READY of a package, at tick 0. -/
def ready0 (q : PkgId) : ReadyF := ⟨q, 0, 0, 0xFFFFFFFF, 0xFFFFFFFF, false, false⟩

/-- `named0` with a launch of the grove in partition 1, READY messages held, at a tick. -/
def groved (l : Launch) (rs : List ReadyF) (tick : Nat) : State :=
  let s := named0.putPart 1 { Part.reset with launch := some l }
  { s with cyc := 64 * tick, grove := { s.grove with readys := rs.map fun r => ⟨r, 0, [1, 3]⟩ } }

theorem wit_ready : taken (takeHdr ctl0 (.ready (ready0 1)) (groved (far0 false false) [] 0)) = true ∧ (ready0 1).refused = false ∧
    ({ ready0 1 with refused := true }).refused = true := by
  decide +kernel

theorem wit_readyTimeout :
    let l := far0 false false
    let s := groved l [ready0 1] (getF F.HAL_GROVE_CFG_READY_10MS 0 0 named0 * 250000)
    launchOf 1 s = some l ∧ l.started = false ∧ l.grove = true ∧ l.stop = false ∧
    (l.span.filterMap fun q => readyOf l.digest q s) = [⟨ready0 1, 0, [1, 3]⟩] ∧ (l.span.any fun q => (readyOf l.digest q s).isNone) = true ∧
    0 + getF F.HAL_GROVE_CFG_READY_10MS 0 0 s * 250000 ≤ s.tick := by
  decide +kernel

theorem wit_groveStart :
    let l := { far0 false false with readyAt := some 0 }
    let s := groved l [ready0 1, ready0 3] 0
    launchOf 1 s = some l ∧ l.readyAt.isSome = true ∧ (l.span.all fun q => (readyOf l.digest q s).isSome) = true ∧ groveT0 l s ≤ s.tick ∧
    l.resumed = false ∧ (launchOf 1 (launchGo 1 (forgetReady l.digest s))).isSome = true := by
  decide +kernel

theorem wit_agree :
    let l := far0 true true
    let r := takeHdr ctl0 (.agree 1 (.saved 0)) (groved l [] 0)
    r.1 = true ∧ launchOf 1 r.2 = some l ∧ l.grove = true ∧ l.span.contains (1 : Nat) = true ∧ (0 : BitVec 32).toNat = l.step ∧
    l.endP (agreeA r.2) ≤ (1000 : BitVec 64).toNat ∧
    taken (takeHdr ctl0 (.agree 1 (.short 0 1000)) (groved l [] 0)) = true ∧
    taken (takeHdr ctl0 (.diverge 0 0 0) (groved l [] 0)) = true := by
  decide +kernel

theorem wit_lock :
    let s := { named0 with grove := { named0.grove with lockAt := some 0 } }
    getF F.HAL_GROVE_STATUS_STATE 0 0 named0 = 2 ∧ bitF F.HAL_GROVE_STATUS_LOCKED 0 0 named0 = false ∧ s.grove.lockAt = some 0 ∧
    0 ≤ s.tick ∧ bitF F.HAL_GROVE_STATUS_LOCKED 0 0 (setF F.HAL_GROVE_STATUS_LOCKED 0 0 1 named0) = true := by
  decide +kernel

theorem wit_lockCheck :
    let l := far0 true true
    let s := groved l [] 100
    let t := noteReadyTick 1 (runPoint 1 (s.putCore 0 runCore))
    launchOf 1 t = some l ∧ l.started = true ∧ l.stop = false ∧ l.locked = true ∧ l.short = false ∧ l.nextTick = none ∧
    l.endP (agreeA t) ≤ t.tick + agreeA t ∧ stepReady 1 l t = false := by
  decide +kernel

theorem wit_lockStep :
    let l := far0 true true
    let q := l.endP (agreeA named0)
    let m : Launch := { l with reports := [⟨1, 0, 0, q, 0⟩] }
    let all (z : State) : State := (coresOf 0).foldl (fun z c => z.putCore c { runCore with wait := .sync 2 0 }) z
    let t := noteReadyTick 1 (all (groved m [] 100))
    let u := noteReadyTick 1 (all (groved l [] 100))
    (match launchOf 1 t with
      | some x => x.started && !x.stop && x.locked && decide (x.endP (agreeA t) ≤ t.tick) && x.shortSeen (x.endP (agreeA t))
      | none => false) = true ∧
    (match launchOf 1 u with
      | some x => x.started && !x.stop && x.locked && decide (x.endP (agreeA u) ≤ u.tick) && !x.shortSeen (x.endP (agreeA u)) &&
          stepReady 1 x u
      | none => false) = true := by
  decide +kernel

/-! ## Dies, hosts and the guest (DiesHostAndGuest) -/

theorem wit_fence :
    let busy := setF F.MGT_ERR_STATUS_RESTARTING 0 0 1 run0
    dieState 0 run0 = 0 ∧ FenceWhy.command ≠ .power ∧ bitF F.MGT_ERR_STATUS_RESTARTING 0 0 run0 = false ∧ dieState 0 busy = 0 ∧
    bitF F.MGT_ERR_STATUS_RESTARTING 0 0 busy = true := by
  decide +kernel

theorem wit_fenceReturn :
    let s := setF F.MGT_DIE_INFO_STATE 0 0 1 (setF F.MGT_DIE_INFO_STATE 15 0 1 run0)
    (getF F.TAP_CTRL_DIE_EN 0 0 s).testBit 0 = false ∧ (getF F.TAP_CTRL_DIE_EN 0 0 s).testBit 15 = false ∧ dieState 0 s = 1 ∧
    dieState 15 s = 1 := by
  decide +kernel

theorem wit_linkFailing :
    let k : Port := { Port.reset with again := some (5, 8) }
    let m : Port := { Port.reset with badMs := 2, replays := 1000000 }
    let s := (linked 2).putDlink (linkUnit 0 0) k
    let t := (linked 2).putDlink (linkUnit 0 0) m
    peerLink 0 0 = some (1, 2) ∧ linkState 0 0 s = 2 ∧ (s.dlink (linkUnit 0 0)).eightTimes = true ∧
    (t.dlink (linkUnit 0 0)).tooMany (getF F.D2D_LINK_CFG_RETRY_LIMIT (linkUnit 0 0) 0 t) t.tick = true := by
  decide +kernel

/-- `dram0` with a guest present whose descriptor gives context 32 the first 2 GiB, translated onto themselves, and one request. -/
def guest0 : State :=
  let s := setF F.XLT_CTX_ROOT_EN 0 32 1 (setF F.MGT_DIE_INFO_STATE 15 0 0 dram0)
  { s with iotlb := [(0, ⟨0, [(0, { flat1 with ctx := 32 })]⟩)], guest := ⟨BitVec.ofNat 2048 (2 ^ 31 * 256 ^ 0x28), true⟩,
           pins := { s.pins with vmain := true } }

/-- A read of the guest. -/
def gread (va : BitVec 64) (len : Nat) : GuestF := ⟨9, va, len, false, 0, none⟩

theorem wit_guestDiscovery :
    let s := setF F.MGT_DIE_INFO_STATE 15 0 2 guest0
    s.pins.vmain = true ∧ inReset s = false ∧ dieState 15 s ≠ 0 ∧ dieState 15 s ≠ 1 ∧ dieState 15 guest0 = 0 := by
  decide +kernel

theorem wit_guestRequest :
    let s := guest0
    lineOk 256 128 = true ∧ lineOk 256 129 = false ∧ dieState 15 s = 0 ∧ extFlying .guest 9 s = false ∧
    (s.net.filter fun r => decide (r.src = .guest)).length < s.guestField 0x1D 1 + 1 ∧ inGuestRange 256 16 s = true ∧ inGuestRange (2 ^ 31) 16 s = false := by
  decide +kernel

theorem test_guest_outside : next (exec (.guestRequest (gread 0x80000000 16)) guest0)
    (fun t => decide ((t.resp.map fun r => (r.id, r.status)) = [(9, Status.pageFault)])) = true := by
  decide +kernel

theorem wit_hostAccess :
    lineOk 256 16 = true ∧ lineOk 256 0 = false ∧ dieState 14 dram0 = 0 ∧ aperture 256 dram0 = some 256 ∧
    aperture (2 ^ 52) dram0 = none ∧ (⟨9, none, 16, false, 0⟩ : DmaF).pa = none ∧ (⟨9, some 256, 16, false, 0⟩ : DmaF).pa = some 256 ∧
    dieState 14 (setF F.MGT_DIE_INFO_STATE 14 0 1 dram0) ≠ 0 ∧ dieState 0 (setF F.MGT_DIE_INFO_STATE 0 0 1 dram0) = 1 := by
  decide +kernel

/-! ## Power and errors (PowerAndErrors) -/

/-- `launched` with the control loop running. -/
def looped : State :=
  let s := setF F.MGT_BOOT_STATUS_STAGE 0 0 12 (launched launch0)
  { s with pins := { s.pins with vmain := true } }

theorem wit_powerInterval : loopRuns State.reset = false ∧ loopRuns looped = true := by
  decide +kernel

theorem wit_powerSteps :
    let s := { looped with power := { looped.power with resuming := [(1, 0)] } }
    let r (stage opp : Nat) : State := { looped with retunes := [⟨0, opp, stage, 0⟩] }
    let at3 := setF F.PWR_PLOT_STATUS_OPP 0 0 3 looped
    look s.power.resuming 1 = some 0 ∧ 0 ≤ s.tick ∧ plotRetunes 0 looped = [] ∧ plotRetunes 0 (r 1 2) = [⟨0, 2, 1, 0⟩] ∧
    (0 ≤ (r 1 2).tick) ∧ 2 < plotOpp 0 at3 ∧ plotOpp 0 at3 ≤ 5 := by
  decide +kernel

theorem wit_droop :
    let th := getF F.PWR_DROOP_CFG_MV 0 0 run0
    let s := { run0 with power := { run0.power with droop := [(0, 1, 250)] } }
    th ≤ th ∧ 0 < th ∧ ((look s.power.droop 0).getD (0, 0)).2 = 250 ∧ ¬ 250 + 10 < 256 ∧ ((look run0.power.droop 0).getD (0, 0)).2 + 10 < 256 := by
  decide +kernel

/-- Sensors that all read one temperature. -/
def temps0 (t : Nat) : Temps := ⟨.replicate 16 t, .replicate 24 t, .replicate 192 t, 30, 40⟩

theorem wit_thermal : 105 ≤ (hottest (temps0 105)).1 ∧ (hottest (temps0 104)).1 < 105 := by
  decide +kernel

theorem test_thermal_trip : next (exec (.thermalSample (temps0 105)) looped) (fun t => t.pins.tripHold) = true := by
  decide +kernel

theorem wit_errors :
    let lost := setF F.MGT_DIE_INFO_STATE 14 0 1 run0
    let s := { run0 with mgt := { run0.mgt with image := some ⟨0, 1, 1, 1, 0⟩ } }
    let g := { s with flash := { s.flash with a := ⟨[], 2, 1⟩ }, mgt := { s.mgt with graftEnd := some 100 } }
    reached 14 run0 = true ∧ dieState 14 run0 = 0 ∧ dieState 0 run0 = 0 ∧ (run0.core 0).active = true ∧ dieState 14 lost = 1 ∧ lost.mgt.lossSeen = false ∧
    bitF F.MGT_ERR_STATUS_RESTARTING 0 0 s = false ∧ inReset s = false ∧ s.mgt.image.isSome = true ∧
    graftSlot (restartShown 1 s) = none ∧ graftSlot (restartShown 1 g) = some 0 ∧
    bitF F.MGT_ERR_STATUS_RESTARTING 0 0 (setF F.MGT_ERR_STATUS_RESTARTING 0 0 1 s) = true := by
  decide +kernel

theorem wit_ue :
    let e := flipNibble (flipNibble 0 0 1) 1 1
    let s := { dram0 with memErr := [(memKey 0 0 / 16, e)], spadErr := [(0, e)] }
    (homeOf 0 s).any (fun h => memBad h.stack h.addr s) = true ∧ spadBad 0 0 s = true ∧
    ({ Bed.reset with victim := [⟨2, false, 0⟩] } : Bed).holds 2 = true := by
  decide +kernel

/-! ## Supplies, boot and firmware (SupplyBootFirmware) -/

theorem wit_supply :
    let main (n : Nat) : State := setF F.MGT_BOOT_STATUS_STAGE 0 0 n run0
    let low := { run0 with pins := { run0.pins with resetLow := true } }
    ({ run0 with pins := { run0.pins with aux := false } }).pins.aux = false ∧ run0.pins.aux = true ∧ bootStage (main 5) < 6 ∧
    bootStage (main 6) = 6 ∧ 6 < bootStage (main 7) ∧ low.pins.resetLow = true ∧ low.pins.tripHold = false := by
  decide +kernel

theorem wit_boot :
    let at0 (n : Nat) : State := setF F.MGT_BOOT_STATUS_STAGE 0 0 n looped
    inReset looped = false ∧ bitF F.MGT_BOOT_STATUS_RECOVERY 0 0 looped = false ∧ bitF F.MGT_ERR_STATUS_RESTARTING 0 0 looped = false ∧
    (∀ n ∈ List.range 13, bootStage (at0 n) = n) ∧ (at0 6).pins.vmain = true ∧ getF F.MGT_BOOT_STATUS_FAIL 0 0 (at0 8) ≠ 1 ∧
    (at0 9).grove.cards = [] := by
  decide +kernel

/-- `dram0` with an image of slot 0 running and a SEC_ command under way. -/
def sec0 (op : Nat) : State :=
  let s := setF F.SEC_CMD_LEN_LEN 0 0 512 dram0
  { s with mgt := { s.mgt with image := some ⟨0, 1, 1, 1, 0⟩, secOp := op } }

/-- A read has all of its bytes. -/
def gotAll (r : Got × State) : Bool := decide (r.1 = .ok 0)

theorem wit_stageImage :
    let ask0 := busReadRange .mgt secTag hostWho (secAddr (sec0 1)) (getF F.SEC_CMD_LEN_LEN 0 0 (sec0 1)) (sec0 1)
    let s := answered ask0.2
    let e := s.putSlot (stageTarget s) FwSlot.empty
    s.mgt.resetTo = none ∧ (sec0 4).mgt.secOp ≠ 0 ∧ (sec0 4).mgt.secOp ≠ 1 ∧ secRuns s = true ∧ s.mgt.secOp = 1 ∧ slotIn 2 s = none ∧
    gotAll (busReadRange .mgt secTag hostWho (secAddr e) (getF F.SEC_CMD_LEN_LEN 0 0 s) e) = true := by
  decide +kernel

theorem wit_grafts :
    let put (op st : Nat) (g : Option Nat) : State :=
      { sec0 op with flash := { (sec0 op).flash with a := ⟨[], st, 1⟩ }, mgt := { (sec0 op).mgt with graftEnd := g } }
    slotIn 1 (put 2 1 none) = some 0 ∧ (slotIn 2 (put 3 2 (some 100))).isSome = true ∧ (put 3 2 (some 100)).ownTick < 100 ∧
    (put 3 2 (some 0)).mgt.graftEnd = some 0 ∧ 0 ≤ (put 3 2 (some 0)).ownTick ∧ slotIn 2 (put 4 2 (some 100)) = some 0 ∧
    graftSlot (put 0 2 (some 0)) = some 0 ∧ secRuns (put 3 2 none) = true := by
  decide +kernel

theorem wit_settings :
    let s := answered (busReadRange .mgt secTag hostWho (secAddr (sec0 5)) 256 (sec0 5)).2
    settingsNewer s = false ∧ gotAll (busReadRange .mgt secTag hostWho (secAddr s) 256 s) = true := by
  decide +kernel

theorem wit_attest :
    let s := setF F.SEC_CMD_LEN_LEN 0 0 16384 (setF F.SEC_STATUS_KEY_OK 0 0 1 { sec0 6 with ident := some ⟨0, 0, 0x5454, 9, []⟩ })
    let s := answered (busReadRange .mgt secTag hostWho (secAddr s) 32 s).2
    let r := reserveIndex true s
    s.mgt.quote = none ∧ s.ident.isSome = true ∧ bitF F.SEC_STATUS_KEY_OK 0 0 s = true ∧
    quoteBytes ≤ getF F.SEC_CMD_LEN_LEN 0 0 s ∧ r.1 = none ∧ gotAll (busReadRange .mgt secTag hostWho (secAddr r.2) 32 r.2) = true := by
  decide +kernel

/-! ## Sideband and test (SidebandAndTest) -/

theorem wit_sideband :
    let rec1 := setF F.MGT_BOOT_STATUS_RECOVERY 0 0 1 run0
    run0.pins.aux = true ∧ inReset run0 = false ∧ (regAt .mgt 0 0x100).isSome = true ∧ regAt .mgt 0 0 = none ∧
    inRecovery run0 = false ∧ inRecovery rec1 = true := by
  decide +kernel

theorem test_recovery_code : next (exec (.recoveryWrite 0 2 0xBEEF) run0) (fun t => decide (t.i3c.resp = some (1, 1))) = true := by
  decide +kernel

/-- `run0` with main power, held in reset, no die replaced by a stand-in. -/
def tested : State :=
  let s := setF F.TAP_STATUS_STANDIN 0 0 0 run0
  { s with pins := { s.pins with vmain := true, resetLow := true } }

theorem wit_tap :
    let s := tested
    let t := setF F.TAP_STATUS_RESET_TEST 0 0 1 s
    ({ s.tap with leaving := true } : Tap).leaving = true ∧ s.tap.leaving = false ∧ tapReaches 0 s = true ∧ inTest 0 s = false ∧
    tapReaches 0 t = true ∧ inTest 0 t = true := by
  decide +kernel

theorem test_idcode : next (exec (.idcode 14) tested) (fun t => decide ((t.resp.map fun r => r.data.toNat % 2 ^ 28) = [0xD1036BB])) = true := by
  decide +kernel
end Sys2Proof.Tests
end

section
/-!
PROOFS. The fields of a 64-bit value: which bits a field has, and what putting a value into one leaves of the others (R5).
-/

namespace Sys2Proof.Machine

/-- No bit lies in both fields. -/
abbrev Fld.Apart (f g : Fld) : Prop := g.lo + g.w ≤ f.lo ∨ f.lo + f.w ≤ g.lo

theorem Fld.Apart.symm {f g : Fld} (h : f.Apart g) : g.Apart f := Or.symm h

theorem Fld.testBit_of (f : Fld) (v : BitVec 64) (j : Nat) :
    (f.of v).testBit j = (decide (j < f.w) && v.getLsbD (j + f.lo)) := by
  simp [Fld.of, Nat.testBit_mod_two_pow, Nat.testBit_div_two_pow, BitVec.getLsbD]

theorem Fld.of_lt (f : Fld) (v : BitVec 64) : f.of v < 2 ^ f.w := Nat.mod_lt _ (Nat.two_pow_pos _)

theorem Fld.of_congr {f : Fld} {v w : BitVec 64} (h : ∀ j < f.w, v.getLsbD (j + f.lo) = w.getLsbD (j + f.lo)) :
    f.of v = f.of w := by
  apply Nat.eq_of_testBit_eq
  intro j
  rw [Fld.testBit_of, Fld.testBit_of]
  by_cases hj : j < f.w
  · rw [h j hj]
  · simp [hj]

theorem Fld.getLsbD_bits {f : Fld} (hf : f.lo + f.w ≤ 64) (j : Nat) :
    f.bits.getLsbD j = decide (f.lo ≤ j ∧ j < f.lo + f.w) := by
  have h64 : j < f.lo + f.w → j < 64 := fun h => by omega
  rw [Fld.bits, BitVec.getLsbD_ofNat, Nat.testBit_mul_two_pow, Nat.testBit_two_pow_sub_one, Bool.eq_iff_iff]
  simp only [Bool.and_eq_true, decide_eq_true_eq]
  omega

theorem Fld.getLsbD_put {f : Fld} (hf : f.lo + f.w ≤ 64) (v : BitVec 64) (x j : Nat) :
    (f.put v x).getLsbD j = if f.lo ≤ j ∧ j < f.lo + f.w then x.testBit (j - f.lo) else v.getLsbD j := by
  rw [Fld.put, BitVec.getLsbD_or, BitVec.getLsbD_and, BitVec.getLsbD_not, Fld.getLsbD_bits hf, BitVec.getLsbD_ofNat,
    Nat.testBit_mul_two_pow, Nat.testBit_mod_two_pow]
  split
  · next h =>
    have h1 : j < 64 := by omega
    have h2 : j - f.lo < f.w := by omega
    simp [h, h1, h2]
  · next h =>
    by_cases hj : j < 64
    · by_cases hl : f.lo ≤ j
      · have h2 : ¬ j - f.lo < f.w := by omega
        simp [h, hj, h2]
      · simp [hl, hj]
    · simp [hj, BitVec.getLsbD_of_ge v j (by omega)]

/-- A field reads what was put into it. -/
theorem Fld.of_put {f : Fld} (hf : f.lo + f.w ≤ 64) (v : BitVec 64) (x : Nat) : f.of (f.put v x) = x % 2 ^ f.w := by
  apply Nat.eq_of_testBit_eq
  intro j
  rw [Fld.testBit_of, Fld.getLsbD_put hf, Nat.testBit_mod_two_pow]
  by_cases hj : j < f.w
  · rw [if_pos (by omega), Nat.add_sub_cancel]
  · simp [hj]

/-- A field apart from the one that was put reads as before. -/
theorem Fld.of_put_apart {f g : Fld} (hf : f.lo + f.w ≤ 64) (h : f.Apart g) (v : BitVec 64) (x : Nat) :
    g.of (f.put v x) = g.of v := by
  apply Fld.of_congr
  intro j hj
  rw [Fld.getLsbD_put hf, if_neg (by omega)]

end Sys2Proof.Machine
end

section
/-!
PROOFS. The fields of a register that hardware sets (O18).
-/

namespace Sys2Proof.Machine

theorem getF_lt (f : Fld) (u i : Nat) (s : State) : getF f u i s < 2 ^ f.w := f.of_lt _

/-- A field reads what hardware sets it to. -/
theorem getF_setF {f : Fld} (hf : f.lo + f.w ≤ 64) (u i x : Nat) (s : State) (h : swf 0 s.regs) :
    getF f u i (setF f u i x s) = x % 2 ^ f.w := by
  rw [getF, setF, readReg_writeReg _ _ _ _ _ h, Fld.of_put hf]

/-- A field of the same register apart from the one set reads as before. -/
theorem getF_setF_apart {f g : Fld} (hf : f.lo + f.w ≤ 64) (hr : g.reg = f.reg) (ha : f.Apart g) (u i x : Nat) (s : State)
    (h : swf 0 s.regs) : getF g u i (setF f u i x s) = getF g u i s := by
  rw [getF, setF, hr, readReg_writeReg _ _ _ _ _ h, Fld.of_put_apart hf ha, getF, hr]

/-- A counter that counts `n` holds the sum, at most all ones. -/
theorem getF_incF {f : Fld} (hf : f.lo + f.w ≤ 64) (u i n : Nat) (s : State) (h : swf 0 s.regs) :
    getF f u i (incF f u i n s) = min (getF f u i s + n) (2 ^ f.w - 1) := by
  have hw : 0 < 2 ^ f.w := Nat.two_pow_pos _
  rw [incF, getF_setF hf _ _ _ _ h, Nat.mod_eq_of_lt (by omega)]

/-- Settles O18: setting a field is a write of one register, in which only the bits of that field change. -/
theorem registerFields : Obligations.RegisterFields := by
  intro f g u i x s hs hf
  refine ⟨getF_setF hf u i x s hs.regs, fun hr ha => getF_setF_apart hf hr ha u i x s hs.regs, fun r v j hk => ?_,
    getF_incF hf u i x s hs.regs, rfl⟩
  exact readReg_writeReg_ne _ _ _ _ _ _ _ s hs.regs hk

end Sys2Proof.Machine
end

section
/-!
PROOFS. What software does to the fields of a register by their access codes (O19). A write, a clearing read and the value read each
go through the fields of the register one by one, and each of them changes no bit outside the field it is at.
-/

namespace Sys2Proof.Machine

/-- What the field tables keep: a field is not empty, lies in the 64 bits of a register, and its bounds fit its width. -/
abbrev Fld.Legal (f : Fld) : Prop := 0 < f.w ∧ f.lo + f.w ≤ 64 ∧ f.mn < 2 ^ f.w ∧ f.mx < 2 ^ f.w

theorem Reg.reg_of_mem_flds {r : Reg} {f : Fld} (h : f ∈ r.flds) : f.reg = r := by
  have all : ∀ g ∈ r.flds, g.reg = r := by cases r <;> decide
  exact all f h

theorem Reg.legal_of_mem_flds {r : Reg} {f : Fld} (h : f ∈ r.flds) : f.Legal := by
  have all : ∀ g ∈ r.flds, g.Legal := by cases r <;> decide
  exact all f h

theorem Reg.pairwise_apart_flds (r : Reg) : r.flds.Pairwise Fld.Apart := by cases r <;> decide

theorem Fld.of_or (f : Fld) (v w : BitVec 64) : f.of (v ||| w) = f.of v ||| f.of w := by
  apply Nat.eq_of_testBit_eq
  intro j
  simp only [Nat.testBit_or, Fld.testBit_of, BitVec.getLsbD_or, Bool.and_or_distrib_left]

theorem Fld.of_and (f : Fld) (v w : BitVec 64) : f.of (v &&& w) = f.of v &&& f.of w := by
  apply Nat.eq_of_testBit_eq
  intro j
  simp only [Nat.testBit_and, Fld.testBit_of, BitVec.getLsbD_and]
  cases decide (j < f.w) <;> simp

/-- A mask that holds all bits of a field holds each of them. -/
theorem Fld.getLsbD_of_whole {f : Fld} (hf : f.lo + f.w ≤ 64) {m : BitVec 64} (hm : m &&& f.bits = f.bits) {j : Nat} (hj : j < f.w) :
    m.getLsbD (j + f.lo) = true := by
  have h : (m &&& f.bits).getLsbD (j + f.lo) = f.bits.getLsbD (j + f.lo) := by rw [hm]
  rw [BitVec.getLsbD_and, Fld.getLsbD_bits hf] at h
  simpa [show j + f.lo < f.lo + f.w by omega] using h

theorem Fld.bits_ne_zero {f : Fld} (hw : 0 < f.w) (hf : f.lo + f.w ≤ 64) : f.bits ≠ 0 := by
  intro h
  have h1 := Fld.getLsbD_bits hf f.lo
  rw [h] at h1
  simp [hw] at h1

/-- A field of what a write brings, where the mask holds the whole field. -/
theorem Fld.of_and_whole {f : Fld} (hf : f.lo + f.w ≤ 64) {m : BitVec 64} (hm : m &&& f.bits = f.bits) (v : BitVec 64) :
    f.of (v &&& m) = f.of v := by
  apply Fld.of_congr
  intro j hj
  rw [BitVec.getLsbD_and, Fld.getLsbD_of_whole hf hm hj, Bool.and_true]

/-- Nothing of the old value is left in a field where the mask holds the whole field. -/
theorem Fld.of_and_not_whole {f : Fld} (hf : f.lo + f.w ≤ 64) {m : BitVec 64} (hm : m &&& f.bits = f.bits) (v : BitVec 64) :
    f.of (v &&& ~~~m) = 0 := by
  apply Nat.eq_of_testBit_eq
  intro j
  rw [Fld.testBit_of, BitVec.getLsbD_and, BitVec.getLsbD_not, Nat.zero_testBit]
  by_cases hj : j < f.w
  · simp [Fld.getLsbD_of_whole hf hm hj]
  · simp [hj]

/-! ## One field of a list -/

/-- A fold over fields apart from `f` leaves `f`. -/
theorem Fld.of_foldl_apart {f : Fld} {upd : BitVec 64 → Fld → BitVec 64} {fs : List Fld}
    (hu : ∀ g ∈ fs, ∀ v, f.of (upd v g) = f.of v) (v : BitVec 64) : f.of (fs.foldl upd v) = f.of v := by
  induction fs generalizing v with
  | nil => rfl
  | cons g t ih =>
    rw [List.foldl_cons, ih fun k hk => hu k (List.mem_cons_of_mem g hk), hu g List.mem_cons_self]

/-- Where each update of a fold over the fields of a register changes only its own field, a field ends as its own update makes it
from a value in which it reads as at the start. -/
theorem Fld.of_foldl_flds {r : Reg} {f : Fld} (hf : f ∈ r.flds) {upd : BitVec 64 → Fld → BitVec 64}
    (hu : ∀ (g k : Fld) v, g.Legal → g.Apart k → k.of (upd v g) = k.of v) (v : BitVec 64) :
    ∃ z, f.of z = f.of v ∧ f.of (r.flds.foldl upd v) = f.of (upd z f) := by
  obtain ⟨before, after, split⟩ := List.append_of_mem hf
  have legal : ∀ g ∈ r.flds, g.Legal := fun g => Reg.legal_of_mem_flds
  have apart := r.pairwise_apart_flds
  rw [split] at legal apart
  obtain ⟨-, hafter, hbefore⟩ := List.pairwise_append.mp apart
  refine ⟨before.foldl upd v, Fld.of_foldl_apart (fun g hg z => ?_) v, ?_⟩
  · exact hu g f z (legal g (by simp [hg])) (hbefore g hg f List.mem_cons_self)
  · rw [split, List.foldl_append, List.foldl_cons]
    refine Fld.of_foldl_apart (fun g hg z => ?_) _
    exact hu g f z (legal g (by simp [hg])) (List.rel_of_pairwise_cons hafter hg).symm

theorem swWriteAll_eq_foldl (fs : List Fld) (v m old : BitVec 64) :
    swWriteAll fs v m old = fs.foldl (fun z f => f.swWrite v m z) old := by
  induction fs generalizing old with
  | nil => rfl
  | cons f t ih => exact ih _

theorem clearRc_eq_foldl (fs : List Fld) (u i : Nat) (v : BitVec 64) :
    clearRc fs u i v = fs.foldl (fun z f => if f.acc = .rc then f.put z (f.resetAt u i) else z) v := by
  induction fs generalizing v with
  | nil => rfl
  | cons f t ih => exact ih _

theorem maskWo_eq_foldl (fs : List Fld) (v : BitVec 64) :
    maskWo fs v = fs.foldl (fun z f => if f.acc = .wo then f.put z 0 else z) v := by
  induction fs generalizing v with
  | nil => rfl
  | cons f t ih => exact ih _

/-! ## A write of software -/

/-- What a write of software leaves in a field whose bits it writes, by its access code (R7, R10). -/
def Fld.wrote (f : Fld) (v old : BitVec 64) : Nat :=
  match f.acc with
  | .rw => max f.mn (min f.mx (f.of v))
  | .w1c => f.of (old &&& ~~~v)
  | .w1s => f.of (old ||| v)
  | .ro | .rc | .wo => f.of old

/-- A write that reaches no bit of a field leaves the value. -/
theorem Fld.swWrite_none {f : Fld} {m : BitVec 64} (hm : m &&& f.bits = 0) (v old : BitVec 64) : f.swWrite v m old = old := by
  simp [Fld.swWrite, hm]

/-- A write that reaches a field puts some value into it and changes no other bit. -/
theorem Fld.swWrite_some {f : Fld} {m : BitVec 64} (hm : m &&& f.bits ≠ 0) (v old : BitVec 64) :
    ∃ x, f.swWrite v m old = f.put old x := by
  unfold Fld.swWrite
  rw [if_neg hm]
  cases f.acc <;> exact ⟨_, rfl⟩

theorem Fld.of_swWrite_apart {f g : Fld} (hf : f.lo + f.w ≤ 64) (h : f.Apart g) (v m old : BitVec 64) :
    g.of (f.swWrite v m old) = g.of old := by
  by_cases hm : m &&& f.bits = 0
  · rw [Fld.swWrite_none hm]
  · obtain ⟨x, hx⟩ := Fld.swWrite_some hm v old
    rw [hx, Fld.of_put_apart hf h]

/-- A write of a whole field leaves in it what its access code says. -/
theorem Fld.of_swWrite_whole {f : Fld} (hf : f.Legal) {m : BitVec 64} (hm : m &&& f.bits = f.bits) (v old : BitVec 64) :
    f.of (f.swWrite v m old) = f.wrote v old := by
  obtain ⟨hw, hlo, hmn, hmx⟩ := hf
  have hne : m &&& f.bits ≠ 0 := by rw [hm]; exact Fld.bits_ne_zero hw hlo
  have hnew : f.of (v &&& m ||| old &&& ~~~m) = f.of v := by
    rw [Fld.of_or, Fld.of_and_whole hlo hm, Fld.of_and_not_whole hlo hm, Nat.or_zero]
  have hclr : f.of (old &&& ~~~(v &&& m)) = f.of (old &&& ~~~v) := by
    apply Fld.of_congr
    intro j hj
    simp [BitVec.getLsbD_and, BitVec.getLsbD_not, Fld.getLsbD_of_whole hlo hm hj]
  have hset : f.of (old ||| v &&& m) = f.of (old ||| v) := by
    rw [Fld.of_or, Fld.of_and_whole hlo hm, Fld.of_or]
  have hmax : max f.mn (min f.mx (f.of v)) < 2 ^ f.w := by omega
  unfold Fld.swWrite Fld.wrote
  rw [if_neg hne]
  cases f.acc <;> simp only [Fld.of_put hlo, hnew, hclr, hset, Nat.mod_eq_of_lt, hmax, Fld.of_lt]

/-- What is left in a field depends on the old value of that field alone. -/
theorem Fld.wrote_congr {f : Fld} {old z : BitVec 64} (h : f.of z = f.of old) (v : BitVec 64) : f.wrote v z = f.wrote v old := by
  unfold Fld.wrote
  simp only [Fld.of_and, Fld.of_or, h]

theorem Fld.of_swWriteAll {r : Reg} {f : Fld} (hf : f ∈ r.flds) (v m old : BitVec 64) :
    ∃ z, f.of z = f.of old ∧ f.of (swWriteAll r.flds v m old) = f.of (f.swWrite v m z) := by
  rw [swWriteAll_eq_foldl]
  exact Fld.of_foldl_flds hf (fun g k z hg ha => Fld.of_swWrite_apart hg.2.1 ha v m z) old

/-- A write none of whose bits reach a field leaves it. -/
theorem getF_swWriteReg_none {r : Reg} {f : Fld} (hf : f ∈ r.flds) {m : BitVec 64} (hm : m &&& f.bits = 0) (u i : Nat) (v : BitVec 64)
    (s : State) (h : swf 0 s.regs) : getF f u i (swWriteReg r u i v m s) = getF f u i s := by
  obtain ⟨z, hz, hall⟩ := Fld.of_swWriteAll hf v m (readReg r u i s)
  rw [getF, swWriteReg, Reg.reg_of_mem_flds hf, readReg_writeReg _ _ _ _ _ h, hall, Fld.swWrite_none hm, hz, getF,
    Reg.reg_of_mem_flds hf]

/-- A write of a whole field leaves in it what its access code says. -/
theorem getF_swWriteReg_whole {r : Reg} {f : Fld} (hf : f ∈ r.flds) {m : BitVec 64} (hm : m &&& f.bits = f.bits) (u i : Nat)
    (v : BitVec 64) (s : State) (h : swf 0 s.regs) : getF f u i (swWriteReg r u i v m s) = f.wrote v (readReg r u i s) := by
  obtain ⟨z, hz, hall⟩ := Fld.of_swWriteAll hf v m (readReg r u i s)
  rw [getF, swWriteReg, Reg.reg_of_mem_flds hf, readReg_writeReg _ _ _ _ _ h, hall,
    Fld.of_swWrite_whole (Reg.legal_of_mem_flds hf) hm, Fld.wrote_congr hz]

/-! ## A read of software -/

/-- A field after an update that puts `x` into it where `p` holds. -/
theorem Fld.of_ite_put {f : Fld} (hf : f.lo + f.w ≤ 64) (p : Prop) [Decidable p] (v : BitVec 64) (x : Nat) :
    f.of (if p then f.put v x else v) = if p then x % 2 ^ f.w else f.of v := by
  split
  · exact Fld.of_put hf v x
  · rfl

theorem Fld.of_ite_put_apart {f g : Fld} (hf : f.lo + f.w ≤ 64) (h : f.Apart g) (p : Prop) [Decidable p] (v : BitVec 64) (x : Nat) :
    g.of (if p then f.put v x else v) = g.of v := by
  split
  · exact Fld.of_put_apart hf h v x
  · rfl

/-- A clearing read takes an RC field to its reset value and leaves every other. -/
theorem getF_readClearReg {r : Reg} {f : Fld} (hf : f ∈ r.flds) (u i : Nat) (s : State) (h : swf 0 s.regs) :
    getF f u i (readClearReg r u i s) = if f.acc = .rc then f.resetAt u i % 2 ^ f.w else getF f u i s := by
  obtain ⟨-, hlo, -, -⟩ := Reg.legal_of_mem_flds hf
  obtain ⟨z, hz, hall⟩ := Fld.of_foldl_flds hf (upd := fun z f => if f.acc = .rc then f.put z (f.resetAt u i) else z)
    (fun g k z hg ha => Fld.of_ite_put_apart hg.2.1 ha _ z _) (readReg r u i s)
  rw [getF, readClearReg, Reg.reg_of_mem_flds hf, readReg_writeReg _ _ _ _ _ h, clearRc_eq_foldl, hall, Fld.of_ite_put hlo, hz, getF,
    Reg.reg_of_mem_flds hf]

/-- A read returns 0 for a WO field and the value of every other. -/
theorem Fld.of_maskWo {r : Reg} {f : Fld} (hf : f ∈ r.flds) (v : BitVec 64) :
    f.of (maskWo r.flds v) = if f.acc = .wo then 0 else f.of v := by
  obtain ⟨-, hlo, -, -⟩ := Reg.legal_of_mem_flds hf
  obtain ⟨z, hz, hall⟩ := Fld.of_foldl_flds hf (upd := fun z f => if f.acc = .wo then f.put z 0 else z)
    (fun g k z hg ha => Fld.of_ite_put_apart hg.2.1 ha _ z _) v
  rw [maskWo_eq_foldl, hall, Fld.of_ite_put hlo, hz, Nat.zero_mod]

/-- Settles O19: the fields of a register lie apart, so each is left as its own access code says. -/
theorem accessCodes : Obligations.AccessCodes := by
  intro r f u i v m s hs hf
  refine ⟨fun hm => getF_swWriteReg_none hf hm u i v s hs.regs, fun hm => ?_, getF_readClearReg hf u i s hs.regs,
    Fld.of_maskWo hf v⟩
  rw [getF_swWriteReg_whole hf hm u i v s hs.regs, getF, Reg.reg_of_mem_flds hf]
  rfl

end Sys2Proof.Machine
end

section
/-!
PROOFS. Accesses to a whole register of the CSR window (R33 to R35): the eight bytes of one register, written and read at its address
(O21).
-/

namespace Sys2Proof.Machine

/-! ## The registers that an access overlaps -/

theorem eraseDups_replicate_succ {α : Type} [BEq α] [LawfulBEq α] (a : α) (n : Nat) : (List.replicate (n + 1) a).eraseDups = [a] := by
  rw [List.replicate_succ, List.eraseDups_cons, List.filter_eq_nil_iff.mpr (by simp), List.eraseDups_nil]

theorem filterMap_eq_replicate {α β : Type} {f : α → Option β} {a : β} {l : List α} (h : ∀ x ∈ l, f x = some a) :
    l.filterMap f = List.replicate l.length a := by
  induction l with
  | nil => rfl
  | cons x t ih =>
    rw [List.filterMap_cons_some (h x List.mem_cons_self), ih fun y hy => h y (List.mem_cons_of_mem x hy), List.length_cons,
      List.replicate_succ]

/-- An access whose every byte lies in one register overlaps that register alone. -/
theorem regsAt_eq_singleton {b : Block} {u x n : Nat} {a : CsrAt} (h : ∀ i < n + 1, regAt b u (x + i) = some a) :
    regsAt b u x (n + 1) = [a] := by
  have one : (List.range (n + 1)).filterMap (fun i => regAt b u (x + i)) = List.replicate (n + 1) a := by
    rw [filterMap_eq_replicate fun i hi => h i (List.mem_range.mp hi), List.length_range]
  rw [regsAt, one, eraseDups_replicate_succ]

/-- The registers of a unit lie in its block as those of unit 0 do. -/
theorem regAt_unit {b : Block} (hb : b ≠ .db) (u o : Nat) : regAt b u o = (regAt b 0 o).map fun a => { a with unit := u } := by
  simp only [regAt, if_neg hb, Option.map_map]
  rfl

/-! ## The bits that a write brings -/

/-- The bytes of a value below byte `k`, and the bits of those bytes. -/
def lowBytes (v k : Nat) : BitVec 64 × BitVec 64 := (BitVec.ofNat 64 (v % 256 ^ k), BitVec.ofNat 64 (256 ^ k - 1))

theorem or_byte {l k : Nat} (h : l < 256 ^ k) (b : Nat) : l ||| b * 256 ^ k = l + b * 256 ^ k := by
  have e : 256 ^ k = 2 ^ (8 * k) := by rw [Nat.pow_mul]
  rw [e] at h ⊢
  rw [Nat.mul_comm, Nat.or_comm, ← Nat.two_pow_add_eq_or_of_lt h, Nat.add_comm]

theorem lowBytes_succ (v k : Nat) : lowBytes v (k + 1) =
    ((lowBytes v k).1 ||| BitVec.ofNat 64 (v / 256 ^ k % 256 * 256 ^ k), (lowBytes v k).2 ||| BitVec.ofNat 64 (255 * 256 ^ k)) := by
  have hk : 0 < 256 ^ k := Nat.pow_pos (by decide)
  unfold lowBytes
  rw [← BitVec.ofNat_or, ← BitVec.ofNat_or, or_byte (Nat.mod_lt _ hk), or_byte (by omega), Nat.pow_succ, Nat.mod_mul,
    Nat.mul_comm (256 ^ k) (v / 256 ^ k % 256)]
  congr 3
  omega

theorem testBit_onesBelow {n i : Nat} (h : i < n) : (2 ^ n - 1).testBit i = true := by
  rw [Nat.testBit_two_pow_sub_one, decide_eq_true h]

/-- What the first `k` bytes of a register take of a write of eight bytes at its address. -/
def firstBytes (a : CsrAt) (v k : Nat) : BitVec 64 × BitVec 64 :=
  (List.range k).foldl (fun z j =>
    let i := a.off + j - a.off
    if a.off ≤ a.off + j ∧ i < 8 ∧ (2 ^ 8 - 1).testBit i then
      (z.1 ||| BitVec.ofNat 64 (v / 256 ^ i % 256 * 256 ^ j), z.2 ||| BitVec.ofNat 64 (255 * 256 ^ j))
    else z) (0, 0)

theorem csrBits_eq_firstBytes {a : CsrAt} (hw : a.reg.width = 8) (v : Nat) :
    csrBits a a.off 8 (2 ^ 8 - 1) v = firstBytes a v 8 := by
  rw [csrBits, hw, firstBytes]

theorem firstBytes_eq_lowBytes (a : CsrAt) (v : Nat) {k : Nat} (hk : k ≤ 8) : firstBytes a v k = lowBytes v k := by
  induction k with
  | zero => simp [firstBytes, lowBytes, Nat.mod_one]
  | succ k ih =>
    rw [firstBytes, List.range_succ, List.foldl_append, ← firstBytes, ih (by omega), List.foldl_cons, List.foldl_nil, lowBytes_succ]
    simp only [Nat.add_sub_cancel_left]
    rw [if_pos ⟨Nat.le_add_right _ _, hk, testBit_onesBelow hk⟩]

/-- A write of all eight bytes of a register brings every bit of it. -/
theorem csrBits_whole {a : CsrAt} (hw : a.reg.width = 8) (v : Nat) :
    csrBits a a.off 8 (2 ^ 8 - 1) v = (BitVec.ofNat 64 v, BitVec.allOnes 64) := by
  rw [csrBits_eq_firstBytes hw, firstBytes_eq_lowBytes a v (Nat.le_refl 8), lowBytes]
  refine Prod.ext ?_ rfl
  apply BitVec.eq_of_toNat_eq
  simp only [BitVec.toNat_ofNat]
  omega

/-! ## An access to one whole register -/

/-- The MGT_ block of slot 12 is served while its die trains (log entry 53). -/
theorem csrBad_mgt {slot o u x : Nat} {s : State} (hp : csrPlace slot o = .block .mgt u x) :
    csrBad slot o s = if dieState 12 s = 4 then none else absentAt slot s := by
  rw [csrBad, hp]

/-- A block other than the slot header, MGT_ and SEC_ is served while its die is PRESENT. -/
theorem csrBad_block {slot o u x : Nat} {b : Block} {s : State} (hp : csrPlace slot o = .block b u x) (hhdr : b ≠ .hdr)
    (hmgt : b ≠ .mgt) (hsec : b ≠ .sec) : csrBad slot o s = absentAt slot s := by
  rw [csrBad, hp]
  dsimp only
  split
  · exact absurd rfl hhdr
  · exact absurd rfl hmgt
  · exact absurd rfl hsec
  · rfl

/-- Address `l` of the CSR window is that of the whole of register `a`, which takes all eight bytes from there on, and its die serves
it. -/
structure CsrAt.ServedAt (a : CsrAt) (l : Nat) (s : State) : Prop where
  window : inCsr l = true
  served : csrBad (csrSlot l).1 (csrSlot l).2 s = none
  line : lineOk l 8 = true
  width : a.reg.width = 8
  place : ∃ b u, csrPlace (csrSlot l).1 (csrSlot l).2 = .block b u a.off ∧ ∀ i < 8, regAt b u (a.off + i) = some a

/-- A write of a whole register is a write of all its bits. -/
theorem exec_registerWrite_whole {a : CsrAt} {l : BitVec 52} {s : State} (h : a.ServedAt l.toNat s) (id : Nat) (v : BitVec 1024)
    (w : Who) : exec (.registerWrite (.direct id l 8 v w)) s =
      .next (respond id .ok 0 (writeAt a (.window w) (v.setWidth 64) (BitVec.allOnes 64) s)) := by
  obtain ⟨b, u, hplace, hbytes⟩ := h.place
  have hwrite : csrWrite (csrSlot l.toNat).1 (csrSlot l.toNat).2 8 (2 ^ 8 - 1) v.toNat w s =
      writeAt a (.window w) (v.setWidth 64) (BitVec.allOnes 64) s := by
    simp only [csrWrite, hplace, regsAt_eq_singleton hbytes, List.foldl_cons, List.foldl_nil, csrBits_whole h.width]
    rw [if_neg (by decide), BitVec.ofNat_toNat]
  show execRegisterWrite _ s = _
  simp only [execRegisterWrite, CsrInOk, h.line, if_true, registerWrite, windowWrite, h.window, h.served, hwrite]

/-- A read of a whole register returns what it shows and clears what a read clears. -/
theorem exec_registerReadClear_whole {a : CsrAt} {l : BitVec 52} {s : State} (h : a.ServedAt l.toNat s) (id : Nat) (v : BitVec 1024)
    (w : Who) : exec (.registerReadClear (.direct id l 8 v w)) s =
      .next (respond id .ok (BitVec.ofNat 1024 (readAt a s).1.toNat) (readAt a s).2) := by
  obtain ⟨b, u, hplace, hbytes⟩ := h.place
  have hread : csrRead (csrSlot l.toNat).1 (csrSlot l.toNat).2 8 s = ((readAt a s).1.toNat, (readAt a s).2) := by
    have hlt : (readAt a s).1.toNat < 256 ^ 8 := (readAt a s).1.isLt
    simp only [csrRead, hplace, regsAt_eq_singleton hbytes, List.foldl_cons, List.foldl_nil, Nat.le_refl, if_true, Nat.sub_self,
      Nat.pow_zero, Nat.mul_one, Nat.zero_add, Nat.mod_eq_of_lt hlt]
  show execRegisterReadClear _ s = _
  simp only [execRegisterReadClear, CsrInOk, h.line, if_true, registerRead, windowRead, h.window, h.served, hread]

theorem readReg_respond (r : Reg) (u i id : Nat) (st : Status) (d : BitVec 1024) (s : State) :
    readReg r u i (respond id st d s) = readReg r u i s := rfl

theorem getF_respond (f : Fld) (u i id : Nat) (st : Status) (d : BitVec 1024) (s : State) :
    getF f u i (respond id st d s) = getF f u i s := rfl

/-- A plain write leaves every other register. -/
theorem readReg_swWriteReg_ne {r q : Reg} {u i k j : Nat} (v m : BitVec 64) {s : State} (h : swf 0 s.regs)
    (hk : regKey q k j ≠ regKey r u i) : readReg q k j (swWriteReg r u i v m s) = readReg q k j s :=
  readReg_writeReg_ne _ _ _ _ _ _ _ s h hk

/-- A clearing read leaves every other register. -/
theorem readReg_readClearReg_ne {r q : Reg} {u i k j : Nat} {s : State} (h : swf 0 s.regs) (hk : regKey q k j ≠ regKey r u i) :
    readReg q k j (readClearReg r u i s) = readReg q k j s :=
  readReg_writeReg_ne _ _ _ _ _ _ _ s h hk

/-! ## MGT_ERR_CTRL (R404) -/

/-- Its address in die slot 12, which serves it as soon as it trains (R33, R35). -/
theorem servedAt_mgtErrCtrl {s : State} (h : dieState 12 s = 0 ∨ dieState 12 s = 4) :
    CsrAt.ServedAt ⟨.MGT_ERR_CTRL, 0, 0⟩ (0xF000C00103000 : BitVec 52).toNat s where
  window := by decide
  served := by
    have hplace : csrPlace (csrSlot (0xF000C00103000 : BitVec 52).toNat).1 (csrSlot (0xF000C00103000 : BitVec 52).toNat).2 =
        .block .mgt 0 0x3000 := by decide
    have hslot : (csrSlot (0xF000C00103000 : BitVec 52).toNat).1 = 12 := by decide
    rw [csrBad_mgt hplace]
    split
    · rfl
    · next htrain =>
      have hpresent : slotPresent 12 s = true := decide_eq_true (h.resolve_right htrain)
      rw [hslot, absentAt, if_pos hpresent]
  line := by decide
  width := by decide
  place := ⟨.mgt, 0, by decide, by decide⟩

/-- An RW field that may hold every value of its width takes the written one. -/
theorem Fld.wrote_rw {f : Fld} (hacc : f.acc = .rw) (hmn : f.mn = 0) (hmx : f.mx = 2 ^ f.w - 1) (v old : BitVec 64) :
    f.wrote v old = f.of v := by
  have hv := f.of_lt v
  rw [Fld.wrote, hacc]
  simp only
  omega

theorem writeAt_mgtErrCtrl (w : Who) (v m : BitVec 64) (s : State) :
    writeAt ⟨.MGT_ERR_CTRL, 0, 0⟩ (.window w) v m s = swWriteReg .MGT_ERR_CTRL 0 0 v m s := rfl

theorem readAt_mgtErrCtrl (s : State) :
    readAt ⟨.MGT_ERR_CTRL, 0, 0⟩ s = (readReg .MGT_ERR_CTRL 0 0 s, readClearReg .MGT_ERR_CTRL 0 0 s) := rfl

/-! ## CORE_ISSUED (R34, R107) -/

/-- The address of the register of core `c` of bed `b` of plot `p` (R34). -/
def coreIssuedAddr (p : Fin 12) (b : Fin 400) (c : Fin 64) : Nat :=
  0xF000000000000 + p.val * 0x100000000 + 0x10000000 + b.val * 0x100000 + 0x80000 + c.val * 0x1000 + 0x40

theorem csrSlot_coreIssuedAddr (p : Fin 12) (b : Fin 400) (c : Fin 64) :
    csrSlot (coreIssuedAddr p b c) = (p.val, 0x10000000 + b.val * 0x100000 + 0x80000 + c.val * 0x1000 + 0x40) := by
  unfold csrSlot coreIssuedAddr
  refine Prod.ext ?_ ?_ <;> simp only <;> omega

theorem inCsr_coreIssuedAddr (p : Fin 12) (b : Fin 400) (c : Fin 64) : inCsr (coreIssuedAddr p b c) = true := by
  have hwindow : coreIssuedAddr p b c / 2 ^ 48 = 15 := by unfold coreIssuedAddr; omega
  have hslots : coreIssuedAddr p b c % 2 ^ 48 < 2 ^ 36 := by unfold coreIssuedAddr; omega
  rw [inCsr, decide_eq_true hwindow, decide_eq_true hslots, Bool.and_self]

theorem lineOk_coreIssuedAddr (p : Fin 12) (b : Fin 400) (c : Fin 64) : lineOk (coreIssuedAddr p b c) 8 = true := by
  have hline : coreIssuedAddr p b c % 128 + 8 ≤ 128 := by unfold coreIssuedAddr; omega
  rw [lineOk, decide_eq_true hline]
  rfl

theorem bedOffset_parts (b : Nat) {c y : Nat} (hc : c < 64) (hy : y < 0x400) :
    (b * 0x100000 + 0x80000 + c * 0x1000 + y) / 0x100000 = b ∧
      (b * 0x100000 + 0x80000 + c * 0x1000 + y) % 0x100000 = 0x80000 + (c * 0x1000 + y) := ⟨by omega, by omega⟩

theorem coreOffset_parts (c : Nat) {y : Nat} (hy : y < 0x400) :
    (c * 0x1000 + y) / 0x1000 = c ∧ (0x80000 + (c * 0x1000 + y)) % 0x1000 = y := ⟨by omega, by omega⟩

/-- The block of a core in the slot of its plot (R34). -/
theorem bedPlace_core (p : Nat) {b c y : Nat} (hb : b < 400) (hc : c < 64) (hy : y < 0x400) :
    bedPlace p (b * 0x100000 + 0x80000 + c * 0x1000 + y) = .block .core (25600 * p + 64 * b + c) y := by
  obtain ⟨hbed, hoff⟩ := bedOffset_parts b hc hy
  obtain ⟨hcore, hreg⟩ := coreOffset_parts c hy
  simp only [bedPlace, hbed, hoff, Nat.add_sub_cancel_left, hcore, hreg]
  rw [if_neg (by omega), if_neg (by omega), if_neg (by omega), if_neg (by omega), if_neg (by omega), if_neg (by omega),
    if_neg (by omega), if_pos hy]
  congr 1
  omega

theorem csrPlace_coreIssued (p : Fin 12) (b : Fin 400) (c : Fin 64) :
    csrPlace (csrSlot (coreIssuedAddr p b c)).1 (csrSlot (coreIssuedAddr p b c)).2 =
      .block .core (25600 * p.val + 64 * b.val + c.val) 0x40 := by
  have ho : 0x10000000 + b.val * 0x100000 + 0x80000 + c.val * 0x1000 + 0x40 - 0x10000000 =
      b.val * 0x100000 + 0x80000 + c.val * 0x1000 + 0x40 := by omega
  rw [csrSlot_coreIssuedAddr]
  simp only [csrPlace]
  rw [if_neg (by omega), if_pos p.isLt, if_pos (by omega), ho, bedPlace_core p.val b.isLt c.isLt (by decide)]

theorem regAt_coreIssued (k : Nat) : ∀ i < 8, regAt .core k (0x40 + i) = some ⟨.CORE_ISSUED, k, 0⟩ := by
  have unit0 : ∀ i < 8, regAt .core 0 (0x40 + i) = some ⟨.CORE_ISSUED, 0, 0⟩ := by decide
  intro i hi
  rw [regAt_unit (by decide), unit0 i hi]
  rfl

/-- The plot that holds the core serves it while it is PRESENT. -/
theorem servedAt_coreIssued {p : Fin 12} {s : State} (h : dieState p.val s = 0) (b : Fin 400) (c : Fin 64) :
    CsrAt.ServedAt ⟨.CORE_ISSUED, 25600 * p.val + 64 * b.val + c.val, 0⟩ (coreIssuedAddr p b c) s where
  window := inCsr_coreIssuedAddr p b c
  served := by
    have hpresent : slotPresent p.val s = true := decide_eq_true h
    have hslot : (csrSlot (coreIssuedAddr p b c)).1 = p.val := by rw [csrSlot_coreIssuedAddr]
    rw [csrBad_block (csrPlace_coreIssued p b c) (by decide) (by decide) (by decide), hslot, absentAt, if_pos hpresent]
  line := lineOk_coreIssuedAddr p b c
  width := rfl
  place := ⟨.core, _, csrPlace_coreIssued p b c, regAt_coreIssued _⟩

theorem toNat_coreIssuedAddr (p : Fin 12) (b : Fin 400) (c : Fin 64) :
    (BitVec.ofNat 52 (coreIssuedAddr p b c)).toNat = coreIssuedAddr p b c := by
  rw [BitVec.toNat_ofNat, Nat.mod_eq_of_lt (by unfold coreIssuedAddr; omega)]

theorem writeAt_coreIssued (k : Nat) (w : Who) (v m : BitVec 64) (s : State) :
    writeAt ⟨.CORE_ISSUED, k, 0⟩ (.window w) v m s = swWriteReg .CORE_ISSUED k 0 v m s := rfl

theorem readAt_coreIssued (k : Nat) (s : State) :
    readAt ⟨.CORE_ISSUED, k, 0⟩ s = (readReg .CORE_ISSUED k 0 s, readClearReg .CORE_ISSUED k 0 s) := rfl

/-! ## What is written reads back -/

/-- A write of MGT_ERR_CTRL sets its three fields and leaves every other register. -/
theorem write_mgtErrCtrl {s : State} (hs : Sound s) (h : dieState 12 s = 0 ∨ dieState 12 s = 4) (id : Nat) (w : Who) (v : BitVec 64) :
    ∃ t, exec (.registerWrite (.direct id 0xF000C00103000 8 (v.setWidth 1024) w)) s = .next t ∧
      getF F.MGT_ERR_CTRL_IE 0 0 t = v.toNat % 2 ∧ getF F.MGT_ERR_CTRL_HOST_LOSS 0 0 t = v.toNat / 2 % 2 ∧
      getF F.MGT_ERR_CTRL_IID 0 0 t = v.toNat / 2 ^ 16 % 2 ^ 11 ∧
      (∀ r u i, regKey r u i ≠ regKey .MGT_ERR_CTRL 0 0 → readReg r u i t = readReg r u i s) ∧
      t = { s with regs := t.regs, resp := ⟨id, .ok, 0⟩ :: s.resp } := by
  have hv : (v.setWidth 1024).setWidth 64 = v := by
    rw [BitVec.setWidth_setWidth_of_le _ (by decide), BitVec.setWidth_eq]
  have takes : ∀ f ∈ Reg.MGT_ERR_CTRL.flds, f.acc = .rw → f.mn = 0 → f.mx = 2 ^ f.w - 1 →
      getF f 0 0 (respond id .ok 0 (swWriteReg .MGT_ERR_CTRL 0 0 v (BitVec.allOnes 64) s)) = f.of v := by
    intro f hf hacc hmn hmx
    rw [getF_respond, getF_swWriteReg_whole hf BitVec.allOnes_and _ _ _ _ hs.regs, Fld.wrote_rw hacc hmn hmx]
  refine ⟨_, exec_registerWrite_whole (servedAt_mgtErrCtrl h) id _ w, ?_⟩
  rw [writeAt_mgtErrCtrl, hv]
  refine ⟨?_, ?_, ?_, fun r u i hk => ?_, rfl⟩
  · rw [takes _ (by decide) rfl rfl rfl, Fld.of]
    simp [F.MGT_ERR_CTRL_IE]
  · exact takes F.MGT_ERR_CTRL_HOST_LOSS (by decide) rfl rfl rfl
  · exact takes F.MGT_ERR_CTRL_IID (by decide) rfl rfl rfl
  · rw [readReg_respond, readReg_swWriteReg_ne _ _ hs.regs hk]

/-- A register written with what it holds leaves every register. -/
theorem readReg_writeReg_readReg (r q : Reg) (u i k j : Nat) {s : State} (h : swf 0 s.regs) :
    readReg q k j (writeReg r u i (readReg r u i s) s) = readReg q k j s := by
  unfold readReg writeReg
  simp only [sget_sput _ _ _ _ _ h]
  split
  · next hk => rw [hk, BitVec.xor_assoc (sget 0 s.regs _), BitVec.xor_self, BitVec.xor_zero]
  · rfl

/-- A read of MGT_ERR_CTRL, which has no RC field, returns it and leaves every register. -/
theorem read_mgtErrCtrl {s : State} (hs : Sound s) (h : dieState 12 s = 0 ∨ dieState 12 s = 4) (id : Nat) (w : Who) :
    ∃ t, exec (.registerReadClear (.direct id 0xF000C00103000 8 0 w)) s = .next t ∧
      t.resp = ⟨id, .ok, BitVec.ofNat 1024 (readReg .MGT_ERR_CTRL 0 0 s).toNat⟩ :: s.resp ∧
      (∀ r u i, readReg r u i t = readReg r u i s) :=
  ⟨_, exec_registerReadClear_whole (servedAt_mgtErrCtrl h) id 0 w, rfl, fun r u i =>
    readReg_writeReg_readReg .MGT_ERR_CTRL r 0 0 u i hs.regs⟩

/-- A read of the count of a core returns it, clears it and leaves every other register. -/
theorem read_coreIssued {s : State} (hs : Sound s) {p : Fin 12} (h : dieState p.val s = 0) (b : Fin 400) (c : Fin 64) (id : Nat)
    (v : BitVec 1024) (w : Who) :
    let k := 25600 * p.val + 64 * b.val + c.val
    ∃ t, exec (.registerReadClear (.direct id (BitVec.ofNat 52 (coreIssuedAddr p b c)) 8 v w)) s = .next t ∧
      t.resp = ⟨id, .ok, BitVec.ofNat 1024 (readReg .CORE_ISSUED k 0 s).toNat⟩ :: s.resp ∧ getF F.CORE_ISSUED_COUNT k 0 t = 0 ∧
      (∀ r u i, regKey r u i ≠ regKey .CORE_ISSUED k 0 → readReg r u i t = readReg r u i s) := by
  intro k
  have served := servedAt_coreIssued h b c
  rw [← toNat_coreIssuedAddr] at served
  refine ⟨_, exec_registerReadClear_whole served id v w, rfl, ?_, fun r u i hk => ?_⟩
  · rw [getF_respond, readAt_coreIssued, getF_readClearReg (by decide) _ _ _ hs.regs]
    rfl
  · rw [readReg_respond, readAt_coreIssued, readReg_readClearReg_ne hs.regs hk]

/-- A write of the count of a core leaves it. -/
theorem write_coreIssued {s : State} (hs : Sound s) {p : Fin 12} (h : dieState p.val s = 0) (b : Fin 400) (c : Fin 64) (id : Nat)
    (v : BitVec 1024) (w : Who) :
    let k := 25600 * p.val + 64 * b.val + c.val
    ∃ t, exec (.registerWrite (.direct id (BitVec.ofNat 52 (coreIssuedAddr p b c)) 8 v w)) s = .next t ∧
      getF F.CORE_ISSUED_COUNT k 0 t = getF F.CORE_ISSUED_COUNT k 0 s := by
  intro k
  have served := servedAt_coreIssued h b c
  rw [← toNat_coreIssuedAddr] at served
  refine ⟨_, exec_registerWrite_whole served id v w, ?_⟩
  rw [getF_respond, writeAt_coreIssued, getF_swWriteReg_whole (by decide) BitVec.allOnes_and _ _ _ _ hs.regs]
  rfl

/-- Settles O21: each address names one whole register, whose fields the access treats by their access codes. -/
theorem writtenRegisterReadsBack : Obligations.WrittenRegisterReadsBack := by
  intro s id w hs
  exact ⟨fun v h => write_mgtErrCtrl hs h id w v, fun h => read_mgtErrCtrl hs h id w,
    fun p b c v h => ⟨read_coreIssued hs h b c id v w, write_coreIssued hs h b c id v w⟩⟩

end Sys2Proof.Machine
end

section
/-!
PROOFS. The answers of the CSR window (R33, R35, R161, R316): what stops an access at its address, and what becomes of one that nothing
stops (O20).
-/

namespace Sys2Proof.Machine

/-- What stops an access at a local address: it lies outside the window, or its die does not serve the block (R33, R35). -/
def windowStop (l : Nat) (s : State) : Option Status :=
  if inCsr l then csrBad (csrSlot l).1 (csrSlot l).2 s else some .dieAbsent

theorem windowStop_outside {l : Nat} (s : State) (h : ¬(l / 2 ^ 48 = 15 ∧ l % 2 ^ 48 < 2 ^ 36)) :
    windowStop l s = some .dieAbsent :=
  if_neg (by simpa [inCsr] using h)

theorem windowStop_inside {l : Nat} (s : State) (h : l / 2 ^ 48 = 15 ∧ l % 2 ^ 48 < 2 ^ 36) :
    windowStop l s = csrBad (l / 2 ^ 32 % 16) (l % 2 ^ 32) s :=
  if_pos (by simpa [inCsr] using h)

/-- The slot header is served whatever the state of its die (R35). -/
theorem csrBad_header {slot o : Nat} (s : State) (h : o < 0x100000) : csrBad slot o s = none := by
  have hplace : csrPlace slot o = .block .hdr slot (o % 0x100000) := by
    rw [csrPlace]
    exact if_pos (Nat.div_eq_of_lt h)
  rw [csrBad, hplace]

/-! ## Accesses given whole -/

theorem windowWrite_stopped {l : Nat} {st : Status} {s : State} (h : windowStop l s = some st) (n mask v : Nat) (w : Who) :
    windowWrite l n mask v w s = (st, s) := by
  unfold windowStop at h
  rw [windowWrite, h]

theorem windowWrite_served {l : Nat} {s : State} (h : windowStop l s = none) (n mask v : Nat) (w : Who) :
    windowWrite l n mask v w s = (.ok, csrWrite (csrSlot l).1 (csrSlot l).2 n mask v w s) := by
  unfold windowStop at h
  rw [windowWrite, h]

theorem windowRead_stopped {l : Nat} {st : Status} {s : State} (h : windowStop l s = some st) (n : Nat) :
    windowRead l n s = (st, 0, s) := by
  unfold windowStop at h
  rw [windowRead, h]

theorem windowRead_served {l : Nat} {s : State} (h : windowStop l s = none) (n : Nat) :
    windowRead l n s = (.ok, (csrRead (csrSlot l).1 (csrSlot l).2 n s).1, (csrRead (csrSlot l).1 (csrSlot l).2 n s).2) := by
  unfold windowStop at h
  rw [windowRead, h]

/-- A write within one line is one at its local address. -/
theorem exec_registerWrite_direct {l : BitVec 52} {n : Nat} (hl : lineOk l.toNat n = true) (id : Nat) (v : BitVec 1024) (w : Who)
    (s : State) : exec (.registerWrite (.direct id l n v w)) s =
      .next (respond id (windowWrite l.toNat n (2 ^ n - 1) v.toNat w s).1 0 (windowWrite l.toNat n (2 ^ n - 1) v.toNat w s).2) :=
  if_pos hl

/-- A read within one line is one at its local address. -/
theorem exec_registerReadClear_direct {l : BitVec 52} {n : Nat} (hl : lineOk l.toNat n = true) (id : Nat) (v : BitVec 1024) (w : Who)
    (s : State) : exec (.registerReadClear (.direct id l n v w)) s =
      .next (respond id (windowRead l.toNat n s).1 (BitVec.ofNat 1024 (windowRead l.toNat n s).2.1) (windowRead l.toNat n s).2.2) :=
  if_pos hl

/-- An access to an address that nothing serves is answered with the status, and changes nothing else. -/
theorem exec_window_stopped {l : BitVec 52} {n : Nat} (hl : lineOk l.toNat n = true) {st : Status} {s : State}
    (h : windowStop l.toNat s = some st) (id : Nat) (v : BitVec 1024) (w : Who) :
    exec (.registerWrite (.direct id l n v w)) s = .next (respond id st 0 s) ∧
      exec (.registerReadClear (.direct id l n v w)) s = .next (respond id st 0 s) := by
  rw [exec_registerWrite_direct hl, exec_registerReadClear_direct hl, windowWrite_stopped h, windowRead_stopped h]
  exact ⟨rfl, rfl⟩

/-- An access to an address that is served is answered OK; it writes the registers there, or returns them. -/
theorem exec_window_served {l : BitVec 52} {n : Nat} (hl : lineOk l.toNat n = true) {s : State}
    (h : windowStop l.toNat s = none) (id : Nat) (v : BitVec 1024) (w : Who) :
    let slot := l.toNat / 2 ^ 32 % 16
    let o := l.toNat % 2 ^ 32
    exec (.registerWrite (.direct id l n v w)) s = .next (respond id .ok 0 (csrWrite slot o n (2 ^ n - 1) v.toNat w s)) ∧
      exec (.registerReadClear (.direct id l n v w)) s =
        .next (respond id .ok (BitVec.ofNat 1024 (csrRead slot o n s).1) (csrRead slot o n s).2) := by
  rw [exec_registerWrite_direct hl, exec_registerReadClear_direct hl, windowWrite_served h, windowRead_served h]
  exact ⟨rfl, rfl⟩

/-! ## Requests under way -/

/-- What stops a request under way at the window, whatever it asks for: its route is cut, its address is not served, or it comes from
another package (R16, R33, R316). -/
def underStop (r : Req) (s : State) : Option Status :=
  if cutOff r.src r.pkg r.pa s then some .dieAbsent
  else match csrBad (r.pa / 2 ^ 32 % 16) (r.pa % 2 ^ 32) s with
    | some st => some st
    | none => if r.who.remote then some .pageFault else none

theorem underBad_plain {r : Req} (h : r.atom = none) (s : State) : underBad r s = underStop r s := by
  rw [underBad, underStop, h, csrSlot]
  cases cutOff r.src r.pkg r.pa s with
  | true => rfl
  | false => cases csrBad (r.pa / 2 ^ 32 % 16) (r.pa % 2 ^ 32) s <;> simp

/-- An atomic that no other reason stops ends with PAGE_FAULT (R161). -/
theorem underBad_atomic {r : Req} {a : Atom} (h : r.atom = some a) (ha : atomPlain a = false) (s : State) :
    underBad r s = some ((underStop r s).getD .pageFault) := by
  rw [underBad, underStop, h, csrSlot]
  cases cutOff r.src r.pkg r.pa s with
  | true => rfl
  | false =>
    cases csrBad (r.pa / 2 ^ 32 % 16) (r.pa % 2 ^ 32) s with
    | some st => simp
    | none => cases r.who.remote <;> simp [ha]

section
variable {r : Req} {id : Nat} {s : State} (hget : netGet id s = some r) (hat : r.atWindow s = true)
include hget hat

theorem exec_registerWrite_under : exec (.registerWrite (.under id)) s = .next (underWrite r s) := by
  show Host.Outcome.next (registerWrite (.under id) s) = _
  simp only [registerWrite, hget, hat, if_true]

theorem exec_registerReadClear_under : exec (.registerReadClear (.under id)) s = .next (underRead r s) := by
  show Host.Outcome.next (registerRead (.under id) s) = _
  simp only [registerRead, hget, hat, if_true]

theorem exec_registerWrite_under_stopped {st : Status} (hw : r.write = true) (ha : r.atom = none) (h : underStop r s = some st) :
    exec (.registerWrite (.under id)) s = .next (complete r st 0 s) := by
  rw [exec_registerWrite_under hget hat, underWrite, if_pos (by rw [ha]; exact hw), underBad_plain ha, h]

theorem exec_registerWrite_under_served (hw : r.write = true) (ha : r.atom = none) (h : underStop r s = none) :
    exec (.registerWrite (.under id)) s =
      let z := windowWrite r.pa r.len r.mask.toNat r.data.toNat r.who s
      .next (complete r z.1 0 z.2) := by
  rw [exec_registerWrite_under hget hat, underWrite, if_pos (by rw [ha]; exact hw), underBad_plain ha, h]

theorem exec_registerReadClear_under_stopped {st : Status} (hw : ¬r.write = true) (ha : r.atom = none) (h : underStop r s = some st) :
    exec (.registerReadClear (.under id)) s = .next (complete r st 0 s) := by
  rw [exec_registerReadClear_under hget hat, underRead, if_pos (by rw [ha]; simpa using hw), underBad_plain ha, h]

theorem exec_registerReadClear_under_served (hw : ¬r.write = true) (ha : r.atom = none) (h : underStop r s = none) :
    exec (.registerReadClear (.under id)) s =
      let z := windowRead r.pa r.len s
      .next (complete r z.1 (BitVec.ofNat 1024 z.2.1) z.2.2) := by
  rw [exec_registerReadClear_under hget hat, underRead, if_pos (by rw [ha]; simpa using hw), underBad_plain ha, h, ha]

theorem exec_registerWrite_under_atomic {a : Atom} (ha : r.atom = some a) (hp : atomPlain a = false) :
    exec (.registerWrite (.under id)) s = .next (complete r ((underStop r s).getD .pageFault) 0 s) := by
  rw [exec_registerWrite_under hget hat, underWrite, underBad_atomic ha hp, if_pos (by simp [ha, hp])]

end

/-- Settles O20: an access is stopped at its address or done there. -/
theorem windowAnswers : Obligations.WindowAnswers := by
  intro id n l v w s hn hline slot o inside x
  have hl : lineOk l.toNat n = true := by simp [lineOk, hn, hline]
  refine ⟨fun hin => exec_window_stopped hl (windowStop_outside s hin) id v w, fun st hin hbad => ?_, fun hin hbad => ?_,
    csrBad_header s, fun r hget hlocal hcsr hsent => ?_⟩
  · exact exec_window_stopped hl ((windowStop_inside s hin).trans hbad) id v w
  · exact exec_window_served hl ((windowStop_inside s hin).trans hbad) id v w
  · have hat : r.atWindow s = true := by simp [Req.atWindow, hlocal, hcsr, hsent]
    exact ⟨fun st h => ⟨fun hw ha => exec_registerWrite_under_stopped hget hat hw ha h,
        fun hw ha => exec_registerReadClear_under_stopped hget hat hw ha h⟩,
      fun h => ⟨fun hw ha => exec_registerWrite_under_served hget hat hw ha h,
        fun hw ha => exec_registerReadClear_under_served hget hat hw ha h⟩,
      fun a ha hp => exec_registerWrite_under_atomic hget hat ha hp⟩

end Sys2Proof.Machine
end

section
/-!
PROOFS. Outside accesses to a scratchpad: how they reach it (R28, R118, R120, R161) and what a grant of its bank does (R111, R114, R119,
R122) (O30).
-/

namespace Sys2Proof.Machine

/-! ## What stops an access -/

theorem outBad_of_winBad {c : Nat} {o : Outside} {st : Status} {s : State} (h : winBad o.who c s = some st) :
    outBad c o s = some st := by
  rw [outBad, h]

/-- A scratchpad takes no floating-point add (R161). -/
theorem outBad_fadd {c : Nat} {o : Outside} {a : Atom} {s : State} (h : winBad o.who c s = none) (ha : o.atom = some a)
    (hf : a.isFadd = true) : outBad c o s = some .pageFault := by
  rw [outBad, h, ha]
  simp [hf]

/-- An access that the scratchpad serves, and that is no floating-point add and no atomic with a form of its own, is taken. -/
theorem outBad_none {c : Nat} {o : Outside} {s : State} (h : winBad o.who c s = none) (hform : o.atom.isSome → o.form = .plain)
    (hf : ∀ a, o.atom = some a → a.isFadd = false) : outBad c o s = none := by
  rw [outBad, h]
  cases ha : o.atom with
  | none => rfl
  | some a => simp [hf a ha, hform (by rw [ha]; rfl)]

/-! ## Arrival -/

theorem outsideAccess_stopped {c : Nat} {o : Outside} {st : Status} {s : State} (hnet : o.net = false)
    (h : outBad c o s = some st) : outsideAccess c o s = respond o.id st 0 s := by
  rw [outsideAccess, h]
  simp only [answerOut, hnet, Bool.false_eq_true, if_false]

/-- Whether a scratchpad has room for one more access: those of WIN are at most 16 (R120). -/
def OutsideRoom (c : Nat) (o : Outside) (s : State) : Prop :=
  o.brw = true ∨ ((s.core c).outside.filter fun x => !x.brw).length < 16

theorem outsideRoom_iff {c : Nat} {o : Outside} {s : State} : OutsideRoom c o s ↔ (!o.brw && winFull c s) = false := by
  cases h : o.brw <;> simp [OutsideRoom, winFull, h]

theorem outsideAccess_queued {c : Nat} {o : Outside} {s : State} (hnet : o.net = false) (h : outBad c o s = none)
    (hroom : OutsideRoom c o s) :
    outsideAccess c o s = s.putCore c { s.core c with outside := (s.core c).outside ++ [o] } := by
  rw [outsideAccess, h]
  simp only [outsideRoom_iff.mp hroom, bankOut, hnet, Bool.false_eq_true, if_false]

theorem outsideAccess_held {c : Nat} {o : Outside} {s : State} (hnet : o.net = false) (h : outBad c o s = none)
    (hroom : ¬OutsideRoom c o s) : outsideAccess c o s = meshHold c o s := by
  have hfull : (!o.brw && winFull c s) = true := by simpa using mt outsideRoom_iff.mpr hroom
  rw [outsideAccess, h]
  simp only [hfull, hnet, Bool.false_eq_true, if_true, if_false]

/-- Command `i` brings access `o` to the scratchpad of core `c`: stopped, queued or held in the mesh. -/
def Arrives (c : Nat) (i : Instr) (o : Outside) (s : State) : Prop :=
  (∀ st, winBad o.who c s = some st → exec i s = .next (respond o.id st 0 s)) ∧
  (winBad o.who c s = none →
    (∀ a, o.atom = some a → a.isFadd = true → exec i s = .next (respond o.id .pageFault 0 s)) ∧
    ((∀ a, o.atom = some a → a.isFadd = false) →
      (OutsideRoom c o s → exec i s = .next (s.putCore c { s.core c with outside := (s.core c).outside ++ [o] })) ∧
      (¬OutsideRoom c o s → exec i s = .next (meshHold c o s))))

/-- A command that carries its access whole brings it to the scratchpad. -/
theorem arrives_of_exec {c : Nat} {i : Instr} {o : Outside} {s : State} (hexec : exec i s = .next (outsideAccess c o s))
    (hnet : o.net = false) (hform : o.atom.isSome → o.form = .plain) : Arrives c i o s := by
  rw [Arrives, hexec]
  refine ⟨fun st h => ?_, fun h => ⟨fun a ha hf => ?_, fun hf => ⟨fun hroom => ?_, fun hroom => ?_⟩⟩⟩
  · rw [outsideAccess_stopped hnet (outBad_of_winBad h)]
  · rw [outsideAccess_stopped hnet (outBad_fadd h ha hf)]
  · rw [outsideAccess_queued hnet (outBad_none h hform hf) hroom]
  · rw [outsideAccess_held hnet (outBad_none h hform hf) hroom]

theorem exec_spadOutsideAccess_direct (c : CoreId) {r : OutReq} (hlen : 1 ≤ r.len) (hline : r.off.toNat % 128 + r.len ≤ 128)
    (s : State) : exec (.spadOutsideAccess c (.direct r)) s = .next (outsideAccess c (outOf r) s) :=
  if_pos (by simp [SpadInOk, hlen, hline])

theorem exec_spadAtomic_direct (c : CoreId) (id : Nat) (off : BitVec 15) (a : Atom) (w : Who) (s : State) :
    exec (.spadAtomic c id off (some a) w) s = .next (outsideAccess c (outAtom id false false w off.toNat .plain a) s) := rfl

theorem outAtom_id (id : Nat) (net brw : Bool) (w : Who) (off : Nat) (f : Form) (a : Atom) :
    (outAtom id net brw w off f a).id = id := by
  rw [outAtom]
  split <;> rfl

theorem outAtom_net (id : Nat) (net brw : Bool) (w : Who) (off : Nat) (f : Form) (a : Atom) :
    (outAtom id net brw w off f a).net = net := by
  rw [outAtom]
  split <;> rfl

theorem outAtom_form (id : Nat) (net brw : Bool) (w : Who) (off : Nat) (f : Form) (a : Atom) :
    (outAtom id net brw w off f a).form = f := by
  rw [outAtom]
  split <;> rfl

theorem arrives_spadOutsideAccess (c : CoreId) {r : OutReq} (hlen : 1 ≤ r.len) (hline : r.off.toNat % 128 + r.len ≤ 128) (s : State) :
    Arrives c (.spadOutsideAccess c (.direct r)) (outOf r) s :=
  arrives_of_exec (exec_spadOutsideAccess_direct c hlen hline s) rfl fun h => nomatch h

theorem arrives_spadAtomic (c : CoreId) (id : Nat) (off : BitVec 15) (a : Atom) (w : Who) (s : State) :
    Arrives c (.spadAtomic c id off (some a) w) (outAtom id false false w off.toNat .plain a) s :=
  arrives_of_exec (exec_spadAtomic_direct c id off a w s) (outAtom_net ..) fun _ => outAtom_form ..

/-! ## Requests under way -/

/-- Whether an earlier write or atomic of the source of a request is still on its way to the same scratchpad (R148). -/
def earlierToSpad (r : Req) (s : State) : Bool :=
  (s.net.takeWhile fun x => decide (x.id ≠ r.id)).any fun x => decide (x.src = r.src) && decide (x.st = .sent) &&
    (x.write || x.atom.isSome) && isLocal x.pkg s && decide (x.pa / 2 ^ 15 % 2 ^ 33 = r.pa / 2 ^ 15 % 2 ^ 33)

/-- A request on its way to a scratchpad of the package reaches it. -/
theorem underSpad_arrives {r : Req} {s : State} {c off : Nat} {f : Form} (hget : netGet r.id s = some r) (hsent : r.st = .sent)
    (hlocal : isLocal r.pkg s = true) (hplace : placeOf r.pa s = .spad c off f) :
    underSpad r.id r.atom.isSome s = if earlierToSpad r s then s
      else if cutOff r.src r.pkg r.pa s then complete r .dieAbsent 0 s else outsideAccess c (outOfReq r c off f) s := by
  rw [underSpad, hget]
  show (if r.st ≠ .sent then _ else if (!isLocal r.pkg s) = true ∨ r.atom.isSome ≠ r.atom.isSome ∨ earlierToSpad r s = true then s
    else _) = _
  simp only [hsent, hlocal, hplace, ne_eq, not_true_eq_false, Bool.not_true, Bool.false_eq_true, false_or, if_false]

/-- A request bound for the scratchpad of core `c` is not turned away by the command that names that core. -/
theorem reachSpad_own {r : Req} {s : State} {c off : Nat} {f : Form} (hget : netGet r.id s = some r)
    (hplace : placeOf r.pa s = .spad c off f) (atom : Bool) : reachSpad c r.id atom s = underSpad r.id atom s := by
  rw [reachSpad, hget, if_neg (by simp [spadElse, hplace])]

/-- The command by which a request under way reaches the scratchpad of core `c`. -/
def reachCmd (c : CoreId) (r : Req) : Instr :=
  if r.atom.isSome then .spadAtomic c r.id 0 none r.who else .spadOutsideAccess c (.under r.id)

theorem exec_reachCmd (c : CoreId) (r : Req) (s : State) : exec (reachCmd c r) s = .next (reachSpad c r.id r.atom.isSome s) := by
  rw [reachCmd]
  cases r.atom.isSome <;> rfl

/-- The command brings its request to the scratchpad, unless an earlier one of its source holds it or its route is cut. -/
theorem exec_reachCmd_own {c : CoreId} {r : Req} {s : State} {off : Nat} {f : Form} (hget : netGet r.id s = some r)
    (hsent : r.st = .sent) (hlocal : isLocal r.pkg s = true) (hplace : placeOf r.pa s = .spad c off f) :
    exec (reachCmd c r) s = .next (if earlierToSpad r s then s
      else if cutOff r.src r.pkg r.pa s then complete r .dieAbsent 0 s else outsideAccess c (outOfReq r c off f) s) := by
  rw [exec_reachCmd, reachSpad_own hget hplace, underSpad_arrives hget hsent hlocal hplace]

/-! ## Grants -/

theorem outBad_noteGrant (c d : Nat) (o q : Outside) (bank : Nat) (s : State) :
    outBad c o (noteGrant d bank q s) = outBad c o s := rfl

/-- The command that grants an access: of a read-modify-write, or of a plain access (R119, R122). -/
def grantCmd (rmw : Bool) (c : CoreId) (bank : Fin 16) : Instr := if rmw then .spadAliasWrite c bank else .spadOutsideGrant c bank

theorem grantCmd_not (rmw : Bool) (c : CoreId) (bank : Fin 16) :
    grantCmd (!rmw) c bank = if rmw then .spadOutsideGrant c bank else .spadAliasWrite c bank := by
  cases rmw <;> rfl

theorem exec_grantCmd (rmw : Bool) (c : CoreId) (bank : Fin 16) (s : State) :
    exec (grantCmd rmw c bank) s = .next (grantOutside c bank rmw s) := by
  cases rmw <;> rfl

theorem exec_grantCmd_own {c : CoreId} {bank : Fin 16} {o : Outside} {s : State} (h : outsideNow c bank s = some o) :
    exec (grantCmd o.isRmw c bank) s = .next (serveOut c o (noteGrant c bank o s)) := by
  rw [exec_grantCmd, grantOutside, h]
  exact congrArg _ (if_pos rfl)

/-- Each of the two commands leaves the other's access where it is. -/
theorem exec_grantCmd_other {c : CoreId} {bank : Fin 16} {o : Outside} {s : State} (h : outsideNow c bank s = some o) :
    exec (grantCmd (!o.isRmw) c bank) s = .next s := by
  rw [exec_grantCmd, grantOutside, h]
  exact congrArg _ (if_neg (by simp))

theorem serveOut_refused {c : Nat} {o : Outside} {st : Status} {s : State} (h : outBad c o s = some st) :
    serveOut c o s = answerFront c o st 0 s := by
  rw [serveOut, h]

/-- Whether the part that a granted access does next passes its region check (R114). -/
def passes (c : Nat) (o : Outside) (s : State) : Bool :=
  regionOk c (masterOf o) o.grans.1 (o.grans.1 + o.grans.2 - 1) o.reads o.write s

theorem serveOut_regionFails {c : Nat} {o : Outside} {s : State} (h : outBad c o s = none) (hr : passes c o s = false) :
    serveOut c o s = advance c { o with status := o.status.join .pageFault } (regionViol c (masterOf o) s) := by
  rw [passes] at hr
  rw [serveOut, h, hr]
  rfl

theorem serveOut_passes {c : Nat} {o : Outside} {s : State} (h : outBad c o s = none) (hr : passes c o s = true) :
    serveOut c o s = if o.isRmw then rmwCycle c o s else doPart c o s := by
  rw [passes] at hr
  rw [serveOut, h, hr]
  rfl

theorem doPart_write {c : Nat} {o : Outside} (h : o.write = true) (s : State) : doPart c o s = storeLate c o o.bits.1 o.bits.2 s :=
  if_pos h

theorem doPart_read {c d : Nat} {o : Outside} {s t : State} (hw : o.write = false)
    (h : outsideRead c o.grans.1 o.grans.2 s = (some d, t)) :
    doPart c o s = advance c { o with
      rdata := o.rdata ||| BitVec.ofNat 1024 (d / 2 ^ (8 * (o.part.1 % 16)) % 2 ^ (8 * o.part.2) * 2 ^ (8 * o.pos)) } t := by
  rw [doPart, hw, h]
  rfl

/-- The read of a read-modify-write holds the old bytes until a later grant. -/
theorem rmwRead_some {c d : Nat} {o : Outside} {s t : State} (h : outsideRead c o.grans.1 o.grans.2 s = (some d, t)) :
    rmwRead c o s = t.putCore c { t.core c with
      outside := setFront o.brw (some { o with opened := some (BitVec.ofNat 512 d), spoiled := false }) (t.core c).outside } := by
  rw [rmwRead, h]

theorem rmwCycle_reads {c : Nat} {o : Outside} (h : o.opened = none) (s : State) : rmwCycle c o s = rmwRead c o s := by
  rw [rmwCycle, h]

/-- A read that another write has spoiled is made again, and counted (R122). -/
theorem rmwCycle_again {c : Nat} {o : Outside} {old : BitVec 512} (h : o.opened = some old) (hs : o.spoiled = true) (s : State) :
    rmwCycle c o s = rmwRead c o (incF F.SPAD_RMW_RETRY c 0 1 (flagF F.SPAD_STATUS_RMW_RETRY c 0 s)) := by
  rw [rmwCycle, h, hs]
  rfl

theorem rmwCycle_writes {c : Nat} {o : Outside} {old : BitVec 512} (h : o.opened = some old) (hs : o.spoiled = false) (s : State) :
    rmwCycle c o s = rmwWrite c o old s := by
  rw [rmwCycle, h, hs]
  rfl

theorem formValue_of_ne_plain {f : Form} (h : f ≠ .plain) (old d : Nat) :
    formValue f old d = if f = .bitSet then old ||| d else old ^^^ (old &&& d) := by
  cases f with
  | plain => exact absurd rfl h
  | bitSet => rfl
  | bitClear => rfl

/-- The write of a bit-set or bit-clear access: the combined value, and the count once the whole access is done (R121, R122). -/
theorem rmwWrite_of_no_atomic {c : Nat} {o : Outside} (ha : o.atom = none) (hf : o.form ≠ .plain) (old : BitVec 512) (s : State) :
    let o1 := { o with opened := none }
    let s1 := s.putCore c { s.core c with outside := setFront o.brw (some o1) (s.core c).outside }
    rmwWrite c o old s = storeLate c o1 o.bits.1
      (if o.form = .bitSet then old.toNat ||| o.bits.2 else old.toNat ^^^ (old.toNat &&& o.bits.2))
      (if o.pos + o.part.2 = o.len then incF F.SPAD_RMW_DONE c 0 1 s1 else s1) := by
  have hmod : o.modify old.toNat = (formValue o.form old.toNat o.bits.2, 0) := by rw [Outside.modify, ha]
  rw [rmwWrite, hmod, formValue_of_ne_plain hf]
  simp [ha]

section
variable {c : CoreId} {bank : Fin 16} {o : Outside} {s : State} (h : outsideNow c bank s = some o)
include h

theorem exec_grantCmd_refused {st : Status} (hb : outBad c o s = some st) :
    exec (grantCmd o.isRmw c bank) s = .next (answerFront c o st 0 (noteGrant c bank o s)) := by
  rw [exec_grantCmd_own h, serveOut_refused ((outBad_noteGrant ..).trans hb)]

variable (hb : outBad c o s = none)
include hb

theorem exec_grantCmd_regionFails (hr : passes c o (noteGrant c bank o s) = false) :
    exec (grantCmd o.isRmw c bank) s =
      .next (advance c { o with status := o.status.join .pageFault } (regionViol c (masterOf o) (noteGrant c bank o s))) := by
  rw [exec_grantCmd_own h, serveOut_regionFails ((outBad_noteGrant ..).trans hb) hr]

variable (hr : passes c o (noteGrant c bank o s) = true)
include hr

theorem exec_grantCmd_plain (hrmw : o.isRmw = false) :
    exec (grantCmd o.isRmw c bank) s = .next (doPart c o (noteGrant c bank o s)) := by
  rw [exec_grantCmd_own h, serveOut_passes ((outBad_noteGrant ..).trans hb) hr, hrmw]
  rfl

theorem exec_grantCmd_rmw (hrmw : o.isRmw = true) :
    exec (grantCmd o.isRmw c bank) s = .next (rmwCycle c o (noteGrant c bank o s)) := by
  rw [exec_grantCmd_own h, serveOut_passes ((outBad_noteGrant ..).trans hb) hr, hrmw]
  rfl

end

theorem isRmw_of_ne_plain {o : Outside} (hw : o.write = true) (hf : o.form ≠ .plain) : o.isRmw = true := by
  simp [Outside.isRmw, hw, hf]

/-- Settles O30: each access arrives as any other does, and a grant serves the one that the bank picks. -/
theorem outsideAccesses : Obligations.OutsideAccesses := by
  intro c s k room arrives
  refine ⟨fun r hlen hline => arrives_spadOutsideAccess c hlen hline s, fun id off a w => arrives_spadAtomic c id off a w s,
    fun r off f hget hsent hlocal hplace => ?_, fun bank o h => ?_⟩
  · have hexec := exec_reachCmd_own hget hsent hlocal hplace
    intro first i
    refine ⟨fun hfirst => hexec.trans (congrArg _ (if_pos hfirst)), fun hfirst hcut => ?_, fun hfirst hcut => ?_⟩
    · exact hexec.trans (congrArg _ ((if_neg (ne_true_of_eq_false hfirst)).trans (if_pos hcut)))
    · exact hexec.trans (congrArg _ ((if_neg (ne_true_of_eq_false hfirst)).trans (if_neg (ne_true_of_eq_false hcut))))
  · intro s1 m i g n
    refine ⟨?_, fun st hb => exec_grantCmd_refused h hb, fun hb => ⟨fun hr => exec_grantCmd_regionFails h hb hr, fun hr =>
      ⟨fun hrmw hw => ?_, fun d s2 hrmw hw hread => ?_, ⟨fun hrmw hop d s2 hread => ?_, fun old hrmw hop hsp d s2 hread => ?_⟩,
        fun old hw ha hf hop hsp => ?_⟩⟩⟩
    · rw [← grantCmd_not]
      exact exec_grantCmd_other h
    · exact (exec_grantCmd_plain h hb hr hrmw).trans (congrArg _ (doPart_write hw s1))
    · exact (exec_grantCmd_plain h hb hr hrmw).trans (congrArg _ (doPart_read hw hread))
    · exact (exec_grantCmd_rmw h hb hr hrmw).trans (congrArg _ ((rmwCycle_reads hop s1).trans (rmwRead_some hread)))
    · exact (exec_grantCmd_rmw h hb hr hrmw).trans (congrArg _ ((rmwCycle_again hop hsp s1).trans (rmwRead_some hread)))
    · exact (exec_grantCmd_rmw h hb hr (isRmw_of_ne_plain hw hf)).trans
        (congrArg _ ((rmwCycle_writes hop hsp s1).trans (rmwWrite_of_no_atomic ha hf old s1)))

end Sys2Proof.Machine
end

section
/-!
PROOFS. Bed groups: the write of an owner, idle, busy and held back (R27, R29, R30, R278), what a group without an owner answers (R27),
and retention (R123, R124) (O29, O32).
-/

namespace Sys2Proof.Machine

/-! ## Owner and power as registers -/

theorem regKey_ne {r q : Reg} (h : q ≠ r) (u i k j : Nat) : regKey q k j ≠ regKey r u i := by
  intro e
  have hq := ctorIdx_lt q
  have hr := ctorIdx_lt r
  unfold regKey at e
  exact h (Reg.eq_of_ctorIdx (by omega))

theorem bgOwner_congr {g : Nat} {s t : State} (h : readReg .MGT_BG_OWNER 0 g t = readReg .MGT_BG_OWNER 0 g s) :
    bgOwner g t = bgOwner g s := by
  show (if decide (F.MGT_BG_OWNER_VALID.of (readReg .MGT_BG_OWNER 0 g t) = 1) = true then
    some (F.MGT_BG_OWNER_PART.of (readReg .MGT_BG_OWNER 0 g t)) else none) = _
  rw [h]
  rfl

/-- Setting a field of any register but MGT_BG_OWNER leaves every owner. -/
theorem bgOwner_setF {f : Fld} (hf : f.reg ≠ .MGT_BG_OWNER) (g u i x : Nat) {s : State} (h : swf 0 s.regs) :
    bgOwner g (setF f u i x s) = bgOwner g s :=
  bgOwner_congr (readReg_writeReg_ne _ _ _ _ _ _ _ _ h (regKey_ne hf.symm _ _ _ _))

theorem bgPower_putBgPower (g : Nat) {p : Nat} (hp : p < 8) {s : State} (h : swf 0 s.regs) : (s.putBgPower g p).bgPower g = p :=
  (getF_setF (by decide) _ _ _ _ h).trans (Nat.mod_eq_of_lt hp)

theorem bgOwner_putBgPower (g d p : Nat) {s : State} (h : swf 0 s.regs) : bgOwner g (s.putBgPower d p) = bgOwner g s :=
  bgOwner_setF (by decide) _ _ _ _ h

/-! ## The scratchpads of a group that loses its supply -/

theorem sget_filter {α : Type} (d : α) (p : Nat → Bool) (l : List (Nat × α)) (k : Nat) :
    sget d (l.filter fun e => p e.1) k = if p k then sget d l k else d := by
  induction l with
  | nil => simp [sget]
  | cons e t ih =>
    obtain ⟨i, v⟩ := e
    by_cases hi : i = k
    · subst hi
      cases hp : p i <;> simp [sget, hp, ih]
    · cases hp : p i <;> simp [sget, hp, ih, hi]

/-- The bytes of the scratchpads of a bed group read 0 once its contents are lost, and every other byte reads as before (R27). -/
theorem sget_dropSpad (g a : Nat) (s : State) :
    sget 0 (dropSpad g s).spad a = if a / 32768 / 64 / 25 = g then 0 else sget 0 s.spad a := by
  have hout : (decide (a < 1600 * g * 32768) || decide ((1600 * g + 1600) * 32768 ≤ a)) = !decide (a / 32768 / 64 / 25 = g) := by
    rw [Bool.eq_iff_iff]
    simp only [Bool.or_eq_true, decide_eq_true_eq, Bool.not_eq_true', decide_eq_false_iff_not]
    omega
  show sget 0 (s.spad.filter fun e => decide (e.1 < 1600 * g * 32768) || decide ((1600 * g + 1600) * 32768 ≤ e.1)) a = _
  rw [sget_filter 0 (fun k => decide (k < 1600 * g * 32768) || decide ((1600 * g + 1600) * 32768 ≤ k)), hout]
  by_cases h : a / 32768 / 64 / 25 = g <;> simp [h]

/-! ## BG_OWNER_WRITE -/

theorem exec_bgOwnerWrite_held {g : BgId} {s : State} (h : CsrAt.isHeld ⟨.MGT_BG_OWNER, 0, g.val⟩ s = true) (v : BitVec 32) :
    exec (.bgOwnerWrite g v) s =
      .next { s with heldWrites := s.heldWrites ++ [⟨.MGT_BG_OWNER, 0, g.val, v.setWidth 64, BitVec.allOnes 64⟩] } :=
  congrArg Host.Outcome.next (if_pos h)

theorem put_bgOwner (g : Nat) (v m : BitVec 64) (s : State) :
    CsrAt.put ⟨.MGT_BG_OWNER, 0, g⟩ v m s = ownerPower g (swWriteReg .MGT_BG_OWNER 0 g v m s) := by
  rw [CsrAt.put, if_pos rfl, CsrAt.newValue, if_neg (by simp), swWriteReg]

theorem directNow_bgOwner (g : Nat) (v m : BitVec 64) (s : State) : directNow ⟨.MGT_BG_OWNER, 0, g⟩ v m s =
    if bgBusy g s then setF F.MGT_PART_ERR_LAST_BG 0 0 g (flagF F.MGT_PART_ERR_BUSY_WRITE 0 0 s)
    else ownerPower g (swWriteReg .MGT_BG_OWNER 0 g v m s) := by
  rw [← put_bgOwner]
  rfl

/-- The state in which MGT_BG_OWNER of a bed group holds a written value, with the power of the group as before. -/
def ownerWritten (g : Nat) (v : BitVec 32) (s : State) : State := swWriteReg .MGT_BG_OWNER 0 g (v.setWidth 64) (BitVec.allOnes 64) s

theorem exec_bgOwnerWrite_direct {g : BgId} {s : State} (h : CsrAt.isHeld ⟨.MGT_BG_OWNER, 0, g.val⟩ s = false) (v : BitVec 32) :
    exec (.bgOwnerWrite g v) s =
      .next (if bgBusy g s then setF F.MGT_PART_ERR_LAST_BG 0 0 g (flagF F.MGT_PART_ERR_BUSY_WRITE 0 0 s)
        else ownerPower g (ownerWritten g v s)) := by
  rw [ownerWritten, ← directNow_bgOwner]
  exact congrArg Host.Outcome.next (if_neg (ne_true_of_eq_false h))

/-- The owner that a written value of MGT_BG_OWNER names (R29). -/
def ownerOf (v : BitVec 32) : Option Nat := if v.toNat / 32 % 2 = 1 then some (v.toNat % 32) else none

theorem bgOwner_ownerWritten (g : Nat) (v : BitVec 32) {s : State} (h : swf 0 s.regs) :
    bgOwner g (ownerWritten g v s) = ownerOf v := by
  have field : ∀ f ∈ Reg.MGT_BG_OWNER.flds, f.acc = .rw → f.mn = 0 → f.mx = 2 ^ f.w - 1 →
      getF f 0 g (ownerWritten g v s) = v.toNat / 2 ^ f.lo % 2 ^ f.w := by
    intro f hf hacc hmn hmx
    have hv : (v.setWidth 64).toNat = v.toNat := by simp; omega
    rw [ownerWritten, getF_swWriteReg_whole hf BitVec.allOnes_and _ _ _ _ h, Fld.wrote_rw hacc hmn hmx, Fld.of, hv]
  rw [bgOwner, bitF, field F.MGT_BG_OWNER_VALID (by decide) rfl rfl rfl, field F.MGT_BG_OWNER_PART (by decide) rfl rfl rfl, ownerOf]
  simp [F.MGT_BG_OWNER_VALID, F.MGT_BG_OWNER_PART]

theorem bgPower_ownerWritten (d g : Nat) (v : BitVec 32) {s : State} (h : swf 0 s.regs) :
    (ownerWritten g v s).bgPower d = s.bgPower d :=
  congrArg F.PWR_BG_STATE.of (readReg_swWriteReg_ne _ _ h (regKey_ne (by decide) _ _ _ _))

/-- A group whose owner is gone is OFF, with its scratchpads lost (R27). -/
theorem ownerPower_unowned {g : Nat} {s : State} (h : bgOwner g s = none) : ownerPower g s = (dropSpad g s).putBgPower g 3 := by
  rw [ownerPower, h]

/-- A group with an owner is supplied: ON where it was OFF. -/
theorem ownerPower_owned {g p : Nat} {s : State} (h : bgOwner g s = some p) :
    ownerPower g s = if s.bgPower g = 3 then s.putBgPower g 0 else s := by
  rw [ownerPower, h]

theorem ownerPower_frame (g : Nat) (s : State) : ownerPower g s =
    { s with regs := (ownerPower g s).regs, spad := (ownerPower g s).spad, spadErr := (ownerPower g s).spadErr } := by
  cases h : bgOwner g s with
  | none => rw [ownerPower_unowned h]; rfl
  | some p => rw [ownerPower_owned h]; split <;> rfl

section
variable {g : BgId} {s : State} (hs : Sound s)
include hs

/-- A write that takes the owner of an idle group leaves it OFF, and its scratchpads lost. -/
theorem ownerPower_of_taken {v : BitVec 32} (hv : v.toNat / 32 % 2 = 0) :
    let t := ownerPower g (ownerWritten g v s)
    bgOwner g t = none ∧ t.bgPower g = 3 ∧ ∀ a, sget 0 t.spad a = if a / 32768 / 64 / 25 = g.val then 0 else sget 0 s.spad a := by
  have hnone := bgOwner_ownerWritten g v hs.regs
  rw [ownerOf, if_neg (by omega)] at hnone
  have hregs : swf 0 (dropSpad g (ownerWritten g v s)).regs := swf_sput _ _ _ _ hs.regs
  rw [ownerPower_unowned hnone]
  exact ⟨(bgOwner_putBgPower _ _ _ hregs).trans hnone, bgPower_putBgPower g.val (by decide) hregs, fun a => sget_dropSpad g a _⟩

/-- A write that gives an idle group an owner leaves it owned, and ON where it was OFF. -/
theorem ownerPower_of_given {v : BitVec 32} (hv : v.toNat / 32 % 2 = 1) :
    let t := ownerPower g (ownerWritten g v s)
    bgOwner g t = some (v.toNat % 32) ∧ t.bgPower g = (if s.bgPower g = 3 then 0 else s.bgPower g) ∧ t.spad = s.spad := by
  have hsome := bgOwner_ownerWritten g v hs.regs
  rw [ownerOf, if_pos hv] at hsome
  have hpower := bgPower_ownerWritten g g v hs.regs
  have hregs : swf 0 (ownerWritten g v s).regs := swf_sput _ _ _ _ hs.regs
  rw [ownerPower_owned hsome, hpower]
  split
  · exact ⟨(bgOwner_putBgPower _ _ _ hregs).trans hsome, bgPower_putBgPower g.val (by decide) hregs, rfl⟩
  · exact ⟨hsome, hpower, rfl⟩

/-- A write to the owner of an idle group, not held back. -/
theorem exec_bgOwnerWrite_idle (hidle : bgBusy g s = false) (hheld : CsrAt.isHeld ⟨.MGT_BG_OWNER, 0, g.val⟩ s = false) (v : BitVec 32) :
    ∃ t, exec (.bgOwnerWrite g v) s = .next t ∧ t = { s with regs := t.regs, spad := t.spad, spadErr := t.spadErr } ∧
      (v.toNat / 32 % 2 = 0 → bgOwner g t = none ∧ t.bgPower g = 3 ∧
        ∀ a, sget 0 t.spad a = if a / 32768 / 64 / 25 = g.val then 0 else sget 0 s.spad a) ∧
      (v.toNat / 32 % 2 = 1 → bgOwner g t = some (v.toNat % 32) ∧ t.bgPower g = (if s.bgPower g = 3 then 0 else s.bgPower g) ∧
        t.spad = s.spad) := by
  refine ⟨_, (exec_bgOwnerWrite_direct hheld v).trans (congrArg _ (if_neg (ne_true_of_eq_false hidle))), ?_, ownerPower_of_taken hs,
    ownerPower_of_given hs⟩
  exact ownerPower_frame g _

/-- A write to the owner of a busy group leaves the owner and is recorded (R29). -/
theorem exec_bgOwnerWrite_busy (hbusy : bgBusy g s = true) (hheld : CsrAt.isHeld ⟨.MGT_BG_OWNER, 0, g.val⟩ s = false) (v : BitVec 32) :
    ∃ t, exec (.bgOwnerWrite g v) s = .next t ∧ bgOwner g t = bgOwner g s ∧ bitF F.MGT_PART_ERR_BUSY_WRITE 0 0 t = true ∧
      getF F.MGT_PART_ERR_LAST_BG 0 0 t = g.val ∧
      (∀ r u i, regKey r u i ≠ regKey .MGT_PART_ERR 0 0 → readReg r u i t = readReg r u i s) ∧ t = { s with regs := t.regs } := by
  have hregs : swf 0 (flagF F.MGT_PART_ERR_BUSY_WRITE 0 0 s).regs := swf_sput _ _ _ _ hs.regs
  have hg : g.val % 2 ^ 8 = g.val := Nat.mod_eq_of_lt (by omega)
  refine ⟨_, (exec_bgOwnerWrite_direct hheld v).trans (congrArg _ (if_pos hbusy)), ?_, ?_, ?_, fun r u i hk => ?_, rfl⟩
  · rw [bgOwner_setF (by decide) _ _ _ _ hregs, flagF, bgOwner_setF (by decide) _ _ _ _ hs.regs]
  · have hleft := getF_setF_apart (f := F.MGT_PART_ERR_LAST_BG) (g := F.MGT_PART_ERR_BUSY_WRITE) (by decide) rfl (by decide) 0 0
      g.val _ hregs
    exact decide_eq_true (hleft.trans (getF_setF (by decide) 0 0 1 s hs.regs))
  · exact (getF_setF (by decide) _ _ _ _ hregs).trans hg
  · exact (readReg_writeReg_ne _ _ _ _ _ _ _ _ hregs hk).trans (readReg_writeReg_ne _ _ _ _ _ _ _ _ hs.regs hk)

end

/-! ## Accesses to a group without an owner -/

theorem winBad_unowned {c : Nat} {s : State} (h : bgOwner (bgOf (bedOf c)) s = none) (w : Who) : winBad w c s = some .dieAbsent := by
  simp only [winBad, h]

/-- A grant of an access of either kind answers it DIE_ABSENT. -/
theorem exec_grantCmd_unowned {c : CoreId} {bank : Fin 16} {o : Outside} {s : State} {rmw : Bool}
    (h : bgOwner (bgOf (bedOf c)) s = none) (hnow : outsideNow c bank s = some o) (hrmw : o.isRmw = rmw) :
    exec (grantCmd rmw c bank) s = .next (answerFront c o .dieAbsent 0 (noteGrant c bank o s)) := by
  rw [← hrmw, exec_grantCmd_refused hnow (outBad_of_winBad (winBad_unowned h o.who))]

/-- Settles O29: the write of the owner sets the power of its group, and an unowned group stops every access. -/
theorem unownedGroupsAreOff : Obligations.UnownedGroupsAreOff := by
  intro g s hs
  refine ⟨fun v hidle hheld => exec_bgOwnerWrite_idle hs hidle hheld v, fun c r id off a w hg hnone => ?_⟩
  rw [← hg] at hnone
  refine ⟨fun hlen hline => ?_, ?_, fun bank o hnow => ?_⟩
  · obtain ⟨stopped, -⟩ := arrives_spadOutsideAccess c hlen hline s
    exact stopped .dieAbsent (winBad_unowned hnone _)
  · obtain ⟨stopped, -⟩ := arrives_spadAtomic c id off a w s
    rw [stopped .dieAbsent (winBad_unowned hnone _), outAtom_id]
  · exact ⟨fun hplain => exec_grantCmd_unowned hnone hnow hplain, fun hrmw => exec_grantCmd_unowned hnone hnow hrmw⟩

/-! ## Retention -/

theorem retentionEnter_of_ready {g : Nat} {s : State} (hp : s.bgPower g ≤ 1) (hrest : groupAtRest g s = true) :
    retentionEnter g s = retentionStep g { s with retains := if s.retains.contains g then s.retains else s.retains ++ [g] } := by
  rw [retentionEnter, hrest, decide_eq_true hp]
  rfl

theorem retentionEnter_of_not_ready {g : Nat} {s : State} (h : 2 ≤ s.bgPower g ∨ groupAtRest g s = false) :
    retentionEnter g s = s := by
  rw [retentionEnter, if_neg]
  intro hready
  simp only [Bool.and_eq_true, decide_eq_true_eq] at hready
  obtain ⟨hp, hrest⟩ := hready
  rcases h with h | h
  · omega
  · exact absurd hrest (ne_true_of_eq_false h)

theorem retentionStep_drains {g : Nat} {s : State} (hp : s.bgPower g ≤ 1) (h : groupDrained g s = false) :
    retentionStep g s = drainGroup g s := by
  rw [retentionStep, if_neg (by omega), h]
  rfl

theorem retentionStep_enters {g : Nat} {s : State} (hp : s.bgPower g ≤ 1) (h : groupDrained g s = true) :
    retentionStep g s =
      let z := (emptyGroup g s).putBgPower g 2
      { z with retains := z.retains.filter fun x => decide (x ≠ g) } := by
  rw [retentionStep, if_neg (by omega), h]
  rfl

/-- A retention order to a group at rest: it drains first, and goes to RETENTION with empty caches once it has (R124). -/
theorem exec_bgRetentionEnter_ready {g : BgId} {s : State} (hp : s.bgPower g ≤ 1) (hrest : groupAtRest g s = true) :
    let s1 := { s with retains := if s.retains.contains g.val then s.retains else s.retains ++ [g.val] }
    (groupDrained g s = false → exec (.bgRetentionEnter g) s = .next (drainGroup g s1)) ∧
    (groupDrained g s = true → exec (.bgRetentionEnter g) s =
      let z := (emptyGroup g s1).putBgPower g 2
      .next { z with retains := z.retains.filter fun x => decide (x ≠ g.val) }) := by
  have hexec : exec (.bgRetentionEnter g) s = .next (retentionEnter g s) := rfl
  rw [hexec, retentionEnter_of_ready hp hrest]
  exact ⟨fun h => congrArg _ (retentionStep_drains hp h), fun h => congrArg _ (retentionStep_enters hp h)⟩

/-- Settles O32: a write to a busy owner is recorded alone, and each power command acts in its own states alone. -/
theorem bedGroupCommands : Obligations.BedGroupCommands := by
  refine ⟨fun g v s hs => ⟨fun hbusy hheld => exec_bgOwnerWrite_busy hs hbusy hheld v, fun hheld => exec_bgOwnerWrite_held hheld v⟩,
    fun g s => ?_⟩
  intro beds
  refine ⟨fun hp hrest => exec_bgRetentionEnter_ready hp hrest, fun h => congrArg Host.Outcome.next (retentionEnter_of_not_ready h),
    fun h => congrArg Host.Outcome.next (if_pos h), fun h => congrArg Host.Outcome.next (if_neg h),
    fun hp hdue => congrArg Host.Outcome.next (if_pos ⟨hp, hdue⟩), fun h => congrArg Host.Outcome.next (if_neg ?_)⟩
  rintro ⟨hp, hdue⟩
  omega

end Sys2Proof.Machine
end

section
/-!
PROOFS. The grid's slot and its two events: an order ignored, dropped or taken (R43, R54), the start of presentation (R50, R66), and the
writes of a drain (R45, R58) (O52).
-/

namespace Sys2Proof.Machine

/-! ## ORDER -/

section
variable {c : CoreId} {f : OrderF} {s : State} (h : Takes c .grid (.order c f) s)
include h

theorem exec_order_ignored (hesp : ((beginSlot c .grid s).bed (bedOf c)).espalier = true) (hc : c.val % 64 ≠ 0) :
    exec (.order c f) s = .next (flagF F.GRID_STATUS_IGNORED c 0 (beginSlot c .grid s)) := by
  show Host.Outcome.next (issueSlot c .grid (.order c f) _ s) = _
  rw [issueSlot_takes _ _ _ _ _ h, hesp, decide_eq_true hc]
  rfl

/-- In a core that leads its grid, an order depends on the pending order alone. -/
theorem exec_order_lead (hlead : ((beginSlot c .grid s).bed (bedOf c)).espalier = false ∨ c.val % 64 = 0) :
    exec (.order c f) s = .next (if ((beginSlot c .grid s).core c).grid.pending.isSome
      then flagF F.GRID_STATUS_DROPPED c 0 (beginSlot c .grid s) else takeOrder c f (beginSlot c .grid s)) := by
  show Host.Outcome.next (issueSlot c .grid (.order c f) _ s) = _
  rw [issueSlot_takes _ _ _ _ _ h, if_neg]
  intro hfollows
  obtain ⟨hesp, hc⟩ := Bool.and_eq_true_iff.mp hfollows
  rcases hlead with hindep | hcore0
  · exact absurd hesp (ne_true_of_eq_false hindep)
  · exact of_decide_eq_true hc hcore0

theorem exec_order_dropped (hlead : ((beginSlot c .grid s).bed (bedOf c)).espalier = false ∨ c.val % 64 = 0)
    (hpend : ((beginSlot c .grid s).core c).grid.pending.isSome = true) :
    exec (.order c f) s = .next (flagF F.GRID_STATUS_DROPPED c 0 (beginSlot c .grid s)) := by
  rw [exec_order_lead h hlead, if_pos hpend]

theorem exec_order_taken (hlead : ((beginSlot c .grid s).bed (bedOf c)).espalier = false ∨ c.val % 64 = 0)
    (hpend : ((beginSlot c .grid s).core c).grid.pending = none) :
    exec (.order c f) s = .next (takeOrder c f (beginSlot c .grid s)) := by
  rw [exec_order_lead h hlead, hpend]
  rfl

end

/-- An order of core `c` as it is issued, where it reads no header. -/
def plainOrder (c : Nat) (f : OrderF) (s : State) : Order :=
  let k := s.core c
  let cfg := readReg .GRID_TCFG c f.tcfg.toNat s
  let row := 8 * (8 * (tcfgOut cfg).bytes)
  ⟨actOf c s, spGran k f.xbase f.a, spGran k f.xbase f.b, spAddr k f.xbase (16 * f.d.toNat) / row * row, f.depth.toNat + 1, cfg, f.keep,
    f.hold, f.flag, false, 127, 127, false⟩

/-- An order with an absolute anchor, or one that keeps its bank's anchor, only becomes the pending order (R43, R66). -/
theorem takeOrder_of_no_header {c : Nat} {f : OrderF} {s : State}
    (h : F.GRID_TCFG_ANCHOR_SRC.of (readReg .GRID_TCFG c f.tcfg.toNat s) ≠ 1 ∨ (f.keep = true ∧ (s.core c).grid.first = false)) :
    let k := s.core c
    let p := pendingPres c (s.bed (bedOf c)).espalier (plainOrder c f s) (presStart k.grid (actOf c s))
    takeOrder c f s = s.putCore c { k with grid := { k.grid with pending := some p } } := by
  have hhdr : (decide (F.GRID_TCFG_ANCHOR_SRC.of (readReg .GRID_TCFG c f.tcfg.toNat s) = 1) &&
      (!f.keep || (s.core c).grid.first)) = false := by
    rcases h with hsrc | ⟨hkeep, hfirst⟩
    · rw [decide_eq_false hsrc, Bool.false_and]
    · rw [hkeep, hfirst, Bool.not_true, Bool.or_false, Bool.and_false]
  simp only [takeOrder, hhdr, Bool.false_eq_true, if_false, plainOrder]

/-! ## GRID_PRESENT_START -/

theorem startPres_idle {lead : Nat} {s : State} (h : (s.core lead).grid.pending = none) (t : Nat) : startPres lead t s = s := by
  simp only [startPres, h]

theorem startPres_early {lead t : Nat} {p : Pres} {s : State} (h : (s.core lead).grid.pending = some p) (ht : t < p.start) :
    startPres lead t s = s := by
  simp only [startPres, h, if_pos ht]

/-- The bank of an order that begins to present (R50). -/
def presBank (g : Grid) (p : Pres) : Nat := if g.first then 0 else if p.o.keep then g.bank else 1 - g.bank

/-- The anchor that an order which begins to present gives its bank, if it gives one (R51, R66). -/
def presAnchor (g : Grid) (p : Pres) : Option Int := if p.o.keep && !g.first then none else some (anchorOf p.o)

/-- The grid that an order has left pending, now presenting with its bank and anchor. -/
def presGrid (g : Grid) (p : Pres) : Grid :=
  { g with
    pending := none
    flow := g.flow ++ [{ p with
      bank := presBank g p
      anchor := (presAnchor g p).getD (if presBank g p = 0 then g.anchor0 else g.anchor1)
      clear := !p.o.keep }] }

theorem startPres_begins {lead t : Nat} {p : Pres} {s : State} (h : (s.core lead).grid.pending = some p) (ht : p.start ≤ t) :
    let k := s.core lead
    startPres lead t s = (gridCores lead s).foldl
      (presBegin (presBank k.grid p) (presAnchor k.grid p) (decide (presCycles p.o.tcfg p.o.depth < p.len)))
      (s.putCore lead { k with grid := presGrid k.grid p }) := by
  simp only [startPres, h]
  exact if_neg (Nat.not_lt.mpr ht)

/-! ## GRID_DRAIN -/

theorem drainTick_idle {c : Nat} {s : State} (h : (s.core c).grid.drains = []) (t : Nat) : drainTick c t s = s := by
  simp only [drainTick, drainStep, h]

section
variable {c t : Nat} {d : Drain} {r : List Drain} {s : State} (h : (s.core c).grid.drains = d :: r)
include h

theorem endDrain_cons :
    let k := s.core c
    endDrain c s = incF F.GRID_TILES_COUNT c 0 1 (riseFlag c d.flag (s.putCore c { k with grid := { k.grid with drains := r } })) := by
  simp only [endDrain, h]

/-- A drain whose last row was written in the cycle before is over, and the next drain may write (R45). -/
theorem drainTick_ends (hlast : d.next = d.count) (hdue : d.at0 + d.count + (s.core c).grid.shift ≤ t) :
    drainTick c t s = drainStep c t (endDrain c s) := by
  simp only [drainTick, h, if_pos (And.intro hlast hdue)]

/-- A drain with rows left only writes. -/
theorem drainTick_of_rows_left (hleft : d.next < d.count) : drainTick c t s = drainStep c t s := by
  have hnot : ¬ (d.next = d.count ∧ d.at0 + d.count + (s.core c).grid.shift ≤ t) := fun hend => Nat.ne_of_lt hleft hend.1
  simp only [drainTick, h, if_neg hnot]

theorem drainStep_early (hearly : t < d.at0 + d.next + (s.core c).grid.shift) : drainStep c t s = s := by
  have hnot : ¬ (d.next < d.count ∧ d.at0 + d.next + (s.core c).grid.shift ≤ t) := fun hdue => Nat.not_le.mpr hearly hdue.2
  simp only [drainStep, h, if_neg hnot]

variable (hleft : d.next < d.count) (hdue : d.at0 + d.next + (s.core c).grid.shift ≤ t)
include hleft hdue

/-- A row that is due is written where its bank has a port free of the grid's reads (R58). -/
theorem drainStep_writes (hport : askReads (s.core (gridLead c s)).grid c t (bankOf (d.addr / 16)) < ports (bankOf (d.addr / 16))) :
    drainStep c t s = setDrain c { d with next := d.next + 1 } (drainPiece c d s) := by
  simp only [drainStep, h, if_pos (And.intro hleft hdue), if_neg (Nat.not_le.mpr hport)]

/-- A row that is due is deferred with all after it where the grid's reads take every port of its bank (R58). -/
theorem drainStep_defers (hport : ports (bankOf (d.addr / 16)) ≤ askReads (s.core (gridLead c s)).grid c t (bankOf (d.addr / 16))) :
    let k := s.core c
    drainStep c t s = clash c (s.putCore c { k with grid := { k.grid with shift := k.grid.shift + 1 } }) := by
  simp only [drainStep, h, if_pos (And.intro hleft hdue), if_pos hport]

end

/-- Settles O52: an order is ignored, dropped or taken by its core and the pending order; it presents once its cycle has come; and the
oldest drain ends, writes, defers or waits by its rows and its cycle. -/
theorem gridOrders : Obligations.GridOrders := by
  intro c f s
  have hpresent : exec (.gridPresentStart c) s = .next (startPres (gridLead c s) (actOf c s) s) := rfl
  have hdrain : exec (.gridDrain c) s = .next (drainTick c (actOf c s) s) := rfl
  refine ⟨fun htakes => ?_, ?_, ?_⟩
  · intro z esp lead k cfg
    refine ⟨fun hfollows => ?_, fun hlead hpend => exec_order_dropped htakes hlead hpend,
      fun hlead hpend => exec_order_taken htakes hlead hpend, fun hlead hpend hplain =>
        (exec_order_taken htakes hlead hpend).trans (congrArg _ (takeOrder_of_no_header hplain))⟩
    obtain ⟨hesp, hc⟩ := not_or.mp hfollows
    exact exec_order_ignored htakes (eq_true_of_ne_false hesp) hc
  · rw [hpresent]
    exact ⟨fun hnone => congrArg _ (startPres_idle hnone _), fun p hsome =>
      ⟨fun hearly => congrArg _ (startPres_early hsome hearly), fun hcome => congrArg _ (startPres_begins hsome hcome)⟩⟩
  · rw [hdrain]
    refine ⟨fun hnil => congrArg _ (drainTick_idle hnil _), fun d r hcons =>
      ⟨fun hlast hdue => congrArg _ ?_, fun hleft hdue => ?_, fun hleft hearly => congrArg _ ?_⟩⟩
    · rw [drainTick_ends hcons hlast hdue, endDrain_cons hcons]
    · rw [drainTick_of_rows_left hcons hleft]
      exact ⟨fun hfree => congrArg _ (drainStep_writes hcons hleft hdue hfree),
        fun hbusy => congrArg _ (drainStep_defers hcons hleft hdue hbusy)⟩
    · rw [drainTick_of_rows_left hcons hleft, drainStep_early hcons hearly]

end Sys2Proof.Machine
end

section
/-!
PROOFS. Steps: what a command answers is settled by its next state, and a step with no command waiting is one cycle of the clock (O2).
-/

namespace Sys2Proof.Machine

/-- Commands whose next states are equal answer alike. -/
theorem next_congr {t u : State} (h : t = u) : (.next t : Host.Outcome State Fault Refusal) = .next u := congrArg _ h

/-- Settles O2: an idle step is one cycle of the clock, which keeps the queue as it is: empty. -/
theorem idleStepRuns : Obligations.IdleStepRuns := by
  intro s h
  exact ⟨by rw [step, h], (keep_cycle s (Keep.refl s)).pending.trans h⟩

end Sys2Proof.Machine
end

section
/-!
PROOFS. The scalar slot (R91): each operation gives the stated function of the values that its registers had before (O7, O8).
-/

namespace Sys2Proof.Machine

/-! ## The operations on words as functions of numbers -/

theorem ofNat_add_toNat (a b : BitVec 64) : a + b = BitVec.ofNat 64 (a.toNat + b.toNat) := BitVec.eq_of_toNat_eq (by simp)

theorem ofInt_sub_toNat (a b : BitVec 64) : a - b = BitVec.ofInt 64 (a.toNat - b.toNat) := by
  apply BitVec.eq_of_toNat_eq
  rw [BitVec.toNat_sub, BitVec.toNat_ofInt]
  omega

theorem ofNat_mul_toNat (a b : BitVec 64) : a * b = BitVec.ofNat 64 (a.toNat * b.toNat) := BitVec.eq_of_toNat_eq (by simp)

theorem ofNat_and_toNat (a b : BitVec 64) : a &&& b = BitVec.ofNat 64 (a.toNat &&& b.toNat) := by
  rw [← BitVec.toNat_and, BitVec.ofNat_toNat, BitVec.setWidth_eq]

theorem ofNat_or_toNat (a b : BitVec 64) : a ||| b = BitVec.ofNat 64 (a.toNat ||| b.toNat) := by
  rw [← BitVec.toNat_or, BitVec.ofNat_toNat, BitVec.setWidth_eq]

theorem ofNat_xor_toNat (a b : BitVec 64) : a ^^^ b = BitVec.ofNat 64 (a.toNat ^^^ b.toNat) := by
  rw [← BitVec.toNat_xor, BitVec.ofNat_toNat, BitVec.setWidth_eq]

theorem shiftLeft_eq_mul_two_pow (a : BitVec 64) (n : Nat) : a <<< n = BitVec.ofNat 64 (a.toNat * 2 ^ n) :=
  BitVec.eq_of_toNat_eq (by simp [Nat.shiftLeft_eq])

theorem ushiftRight_eq_div_two_pow (a : BitVec 64) (n : Nat) : a >>> n = BitVec.ofNat 64 (a.toNat / 2 ^ n) := by
  rw [← Nat.shiftRight_eq_div_pow, ← BitVec.toNat_ushiftRight, BitVec.ofNat_toNat, BitVec.setWidth_eq]

theorem sshiftRight_eq_div_two_pow (a : BitVec 64) (n : Nat) : a.sshiftRight n = BitVec.ofInt 64 (a.toInt / 2 ^ n) := by
  rw [BitVec.sshiftRight, Int.shiftRight_eq_div_pow]
  norm_cast

theorem ofInt_add_toInt (a : BitVec 64) (i : Int) : a + BitVec.ofInt 64 i = BitVec.ofInt 64 (a.toInt + i) := by
  rw [BitVec.ofInt_add, BitVec.ofInt_toInt]

theorem ofInt_shiftLeft (i : Int) (n : Nat) : BitVec.ofInt 64 i <<< n = BitVec.ofInt 64 (i * 2 ^ n) := by
  have hpow : BitVec.twoPow 64 n = BitVec.ofInt 64 (2 ^ n : Nat) :=
    BitVec.eq_of_toNat_eq (by rw [BitVec.ofInt_natCast, BitVec.toNat_twoPow, BitVec.toNat_ofNat])
  rw [BitVec.shiftLeft_eq_mul_twoPow, BitVec.ofInt_mul, hpow]
  exact congrArg (fun z => BitVec.ofInt 64 i * BitVec.ofInt 64 z) (Int.natCast_pow 2 n)

/-- The immediate as an operand: it stands for its value modulo 2^64. -/
theorem toNat_signExtend_imm (m : BitVec 24) : (m.signExtend 64).toNat = (m.toInt % 2 ^ 64).toNat := BitVec.toNat_ofInt _

theorem shamt_imm (m : BitVec 24) : shamt (m.signExtend 64) = m.toNat % 64 := by
  have h := BitVec.toInt_eq_toNat_cond m
  rw [shamt, toNat_signExtend_imm]
  split at h <;> omega

/-! ## The two forms -/

theorem scalarR_takes {c : Nat} {i : Instr} {s : State} (h : Takes c .scalar i s) (r : ScR) (lat : Nat)
    (op : BitVec 64 → BitVec 64 → BitVec 64) :
    scalarR c i r lat op s =
      deliver c lat 2 (.x r.xd (op ((s.core c).rx r.xs1) ((s.core c).rx r.xs2))) (beginSlot c .scalar s) := by
  rw [scalarR, issueSlot_takes c .scalar i _ s h, rx_beginSlot c .scalar s h.1, rx_beginSlot c .scalar s h.1]

theorem scalarI_takes {c : Nat} {i : Instr} {s : State} (h : Takes c .scalar i s) (r : ScI)
    (op : BitVec 64 → BitVec 64 → BitVec 64) :
    scalarI c i r op s =
      deliver c 1 2 (.x r.xd (op ((s.core c).rx r.xs1) (r.imm.signExtend 64))) (beginSlot c .scalar s) := by
  rw [scalarI, issueSlot_takes c .scalar i _ s h, rx_beginSlot c .scalar s h.1]

theorem doSel_takes {c : Nat} {i : Instr} {s : State} (h : Takes c .scalar i s) (r : ScR) :
    doSel c i r s = deliver c 1 2 (.x r.xd (if (s.core c).rx r.xd ≠ 0 then (s.core c).rx r.xs1 else (s.core c).rx r.xs2))
      (beginSlot c .scalar s) := by
  rw [doSel, issueSlot_takes c .scalar i _ s h]
  simp only [rx_beginSlot c .scalar s h.1]

/-- A command in register form that the core takes delivers the value of its operation. -/
theorem scalarR_gives {c : Nat} {i : Instr} {s : State} {r : ScR} {lat : Nat} {op : BitVec 64 → BitVec 64 → BitVec 64} {v : BitVec 64}
    (hexec : exec i s = .next (scalarR c i r lat op s)) (hv : op ((s.core c).rx r.xs1) ((s.core c).rx r.xs2) = v)
    (h : Takes c .scalar i s) : exec i s = .next (deliver c lat 2 (.x r.xd v) (beginSlot c .scalar s)) := by
  rw [hexec, scalarR_takes h, hv]

/-- A command in immediate form that the core takes delivers the value of its operation. -/
theorem scalarI_gives {c : Nat} {i : Instr} {s : State} {r : ScI} {op : BitVec 64 → BitVec 64 → BitVec 64} {v : BitVec 64}
    (hexec : exec i s = .next (scalarI c i r op s)) (hv : op ((s.core c).rx r.xs1) (r.imm.signExtend 64) = v)
    (h : Takes c .scalar i s) : exec i s = .next (deliver c 1 2 (.x r.xd v) (beginSlot c .scalar s)) := by
  rw [hexec, scalarI_takes h, hv]

/-- Settles O7: each operation of the register form delivers its function of the two operands. -/
theorem scalarRegisterForms : Obligations.ScalarRegisterForms := by
  intro c r s
  refine ⟨scalarR_gives rfl (ofNat_add_toNat _ _), scalarR_gives rfl (ofInt_sub_toNat _ _), scalarR_gives rfl (ofNat_and_toNat _ _),
    scalarR_gives rfl (ofNat_or_toNat _ _), scalarR_gives rfl (ofNat_xor_toNat _ _),
    scalarR_gives rfl (shiftLeft_eq_mul_two_pow _ _), scalarR_gives rfl (ushiftRight_eq_div_two_pow _ _),
    scalarR_gives rfl (sshiftRight_eq_div_two_pow _ _), scalarR_gives rfl (ofNat_mul_toNat _ _), scalarR_gives rfl rfl,
    scalarR_gives rfl ?_, scalarR_gives rfl ?_, scalarR_gives rfl ?_, scalarR_gives rfl ?_, scalarR_gives rfl ?_,
    scalarR_gives rfl ?_, fun h => next_congr (doSel_takes h r)⟩
  · simp only [BitVec.slt, decide_eq_true_eq]
  · simp only [BitVec.slt, decide_eq_true_eq]
  · simp only [BitVec.ult, decide_eq_true_eq]
  · simp only [BitVec.ult, decide_eq_true_eq]
  · simp only [BitVec.slt, decide_eq_true_eq]
  · simp only [BitVec.ult, decide_eq_true_eq]

/-- Settles O8: each operation of the immediate form delivers its function of the operand and the sign-extended immediate. -/
theorem scalarImmediateForms : Obligations.ScalarImmediateForms := by
  intro c r s
  refine ⟨scalarI_gives rfl (ofInt_add_toInt _ _), scalarI_gives rfl ?_, scalarI_gives rfl ?_, scalarI_gives rfl ?_,
    scalarI_gives rfl ?_, scalarI_gives rfl ?_, scalarI_gives rfl ?_, scalarI_gives rfl (ofInt_shiftLeft _ _),
    fun h => next_congr (issueSlot_takes c .scalar _ _ s h)⟩
  · rw [ofNat_and_toNat, toNat_signExtend_imm]
  · rw [ofNat_or_toNat, toNat_signExtend_imm]
  · rw [ofNat_xor_toNat, toNat_signExtend_imm]
  · rw [shamt_imm, shiftLeft_eq_mul_two_pow]
  · rw [shamt_imm, ushiftRight_eq_div_two_pow]
  · rw [shamt_imm, sshiftRight_eq_div_two_pow]

end Sys2Proof.Machine
end

section
/-!
PROOFS. Taking a slot command (R76, R80, R81, R97): what it changes (O9), and that no command is taken but the one which the bundle
spells (O10).
-/

namespace Sys2Proof.Machine

/-! ## What taking a slot command changes -/

theorem coreId_val (c : CoreId) : coreId c.val = c := Fin.ext (Nat.mod_eq_of_lt c.isLt)

theorem opened_of_bundleAt {k : Core} {act : Nat} {o : Opened} (h : k.bundleAt act = some o) : k.opened = some o := by
  unfold Core.bundleAt at h
  split at h
  · next o' ho =>
    split at h
    · rw [ho, Option.some.inj h]
    · cases h
  · cases h

/-- In a bundle that is open, the slot is marked. -/
theorem beginSlot_of_open {c : Nat} {s : State} {o : Opened} (h : (s.core c).bundleAt (actOf c s) = some o) (slot : Slot) :
    beginSlot c slot s = s.putCore c { s.core c with opened := some { o with used := slot :: o.used } } := by
  simp only [beginSlot, h, useSlot, opened_of_bundleAt h, Option.map_some]

/-- A bundle that is not open yet is opened first. -/
theorem beginSlot_of_closed {c : Nat} {s : State} (h : (s.core c).bundleAt (actOf c s) = none) (slot : Slot) :
    beginSlot c slot s = useSlot c slot (openBundle c s) := by
  simp only [beginSlot, h]

/-- The core that has opened the bundle at its stream position and used `slot` of it. -/
def Core.opens (k : Core) (act : Nat) (slot : Slot) : Core :=
  { k with
    opened := some ⟨act, k.pc, k.bundle.getD 0, k.loops, slot :: if k.passed then [.sync] else []⟩
    pc := BitVec.ofNat 32 (nextPc k.loops k.pc.toNat).1
    loops := (nextPc k.loops k.pc.toNat).2
    wait := .none
    passed := false }

theorem sound_openBundle {s : State} (c : Nat) (h : Sound s) : Sound (openBundle c s) := (keep_openBundle c s (Keep.refl s)).sound h

theorem sound_beginSlot {s : State} (c : Nat) (slot : Slot) (h : Sound s) : Sound (beginSlot c slot s) :=
  (keep_beginSlot c slot s (Keep.refl s)).sound h

theorem core_beginSlot_of_closed {c : Nat} {s : State} (hs : Sound s) (h : (s.core c).bundleAt (actOf c s) = none) (slot : Slot) :
    (beginSlot c slot s).core c = (s.core c).opens (actOf c s) slot := by
  rw [beginSlot_of_closed h, core_useSlot c slot _ (sound_openBundle c hs), core_openBundle c s hs]
  rfl

theorem readReg_useSlot (c : Nat) (slot : Slot) (r : Reg) (u i : Nat) (s : State) :
    readReg r u i (useSlot c slot s) = readReg r u i s := rfl

theorem getF_useSlot (c : Nat) (slot : Slot) (f : Fld) (u i : Nat) (s : State) :
    getF f u i (useSlot c slot s) = getF f u i s := rfl

/-- The bundle that a core opens counts. -/
theorem getF_issued_openBundle {s : State} (hs : Sound s) (c : Nat) : getF F.CORE_ISSUED_COUNT c 0 (openBundle c s) =
    min (getF F.CORE_ISSUED_COUNT c 0 s + 1) (2 ^ F.CORE_ISSUED_COUNT.w - 1) :=
  getF_incF (by decide) c 0 1 (s.putCore c _) hs.regs

theorem readReg_openBundle_ne {s : State} (hs : Sound s) {c u i : Nat} {r : Reg}
    (h : regKey r u i ≠ regKey F.CORE_ISSUED_COUNT.reg c 0) : readReg r u i (openBundle c s) = readReg r u i s :=
  readReg_writeReg_ne _ _ _ _ _ _ _ (s.putCore c _) hs.regs h

theorem core_openBundle_ne {s : State} (hs : Sound s) {c d : Nat} (h : d ≠ c) : (openBundle c s).core d = s.core d :=
  (core_putCore s c d _ hs.cores).trans (if_neg h)

theorem core_useSlot_ne {s : State} (hs : Sound s) {c d : Nat} (h : d ≠ c) (slot : Slot) : (useSlot c slot s).core d = s.core d :=
  (core_putCore s c d _ hs.cores).trans (if_neg h)

/-- Settles O9: a bundle that is open is marked, and one that is not is opened and marked. -/
theorem issueFrame : Obligations.IssueFrame := by
  intro c slot s hs t k n
  cases h : k.bundleAt (actOf c s) with
  | some o =>
    have ht : t = s.putCore c { k with opened := some { o with used := slot :: o.used } } := beginSlot_of_open h slot
    refine ⟨fun o' ho => Option.some.inj ho ▸ ht, fun hno => (nomatch hno), fun d hd => ?_, fun r u i _ => ?_, ?_⟩
    · rw [ht, core_putCore s c d _ hs.cores, if_neg hd]
    · rw [ht]; rfl
    · rw [ht]; rfl
  | none =>
    have ht : t = useSlot c slot (openBundle c s) := beginSlot_of_closed h slot
    refine ⟨fun o hno => (nomatch hno), fun _ => ⟨core_beginSlot_of_closed hs h slot, ?_⟩, fun d hd => ?_, fun r u i hr => ?_, ?_⟩
    · rw [ht, getF_useSlot, getF_issued_openBundle hs]
    · rw [ht, core_useSlot_ne (sound_openBundle c hs) hd, core_openBundle_ne hs hd]
    · rw [ht, readReg_useSlot, readReg_openBundle_ne hs hr]
    · rw [ht]; rfl

/-! ## What a bundle spells -/

theorem slotOf_gridCmd (c : CoreId) (v : BitVec 64) : (gridCmd c v).slotOf = some (c.val, .grid) := by
  unfold gridCmd; split <;> rfl

theorem slotOf_vecCmd (c : CoreId) (v : BitVec 64) : (vecCmd c v).slotOf = some (c.val, .vec) := by
  unfold vecCmd; split <;> rfl

theorem slotOf_scalarCmd (c : CoreId) (v : BitVec 40) : (scalarCmd c v).slotOf = some (c.val, .scalar) := by
  unfold scalarCmd; split <;> rfl

theorem slotOf_lmCmd (c : CoreId) (v : BitVec 56) : (lmCmd c v).slotOf = some (c.val, .lm) := by
  unfold lmCmd; split <;> rfl

theorem slotOf_syncCmd (c : CoreId) (v : BitVec 32) : (syncCmd c v).slotOf = some (c.val, .sync) := by
  unfold syncCmd; split <;> rfl

/-- What a slot of a bundle spells for a core is a command of that core and that slot. -/
theorem slotOf_slotCmd (c : CoreId) (slot : Slot) (w : BitVec 256) : (slotCmd c slot w).slotOf = some (c.val, slot) := by
  cases slot with
  | grid => exact slotOf_gridCmd c _
  | vec => exact slotOf_vecCmd c _
  | scalar => exact slotOf_scalarCmd c _
  | lm => exact slotOf_lmCmd c _
  | sync => exact slotOf_syncCmd c _

/-! ## Commands that a core does not take -/

/-- A command has an effect only as the slot of a bundle that issues it. -/
def SlotBound (i : Instr) (c : CoreId) (slot : Slot) : Prop := ∃ f, ∀ s, exec i s = .next (issueSlot c slot i f s)

section
variable {i : Instr} {c : CoreId}

theorem slotBound_of_vecLanes {vd : BitVec 5} {mask : BitVec 3} {w n lat : Nat} {g : Core → Nat → Nat × FpFlags}
    (h : ∀ s, exec i s = .next (vecLanes c i vd mask w n lat g s)) : SlotBound i c .vec := ⟨_, h⟩

theorem slotBound_of_vecOp {a : VecA} {lat : Nat} {g : Nat → Nat → Nat → Nat × FpFlags}
    (h : ∀ s, exec i s = .next (vecOp c i a lat g s)) : SlotBound i c .vec := slotBound_of_vecLanes h

theorem slotBound_of_vecSpecial {a : VecA} {f : Fval → Fval} (h : ∀ s, exec i s = .next (vecSpecial c i a f s)) :
    SlotBound i c .vec := slotBound_of_vecOp h

theorem slotBound_of_lmOp {f : State → State} (h : ∀ s, exec i s = .next (lmOp c i f s)) : SlotBound i c .lm := ⟨_, h⟩

end

/-- WAITF and SYNC also begin the wait of a core that stands before them; every other slot command acts where it issues, and nowhere
else. -/
theorem slotBound_of_slotOf {i : Instr} {c : CoreId} {slot : Slot} (h : i.slotOf = some (c.val, slot)) :
    SlotBound i c slot ∨ (slot = .sync ∧ ((∃ f keep, i = .waitf c f keep) ∨ ∃ level, i = .sync c level)) := by
  cases i <;> simp only [Instr.slotOf, reduceCtorEq, Option.some.injEq, Prod.mk.injEq, Fin.val_inj] at h
  all_goals obtain ⟨rfl, rfl⟩ := h
  case waitf => exact .inr ⟨rfl, .inl ⟨_, _, rfl⟩⟩
  case sync => exact .inr ⟨rfl, .inr ⟨_, rfl⟩⟩
  case vadd | vsub | vmul | vfma | vmin | vmax | vabs | vneg => exact .inl (slotBound_of_vecOp fun _ => rfl)
  case vexp2 | vlog2 | vrcp | vrsqrt | vsqrt | vtanh => exact .inl (slotBound_of_vecSpecial fun _ => rfl)
  case ldx | stx | copy | fill | csrw => exact .inl (slotBound_of_lmOp fun _ => rfl)
  all_goals exact .inl ⟨_, fun _ => rfl⟩

theorem atSlot_eq_false {c : CoreId} {i : Instr} {s : State} (h : (bundleNow c s).map (slotCmd c .sync) ≠ some i) :
    atSlot c i s = false := by
  rw [atSlot, coreId_val]
  exact decide_eq_false h

/-- A core whose bundle is open, or which does not stand before one, begins no wait. -/
theorem holdCore_idle {c : Nat} {s : State} (h : ((s.core c).bundleAt (actOf c s)).isSome = true ∨ atBundle c s = false) :
    holdCore c s = s := by
  rw [holdCore]
  refine if_pos ?_
  rcases h with h | h <;> simp [h]

/-- A wait begins only where the bundle about to issue spells it and its core stands before it. -/
theorem begins_no_wait {c : CoreId} {i : Instr} {s : State} (h : (bundleNow c s).map (slotCmd c .sync) ≠ some i ∨
    ((s.core c).bundleAt (actOf c s)).isSome = true ∨ atBundle c s = false) :
    (if atSlot c i s then holdCore c s else s) = s := by
  rcases h with h | h
  · rw [atSlot_eq_false h]; rfl
  · rw [holdCore_idle h, ite_self]

/-- Settles O10: a slot command has its effect where its bundle issues it; WAITF and SYNC, moreover, where their core stands before them. -/
theorem slotNotTaken : Obligations.SlotNotTaken := by
  refine ⟨slotOf_slotCmd, fun i c slot s hslot hnot hwait => ?_⟩
  rcases slotBound_of_slotOf hslot with ⟨f, hf⟩ | ⟨rfl, ⟨f, keep, rfl⟩ | ⟨level, rfl⟩⟩
  · rw [hf, issueSlot_not c slot i f s hnot]
  · have hexec : exec (.waitf c f keep) s = .next (doWaitf c (.waitf c f keep) f keep s) := rfl
    rw [hexec, doWaitf, hnot, begins_no_wait (hwait (.inl ⟨f, keep, rfl⟩))]
    rfl
  · have hexec : exec (.sync c level) s = .next (doSync c (.sync c level) s) := rfl
    rw [hexec, doSync, begins_no_wait (hwait (.inr ⟨level, rfl⟩))]

end Sys2Proof.Machine
end

section
/-!
PROOFS. Where results in flight arrive (R77, R84, R91), and what the events of a cycle do to the tile flags (R94) (O11).
-/

namespace Sys2Proof.Machine

/-! ## The register files -/

theorem getElem!_set! {α : Type} [Inhabited α] {n i j : Nat} (v : Vector α n) (x : α) (hj : j < n) :
    (v.set! i x)[j]! = if i = j then x else v[j]! := by
  rw [getElem!_pos (v.set! i x) j hj, getElem!_pos v j hj, Vector.getElem_set!]

/-- A scalar register reads what was written to it, x0 reads 0, and every other is unchanged (R91). -/
theorem rx_wx (k : Core) (r q : BitVec 5) (v : BitVec 64) : (k.wx r v).rx q = if q = 0 then 0 else if q = r then v else k.rx q := by
  by_cases hq : q = 0
  · rw [if_pos hq, Core.rx, if_pos hq]
  · rw [if_neg hq, Core.rx, if_neg hq, Core.rx, if_neg hq]
    by_cases hr : r = 0
    · rw [Core.wx, if_pos hr, if_neg (fun h => hq (h.trans hr))]
    · rw [Core.wx, if_neg hr, getElem!_set! _ _ q.isLt]
      simp only [BitVec.toNat_inj, eq_comm]

/-- The masked bits of a vector register are replaced, and every other register is unchanged. -/
theorem rv_wv (k : Core) (r q : BitVec 5) (v m : BitVec 512) :
    (k.wv r v m).rv q = if q = r then (v &&& m) ||| (k.rv r &&& ~~~m) else k.rv q := by
  rw [Core.rv, Core.wv, getElem!_set! _ _ q.isLt]
  simp only [BitVec.toNat_inj, eq_comm, Core.rv]

/-- The masked bits of a mask register are replaced, m0 reads as all ones, and every other is unchanged (R84). -/
theorem rm_wm (k : Core) (r q : BitVec 3) (v m : BitVec 64) : (k.wm r v m).rm q =
    if q = 0 then BitVec.allOnes 64 else if q = r then (v &&& m) ||| (k.rm r &&& ~~~m) else k.rm q := by
  by_cases hq : q = 0
  · rw [if_pos hq, Core.rm, if_pos hq]
  · by_cases hr : r = 0
    · rw [if_neg hq, Core.wm, if_pos hr, if_neg (fun h => hq (h.trans hr))]
    · simp only [Core.rm, if_neg hq, if_neg hr, Core.wm, getElem!_set! _ _ q.isLt, BitVec.toNat_inj, eq_comm]

/-! ## Arrival -/

section
variable {s : State} (hs : Sound s)
include hs

theorem core_putCore_same (c : Nat) (k : Core) : (s.putCore c k).core c = k :=
  (core_putCore s c c k hs.cores).trans (if_pos rfl)

theorem core_putCore_ne {c d : Nat} (h : d ≠ c) (k : Core) : (s.putCore c k).core d = s.core d :=
  (core_putCore s c d k hs.cores).trans (if_neg h)

/-- A result of one core, unless it is a write of its CSR page, leaves every other core. -/
theorem core_landOne_ne {c d : Nat} (h : d ≠ c) {i : Infl} (hcsr : ∀ o v, i.dst ≠ .csr o v) :
    (landOne c s i).core d = s.core d := by
  unfold landOne
  split
  · exact core_putCore_ne hs h _
  · exact core_putCore_ne hs h _
  · exact core_putCore_ne hs h _
  · exact core_putCore_ne hs h _
  · next o v hdst => exact absurd hdst (hcsr o v)

end

/-! ## The tile flags -/

/-- A cycle without an event on a flag of the core. -/
theorem settleFlags_idle {c : Nat} {s : State} (h : (s.core c).rises = [] ∧ (s.core c).took = none) : settleFlags c s = s := by
  simp [settleFlags, h.1, h.2]

/-- A flag at the end of its cycle (R94). -/
theorem flagSum_eq (k : Core) (g : BitVec 5) : k.flagSum g = k.flag g + k.rises.count g - (if k.took = some g then 1 else 0) := rfl

/-- Whether a flag of the core would pass 63. -/
def Core.flagsPass (k : Core) : Bool := (List.range 32).any fun f => decide (63 < k.flagSum (BitVec.ofNat 5 f))

theorem flagsPass_iff (k : Core) : k.flagsPass = true ↔ ∃ g, 63 < k.flagSum g := by
  rw [Core.flagsPass, List.any_eq_true]
  constructor
  · rintro ⟨f, -, hf⟩
    exact ⟨_, of_decide_eq_true hf⟩
  · rintro ⟨g, hg⟩
    refine ⟨g.toNat, List.mem_range.mpr g.isLt, decide_eq_true ?_⟩
    rwa [BitVec.ofNat_toNat, BitVec.setWidth_eq]

/-- The core after the events of its cycle. -/
def Core.settled (k : Core) : Core :=
  { k with flags := (Vector.range 32).map (fun f => BitVec.ofNat 6 (min 63 (k.flagSum (BitVec.ofNat 5 f)))), rises := [], took := none }

theorem flag_settled (k : Core) (g : BitVec 5) : k.settled.flag g = min 63 (k.flagSum g) := by
  rw [Core.flag, Core.settled, getElem!_pos (Vector.map _ _) g.toNat g.isLt, Vector.getElem_map, Vector.getElem_range, BitVec.ofNat_toNat,
    BitVec.setWidth_eq, BitVec.toNat_ofNat]
  omega

theorem settleFlags_of_event {c : Nat} {s : State} (h : ¬((s.core c).rises = [] ∧ (s.core c).took = none)) :
    settleFlags c s = flagIf (s.core c).flagsPass F.CORE_STATUS_FLAG_OVF c 0 (s.putCore c (s.core c).settled) := by
  have hno : ((s.core c).rises.isEmpty && (s.core c).took.isNone) = false := by
    simpa [Option.isSome_iff_ne_none] using h
  rw [settleFlags, hno]
  rfl

theorem core_flagIf (b : Bool) (f : Fld) (u i d : Nat) (s : State) : (flagIf b f u i s).core d = s.core d := by
  cases b <;> rfl

/-- A sticky bit set where `b` holds reads 1 afterwards where it did before or `b` holds. -/
theorem bitF_flagIf {f : Fld} (hf : f.lo + f.w ≤ 64) (hw : 0 < f.w) (b : Bool) (u i : Nat) {s : State} (h : swf 0 s.regs) :
    bitF f u i (flagIf b f u i s) = true ↔ bitF f u i s = true ∨ b = true := by
  cases b with
  | false => simp [flagIf]
  | true =>
    have h1 : 1 % 2 ^ f.w = 1 := Nat.mod_eq_of_lt (Nat.one_lt_two_pow (Nat.ne_of_gt hw))
    simp [flagIf, flagF, bitF, getF_setF hf u i 1 s h, h1]

/-- Without an event the sum is the flag itself. -/
theorem flagSum_idle {k : Core} (h : k.rises = [] ∧ k.took = none) (g : BitVec 5) : k.flagSum g = k.flag g := by
  simp [flagSum_eq, h.1, h.2]

theorem flag_le (k : Core) (g : BitVec 5) : k.flag g ≤ 63 := Nat.le_of_lt_succ (k.flags[g.toNat]!).isLt

/-- The flags of a core at the end of a cycle, with FLAG_OVF, and what the events leave of the cores (R94). -/
theorem settleFlags_spec {s : State} (hs : Sound s) (c : Nat) :
    let t := settleFlags c s
    (∀ g, (t.core c).flag g = min 63 ((s.core c).flagSum g)) ∧ (t.core c).rises = [] ∧ (t.core c).took = none ∧
    (bitF F.CORE_STATUS_FLAG_OVF c 0 t = true ↔ bitF F.CORE_STATUS_FLAG_OVF c 0 s = true ∨ ∃ g, 63 < (s.core c).flagSum g) ∧
    ∀ d, d ≠ c → t.core d = s.core d := by
  by_cases h : (s.core c).rises = [] ∧ (s.core c).took = none
  · rw [settleFlags_idle h]
    have hle (g : BitVec 5) : (s.core c).flagSum g ≤ 63 := Nat.le_trans (Nat.le_of_eq (flagSum_idle h g)) (flag_le _ g)
    refine ⟨fun g => ?_, h.1, h.2, ⟨.inl, ?_⟩, fun _ _ => rfl⟩
    · rw [flagSum_idle h g, Nat.min_eq_right (flag_le _ g)]
    · rintro (hset | ⟨g, hg⟩)
      · exact hset
      · exact absurd hg (Nat.not_lt.mpr (hle g))
  · rw [settleFlags_of_event h]
    have hcore : (flagIf (s.core c).flagsPass F.CORE_STATUS_FLAG_OVF c 0 (s.putCore c (s.core c).settled)).core c =
        (s.core c).settled := (core_flagIf ..).trans (core_putCore_same hs c _)
    refine ⟨fun g => ?_, ?_, ?_, ?_, fun d hd => (core_flagIf ..).trans (core_putCore_ne hs hd _)⟩
    · rw [hcore, flag_settled]
    · rw [hcore]; rfl
    · rw [hcore]; rfl
    · rw [bitF_flagIf (by decide) (by decide) _ c 0 (s := s.putCore c _) hs.regs, flagsPass_iff]
      rfl

/-- Settles O11: each result goes to its own register or flag, and the events on the flags take effect at the cycle's end. -/
theorem resultsArrive : Obligations.ResultsArrive := by
  intro c due issue prio s hs
  refine ⟨fun r q v => ?_, fun r q v m => ?_, fun r q v m => ?_, fun f b => ?_, settleFlags_spec hs c,
    fun i d hd hcsr => core_landOne_ne hs hd hcsr⟩
  · rw [landOne, core_putCore_same hs, rx_wx]
  · rw [landOne, core_putCore_same hs, rv_wv]
  · rw [landOne, core_putCore_same hs, rm_wm]
  · exact core_putCore_same hs c _

end Sys2Proof.Machine
end

section
/-!
PROOFS. The vector slot, lane by lane (R84 to R88, R90): the lanes of a register put together are its lanes, and each operation puts its
function of the source lanes in them (O12, O13, O14).
-/

namespace Sys2Proof.Machine

/-! ## Lanes -/

theorem joinLanes_lt (w n : Nat) (f : Nat → Nat) : joinLanes w n f < 2 ^ (w * n) := by
  induction n with
  | zero => exact Nat.one_pos
  | succ k ih =>
    have hlane : f k % 2 ^ w + 1 ≤ 2 ^ w := Nat.mod_lt _ (Nat.two_pow_pos w)
    calc joinLanes w k f + f k % 2 ^ w * 2 ^ (w * k) < (f k % 2 ^ w + 1) * 2 ^ (w * k) := by rw [Nat.add_mul, Nat.one_mul]; omega
      _ ≤ 2 ^ w * 2 ^ (w * k) := Nat.mul_le_mul_right _ hlane
      _ = 2 ^ (w * (k + 1)) := by rw [Nat.mul_succ, Nat.add_comm (w * k), Nat.pow_add]

theorem joinLanes_lt_of_le {w n r : Nat} (f : Nat → Nat) (h : w * n ≤ r) : joinLanes w n f < 2 ^ r :=
  Nat.lt_of_lt_of_le (joinLanes_lt w n f) (Nat.pow_le_pow_right Nat.two_pos h)

/-- A lane below those that are added does not see them. -/
theorem lane_add_above {w l k : Nat} (h : l < k) (v x : Nat) : lane w (v + x * 2 ^ (w * k)) l = lane w v l := by
  obtain ⟨d, rfl⟩ := Nat.exists_eq_add_of_lt h
  have hpow : x * 2 ^ (w * (l + d + 1)) = 2 ^ (w * l) * (2 ^ w * (x * 2 ^ (w * d))) := by
    rw [Nat.mul_add, Nat.mul_add, Nat.mul_one, Nat.pow_add, Nat.pow_add]
    ac_rfl
  rw [lane, lane, hpow, Nat.add_mul_div_left _ _ (Nat.two_pow_pos _), Nat.add_mul_mod_self_left]

/-- A lane of lanes put together is that lane. -/
theorem lane_joinLanes {w n l : Nat} (f : Nat → Nat) (h : l < n) : lane w (joinLanes w n f) l = f l % 2 ^ w := by
  induction n with
  | zero => exact absurd h (Nat.not_lt_zero l)
  | succ k ih =>
    rcases Nat.lt_succ_iff_lt_or_eq.mp h with hlt | rfl
    · rw [joinLanes, lane_add_above hlt, ih hlt]
    · rw [joinLanes, lane, Nat.add_mul_div_right _ _ (Nat.two_pow_pos _), Nat.div_eq_of_lt (joinLanes_lt w l f), Nat.zero_add,
        Nat.mod_mod]

/-- The lanes of a register that holds lanes put together. -/
theorem lane_ofNat_joinLanes {w n r l : Nat} (f : Nat → Nat) (hreg : w * n ≤ r) (h : l < n) :
    lane w (BitVec.ofNat r (joinLanes w n f)).toNat l = f l % 2 ^ w := by
  rw [BitVec.toNat_ofNat, Nat.mod_eq_of_lt (joinLanes_lt_of_le f hreg), lane_joinLanes f h]

theorem lane_laneMask {w n l : Nat} (m : BitVec 64) (hreg : w * n ≤ 512) (h : l < n) :
    lane w (laneMask w n m).toNat l = if m.getLsbD l then 2 ^ w - 1 else 0 := by
  rw [laneMask, lane_ofNat_joinLanes _ hreg h]
  refine Nat.mod_eq_of_lt ?_
  have := Nat.two_pow_pos w
  split <;> omega

/-- The lanes of a type fill a register. -/
theorem vtWidth_mul_vtLanes : ∀ vt : BitVec 3, vtWidth vt * vtLanes vt = 512 := by decide

theorem laneFlags_congr {n : Nat} {p q : Nat → Nat × FpFlags} (m : BitVec 64) (h : ∀ l < n, (p l).2 = (q l).2) :
    laneFlags n m p = laneFlags n m q := by
  induction n with
  | zero => rfl
  | succ k ih => rw [laneFlags, laneFlags, ih fun l hl => h l (Nat.lt_succ_of_lt hl), h k (Nat.lt_succ_self k)]

/-! ## What a slot command reads -/

/-- A function of a core that reads only what taking a slot command leaves: not its bundle, its stream position, its loops or its wait. -/
def ReadsRegisters {α : Type} (g : Core → α) : Prop :=
  ∀ (k : Core) o p l w q, g { k with opened := o, pc := p, loops := l, wait := w, passed := q } = g k

theorem ReadsRegisters.beginSlot {α : Type} {g : Core → α} (hg : ReadsRegisters g) {s : State} (hs : Sound s) (c : Nat) (slot : Slot) :
    g ((beginSlot c slot s).core c) = g (s.core c) := by
  obtain ⟨o, p, l, w, q, e⟩ := core_beginSlot c slot s hs
  rw [e, hg]

/-! ## Operations on lanes -/

section
variable {c : Nat} {i : Instr} {s : State} (h : Takes c .vec i s)
include h

/-- A vector operation that the core takes delivers the lanes that `g` gives of the registers as they were before. -/
theorem vecLanes_takes {vd : BitVec 5} {mask : BitVec 3} {w n lat : Nat} {g : Core → Nat → Nat × FpFlags} (hg : ReadsRegisters g) :
    let k := s.core c
    vecLanes c i vd mask w n lat g s = fpFlags c (laneFlags n (k.rm mask) (g k))
      (deliver c lat 0 (.v vd (BitVec.ofNat 512 (joinLanes w n fun l => (g k l).1)) (laneMask w n (k.rm mask))) (beginSlot c .vec s)) := by
  rw [vecLanes, issueSlot_takes c .vec i _ s h]
  simp only [hg.beginSlot h.1 c .vec, rm_beginSlot c .vec s h.1]

end

/-- A command that is a vector operation delivers a register whose lanes, and the bits that it writes of them, are as `p` gives them. -/
theorem vecLanes_gives {c : Nat} {i : Instr} {s : State} {vd : BitVec 5} {mask : BitVec 3} {w n lat : Nat}
    {g : Core → Nat → Nat × FpFlags} (hexec : exec i s = .next (vecLanes c i vd mask w n lat g s)) (hreg : w * n ≤ 512)
    (hg : ReadsRegisters g) {p : Nat → Nat × FpFlags} (hval : ∀ l < n, (g (s.core c) l).1 % 2 ^ w = (p l).1 % 2 ^ w)
    (hflags : ∀ l < n, (g (s.core c) l).2 = (p l).2) (h : Takes c .vec i s) :
    ∃ val m : BitVec 512,
      exec i s = .next (fpFlags c (laneFlags n ((s.core c).rm mask) p) (deliver c lat 0 (.v vd val m) (beginSlot c .vec s))) ∧
      ∀ l < n, lane w val.toNat l = (p l).1 % 2 ^ w ∧
        lane w m.toNat l = if ((s.core c).rm mask).getLsbD l then 2 ^ w - 1 else 0 := by
  refine ⟨_, _, ?_, fun l hl => ⟨(lane_ofNat_joinLanes _ hreg hl).trans (hval l hl), lane_laneMask _ hreg hl⟩⟩
  rw [hexec, vecLanes_takes h hg, laneFlags_congr _ hflags]

/-- The same for an operation on the lanes of a type that gives each the very value of `p`. -/
theorem vecType_gives {c : Nat} {i : Instr} {s : State} {vd : BitVec 5} {mask vt : BitVec 3} {lat : Nat}
    {g : Core → Nat → Nat × FpFlags} (hexec : exec i s = .next (vecLanes c i vd mask (vtWidth vt) (vtLanes vt) lat g s))
    (hg : ReadsRegisters g) {p : Nat → Nat × FpFlags} (hp : g (s.core c) = p) (h : Takes c .vec i s) :
    ∃ val m : BitVec 512,
      exec i s = .next (fpFlags c (laneFlags (vtLanes vt) ((s.core c).rm mask) p) (deliver c lat 0 (.v vd val m) (beginSlot c .vec s))) ∧
      ∀ l < vtLanes vt, lane (vtWidth vt) val.toNat l = (p l).1 % 2 ^ vtWidth vt ∧
        lane (vtWidth vt) m.toNat l = if ((s.core c).rm mask).getLsbD l then 2 ^ vtWidth vt - 1 else 0 := by
  subst hp
  exact vecLanes_gives hexec (Nat.le_of_eq (vtWidth_mul_vtLanes vt)) hg (fun _ _ => rfl) (fun _ _ => rfl) h

/-- The same for a function of the lanes of the operands. -/
theorem vecOp_gives {c : Nat} {i : Instr} {s : State} {a : VecA} {lat : Nat} {g : Nat → Nat → Nat → Nat × FpFlags}
    (hexec : exec i s = .next (vecOp c i a lat g s)) {p : Nat → Nat × FpFlags}
    (hp : (fun l => g (lane (vtWidth a.vt) ((s.core c).rv a.vs1).toNat l) (lane (vtWidth a.vt) ((s.core c).rv a.vs2).toNat l)
      (lane (vtWidth a.vt) ((s.core c).rv a.vs3).toNat l)) = p) (h : Takes c .vec i s) :
    ∃ val m : BitVec 512,
      exec i s = .next (fpFlags c (laneFlags (vtLanes a.vt) ((s.core c).rm a.mask) p)
        (deliver c lat 0 (.v a.vd val m) (beginSlot c .vec s))) ∧
      ∀ l < vtLanes a.vt, lane (vtWidth a.vt) val.toNat l = (p l).1 % 2 ^ vtWidth a.vt ∧
        lane (vtWidth a.vt) m.toNat l = if ((s.core c).rm a.mask).getLsbD l then 2 ^ vtWidth a.vt - 1 else 0 :=
  vecType_gives hexec (fun _ _ _ _ _ _ => rfl) hp h

/-- Settles O12: each operation puts its own function of the source lanes in the lanes of its result. -/
theorem vectorLaneForms : Obligations.VectorLaneForms := by
  intro c a v x s
  exact ⟨vecOp_gives rfl rfl, vecOp_gives rfl rfl, vecOp_gives rfl rfl, vecOp_gives rfl rfl, vecOp_gives rfl rfl, vecOp_gives rfl rfl,
    vecOp_gives rfl rfl, vecOp_gives rfl rfl, vecType_gives rfl (fun _ _ _ _ _ _ => rfl) rfl,
    vecType_gives rfl (fun _ _ _ _ _ _ => rfl) rfl, vecType_gives rfl (fun _ _ _ _ _ _ => rfl) rfl,
    vecLanes_gives rfl (by decide) (fun _ _ _ _ _ _ => rfl) (fun _ _ => rfl) fun _ _ => rfl,
    vecLanes_gives rfl (Nat.le_of_eq (vtWidth_mul_vtLanes _)) (fun _ _ _ _ _ _ => rfl) (fun _ _ => Nat.mod_mod _ _) fun _ _ => rfl,
    vecLanes_gives rfl (Nat.le_of_eq (vtWidth_mul_vtLanes _)) (fun _ _ _ _ _ _ => rfl) (fun _ _ => Nat.mod_mod _ _) fun _ _ => rfl⟩

/-! ## Special functions and the conversion -/

/-- A special function that the core takes delivers its lanes, rounded to FP32 and then to the lane type (R86). -/
theorem vecSpecial_takes {c : Nat} {i : Instr} {s : State} (h : Takes c .vec i s) (a : VecA) (f : Fval → Fval) :
    let k := s.core c
    let t := specialVt a.vt
    let p (l : Nat) := specialLane f t a.sat (lane (vtWidth t) (k.rv a.vs1).toNat l)
    vecSpecial c i a f s = fpFlags c (laneFlags (vtLanes t) (k.rm a.mask) p)
      (deliver c 12 0 (.v a.vd (BitVec.ofNat 512 (joinLanes (vtWidth t) (vtLanes t) fun l => (p l).1))
        (laneMask (vtWidth t) (vtLanes t) (k.rm a.mask))) (beginSlot c .vec s)) := by
  rw [vecSpecial, vecOp]
  exact vecLanes_takes h fun _ _ _ _ _ _ => rfl

/-- The first lane of a part: lane 0 where there is one part only. -/
theorem partOffset (c : Prop) [Decidable c] (part n : Nat) : (if c then 0 else part) * n = if c then 0 else part * n := by
  split
  · exact Nat.zero_mul n
  · rfl

/-- A conversion that the core takes delivers the lanes of the part that it writes (R90). -/
theorem doVcvt_takes {c : Nat} {i : Instr} {s : State} (h : Takes c .vec i s) (a : VecA) :
    let k := s.core c
    let dt : BitVec 3 := a.vs3.setWidth 3
    let ws := vtWidth a.vt
    let wd := vtWidth dt
    let n := 512 / max ws wd
    let from0 := if wd ≤ ws then 0 else cvtPart (wd / ws) (a.aux.toNat % 4) * n
    let to0 := if ws ≤ wd then 0 else cvtPart (ws / wd) (a.aux.toNat % 4) * n
    let p (l : Nat) := cvtLane a.vt dt (.ofBits a.rnd.toNat) a.sat (lane ws (k.rv a.vs1).toNat (from0 + l))
    let m := k.rm a.mask >>> to0
    doVcvt c i a s = fpFlags c (laneFlags n m p)
      (deliver c 4 0 (.v a.vd (BitVec.ofNat 512 (joinLanes wd n fun l => (p l).1) <<< (to0 * wd)) (laneMask wd n m <<< (to0 * wd)))
        (beginSlot c .vec s)) := by
  rw [doVcvt, issueSlot_takes c .vec i _ s h]
  simp only [rv_beginSlot c .vec s h.1, rm_beginSlot c .vec s h.1, partOffset]

/-- Settles O13: each special function delivers its own lanes, and the conversion those of the part that it writes. -/
theorem vectorSpecialForms : Obligations.VectorSpecialForms := by
  intro c a s
  exact ⟨fun h => next_congr (vecSpecial_takes h a _), fun h => next_congr (vecSpecial_takes h a _),
    fun h => next_congr (vecSpecial_takes h a _), fun h => next_congr (vecSpecial_takes h a _),
    fun h => next_congr (vecSpecial_takes h a _), fun h => next_congr (vecSpecial_takes h a _),
    fun h => next_congr (doVcvt_takes h a)⟩

/-! ## Compares, selection and bitwise operations -/

section
variable {c : Nat} {i : Instr} {s : State} (h : Takes c .vec i s)
include h

theorem vecCompare_takes (a : VecA) (p : Fval → Fval → Bool) :
    let k := s.core c
    let w := vtWidth a.vt
    let n := vtLanes a.vt
    vecCompare c i a p s = deliver c 3 0 (.m (a.vd.setWidth 3) (BitVec.ofNat 64 (joinLanes 1 n fun l =>
        if p (vtDecode a.vt (lane w (k.rv a.vs1).toNat l)) (vtDecode a.vt (lane w (k.rv a.vs2).toNat l)) then 1 else 0))
      (k.rm a.mask &&& BitVec.ofNat 64 (2 ^ n - 1))) (beginSlot c .vec s) := by
  rw [vecCompare, issueSlot_takes c .vec i _ s h]
  simp only [rv_beginSlot c .vec s h.1, rm_beginSlot c .vec s h.1]

theorem doVsel_takes (a : VecA) :
    let k := s.core c
    let m := laneMask (vtWidth a.vt) (vtLanes a.vt) (k.rm a.mask)
    doVsel c i a s = deliver c 3 0 (.v a.vd ((k.rv a.vs1 &&& m) ||| (k.rv a.vs2 &&& ~~~m)) (BitVec.allOnes 512))
      (beginSlot c .vec s) := by
  rw [doVsel, issueSlot_takes c .vec i _ s h]
  simp only [rv_beginSlot c .vec s h.1, rm_beginSlot c .vec s h.1]

theorem vecBits_takes (a : VecA) (p : BitVec 512 → BitVec 512 → BitVec 512) :
    let k := s.core c
    vecBits c i a p s = deliver c 3 0 (.v a.vd (p (k.rv a.vs1) (k.rv a.vs2)) (laneMask (vtWidth a.vt) (vtLanes a.vt) (k.rm a.mask)))
      (beginSlot c .vec s) := by
  rw [vecBits, issueSlot_takes c .vec i _ s h]
  simp only [rv_beginSlot c .vec s h.1, rm_beginSlot c .vec s h.1]

theorem doVtox_takes (x : VecX) :
    doVtox c i x s = deliver c 3 0 (.x x.xreg (BitVec.ofNat 64
      (lane (vtWidth x.vt) ((s.core c).rv x.vd).toNat (x.lane.toNat % vtLanes x.vt)))) (beginSlot c .vec s) := by
  rw [doVtox, issueSlot_takes c .vec i _ s h]
  simp only [rv_beginSlot c .vec s h.1]

end

/-- Settles O14: each of these delivers one result, a function of the registers as they were before. -/
theorem vectorCompareAndSelect : Obligations.VectorCompareAndSelect := by
  intro c a x s
  exact ⟨fun h => next_congr (vecCompare_takes h a _), fun h => next_congr (vecCompare_takes h a _),
    fun h => next_congr (vecCompare_takes h a _), fun h => next_congr (doVsel_takes h a), fun h => next_congr (vecBits_takes h a _),
    fun h => next_congr (vecBits_takes h a _), fun h => next_congr (vecBits_takes h a _), fun h => next_congr (doVtox_takes h x)⟩

end Sys2Proof.Machine
end

section
/-!
PROOFS. Vector memory operations and local moves (R82, R89, R92): while their port is held they are discarded, else they schedule their
accesses (O15, O16).
-/

namespace Sys2Proof.Machine

/-! ## Vector memory operations -/

section
variable {c : Nat} {i : Instr} {s : State} (h : Takes c .vec i s) (hold : Bool) (acc : Core → Nat → List Acc)
include h

theorem vecMem_held :
    let z := beginSlot c .vec s
    actOf c z ≤ (z.core c).vmBusy ∧ (z.core c).vmBusy ≠ 0 → vecMem c i hold acc s = flagF F.CORE_STATUS_VEC_DROPPED c 0 z := by
  intro z hheld
  rw [vecMem, issueSlot_takes c .vec i _ s h]
  exact if_pos hheld

theorem vecMem_free :
    let z := beginSlot c .vec s
    let k := z.core c
    ¬(actOf c z ≤ k.vmBusy ∧ k.vmBusy ≠ 0) →
    vecMem c i hold acc s = schedule c (acc k (actOf c z)) (if hold then z.putCore c { k with vmBusy := actOf c z + 16 } else z) := by
  intro z k hfree
  rw [vecMem, issueSlot_takes c .vec i _ s h]
  exact if_neg hfree

end

/-- Settles O15: a vector memory operation schedules its accesses where its port is free. -/
theorem vectorMemoryForms : Obligations.VectorMemoryForms := by
  intro c m s z k t runs lanes adr gives held
  refine ⟨fun hheld => ?_, fun hfree => ⟨fun h => next_congr (vecMem_free h false _ hfree),
    fun h => next_congr (vecMem_free h false _ hfree), fun h => next_congr (vecMem_free h true _ hfree),
    fun h => next_congr (vecMem_free h true _ hfree)⟩⟩
  simp only [List.forall_mem_cons]
  exact ⟨fun h => next_congr (vecMem_held h false _ hheld), fun h => next_congr (vecMem_held h false _ hheld),
    fun h => next_congr (vecMem_held h true _ hheld), fun h => next_congr (vecMem_held h true _ hheld), List.forall_mem_nil _⟩

/-! ## Local moves -/

section
variable {c : Nat} {i : Instr} {s : State} (h : Takes c .lm i s) (f : State → State)
include h

theorem lmOp_held :
    let z := beginSlot c .lm s
    actOf c z ≤ (z.core c).lmBusy ∧ (z.core c).lmBusy ≠ 0 → lmOp c i f s = flagF F.CORE_STATUS_LM_DROPPED c 0 z := by
  intro z hheld
  rw [lmOp, issueSlot_takes c .lm i _ s h]
  exact if_pos hheld

theorem lmOp_free :
    let z := beginSlot c .lm s
    ¬(actOf c z ≤ (z.core c).lmBusy ∧ (z.core c).lmBusy ≠ 0) → lmOp c i f s = f z := by
  intro z hfree
  rw [lmOp, issueSlot_takes c .lm i _ s h]
  exact if_neg hfree

end

/-- Settles O16: a local move has its effect where the port is free. -/
theorem localMoveForms : Obligations.LocalMoveForms := by
  intro c m x base off word s z k t adr n gives run
  refine ⟨fun hheld => ?_, fun hfree => ⟨fun h => next_congr (lmOp_free h _ hfree), fun h => next_congr (lmOp_free h _ hfree),
    fun h => next_congr (lmOp_free h _ hfree), fun h => next_congr (lmOp_free h _ hfree), fun h => next_congr (lmOp_free h _ hfree)⟩⟩
  simp only [List.forall_mem_cons]
  exact ⟨fun h => next_congr (lmOp_held h _ hheld), fun h => next_congr (lmOp_held h _ hheld), fun h => next_congr (lmOp_held h _ hheld),
    fun h => next_congr (lmOp_held h _ hheld), fun h => next_congr (lmOp_held h _ hheld), List.forall_mem_nil _⟩

end Sys2Proof.Machine
end

section
/-!
PROOFS. The sync slot (R93 to R98): how a core comes to wait, and what the commands that issue do (O17).
-/

namespace Sys2Proof.Machine

/-! ## Waits -/

/-- What the sync slot spells is the same for every core but for the core itself. -/
theorem syncCmd_waitf {c : CoreId} (d : CoreId) {v : BitVec 32} {f : BitVec 5} {keep : Bool} (h : syncCmd c v = .waitf c f keep) :
    syncCmd d v = .waitf d f keep := by
  unfold syncCmd at h ⊢
  split at h <;> simp_all

theorem syncCmd_sync {c : CoreId} (d : CoreId) {v : BitVec 32} {level : BitVec 2} (h : syncCmd c v = .sync c level) :
    syncCmd d v = .sync d level := by
  unfold syncCmd at h ⊢
  split at h <;> simp_all

/-- A bundle with a WAITF waits for its flag. -/
theorem waitOver_of_waitf {c : CoreId} {w : BitVec 256} {f : BitVec 5} {keep : Bool} (h : slotCmd c .sync w = .waitf c f keep) (k : Core) :
    k.waitOver w = decide (1 ≤ k.flag f) := by
  have h0 : slotCmd 0 .sync w = .waitf 0 f keep := syncCmd_waitf 0 h
  rw [Core.waitOver, h0]

/-- A bundle with a SYNC waits for its release. -/
theorem waitOver_of_sync {c : CoreId} {w : BitVec 256} {level : BitVec 2} (h : slotCmd c .sync w = .sync c level) (k : Core) :
    k.waitOver w = k.passed := by
  have h0 : slotCmd 0 .sync w = .sync 0 level := syncCmd_sync 0 h
  rw [Core.waitOver, h0]

/-- Core `c` stands before a bundle, not yet open, whose sync slot spells `i`. -/
def StandsBefore (c : CoreId) (i : Instr) (s : State) : Prop :=
  atBundle c s = true ∧ (s.core c).bundleAt (actOf c s) = none ∧ (s.core c).bundle.map (slotCmd c .sync) = some i

section
variable {c : CoreId} {i : Instr} {s : State} (h : StandsBefore c i s)
include h

theorem StandsBefore.atSlot : atSlot c i s = true := by
  obtain ⟨-, hclosed, hspells⟩ := h
  simp only [Machine.atSlot, coreId_val, bundleNow, hclosed, hspells, decide_true]

/-- The bundle does not open while its wait is not over. -/
theorem StandsBefore.canOpen_eq_false (hwait : ∀ w, slotCmd c .sync w = i → (s.core c).waitOver w = false) : canOpen c s = false := by
  obtain ⟨-, -, hspells⟩ := h
  obtain ⟨w, hw, hi⟩ := Option.map_eq_some_iff.mp hspells
  simp only [canOpen, hw, hwait w hi, Bool.and_false]

theorem StandsBefore.canIssue_eq_false (hopen : canOpen c s = false) : canIssue c .sync i s = false := by
  obtain ⟨-, hclosed, -⟩ := h
  simp only [canIssue, hclosed, hopen, Bool.false_and]

end

/-- Standing before a SYNC, a core that waits at none and has not been released begins to wait at its level; 3 acts as 2. -/
theorem StandsBefore.holdCore_sync {c : CoreId} {level : BitVec 2} {s : State} (h : StandsBefore c (.sync c level) s)
    (hpassed : (s.core c).passed = false) (hwait : ∀ v t, (s.core c).wait ≠ .sync v t) :
    holdCore c s = s.putCore c { s.core c with wait := .sync (if level = 3 then 2 else level) (actOf c s) } := by
  obtain ⟨hat, hclosed, hspells⟩ := h
  cases hw : (s.core c).wait with
  | sync v t => exact absurd hw (hwait v t)
  | none => simp [holdCore, hat, hclosed, coreId_val, hspells, hw, hpassed]
  | flag g keep => simp [holdCore, hat, hclosed, coreId_val, hspells, hw, hpassed]

/-- Standing before a WAITF of a flag that is 0, a core waits for the flag. -/
theorem StandsBefore.holdCore_waitf {c : CoreId} {f : BitVec 5} {keep : Bool} {s : State} (h : StandsBefore c (.waitf c f keep) s)
    (hflag : (s.core c).flag f = 0) : holdCore c s = s.putCore c { s.core c with wait := .flag f keep } := by
  obtain ⟨hat, hclosed, hspells⟩ := h
  simp [holdCore, hat, hclosed, coreId_val, hspells, hflag]

/-- A SYNC makes the core wait at its level, unless it waits at one or has been released. -/
theorem exec_sync_waits {c : CoreId} {level : BitVec 2} {s : State} (h : StandsBefore c (.sync c level) s)
    (hpassed : (s.core c).passed = false) (hwait : ∀ v t, (s.core c).wait ≠ .sync v t) :
    exec (.sync c level) s = .next (s.putCore c { s.core c with wait := .sync (if level = 3 then 2 else level) (actOf c s) }) := by
  have hexec : exec (.sync c level) s = .next (doSync c (.sync c level) s) := rfl
  rw [hexec, doSync, if_pos h.atSlot, h.holdCore_sync hpassed hwait]

/-- A WAITF of a flag that is 0 makes the core wait for it. -/
theorem exec_waitf_waits {c : CoreId} {f : BitVec 5} {keep : Bool} {s : State} (h : StandsBefore c (.waitf c f keep) s)
    (hflag : (s.core c).flag f = 0) (hopen : canOpen c s = false) :
    exec (.waitf c f keep) s = .next (s.putCore c { s.core c with wait := .flag f keep }) := by
  have hexec : exec (.waitf c f keep) s = .next (doWaitf c (.waitf c f keep) f keep s) := rfl
  rw [hexec, doWaitf, h.canIssue_eq_false hopen, if_neg Bool.false_ne_true, if_pos h.atSlot, h.holdCore_waitf hflag]

/-! ## Commands that issue -/

theorem exec_loop_takes {c : CoreId} {l : LoopF} {s : State} (h : Takes c .sync (.loop c l) s) {o : Opened}
    (ho : ((beginSlot c .sync s).core c).opened = some o) :
    let z := beginSlot c .sync s
    let k := z.core c
    exec (.loop c l) s = .next (if 2 ≤ o.loops.length then flagF F.CORE_STATUS_LOOP_ERR c 0 z
      else let r := openLoop o.loops o.idx.toNat (l.len.toNat + 1) (loopCount k l)
        flagIf r.2.2 F.CORE_STATUS_LOOP_ERR c 0 (z.putCore c { k with pc := BitVec.ofNat 32 r.1, loops := r.2.1 })) := by
  have hexec : exec (.loop c l) s = .next (doLoop c (.loop c l) l s) := rfl
  rw [hexec, doLoop, issueSlot_takes c .sync _ _ s h]
  simp only [ho]

/-- Settles O17: where the core stands before a bundle, SYNC and WAITF begin its wait; where it takes the command, each has its effect. -/
theorem syncSlotForms : Obligations.SyncSlotForms := by
  intro c f keep target n tag l s
  refine ⟨fun level h => ⟨fun hpassed hwait => exec_sync_waits h hpassed hwait, fun hpassed =>
      StandsBefore.canOpen_eq_false h fun w hw => (waitOver_of_sync hw _).trans hpassed⟩, fun h hflag => ?_,
    fun slot h => next_congr (issueSlot_takes c slot _ _ s h), fun h => ?_, fun h => next_congr (issueSlot_takes c .sync _ _ s h),
    fun h => next_congr (issueSlot_takes c .sync _ _ s h), fun h => next_congr (issueSlot_takes c .sync _ _ s h),
    fun h => next_congr (issueSlot_takes c .sync _ _ s h), fun o ho h => exec_loop_takes h ho⟩
  · have hopen : canOpen c s = false := StandsBefore.canOpen_eq_false h fun w hw => by rw [waitOver_of_waitf hw, hflag]; rfl
    exact ⟨exec_waitf_waits h hflag hopen, hopen⟩
  · exact next_congr (if_pos h.2)

end Sys2Proof.Machine
end

section
/-!
PROOFS. Barrow programs (R93, R151, R152, R208 to R210, R214, R219, R220, R224, R228): how a program is armed, started and failed, and how
its moves issue and end (O40).
-/

namespace Sys2Proof.Machine

/-! ## Arming -/

theorem armProg_room {b : Nat} {s : State} (h : (s.bed b).armed.length < 64) (p : Prog) :
    armProg b p s = incF F.BRW_KICKS_COUNT b 0 1 (s.putBed b { s.bed b with armed := insertProg p (s.bed b).armed }) :=
  if_neg (Nat.not_le.mpr h)

/-- With 64 programs armed the last in the order of arming is discarded (R209). -/
theorem armProg_full {b : Nat} {s : State} (h : 64 ≤ (s.bed b).armed.length) (p : Prog) : armProg b p s =
    flagF F.BRW_STATUS_KICK_DROPPED b 0 (s.putBed b { s.bed b with armed := (insertProg p (s.bed b).armed).take 64 }) :=
  if_pos h

section
variable {c : CoreId} {program : BitVec 12} {s : State} {l : Launch} (h : Takes c .sync (.kick c program) s)
  (hl : ((beginSlot c .sync s).part ((beginSlot c .sync s).core c).part).launch = some l)
include h hl

/-- A KICK on a bed that has the order to stop only takes its slot (R268). -/
theorem exec_kick_stopping (hstop : ((beginSlot c .sync s).bed (bedOf c)).stopping = true) :
    exec (.kick c program) s = .next (beginSlot c .sync s) := by
  have hexec : exec (.kick c program) s = .next (doKick c (.kick c program) program.toNat s) := rfl
  rw [hexec, doKick, issueSlot_takes c .sync _ _ s h]
  simp only [hl, hstop, if_true]

/-- A KICK on any other bed arms its program. -/
theorem exec_kick_arms (hstop : ((beginSlot c .sync s).bed (bedOf c)).stopping = false) :
    let s1 := beginSlot c .sync s
    let s2 := { s1 with nextId := s1.nextId + 1 }
    exec (.kick c program) s = .next (armProg (bedOf c) (kickProg c program.toNat l s1.nextId s2) s2) := by
  have hexec : exec (.kick c program) s = .next (doKick c (.kick c program) program.toNat s) := rfl
  rw [hexec, doKick, issueSlot_takes c .sync _ _ s h]
  simp only [hl, hstop, Bool.false_eq_true, if_false]
  rfl

end

/-! ## Starting -/

section
variable {b : Nat} {s : State} {p : Prog} (hroom : (s.bed b).progs.length < 16) (hpower : s.bgPower (bgOf b) = 0)
  (hdue : p.desc ≠ none ∨ p.at0 + 3 ≤ (s.bed b).act) (hstop : p.stop = false)
include hroom hpower hdue hstop

/-- Nothing holds the start of a program. -/
theorem programStart_unheld : (decide (16 ≤ (s.bed b).progs.length) || decide (s.bgPower (bgOf b) ≠ 0) ||
    (p.desc.isNone && decide ((s.bed b).act < p.at0 + 3)) || p.stop) = false := by
  have hkick : (p.desc.isNone && decide ((s.bed b).act < p.at0 + 3)) = false := by
    rcases hdue with hmove | htime
    · rw [Option.isNone_eq_false_iff.mpr (Option.isSome_iff_ne_none.mpr hmove), Bool.false_and]
    · rw [decide_eq_false (Nat.not_lt.mpr htime), Bool.and_false]
  simp [hroom, hpower, hkick, hstop]

variable {rest : List Prog} (harmed : (s.bed b).armed = p :: rest)
include harmed

/-- With its table entry read, the first armed program starts. -/
theorem programStart_ok {v : Nat} {s1 : State} (hgot : (p.via b).getRange (p.table + 16 * p.prog) 16 s = (.ok v, s1)) :
    programStart b s = startProg b p v ((p.via b).done s1) := by
  simp only [programStart, harmed, programStart_unheld hroom hpower hdue hstop, hgot, Bool.false_eq_true, if_false]

/-- While its table entry is on its way, it waits. -/
theorem programStart_wait {s1 : State} (hgot : (p.via b).getRange (p.table + 16 * p.prog) 16 s = (.wait, s1)) :
    programStart b s = s1 := by
  simp only [programStart, harmed, programStart_unheld hroom hpower hdue hstop, hgot, Bool.false_eq_true, if_false]

end

/-! ## Completion and failure -/

/-- A flag may rise that no move raises, or before which every earlier write of the bed is performed (R151). -/
theorem flagMay_true {b id : Nat} {m : Move} {s : State}
    (h : m.r.raise = false ∨ ∃ n, m.waits = some n ∧ bedPerformed b n s = true) : flagMay b id m s = (true, s) := by
  cases hraise : m.r.raise with
  | false => simp only [flagMay, hraise, Bool.not_false, if_true]
  | true =>
    obtain ⟨n, hwaits, hdone⟩ := h.resolve_left (by simp [hraise])
    simp only [flagMay, hraise, hwaits, hdone, Bool.not_true, Bool.false_eq_true, if_false]

section
variable {b id idx : Nat} {p : Prog} {m : Move} {s : State} (hmove : moveOf b id idx (collect b s) = some (p, m))
include hmove

/-- A move that is performed, decided and agreed, and whose flag may rise, is finished. -/
theorem moveComplete_finishes (hperf : m.performed = true) (hfailed : p.failed = none) (hstop : p.stop = false)
    (hdecided : m.undecided = false) (hagree : agreeCame p m (collect b s) = true)
    (hflag : m.r.raise = false ∨ ∃ n, m.waits = some n ∧ bedPerformed b n (collect b s) = true) :
    moveComplete b id idx s = finishMove b p m (collect b s) := by
  simp only [moveComplete, hmove, hperf, hfailed, hstop, flagMay_true hflag, hdecided, hagree, Bool.not_true, Option.isSome_none,
    Bool.or_self, Bool.false_eq_true, if_false]

/-- A move that is not performed, or whose program has failed or stopped, is left. -/
theorem moveComplete_not (h : m.performed = false ∨ p.failed ≠ none ∨ p.stop = true) : moveComplete b id idx s = collect b s := by
  have hleft : (!m.performed || p.failed.isSome || p.stop) = true := by
    rcases h with h | h | h
    · simp [h]
    · simp [Option.isSome_iff_ne_none.mpr h]
    · simp [h]
  simp only [moveComplete, hmove, hleft, if_true]

/-- A decided move that has failed fails its program. -/
theorem moveError_fails {st : Status} (hbad : m.bad = some st) (hdecided : m.undecided = false) (hfailed : p.failed = none) :
    moveError b id idx s = failProg b (p.putMove { m with st := .failed st, tag := none }) idx st m.ue (collect b s) := by
  simp only [moveError, hmove, hbad, hdecided, hfailed, Option.isSome_none, Bool.or_self, Bool.false_eq_true, if_false]

/-- A move that has not failed, whose set is undecided, or whose program has failed, is left. -/
theorem moveError_not (h : m.bad = none ∨ m.undecided = true ∨ p.failed ≠ none) : moveError b id idx s = collect b s := by
  cases hbad : m.bad with
  | none => simp only [moveError, hmove, hbad]
  | some st =>
    have hleft : (m.undecided || p.failed.isSome) = true := by
      rcases h.resolve_left (by simp [hbad]) with h | h
      · simp [h]
      · simp [Option.isSome_iff_ne_none.mpr h]
    simp only [moveError, hmove, hbad, hleft, if_true]

end

/-- Settles O40: each command of a barrow program does its part, or leaves what is not its turn. -/
theorem barrowPrograms : Obligations.BarrowPrograms := by
  intro b s
  refine ⟨fun c program l h hl => ⟨exec_kick_stopping h hl, fun hstop hroom => ?_, fun hstop hfull => ?_⟩,
    fun p rest harmed hroom hpower hdue hstop => ⟨fun v s1 hgot => ?_, fun s1 hgot => ?_⟩, fun hpower => ?_,
    fun prog idx p m hmove => ⟨fun hperf hfailed hstop hdecided hagree hflag => ?_, fun h => next_congr (moveComplete_not hmove h),
      fun st hbad hdecided hfailed => next_congr (moveError_fails hmove hbad hdecided hfailed),
      fun h => next_congr (moveError_not hmove h)⟩⟩
  · exact (exec_kick_arms h hl hstop).trans (next_congr (armProg_room hroom _))
  · exact (exec_kick_arms h hl hstop).trans (next_congr (armProg_full hfull _))
  · exact next_congr (programStart_ok hroom hpower hdue hstop harmed hgot)
  · exact next_congr (programStart_wait hroom hpower hdue hstop harmed hgot)
  · exact next_congr (if_neg fun hne => hne hpower)
  · exact next_congr (moveComplete_finishes hmove hperf hfailed hstop hdecided hagree hflag)

end Sys2Proof.Machine
end

section
/-!
PROOFS. Launches (R95, R99 to R102, R265 to R268): how one starts, how its instruction buffers are filled, how its sync points release
and how it ends (O50).
-/

namespace Sys2Proof.Machine

/-! ## LAUNCH -/

section
variable {n i : Nat} {s : State} {d : Desc} (hdesc : getDesc n i s = some d) (hkind : d.kind = 1) (hruns : descRuns n d s = true)
  (hst : d.st ≠ .started)
include hdesc hkind hruns hst

/-- A LAUNCH whose turn has not come only waits in the queue of its partition. -/
theorem descLaunch_waits :
    let p := descPart n d s
    let s1 := queueDesc p n i (putDesc n { d with st := .waiting } s)
    launchTurn p n i s1 = false → descLaunch n i s = s1 := by
  intro p s1 hturn
  simp only [descLaunch, hdesc, hkind, hruns, hst, ne_eq, not_true_eq_false, decide_false, Bool.not_true, Bool.or_self,
    Bool.false_eq_true, if_false]
  exact if_neg (Bool.eq_false_iff.mp hturn)

/-- A LAUNCH whose turn has come is checked, and started where its launch has been placed. -/
theorem descLaunch_checks :
    let p := descPart n d s
    let d1 := { d with st := .waiting }
    let s1 := queueDesc p n i (putDesc n d1 s)
    let s2 := launchChecks p n d1 s1
    launchTurn p n i s1 = true → descLaunch n i s =
      if ((s2.part p).launch.map fun l => ((l.ring, l.idx) : Nat × Nat)) = some (n, i) then beginDesc n d1 s2 else s2 := by
  intro p d1 s1 s2 hturn
  simp only [descLaunch, hdesc, hkind, hruns, hst, ne_eq, not_true_eq_false, decide_false, Bool.not_true, Bool.or_self,
    Bool.false_eq_true, if_false]
  exact if_pos hturn

end

/-! ## Instruction buffers -/

/-- Whether a core asks for a block: it follows the stream, has not asked yet, and lacks a bundle of it (R100). -/
def Core.asksFor (k : Core) (strm blk : Nat) : Bool :=
  k.follows strm && !k.ibWanted.contains blk &&
    ((List.range 32).any fun i => decide (32 * blk + i < k.streamLen) && (look k.ib (32 * blk + i)).isNone)

theorem ibRefill_eq (b strm blk : Nat) (s : State) : ibRefill b strm blk s = (coresOf b).foldl (fun z c =>
    if (z.core c).asksFor strm blk then z.putCore c { z.core c with ibWanted := (z.core c).ibWanted ++ [blk] } else z) s := by
  refine congrArg (List.foldl · s (coresOf b)) (funext fun z => funext fun c => ?_)
  rw [Core.asksFor, Bool.and_right_comm]

section
variable {b strm blk line c : Nat} {l : List Nat} {s : State} (hwants : wantsBlock b strm blk s = c :: l)
  (hin : 32 * blk + 4 * line < (s.core c).streamLen) (hfirst : (s.bed b).lineAt ≠ s.cyc + 1)
include hin hfirst

/-- A line of the stream may return, where none has in this cycle. -/
theorem line_may_return : ¬((s.core c).streamLen ≤ 32 * blk + 4 * line ∨ (s.bed b).lineAt = s.cyc + 1) :=
  not_or.mpr ⟨Nat.not_le.mpr hin, hfirst⟩

include hwants

/-- A parity error drops the block (R390). -/
theorem ibReturn_parity : ibReturn b strm blk line true s = dropBlock b blk (c :: l) s := by
  simp only [ibReturn, hwants, List.head?_cons, if_neg (line_may_return hin hfirst), if_true]

/-- A line that has been asked for and is there enters every buffer that wants it. -/
theorem ibReturn_ok :
    let v := bsqVia b strm blk line (s.core c)
    ∀ d s1, v.getRange ((s.core c).streamVA + 1024 * blk + 128 * line) 128 s = (.ok d, s1) → asked v.src v.tag s ≠ [] →
    let s2 := v.done s1
    ibReturn b strm blk line false s = incF F.CORE_BSQ_REFILL_COUNT b 0 128
      ((c :: l).foldl (fun z x => takeLine x blk line d z) (s2.putBed b { s2.bed b with lineAt := s.cyc + 1 })) := by
  intro v d s1 hgot hasked
  have hagain : (asked v.src v.tag s).isEmpty = false := List.isEmpty_eq_false_iff.mpr hasked
  simp only [ibReturn, hwants, List.head?_cons, if_neg (line_may_return hin hfirst), Bool.false_eq_true, if_false]
  rw [hgot, hagain]
  rfl

/-- A line that is not there is asked for; with its first request the same line of the next block is read ahead (R130). -/
theorem ibReturn_wait :
    let v := bsqVia b strm blk line (s.core c)
    ∀ s1, v.getRange ((s.core c).streamVA + 1024 * blk + 128 * line) 128 s = (.wait, s1) →
    ibReturn b strm blk line false s =
      if asked v.src v.tag s = [] ∧ asked v.src v.tag s1 ≠ [] then prefetchNext b strm blk line (s.core c) s1 else s1 := by
  intro v s1 hgot
  simp only [ibReturn, hwants, List.head?_cons, if_neg (line_may_return hin hfirst), Bool.false_eq_true, if_false]
  rw [hgot]
  simp only [Bool.and_eq_true, Bool.not_eq_true', List.isEmpty_iff, List.isEmpty_eq_false_iff]
  rfl

end

/-! ## Completion -/

/-- A core that has ended and whose work has completed finishes; with its last core the bed is reported (R99). -/
theorem coreFinish_finishes {c : Nat} {s : State} (hactive : (s.core c).active = true) (hnew : (s.core c).finished = false)
    (hended : (s.core c).ended = true) (hwait : (s.core c).wait = .none) (hquiet : coreQuiet c s = true) :
    let k := s.core c
    let s1 := s.putCore c { k with finished := true, haltAt := if k.halted then k.haltAt else actOf c s }
    coreFinish c s = if (coresOf (bedOf c)).all (fun d => (s1.core d).finished || !(s1.core d).active)
      then reportIfDone k.part (s1.putBed (bedOf c) { s1.bed (bedOf c) with reported := true }) else s1 := by
  simp only [coreFinish, hactive, hnew, hended, hwait, hquiet, decide_true, Bool.not_false, Bool.and_self, if_true]

/-! ## Sync points -/

section
variable {b : Nat} {s : State}

theorem bedRelease_came
    (h : ((coresOf b).all fun c => (s.core c).arrived && decide ((s.core c).arrivedAt + 4 ≤ (s.bed b).act)) = true) :
    bedRelease b s = (coresOf b).foldl (fun z c => if atBedSync c z then passSync c z else z) s := by
  rw [bedRelease, if_pos h]

theorem bedRelease_early
    (h : ((coresOf b).all fun c => (s.core c).arrived && decide ((s.core c).arrivedAt + 4 ≤ (s.bed b).act)) = false) :
    bedRelease b s = s := by
  rw [bedRelease, if_neg (Bool.eq_false_iff.mp h)]

end

/-- A launch whose step is no quiesce point does nothing at its point. -/
theorem runPoint_of_not_quiesces {p : Nat} {l : Launch} {s : State} (hl : launchOf p s = some l) (h : l.quiesces = false) :
    runPoint p s = s := by
  have hnone : atPoint p l s = false := by simp [atPoint, h]
  simp [runPoint, hl, hnone]

/-- In free mode the step of a launch releases on a tick boundary, once every core has arrived, nothing holds its partition and every vote
has its reports (R95). -/
theorem freeRelease_releases {p : Nat} {l : Launch} {s : State} (hl : launchOf p s = some l) {lv : Launch → Nat → Bool}
    (hstarted : l.started = true) (hstop : l.stop = false) (hlocked : l.locked = false) (hgathered : stepGathered l s = true)
    (hpoint : l.quiesces = false) (hhold : (s.part p).hold = .none) (hvotes : votesIn p (l.step + 1) s = true) (htick : s.cyc % 64 = 0)
    (hwaits : l.coreList.any (fun c => (s.core c).atSync (lv l)) = true) :
    freeRelease p lv s = releaseStep p s.tick none (lv l) s := by
  simp only [freeRelease, hl, hstarted, hstop, hlocked, hwaits, hgathered, hpoint, runPoint_of_not_quiesces hl hpoint, hhold, hvotes,
    htick, Bool.not_true, Bool.or_self, Bool.false_and, Bool.false_eq_true, if_false, and_self, if_true]

/-! ## The end of a launch -/

theorem launchStop_sends {p : Nat} {l : Launch} {s : State} (hl : launchOf p s = some l) (hstop : l.stop = true)
    (hsent : l.stopSent = false) :
    launchStop p s = sendReport l.ring l.idx (Status.joinAll .completed l.statuses) l.detail l.step
      (l.bedList.foldl (fun z b => stopBed p b z) (putLaunch p { l with stopSent := true } s)) := by
  simp only [launchStop, hl, hstop, hsent, Bool.not_true, Bool.or_self, Bool.false_eq_true, if_false]

/-- The state in which every bed of a launch drains its merging buffer. -/
abbrev Launch.drainAll (l : Launch) (s : State) : State := l.bedList.foldl (fun z b => drainMerge b (fun _ => true) z) s

section
variable {p : Nat} {l : Launch} {s : State} {st : Status} (hl : launchOf p s = some l) (hst : committedTo l s = some st)
  (hhold : ((l.drainAll s).part p).hold ≠ .rolling) (hdrained : l.bedList.all (fun b => bedDrained p b (l.drainAll s)) = true)
  (hlocked : l.locked = false) (hsame : l.diverged = false)
include hl hst hhold hdrained hlocked hsame

/-- A committed launch whose beds have drained ends (R268). -/
theorem launchDrained_ends (hback : l.rollback = false) :
    launchDrained p s = releaseWaiters p (endLaunch p l st (l.drainAll s)) := by
  simp only [launchDrained, hl, hst, hhold, hdrained, hlocked, hsame, hback, decide_false, Bool.not_true, Bool.or_self, Bool.false_and,
    Bool.false_eq_true, if_false]

/-- One that rolls back begins to, unless an orderly reset waits (R374, R399). -/
theorem launchDrained_rolls (hback : l.rollback = true) (hreset : (l.drainAll s).mgt.resetTo = none) :
    launchDrained p s = (l.drainAll s).putPart p { (l.drainAll s).part p with hold := .rolling, saving := none } := by
  have hnone : (l.drainAll s).mgt.resetTo.isNone = true := Option.isNone_iff_eq_none.mpr hreset
  simp only [launchDrained, hl, hst, hhold, hdrained, hlocked, hsame, hback, hnone, decide_false, Bool.not_true, Bool.or_self,
    Bool.and_self, Bool.false_eq_true, if_false, if_true]

end

theorem launchStop_none {p : Nat} {s : State} (h : launchOf p s = none) : launchStop p s = s := by
  simp only [launchStop, h]

theorem launchDrained_none {p : Nat} {s : State} (h : launchOf p s = none) : launchDrained p s = s := by
  simp only [launchDrained, h]

/-- Settles O50: each command of a launch does its part once all that it waits for has come. -/
theorem launchesRun : Obligations.LaunchesRun := by
  intro s
  refine ⟨fun n idx d hdesc hkind hruns hst => ⟨fun hturn => next_congr (descLaunch_waits hdesc hkind hruns hst hturn),
      fun hturn => next_congr (descLaunch_checks hdesc hkind hruns hst hturn)⟩,
    fun b strm blk => next_congr (ibRefill_eq b strm blk s),
    fun b strm blk line c l hwants hin hfirst => ⟨next_congr (ibReturn_parity hwants hin hfirst),
      fun d s1 hgot hasked => next_congr (ibReturn_ok hwants hin hfirst d s1 hgot hasked),
      fun s1 hgot => next_congr (ibReturn_wait hwants hin hfirst s1 hgot)⟩,
    fun c hactive hnew hended hwait hquiet => next_congr (coreFinish_finishes hactive hnew hended hwait hquiet),
    fun b => ⟨fun hcame => next_congr (bedRelease_came hcame), fun hearly => next_congr (bedRelease_early hearly)⟩,
    fun p l hl => ⟨fun hstarted hstop hlocked hgathered hpoint hhold hvotes htick => ⟨fun hwaits => ?_, fun hgrove hwaits => ?_⟩,
      fun hstop hsent => next_congr (launchStop_sends hl hstop hsent),
      fun st hst hhold hdrained hlocked hsame => ⟨fun hback => next_congr (launchDrained_ends hl hst hhold hdrained hlocked hsame hback),
        fun hback hreset => next_congr (launchDrained_rolls hl hst hhold hdrained hlocked hsame hback hreset)⟩⟩,
    fun p h => ⟨next_congr (launchStop_none h), next_congr (launchDrained_none h)⟩⟩
  · exact next_congr (freeRelease_releases hl (lv := Launch.ownLevel) hstarted hstop hlocked hgathered hpoint hhold hvotes htick hwaits)
  · have hlevel : (fun v => l.grove && decide (1 ≤ v)) = fun v => decide (1 ≤ v) := by rw [hgrove]; rfl
    have hrelease := freeRelease_releases hl (lv := fun l v => l.grove && decide (1 ≤ v)) hstarted hstop hlocked hgathered hpoint hhold
      hvotes htick (by rw [hlevel]; exact hwaits)
    exact next_congr (hrelease.trans (by rw [hlevel]))

end Sys2Proof.Machine
end

section
/-!
PROOFS. Which commands run (R118, R295, R331, R334, R338, R437) (O3): ten commands check what they carry, and every other one runs in
every state.
-/

namespace Sys2Proof.Machine

/-! ## A meaning's own check is the command's well-formedness -/

theorem csrIn_wf (x : CsrIn) : x.wf = CsrInOk x := by cases x <;> rfl

theorem spadIn_wf (x : SpadIn) : x.wf = SpadInOk x := by cases x <;> rfl

theorem dmaF_wf (d : DmaF) : d.wf = DmaOk d := by
  unfold DmaF.wf DmaOk
  cases d.pa <;> rfl

/-! ## Running or stopping -/

/-- A command answers next where it is well formed, and stops with `illFormed` where it is not. -/
def RunsByForm (c : Instr) (s : State) : Prop :=
  (c.wf = true → ∃ t, exec c s = .next t) ∧ (c.wf = false → ∃ what, exec c s = .fault (.illFormed what))

theorem runsByForm_of_next {c : Instr} {s t : State} (hwf : c.wf = true) (hexec : exec c s = .next t) : RunsByForm c s :=
  ⟨fun _ => ⟨t, hexec⟩, fun hill => absurd (hwf.symm.trans hill) Bool.noConfusion⟩

theorem runsByForm_of_check {c : Instr} {s t : State} {p : Prop} [Decidable p] {what : String} (hwf : c.wf = decide p)
    (hexec : exec c s = if p then .next t else .fault (.illFormed what)) : RunsByForm c s := by
  constructor
  · intro h
    exact ⟨t, by rw [hexec, if_pos (of_decide_eq_true (hwf.symm.trans h))]⟩
  · intro h
    exact ⟨what, by rw [hexec, if_neg (of_decide_eq_false (hwf.symm.trans h))]⟩

theorem runsByForm_of_ok {c : Instr} {s t : State} {ok : Bool} {what : String} (hwf : c.wf = ok)
    (hexec : exec c s = if ok then .next t else .fault (.illFormed what)) : RunsByForm c s :=
  runsByForm_of_check (hwf.trans Bool.decide_eq_true.symm) hexec

/-- Settles O3: by the ten commands with a check of their own, and the meaning of every other one. -/
theorem everyCommandRuns : Obligations.EveryCommandRuns := by
  intro c s
  change RunsByForm c s
  cases c with
  | registerWrite x => exact runsByForm_of_ok (csrIn_wf x) rfl
  | registerReadClear x => exact runsByForm_of_ok (csrIn_wf x) rfl
  | spadOutsideAccess _ x => exact runsByForm_of_ok (spadIn_wf x) rfl
  | msgRead _ h => exact runsByForm_of_ok (ok := MsgOk h) rfl rfl
  | msgWrite _ h _ => exact runsByForm_of_ok (ok := MsgOk h) rfl rfl
  | msgAtomic _ h _ _ _ => exact runsByForm_of_ok (ok := MsgOk h) rfl rfl
  | opsanAccess o => exact runsByForm_of_ok (ok := lineOk o.pa.toNat o.len) rfl rfl
  | pcieDma d => exact runsByForm_of_ok (dmaF_wf d) rfl
  | guestRequest g => exact runsByForm_of_ok (ok := lineOk g.va.toNat g.len) rfl rfl
  | recoveryWrite _ n _ => exact runsByForm_of_check rfl rfl
  | _ => exact runsByForm_of_next rfl rfl

end Sys2Proof.Machine
end

section
/-!
PROOFS. A set of a bed cache (R126, R129) (O34): the line installed in it is the one found there, and its replacement tree points away from
the way just used.
-/

namespace Sys2Proof.Machine

/-! ## Lists of entries by key -/

theorem find?_lput_new {α : Type} {p : Nat × α → Bool} {l : List (Nat × α)} (hnone : l.find? p = none) {k : Nat} {v : α}
    (hv : p (k, v) = true) : (lput l k v).find? p = some (k, v) := by
  induction l with
  | nil => exact List.find?_cons_of_pos hv
  | cons e t ih =>
    obtain ⟨hhead, htail⟩ : ¬p e = true ∧ t.find? p = none := by simpa using hnone
    unfold lput
    split
    · exact List.find?_cons_of_pos hv
    · exact (List.find?_cons_of_neg hhead).trans (ih htail)

/-! ## Installing a line -/

theorem set_putSet {k : Bed} (h : swf CacheSet.empty k.cache) (n m : Nat) (c : CacheSet) :
    (k.putSet n c).set m = if m = n then c else k.set m := sget_sput _ _ _ _ _ h

theorem find_install {k : Bed} {l : Line} (h : swf CacheSet.empty k.cache) (hnew : (k.set (setOf l.line)).find l.line = none) :
    ((k.install l).1.set (setOf l.line)).find l.line = some ((k.set (setOf l.line)).wayFor, l) := by
  rw [Bed.install, set_putSet h, if_pos rfl]
  exact find?_lput_new hnew (decide_eq_true rfl)

theorem set_install_ne {k : Bed} {l : Line} (h : swf CacheSet.empty k.cache) {n : Nat} (hn : n ≠ setOf l.line) :
    (k.install l).1.set n = k.set n := by
  rw [Bed.install, set_putSet h, if_neg hn]

/-- The way for a line is an invalid one while there is one. -/
theorem look_wayFor {c : CacheSet} (h : ((List.range 16).all fun w => (look c.ways w).isSome) = false) : look c.ways c.wayFor = none := by
  unfold CacheSet.wayFor
  split
  · next w hfree => simpa using List.find?_some hfree
  · next hfull =>
    obtain ⟨w, hw, hfree⟩ := List.all_eq_false.mp h
    exact absurd (List.find?_eq_none.mp hfull w hw) (by simpa using hfree)

/-! ## The replacement tree -/

/-- A tree with the bit of node `n` set to `v`. -/
def plruPut (p n : Nat) (v : Bool) : Nat := if v then p ||| 2 ^ n else (p ||| 2 ^ n) ^^^ 2 ^ n

theorem testBit_plruPut_same (p n : Nat) (v : Bool) : (plruPut p n v).testBit n = v := by
  cases v <;> simp [plruPut, Nat.testBit_two_pow_self]

theorem testBit_plruPut_ne (p : Nat) {n m : Nat} (h : m ≠ n) (v : Bool) : (plruPut p n v).testBit m = p.testBit m := by
  cases v <;> simp [plruPut, Nat.testBit_two_pow_of_ne (Ne.symm h)]

theorem plruPut_lt {p n k : Nat} (hp : p < 2 ^ k) (hn : n < k) (v : Bool) : plruPut p n v < 2 ^ k := by
  have hbit : 2 ^ n < 2 ^ k := Nat.pow_lt_pow_right (by decide) hn
  have hor : p ||| 2 ^ n < 2 ^ k := Nat.or_lt_two_pow hp hbit
  cases v
  · exact Nat.xor_lt_two_pow hor hbit
  · exact hor

/-- The child of node `n` that a bit names. -/
def plruChild (n : Nat) (v : Bool) : Nat := 2 * n + 1 + v.toNat

theorem plruChild_bounds (n : Nat) (v : Bool) : 2 * n + 1 ≤ plruChild n v ∧ plruChild n v ≤ 2 * n + 2 := by
  have hv := v.toNat_le
  unfold plruChild
  omega

theorem plruVictim_eq (p : Nat) : plruVictim p =
    let n1 := 1 + (p.testBit 0).toNat
    let n2 := plruChild n1 (p.testBit n1)
    let n3 := plruChild n2 (p.testBit n2)
    2 * (n3 - 7) + (p.testBit n3).toNat := by
  simp only [plruVictim, plruChild, Bool.toNat, Bool.cond_eq_ite]

theorem plruTouch_eq (p w : Nat) : plruTouch p w =
    let n1 := 1 + (w.testBit 3).toNat
    let n2 := plruChild n1 (w.testBit 2)
    let n3 := plruChild n2 (w.testBit 1)
    plruPut (plruPut (plruPut (plruPut p 0 (!w.testBit 3)) n1 (!w.testBit 2)) n2 (!w.testBit 1)) n3 (!w.testBit 0) := by
  simp only [plruTouch, plruPut, plruChild, Bool.toNat, Bool.cond_eq_ite]

theorem plruVictim_lt (p : Nat) : plruVictim p < 16 := by
  rw [plruVictim_eq]
  extract_lets n1 n2 n3
  have hroot := (p.testBit 0).toNat_le
  have hn2 := plruChild_bounds n1 (p.testBit n1)
  have hn3 := plruChild_bounds n2 (p.testBit n2)
  have hleaf := (p.testBit n3).toNat_le
  omega

/-- The root of the tree chooses between the lower and the upper eight ways. -/
theorem eight_le_plruVictim_iff (p : Nat) : 8 ≤ plruVictim p ↔ p.testBit 0 = true := by
  rw [plruVictim_eq]
  extract_lets n1 n2 n3
  have hn2 := plruChild_bounds n1 (p.testBit n1)
  have hn3 := plruChild_bounds n2 (p.testBit n2)
  have hleaf := (p.testBit n3).toNat_le
  cases hroot : p.testBit 0
  · have hn1 : n1 = 1 := by simp [n1, hroot]
    simp only [Bool.false_eq_true, iff_false]
    omega
  · have hn1 : n1 = 2 := by simp [n1, hroot]
    simp only [iff_true]
    omega

theorem eight_le_iff_testBit {w : Nat} (h : w < 16) : 8 ≤ w ↔ w.testBit 3 = true := by
  decide +revert

theorem testBit_zero_plruTouch (p w : Nat) : (plruTouch p w).testBit 0 = !w.testBit 3 := by
  rw [plruTouch_eq]
  extract_lets n1 n2 n3
  have hn2 := plruChild_bounds n1 (w.testBit 2)
  have hn3 := plruChild_bounds n2 (w.testBit 1)
  rw [testBit_plruPut_ne _ (by omega), testBit_plruPut_ne _ (by omega), testBit_plruPut_ne _ (by omega), testBit_plruPut_same]

theorem plruTouch_lt {p : Nat} (h : p < 2 ^ 15) (w : Nat) : plruTouch p w < 2 ^ 15 := by
  rw [plruTouch_eq]
  extract_lets n1 n2 n3
  have hroot := (w.testBit 3).toNat_le
  have hn2 := plruChild_bounds n1 (w.testBit 2)
  have hn3 := plruChild_bounds n2 (w.testBit 1)
  exact plruPut_lt (plruPut_lt (plruPut_lt (plruPut_lt h (by omega) _) (by omega) _) (by omega) _) (by omega) _

/-- The tree's root, which a use of a way turns from that way's half, keeps the next victim out of that half. -/
theorem plruVictim_plruTouch_ne (p : Nat) {w : Nat} (h : w < 16) : plruVictim (plruTouch p w) ≠ w := by
  intro heq
  have hhalf := eight_le_plruVictim_iff (plruTouch p w)
  rw [heq, eight_le_iff_testBit h, testBit_zero_plruTouch] at hhalf
  cases hw : w.testBit 3 <;> simp [hw] at hhalf

/-- Settles O34: by what an installation leaves of its set, and by the root of the replacement tree. -/
theorem cacheHoldsWhatItHit : Obligations.CacheHoldsWhatItHit := by
  refine ⟨fun k l hcache hnew => ⟨?_, fun n hn => set_install_ne hcache hn, look_wayFor⟩,
    fun p w hp hw => ⟨plruVictim_plruTouch_ne p hw, plruVictim_lt _, plruTouch_lt hp w⟩⟩
  rw [find_install hcache hnew, Option.map_some]

end Sys2Proof.Machine
end

section
/-!
PROOFS. A bed cache and its merging buffer (R125 to R133, R149, R168) (O33): what a lookup, a prefetch and a returned fill come to, and
how a write enters the buffer and is acknowledged.
-/

namespace Sys2Proof.Machine

/-! ## Lookups and prefetches (R125, R127, R130) -/

section
variable {b id line : Nat} {src : Src} {pol : Policy} {s : State}

theorem bedcLookup_elsewhere (h : isDram (line * 128) = false) : bedcLookup b id line src pol s = s := by
  simp only [bedcLookup, h, Bool.not_false, if_true]

variable (hdram : isDram (line * 128) = true)
include hdram

theorem bedcLookup_hit {d : BitVec 1024} {t : State} (hhit : (if pol = .uncached then none else cacheHit b line s) = some (d, t)) :
    bedcLookup b id line src pol s = deliverLine .ok ((s.bed b).merged line d) t id := by
  simp only [bedcLookup, hdram, hhit, Bool.not_true, Bool.false_eq_true, if_false]

variable (hmiss : (if pol = .uncached then none else cacheHit b line s) = none)
include hmiss

theorem bedcLookup_joins {f : Fill} (hfly : (if pol = .uncached then none else (s.bed b).joinable line) = some f) :
    bedcLookup b id line src pol s = s.putBed b { s.bed b with
      fills := (s.bed b).fills.map fun x => if x.id = f.id then { x with waiters := x.waiters ++ [id] } else x } := by
  simp only [bedcLookup, hdram, hmiss, hfly, Bool.not_true, Bool.false_eq_true, if_false]

theorem bedcLookup_misses (hfly : (if pol = .uncached then none else (s.bed b).joinable line) = none) :
    bedcLookup b id line src pol s =
      if (s.bed b).fills.length < 4096 then sendFill b line pol false src [id] s else s := by
  simp only [bedcLookup, hdram, hmiss, hfly, Bool.not_true, Bool.false_eq_true, if_false]

end

/-- Whether a prefetch sends a fill (R130, log entry 97). -/
def prefetchTakes (b line : Nat) (pol : Policy) (s : State) : Bool :=
  isDram (line * 128) && decide (pol ≠ .uncached) && !(s.bed b).holds line && !(s.bed b).fills.any (fun f => decide (f.line = line)) &&
    ((s.bed b).writesOf line).isEmpty && bitF F.BEDC_CTRL_PF_EN b 0 s && decide ((s.bed b).fills.length < 4096)

theorem bedcPrefetch_eq (b line : Nat) (src : Src) (pol : Policy) (s : State) :
    bedcPrefetch b line src pol s = if prefetchTakes b line pol s then sendFill b line pol true src [] s else s := by
  have hdrop : (!isDram (line * 128) || decide (pol = .uncached) || (s.bed b).holds line ||
      (s.bed b).fills.any (fun f => decide (f.line = line)) || !((s.bed b).writesOf line).isEmpty || !bitF F.BEDC_CTRL_PF_EN b 0 s ||
      decide (4096 ≤ (s.bed b).fills.length)) = !prefetchTakes b line pol s := by
    simp only [prefetchTakes, Bool.not_and, Bool.not_not, ← decide_not, Decidable.not_not, Nat.not_lt, ne_eq]
  simp only [bedcPrefetch, hdrop]
  cases prefetchTakes b line pol s <;> rfl

/-! ## Returned fills (R128, R130) -/

/-- What a returned fill leaves, by cases of the fill and of what the bed holds. -/
theorem landFill_eq (b : Nat) (f : Fill) (d : BitVec 1024) (s : State) :
    let l : Line := ⟨f.line, decide (f.pol = .shared), d⟩
    landFill b f d s =
      if f.install = false ∨ (s.bed b).holds f.line = true then s
      else if f.prefetch = true ∧ f.waiters = [] then sidePush b l s
      else if f.prefetch then incF F.BEDC_PF_HIT_COUNT b 0 1 (installLine b l s)
      else installLine b l s := by
  simp only [landFill, Bool.or_eq_true, Bool.not_eq_true', Bool.and_eq_true, List.isEmpty_iff]

/-- A returned fill that failed leaves nothing in the bed (R128). -/
theorem landAnswer_eq (b : Nat) (f : Fill) (d : BitVec 1024) (st : Status) (s : State) :
    let l : Line := ⟨f.line, decide (f.pol = .shared), d⟩
    (if st = .ok then landFill b f d s else s) =
      if st ≠ .ok ∨ f.install = false ∨ (s.bed b).holds f.line = true then s
      else if f.prefetch = true ∧ f.waiters = [] then sidePush b l s
      else if f.prefetch then incF F.BEDC_PF_HIT_COUNT b 0 1 (installLine b l s)
      else installLine b l s := by
  intro l
  by_cases hok : st = .ok
  · simp only [landFill_eq, hok, if_true, ne_eq, not_true_eq_false, false_or, l]
  · rw [if_neg hok, if_pos (.inl hok)]

section
variable {b id : Nat} {s : State}

theorem fillReturn_unasked (h : netGet id s = none) : fillReturn b id s = s := by
  simp only [fillReturn, h]
  split <;> rfl

variable {f : Fill} {r : Req} (hfill : ((s.bed b).fills.find? fun x => decide (x.id = id)) = some f) (hreq : netGet id s = some r)
include hfill hreq

theorem fillReturn_early (h : r.st ≠ .answered) : fillReturn b id s = s := by
  simp only [fillReturn, hfill, hreq, if_pos h]

theorem fillReturn_answered (h : r.st = .answered) :
    fillReturn b id s =
      let s1 := netDel id (s.putBed b { s.bed b with fills := (s.bed b).fills.filter fun x => decide (x.id ≠ id) })
      let d := overlay f.pmask f.pdata r.rdata
      let s2 := f.waiters.foldl (deliverLine r.status (if r.status = .ok then d else 0)) s1
      if r.status = .ok then landFill b f d s2 else s2 := by
  simp only [fillReturn, hfill, hreq, h, ne_eq, not_true_eq_false, if_false]

end

/-! ## Writes into the merging buffer (R132, R133) -/

/-- The entry of the buffer that a write merges into, where merging is enabled for it (R132). -/
def mergesInto (b : Nat) (w : BedWrite) (s : State) : Option Nat :=
  let line := w.pa.toNat / 128
  if bitF F.BEDC_CTRL_MERGE_EN b 0 s && decide (w.pol ≠ .uncached) then mergeTarget (s.bed b).merge line (mergeDest line s) else none

/-- An entry with a write merged into it (R132). -/
def Merge.absorb (e : Merge) (w : BedWrite) (cyc : Nat) : Merge :=
  { e with mask := e.mask ||| w.mask, data := overlay w.mask w.data e.data, touched := cyc,
           owners := if e.owners.contains w.owner then e.owners else e.owners ++ [w.owner] }

theorem mergeEnter_merges {b i : Nat} {w : BedWrite} {s : State} (h : mergesInto b w s = some i) :
    mergeEnter b w s = incF F.BEDC_MERGED_COUNT b 0 1 (s.putBed b { s.bed b with
      merge := (s.bed b).merge.map fun e => if e.id = i then e.absorb w s.cyc else e }) := by
  simp only [mergesInto] at h
  simp only [mergeEnter, h]
  rfl

theorem mergeEnter_enters {b : Nat} {w : BedWrite} {s : State} (h : mergesInto b w s = none) :
    mergeEnter b w s = drainHigh b (s.takeId.2.putBed b { s.bed b with merge := (s.bed b).merge ++
      [⟨s.takeId.1, w.pa.toNat / 128, w.mask, w.data, mergeDest (w.pa.toNat / 128) s, decide (w.pol = .uncached), s.cyc, false, w.part,
        [w.owner]⟩] }) := by
  simp only [mergesInto] at h
  simp only [mergeEnter, h]

/-- The state in which a write has updated the copies of its line that its bed holds (R132). -/
def patched (b : Nat) (w : BedWrite) (s : State) : State := s.putBed b ((s.bed b).patch (w.pa.toNat / 128) w.mask w.data)

theorem isSome_mergesInto (b : Nat) (w : BedWrite) (s : State) : (mergesInto b w s).isSome =
    (bitF F.BEDC_CTRL_MERGE_EN b 0 s && decide (w.pol ≠ .uncached) &&
      (mergeTarget (s.bed b).merge (w.pa.toNat / 128) (mergeDest (w.pa.toNat / 128) s)).isSome) := by
  unfold mergesInto
  cases bitF F.BEDC_CTRL_MERGE_EN b 0 s && decide (w.pol ≠ .uncached) <;> rfl

theorem mergeWrite_eq (b : Nat) (w : BedWrite) (s : State) :
    let z := patched b w s
    mergeWrite b w s =
      if (z.bed b).mergeWait = [] ∧ ((z.bed b).merge.length < 32 ∨ (mergesInto b w z).isSome = true) then mergeEnter b w z
      else z.putBed b { z.bed b with mergeWait := (z.bed b).mergeWait ++ [w] } := by
  intro z
  simp only [mergeWrite, isSome_mergesInto, Bool.and_eq_true, Bool.or_eq_true, List.isEmpty_iff, decide_eq_true_eq]
  rfl

section
variable {b : Nat} {w : BedWrite} {s : State}

theorem mergeWrite_waits
    (h : ((patched b w s).bed b).mergeWait ≠ [] ∨
      (mergesInto b w (patched b w s) = none ∧ 32 ≤ ((patched b w s).bed b).merge.length)) :
    mergeWrite b w s = (patched b w s).putBed b { (patched b w s).bed b with
      mergeWait := ((patched b w s).bed b).mergeWait ++ [w] } := by
  refine (mergeWrite_eq b w s).trans (if_neg ?_)
  rintro ⟨hempty, hroom | hinto⟩
  · obtain hwaits | ⟨-, hfull⟩ := h
    · exact hwaits hempty
    · omega
  · obtain hwaits | ⟨hnone, -⟩ := h
    · exact hwaits hempty
    · simp [hnone] at hinto

theorem mergeWrite_fits (hempty : ((patched b w s).bed b).mergeWait = [])
    (hfits : ((patched b w s).bed b).merge.length < 32 ∨ (mergesInto b w (patched b w s)).isSome = true) :
    mergeWrite b w s = mergeEnter b w (patched b w s) :=
  (mergeWrite_eq b w s).trans (if_pos ⟨hempty, hfits⟩)

end

/-! ## Acknowledged entries (R133, R168) -/

section
variable {b id : Nat} {s : State}

theorem mergeAck_unasked (h : netGet id s = none) : mergeAck b id s = s := by
  simp only [mergeAck, h]

variable {r : Req} {e : Merge} (hreq : netGet id s = some r)
  (hentry : ((s.bed b).merge.find? fun x => decide (x.id = id) && x.sent) = some e)
include hreq hentry

theorem mergeAck_early (h : r.st ≠ .answered) : mergeAck b id s = s := by
  simp only [mergeAck, hreq, hentry, if_pos h]

theorem mergeAck_answered (h : r.st = .answered) :
    mergeAck b id s = mergeNext b (e.owners.foldl (ackOwner b e.part.val r.status)
      (netDel id (s.putBed b { s.bed b with merge := (s.bed b).merge.filter fun x => decide (x.id ≠ id) }))) := by
  simp only [mergeAck, hreq, hentry, h, ne_eq, not_true_eq_false, if_false]

end

/-- Settles O33: each command by the cases of what it finds in the bed. -/
theorem bedCacheAndMerging : Obligations.BedCacheAndMerging := by
  intro b pa pol s k line dram
  refine ⟨fun id bsq => ⟨fun h => next_congr (bedcLookup_elsewhere h), fun d t hdram hhit => next_congr (bedcLookup_hit hdram hhit),
      fun f hdram hmiss hfly => next_congr (bedcLookup_joins hdram hmiss hfly),
      fun hdram hmiss hfly => ⟨fun hroom => ?_, fun hfull => ?_⟩⟩,
    next_congr (bedcPrefetch_eq b line (.brw b) pol s),
    fun id f r hfill hreq => ⟨fun h => next_congr (fillReturn_early hfill hreq h), fun h => ?_⟩,
    fun w => ⟨fun h => next_congr (mergeWrite_waits h),
      fun i hempty hinto => next_congr ((mergeWrite_fits hempty (.inr (Option.isSome_of_eq_some hinto))).trans (mergeEnter_merges hinto)),
      fun hempty hinto hroom => next_congr ((mergeWrite_fits hempty (.inl hroom)).trans (mergeEnter_enters hinto))⟩,
    rfl, rfl,
    fun id r e hreq hentry => ⟨fun h => next_congr (mergeAck_early hreq hentry h),
      fun h => next_congr (mergeAck_answered hreq hentry h)⟩,
    fun id h => ⟨next_congr (fillReturn_unasked h), next_congr (mergeAck_unasked h)⟩⟩
  · exact next_congr ((bedcLookup_misses hdram hmiss hfly).trans (if_pos hroom))
  · exact next_congr ((bedcLookup_misses hdram hmiss hfly).trans (if_neg (Nat.not_lt.mpr hfull)))
  · exact next_congr ((fillReturn_answered hfill hreq h).trans (landAnswer_eq b f _ r.status _))

end Sys2Proof.Machine
end

section
/-!
PROOFS. Flash invalidation of a bed cache (R134, R140) (O35).
-/

namespace Sys2Proof.Machine

/-- A canonical map with a function applied to its entries, where the function leaves what an unlisted key reads as. -/
theorem sget_smap {α : Type} [DecidableEq α] {d : α} {f : Nat → α → α} (hd : ∀ k, f k d = d) {l : List (Nat × α)} (h : swf d l)
    (k : Nat) : sget d (smap d f l) k = f k (sget d l k) := by
  unfold swf at h
  generalize (none : Option Nat) = b at h
  induction l generalizing b with
  | nil => exact (hd k).symm
  | cons e t ih =>
    obtain ⟨i, v⟩ := e
    have ht : swfFrom d (some i) t := by simp_all [swfFrom]
    have hrest := ih (some i) ht
    by_cases hki : i = k
    · subst hki
      simp only [smap, sget, if_true]
      split
      · next hdrop => rw [hrest, sget_low d t i i ht (Nat.le_refl i), hd, hdrop]
      · rw [sget, if_pos rfl]
    · simp only [smap, sget, if_neg hki]
      split
      · exact hrest
      · rw [sget, if_neg hki, hrest]

theorem drop_empty (p : Line → Bool) : CacheSet.empty.drop p = CacheSet.empty := rfl

/-- A bed without the SHARED lines, in which no SHARED fill in flight will be installed (R134). -/
def Bed.dropShared (k : Bed) : Bed :=
  { k with
    cache := smap CacheSet.empty (fun _ c => c.drop (·.shared)) k.cache,
    side := k.side.filter fun l => !l.shared, victim := k.victim.filter fun l => !l.shared,
    fills := k.fills.map fun f => if f.pol = .shared then { f with install := false } else f }

theorem invShared_eq (b : Nat) (s : State) : invShared b s = incF F.BEDC_FLASH_INV_COUNT b 0 1 (s.putBed b (s.bed b).dropShared) := rfl

theorem ways_dropShared {k : Bed} (h : swf CacheSet.empty k.cache) (n : Nat) :
    (k.dropShared.set n).ways = (k.set n).ways.filter fun w => !w.2.shared :=
  congrArg CacheSet.ways (sget_smap (fun _ => drop_empty _) h n)

theorem install_dropShared {k : Bed} {f : Fill} (hf : f ∈ k.dropShared.fills) (hpol : f.pol = .shared) : f.install = false := by
  obtain ⟨g, -, rfl⟩ := List.mem_map.mp hf
  by_cases hg : g.pol = .shared
  · rw [if_pos hg]
  · rw [if_neg hg] at hpol
    exact absurd hpol hg

theorem bed_invShared {s : State} (hs : Sound s) (b d : Nat) :
    (invShared b s).bed d = if d = b then (s.bed b).dropShared else s.bed d := by
  rw [invShared_eq]
  exact bed_putBed s b d _ hs.beds

theorem getF_invShared {s : State} (hs : Sound s) (b : Nat) : getF F.BEDC_FLASH_INV_COUNT b 0 (invShared b s) =
    min (getF F.BEDC_FLASH_INV_COUNT b 0 s + 1) (2 ^ F.BEDC_FLASH_INV_COUNT.w - 1) := by
  rw [invShared_eq]
  exact getF_incF (by decide) b 0 1 (s.putBed b (s.bed b).dropShared) hs.regs

/-- Settles O35: the bed is left without its SHARED lines, and its counter counts one. -/
theorem flashInvalidation : Obligations.FlashInvalidation := by
  intro b s hs k
  have hbed : (invShared b s).bed b = k.dropShared := (bed_invShared hs b b).trans (if_pos rfl)
  refine ⟨⟨invShared b s, rfl, ?_, ?_, ?_, ?_, ?_, getF_invShared hs b,
    fun d hd => (bed_invShared hs b d).trans (if_neg hd), rfl⟩, rfl⟩
  all_goals rw [hbed]
  · exact fun hcache => ways_dropShared hcache
  · rfl
  · rfl
  · rfl
  · exact fun f => install_dropShared

end Sys2Proof.Machine
end

section
/-!
PROOFS. The order of held adds (R165): sorting them (O27).
-/

namespace Sys2Proof.Machine

/-- The order of R165, written out: key, package, die slot and bed, compared from the left. -/
theorem OAdd.before_iff (a b : OAdd) : a.before b = true ↔ a.key.toNat < b.key.toNat ∨ a.key.toNat = b.key.toNat ∧
    (a.pkg < b.pkg ∨ a.pkg = b.pkg ∧ (a.slot < b.slot ∨ a.slot = b.slot ∧ a.bed ≤ b.bed)) := by
  simp only [OAdd.before, Bool.or_eq_true, Bool.and_eq_true, decide_eq_true_eq]

theorem OAdd.before_trans {a b c : OAdd} (hab : a.before b = true) (hbc : b.before c = true) : a.before c = true := by
  rw [OAdd.before_iff] at *
  omega

theorem OAdd.before_of_not {a b : OAdd} (h : ¬b.before a = true) : a.before b = true := by
  rw [OAdd.before_iff] at *
  omega

/-- What the order compares of a held add. -/
def OAdd.place (a : OAdd) : BitVec 16 × Nat × Nat × Nat := (a.key, a.pkg, a.slot, a.bed)

theorem OAdd.before_of_place_eq {a b : OAdd} (h : a.place = b.place) : a.before b = true := by
  simp only [OAdd.place, Prod.mk.injEq] at h
  obtain ⟨hkey, hpkg, hslot, hbed⟩ := h
  rw [OAdd.before_iff, hkey, hpkg, hslot, hbed]
  omega

theorem OAdd.place_eq_of_before {a b : OAdd} (hab : a.before b = true) (hba : b.before a = true) : a.place = b.place := by
  rw [OAdd.before_iff] at hab hba
  have hkey : a.key = b.key := BitVec.eq_of_toNat_eq (by omega)
  simp only [OAdd.place, Prod.mk.injEq]
  exact ⟨hkey, by omega, by omega, by omega⟩

theorem perm_insAdd (a : OAdd) (l : List OAdd) : (insAdd a l).Perm (a :: l) := by
  induction l with
  | nil => exact .refl _
  | cons b t ih =>
    rw [insAdd]
    split
    · exact (ih.cons b).trans (.swap a b t)
    · exact .refl _

/-- Held adds in ascending order. -/
abbrev AddsAscend (l : List OAdd) : Prop := l.Pairwise fun a b => a.before b = true

theorem AddsAscend.insAdd {l : List OAdd} (a : OAdd) (h : AddsAscend l) : AddsAscend (insAdd a l) := by
  induction l with
  | nil => exact List.pairwise_singleton _ a
  | cons b t ih =>
    obtain ⟨hb, ht⟩ := List.pairwise_cons.mp h
    rw [Machine.insAdd]
    split
    · next hba =>
      refine List.pairwise_cons.mpr ⟨fun c hc => ?_, ih ht⟩
      rcases List.mem_cons.mp ((perm_insAdd a t).mem_iff.mp hc) with rfl | hct
      · exact hba
      · exact hb c hct
    · next hba =>
      have hab : a.before b = true := OAdd.before_of_not hba
      refine List.pairwise_cons.mpr ⟨fun c hc => ?_, h⟩
      rcases List.mem_cons.mp hc with rfl | hct
      · exact hab
      · exact OAdd.before_trans hab (hb c hct)

/-- An add goes in behind those that compare equal to it: of any adds that all compare equal, it becomes the last. -/
theorem filter_insAdd {p : OAdd → Bool} (hp : ∀ x y, p x = true → p y = true → x.before y = true) {l : List OAdd} (a : OAdd)
    (h : AddsAscend l) : (insAdd a l).filter p = l.filter p ++ [a].filter p := by
  induction l with
  | nil => rfl
  | cons b t ih =>
    obtain ⟨hb, ht⟩ := List.pairwise_cons.mp h
    rw [insAdd]
    split
    · rw [List.filter_cons, List.filter_cons, ih ht]
      split <;> rfl
    · next hba =>
      rw [List.filter_cons]
      split
      · next ha =>
        have hlater : (b :: t).filter p = [] := by
          refine List.filter_eq_nil_iff.mpr fun c hc hpc => ?_
          refine hba ?_
          rcases List.mem_cons.mp hc with rfl | hct
          · exact hp _ a hpc ha
          · exact OAdd.before_trans (hb c hct) (hp c a hpc ha)
        rw [hlater, List.filter_cons_of_pos ha]
        rfl
      · next ha => rw [List.filter_cons_of_neg ha, List.filter_nil, List.append_nil]

/-- Adds inserted one by one into a list in order. -/
theorem foldl_insAdd (l : List OAdd) {z : List OAdd} (h : AddsAscend z) :
    (l.foldl (fun z a => insAdd a z) z).Perm (z ++ l) ∧ AddsAscend (l.foldl (fun z a => insAdd a z) z) := by
  induction l generalizing z with
  | nil => exact ⟨by simp, h⟩
  | cons a t ih =>
    obtain ⟨hperm, hsort⟩ := ih (h.insAdd a)
    exact ⟨hperm.trans (((perm_insAdd a z).append_right t).trans List.perm_middle.symm), hsort⟩

theorem filter_foldl_insAdd {p : OAdd → Bool} (hp : ∀ x y, p x = true → p y = true → x.before y = true) (l : List OAdd)
    {z : List OAdd} (h : AddsAscend z) : (l.foldl (fun z a => insAdd a z) z).filter p = z.filter p ++ l.filter p := by
  induction l generalizing z with
  | nil => simp
  | cons a t ih =>
    rw [List.foldl_cons, ih (h.insAdd a), filter_insAdd hp a h, List.append_assoc, ← List.filter_append, List.singleton_append]

theorem perm_sortAdds (l : List OAdd) : (sortAdds l).Perm l := (foldl_insAdd l .nil).1

theorem addsAscend_sortAdds (l : List OAdd) : AddsAscend (sortAdds l) := (foldl_insAdd l .nil).2

theorem filter_sortAdds {p : OAdd → Bool} (hp : ∀ x y, p x = true → p y = true → x.before y = true) (l : List OAdd) :
    (sortAdds l).filter p = l.filter p := filter_foldl_insAdd hp l .nil

/-- Settles O27: adds go in one by one behind those that compare equal; two lists in order with the same adds, no two of which compare
equal, are the same. -/
theorem orderedAddsSorted : Obligations.OrderedAddsSorted := by
  refine ⟨fun l => ⟨perm_sortAdds l, addsAscend_sortAdds l, fun k n d b => filter_sortAdds (fun x y hx hy => ?_) l⟩,
    fun l m hlm hdiffer => ?_⟩
  · exact OAdd.before_of_place_eq ((of_decide_eq_true hx).trans (of_decide_eq_true hy).symm)
  · have hperm : (sortAdds l).Perm (sortAdds m) := (perm_sortAdds l).trans (hlm.trans (perm_sortAdds m).symm)
    refine hperm.eq_of_pairwise (fun a b ha hb hab hba => ?_) (addsAscend_sortAdds l) (addsAscend_sortAdds m)
    have hal : a ∈ l := (perm_sortAdds l).mem_iff.mp ha
    have hbl : b ∈ l := hlm.mem_iff.mpr ((perm_sortAdds m).mem_iff.mp hb)
    exact hdiffer a hal b hbl (OAdd.place_eq_of_before hab hba)

end Sys2Proof.Machine
end

section
/-!
PROOFS. Atomics that reach their controller (R161, R185, R186, R332), and the adds that it holds for their step (R164 to R167) (O26).
-/

namespace Sys2Proof.Machine

/-! ## A request at its controller -/

theorem atHome_gone {r : Req} {s : State} (h : homeOf r.pa s = none) : atHome r s = complete r .dieAbsent 0 s := by
  rw [atHome, h]

theorem atHome_refused {r : Req} {h : Home} {st : Status} {s : State} (hh : homeOf r.pa s = some h)
    (hb : homeBadFor r.src r.who h s = some st) : atHome r s = complete r st 0 s := by
  rw [atHome, hh]
  simp only [hb]

/-- A request that is not held for its step is admitted, or waits for its regulator. -/
theorem atHome_regulated {r : Req} {h : Home} {s : State} (hh : homeOf r.pa s = some h) (hb : homeBadFor r.src r.who h s = none)
    (ho : isOrdered r s = false) :
    atHome r s = if admits r h.stack s then admitted r h s else netPut { r with st := .waiting, regMark := true } s := by
  have hf : (r.atom.filter fun _ => isOrdered r s) = none := by simp [ho]
  rw [atHome, hh]
  simp only [hb, hf]

theorem atHome_ordered {r : Req} {a : Atom} {h : Home} {s : State} (hh : homeOf r.pa s = some h)
    (hb : homeBadFor r.src r.who h s = none) (ha : r.atom = some a) (ho : isOrdered r s = true) : atHome r s = oaddEnter r a h s := by
  have hf : (r.atom.filter fun _ => isOrdered r s) = some a := by simp [ho, ha]
  rw [atHome, hh]
  simp only [hb, hf]

theorem admitted_snooping {r : Req} {h : Home} {s : State} (hsrc : srcHost r.src = false)
    (hm : mustSnoop r h (spend r h.stack s) = true) :
    admitted r h s = netPut { r with st := .snooping }
      (incF F.D2D_CXL_SNOOP_COUNT 0 0 (snooped r h (spend r h.stack s)).length (spend r h.stack s)) :=
  if_pos (by rw [hsrc, hm]; rfl)

theorem admitted_accepted {r : Req} {h : Home} {s : State}
    (hm : srcHost r.src = true ∨ mustSnoop r h (spend r h.stack s) = false) :
    admitted r h s = accept r h (spend r h.stack s) := by
  refine if_neg ?_
  rcases hm with hm | hm <;> simp [hm]

theorem accept_atomic {r : Req} {a : Atom} (ha : r.atom = some a) (h : Home) (s : State) : accept r h s = doAtomic r h a s := by
  rw [accept, ha]

/-- An atomic whose location cannot be read fails. -/
theorem doAtomic_lost {r : Req} {h : Home} {a : Atom} {s : State} (hz : (homeAtomic h r.pa r.who a s).1 = none) :
    doAtomic r h a s = complete r .dataLost 0 (homeAtomic h r.pa r.who a s).2 := by
  rw [doAtomic]
  simp only [hz]

/-- An atomic performed at its home completes with the old value, where it returns one. -/
theorem doAtomic_old {r : Req} {h : Home} {a : Atom} {s : State} {v : Nat} (hz : (homeAtomic h r.pa r.who a s).1 = some v) :
    doAtomic r h a s = complete r .ok (if a.returns && !isLockedAdd r s then BitVec.ofNat 1024 v else 0)
      (homeAtomic h r.pa r.who a s).2 := by
  rw [doAtomic]
  simp only [hz]

/-! ## Adds held for their step -/

section
variable {r : Req} {a : Atom} {h : Home} {s : State}

theorem oaddEnter_full (hfull : 4096 ≤ (s.stack h.stack).oadd.length) :
    oaddEnter r a h s = netPut { r with st := .waiting, oaddMark := true } s :=
  if_pos hfull

theorem oaddEnter_regulated (hroom : (s.stack h.stack).oadd.length < 4096) (hadmit : admits r h.stack s = false) :
    oaddEnter r a h s = netPut { r with st := .waiting, regMark := true } s :=
  (if_neg (Nat.not_le_of_lt hroom)).trans (if_pos (by rw [hadmit]; rfl))

/-- A held add: its location, operand, partition, step and key, and its source as the order of R165 sees it. -/
def heldAdd (r : Req) (a : Atom) (h : Home) (s : State) : OAdd :=
  ⟨r.id, h.addr / a.bytes * a.bytes, r.pa / a.bytes * a.bytes, a.bytes, a.operand.setWidth 32, r.who.part, r.step, r.key,
    (srcOrder r.src s).1, (srcOrder r.src s).2.1, (srcOrder r.src s).2.2⟩

theorem oaddEnter_held (hroom : (s.stack h.stack).oadd.length < 4096) (hadmit : admits r h.stack s = true) :
    oaddEnter r a h s = complete r .ok 0 ((spend r h.stack s).putStack h.stack
      { (spend r h.stack s).stack h.stack with oadd := (s.stack h.stack).oadd ++ [heldAdd r a h s] }) :=
  (if_neg (Nat.not_le_of_lt hroom)).trans (if_neg (by simp [hadmit]))

end

/-! ## Adds whose step is over -/

/-- A floating-point add of a locked partition counted as late at a stack (R167); any other request is not counted. -/
def countLate (r : Req) (st : Nat) (s : State) : State := if isLockedAdd r s then incF F.STK_OADD_LATE_COUNT st 0 1 s else s

/-- Counting an add as late does not make it wait for its step: that its step is over does not depend on the count. -/
theorem isOrdered_countLate {r : Req} {s : State} (st : Nat) (ho : isOrdered r s = false) :
    isOrdered r (countLate r st s) = false := by
  unfold countLate
  split
  · next hl =>
    have hlate : isLate r s = true := by simpa [isOrdered, hl] using ho
    show (isLockedAdd r _ && !isLate r s) = false
    rw [hlate, Bool.not_true, Bool.and_false]
  · exact ho

/-! ## The two commands -/

/-- The state in which a request given whole is under way. -/
abbrev underWay (r : Req) (s : State) : State := { s with net := s.net ++ [r] }

section
variable {q : DramReq} {a : Atom} {s : State} (ha : q.atom = some a)

theorem exec_oaddAccept_direct (ho : isOrdered (reqOf q s.tick) s = true) :
    exec (.oaddAccept (.direct q)) s = .next (atHome (reqOf q s.tick) (underWay (reqOf q s.tick) s)) :=
  congrArg Host.Outcome.next (if_pos ho)

theorem exec_oaddAccept_other (ho : isOrdered (reqOf q s.tick) s = false) : exec (.oaddAccept (.direct q)) s = .next s :=
  congrArg Host.Outcome.next (if_neg (ne_true_of_eq_false ho))

theorem exec_dramAtomic_ordered (ho : isOrdered (reqOf q s.tick) s = true) : exec (.dramAtomic (.direct q)) s = .next s :=
  congrArg Host.Outcome.next (if_pos (Bool.or_eq_true_iff.mpr (.inr ho)))

include ha

theorem exec_dramAtomic_direct (ho : isOrdered (reqOf q s.tick) s = false) :
    exec (.dramAtomic (.direct q)) s = .next (atHome (reqOf q s.tick) ((homeOf (reqOf q s.tick).pa s).elim
      (underWay (reqOf q s.tick) s) fun h => countLate (reqOf q s.tick) h.stack (underWay (reqOf q s.tick) s))) := by
  have hdirect : ((reqOf q s.tick).atom.isNone || isOrdered (reqOf q s.tick) (underWay (reqOf q s.tick) s)) = false := by
    rw [show (reqOf q s.tick).atom = some a from ha]
    exact ho
  refine congrArg Host.Outcome.next ((if_neg (ne_true_of_eq_false hdirect)).trans ?_)
  change (match reqStack (reqOf q s.tick) s with | some st => _ | none => _) = _
  rw [reqStack]
  cases homeOf (reqOf q s.tick).pa s <;> rfl

theorem exec_dramAtomic_gone (ho : isOrdered (reqOf q s.tick) s = false) (hh : homeOf (reqOf q s.tick).pa s = none) :
    exec (.dramAtomic (.direct q)) s = .next (complete (reqOf q s.tick) .dieAbsent 0 (underWay (reqOf q s.tick) s)) := by
  rw [exec_dramAtomic_direct ha ho, hh]
  exact congrArg _ (atHome_gone hh)

theorem exec_dramAtomic_home (ho : isOrdered (reqOf q s.tick) s = false) {h : Home} (hh : homeOf (reqOf q s.tick).pa s = some h) :
    exec (.dramAtomic (.direct q)) s =
      .next (atHome (reqOf q s.tick) (countLate (reqOf q s.tick) h.stack (underWay (reqOf q s.tick) s))) := by
  rw [exec_dramAtomic_direct ha ho, hh]
  rfl

end

/-- Settles O26: DRAM_ATOMIC brings each atomic to its controller but the adds that are held for their step, and OADD_ACCEPT those. -/
theorem dramAtomicsRun : Obligations.DramAtomicsRun := by
  intro q a s ha r s1
  refine ⟨fun ho => ⟨exec_oaddAccept_other ho, exec_dramAtomic_gone ha ho, ?_⟩, fun ho => ⟨exec_dramAtomic_ordered ho, ?_⟩⟩
  · intro h hh s2 hh2
    have ho2 : isOrdered r s2 = false := isOrdered_countLate h.stack (s := s1) ho
    rw [exec_dramAtomic_home ha ho hh]
    refine ⟨fun st hb => congrArg _ (atHome_refused hh2 hb), fun hb => ?_⟩
    have hreg := atHome_regulated hh2 hb ho2
    refine ⟨fun hadmit => congrArg _ (hreg.trans (if_neg (ne_true_of_eq_false hadmit))), fun hadmit => ?_⟩
    have hadm : atHome r s2 = admitted r h s2 := hreg.trans (if_pos hadmit)
    refine ⟨fun hsrc hm => congrArg _ (hadm.trans (admitted_snooping hsrc hm)), fun hm => congrArg _ ?_⟩
    refine ((hadm.trans (admitted_accepted hm)).trans (accept_atomic (r := r) ha h (spend r h.stack s2))).trans ?_
    cases hz : (homeAtomic h r.pa r.who a (spend r h.stack s2)).1 with
    | none => exact doAtomic_lost hz
    | some v => exact doAtomic_old hz
  · rw [exec_oaddAccept_direct ho]
    refine ⟨fun hh => congrArg _ (atHome_gone hh), fun h hh => ⟨fun st hb => congrArg _ (atHome_refused hh hb), fun hb => ?_⟩⟩
    have hent : atHome r s1 = oaddEnter r a h s1 := atHome_ordered hh hb ha ho
    exact ⟨fun hroom hadmit => congrArg _ (hent.trans (oaddEnter_held hroom hadmit)),
      fun hroom hadmit => congrArg _ (hent.trans (oaddEnter_regulated hroom hadmit)),
      fun hfull => congrArg _ (hent.trans (oaddEnter_full hfull))⟩

end Sys2Proof.Machine
end

section
/-!
PROOFS. NOP, FENCE, SIGNAL, WAIT and MOVE descriptors that start or go on (R262 to R264, R269, R270) (O48).
-/

namespace Sys2Proof.Machine

/-! ## A descriptor that starts or goes on -/

theorem idx_of_getDesc {n i : Nat} {d : Desc} {s : State} (h : getDesc n i s = some d) : d.idx = i := by
  simpa using List.find?_some h

/-- The descriptor once it has started. -/
abbrev Desc.begun (d : Desc) : Desc := { d with st := .started }

/-- A descriptor that may start or go on does what its kind does, as a started one. -/
theorem withDesc_runs {n i : Nat} {kinds : List Nat} {f : Desc → State → State} {d : Desc} {s : State}
    (hget : getDesc n i s = some d) (hk : d.kind ∈ kinds) (hruns : descRuns n d s = true) :
    withDesc n i kinds f s = f d.begun (putDesc n d.begun s) := by
  rw [withDesc, hget]
  exact if_pos (by rw [hruns, Bool.and_true]; exact List.contains_iff_mem.mpr hk)

/-! ## SIGNAL -/

section
variable {n va : Nat} {v : Via} {a : Atom} {s : State}

theorem signalGot_pending {r : Req} (h : signalAsked v s = some r) (hst : r.st ≠ .answered) :
    signalGot n v va a s = (.wait, s) := by
  rw [signalGot, h]
  exact if_neg hst

theorem signalGot_answered {r : Req} (h : signalAsked v s = some r) (hst : r.st = .answered) :
    signalGot n v va a s = (if r.status = .ok then .ok 0 else .bad r.status, netDel r.id s) := by
  rw [signalGot, h]
  exact if_pos hst

/-- A SIGNAL is a release: it is not sent while a write of its ring before it is still to be performed (R151). -/
theorem signalGot_unperformed (h : signalAsked v s = none) (hperf : ringPerformed n s = false) :
    signalGot n v va a s = (.wait, s) := by
  rw [signalGot, h]
  exact if_pos (by rw [hperf]; rfl)

theorem signalGot_sends {pa : Nat} {pol : Policy} {t : State} (h : signalAsked v s = none) (hperf : ringPerformed n s = true)
    (hx : translate v.ctx ⟨v.who, v.id, false, true, !atomPlain a, v.step, va, false, false⟩ s = (.ok pa pol, t))
    (hplace : placeOf pa t ≠ .gone) : signalGot n v va a s = (.wait, signalSend v a pa t) := by
  rw [signalGot, h]
  simp only [hperf, hx, hplace, Bool.not_true, Bool.false_eq_true, if_false]

end

/-- What a SIGNAL that runs comes to. -/
def signalRun (n : Nat) (d : Desc) (s : State) : State :=
  let r := signalGot n (descVia n d s) (d.get 8 8) (signalAtom d) s
  descGo n d r.1 (fun _ => finishDesc n d.idx .ok 0xFFFF 0) r.2

theorem signalRun_waits {n : Nat} {d : Desc} {s t : State}
    (h : signalGot n (descVia n d s) (d.get 8 8) (signalAtom d) s = (.wait, t)) : signalRun n d s = t := by
  rw [signalRun, h]
  rfl

/-- An answered SIGNAL completes with the status of its answer. -/
theorem signalRun_answered {n : Nat} {d : Desc} {r : Req} {s : State} (h : signalAsked (descVia n d s) s = some r)
    (hst : r.st = .answered) :
    signalRun n d s = if r.status = .ok then finishDesc n d.idx .ok 0xFFFF 0 (descDone d (netDel r.id s))
      else finishDesc n d.idx r.status 0xFFFF 0 (descLost n d r.status (descDone d (netDel r.id s))) := by
  rw [signalRun, signalGot_answered h hst]
  by_cases hok : r.status = .ok <;> simp only [hok, if_true, if_false] <;> rfl

/-! ## WAIT -/

/-- The location of a WAIT that has been read: met, it is reported, else it is read again POLL_TICKS later. -/
def waitSeen (n : Nat) (d : Desc) (x : Nat) (s : State) : State :=
  if waitMet d x then sendReport n d.idx .ok 0xFFFF (x % 2 ^ 32) s
  else putDesc n { d with pollAt := s.tick + getF F.CMD_CTRL_POLL_TICKS 0 0 s } s

theorem waitRead_ok {n x size : Nat} {d : Desc} {s t : State} (hsize : size = if (d.get 0x20 1).testBit 2 then 8 else 4)
    (h : (descVia n d s).get (d.get 8 8 / size * size) size s = (.ok x, t)) : waitRead n d s = waitSeen n d x (descDone d t) := by
  subst hsize
  rw [waitRead]
  simp only [h]
  rfl

/-! ## The commands -/

section
variable {n : RingId} {idx : BitVec 32} {d : Desc} {s : State} (hget : getDesc n idx.toNat s = some d)
  (hruns : descRuns n d s = true)
include hget hruns

theorem exec_descNop_runs (hk : d.kind ∈ [0, 12, 13, 14, 15]) :
    exec (.descNop n idx) s = .next (finishDesc n idx.toNat (d.unread.getD .ok) 0xFFFF 0 (putDesc n d.begun s)) := by
  refine congrArg Host.Outcome.next ((withDesc_runs hget hk hruns).trans ?_)
  show (match d.unread with | some _ => _ | none => _) = _
  cases d.unread <;> rfl

theorem exec_fence_runs (hk : d.kind = 3) :
    exec (.fence n idx) s = .next (if (earlierDescs n idx.toNat (putDesc n d.begun s)).isEmpty && ringPerformed n (putDesc n d.begun s)
      then finishDesc n idx.toNat .ok 0xFFFF 0 (putDesc n d.begun s) else putDesc n d.begun s) :=
  congrArg Host.Outcome.next (withDesc_runs hget (by simp [hk]) hruns)

theorem exec_signal_runs (hk : d.kind = 4) : exec (.signal n idx) s = .next (signalRun n d.begun (putDesc n d.begun s)) := by
  refine congrArg Host.Outcome.next ((withDesc_runs hget (by simp [hk]) hruns).trans ?_)
  rw [← idx_of_getDesc hget]
  rfl

theorem exec_wait_runs (hk : d.kind = 5) (hpoll : d.pollAt = 0) :
    exec (.wait n idx) s = .next (waitRead n d.begun (putDesc n d.begun s)) :=
  congrArg Host.Outcome.next ((withDesc_runs hget (by simp [hk]) hruns).trans (if_pos hpoll))

theorem exec_waitPoll_runs (hk : d.kind = 5) (hpoll : d.pollAt ≠ 0) (htick : d.pollAt ≤ s.tick) :
    exec (.waitPoll n idx) s = .next (waitRead n d.begun (putDesc n d.begun s)) :=
  congrArg Host.Outcome.next ((withDesc_runs hget (by simp [hk]) hruns).trans (if_pos ⟨hpoll, htick⟩))

/-- A MOVE onto a bed of a paused partition waits. -/
theorem exec_move_paused (hk : d.kind = 2)
    (harmed : moveArmed n idx.toNat (min 4799 (d.get 0x12 2)) (putDesc n d.begun s) = false)
    (hpaused : bitF F.PWR_PART_STATUS_PAUSED 0 (descPart n d.begun (putDesc n d.begun s)) (putDesc n d.begun s) = true) :
    exec (.move n idx) s = .next (putDesc n { d with st := .waiting } (putDesc n d.begun s)) :=
  congrArg Host.Outcome.next ((withDesc_runs hget (by simp [hk]) hruns).trans
    ((if_neg (ne_true_of_eq_false harmed)).trans (if_pos hpaused)))

/-- A MOVE that its checks pass, onto a bed with room, arms its program. -/
theorem exec_move_arms (hk : d.kind = 2) :
    let s1 := putDesc n d.begun s
    let b := min 4799 (d.get 0x12 2)
    let p := descPart n d.begun s1
    ∀ o, moveArmed n idx.toNat b s1 = false → bitF F.PWR_PART_STATUS_PAUSED 0 p s1 = false → bgOwner (bgOf b) s1 = some o →
      slotPresent (plotOf b) s1 = true → ringHost n s1 = true ∨ o = p → storeBad (d.get 0x14 2) p s1 = false →
      (s1.bed b).armed.length < 64 → exec (.move n idx) s =
        .next (armProg b (moveProg n b s1.nextId d.begun { s1 with nextId := s1.nextId + 1 }) { s1 with nextId := s1.nextId + 1 }) := by
  intro s1 b p o harmed hpaused howner hpresent hmay hstore hroom
  have hup : (!slotPresent (plotOf b) s1) = false := by rw [hpresent]; rfl
  have hperm : (!ringHost n s1 && decide (o ≠ p)) = false := by rcases hmay with h | h <;> simp [h]
  refine congrArg Host.Outcome.next ((withDesc_runs hget (by simp [hk]) hruns).trans ?_)
  refine (if_neg (ne_true_of_eq_false harmed)).trans ((if_neg (ne_true_of_eq_false hpaused)).trans ?_)
  show (match bgOwner (bgOf b) s1 with | none => _ | some o => _) = _
  rw [howner]
  exact (if_neg (ne_true_of_eq_false hup)).trans ((if_neg (ne_true_of_eq_false hperm)).trans
    ((if_neg (ne_true_of_eq_false hstore)).trans (if_neg (Nat.not_le_of_lt hroom))))

end

/-- Settles O48: a descriptor that may start or go on is started, and does what its kind does. -/
theorem descriptorsRun : Obligations.DescriptorsRun := by
  intro n idx d s hget hruns i d1 s1 v
  have hidx : d.idx = i := idx_of_getDesc hget
  refine ⟨exec_descNop_runs hget hruns, fun hk => ?_, fun hk => ?_, ?_, fun hk => ?_⟩
  · rw [exec_fence_runs hget hruns hk]
    refine ⟨fun hearlier hperf => congrArg _ (if_pos ?_), fun h => congrArg _ (if_neg ?_)⟩
    · show ((earlierDescs n i s1).isEmpty && ringPerformed n s1) = true
      rw [hearlier, hperf]
      rfl
    · show ¬((earlierDescs n i s1).isEmpty && ringPerformed n s1) = true
      rcases h with h | h <;> simp [h]
  · rw [exec_signal_runs hget hruns hk]
    refine ⟨fun r hasked => ⟨fun hst => ?_, fun hst hok => ?_, fun hst hbad => ?_⟩, fun hasked => ⟨fun hperf => ?_, ?_⟩⟩
    · exact congrArg _ (signalRun_waits (signalGot_pending hasked hst))
    · rw [← hidx]
      exact congrArg _ ((signalRun_answered hasked hst).trans (if_pos hok))
    · rw [← hidx]
      exact congrArg _ ((signalRun_answered hasked hst).trans (if_neg hbad))
    · exact congrArg _ (signalRun_waits (signalGot_unperformed hasked hperf))
    · exact fun pa pol s2 hperf hx hplace => congrArg _ (signalRun_waits (signalGot_sends hasked hperf hx hplace))
  · intro x s2 hk size hgot s3 out
    have hread : waitRead n d1 s1 = waitSeen n d1 x s3 := waitRead_ok rfl hgot
    exact ⟨fun hpoll => (exec_wait_runs hget hruns hk hpoll).trans (congrArg _ hread),
      fun hpoll htick => (exec_waitPoll_runs hget hruns hk hpoll htick).trans (congrArg _ hread)⟩
  · exact ⟨exec_move_paused hget hruns hk, exec_move_arms hget hruns hk⟩

end Sys2Proof.Machine
end

section
/-!
PROOFS. The value that an atomic leaves in a scratchpad and the one that it returns (R113, R114, R122, R160, R161) (O31).
-/

namespace Sys2Proof.Machine

/-! ## Bytes of a memory -/

/-- A byte of a memory after a masked write: that of the written value where the mask selects it. -/
theorem sget_putBytes {l : List Host.Cell} (hl : swf 0 l) (a n mask v y : Nat) :
    sget 0 (putBytes l a n mask v) y =
      if a ≤ y ∧ y < a + n ∧ mask.testBit (y - a) = true then BitVec.ofNat 8 (v / 256 ^ (y - a)) else sget 0 l y := by
  induction n with
  | zero => exact (if_neg (by omega)).symm
  | succ k ih =>
    have hother : y ≠ a + k → (a ≤ y ∧ y < a + (k + 1) ∧ mask.testBit (y - a) = true ↔
        a ≤ y ∧ y < a + k ∧ mask.testBit (y - a) = true) := fun h => by
      refine and_congr_right fun _ => and_congr_left fun _ => ?_
      omega
    rw [putBytes]
    by_cases hm : mask.testBit k = true
    · rw [if_pos hm, sget_sput _ _ _ _ _ (swf_putBytes l a k mask v hl)]
      by_cases hy : y = a + k
      · subst hy
        rw [if_pos rfl, if_pos (by simpa using hm), Nat.add_sub_cancel_left]
      · simp only [if_neg hy, ih, hother hy]
    · rw [if_neg hm, ih]
      by_cases hy : y = a + k
      · subst hy
        rw [if_neg (by omega), if_neg (by simp [hm])]
      · simp only [hother hy]

/-- Bytes of a memory that are those of a value make up that value. -/
theorem getBytes_eq_mod {l : List Host.Cell} {a n v : Nat} (h : ∀ j < n, (sget 0 l (a + j)).toNat = v / 256 ^ j % 256) :
    getBytes l a n = v % 256 ^ n := by
  induction n with
  | zero => simp [getBytes, Nat.mod_one]
  | succ k ih =>
    rw [getBytes, ih fun j hj => h j (by omega), h k (by omega), Nat.mod_pow_succ, Nat.mul_comm]

theorem getBytes_lt (l : List Host.Cell) (a n : Nat) : getBytes l a n < 256 ^ n := by
  induction n with
  | zero => exact Nat.one_pos
  | succ k ih =>
    have hbyte : (sget (0 : BitVec 8) l (a + k)).toNat ≤ 255 := Nat.le_of_lt_succ (sget 0 l (a + k)).isLt
    have hmul := Nat.mul_le_mul_right (256 ^ k) hbyte
    rw [getBytes, Nat.pow_succ]
    omega

theorem getBytes_byte (l : List Host.Cell) (a : Nat) {n j : Nat} (hj : j < n) :
    getBytes l a n / 256 ^ j % 256 = (sget 0 l (a + j)).toNat := by
  induction n with
  | zero => omega
  | succ k ih =>
    rw [getBytes]
    rcases Nat.lt_succ_iff_lt_or_eq.mp hj with hlt | rfl
    · have hhigh : (sget (0 : BitVec 8) l (a + k)).toNat * 256 ^ k % 256 ^ (j + 1) = 0 :=
        Nat.mod_eq_zero_of_dvd (Nat.dvd_mul_left_of_dvd (Nat.pow_dvd_pow 256 hlt) _)
      rw [← Nat.mod_mul_right_div_self, ← Nat.pow_succ, Nat.add_mod, hhigh, Nat.add_zero, Nat.mod_mod, Nat.pow_succ,
        Nat.mod_mul_right_div_self, ih hlt]
    · rw [Nat.add_mul_div_right _ _ (Nat.pow_pos (by decide)), Nat.div_eq_of_lt (getBytes_lt ..), Nat.zero_add]
      exact Nat.mod_eq_of_lt (sget 0 l (a + j)).isLt

/-- Writing back the bytes that a memory holds leaves every byte. -/
theorem sget_putBytes_getBytes {l : List Host.Cell} (hl : swf 0 l) (a n mask y : Nat) :
    sget 0 (putBytes l a n mask (getBytes l a n)) y = sget 0 l y := by
  rw [sget_putBytes hl]
  split
  · next h =>
    obtain ⟨hle, hlt, -⟩ := h
    apply BitVec.eq_of_toNat_eq
    rw [BitVec.toNat_ofNat, getBytes_byte l a (by omega), Nat.add_sub_cancel' hle]
  · rfl

/-- Byte `j` of a value stands at byte `r + j` of the granule into which the value is shifted by `r` bytes. -/
theorem byte_of_shifted (A : Nat) {r j w : Nat} (h : r + j < 16) (hw : 128 ≤ w) :
    (BitVec.ofNat w (A * 2 ^ (8 * r))).toNat % 2 ^ 128 / 256 ^ (r + j) % 256 = A / 256 ^ j % 256 := by
  have hdvd : 2 ^ 128 ∣ 2 ^ w := Nat.pow_dvd_pow 2 hw
  rw [BitVec.toNat_ofNat, Nat.mod_mod_of_dvd _ hdvd, show (256 : Nat) = 2 ^ 8 from rfl, ← Nat.pow_mul, ← Nat.pow_mul]
  apply Nat.eq_of_testBit_eq
  intro i
  simp only [Nat.testBit_mod_two_pow, Nat.testBit_div_two_pow, Nat.testBit_mul_two_pow]
  by_cases hi : i < 8
  · have hin : i + 8 * (r + j) < 128 := by omega
    have hge : 8 * r ≤ i + 8 * (r + j) := by omega
    rw [decide_eq_true hin, decide_eq_true hge, show i + 8 * (r + j) - 8 * r = i + 8 * j by omega]
    rfl
  · rw [decide_eq_false hi]
    rfl

/-! ## A granule without an error, while no injection is armed -/

theorem guardDecode_syndrome_zero : guardDecode (syndrome 0) = .clean := by decide +kernel

theorem toNat_residue_zero : ((residue 0).setWidth 128).toNat = 0 := by
  rw [residue, guardDecode_syndrome_zero]
  rfl

theorem writePattern_disarmed {s : State} (harm : bitF F.MGT_ERR_INJ_CTL_ARM 0 0 s = false) (pa : Nat) (a : ErrAt) :
    writePattern pa a s = (0, s) :=
  if_neg (by rw [harm]; exact Bool.false_ne_true)

/-- A write to a core's granule takes away the reads of other accesses, and leaves all else. -/
theorem spoil_frame (c g : Nat) (s : State) : spoil c g s = { s with cores := (spoil c g s).cores } := by
  rw [spoil]
  split <;> rfl

section
variable {c g : Nat} {s : State} (hg : g < 2048) (hclean : sget 0 s.spadErr (c * 2048 + g) = 0)
include hg hclean

/-- A write to a granule without an error merges with the bytes that it holds (R110). -/
theorem spadWrite_clean (harm : bitF F.MGT_ERR_INJ_CTL_ARM 0 0 s = false) (mask v : Nat) :
    let a := 16 * (c * 2048 + g)
    spadWrite c g mask v s = { s with
      spad := putBytes (putBytes s.spad a 16 65535 (getBytes s.spad a 16)) a 16 mask v,
      spadErr := sput 0 s.spadErr (c * 2048 + g) 0 } := by
  simp only [spadWrite, writePattern_disarmed harm, Nat.mod_eq_of_lt hg, hclean, toNat_residue_zero, Nat.xor_zero]

theorem spadBad_clean : spadBad c g s = false := by
  rw [spadBad, Nat.mod_eq_of_lt hg, hclean, guardDecode_syndrome_zero]
  rfl

/-- A masked write of one granule without an error is performed. -/
theorem spadStore_one {mask : Nat} (hmask : mask < 65536) (hsome : mask ≠ 0) (v : Nat) :
    spadStore c g 1 mask v s = (true, spoil c g (spadWrite c g mask (v % 2 ^ 128) s)) := by
  have hgran : granMask mask 0 = mask := by
    rw [granMask, Nat.mul_zero, Nat.pow_zero, Nat.div_one, Nat.mod_eq_of_lt hmask]
  have hmeets : meetsBad c g mask 0 s = false := by
    rw [meetsBad, Nat.add_zero, spadBad_clean hg hclean, Bool.and_false]
  have hblock : blockBad c g 1 mask 0 s = false := by
    simp [blockBad, hmeets]
  have hone : storeGran c g 1 mask v 0 s s = spoil c g (spadWrite c g mask (v % 2 ^ 128) s) := by
    rw [storeGran, hgran, hmeets, hblock, if_neg hsome, Nat.mul_zero, Nat.pow_zero, Nat.div_one]
    rfl
  rw [spadStore, ← hone]
  simp [List.range_one, hmeets]

end

/-- What a masked write of one granule without an error leaves: the bytes that the mask selects are those of the value, every other byte of
every scratchpad is as before, and so is all else but the open reads of that granule. -/
theorem spadStore_one_effect {c g mask : Nat} {s : State} (hspad : swf 0 s.spad) (hg : g < 2048)
    (hclean : sget 0 s.spadErr (c * 2048 + g) = 0) (harm : bitF F.MGT_ERR_INJ_CTL_ARM 0 0 s = false) (hmask : mask < 65536)
    (hsome : mask ≠ 0) (v : Nat) :
    let u := (spadStore c g 1 mask v s).2
    let a := 16 * (c * 2048 + g)
    (∀ y, sget 0 u.spad y = if a ≤ y ∧ y < a + 16 ∧ mask.testBit (y - a) = true then BitVec.ofNat 8 (v % 2 ^ 128 / 256 ^ (y - a))
      else sget 0 s.spad y) ∧
    u = { s with cores := u.cores, spad := u.spad, spadErr := u.spadErr } := by
  intro u a
  have hu : u = spoil c g (spadWrite c g mask (v % 2 ^ 128) s) := congrArg Prod.snd (spadStore_one hg hclean hmask hsome v)
  have hwrite := spadWrite_clean hg hclean harm mask (v % 2 ^ 128)
  have hframe : u = { spadWrite c g mask (v % 2 ^ 128) s with cores := u.cores } := by
    rw [hu]
    exact spoil_frame ..
  rw [hwrite] at hframe
  refine ⟨fun y => ?_, ?_⟩
  · have hsame := sget_putBytes_getBytes hspad a 16 65535 y
    rw [congrArg State.spad hframe]
    rw [← hsame]
    exact sget_putBytes (swf_putBytes _ _ _ _ _ hspad) _ _ _ _ _
  · rw [hframe]

/-! ## The write of an atomic -/

section
variable {o : Outside} (hpos : o.pos = 0) (hfit : o.off % 16 + o.len ≤ 16) (hlen : 0 < o.len)
include hpos hfit

/-- An access within one granule has one part: all of it. -/
theorem part_of_fits : o.part = (o.off, o.len) := by
  rw [Outside.part, hpos, Nat.add_zero, Nat.sub_zero]
  exact Prod.ext rfl (by simp only; omega)

include hlen in
theorem grans_of_fits : o.grans = (o.off / 16, 1) := by
  rw [Outside.grans, part_of_fits hpos hfit]
  exact Prod.ext rfl (by simp only; omega)

theorem bits_of_fits : o.bits.1 = o.mask.toNat % 2 ^ o.len * 2 ^ (o.off % 16) := by
  rw [Outside.bits, part_of_fits hpos hfit, hpos]
  simp only [Nat.pow_zero, Nat.div_one]

theorem modify_of_fits {a : Atom} (ha : o.atom = some a) (old : Nat) :
    let v := old / 2 ^ (8 * (o.off % 16)) % 2 ^ (8 * a.bytes)
    o.modify old = (a.apply v * 2 ^ (8 * (o.off % 16)), if a.returns then v else 0) := by
  rw [Outside.modify, ha, part_of_fits hpos hfit]

/-- An access that has done its one part is answered, and waits no more. -/
theorem advance_of_fits (hok : o.status = .ok) (c : Nat) (s : State) :
    advance c o s = answerOut o .ok o.rdata (s.putCore c { s.core c with outside := setFront o.brw none (s.core c).outside }) := by
  have hlast : ¬o.pos + o.part.2 < o.len := by
    rw [part_of_fits hpos hfit, hpos]
    simp
  rw [advance]
  simp only [if_neg hlast, hok, if_true]
  rfl

end

theorem setFront_setFront {o : Outside} {b : Bool} (h : o.brw = b) (n : Option Outside) (l : List Outside) :
    setFront b n (setFront b (some o) l) = setFront b n l := by
  induction l with
  | nil => rfl
  | cons x t ih =>
    by_cases hx : x.brw = b
    · simp [setFront, hx, h]
    · simp [setFront, hx, ih]

theorem Sound.putCore {s : State} (hs : Sound s) (c : Nat) (k : Core) : Sound (s.putCore c k) :=
  { hs with cores := swf_sput _ _ _ _ hs.cores }

/-- A granted write within one granule without an error: its access is answered and waits no more, and what it writes is kept for the end of
the cycle (R113). -/
theorem storeLate_of_fits {c : Nat} {o : Outside} {s : State} (hs : Sound s) (hpos : o.pos = 0) (hfit : o.off % 16 + o.len ≤ 16)
    (hlen : 0 < o.len) (hok : o.status = .ok) (hoff : o.off < 32768) (hclean : sget 0 s.spadErr (c * 2048 + o.off / 16) = 0)
    {mask : Nat} (hmask : mask < 65536) (hsome : mask ≠ 0) (v : Nat) :
    ∃ t, storeLate c o mask v s = answerOut o .ok o.rdata t ∧ t = { s with cores := t.cores } ∧
      (t.core c).outside = setFront o.brw none (s.core c).outside ∧
      (t.core c).late = (s.core c).late ++ [⟨o.off / 16, 1, BitVec.ofNat 64 mask, BitVec.ofNat 512 v⟩] := by
  have hstore : (spadStore c (o.off / 16) 1 mask v s).1 = true :=
    congrArg Prod.fst (spadStore_one (by omega) hclean hmask hsome v)
  have hkept : storeLate c o mask v s = advance c o (s.putCore c { s.core c with
      late := (s.core c).late ++ [⟨o.off / 16, 1, BitVec.ofNat 64 mask, BitVec.ofNat 512 v⟩] }) := by
    rw [storeLate, grans_of_fits hpos hfit hlen]
    exact if_pos hstore
  refine ⟨_, hkept.trans (advance_of_fits hpos hfit hok c _), rfl, ?_, ?_⟩ <;>
    rw [core_putCore_same (hs.putCore ..), core_putCore_same hs]

/-- An access whose read has been combined, with the old value that it returns. -/
def Outside.combined (o : Outside) (old : BitVec 512) : Outside :=
  { o with opened := none, rdata := o.rdata ||| BitVec.ofNat 1024 (o.modify old.toNat).2 }

/-- The second granted cycle of an atomic within one granule without an error (R122): it is answered with the old value where it returns
one, and the new value is kept for the end of the cycle. -/
theorem rmwWrite_of_fits {c : Nat} {o : Outside} {s : State} (hs : Sound s) (ha : o.atom.isSome) (hpos : o.pos = 0)
    (hfit : o.off % 16 + o.len ≤ 16) (hlen : 0 < o.len) (hok : o.status = .ok) (hoff : o.off < 32768)
    (hclean : sget 0 s.spadErr (c * 2048 + o.off / 16) = 0) (hmask : o.bits.1 < 65536) (hsome : o.bits.1 ≠ 0) (old : BitVec 512) :
    ∃ t, rmwWrite c o old s = answerOut o .ok (o.rdata ||| BitVec.ofNat 1024 (o.modify old.toNat).2) t ∧
      t = { s with cores := t.cores } ∧ (t.core c).outside = setFront o.brw none (s.core c).outside ∧
      (t.core c).late =
        (s.core c).late ++ [⟨o.off / 16, 1, BitVec.ofNat 64 o.bits.1, BitVec.ofNat 512 (o.modify old.toNat).1⟩] := by
  have hrmw : rmwWrite c o old s = storeLate c (o.combined old) o.bits.1 (o.modify old.toNat).1
      (s.putCore c { s.core c with outside := setFront o.brw (some (o.combined old)) (s.core c).outside }) := by
    have hcount : ¬(o.atom.isNone && decide (o.pos + o.part.2 = o.len)) = true := by simp [Option.isNone_eq_false_iff.mpr ha]
    exact congrArg (storeLate c (o.combined old) o.bits.1 (o.modify old.toNat).1) (if_neg hcount)
  obtain ⟨t, heq, hframe, hout, hlate⟩ := storeLate_of_fits (o := o.combined old) (hs.putCore c _) hpos hfit hlen hok hoff hclean
    hmask hsome (o.modify old.toNat).1
  refine ⟨t, hrmw.trans heq, hframe, ?_, ?_⟩
  · rw [hout, core_putCore_same hs]
    exact setFront_setFront rfl none _
  · rw [hlate, core_putCore_same hs]
    rfl

/-- The one write of a cycle is stored at its end (R113). -/
theorem flushLate_one {c : Nat} {w : LateWrite} {s : State} (h : (s.core c).late = [w]) :
    flushLate c s = (spadStore c w.gran w.n w.mask.toNat w.data.toNat (s.putCore c { s.core c with late := [], granted := [] })).2 := by
  rw [flushLate, h]
  rfl

theorem outside_noteGrant {s : State} (hs : Sound s) (c bank : Nat) (o : Outside) :
    ((noteGrant c bank o s).core c).outside = (s.core c).outside := by
  rw [noteGrant, core_putCore_same hs]

theorem late_noteGrant {s : State} (hs : Sound s) (c bank : Nat) (o : Outside) :
    ((noteGrant c bank o s).core c).late = (s.core c).late := by
  rw [noteGrant, core_putCore_same hs]

/-! ## An integer atomic of a scratchpad -/

theorem Atom.bytes_of_not_fadd {a : Atom} (h : a.isFadd = false) : a.bytes = 4 ∨ a.bytes = 8 := by
  obtain ⟨h32, h16⟩ := Bool.or_eq_false_iff.mp h
  rw [Atom.bytes, if_neg (of_decide_eq_false h32), if_neg (of_decide_eq_false h16)]
  split
  · exact .inr rfl
  · exact .inl rfl

/-- An aligned location of 4 or 8 bytes lies within one granule. -/
theorem aligned_fits {off n : Nat} (h : n = 4 ∨ n = 8) : off / n * n % 16 + n ≤ 16 := by
  rcases h with rfl | rfl <;> omega

/-- A waiting atomic of a scratchpad that has read its granule. -/
def openAtomic (id : Nat) (net brw : Bool) (w : Who) (off : Nat) (a : Atom) (old : BitVec 512) : Outside :=
  ⟨id, net, brw, w, off / a.bytes * a.bytes, a.bytes, true, BitVec.ofNat 128 (2 ^ a.bytes - 1), 0, .plain, some a, 0, 0, .ok,
    some old, false⟩

theorem outAtom_opened {a : Atom} (h : atomPlain a = false) (id : Nat) (net brw : Bool) (w : Who) (off : Nat) (old : BitVec 512) :
    { outAtom id net brw w off .plain a with opened := some old } = openAtomic id net brw w off a old := by
  rw [outAtom]
  simp only [h, Bool.false_eq_true, if_false]
  rfl

/-- The bytes of an aligned location, selected in its granule. -/
def locMask (off n : Nat) : Nat := (2 ^ n - 1) * 2 ^ (off % 16)

theorem testBit_locMask (off n i : Nat) : (locMask off n).testBit i = true ↔ off % 16 ≤ i ∧ i < off % 16 + n := by
  rw [locMask, Nat.testBit_mul_two_pow, Nat.testBit_two_pow_sub_one, Bool.and_eq_true, decide_eq_true_eq, decide_eq_true_eq]
  omega

theorem locMask_lt {off n : Nat} (h : off % 16 + n ≤ 16) : locMask off n < 65536 := by
  refine Nat.lt_pow_two_of_testBit (n := 16) _ fun i hi => ?_
  refine Bool.eq_false_iff.mpr fun hbit => ?_
  obtain ⟨-, hlt⟩ := (testBit_locMask off n i).mp hbit
  omega

theorem locMask_ne_zero {n : Nat} (h : 0 < n) (off : Nat) : locMask off n ≠ 0 := by
  intro h0
  have hbit := (testBit_locMask off n (off % 16)).mpr (by omega)
  rw [h0, Nat.zero_testBit] at hbit
  exact Bool.false_ne_true hbit

/-- A value kept for an aligned location is stored there at the end of the cycle; no other byte of any scratchpad changes. -/
theorem flushLate_location {c off n A : Nat} {s : State} (hspad : swf 0 s.spad) (hoff : off < 32768) (hfit : off % 16 + n ≤ 16)
    (hn : 0 < n) (hclean : sget 0 s.spadErr (c * 2048 + off / 16) = 0) (harm : bitF F.MGT_ERR_INJ_CTL_ARM 0 0 s = false)
    (hlate : (s.core c).late =
      [⟨off / 16, 1, BitVec.ofNat 64 (locMask off n), BitVec.ofNat 512 (A * 2 ^ (8 * (off % 16)))⟩]) :
    let u := flushLate c s
    let b := c * 32768 + off
    getBytes u.spad b n = A % 256 ^ n ∧ (∀ y, y < b ∨ b + n ≤ y → sget 0 u.spad y = sget 0 s.spad y) ∧
    u = { s with cores := u.cores, spad := u.spad, spadErr := u.spadErr } := by
  intro u b
  have hmask := locMask_lt hfit
  have hmask64 : (BitVec.ofNat 64 (locMask off n)).toNat = locMask off n :=
    (BitVec.toNat_ofNat ..).trans (Nat.mod_eq_of_lt (by omega))
  obtain ⟨hbyte, hframe⟩ := spadStore_one_effect (s := s.putCore c { s.core c with late := [], granted := [] }) (c := c)
    hspad (show off / 16 < 2048 by omega) hclean harm hmask (locMask_ne_zero hn off)
    (BitVec.ofNat 512 (A * 2 ^ (8 * (off % 16)))).toNat
  have hu : u = (spadStore c (off / 16) 1 (locMask off n) (BitVec.ofNat 512 (A * 2 ^ (8 * (off % 16)))).toNat
      (s.putCore c { s.core c with late := [], granted := [] })).2 := by
    have h := flushLate_one hlate
    simpa only [hmask64] using h
  rw [← hu] at hbyte hframe
  simp only [testBit_locMask] at hbyte
  refine ⟨getBytes_eq_mod fun j hj => ?_, fun y hy => (hbyte y).trans (if_neg (by omega)), hframe⟩
  rw [hbyte, if_pos (by omega), BitVec.toNat_ofNat _ 8, show b + j - 16 * (c * 2048 + off / 16) = off % 16 + j by omega]
  exact byte_of_shifted A (by omega) (by decide)

section
variable {id : Nat} {net brw : Bool} {w : Who} {off : Nat} {a : Atom} {old : BitVec 512} (hfadd : a.isFadd = false)
include hfadd

theorem fits_openAtomic : (openAtomic id net brw w off a old).off % 16 + (openAtomic id net brw w off a old).len ≤ 16 :=
  aligned_fits (Atom.bytes_of_not_fadd hfadd)

theorem bits_openAtomic : (openAtomic id net brw w off a old).bits.1 = locMask (off / a.bytes * a.bytes) a.bytes := by
  have hones : (BitVec.ofNat 128 (2 ^ a.bytes - 1)).toNat % 2 ^ a.bytes = 2 ^ a.bytes - 1 := by
    rcases Atom.bytes_of_not_fadd hfadd with h | h <;> rw [h] <;> rfl
  rw [bits_of_fits rfl (fits_openAtomic hfadd)]
  exact congrArg (· * _) hones

theorem passes_openAtomic (c : Nat) (s : State) : passes c (openAtomic id net brw w off a old) s =
    regionOk c (masterOf (openAtomic id net brw w off a old)) (off / a.bytes * a.bytes / 16) (off / a.bytes * a.bytes / 16)
      a.returns true s := by
  have hlen : 0 < a.bytes := by rcases Atom.bytes_of_not_fadd hfadd with h | h <;> omega
  rw [passes, grans_of_fits rfl (fits_openAtomic hfadd) hlen]
  rfl

end

/-- Settles O31: the bank performs the second cycle of the atomic, whose write is stored at the end of the cycle. -/
theorem spadAtomicEffect : Obligations.SpadAtomicEffect := by
  intro c bank id net brw w off a old s hs harm hfadd hplain hlate0
  rw [outAtom_opened hplain]
  intro o hnow hwin n x hregion hclean b v
  have hn : n = 4 ∨ n = 8 := Atom.bytes_of_not_fadd hfadd
  have hpos : 0 < n := by omega
  have hfit : x % 16 + n ≤ 16 := aligned_fits hn
  have hx : x < 32768 := Nat.lt_of_le_of_lt (Nat.div_mul_le_self _ _) off.isLt
  have hbits : o.bits.1 = locMask x n := bits_openAtomic hfadd
  have hs1 : Sound (noteGrant c bank o s) := hs.putCore ..
  have hexec : exec (.spadAliasWrite c bank) s = .next (rmwWrite c o old (noteGrant c bank o s)) := by
    have hbad : outBad c o s = none := outBad_none hwin (fun _ => rfl) fun a' ha' => by cases ha'; exact hfadd
    have hpass : passes c o (noteGrant c bank o s) = true := (passes_openAtomic hfadd _ _).trans hregion
    exact (exec_grantCmd_rmw hnow hbad hpass rfl).trans (congrArg _ (rmwCycle_writes rfl rfl _))
  have hmod : o.modify old.toNat = (a.apply v * 2 ^ (8 * (x % 16)), if a.returns then v else 0) := by
    have h256 : 256 ^ n = 2 ^ (8 * n) := (Nat.pow_mul 2 8 n).symm
    have hv : v = old.toNat / 2 ^ (8 * (x % 16)) % 2 ^ (8 * n) := congrArg (_ % ·) h256
    rw [hv]
    exact modify_of_fits (o := o) rfl hfit rfl _
  obtain ⟨t, heq, hframe, hout, hlate⟩ := rmwWrite_of_fits (o := o) hs1 rfl rfl hfit hpos rfl hx hclean
    (by rw [hbits]; exact locMask_lt hfit) (by rw [hbits]; exact locMask_ne_zero hpos x) old
  rw [outside_noteGrant hs] at hout
  rw [late_noteGrant hs, hlate0, hbits, hmod] at hlate
  have hsame : t = { s with cores := t.cores } := hframe
  refine ⟨t, ?_, hsame, hout, ?_⟩
  · rw [hexec, heq, hmod]
    exact congrArg (fun d => Host.Outcome.next (answerOut o .ok d t)) BitVec.zero_or
  · have hspad : t.spad = s.spad := (congrArg State.spad hsame :)
    have hspadErr : t.spadErr = s.spadErr := (congrArg State.spadErr hsame :)
    obtain ⟨hval, hothers, hrest⟩ := flushLate_location (by rw [hspad]; exact hs.spad) hx hfit hpos (by rw [hspadErr]; exact hclean)
      ((congrArg (bitF F.MGT_ERR_INJ_CTL_ARM 0 0) hsame).trans harm) hlate
    rw [hspad] at hothers
    refine ⟨hval, hothers, hrest.trans ?_⟩
    exact congrArg (fun z : State => { z with
      cores := (flushLate c t).cores, spad := (flushLate c t).spad, spadErr := (flushLate c t).spadErr }) hsame

end Sys2Proof.Machine
end

section
/-!
PROOFS. Where a byte of stacked DRAM lives (R178 to R180): folds of address bits keep what the rest of the address tells apart (O23).
-/

namespace Sys2Proof.Machine

/-! ## Folds of address bits -/

theorem foldl_range_eq_foldBits (b t w : Nat) :
    (List.range t).foldl (fun z i => z ^^^ (w / 2 ^ (b * i) % 2 ^ b)) 0 = foldBits b w t := by
  induction t with
  | zero => rfl
  | succ t ih => rw [List.range_succ, List.foldl_append, ih]; rfl

theorem foldBits_lt (b w t : Nat) : foldBits b w t < 2 ^ b := by
  induction t with
  | zero => exact Nat.two_pow_pos b
  | succ t ih => exact Nat.xor_lt_two_pow ih (Nat.mod_lt _ (Nat.two_pow_pos b))

/-- The lowest field of a fold taken apart from the others. -/
theorem foldBits_succ (b w t : Nat) : foldBits b w (t + 1) = w % 2 ^ b ^^^ foldBits b (w / 2 ^ b) t := by
  induction t with
  | zero => simp [foldBits]
  | succ t ih =>
    have hfield : w / 2 ^ (b * (t + 1)) = w / 2 ^ b / 2 ^ (b * t) := by
      rw [Nat.div_div_eq_div_mul, ← Nat.pow_add, Nat.mul_succ, Nat.add_comm]
    rw [foldBits, ih, hfield, Nat.xor_assoc]
    rfl

theorem eq_of_xor_eq_xor {x y z : Nat} (h : x ^^^ z = y ^^^ z) : x = y := by
  have hz := congrArg (· ^^^ z) h
  simpa only [Nat.xor_assoc, Nat.xor_self, Nat.xor_zero] using hz

/-- A value is known by its fold and by what lies above its lowest field. -/
theorem eq_of_foldBits_eq {b t v w : Nat} (hfold : foldBits b v (t + 1) = foldBits b w (t + 1)) (hhigh : v / 2 ^ b = w / 2 ^ b) :
    v = w := by
  rw [foldBits_succ, foldBits_succ, hhigh] at hfold
  rw [← Nat.div_add_mod v (2 ^ b), ← Nat.div_add_mod w (2 ^ b), hhigh, eq_of_xor_eq_xor hfold]

/-! ## The hash of a region -/

theorem wideHome_eq (n : Nat) : wideHome n = (8 * (n % 3) + foldBits 3 (n / 3) 11, n / 3 / 8) :=
  Prod.ext (congrArg (8 * (n % 3) + ·) (foldBits_succ 3 (n / 3) 10).symm) rfl

theorem wideHome_stack_lt (n : Nat) : (wideHome n).1 < 24 := by
  have hfold := foldBits_lt 3 (n / 3) 11
  rw [wideHome_eq]
  dsimp only
  omega

theorem wideHome_injective {n m : Nat} (h : wideHome n = wideHome m) : n = m := by
  rw [wideHome_eq, wideHome_eq, Prod.mk.injEq] at h
  obtain ⟨hstack, hhigh⟩ := h
  have hn := foldBits_lt 3 (n / 3) 11
  have hm := foldBits_lt 3 (m / 3) 11
  have hfold : foldBits 3 (n / 3) 11 = foldBits 3 (m / 3) 11 := by omega
  have hthird : n / 3 = m / 3 := eq_of_foldBits_eq hfold hhigh
  omega

theorem nearHome_injective {p n m : Nat} (h : nearHome p n = nearHome p m) : n = m := by
  obtain ⟨hstack, hhalf⟩ := Prod.mk.inj h
  have hshift : ∀ k, n / 2 ^ (k + 1) = m / 2 ^ (k + 1) := fun k => by
    rw [Nat.pow_succ', ← Nat.div_div_eq_div_mul, ← Nat.div_div_eq_div_mul, hhalf]
  have hparity : n % 2 = m % 2 := by
    have hmod : ∀ x y : Nat, (x ^^^ y) % 2 = x % 2 ^^^ y % 2 := fun x y => Nat.xor_mod_two_pow (n := 1)
    have hlow := Nat.add_left_cancel hstack
    rw [hshift 8, hshift 17, hshift 26] at hlow
    simp only [hmod] at hlow
    exact eq_of_xor_eq_xor (eq_of_xor_eq_xor (eq_of_xor_eq_xor hlow))
  omega

/-! ## Pseudo-channel, die, bank and row -/

/-- The parts of the bank number of a granule. -/
theorem bankRow_parts {w : Nat} (hw : w < 72 * 2 ^ 22) :
    (bankRow w).1 % 16 = foldBits 4 (w / 64 / 4) 5 ∧ (bankRow w).1 / 16 % 32 = w / 64 / 4 / 16 / 4096 ∧
    (bankRow w).1 / 16 / 32 = pcOf w := by
  have hbank := foldBits_lt 4 (w / 64 / 4) 5
  rw [bankRow]
  dsimp only
  omega

theorem bankRow_injective {v w : Nat} (hv : v < 72 * 2 ^ 22) (hw : w < 72 * 2 ^ 22) (h : bankRow v = bankRow w)
    (hcol : v / 64 % 4 = w / 64 % 4) : v = w := by
  obtain ⟨hbankv, hdiev, hpcv⟩ := bankRow_parts hv
  obtain ⟨hbankw, hdiew, hpcw⟩ := bankRow_parts hw
  rw [h] at hbankv hdiev hpcv
  have hrow : v / 64 / 4 / 16 % 4096 = w / 64 / 4 / 16 % 4096 := congrArg Prod.snd h
  have hbanks : v / 64 / 4 = w / 64 / 4 :=
    eq_of_foldBits_eq (b := 4) (t := 4) (hbankv.symm.trans hbankw) (by omega)
  have hpcs : v / 64 = w / 64 := by omega
  exact eq_of_foldBits_eq (b := 6) (t := 4) (hpcv.symm.trans hpcw) hpcs

/-- Settles O23: each step of the mapping folds bits of the address into a field that the rest of the address keeps recoverable. -/
theorem stackMapping : Obligations.StackMapping := by
  unfold Obligations.StackMapping
  intro fold
  have hfold : ∀ b t w, fold b t w = foldBits b w t := foldl_range_eq_foldBits
  simp only [hfold]
  refine ⟨fun n => ⟨rfl, wideHome_stack_lt n⟩, fun p n => rfl, fun pa i s hi => ?_, fun w => ⟨rfl, rfl⟩,
    fun n m => wideHome_injective, fun p n m => nearHome_injective, fun v w => bankRow_injective,
    fun w hw => ⟨foldBits_lt 6 w 5, ?_, Nat.mod_lt _ (by decide)⟩,
    by decide +kernel, by decide +kernel⟩
  · rw [homeOf, hi]
  · rw [(bankRow_parts hw).2.1]
    omega

end Sys2Proof.Machine
end

section
/-!
PROOFS. The tokens of a stack's regulators (R185): each refill adds the rate in sixteenths of a token, and loses none below the burst (O38).
-/

namespace Sys2Proof.Machine

/-- A field of another register reads as before. -/
theorem getF_setF_of_reg_ne {f g : Fld} (hr : g.reg ≠ f.reg) (k j u i x : Nat) {s : State} (h : swf 0 s.regs) :
    getF g k j (setF f u i x s) = getF g k j s :=
  congrArg g.of (readReg_writeReg_ne _ _ _ _ _ _ _ s h (regKey_ne hr _ _ _ _))

theorem stack_putStack_same {s : State} (hs : Sound s) (st : Nat) (k : Stack) : (s.putStack st k).stack st = k :=
  (stack_putStack s st st k hs.stks).trans (if_pos rfl)

theorem Sound.refill {s : State} (hs : Sound s) (st k : Nat) : Sound (refill st k s) :=
  (keep_refill st k s (Keep.refl s)).sound hs

/-! ## One refill -/

section
variable {s : State} (hs : Sound s) (st k : Nat)
include hs

/-- Rate and burst are not changed by a refill. -/
theorem getF_refill_other {g : Fld} (hr : g.reg ≠ .STK_REG_LEVEL) : getF g st k (refill st k s) = getF g st k s :=
  getF_setF_of_reg_ne hr st k st k _ (s := s.putStack ..) hs.regs

theorem level_refill : getF F.STK_REG_LEVEL_LEVEL st k (refill st k s) =
    min (getF F.STK_REG_BURST st k s) (getF F.STK_REG_LEVEL_LEVEL st k s +
      (sget 0 (s.stack st).frac k + getF F.STK_REG_RATE st k s) / 16) % 2 ^ F.STK_REG_LEVEL_LEVEL.w :=
  getF_setF (by decide) st k _ (s.putStack ..) hs.regs

theorem frac_refill_eq_sput : ((refill st k s).stack st).frac =
    sput 0 (s.stack st).frac k ((sget 0 (s.stack st).frac k + getF F.STK_REG_RATE st k s) % 16) :=
  congrArg Stack.frac (stack_putStack_same hs st _)

theorem frac_refill (hfrac : swf 0 (s.stack st).frac) :
    sget 0 ((refill st k s).stack st).frac k = (sget 0 (s.stack st).frac k + getF F.STK_REG_RATE st k s) % 16 := by
  rw [frac_refill_eq_sput hs, sget_sput _ _ _ _ _ hfrac, if_pos rfl]

end

/-! ## Refills with room -/

/-- The sixteenths of a token that a regulator holds. -/
def sixteenths (st k : Nat) (s : State) : Nat := 16 * getF F.STK_REG_LEVEL_LEVEL st k s + sget 0 (s.stack st).frac k

/-- A refill with room below the burst loses nothing of the rate. -/
theorem sixteenths_refill {s : State} (hs : Sound s) {st k : Nat} (hfrac : swf 0 (s.stack st).frac)
    (hroom : sixteenths st k s + getF F.STK_REG_RATE st k s < 16 * getF F.STK_REG_BURST st k s) :
    sixteenths st k (refill st k s) = sixteenths st k s + getF F.STK_REG_RATE st k s := by
  have hburst : getF F.STK_REG_BURST st k s < 2 ^ F.STK_REG_LEVEL_LEVEL.w := getF_lt F.STK_REG_BURST st k s
  rw [sixteenths] at hroom
  rw [sixteenths, level_refill hs, frac_refill hs st k hfrac, Nat.min_eq_right (by omega), Nat.mod_eq_of_lt (by omega), sixteenths]
  omega

/-- `n` refills of a regulator. -/
abbrev refills (st k n : Nat) (s : State) : State := (List.range n).foldl (fun z _ => refill st k z) s

/-- Refills with room gain their rate each, and keep what the next one needs. -/
theorem refills_gain {s : State} (hs : Sound s) {st k : Nat} (hfrac : swf 0 (s.stack st).frac) (hheld : sget 0 (s.stack st).frac k < 16)
    {n : Nat} (hroom : sixteenths st k s + n * getF F.STK_REG_RATE st k s < 16 * getF F.STK_REG_BURST st k s) :
    let t := refills st k n s
    Sound t ∧ swf 0 (t.stack st).frac ∧ sget 0 (t.stack st).frac k < 16 ∧
    getF F.STK_REG_RATE st k t = getF F.STK_REG_RATE st k s ∧ getF F.STK_REG_BURST st k t = getF F.STK_REG_BURST st k s ∧
    sixteenths st k t = sixteenths st k s + n * getF F.STK_REG_RATE st k s := by
  induction n with
  | zero => exact ⟨hs, hfrac, hheld, rfl, rfl, by rw [Nat.zero_mul]; rfl⟩
  | succ n ih =>
    rw [Nat.succ_mul, ← Nat.add_assoc] at hroom ⊢
    obtain ⟨hs', hfrac', -, hrate, hburst, hsum⟩ := ih (by omega)
    rw [refills, List.range_succ, List.foldl_append]
    refine ⟨hs'.refill st k, ?_, ?_, (getF_refill_other hs' st k (by decide)).trans hrate,
      (getF_refill_other hs' st k (by decide)).trans hburst, ?_⟩
    · rw [List.foldl_cons, List.foldl_nil, frac_refill_eq_sput hs']
      exact swf_sput _ _ _ _ hfrac'
    · rw [List.foldl_cons, List.foldl_nil, frac_refill hs' st k hfrac']
      exact Nat.mod_lt _ (by decide)
    · exact (sixteenths_refill hs' hfrac' (by rw [hsum, hrate, hburst]; exact hroom)).trans (by rw [hsum, hrate])

/-- Settles O38: sixteen refills with room add sixteen times the rate in sixteenths. -/
theorem tokensRefilled : Obligations.TokensRefilled := by
  intro st k s hs hheld hfrac rate burst frac level t
  refine ⟨level_refill hs st k, frac_refill hs st k hfrac, fun hroom hzero => ?_⟩
  intro u
  have hstart : sixteenths st k s = 16 * level := congrArg (16 * level + ·) hzero
  obtain ⟨-, -, hheld', -, -, hsum⟩ := refills_gain (n := 16) hs hfrac hheld (by rw [hstart]; omega)
  have hend : 16 * getF F.STK_REG_LEVEL_LEVEL st k u + sget 0 (u.stack st).frac k = 16 * level + 16 * rate := by
    rw [← hstart]
    exact hsum
  have hheldu : sget 0 (u.stack st).frac k < 16 := hheld'
  omega

end Sys2Proof.Machine
end

section
/-!
PROOFS. Reads, writes and atomics at their home in stacked DRAM (R161, R180, R386): what a granule without an error holds is read as it
was written, and no other byte moves (O24).
-/

namespace Sys2Proof.Machine

/-! ## Bytes of a memory -/

theorem getBytes_add (l : List Host.Cell) (a n m : Nat) : getBytes l a (n + m) = getBytes l a n + getBytes l (a + n) m * 256 ^ n := by
  induction m with
  | zero => simp [getBytes]
  | succ m ih => 
    rw [← Nat.add_assoc, getBytes, ih, getBytes, Nat.add_mul, Nat.mul_assoc, ← Nat.pow_add, Nat.add_comm m n, Nat.add_assoc a n m,
      Nat.add_assoc]

/-- Bytes in the middle of a run of bytes. -/
theorem getBytes_middle (l : List Host.Cell) (a : Nat) {r n k : Nat} (h : r + n ≤ k) :
    getBytes l a k / 256 ^ r % 256 ^ n = getBytes l (a + r) n := by
  obtain ⟨m, rfl⟩ := Nat.exists_eq_add_of_le h
  have hpos : ∀ i, 0 < 256 ^ i := fun i => Nat.pow_pos (by decide)
  rw [Nat.add_assoc, getBytes_add, Nat.add_mul_div_right _ _ (hpos r), Nat.div_eq_of_lt (getBytes_lt ..), Nat.zero_add, getBytes_add,
    Nat.add_mul_mod_self_right, Nat.mod_eq_of_lt (getBytes_lt ..)]

/-- Byte `j` of granule `i` of a value is byte 16 i + j of it. -/
theorem byte_of_granule (v i : Nat) {j : Nat} (hj : j < 16) :
    BitVec.ofNat 8 (v / 2 ^ (128 * i) % 2 ^ 128 / 256 ^ j) = BitVec.ofNat 8 (v / 256 ^ (16 * i + j)) := by
  apply BitVec.eq_of_getLsbD_eq
  intro k hk
  have h256 : ∀ m : Nat, 256 ^ m = 2 ^ (8 * m) := fun m => (Nat.pow_mul 2 8 m).symm
  have hin : k + 8 * j < 128 := by omega
  simp only [BitVec.getLsbD_ofNat, h256, Nat.testBit_div_two_pow, Nat.testBit_mod_two_pow, hin, decide_true, Bool.true_and,
    show k + 8 * j + 128 * i = k + 8 * (16 * i + j) by omega]

theorem testBit_granMask (mask i : Nat) {j : Nat} (hj : j < 16) : (granMask mask i).testBit j = mask.testBit (16 * i + j) := by
  rw [granMask, show (65536 : Nat) = 2 ^ 16 from rfl, Nat.testBit_mod_two_pow, Nat.testBit_div_two_pow, decide_eq_true hj,
    Bool.true_and, Nat.add_comm]

/-! ## One granule without an error -/

/-- The granule `i` places after that of byte `a`. -/
theorem granOf_memKey (st a i : Nat) : memKey st (a / 16 * 16 + 16 * i) / 16 = memKey st a / 16 + i := by
  unfold memKey
  omega

theorem memKey_eq (st a : Nat) : 16 * (memKey st a / 16) + a % 16 = memKey st a := by
  unfold memKey
  omega

section
variable {st a : Nat} {s : State} (hclean : sget 0 s.memErr (memKey st a / 16) = 0)
include hclean

theorem memGran_clean (pa : Nat) :
    memGran st a pa s = (some (BitVec.ofNat 128 (getBytes s.mem (16 * (memKey st a / 16)) 16)), s) := by
  rw [memGran, hclean, guardDecode_syndrome_zero]
  simp

theorem memBad_clean : memBad st a s = false := by
  rw [memBad, hclean, guardDecode_syndrome_zero]
  rfl

/-- A write to a granule without an error merges with the bytes that it holds. -/
theorem memWriteGran_clean (harm : bitF F.MGT_ERR_INJ_CTL_ARM 0 0 s = false) (pa mask v : Nat) :
    let A := 16 * (memKey st a / 16)
    memWriteGran st a pa mask v s = { s with
      mem := putBytes (putBytes s.mem A 16 65535 (getBytes s.mem A 16)) A 16 mask v,
      memErr := sput 0 s.memErr (memKey st a / 16) 0,
      stks := (memWriteGran st a pa mask v s).stks } := by
  intro A
  simp only [memWriteGran, writePattern_disarmed harm, hclean, toNat_residue_zero, Nat.xor_zero]
  split <;> rfl

end

/-! ## A write of granules without an error -/

/-- `t` is `s` with those bytes of `v` written from byte key `A` on that `sel` selects: no other byte moves, and no granule's error does. -/
structure Wrote (A v : Nat) (sel : Nat → Prop) [DecidablePred sel] (s t : State) : Prop where
  bytes : ∀ y, sget 0 t.mem y = if A ≤ y ∧ sel (y - A) then BitVec.ofNat 8 (v / 256 ^ (y - A)) else sget 0 s.mem y
  errors : ∀ g, sget 0 t.memErr g = sget 0 s.memErr g
  frame : t = { s with mem := t.mem, memErr := t.memErr, stks := t.stks }

theorem Wrote.armed {A v : Nat} {sel : Nat → Prop} [DecidablePred sel] {s t : State} (h : Wrote A v sel s t) :
    bitF F.MGT_ERR_INJ_CTL_ARM 0 0 t = bitF F.MGT_ERR_INJ_CTL_ARM 0 0 s :=
  (congrArg (bitF F.MGT_ERR_INJ_CTL_ARM 0 0) h.frame :)

/-- The write of one granule without an error. -/
theorem wrote_memWriteGran {st a : Nat} {s : State} (hs : Sound s) (harm : bitF F.MGT_ERR_INJ_CTL_ARM 0 0 s = false)
    (hclean : sget 0 s.memErr (memKey st a / 16) = 0) (pa mask v : Nat) :
    Wrote (16 * (memKey st a / 16)) v (fun j => j < 16 ∧ mask.testBit j = true) s (memWriteGran st a pa mask v s) := by
  have hwrite := memWriteGran_clean hclean harm pa mask v
  refine ⟨fun y => ?_, fun g => ?_, ?_⟩
  · have hsel (p : Prop) : 16 * (memKey st a / 16) ≤ y ∧ y < 16 * (memKey st a / 16) + 16 ∧ p ↔
        16 * (memKey st a / 16) ≤ y ∧ y - 16 * (memKey st a / 16) < 16 ∧ p := by
      refine and_congr_right fun h => and_congr_left fun _ => ?_
      omega
    rw [congrArg State.mem hwrite]
    dsimp only
    rw [sget_putBytes (swf_putBytes _ _ _ _ _ hs.mem), sget_putBytes_getBytes hs.mem]
    simp only [hsel]
  · rw [congrArg State.memErr hwrite]
    dsimp only
    rw [sget_sput _ _ _ _ _ hs.memErr]
    split
    · next h => rw [h, hclean]
    · rfl
  · rw [hwrite]

section
variable {st a n : Nat} {s : State} (hclean : ∀ i < n, sget 0 s.memErr (memKey st a / 16 + i) = 0)
include hclean

theorem memMeetsBad_clean (mask : Nat) {i : Nat} (hi : i < n) : memMeetsBad st (a / 16 * 16) mask i s = false := by
  rw [memMeetsBad, memBad_clean (by rw [granOf_memKey]; exact hclean i hi), Bool.and_false]

theorem memBlockBad_clean (mask i : Nat) : memBlockBad st (a / 16 * 16) n mask i s = false := by
  refine List.any_eq_false.mpr fun j hj => ?_
  rw [memMeetsBad_clean hclean mask (List.mem_range.mp hj), Bool.and_false]
  exact Bool.false_ne_true

/-- Each granule of a masked write is written where the mask selects any of its bytes. -/
theorem memStoreGran_clean (pa : Nat) (w : Who) (mask v : Nat) {i : Nat} (hi : i < n) (z : State) :
    memStoreGran st (a / 16 * 16) pa w n mask v i s z = if granMask mask i = 0 then z
      else memWriteGran st (a / 16 * 16 + 16 * i) (pa + 16 * i) (granMask mask i) (v / 2 ^ (128 * i) % 2 ^ 128) z := by
  rw [memStoreGran, memMeetsBad_clean hclean mask hi, memBlockBad_clean hclean mask i]
  rfl

/-- One granule of a masked write. -/
theorem wrote_memStoreGran (pa : Nat) (w : Who) (mask v : Nat) {i : Nat} (hi : i < n) {z : State} (hz : Sound z)
    (harm : bitF F.MGT_ERR_INJ_CTL_ARM 0 0 z = false) (herr : ∀ g, sget 0 z.memErr g = sget 0 s.memErr g) :
    Wrote (16 * (memKey st a / 16)) v (fun j => 16 * i ≤ j ∧ j < 16 * i + 16 ∧ mask.testBit j = true) z
      (memStoreGran st (a / 16 * 16) pa w n mask v i s z) := by
  rw [memStoreGran_clean hclean pa w mask v hi]
  split
  · next hzero =>
    refine ⟨fun y => (if_neg ?_).symm, fun _ => rfl, rfl⟩
    rintro ⟨-, hlo, hhi, hbit⟩
    have hoff := testBit_granMask mask i (j := y - 16 * (memKey st a / 16) - 16 * i) (by omega)
    rw [hzero, Nat.zero_testBit, Nat.add_sub_cancel' hlo, hbit] at hoff
    exact Bool.false_ne_true hoff
  · have hkey := granOf_memKey st a i
    obtain ⟨hbytes, herrors, hframe⟩ := wrote_memWriteGran (st := st) (a := a / 16 * 16 + 16 * i) hz harm
      (by rw [hkey, herr, hclean i hi]) (pa + 16 * i) (granMask mask i) (v / 2 ^ (128 * i) % 2 ^ 128)
    rw [hkey] at hbytes
    refine ⟨fun y => (hbytes y).trans ?_, herrors, hframe⟩
    by_cases hy : 16 * (memKey st a / 16) + 16 * i ≤ y ∧ y < 16 * (memKey st a / 16) + 16 * i + 16
    · have hj : y - 16 * (memKey st a / 16 + i) < 16 := by omega
      have hpos : 16 * i + (y - 16 * (memKey st a / 16 + i)) = y - 16 * (memKey st a / 16) := by omega
      have hbase : 16 * (memKey st a / 16) ≤ y := by omega
      have hlo : 16 * i ≤ y - 16 * (memKey st a / 16) := by omega
      have hhi : y - 16 * (memKey st a / 16) < 16 * i + 16 := by omega
      have hgran : 16 * (memKey st a / 16 + i) ≤ y := by omega
      rw [testBit_granMask mask i hj, byte_of_granule v i hj, hpos]
      simp only [hj, hbase, hlo, hhi, hgran, true_and]
    · rw [if_neg (by omega), if_neg (by omega)]

end

theorem Wrote.none {A v : Nat} {sel : Nat → Prop} [DecidablePred sel] (hnone : ∀ j, ¬sel j) (s : State) : Wrote A v sel s s :=
  ⟨fun _ => (if_neg fun h => hnone _ h.2).symm, fun _ => rfl, rfl⟩

/-- A write after another of the same value at the same place is one of the bytes of both. -/
theorem Wrote.trans {A v : Nat} {p q sel : Nat → Prop} [DecidablePred p] [DecidablePred q] [DecidablePred sel] {s t u : State}
    (h : Wrote A v p s t) (g : Wrote A v q t u) (hsel : ∀ j, sel j ↔ p j ∨ q j) : Wrote A v sel s u := by
  refine ⟨fun y => ?_, fun k => (g.errors k).trans (h.errors k), ?_⟩
  · rw [g.bytes, h.bytes]
    by_cases hq : A ≤ y ∧ q (y - A)
    · rw [if_pos hq, if_pos ⟨hq.1, (hsel _).mpr (.inr hq.2)⟩]
    · have hiff : (A ≤ y ∧ sel (y - A)) ↔ (A ≤ y ∧ p (y - A)) := by
        refine and_congr_right fun hle => (hsel _).trans (or_iff_left fun hqy => hq ⟨hle, hqy⟩)
      simp only [if_neg hq, hiff]
  · exact g.frame.trans (congrArg (fun z : State => { z with mem := u.mem, memErr := u.memErr, stks := u.stks }) h.frame)

/-- A masked write of granules without an error is performed. -/
theorem wrote_memStore {st a n : Nat} {s : State} (hs : Sound s) (harm : bitF F.MGT_ERR_INJ_CTL_ARM 0 0 s = false)
    (hclean : ∀ i < n, sget 0 s.memErr (memKey st a / 16 + i) = 0) (pa : Nat) (w : Who) (mask v : Nat) :
    (memStore st (a / 16 * 16) pa w n mask v s).1 = true ∧
    Wrote (16 * (memKey st a / 16)) v (fun j => j < 16 * n ∧ mask.testBit j = true) s
      (memStore st (a / 16 * 16) pa w n mask v s).2 := by
  have hstored : ∀ k ≤ n,
      let z := (List.range k).foldl (fun z i => memStoreGran st (a / 16 * 16) pa w n mask v i s z) s
      Sound z ∧ Wrote (16 * (memKey st a / 16)) v (fun j => j < 16 * k ∧ mask.testBit j = true) s z := by
    intro k hk
    induction k with
    | zero => exact ⟨hs, .none (fun j h => Nat.not_lt_zero j h.1) s⟩
    | succ k ih =>
      obtain ⟨hsound, hwrote⟩ := ih (by omega)
      rw [List.range_succ, List.foldl_append]
      refine ⟨(keep_memStoreGran _ _ _ _ _ _ _ _ _ _ (Keep.refl _)).sound hsound, ?_⟩
      refine hwrote.trans (wrote_memStoreGran hclean pa w mask v hk hsound (hwrote.armed.trans harm) hwrote.errors) fun j => ?_
      by_cases hbit : mask.testBit j = true
      · simp only [hbit, and_true]
        omega
      · simp [hbit]
  refine ⟨?_, (hstored n (Nat.le_refl n)).2⟩
  have hany : ((List.range n).any fun i => memMeetsBad st (a / 16 * 16) mask i s) = false :=
    List.any_eq_false.mpr fun i hi => ne_true_of_eq_false (memMeetsBad_clean hclean mask (List.mem_range.mp hi))
  rw [memStore, hany]
  rfl

/-! ## Reads and writes at a home -/

/-- The granules of `n` bytes of a stack from byte `a` hold no error. -/
def NoErrors (st a n : Nat) (s : State) : Prop := ∀ i < (a % 16 + n + 15) / 16, sget 0 s.memErr (memKey st a / 16 + i) = 0

/-- A line whose granules hold no error has none in any part of it. -/
theorem noErrors_of_line {st a n : Nat} {s : State} (hline : a % 128 + n ≤ 128)
    (h : ∀ g, sget 0 s.memErr (memKey st (a / 128 * 128) / 16 + g % 8) = 0) : NoErrors st a n s := by
  intro i hi
  have hgran : memKey st a / 16 + i = memKey st (a / 128 * 128) / 16 + (a / 16 % 8 + i) % 8 := by
    unfold memKey
    omega
  rw [hgran]
  exact h _

theorem memGrans_clean {st a m : Nat} {s : State} (hclean : ∀ i < m, sget 0 s.memErr (memKey st a / 16 + i) = 0) (pa : Nat) (w : Who) :
    memGrans st a pa w m s = (getBytes s.mem (16 * (memKey st a / 16)) (16 * m), true, s) := by
  induction m with
  | zero => rfl
  | succ m ih =>
    have hgran := memGran_clean (st := st) (a := a / 16 * 16 + 16 * m) (by rw [granOf_memKey]; exact hclean m (Nat.lt_succ_self m))
      (pa / 16 * 16 + 16 * m)
    have hlast : (BitVec.ofNat 128 (getBytes s.mem (16 * (memKey st a / 16 + m)) 16)).toNat =
        getBytes s.mem (16 * (memKey st a / 16) + 16 * m) 16 := by
      rw [BitVec.toNat_ofNat, ← Nat.mul_add]
      exact Nat.mod_eq_of_lt (getBytes_lt _ _ 16)
    rw [memGrans, ih fun i hi => hclean i (by omega), hgran, granOf_memKey, Nat.mul_succ 16 m, getBytes_add, Nat.pow_mul 256 16, ← hlast,
      Nat.pow_mul 2 128]

/-- A read of bytes without an error returns them, and changes nothing. -/
theorem memRead_clean {st a n : Nat} {s : State} (hclean : NoErrors st a n s) (pa : Nat) (w : Who) :
    memRead st a pa w n s = (some (getBytes s.mem (memKey st a) n), s) := by
  have h256 : ∀ k, 2 ^ (8 * k) = 256 ^ k := fun k => Nat.pow_mul 2 8 k
  rw [memRead, memGrans_clean hclean]
  simp only [if_true, h256]
  rw [getBytes_middle _ _ (by omega), memKey_eq]

/-- A write of `n` bytes at a home whose granules hold no error: it is performed there, no other byte moves, and no granule's error does. -/
theorem homeWrite_clean {h : Home} {n : Nat} {s : State} (hs : Sound s) (harm : bitF F.MGT_ERR_INJ_CTL_ARM 0 0 s = false)
    (hclean : NoErrors h.stack h.addr n s) (pa : Nat) (w : Who) (v : Nat) :
    let z := homeWrite h pa w n (2 ^ n - 1) v s
    let b := memKey h.stack h.addr
    z.1 = true ∧
    (∀ y, sget 0 z.2.mem y = if b ≤ y ∧ y < b + n then BitVec.ofNat 8 (v / 256 ^ (y - b)) else sget 0 s.mem y) ∧
    (∀ g, sget 0 z.2.memErr g = sget 0 s.memErr g) ∧
    z.2 = { s with mem := z.2.mem, memErr := z.2.memErr, regs := z.2.regs, stks := z.2.stks } := by
  intro z b
  obtain ⟨hdone, hbytes, herrors, hframe⟩ :=
    wrote_memStore hs harm hclean (pa / 16 * 16) w (locMask h.addr n) (v * 2 ^ (8 * (h.addr % 16)))
  refine ⟨hdone, fun y => (hbytes y).trans ?_, herrors, ?_⟩
  · have hb := memKey_eq h.stack h.addr
    simp only [testBit_locMask]
    by_cases hy : b ≤ y ∧ y < b + n
    · have hpos : y - 16 * (memKey h.stack h.addr / 16) = (y - b) + h.addr % 16 := by omega
      rw [if_pos hy, if_pos (by omega), hpos, Nat.pow_add, show 256 ^ (h.addr % 16) = 2 ^ (8 * (h.addr % 16)) from (Nat.pow_mul 2 8 _).symm,
        Nat.mul_div_mul_right _ _ (Nat.two_pow_pos _)]
    · rw [if_neg hy, if_neg (by omega)]
  · exact congrArg (fun t : State => { t with regs := z.2.regs }) hframe

/-- Bytes of a memory that were written from a value make up that value. -/
theorem getBytes_of_written {l : List Host.Cell} {b n v : Nat}
    (h : ∀ y, b ≤ y ∧ y < b + n → sget 0 l y = BitVec.ofNat 8 (v / 256 ^ (y - b))) : getBytes l b n = v % 256 ^ n := by
  refine getBytes_eq_mod fun j hj => ?_
  rw [h _ (by omega), BitVec.toNat_ofNat, Nat.add_sub_cancel_left]

theorem countRow_frame (h : Home) (s : State) : countRow h s = { s with regs := (countRow h s).regs, stks := (countRow h s).stks } := by
  unfold countRow
  dsimp only
  split <;> rfl

theorem bitF_countRow {g : Fld} (hhit : g.reg ≠ .STK_ROW_HIT) (hmiss : g.reg ≠ .STK_ROW_MISS) (u i : Nat) (h : Home) {s : State}
    (hs : Sound s) : bitF g u i (countRow h s) = bitF g u i s := by
  unfold countRow bitF
  dsimp only
  split
  · rw [incF, getF_setF_of_reg_ne hhit _ _ _ _ _ hs.regs]
  · rw [incF, getF_setF_of_reg_ne hmiss _ _ _ _ _ (s := s.putStack ..) hs.regs]
    rfl

theorem Sound.countRow {s : State} (hs : Sound s) (h : Home) : Sound (countRow h s) := (keep_countRow h s (Keep.refl s)).sound hs

/-- An atomic at an aligned home whose granules hold no error. -/
theorem homeAtomic_clean {h : Home} {a : Atom} {s : State} (halign : h.addr % a.bytes = 0) (hclean : NoErrors h.stack h.addr a.bytes s)
    (pa : Nat) (w : Who) :
    let old := getBytes s.mem (memKey h.stack h.addr) a.bytes
    homeAtomic h pa w a s = (some old, incF F.STK_ATOMIC_COUNT h.stack 0 1
      (homeWrite h pa w a.bytes (2 ^ a.bytes - 1) (a.apply old) (countRow h s)).2) := by
  intro old
  have hmem : (countRow h s).mem = s.mem := (congrArg State.mem (countRow_frame h s) :)
  have herr : NoErrors h.stack h.addr a.bytes (countRow h s) := fun i hi => by
    rw [congrArg State.memErr (countRow_frame h s)]
    exact hclean i hi
  simp only [homeAtomic, halign, Nat.sub_zero, memRead_clean herr, hmem]
  rfl

/-- Settles O24: a write of granules without an error changes just the bytes that its mask selects, and a read joins those bytes again. -/
theorem dramReadAfterWrite : Obligations.DramReadAfterWrite := by
  intro h pa n v w s hs harm hn hline hnone b t
  have hclean : NoErrors h.stack h.addr n s := noErrors_of_line hline hnone
  obtain ⟨hdone, hbytes, herrors, hframe⟩ := homeWrite_clean hs harm hclean pa w v
  refine ⟨hdone, ?_, fun y hy => (hbytes y).trans (if_neg (by omega)), hframe, fun a ha halign => ?_⟩
  · have hcleant : NoErrors h.stack h.addr n t := fun i hi => (herrors _).trans (hclean i hi)
    have hread : (homeRead h pa w n t).1 = some (getBytes t.mem b n) := congrArg Prod.fst (memRead_clean hcleant pa w)
    rw [hread, getBytes_of_written fun y hy => (hbytes y).trans (if_pos hy)]
  · subst ha
    intro z
    have hz : z = _ := homeAtomic_clean halign hclean pa w
    have hcleanr : NoErrors h.stack h.addr a.bytes (countRow h s) := fun i hi => by
      rw [congrArg State.memErr (countRow_frame h s)]
      exact hclean i hi
    have harmr := (bitF_countRow (by decide) (by decide) 0 0 h hs).trans harm
    obtain ⟨-, hbytesz, -, -⟩ := homeWrite_clean (hs.countRow h) harmr hcleanr pa w (a.apply (getBytes s.mem b a.bytes))
    have hmem : (countRow h s).mem = s.mem := (congrArg State.mem (countRow_frame h s) :)
    rw [hmem] at hbytesz
    rw [hz]
    exact ⟨rfl, getBytes_of_written fun y hy => (hbytesz y).trans (if_pos hy), fun y hy => (hbytesz y).trans (if_neg (by omega))⟩

end Sys2Proof.Machine
end

section
/-!
PROOFS. Plain requests for stacked DRAM (R148, R168, R176, R177, R181, R182, R186, R192, R193, R332): how one reaches its controller, which
one its queue serves next, and how it finishes (O25).
-/

namespace Sys2Proof.Machine

/-! ## At the controller -/

theorem isOrdered_plain {r : Req} (h : r.atom = none) (s : State) : isOrdered r s = false := by
  rw [isOrdered, isLockedAdd, h]
  rfl

/-- A read accepted is queued. -/
theorem accept_read {r : Req} (ha : r.atom = none) (hw : r.write = false) (h : Home) (s : State) :
    accept r h s = netPut { r with st := .queued, tick := s.tick } s := by
  rw [accept, ha]
  exact if_neg (ne_true_of_eq_false hw)

/-- A write accepted is performed, and queued for its acknowledgement. -/
theorem accept_write {r : Req} (ha : r.atom = none) (hw : r.write = true) (h : Home) (s : State) :
    accept r h s =
      let z := homeWrite h r.pa r.who r.len r.mask.toNat r.data.toNat s
      netPut { r with st := .queued, tick := s.tick, status := if z.1 then .ok else .dataLost } z.2 := by
  rw [accept, ha]
  exact if_pos hw

/-! ## How a request reaches its controller -/

theorem exec_dramRequest_direct {q : DramReq} (ha : q.atom = none) (s : State) :
    exec (.dramRequest (.direct q)) s = .next (atHome (reqOf q s.tick) (underWay (reqOf q s.tick) s)) :=
  congrArg Host.Outcome.next (if_pos (congrArg Option.isNone ha))

/-- A queued read served: it completes with the bytes at its home, or DATA_LOST (R168, R182). -/
def serveRead (r : Req) (h : Home) (s : State) : State :=
  let z := homeRead h r.pa r.who r.len s
  match z.1 with
  | some v => complete r .ok (BitVec.ofNat 1024 v) z.2
  | none => complete r .dataLost 0 z.2

/-- The halves that the processor die answers dirty, written back. -/
def putHalves (h : Home) (pa : Nat) (offs : List Nat) (lo hi : Option (BitVec 512)) (z : State) : State :=
  if 2 ≤ offs.length then putHalf h (offs.getD 1 0) pa hi (putHalf h (offs.getD 0 0) pa lo z) else putHalf h (offs.getD 0 0) pa lo z

theorem putHalves_one {offs : List Nat} (hone : offs.length < 2) (h : Home) (pa : Nat) (lo hi : Option (BitVec 512)) (z : State) :
    putHalves h pa offs lo hi z = putHalf h (offs.headD 0) pa lo z := by
  rw [putHalves, if_neg (by omega), List.headD_eq_head?_getD, List.getD_eq_getElem?_getD, List.head?_eq_getElem?]

theorem putHalves_two (a o : Nat) (t : List Nat) (h : Home) (pa : Nat) (lo hi : Option (BitVec 512)) (z : State) :
    putHalves h pa (a :: o :: t) lo hi z = putHalf h o pa hi (putHalf h a pa lo z) :=
  if_pos (by simp)

section
variable {id : Nat} {r : Req} {s : State} (hget : netGet id s = some r)
include hget

/-- A request under way for stacked DRAM of this package, behind another or not. -/
theorem arriving_under (hdram : r.atDram s = true) :
    arriving (.under id) s = (if (reqStack r s).any fun st => onItsWay r st s then none else some r, s) := by
  simp only [arriving, hget, hdram, if_true]

theorem exec_dramRequest_under_first (hdram : r.atDram s = true) (ha : r.atom = none)
    (hfirst : ((reqStack r s).any fun st => onItsWay r st s) = false) : exec (.dramRequest (.under id)) s = .next (atHome r s) := by
  refine congrArg Host.Outcome.next ?_
  rw [dramRequest, arriving_under hget hdram, hfirst]
  exact if_pos (by rw [ha]; rfl)

theorem exec_dramRequest_under_behind (hdram : r.atDram s = true)
    (hbehind : ((reqStack r s).any fun st => onItsWay r st s) = true) : exec (.dramRequest (.under id)) s = .next s := by
  refine congrArg Host.Outcome.next ?_
  rw [dramRequest, arriving_under hget hdram, hbehind]
  rfl

/-! ## How a request finishes -/

theorem writeAck_served {h : Home} (hst : r.st = .queued) (hw : r.write = true) (hh : homeOf r.pa s = some h)
    (hnext : servesNext id h s = true) : writeAck id s = complete r r.status 0 (countRow h s) := by
  simp only [writeAck, hget]
  rw [if_pos ⟨hst, hw, by rw [hh]; exact hnext⟩, ackWrite, hh]

theorem writeAck_other (hst : r.st ≠ .queued) : writeAck id s = s := by
  simp only [writeAck, hget]
  exact if_neg fun h => hst h.1

theorem readReturn_served {h : Home} (hst : r.st = .queued) (hw : r.write = false) (hh : homeOf r.pa s = some h)
    (hgood : homeBad hostWho h s = none) (hnext : servesNext id h s = true) : readReturn id s = serveRead r h s := by
  simp only [readReturn, hget, hh]
  rw [if_pos ⟨hst, by rw [hw]; rfl⟩, if_neg (by rw [hgood]; exact Bool.false_ne_true), if_neg (by rw [hnext]; exact Bool.false_ne_true)]
  rfl

theorem readReturn_lost {h : Home} (hst : r.st = .queued) (hw : r.write = false) (hh : homeOf r.pa s = some h)
    (hbad : (homeBad hostWho h s).isSome = true) : readReturn id s = complete r .dieAbsent 0 s := by
  simp [readReturn, hget, hst, hw, hh, hbad]

theorem readReturn_other (hst : r.st ≠ .queued) : readReturn id s = s := by
  simp [readReturn, hget, hst]

theorem snoopResponse_accepted {h : Home} (hst : r.st = .snooping) (hh : homeOf r.pa s = some h) (hgood : homeBad hostWho h s = none)
    (lo hi : Option (BitVec 512)) :
    snoopResponse id lo hi s = accept r h (settleFilter h r (putHalves h r.pa (halves h r.len) lo hi s)) := by
  simp only [snoopResponse, hget, hh]
  rw [if_neg (not_not_intro hst), if_neg (by rw [hgood]; exact Bool.false_ne_true)]
  refine congrArg (fun z => accept r h (settleFilter h r z)) ?_
  match halves h r.len with
  | [] => exact (putHalves_one (by simp) ..).symm
  | [_] => exact (putHalves_one (by simp) ..).symm
  | _ :: _ :: _ => exact (putHalves_two ..).symm

theorem snoopResponse_lost {h : Home} (hst : r.st = .snooping) (hh : homeOf r.pa s = some h)
    (hbad : (homeBad hostWho h s).isSome = true) (lo hi : Option (BitVec 512)) :
    snoopResponse id lo hi s = complete r .dieAbsent 0 s := by
  simp [snoopResponse, hget, hst, hh, hbad]

theorem snoopResponse_other (hst : r.st ≠ .snooping) (lo hi : Option (BitVec 512)) : snoopResponse id lo hi s = s := by
  simp [snoopResponse, hget, hst]

end

/-- No command finishes a request that is not under way. -/
theorem unasked_commands {id : Nat} {s : State} (h : netGet id s = none) (lo hi : Option (BitVec 512)) :
    dramRequest (.under id) s = s ∧ writeAck id s = s ∧ readReturn id s = s ∧ snoopResponse id lo hi s = s := by
  simp [dramRequest, arriving, writeAck, readReturn, snoopResponse, h]

/-! ## Which request a queue serves next (R186) -/

section
variable {e : Req × Home} {q : List (Req × Home)} {s : State} (hq : e ∈ q.head?)
include hq

theorem pcNext_oldest (hlong : e.1.tick + 50 ≤ s.tick) : pcNext q s = some e.1.id := by
  obtain ⟨t, rfl⟩ := List.head?_eq_some_iff.mp hq
  exact if_pos hlong

theorem pcNext_hit (hshort : s.tick < e.1.tick + 50) {x : Req × Home} (hx : (q.find? fun x => rowHit x.2 s) = some x) :
    pcNext q s = some x.1.id := by
  obtain ⟨t, rfl⟩ := List.head?_eq_some_iff.mp hq
  rw [pcNext, if_neg (Nat.not_le_of_lt hshort), hx]

theorem pcNext_noHit (hnone : (q.find? fun x => rowHit x.2 s) = none) : pcNext q s = some e.1.id := by
  obtain ⟨t, rfl⟩ := List.head?_eq_some_iff.mp hq
  rw [pcNext, hnone, ite_self]

end

/-- Settles O25: each request by what its controller finds, and each finishing command by the state of the request it names. -/
theorem dramRequests : Obligations.DramRequests := by
  refine ⟨fun q s ha => ?_, fun q s => ⟨rfl, fun e he => ⟨pcNext_oldest he, fun hshort => ⟨fun x => pcNext_hit he hshort,
    pcNext_noHit he⟩⟩⟩, fun id s => ⟨fun r hget => ?_, fun hnone lo hi => ?_⟩⟩
  · intro r s1 out
    have hatom : r.atom = none := ha
    have hout : out = .next (atHome r s1) := exec_dramRequest_direct ha s
    rw [hout]
    refine ⟨fun hh => congrArg _ (atHome_gone hh), fun h hh => ⟨fun st hb => congrArg _ (atHome_refused hh hb), fun hb => ?_,
      fun hb => ?_⟩⟩ <;>
      have hreg := atHome_regulated (s := s1) hh hb (isOrdered_plain hatom s1)
    · exact fun hadmit => congrArg _ (hreg.trans (if_neg (ne_true_of_eq_false hadmit)))
    · intro hadmit s2
      have hadm : atHome r s1 = admitted r h s1 := hreg.trans (if_pos hadmit)
      refine ⟨fun hsrc hm => congrArg _ (hadm.trans (admitted_snooping hsrc hm)), fun hm => ?_⟩
      have hacc : atHome r s1 = accept r h s2 := hadm.trans (admitted_accepted hm)
      exact ⟨fun hw => congrArg _ (hacc.trans (accept_read hatom hw h s2)),
        fun hw => congrArg _ (hacc.trans (accept_write hatom hw h s2))⟩
  · refine ⟨fun hst hloc hdram hatom => ?_, fun h hst hw hh hnext => congrArg _ (writeAck_served hget hst hw hh hnext),
      fun h hst hw hh => ⟨fun hgood hnext => congrArg _ (readReturn_served hget hst hw hh hgood hnext),
        fun hbad => congrArg _ (readReturn_lost hget hst hw hh hbad)⟩,
      fun h lo hi hst hh => ⟨fun hgood => congrArg _ (snoopResponse_accepted hget hst hh hgood lo hi),
        fun hbad => congrArg _ (snoopResponse_lost hget hst hh hbad lo hi)⟩, fun hst lo hi => ?_⟩
    · have hat : r.atDram s = true := by simp [Req.atDram, hst, hloc, hdram]
      refine ⟨fun hfirst => exec_dramRequest_under_first hget hat hatom ?_, fun st hstack hway =>
        exec_dramRequest_under_behind hget hat (by rw [hstack]; exact hway)⟩
      cases hstack : reqStack r s with
      | none => rfl
      | some st => exact hfirst st hstack
    · have hq : r.st ≠ .queued := by rcases hst with h | h <;> rw [h] <;> decide
      have hs : r.st ≠ .snooping := by rcases hst with h | h <;> rw [h] <;> decide
      exact ⟨congrArg _ (writeAck_other hget hq), congrArg _ (readReturn_other hget hq), congrArg _ (snoopResponse_other hget hs lo hi)⟩
  · obtain ⟨hreq, hack, hret, hsnoop⟩ := unasked_commands hnone lo hi
    exact ⟨congrArg _ hreq, congrArg _ hack, congrArg _ hret, congrArg _ hsnoop⟩

end Sys2Proof.Machine
end

section
/-!
PROOFS. The region table (R175, R176, R193, R278): what becomes of a write of an entry, how an entry is invalidated, and how a fault is
cleared (O36).
-/

namespace Sys2Proof.Machine

/-- Another write or invalidation of the region table is under way. -/
def RegionBusy (s : State) : Prop := s.regClear ≠ none ∨ s.cyc < s.regBusy

theorem regionBusy_iff {s : State} : (s.regClear.isSome || decide (s.cyc < s.regBusy)) = true ↔ RegionBusy s := by
  rw [Bool.or_eq_true, decide_eq_true_eq, Option.isSome_iff_ne_none, RegionBusy]

theorem busy_viewRegionCtl (s : State) : F.STK_REGION_CTL_BUSY.of (viewRegionCtl s) = 1 ↔ RegionBusy s := by
  rw [viewRegionCtl, Fld.of_put (by decide), ← regionBusy_iff]
  split
  · next h => exact iff_of_true rfl h
  · next h => exact iff_of_false (by decide) h

/-- Whether entry `i` holding `n` would overlap another valid entry. -/
def regionHits (i : Nat) (n : BitVec 64) (s : State) : Bool :=
  (List.range 64).any fun j => decide (j ≠ i) && bitF F.STK_REGION_VALID 0 j s && regionsOverlap n (readReg .STK_REGION 0 j s)

theorem exec_stkRegionWrite_direct {i : Fin 64} {s : State} (h : CsrAt.isHeld ⟨.STK_REGION, 0, i.val⟩ s = false) (v : BitVec 64) :
    exec (.stkRegionWrite i v) s = .next (regionWrite i v s) := by
  have hwhole : ∀ old : BitVec 64, v &&& BitVec.allOnes 64 ||| old &&& ~~~BitVec.allOnes 64 = v := fun old => by
    rw [BitVec.and_allOnes, BitVec.not_allOnes, BitVec.and_zero, BitVec.or_zero]
  refine congrArg Host.Outcome.next ((if_neg (ne_true_of_eq_false h)).trans ?_)
  exact congrArg (regionWrite i · s) (hwhole _)

section
variable {i : Nat} {v : BitVec 64} {s : State}

theorem regionWrite_busy (h : RegionBusy s) : regionWrite i v s = regionRefuse F.STK_REGION_CTL_BUSY_WRITE i s :=
  if_pos (regionBusy_iff.mpr h)

variable (hidle : ¬RegionBusy s)
include hidle

theorem regionWrite_valid (hvalid : bitF F.STK_REGION_VALID 0 i s = true) : regionWrite i v s =
    if F.STK_REGION_VALID.of v = 0 then { s with regClear := some i } else regionRefuse F.STK_REGION_CTL_LOCKED_WRITE i s :=
  (if_neg (mt regionBusy_iff.mp hidle)).trans (if_pos hvalid)

theorem regionWrite_invalid (hinvalid : bitF F.STK_REGION_VALID 0 i s = false) : regionWrite i v s =
    let n := clampRegion v (readReg .STK_REGION 0 i s)
    if F.STK_REGION_VALID.of v = 1 ∧ regionHits i n s = true then
      regionRefuse F.STK_REGION_CTL_OVERLAP i (writeReg .STK_REGION 0 i (F.STK_REGION_VALID.put n 0) { s with regBusy := s.cyc + 1 })
    else writeReg .STK_REGION 0 i n { s with regBusy := s.cyc + 1 } :=
  (if_neg (mt regionBusy_iff.mp hidle)).trans (if_neg (ne_true_of_eq_false hinvalid))

end

/-- Settles O36: a write by whether the table is busy, the entry valid and the new value overlapping; the commands by their conditions. -/
theorem regionTable : Obligations.RegionTable := by
  intro i v s _ hheld old noted hit busy
  rw [exec_stkRegionWrite_direct hheld]
  refine ⟨busy_viewRegionCtl s, fun hbusy => congrArg _ (regionWrite_busy hbusy), fun hidle hvalid hv => ?_, fun hidle hvalid hv => ?_,
    fun hidle hinvalid hv hhit => ?_, fun hidle hinvalid hfree => ?_, fun hclear hnone => ?_, fun hnot => ?_, rfl⟩
  · have hne : F.STK_REGION_VALID.of v ≠ 0 := by omega
    exact congrArg _ ((regionWrite_valid hidle hvalid).trans (if_neg hne))
  · exact congrArg _ ((regionWrite_valid hidle hvalid).trans (if_pos hv))
  · exact congrArg _ ((regionWrite_invalid hidle hinvalid).trans (if_pos ⟨hv, hhit⟩))
  · refine congrArg _ ((regionWrite_invalid hidle hinvalid).trans (if_neg ?_))
    rintro ⟨hone, hhit⟩
    rcases hfree with hzero | hno
    · omega
    · exact ne_true_of_eq_false hno hhit
  · exact congrArg Host.Outcome.next (if_pos ⟨hclear, hnone⟩)
  · refine congrArg Host.Outcome.next (if_neg ?_)
    rintro ⟨hclear, hnone⟩
    rcases hnot with hother | hopen
    · exact hother hclear
    · exact ne_true_of_eq_false hnone hopen

end Sys2Proof.Machine
end

section
/-!
PROOFS. The upkeep of a stack (R185, R186, R188 to R192, R391, R395): patrol and write-back by what the granule decodes as, training by the
registers that each of its parts touches, self-refresh and the regulator period (O37).
-/

namespace Sys2Proof.Machine

/-! ## Patrol and write-back -/

/-- An uncorrectable granule gives no data, and nothing changes. -/
theorem memGran_uncorrectable {st a : Nat} {s : State} (h : guardDecode (syndrome (sget 0 s.memErr (memKey st a / 16))) = .uncorrectable)
    (pa : Nat) : memGran st a pa s = (none, s) := by
  rw [memGran, h]

theorem irq_stks (iid : Nat) (s : State) : (irq iid s).stks = s.stks := by
  unfold irq
  dsimp only
  split
  · rfl
  split
  · split <;> rfl
  · rfl

theorem logNew_stks (v : Event) (s : State) : (logNew v s).stks = s.stks := by
  have hflag : ∀ (b : Bool) (f : Fld) (u i : Nat), (flagIf b f u i s).stks = s.stks := fun b f u i => by
    unfold flagIf
    split <;> rfl
  unfold logNew
  extract_lets seq e s1 s2
  have h2 : s2.stks = s.stks := hflag ..
  split
  · exact (irq_stks _ s2).trans h2
  · exact h2

theorem logEvent_stks (v : Event) (s : State) : (logEvent v s).stks = s.stks := by
  unfold logEvent
  extract_lets w
  split
  · split
    · rfl
    · exact logNew_stks w s
  · exact logNew_stks w s

/-- Recording an uncorrectable granule as found leaves every stack. -/
theorem ueFound_stks (a : ErrAt) (sy : Nat) (s : State) : (ueFound a sy s).stks = s.stks := logEvent_stks _ _

/-- The patrol of a stack moves on to its next granule, within its pass. -/
def patrolOn (st : Nat) (s : State) : State := s.putStack st { s.stack st with patrolAt := (s.stack st).patrolAt + 1 }

section
variable {st : Nat} {s : State} (hup : stackUp st s = true) (hen : bitF F.STK_CTRL_PATROL_EN st 0 s = true)
  (hroom : (s.stack st).patrolAt + 1 < 72 * 2 ^ 26)
include hup hen hroom

theorem patrolRead_clean (hclean : sget 0 s.memErr (memKey st (16 * (s.stack st).patrolAt) / 16) = 0) :
    patrolRead st s = patrolOn st s := by
  rw [patrolRead, if_neg (by rw [hup, hen]; decide)]
  dsimp only
  rw [memGran_clean hclean]
  exact if_pos hroom

theorem patrolRead_uncorrectable
    (hbad : guardDecode (syndrome (sget 0 s.memErr (memKey st (16 * (s.stack st).patrolAt) / 16))) = .uncorrectable) :
    patrolRead st s = patrolOn st (ueFound (memErrAt st (paOfStack st (16 * (s.stack st).patrolAt) s))
      (syndrome (sget 0 s.memErr (memKey st (16 * (s.stack st).patrolAt) / 16))).code (flagF F.STK_STATUS_UE st 0 s)) := by
  rw [patrolRead, if_neg (by rw [hup, hen]; decide)]
  dsimp only
  rw [memGran_uncorrectable hbad]
  refine if_pos ?_
  dsimp only
  rw [State.stack, ueFound_stks]
  exact hroom

end

theorem ceWriteback_corrects {st key n x : Nat} {l : List Nat} {s : State} (hq : (s.stack st).writeback = key :: l)
    (hfix : guardDecode (syndrome (sget 0 s.memErr key)) = .correct n x) :
    ceWriteback st s = memWriteGran st (16 * key % 2 ^ 37) (paOfStack st (16 * key % 2 ^ 37) s) 65535
      (BitVec.ofNat 128 (getBytes s.mem (16 * key) 16) ^^^ (flipNibble (sget 0 s.memErr key) n x).setWidth 128).toNat
      (s.putStack st { s.stack st with writeback := l }) := by
  rw [ceWriteback, hq]
  dsimp only
  rw [hfix]

/-! ## Training (R190, R191) -/

/-- `t` is `s` but for its identity, its flash, and registers of units of which `p` holds. -/
structure Touches (p : Reg → Nat → Prop) (s t : State) : Prop where
  frame : t = { s with regs := t.regs, ident := t.ident, flash := t.flash }
  regs : swf 0 s.regs → swf 0 t.regs
  kept : swf 0 s.regs → ∀ r u, ¬p r u → readReg r u 0 t = readReg r u 0 s

theorem Touches.refl (p : Reg → Nat → Prop) (s : State) : Touches p s s := ⟨rfl, id, fun _ _ _ _ => rfl⟩

theorem Touches.trans {p : Reg → Nat → Prop} {s t u : State} (h : Touches p s t) (g : Touches p t u) : Touches p s u := by
  refine ⟨?_, g.regs ∘ h.regs, fun hs r k hk => (g.kept (h.regs hs) r k hk).trans (h.kept hs r k hk)⟩
  exact g.frame.trans (congrArg (fun z : State => { z with regs := u.regs, ident := u.ident, flash := u.flash }) h.frame)

theorem Touches.mono {p q : Reg → Nat → Prop} {s t : State} (h : Touches p s t) (hpq : ∀ r u, p r u → q r u) : Touches q s t :=
  ⟨h.frame, h.regs, fun hs r u hn => h.kept hs r u (mt (hpq r u) hn)⟩

theorem Touches.setF {p : Reg → Nat → Prop} {s t : State} (h : Touches p s t) {f : Fld} {u i : Nat} (hp : p f.reg u) (hi : i < 2048)
    (x : Nat) : Touches p s (setF f u i x t) := by
  refine h.trans ⟨rfl, fun ht => swf_sput _ _ _ _ ht, fun ht r k hk => readReg_writeReg_ne _ _ _ _ _ _ _ t ht fun he => hk ?_⟩
  obtain ⟨rfl, rfl, -⟩ := regKey_inj (by decide) hi he
  exact hp

theorem Touches.getF {p : Reg → Nat → Prop} {s t : State} (h : Touches p s t) (hs : swf 0 s.regs) {g : Fld} {u : Nat}
    (hn : ¬p g.reg u) : getF g u 0 t = getF g u 0 s :=
  congrArg g.of (h.kept hs g.reg u hn)

theorem touches_noIdentity (cause slot : Nat) (s : State) : Touches (fun r _ => r = .MGT_ID_STATUS) s (noIdentity cause slot s) := by
  have hident : Touches (fun r _ => r = .MGT_ID_STATUS) s { s with ident := none } := ⟨rfl, id, fun _ _ _ _ => rfl⟩
  exact ((hident.setF rfl (by decide) _).setF rfl (by decide) _).setF rfl (by decide) _

theorem touches_checkStack (st rev : Nat) (s : State) : Touches (fun r _ => r = .MGT_ID_STATUS) s (checkStack st rev s) := by
  unfold checkStack
  split
  · split
    · exact .refl _ s
    · exact touches_noIdentity ..
  · exact .refl _ s

theorem touches_faultRegions (st : Nat) {n : Nat} (hn : n ≤ 64) (s : State) :
    Touches (fun r _ => r = .STK_REGION) s (faultRegions st n s) := by
  induction n with
  | zero => exact .refl _ s
  | succ n ih =>
    have hrest := ih (by omega)
    unfold faultRegions
    dsimp only
    split
    · exact hrest.setF rfl (by omega) 1
    · exact hrest

/-- The last step that a training reaches (R190). -/
def lastStep (t : TrainRes) : Nat :=
  match t.failed with
  | none => 5
  | some i => i.val

/-- A training noted: its last step, whether it failed, and how long it took. -/
def trainNoted (st : Nat) (t : TrainRes) (s : State) : State :=
  setF F.STK_TRAIN_DURATION_US st 0 t.us.toNat (setF F.STK_TRAIN_FAILED st 0 (if t.failed.isSome then 1 else 0)
    (setF F.STK_TRAIN_LAST_STEP st 0 (lastStep t) s))

/-- The lane repairs of a stack recorded, in the flash and in its register. -/
def lanesNoted (st n : Nat) (s : State) : State :=
  setF F.STK_TRAIN_LANES_REPAIRED st 0 n { s with flash := { s.flash with lanes := lput s.flash.lanes st n } }

/-- The base die of a stack recorded, and compared with the identity record. -/
def identNoted (st : Nat) (t : TrainRes) (s : State) : State :=
  checkStack st t.rev.toNat (setF F.STK_IDENT_REVISION st 0 t.rev.toNat (setF F.STK_IDENT_DENSITY st 0 t.density.toNat
    (setF F.STK_IDENT_HEIGHT st 0 t.height.toNat (setF F.STK_IDENT_MFR st 0 t.mfr.toNat s))))

/-- A stack as it is before its state is set at the end of its training. -/
def trainRead (st : Nat) (t : TrainRes) (s : State) : State :=
  if 2 ≤ lastStep t then
    identNoted st t (lanesNoted st (laneRepairs st t.lanes.toNat s) (trainNoted st t s))
  else trainNoted st t s

theorem trainStack_eq (st : Nat) (t : TrainRes) (s : State) : trainStack st t s =
    if t.failed.isSome then faultRegions st 64 (setF F.STK_STATUS_STATE st 0 3 (trainRead st t s))
    else setF F.STK_STATUS_STATE st 0 1 (trainRead st t s) := rfl

theorem trainRead_passed {t : TrainRes} (h : t.failed = none) (st : Nat) (s : State) :
    trainRead st t s = identNoted st t (lanesNoted st (laneRepairs st t.lanes.toNat s) (trainNoted st t s)) := by
  refine if_pos ?_
  rw [lastStep, h]
  decide

theorem touches_trainNoted (st : Nat) (t : TrainRes) (s : State) : Touches (fun _ u => u = st) s (trainNoted st t s) :=
  (((Touches.refl _ s).setF rfl (by decide) _).setF rfl (by decide) _).setF rfl (by decide) _

theorem touches_lanesNoted (st n : Nat) (s : State) : Touches (fun _ u => u = st) s (lanesNoted st n s) := by
  have hflash : Touches (fun _ u => u = st) s { s with flash := { s.flash with lanes := lput s.flash.lanes st n } } :=
    ⟨rfl, id, fun _ _ _ _ => rfl⟩
  exact hflash.setF rfl (by decide) n

theorem touches_identNoted (st : Nat) (t : TrainRes) (s : State) :
    Touches (fun r u => r = .STK_IDENT ∧ u = st ∨ r = .MGT_ID_STATUS) s (identNoted st t s) := by
  refine Touches.trans ?_ ((touches_checkStack ..).mono fun _ _ h => .inr h)
  exact ((((Touches.refl _ s).setF (.inl ⟨rfl, rfl⟩) (by decide) _).setF (.inl ⟨rfl, rfl⟩) (by decide) _).setF (.inl ⟨rfl, rfl⟩)
    (by decide) _).setF (.inl ⟨rfl, rfl⟩) (by decide) _

/-- The registers that the training of a stack may touch: its own, those of the identity status and those of the region table. -/
def TrainReg (st : Nat) (r : Reg) (u : Nat) : Prop := u = st ∨ r = .MGT_ID_STATUS ∨ r = .STK_REGION

theorem touches_trainRead (st : Nat) (t : TrainRes) (s : State) : Touches (TrainReg st) s (trainRead st t s) := by
  have hnoted : Touches (TrainReg st) s (trainNoted st t s) := (touches_trainNoted st t s).mono fun _ _ h => .inl h
  unfold trainRead
  split
  · refine (hnoted.trans ((touches_lanesNoted ..).mono fun _ _ h => .inl h)).trans ((touches_identNoted ..).mono fun _ _ h => ?_)
    rcases h with ⟨-, h⟩ | h
    · exact .inl h
    · exact .inr (.inl h)
  · exact hnoted

/-- A training touches registers of its own stack, of the identity status and of the region table. -/
theorem touches_trainStack (st : Nat) (t : TrainRes) (s : State) : Touches (TrainReg st) s (trainStack st t s) := by
  have hread := touches_trainRead st t s
  rw [trainStack_eq]
  split
  · exact (hread.setF (.inl rfl) (by decide) 3).trans ((touches_faultRegions st (Nat.le_refl 64) _).mono fun _ _ h => .inr (.inr h))
  · exact hread.setF (.inl rfl) (by decide) 1

/-- A trained stack is SERVING or FAILED by its result. -/
theorem state_trainStack (st : Nat) (t : TrainRes) {s : State} (hs : swf 0 s.regs) :
    getF F.STK_STATUS_STATE st 0 (trainStack st t s) = if t.failed.isSome then 3 else 1 := by
  have hread := (touches_trainRead st t s).regs hs
  have hset : ∀ x, getF F.STK_STATUS_STATE st 0 (setF F.STK_STATUS_STATE st 0 x (trainRead st t s)) = x % 2 ^ F.STK_STATUS_STATE.w :=
    fun x => getF_setF (by decide) st 0 x _ hread
  rw [trainStack_eq]
  split
  · rw [(touches_faultRegions st (Nat.le_refl 64) _).getF (swf_sput _ _ _ _ hread) (by decide), hset]
    rfl
  · exact hset 1

/-- A stack that passes its training shows the lane repairs that the flash holds. -/
theorem lanes_trainStack (st : Nat) {t : TrainRes} (ht : t.failed = none) {s : State} (hs : swf 0 s.regs) :
    getF F.STK_TRAIN_LANES_REPAIRED st 0 (trainStack st t s) =
      laneRepairs st t.lanes.toNat s % 2 ^ F.STK_TRAIN_LANES_REPAIRED.w := by
  have hnoted := (touches_trainNoted st t s).regs hs
  have hlanes := (touches_lanesNoted st (laneRepairs st t.lanes.toNat s) (trainNoted st t s)).regs hnoted
  have hident := touches_identNoted st t (lanesNoted st (laneRepairs st t.lanes.toNat s) (trainNoted st t s))
  rw [trainStack_eq, ht, trainRead_passed ht]
  refine (getF_setF_of_reg_ne (by decide) _ _ _ _ _ (hident.regs hlanes)).trans ?_
  rw [hident.getF hlanes (by simp [F.STK_TRAIN_LANES_REPAIRED])]
  exact getF_setF (by decide) st 0 _ _ hnoted

/-- The training of one stack leaves the state and the lane repairs of another. -/
theorem getF_trainStack_ne {st k : Nat} (hk : k ≠ st) {g : Fld} (hid : g.reg ≠ .MGT_ID_STATUS) (hreg : g.reg ≠ .STK_REGION)
    (t : TrainRes) {s : State} (hs : swf 0 s.regs) : getF g k 0 (trainStack st t s) = getF g k 0 s :=
  (touches_trainStack st t s).getF hs fun h => by
    rcases h with h | h | h
    · exact hk h
    · exact hid h
    · exact hreg h

/-- Both stacks of a plot trained. -/
theorem stackTrain_effect (p : Nat) (a b : TrainRes) {s : State} (hs : swf 0 s.regs) :
    let t := stackTrain p a b s
    getF F.STK_STATUS_STATE (2 * p) 0 t = (if a.failed.isSome then 3 else 1) ∧
    getF F.STK_STATUS_STATE (2 * p + 1) 0 t = (if b.failed.isSome then 3 else 1) ∧
    (a.failed = none → getF F.STK_TRAIN_LANES_REPAIRED (2 * p) 0 t =
      laneRepairs (2 * p) a.lanes.toNat s % 2 ^ F.STK_TRAIN_LANES_REPAIRED.w) ∧
    t = { s with regs := t.regs, ident := t.ident, flash := t.flash } := by
  have hfirst := touches_trainStack (2 * p) a s
  have hboth : Touches (fun r u => TrainReg (2 * p) r u ∨ TrainReg (2 * p + 1) r u) s (stackTrain p a b s) :=
    (hfirst.mono fun _ _ h => .inl h).trans ((touches_trainStack (2 * p + 1) b _).mono fun _ _ h => .inr h)
  have hregs := hfirst.regs hs
  have hne : 2 * p ≠ 2 * p + 1 := by omega
  refine ⟨(getF_trainStack_ne hne (by decide) (by decide) b hregs).trans (state_trainStack _ a hs), state_trainStack _ b hregs,
    fun ha => (getF_trainStack_ne hne (by decide) (by decide) b hregs).trans (lanes_trainStack _ ha hs), hboth.frame⟩

/-! ## Self-refresh -/

theorem selfRefresh_serving {st : Nat} {s : State} (h : getF F.STK_STATUS_STATE st 0 s = 1) (ordered : Bool) :
    selfRefresh st ordered s = setF F.STK_STATUS_STATE st 0 2
      ((openWrites st s).foldl (fun z r => if ordered then ackWrite r z else loseWrite r z) s) :=
  if_neg (not_not_intro h)

/-- Settles O37: each command by the condition that it asks of its stack. -/
theorem stackUpkeep : Obligations.StackUpkeep := by
  intro st s hs
  refine ⟨fun hup => congrArg Host.Outcome.next (if_pos hup), rfl, fun hup hen hroom => ?_,
    fun key l n x hq hfix => congrArg Host.Outcome.next (ceWriteback_corrects hq hfix),
    fun p a b => ⟨_, rfl, stackTrain_effect p a b hs.regs⟩,
    fun hserving => ⟨congrArg Host.Outcome.next (selfRefresh_serving hserving true),
      congrArg Host.Outcome.next (selfRefresh_serving hserving false)⟩, rfl⟩
  intro a p
  exact ⟨fun hclean => congrArg Host.Outcome.next (patrolRead_clean hup hen hroom hclean),
    fun hbad => congrArg Host.Outcome.next (patrolRead_uncorrectable hup hen hroom hbad)⟩

end Sys2Proof.Machine
end

section
/-!
PROOFS. The moves of a barrow, kind by kind (R198 to R217, R258): when a move takes its next step, and what the step of each kind makes of
it (O39).
-/

namespace Sys2Proof.Machine

/-! ## A step of a move -/

section
variable {b id idx kind : Nat} {f : Prog → Move → State → Move × State} {p : Prog} {m : Move} {s : State}
  (hmove : moveOf b id idx (collect b s) = some (p, m))
include hmove

/-- A move of another kind, one that is not ready, and one of a program that has stopped or failed are left. -/
theorem stepMove_left (h : m.r.kind ≠ kind ∨ m.ready = false ∨ p.stop = true ∨ p.failed ≠ none) :
    stepMove b id idx kind f s = collect b s := by
  have hleft : m.r.kind ≠ kind ∨ !m.ready ∨ p.stop ∨ p.failed.isSome := by
    rwa [Bool.not_eq_true', Option.isSome_iff_ne_none]
  simp only [stepMove, hmove, if_pos hleft]

variable (hready : m.ready = true) (hstop : p.stop = false) (hfailed : p.failed = none)
include hready hstop hfailed

/-- A ready move of its kind takes its step, accesses what its own port reaches, and its program reads on. -/
theorem stepMove_steps {z : Move × State} (hkind : m.r.kind = kind) (hz : f p m (collect b s) = z) :
    stepMove b id idx kind f s = readMore b id (runIssue b p z.1 false z.2).2 := by
  simp only [stepMove, hmove, hkind, hready, hstop, hfailed, hz, ne_eq, not_true_eq_false, Bool.not_true, Option.isSome_none,
    Bool.false_eq_true, or_self, if_false]

end

/-! ## Addresses that a step needs -/

section
variable {b va pa : Nat} {p : Prog} {m : Move} {write : Bool} {pol : Policy} {s s1 : State}
  (hva : translate p.part.val ⟨brwAsker b, m.xid, !write, write, false, p.moveStep, va, false, false⟩ s = (.ok pa pol, s1))
include hva

theorem withAddr_ok (f : Nat → State → Move × State) : withAddr b p m va write f s = f pa s1 := by
  simp only [withAddr, hva]

/-- An address in a scratchpad; one to be written lies in the plain window. -/
theorem withT0_spad {c off : Nat} {form : Form} (hplace : placeOf pa s1 = .spad c off form) (hform : write = true → form = .plain)
    (f : Nat → Nat → Nat → State → Move × State) : withT0 b p m va write f s = f pa c off s1 := by
  have hplain : ¬(write && decide (form ≠ .plain)) = true := by
    rw [Bool.and_eq_true, decide_eq_true_eq]
    exact fun ⟨hwrite, hne⟩ => hne (hform hwrite)
  rw [withT0, withAddr_ok hva]
  simp only [hplace, if_neg hplain]

end

/-! ## COPY and TCOPY -/

/-- A completed acquire is noted in its move; of any other move nothing changes. -/
theorem acquire_cases (b : Nat) (m : Move) (s : State) :
    (acquire b m s).1 = m ∨ (acquire b m s).1 = { m with acquired := true } := by
  rw [acquire]
  split
  · exact .inr rfl
  · exact .inl rfl

theorem acquire_record (b : Nat) (m : Move) (s : State) : (acquire b m s).1.r = m.r :=
  (acquire_cases b m s).elim (congrArg Move.r) (congrArg Move.r)

theorem acquire_fb (b : Nat) (m : Move) (s : State) : (acquire b m s).1.fb = m.fb :=
  (acquire_cases b m s).elim (congrArg Move.fb) (congrArg Move.fb)

theorem acquire_buf (b : Nat) (m : Move) (s : State) : (acquire b m s).1.buf = m.buf :=
  (acquire_cases b m s).elim (congrArg Move.buf) (congrArg Move.buf)

theorem acquire_tiles (b : Nat) (m : Move) (s : State) : (acquire b m s).1.tiles = m.tiles :=
  (acquire_cases b m s).elim (congrArg Move.tiles) (congrArg Move.tiles)

/-- A COPY writes the bytes read. -/
theorem copyStep_eq (b : Nat) (p : Prog) (m : Move) (s : State) :
    let y := acquire b m s
    copyStep b p m s = (y.1.writes b y.1.r.dst y.1.r.len y.1.buf, y.2) := by
  intro y
  rw [copyStep, acquire_record, acquire_buf]

/-- A TCOPY writes the tiles read, transposed. -/
theorem tcopyStep_eq (b : Nat) (p : Prog) (m : Move) (s : State) :
    let y := acquire b m s
    let l := y.1.tiles.map fun v => (Tile.read v).xpose y.1.r.xpose
    let d := tilesBytes (l.map (·.1)) (decide (y.1.fb = .fallback))
    tcopyStep b p m s =
      (y.1.writes b (y.1.r.dst / 128 * 128) d.2 d.1, flagIf (l.any (·.2)) F.BRW_STATUS_XPOSE_IGNORED b 0 y.2) := by
  intro y l d
  rw [tcopyStep]
  simp only [d, l, y, acquire_record, acquire_fb, acquire_tiles]

/-! ## STORE and ATOMIC -/

section
variable {b : Nat} {p : Prog} {m : Move} {s : State}

/-- A STORE whose source lies in a scratchpad reads its header granule. -/
theorem storeStep_header {pa c off : Nat} {form : Form} {pol : Policy} {s1 : State} (hstage : m.stage = 0)
    (hva : translate p.part.val ⟨brwAsker b, m.xid, true, false, false, p.moveStep, m.srcVA, false, false⟩ s = (.ok pa pol, s1))
    (hplace : placeOf pa s1 = .spad c off form) :
    storeStep b p m s =
      ({ m with stage := 1, base := pa, tier := 0, tiered := true, todo := t0Segs .read c (off + 32752) 16 0 }, s1) := by
  simp only [storeStep, hstage]
  exact withT0_spad (write := false) hva hplace Bool.noConfusion _

/-- With the header read it reads the bands that the header counts. -/
theorem storeStep_bands {c off : Nat} (hstage : m.stage = 1) (hbase : windowOf (localOf m.base) = some (c, off)) :
    storeStep b p m s =
      ({ m with stage := 2, todo := t0Segs .read c off (m.header.bands * (16 * m.header.bandGran)) 16 }, s) := by
  simp only [storeStep, hstage, hbase]

/-- With the bands read it writes its tiles. -/
theorem storeStep_tiles (hstage : 2 ≤ m.stage) :
    let y := acquire b m s
    let r := storeTiles m.form m.r.count m.r.operand.toNat m.r.tileBand m.r.tileSlot m.r.xpose
    let d := tilesBytes (r.1.map (·.1)) (decide (m.fb = .fallback))
    storeStep b p m s = (y.1.writes b (m.r.dst / 128 * 128) d.2 d.1,
      flagIf r.2 F.BRW_STATUS_RUN_MISMATCH b 0 (flagIf (r.1.any (·.2)) F.BRW_STATUS_XPOSE_IGNORED b 0 y.2)) := by
  intro y r d
  obtain ⟨k, hk⟩ := Nat.exists_eq_add_of_le' hstage
  simp only [storeStep, hk]
  rfl

/-- An ATOMIC whose source lies in a scratchpad reads its operands. -/
theorem atomicStep_operands {pa c off : Nat} {form : Form} {pol : Policy} {s1 : State} (hstage : m.stage = 0)
    (hva : translate p.part.val ⟨brwAsker b, m.xid, true, false, false, p.moveStep, m.srcVA, false, false⟩ s = (.ok pa pol, s1))
    (hplace : placeOf pa s1 = .spad c off form) :
    atomicStep b p m s = ({ m with stage := 1, base := pa, tier := 0, tiered := true, cores := [64 * b + m.r.core],
                                   todo := t0Segs .read c off (m.r.len / m.r.elem * m.r.elem) 0 }, s1) := by
  simp only [atomicStep, hstage]
  exact withT0_spad (write := false) hva hplace Bool.noConfusion _

/-- With the operands read it sends its elements. -/
theorem atomicStep_elements (hstage : 1 ≤ m.stage) :
    atomicStep b p m s = ({ m with stage := 2, todo := segs [⟨.atom, true, m.r.dst / m.r.elem * m.r.elem,
      m.r.len / m.r.elem * m.r.elem, 0⟩] }, s) := by
  obtain ⟨k, hk⟩ := Nat.exists_eq_add_of_le' hstage
  simp only [atomicStep, hk]

end

/-! ## LOAD -/

/-- A LOAD whose destination lies in the plain window of a scratchpad writes its T0 form to every receiving core (R213). -/
theorem loadStep_spad {b pa c off : Nat} {p : Prog} {m : Move} {pol : Policy} {s s1 : State} :
    let y := acquire b m s
    let r := loadTiles y.1.r.xpose y.1.tiles
    translate p.part.val ⟨brwAsker b, y.1.xid, false, true, false, p.moveStep, y.1.r.dst, false, false⟩ y.2 = (.ok pa pol, s1) →
    placeOf pa s1 = .spad c off .plain → loadStep b p m s = (
      { y.1 with stage := 1, buf := t0Bytes r.1 y.1.r.count (decide (y.1.fb = .fallback)), cores := flagCores b (bedOf c) y.1.r,
                 todo := (receivers y.1.r.place (c % 64)).flatMap fun x =>
                   coreSegs (16 * r.1.h.bandGran) (64 * bedOf c + x.1) off x.2 },
      flagIf r.2.1 F.BRW_STATUS_RUN_MISMATCH b 0 (flagIf r.2.2 F.BRW_STATUS_XPOSE_IGNORED b 0 s1)) := by
  intro y r hva hplace
  exact withT0_spad hva hplace (fun _ => rfl) _

/-! ## FETCH4 -/

section
variable {b : Nat} {p : Prog} {m : Move} {s : State}

/-- A FETCH4 of no bytes fetches nothing. -/
theorem fetchStep_empty (hstage : m.stage = 0) (hlen : m.r.len = 0) :
    fetchStep b p m s = ({ m with stage := 4, cores := [64 * b + m.r.core] }, s) := by
  simp only [fetchStep, hstage, hlen, if_true]

/-- With a tag and an entry free, a FETCH4 takes the lowest tag, and its release begins (R216, R258). -/
theorem fetchStep_tag {q t pa : Nat} {pol : Policy} {s1 : State} (hstage : m.stage = 0) (hlen : m.r.len ≠ 0)
    (hq : p.storeQ = some q) (hroom : storeFull q s = false) (hidle : storeBusy q s = false)
    (htag : ((List.range 16).find? fun x => !(tagsOf (s.bed b)).contains x) = some t)
    (hva : translate p.part.val ⟨brwAsker b, m.xid, false, true, false, p.moveStep, m.r.dst, false, false⟩ s = (.ok pa pol, s1)) :
    fetchStep b p m s =
      ({ m with stage := 1, tag := some (t, s1.nextId), base := pa, rel := some s1.nextId, tiered := true, cores := [64 * b + m.r.core] },
        drainMerge b (fun _ => true) s1) := by
  simp only [fetchStep, hstage, hlen, fetchTag4, hq, htag, hroom, hidle, Bool.or_self, Bool.false_eq_true, if_false]
  exact withAddr_ok hva _

/-- With every earlier write of the bed performed, it writes its request at TAIL (R151, R258). -/
theorem fetchStep_request {q k : Nat} {t : Nat × Nat} (hstage : m.stage = 1) (hq : p.storeQ = some q) (htag : m.tag = some t)
    (hrel : m.rel = some k) (hdone : bedPerformed b k s = true) :
    fetchStep b p m s = ({ m with stage := 2, buf := storageRequest b p m t.1 m.base,
                                  todo := [⟨.write, false, storeEntry q s, 64, 0⟩] }, s) := by
  simp only [fetchStep, hstage, fetchWrite, hq, htag, hrel, hdone, if_true]

/-- With its request written, it advances TAIL. -/
theorem fetchStep_tail {q : Nat} (hstage : m.stage = 2) (hq : p.storeQ = some q) :
    fetchStep b p m s = ({ m with stage := 3 }, storeAdvance q s) := by
  simp only [fetchStep, hstage, hq]

end

/-- The entry of the merging buffer that holds the request which a move has written drains. -/
def drainRequest (b id idx : Nat) (s : State) : State :=
  match moveOf b id idx s with
  | some (_, m) => if m.r.kind = 7 ∧ m.stage = 2 then drainMerge b (fun e => m.fly.any fun f => e.owners.contains f.id) s else s
  | none => s

theorem fetch4_eq (b id idx : Nat) (s : State) : fetch4 b id idx s = drainRequest b id idx (stepMove b id idx 7 (fetchStep b) s) := rfl

/-! ## T4_DONE -/

section
variable {b tag : Nat} {p : Prog} {m : Move} {s : State} (htag : tagged b tag s = some (p, m))
include htag

theorem t4Done_error :
    t4Done b tag true s = putMove b p.id { m with tag := none, bad := some .dataLost, todo := [] } s := by
  simp only [t4Done, htag, if_true]
  rfl

theorem t4Done_ok : t4Done b tag false s = incF F.BRW_BYTES_COUNT b 4 m.r.len
    (putMove b p.id { m with tag := none, stage := 4, st := .written, acquired := true } (invShared b s)) := by
  simp only [t4Done, htag, Bool.false_eq_true, if_false]

end

/-- Settles O39: a move is left, or its program goes on with what the step of its kind gives; T4_DONE finds its move by the tag. -/
theorem barrowMoves : Obligations.BarrowMoves := by
  intro b prog idx s0 s cmd
  refine ⟨fun p m hmove => ⟨fun e he h => ?_, fun hready hstop hfailed => ?_⟩,
    fun tag p m htag => ⟨next_congr (t4Done_error htag), next_congr (t4Done_ok htag)⟩⟩
  · simp only [cmd, List.mem_cons, List.not_mem_nil, or_false] at he
    rcases he with rfl | rfl | rfl | rfl | rfl | rfl | rfl <;> exact next_congr (stepMove_left hmove h)
  · have steps {kind : Nat} {f : Prog → Move → State → Move × State} {z : Move × State} (hkind : m.r.kind = kind)
        (hz : f p m s = z) : stepMove b prog idx kind f s0 = readMore b prog (runIssue b p z.1 false z.2).2 :=
      stepMove_steps hmove hready hstop hfailed hkind hz
    have fetches {z : Move × State} (hkind : m.r.kind = 7) (hz : fetchStep b p m s = z) : exec (.moveFetch4 b prog idx) s0 =
        .next (drainRequest b prog idx (readMore b prog (runIssue b p z.1 false z.2).2)) :=
      next_congr ((fetch4_eq b prog idx s0).trans (congrArg _ (steps hkind hz)))
    refine ⟨fun hkind => next_congr (steps hkind rfl), fun hkind => next_congr (steps hkind rfl),
      fun hkind => next_congr (steps hkind (copyStep_eq b p m s)), fun hkind => next_congr (steps hkind (tcopyStep_eq b p m s)),
      ?load, ?header, ?bands, ?tiles, ⟨?operands, ?elements⟩, ?empty, ?tag, ?request, ?tail⟩
    case load => exact fun pa pol s1 c off hkind hva hplace => next_congr (steps hkind (loadStep_spad hva hplace))
    case header => exact fun pa pol s1 c off form hkind hstage hva hplace => next_congr (steps hkind (storeStep_header hstage hva hplace))
    case bands => exact fun c off hkind hstage hbase => next_congr (steps hkind (storeStep_bands hstage hbase))
    case tiles => exact fun hkind hstage => next_congr (steps hkind (storeStep_tiles hstage))
    case operands =>
      exact fun pa pol s1 c off form hkind hstage hva hplace => next_congr (steps hkind (atomicStep_operands hstage hva hplace))
    case elements => exact fun hkind hstage => next_congr (steps hkind (atomicStep_elements hstage))
    case empty => exact fun hkind hstage hlen => fetches hkind (fetchStep_empty hstage hlen)
    case tag =>
      exact fun q t pa pol s1 hkind hstage hlen hq hroom hidle htag hva =>
        fetches hkind (fetchStep_tag hstage hlen hq hroom hidle htag hva)
    case request => exact fun q t k hkind hstage hq htag hrel hdone => fetches hkind (fetchStep_request hstage hq htag hrel hdone)
    case tail => exact fun q hkind hstage hq => fetches hkind (fetchStep_tail hstage hq)

end Sys2Proof.Machine
end

section
/-!
PROOFS. Fallback sets (R222 to R227): what is done with a set at its decision tick and at its agreement tick (O41).
-/

namespace Sys2Proof.Machine

section
variable {p : Nat} {l : Launch} {s : State} (hl : launchOf p s = some l)
include hl

/-! ## The decision tick -/

theorem fbDecide_decides (group dec : Nat) :
    fbDecide p group dec s = (l.stepsOf p group dec s).foldl (fun z e => decideSet p e.1 e.2 group dec z) s := by
  simp only [fbDecide, hl]

/-- Before its decision tick a set is left. -/
theorem decideSet_early {step tick group dec : Nat} (hearly : s.tick < tick + dec) : decideSet p step tick group dec s = s := by
  simp only [decideSet, hl, hearly, decide_true, Bool.or_true, Bool.true_or, if_true]

/-- A set that is due, for the first time and outside replay, is decided: the moves of its late beds are marked, and with any such bed it is
reported late (R222). -/
theorem decideSet_due {step tick group dec : Nat} (hstarted : l.started = true) (hstop : l.stop = false) (hdue : tick + dec ≤ s.tick)
    (hnew : l.fbSet step group dec = none) (hlive : l.replayLog = 0) :
    let s0 := l.bedList.foldl (fun z b => collect b z) s
    let beds := l.bedList.filter fun b => bedLate p step group dec b s0
    let mark (m : Move) : Move := if m.isLate then { m with fb := .late } else m
    let s1 := beds.foldl (fun z b => mapSet p step group dec mark b z) s0
    let l1 := ((launchOf p s0).getD l).putSet ⟨step, tick, group, dec, beds.length, none⟩
    decideSet p step tick group dec s = if beds = [] then putLaunch p l1 s1 else reportLate p l1 step group dec s1 := by
  intro s0 beds mark s1 l1
  simp only [decideSet, hl, hstarted, hstop, Nat.not_lt.mpr hdue, hnew, hlive, Bool.not_true, decide_false, Option.isSome_none,
    Bool.or_self, Bool.false_eq_true, ne_eq, not_true_eq_false, if_false, List.isEmpty_iff]
  rfl

/-! ## The agreement tick -/

theorem fbAgree_agrees (group dec : Nat) : fbAgree p group dec s =
    (l.decided.filter fun x => decide (x.group = group) && decide (x.decide = dec)).foldl (fun z x => agreeSet p x z) s := by
  simp only [fbAgree, hl]

variable {x : FbSet} (hopen : x.outcome = none)
include hopen

/-- Before its agreement tick a set is left. -/
theorem agreeSet_early (hearly : s.tick < x.stepTick + x.decide + l.delay s) : agreeSet p x s = s := by
  simp only [agreeSet, hl, hopen, hearly, decide_true, Bool.true_or, if_true]

variable (hdue : x.stepTick + x.decide + l.delay s ≤ s.tick) (hstop : l.stop = false)
include hdue hstop

/-- A set that no package reported late keeps its primaries. -/
theorem agreeSet_primary (hnone : l.latePkgs x.step x.group x.decide = 0) :
    let s0 := l.bedList.foldl (fun z b => collect b z) s
    let l1 := l.putSet { x with outcome := some false }
    agreeSet p x s = applySet p l1 x.step x.group x.decide false (putLaunch p l1 s0) := by
  intro s0 l1
  simp only [agreeSet, hl, hopen, Nat.not_lt.mpr hdue, hstop, hnone, decide_false, Bool.or_self, Bool.false_eq_true, if_false]
  split <;> rfl

/-- A set that a package reported late takes its fallback, with an entry in the log (R223, R226). -/
theorem agreeSet_fallback (hlate : 0 < l.latePkgs x.step x.group x.decide) :
    let s0 := l.bedList.foldl (fun z b => collect b z) s
    let l1 := l.putSet { x with outcome := some true }
    let s1 := applySet p l1 x.step x.group x.decide true (putLaunch p l1 s0)
    agreeSet p x s = match launchOf p s1 with
      | some l2 => logFallback p l2 x (l.latePkgs x.step x.group x.decide) s1
      | none => s1 := by
  intro s0 l1 s1
  simp only [agreeSet, hl, hopen, Nat.not_lt.mpr hdue, hstop, hlate, decide_false, decide_true, Bool.or_self, Bool.false_eq_true, if_false,
    if_true]
  rfl

end

/-- A late set is reported to every member of a locked grove launch (R222). -/
theorem reportLate_eq (p : PartId) (l : Launch) (step group dec : Nat) (s : State) :
    let s1 := putLaunch p { l with reports := l.reports ++ [⟨ownPkg s, step, 1, group, dec⟩] } s
    reportLate p l step group dec s = if l.grove && l.locked then
      flood (.agree p (.fallback (BitVec.ofNat 32 step) (BitVec.ofNat 16 group) (BitVec.ofNat 16 dec))) s1 else s1 := by
  rw [reportLate, Fin.ofNat_val_eq_self]

/-- Settles O41: FB_DECIDE and FB_AGREE take the sets one by one, and each set by its tick and by who is late. -/
theorem fallbackSets : Obligations.FallbackSets := by
  intro p group dec l s hl g d
  refine ⟨next_congr (fbDecide_decides hl g d), next_congr (fbAgree_agrees hl g d), List.mem_cons_self,
    fun step tick hearly => decideSet_early hl hearly, fun step tick hstarted hstop hdue hnew hlive => ?_,
    fun x hopen => ⟨agreeSet_early hl hopen, fun hdue hstop => ⟨fun hnone => ?_, fun hlate => ?_⟩⟩⟩
  · have hdecided := decideSet_due hl hstarted hstop hdue hnew hlive
    exact ⟨fun hbeds => hdecided.trans (if_pos hbeds),
      fun hbeds => (hdecided.trans (if_neg hbeds)).trans (reportLate_eq p _ step g d _)⟩
  · exact agreeSet_primary hl hopen hdue hstop hnone
  · exact agreeSet_fallback hl hopen hdue hstop hlate

end Sys2Proof.Machine
end

section
/-!
PROOFS. Filled translations (R232, R235, R237): a lookup after a fill finds the leaf filled in, what the leaf keeps of the address, and what
it permits (O43).
-/

namespace Sys2Proof.Machine

/-- An entry put in place of one that `p` refuses, among others that it refuses, is the one that a search for `p` finds. -/
theorem find?_lput {α : Type} {p : Nat × α → Bool} {l : List (Nat × α)} {k : Nat} {v : α} (hv : p (k, v) = true)
    (hrest : ∀ x ∈ l, p x = false) : (lput l k v).find? p = some (k, v) := by
  induction l with
  | nil => simp only [lput, List.find?_cons, hv]
  | cons e t ih =>
    obtain ⟨i, w⟩ := e
    rw [lput]
    split
    · simp only [List.find?_cons, hv]
    · rw [List.find?_cons_of_neg (by simp [hrest])]
      exact ih fun x hx => hrest x (List.mem_cons_of_mem _ hx)

theorem TlbSet.find_fill {c : TlbSet} {t : Tlb} {ctx va : Nat} (hit : t.hits ctx va = true)
    (hmiss : ∀ x ∈ c.ways, x.2.hits ctx va = false) (lv : Nat) : ∃ w, (c.fill lv t).find ctx va = some (w, t) :=
  ⟨_, find?_lput hit hmiss⟩

theorem hits_leafOf (ctx va level e : Nat) : (leafOf ctx va level e).hits ctx va = true := by
  simp [Tlb.hits, leafOf]

/-- A fill for a barrow reaches the micro-TLB of its bed (R237). -/
theorem utlb_fillAll_barrow {s : State} (hs : Sound s) (b : BedId) (t : Tlb) :
    ((fillAll (.barrow b) t s).bed b).utlb = (s.bed b).utlb.fill 7 t :=
  congrArg Bed.utlb ((bed_putBed { s with iotlb := _, ptc := _ } b b _ hs.beds).trans (if_pos rfl))

/-- A hit of the micro-TLB ends the lookup (R237). -/
theorem lookTlb_barrow_hit {b : BedId} {ctx va i : Nat} {t : Tlb} {s : State} (h : (s.bed b).utlb.find ctx va = some (i, t)) :
    lookTlb (.barrow b) ctx va s =
      (some t, incF F.XLT_UTLB_HIT_COUNT b 0 1 (s.putBed b { s.bed b with utlb := (s.bed b).utlb.touch 7 i })) := by
  simp only [lookTlb, askerBed, h]

/-- The base of a leaf is aligned to its size, so the bits of the address below it stay (R232). -/
theorem phys_leafOf_mod (ctx va level e : Nat) :
    (leafOf ctx va level e).phys va % 2 ^ leafShift level = vaOf va % 2 ^ leafShift level := by
  simp only [Tlb.phys, leafOf, Nat.mul_add_mod_self_right, Nat.mod_mod]

/-- A leaf denies nothing just where it has each permission needed (R235). -/
theorem denies_eq_none_iff (t : Tlb) (r w a : Bool) :
    t.denies r w a = none ↔ (r = true → t.r = true) ∧ (w = true → t.w = true) ∧ (a = true → t.atom = true) := by
  unfold Tlb.denies
  split
  case isTrue hr => simp_all
  case isFalse hr =>
    split
    case isTrue hw => simp_all
    case isFalse hw =>
      split
      case isTrue ha => simp_all
      case isFalse ha => simp_all

/-- Settles O43: the fill puts the leaf in the micro-TLB, where alone it hits; its base is aligned, and its permissions are bits 2 to 4. -/
theorem filledTranslationsHit : Obligations.FilledTranslationsHit := by
  intro b ctx va e level s _ hs hmiss t s1
  refine ⟨?_, phys_leafOf_mod ctx va level e, denies_eq_none_iff t⟩
  obtain ⟨i, hfind⟩ := TlbSet.find_fill (hits_leafOf ctx va level e) hmiss 7
  exact ⟨_, lookTlb_barrow_hit (i := i) (by rw [utlb_fillAll_barrow hs]; exact hfind)⟩

end Sys2Proof.Machine
end

section
/-!
PROOFS. Translation (R231 to R239, R244 to R248): how a request for a translation is answered, how a walk goes on, and which fault records
open (O42).
-/

namespace Sys2Proof.Machine

/-! ## What a requester is told (R231, R235) -/

section
variable {ctx : Nat} {w : XWait} {s : State}

theorem askXlt_off (hoff : ctxOn ctx s = false) : askXlt ctx w s = giveUp w .pageFault s := by
  simp only [askXlt, hoff, Bool.not_false, if_true]

theorem askXlt_hit {t : Tlb} {s1 : State} (hon : ctxOn ctx s = true) (hlook : lookTlb w.who ctx w.va s = (some t, s1)) :
    askXlt ctx w s = leafFor ctx t w s1 := by
  simp only [askXlt, hon, hlook, Bool.not_true, Bool.false_eq_true, if_false]

theorem askXlt_miss {s1 : State} (hon : ctxOn ctx s = true) (hlook : lookTlb w.who ctx w.va s = (none, s1)) :
    askXlt ctx w s = joinWalk ctx w s1 := by
  simp only [askXlt, hon, hlook, Bool.not_true, Bool.false_eq_true, if_false]

theorem giveUp_ext (hext : w.ext = true) (st : Status) : giveUp w st s = respond w.id st 0 s := by
  simp only [giveUp, hext, if_true]

theorem leafFor_permits {t : Tlb} (hok : t.denies w.r w.w w.a = none) (hext : w.ext = true) :
    leafFor ctx t w s = respond w.id .ok (BitVec.ofNat 1024 (t.phys w.va)) s := by
  simp only [leafFor, hok, found, hext, if_true]

theorem leafFor_denies {t : Tlb} {why : Nat} (hbad : t.denies w.r w.w w.a = some why) (hloud : w.quiet = false) :
    leafFor ctx t w s = openFault ctx w.va why w s := by
  simp only [leafFor, hbad, faultFor, hloud, Bool.false_eq_true, if_false]

end

/-! ## Joining and beginning a walk (R237, R239) -/

section
variable {ctx : Nat} {w : XWait} {s : State}

theorem joinWalk_joins {k : Walk} (hwalk : walkOf ctx w.va s = some k) : joinWalk ctx w s =
    { s with walks := s.walks.map fun y => if y.id = k.id then { y with waiters := y.waiters ++ [w] } else y } := by
  simp only [joinWalk, hwalk]

/-- The walks under way, those that wait for one to end aside. -/
def walksBusy (s : State) : Nat := (s.walks.filter fun y => decide (y.now ≠ .queued)).length

/-- The walk that a miss makes. -/
def newWalk (ctx : Nat) (w : XWait) (s : State) : Walk := ⟨s.nextId, ctx, w.va, [w], .queued, 0, [], false⟩

theorem joinWalk_begins (hnone : walkOf ctx w.va s = none) (hroom : walksBusy s < 64) : joinWalk ctx w s =
    let z := (newWalk ctx w s).begin { s with nextId := s.nextId + 1 }
    { z.2 with walks := z.2.walks ++ [z.1] } := by
  rw [walksBusy] at hroom
  simp only [joinWalk, hnone, State.takeId, hroom, if_true, newWalk]

theorem joinWalk_waits (hnone : walkOf ctx w.va s = none) (hfull : 64 ≤ walksBusy s) : joinWalk ctx w s =
    { s with nextId := s.nextId + 1, walks := s.walks ++ [newWalk ctx w s] } := by
  rw [walksBusy] at hfull
  simp only [joinWalk, hnone, State.takeId, Nat.not_lt.mpr hfull, if_false, newWalk]

end

/-! ## Opening a fault record (R246 to R248) -/

theorem faultRecordOpen_off {x : XltReq} {s : State} (hoff : ctxOn x.ctx.val s = false) (cause : Nat) :
    faultRecordOpen x cause s = respond x.id .pageFault 0 s := by
  simp only [faultRecordOpen, hoff, Bool.false_eq_true, if_false]
  exact giveUp_ext rfl _

theorem faultRecordOpen_on {x : XltReq} {s : State} (hon : ctxOn x.ctx.val s = true) (cause : Nat) :
    faultRecordOpen x cause s = openFault x.ctx.val x.va.toNat cause (waitOf x) s := if_pos hon

theorem irq_faults (iid : Nat) (s : State) : (irq iid s).faults = s.faults := by
  unfold irq
  dsimp only
  split
  · rfl
  split
  · split <;> rfl
  · rfl

theorem sendMsg_faults (x : Src) (dst id : Nat) (atom : Bool) (s : State) : (sendMsg x dst id atom s).faults = s.faults := by
  unfold sendMsg
  extract_lets chan d
  split <;> rfl

theorem depart_faults (r : Req) (s : State) : (depart r s).2.faults = s.faults := by
  unfold depart
  split
  · rfl
  · dsimp only
    split
    · rfl
    · exact sendMsg_faults ..

theorem hostWrite_faults (pa n v : Nat) (s : State) : (hostWrite pa n v s).2.faults = s.faults := depart_faults ..

/-- Writing a record to the fault queue notes the entry in the record alone (R247). -/
theorem writeFault_faults (f : FaultRec) (s : State) : (writeFault f s).faults =
    s.faults.map fun x => if x.slot = f.slot then { f with entry := some (getF F.XLT_FQ_TAIL_INDEX 0 0 s) } else x := by
  unfold writeFault
  extract_lets t s1 s2
  have h2 : s2.faults = s.faults.map fun x => if x.slot = f.slot then { f with entry := some t } else x :=
    congrArg (List.map _) (hostWrite_faults ..)
  split
  · exact (irq_faults _ s2).trans h2
  · exact h2

/-- The record that a fault opens, in slot `i` (R247). -/
def newFault (ctx va cause i : Nat) (w : XWait) (s : State) : FaultRec :=
  ⟨i, sget 0 s.faultGens i, ctx, vaOf va, cause, [w], w.access, BitVec.ofNat 32 (getF F.XLT_CTX_EPOCH_EPOCH 0 ctx s), s.tick, none,
    [w.who], w.step⟩

/-- A fault of a page without an open record opens one in the lowest free slot, written to the fault queue at once or held (R246, R248). -/
theorem openFault_opens {ctx va cause i : Nat} {w : XWait} {s : State}
    (hnew : (s.faults.find? fun f => decide (f.ctx = ctx) && decide (vaOf f.va / 65536 = vaOf va / 65536)) = none)
    (hfree : freeSlot s = some i) (hcause : cause ≠ 7) :
    ∃ q, { newFault ctx va cause i w s with entry := q } ∈ (openFault ctx va cause w s).faults ∧
      (openFault ctx va cause w s).faults.length = s.faults.length + 1 := by
  simp only [openFault, hnew, hfree, hcause, flagIf, decide_false, Bool.false_eq_true, if_false]
  split
  · exact ⟨none, List.mem_append_right _ List.mem_cons_self, List.length_append⟩
  · rw [writeFault_faults]
    refine ⟨_, List.mem_map.mpr ⟨newFault ctx va cause i w s, List.mem_append_right _ List.mem_cons_self, if_pos rfl⟩, ?_⟩
    rw [List.length_map]
    exact List.length_append

/-! ## A walk goes on (R234, R236, R244) -/

theorem putWalk_ended {k : Walk} {e : WalkRes} (h : k.now = .ended e) (s : State) : putWalk k s = endWalk k e s := by
  simp only [putWalk, h]

section
variable {id q : Nat} {k : Walk} {r : Req} {s : State}

section
variable (hwalk : (s.walks.find? fun y => decide (y.id = id)) = some k) (hread : k.now = .read q) (hget : netGet q s = some r)
include hwalk hread hget

theorem xltFill_unanswered (hst : r.st ≠ .answered) : xltFill id s = s := by
  simp only [xltFill, hwalk, hread, hget, hst, ne_eq, not_false_eq_true, if_true]

variable (hst : r.st = .answered)
include hst

/-- A walk that an invalidation overtook begins again (R244). -/
theorem xltFill_overtaken (hstale : k.stale = true) (hon : ctxOn k.ctx s = true) :
    xltFill id s = putWalk (k.begin (netDel q s)).1 (k.begin (netDel q s)).2 := by
  simp only [xltFill, hwalk, hread, hget, hst, hstale, hon, ne_eq, not_true_eq_false, if_false, Bool.and_self, if_true]

theorem xltFill_goesOn (hkept : k.stale = false ∨ ctxOn k.ctx s = false) :
    xltFill id s = putWalk (k.advance r s).1 (k.advance r s).2 := by
  have hnot : (k.stale && ctxOn k.ctx s) = false := Bool.and_eq_false_iff.mpr hkept
  simp only [xltFill, hwalk, hread, hget, hst, hnot, ne_eq, not_true_eq_false, Bool.false_eq_true, if_false]

/-- A walk whose next step is its end ends. -/
theorem xltFill_ends (hkept : k.stale = false ∨ ctxOn k.ctx s = false) {e : WalkRes} {s1 : State}
    (hadv : k.advance r s = ({ k with now := .ended e }, s1)) : xltFill id s = endWalk k e s1 := by
  rw [xltFill_goesOn hwalk hread hget hst hkept, hadv, putWalk_ended rfl]
  rfl

end

theorem advance_ends {e : WalkRes} (hok : r.status = .ok)
    (hlead : entryLeads k.ctx k.va k.level (r.rdata.toNat % 2 ^ 64) = .inl e) :
    k.advance r s = ({ k with now := .ended e }, netDel r.id s) := by
  simp only [Walk.advance, hok, hlead, reduceCtorEq, ne_eq, not_true_eq_false, if_false]

theorem advance_reads {w : WalkEnt} (hok : r.status = .ok)
    (hlead : entryLeads k.ctx k.va k.level (r.rdata.toNat % 2 ^ 64) = .inr w) :
    k.advance r s =
      let z := readEntry w.next w.level k.va (netDel r.id s)
      ({ k with now := z.1, level := w.level, path := k.path ++ [w] }, z.2) := by
  simp only [Walk.advance, hok, hlead, reduceCtorEq, ne_eq, not_true_eq_false, if_false]

/-- A table on a die that is absent is a bad one (R234). -/
theorem advance_dieAbsent (hst : r.status = .dieAbsent) : k.advance r s = ({ k with now := .ended (.fault 7) }, netDel r.id s) := by
  simp only [Walk.advance, hst, reduceCtorEq, ne_eq, not_false_eq_true, if_false, if_true]

theorem advance_dataLost (hst : r.status = .dataLost) :
    k.advance r s = ({ k with now := .ended (.lost .dataLost) }, netDel r.id s) := by
  simp only [Walk.advance, hst, if_true]

end

/-- Settles O42: each request by what its context and its caches say, each answered entry by what it leads to. -/
theorem translations : Obligations.Translations := by
  intro s
  refine ⟨fun x => ?_, fun id k q r hwalk hread hget => ?_, fun v => rfl⟩
  · intro w c va
    refine ⟨fun hoff => ⟨?_, fun why => ?_⟩, fun t s1 hon hlook => ?_, fun s1 hon hlook => ?_, fun hon why => ?_,
      fun why hon hcause hnew i hfree => ?_⟩
    · exact next_congr ((askXlt_off hoff).trans (giveUp_ext rfl _))
    · exact next_congr (faultRecordOpen_off hoff why)
    · refine next_congr ((askXlt_hit (w := w) hon hlook).trans ?_)
      cases hperm : t.denies x.r x.w x.a with
      | none => exact leafFor_permits (w := w) hperm rfl
      | some why => exact leafFor_denies (w := w) hperm rfl
    · have hmiss : exec (.xltWalk x) s = .next (joinWalk c w s1) := next_congr (askXlt_miss (w := w) hon hlook)
      exact ⟨fun hnone hroom => hmiss.trans (next_congr (joinWalk_begins hnone hroom)),
        fun hnone hfull => hmiss.trans (next_congr (joinWalk_waits hnone hfull)),
        fun k0 hwalk => hmiss.trans (next_congr (joinWalk_joins hwalk))⟩
    · exact next_congr (faultRecordOpen_on hon why)
    · obtain ⟨entry, hmem, hlen⟩ := openFault_opens (w := w) hnew hfree hcause
      exact ⟨_, _, next_congr (faultRecordOpen_on hon why), hmem, rfl, rfl, rfl, rfl, rfl, rfl, hlen⟩
  · refine ⟨fun hst => next_congr (xltFill_unanswered hwalk hread hget hst),
      fun hst hstale hon => next_congr (xltFill_overtaken hwalk hread hget hst hstale hon), fun hst hkept => ?_⟩
    have ended {e : WalkRes} {s1 : State} (hadv : k.advance r s = ({ k with now := .ended e }, s1)) :
        exec (.xltFillReturn id) s = .next (endWalk k e s1) := next_congr (xltFill_ends hwalk hread hget hst hkept hadv)
    refine ⟨fun t hok hlead => ?_, fun n hok hlead => ?_, fun w hok hlead => ?_, fun habsent => ?_, fun hlost => ?_⟩
    · exact ended (advance_ends hok hlead)
    · exact ended (advance_ends hok hlead)
    · exact next_congr (by rw [xltFill_goesOn hwalk hread hget hst hkept, advance_reads hok hlead])
    · exact ended (advance_dieAbsent habsent)
    · exact ended (advance_dataLost hlost)

end Sys2Proof.Machine
end

section
/-!
PROOFS. Withdrawal of translations (R240 to R244): what an invalidation leaves in the caches, and how one completes (O44).
-/

namespace Sys2Proof.Machine

/-! ## What a sparse map holds -/

theorem mem_smap {α : Type} [DecidableEq α] {d : α} {f : Nat → α → α} {l : List (Nat × α)} {y : Nat × α} (h : y ∈ smap d f l) :
    ∃ w, (y.1, w) ∈ l ∧ y.2 = f y.1 w := by
  induction l with
  | nil => exact absurd h List.not_mem_nil
  | cons e t ih =>
    obtain ⟨i, v⟩ := e
    have later (ht : y ∈ smap d f t) : ∃ w, (y.1, w) ∈ (i, v) :: t ∧ y.2 = f y.1 w := by
      obtain ⟨w, hw, hy⟩ := ih ht
      exact ⟨w, List.mem_cons_of_mem _ hw, hy⟩
    unfold smap at h
    dsimp only at h
    split at h
    · exact later h
    · rcases List.mem_cons.mp h with rfl | ht
      · exact ⟨v, List.mem_cons_self, rfl⟩
      · exact later ht

theorem mem_sput {α : Type} [DecidableEq α] {d : α} {l : List (Nat × α)} {k : Nat} {v : α} {y : Nat × α} (h : y ∈ sput d l k v) :
    y = (k, v) ∨ y ∈ l := by
  induction l with
  | nil =>
    unfold sput at h
    split at h
    · exact Or.inr h
    · exact Or.inl (List.mem_singleton.mp h)
  | cons e t ih =>
    obtain ⟨i, w⟩ := e
    unfold sput at h
    split at h
    · split at h
      · exact Or.inr h
      · exact List.mem_cons.mp h
    · split at h
      · split at h
        · exact Or.inr (List.mem_cons_of_mem _ h)
        · exact (List.mem_cons.mp h).imp_right (List.mem_cons_of_mem _)
      · rcases List.mem_cons.mp h with rfl | ht
        · exact Or.inr List.mem_cons_self
        · exact (ih ht).imp_right (List.mem_cons_of_mem _)

/-- What a key reads as is the value of an unlisted key, or listed. -/
theorem sget_eq_or_mem {α : Type} (d : α) (l : List (Nat × α)) (k : Nat) : sget d l k = d ∨ (k, sget d l k) ∈ l := by
  induction l with
  | nil => exact Or.inl rfl
  | cons e t ih =>
    obtain ⟨i, v⟩ := e
    by_cases hi : i = k
    · subst hi
      rw [sget, if_pos rfl]
      exact Or.inr List.mem_cons_self
    · rw [sget, if_neg hi]
      exact ih.imp_right (List.mem_cons_of_mem _)

/-! ## What is left in the caches (R241) -/

/-- No cache of the package holds a translation that `x` names. -/
structure Withdrawn (x : Names) (s : State) : Prop where
  iotlb : ∀ y ∈ s.iotlb, ∀ w ∈ y.2.ways, x.takes w.2 = false
  ptc : ∀ y ∈ s.ptc, ∀ w ∈ y.2.ways, x.takes w.2 = false
  beds : ∀ y ∈ s.beds, ∀ w ∈ y.2.utlb.ways, x.takes w.2 = false
  walkc : ∀ y ∈ s.walkc, x.takesWalk y = false

theorem takes_of_mem_drop {x : Names} {c : TlbSet} {w : Nat × Tlb} (h : w ∈ (c.drop x).ways) : x.takes w.2 = false := by
  simpa using (List.mem_filter.mp h).2

theorem takes_of_mem_smap_drop {x : Names} {l : List (Nat × TlbSet)} :
    ∀ y ∈ smap TlbSet.empty (fun _ c => c.drop x) l, ∀ w ∈ y.2.ways, x.takes w.2 = false := by
  intro y hy w hw
  obtain ⟨c, -, hc⟩ := mem_smap hy
  exact takes_of_mem_drop (hc ▸ hw)

/-- A walk-cache entry that `x` removes makes its context one that loses an entry. -/
theorem anyLost_of_takesWalk {x : Names} {e : WalkEnt} {s : State} (hmem : e ∈ s.walkc) (h : x.takesWalk e = true) :
    (x.has e.ctx && anyLost x e.ctx s) = true := by
  have hhas : x.has e.ctx = true := (Bool.and_eq_true_iff.mp h).1
  have hany : s.walkc.any (fun y => decide (y.ctx = e.ctx) && x.takesWalk y) = true :=
    List.any_eq_true.mpr ⟨e, hmem, by simp [h]⟩
  rw [hhas, anyLost, hany, Bool.or_true, Bool.and_self]

theorem withdrawn_removeAll (x : Names) (s : State) : Withdrawn x (removeAll x s) where
  iotlb := takes_of_mem_smap_drop
  ptc := takes_of_mem_smap_drop
  beds y hy w hw := by
    obtain ⟨k, -, hk⟩ := mem_smap hy
    rw [hk] at hw
    exact takes_of_mem_drop hw
  walkc y hy := by
    obtain ⟨hmem, hkept⟩ := List.mem_filter.mp hy
    cases htaken : x.takesWalk y with
    | false => rfl
    | true =>
      rw [anyLost_of_takesWalk hmem htaken] at hkept
      exact absurd hkept (by decide)

theorem Withdrawn.countInval {x : Names} {s : State} (h : Withdrawn x s) (n : Nat) : Withdrawn x (countInval n s) := by
  induction n with
  | zero => exact h
  | succ k ih =>
    unfold Machine.countInval
    extract_lets s1
    split
    · exact ⟨ih.iotlb, ih.ptc, ih.beds, ih.walkc⟩
    · exact ih

/-- Emptying the bed cache of a bed leaves its micro-TLB. -/
theorem Withdrawn.invAll {x : Names} {s : State} (h : Withdrawn x s) (b : Nat) : Withdrawn x (invAll b s) where
  iotlb := h.iotlb
  ptc := h.ptc
  walkc := h.walkc
  beds y hy w hw := by
    rcases mem_sput hy with rfl | hold
    · have hbed : w ∈ (s.bed b).utlb.ways := hw
      rcases sget_eq_or_mem Bed.reset s.beds b with hreset | hlisted
      · rw [State.bed, hreset] at hbed
        exact absurd hbed List.not_mem_nil
      · exact h.beds _ hlisted w hbed
    · exact h.beds y hold w hw

theorem Withdrawn.invBeds {x : Names} {s : State} (h : Withdrawn x s) (on : Bool) : Withdrawn x (invBeds x on s) := by
  unfold Machine.invBeds
  split
  · refine List.foldlRecOn _ _ h fun z hz b _ => ?_
    split
    · exact hz.invAll b
    · exact hz
  · exact h

theorem withdrawn_startInv (x : Names) (epoch : Option (BitVec 32)) (bedc : Bool) (s : State) :
    Withdrawn x (startInv x epoch bedc s) := by
  obtain ⟨hiotlb, hptc, hbeds, hwalkc⟩ :=
    ((withdrawn_removeAll x { s with nextId := s.nextId + 1 }).countInval 12).invBeds bedc
  exact ⟨hiotlb, hptc, hbeds, hwalkc⟩

/-! ## Completion (R243) -/

section
variable {id : Nat} {x : XInv} {s : State} (hdone : x.waiting = []) (hfirst : behind id x.ctx s.xinvs = false)
include hdone hfirst

theorem waitsOrBehind_eq_false : (!x.waiting.isEmpty || behind id x.ctx s.xinvs) = false := by
  rw [hdone, hfirst]
  rfl

variable (hinv : (s.xinvs.find? fun x => decide (x.id = id)) = some x)
include hinv

theorem invComplete_plain (hwr : x.wr = none) (hplain : x.ctx = none ∨ x.epoch = none) : invComplete id s = invEnds x s := by
  simp only [invComplete, hinv, waitsOrBehind_eq_false hdone hfirst, hwr, Bool.false_eq_true, if_false]
  rcases hplain with hctx | hepoch
  · simp only [hctx]
  · cases x.ctx <;> simp only [hepoch]

theorem invComplete_written {q : Nat} (hwr : x.wr = some q) : invComplete id s = if writeOver q s then invEnds x s else s := by
  simp only [invComplete, hinv, waitsOrBehind_eq_false hdone hfirst, hwr, Bool.false_eq_true, if_false]

theorem invComplete_epoch {c : Nat} {e : BitVec 32} (hwr : x.wr = none) (hctx : x.ctx = some c) (hepoch : x.epoch = some e) :
    invComplete id s = invEpoch x c e s := by
  simp only [invComplete, hinv, waitsOrBehind_eq_false hdone hfirst, hwr, Bool.false_eq_true, if_false]
  simp only [hctx, hepoch]

end

section
variable (x : XInv) (c : Nat) (e : BitVec 32) {s : State}

theorem invEpoch_waits (hbusy : iommuClear s = false) : invEpoch x c e s = s := by
  simp only [invEpoch, hbusy, Bool.not_false, if_true]

variable (hclear : iommuClear s = true)
include hclear

theorem invEpoch_noWord (hword : getF F.XLT_CTX_EPADDR_ADDR 0 c (advanceEpoch c e s) * 4 = 0) :
    invEpoch x c e s = invEnds x (advanceEpoch c e s) := by
  simp only [invEpoch, hclear, hword, Bool.not_true, Bool.false_eq_true, if_false, if_true]

theorem invEpoch_writes (hword : getF F.XLT_CTX_EPADDR_ADDR 0 c (advanceEpoch c e s) * 4 ≠ 0) :
    let s1 := advanceEpoch c e s
    let r := hostWrite (getF F.XLT_CTX_EPADDR_ADDR 0 c s1 * 4) 4 (getF F.XLT_CTX_EPOCH_EPOCH 0 c s1) s1
    invEpoch x c e s = { r.2 with xinvs := r.2.xinvs.map fun y => if y.id = x.id then { y with wr := some r.1 } else y } := by
  simp only [invEpoch, hclear, hword, Bool.not_true, Bool.false_eq_true, if_false]

end

/-! ## Disabled contexts (R244) and fences (R243) -/

theorem ctxDisable_on {i : Nat} {s : State} (h : bitF F.XLT_CTX_ROOT_EN 0 i s = true) : ctxDisable i s =
    startInv ⟨some i, 0, allPages⟩ none false (setF F.XLT_CTX_ROOT_EN 0 i 0 s) := if_pos h

theorem ctxDisable_off {i : Nat} {s : State} (h : bitF F.XLT_CTX_ROOT_EN 0 i s = false) : ctxDisable i s = s := by
  simp only [ctxDisable, h, Bool.false_eq_true, if_false]

theorem ioFence_idle {s : State} (h : s.xinvs = []) (id : Nat) : ioFence id s = respond id .ok 0 s := by
  simp only [ioFence, h, List.isEmpty_nil, if_true]

theorem ioFence_waits {s : State} (h : s.xinvs ≠ []) (id : Nat) :
    ioFence id s = { s with iofences := s.iofences ++ [(id, s.xinvs.map (·.id))] } :=
  if_neg (by simpa using h)

/-- Settles O44: an invalidation removes what it names from every cache, and completes by its epoch and the word of its context. -/
theorem invalidations : Obligations.Invalidations := by
  intro s
  refine ⟨fun f => ⟨rfl, rfl, rfl, rfl⟩, fun x e b => ?_, fun i => ⟨fun hen => ?_, fun hdis => ?_⟩, fun id recv => rfl,
    fun id x hinv hdone hfirst => ⟨fun hwr hplain => ?_, fun q hwr => ?_, fun c e hwr hctx hepoch => ?_⟩,
    fun id => ⟨fun hidle => next_congr (ioFence_idle hidle id), fun hbusy => next_congr (ioFence_waits hbusy id)⟩⟩
  · obtain ⟨hiotlb, hptc, hbeds, hwalkc⟩ := withdrawn_startInv x e b s
    exact ⟨hiotlb, hptc, hbeds, hwalkc⟩
  · exact next_congr (ctxDisable_on hen)
  · exact next_congr (ctxDisable_off hdis)
  · exact next_congr (invComplete_plain hdone hfirst hinv hwr hplain)
  · exact next_congr (invComplete_written hdone hfirst hinv hwr)
  · have hepochs := invComplete_epoch hdone hfirst hinv hwr hctx hepoch
    exact ⟨fun hbusy => next_congr (hepochs.trans (invEpoch_waits x c e hbusy)),
      fun hclear hword => next_congr (hepochs.trans (invEpoch_noWord x c e hclear hword)),
      fun hclear hword => next_congr (hepochs.trans (invEpoch_writes x c e hclear hword))⟩

end Sys2Proof.Machine
end

section
/-!
PROOFS. Answers to fault records (R249 to R251): which record an ID names, and when a record times out (O45).
-/

namespace Sys2Proof.Machine

theorem xresp_open {id : Nat} {f : FaultRec} {s : State}
    (h : (s.faults.find? fun f => decide (f.slot = id % 256) && decide (f.gen = id / 256)) = some f)
    (ans : Nat → State → XWait → State) : xresp id ans s = closeFault f ans s := by
  simp only [xresp, h]

theorem xresp_stale {id : Nat} {s : State}
    (h : (s.faults.find? fun f => decide (f.slot = id % 256) && decide (f.gen = id / 256)) = none)
    (ans : Nat → State → XWait → State) : xresp id ans s = flagF F.XLT_STATUS_STALE_RESP 0 0 s := by
  simp only [xresp, h]

section
variable {slot : Nat} {f : FaultRec} {s : State} (hrec : (s.faults.find? fun f => decide (f.slot = slot)) = some f)
include hrec

theorem faultTimeout_early
    (hearly : getF F.XLT_CTRL_TIMEOUT_MS 0 0 s = 0 ∨ s.tick ≤ f.tick + 25000 * getF F.XLT_CTRL_TIMEOUT_MS 0 0 s) :
    faultTimeout slot s = s := by
  simp only [faultTimeout, hrec, hearly, if_true]

theorem faultTimeout_late (hon : getF F.XLT_CTRL_TIMEOUT_MS 0 0 s ≠ 0)
    (hlate : f.tick + 25000 * getF F.XLT_CTRL_TIMEOUT_MS 0 0 s < s.tick) : faultTimeout slot s =
    closeFault f failWaiter (incF F.XLT_TIMEOUTS_COUNT 0 0 1 (flagF F.XLT_STATUS_TIMEOUT 0 0 s)) := by
  simp only [faultTimeout, hrec, hon, Nat.not_le.mpr hlate, or_self, if_false]

end

/-- Settles O45: an answer closes the record that its ID names, and a timeout the one that has been open for too long. -/
theorem faultAnswers : Obligations.FaultAnswers := by
  intro s closed
  refine ⟨fun id => ⟨fun f hopen => ?_, fun hstale => ?_⟩, fun slot f hrec => ⟨fun hearly => ?_, fun hon hlate => ?_⟩⟩
  · exact ⟨next_congr (xresp_open hopen _), next_congr (xresp_open hopen _)⟩
  · exact ⟨next_congr (xresp_stale hstale _), next_congr (xresp_stale hstale _)⟩
  · exact next_congr (faultTimeout_early hrec hearly)
  · exact next_congr (faultTimeout_late hrec hon hlate)

end Sys2Proof.Machine
end

section
/-!
PROOFS. The doorbell of a submission ring (R256, R282, R283): an index moves forward within the room of its ring and never past it (O47).
-/

namespace Sys2Proof.Machine

/-! ## Indices -/

/-- Differences of indices add up. -/
theorem idxDiff_add (a b c : Nat) : (idxDiff a b + idxDiff b c) % 2 ^ 32 = idxDiff a c := by
  unfold idxDiff
  omega

theorem idxDiff_add_self {size : Nat} (h : size < 2 ^ 32) (a : Nat) : idxDiff ((a + size) % 2 ^ 32) a = size := by
  unfold idxDiff
  omega

/-- The room that a ring of `size` entries has left at `tail`. -/
theorem idxDiff_limit {tail head size : Nat} (hsize : size < 2 ^ 32) (h : idxDiff tail head ≤ size) :
    idxDiff ((head + size) % 2 ^ 32) tail = size - idxDiff tail head := by
  have hadd := idxDiff_add ((head + size) % 2 ^ 32) tail head
  rw [idxDiff_add_self hsize] at hadd
  have hlt : idxDiff ((head + size) % 2 ^ 32) tail < 2 ^ 32 := Nat.mod_lt _ (by decide)
  omega

/-- An index within the room left at `tail` stays within the size. -/
theorem idxDiff_within {v tail head size : Nat} (hsize : size < 2 ^ 32) (h : idxDiff tail head ≤ size)
    (hv : idxDiff v tail ≤ size - idxDiff tail head) : idxDiff v head ≤ size := by
  have hadd := idxDiff_add v tail head
  omega

theorem ringSize_lt (n : Nat) (s : State) : ringSize n s < 2 ^ 32 :=
  have hlog : getF F.CMD_RING_CFG_LOG2_SIZE 0 n s < 2 ^ 4 := getF_lt _ _ _ _
  Nat.pow_lt_pow_right (by decide) (Nat.lt_trans hlog (by decide))

/-! ## States that differ in registers alone -/

/-- `t` is `s` but for the registers with the keys in `l`. -/
structure OnlyRegs (l : List Nat) (s t : State) : Prop where
  frame : t = { s with regs := t.regs }
  regs : swf 0 t.regs
  kept : ∀ r u i, regKey r u i ∉ l → readReg r u i t = readReg r u i s

theorem OnlyRegs.refl (l : List Nat) {s : State} (h : swf 0 s.regs) : OnlyRegs l s s := ⟨rfl, h, fun _ _ _ _ => rfl⟩

theorem OnlyRegs.setF {l : List Nat} {s t : State} (h : OnlyRegs l s t) {f : Fld} {u i : Nat} (hmem : regKey f.reg u i ∈ l) (x : Nat) :
    OnlyRegs l s (setF f u i x t) where
  frame := congrArg (fun z : State => { z with regs := (Machine.setF f u i x t).regs }) h.frame
  regs := swf_sput _ _ _ _ h.regs
  kept r k j hout := by
    have hne : regKey r k j ≠ regKey f.reg u i := fun he => hout (by rwa [he])
    exact (readReg_writeReg_ne _ _ _ _ _ _ _ t h.regs hne).trans (h.kept r k j hout)

theorem OnlyRegs.getF {l : List Nat} {s t : State} (h : OnlyRegs l s t) {f : Fld} {u i : Nat} (hout : regKey f.reg u i ∉ l) :
    getF f u i t = getF f u i s := congrArg f.of (h.kept _ _ _ hout)

/-! ## A move of an index -/

section
variable {f : Fld} {n v last : Nat} {s : State}

theorem moveIndex_within (h : idxDiff v (getF f 0 n s) ≤ idxDiff last (getF f 0 n s)) : moveIndex f n v last s = setF f 0 n v s :=
  if_pos h

theorem moveIndex_past (h : idxDiff last (getF f 0 n s) < idxDiff v (getF f 0 n s)) :
    moveIndex f n v last s = tailClamped n (if idxDiff v (getF f 0 n s) < 2 ^ 31 then setF f 0 n last s else s) := by
  rw [apply_ite (tailClamped n)]
  exact if_neg (Nat.not_le.mpr h)

end

/-- The registers that note a clamped index. -/
abbrev clampKeys (n : Nat) : List Nat := [regKey .CMD_RING_STAT 0 n, regKey .CMD_STATUS 0 0]

theorem OnlyRegs.tailClamped {l : List Nat} {n : Nat} {s t : State} (h : OnlyRegs l s t) (hl : clampKeys n ⊆ l) :
    OnlyRegs l s (tailClamped n t) :=
  have hstat : regKey .CMD_RING_STAT 0 n ∈ l := hl List.mem_cons_self
  have hstatus : regKey .CMD_STATUS 0 0 ∈ l := hl (List.mem_cons_of_mem _ List.mem_cons_self)
  ((h.setF hstatus 1).setF hstatus n).setF hstat 1

theorem bitF_tailClamped (n : Nat) {s : State} (h : swf 0 s.regs) : bitF F.CMD_RING_STAT_TAIL_CLAMP 0 n (tailClamped n s) = true := by
  have hregs : swf 0 (ringEvent F.CMD_STATUS_TAIL_CLAMP n s).regs := swf_sput _ _ _ _ (swf_sput _ _ _ _ h)
  exact decide_eq_true (getF_setF (by decide) _ _ _ _ hregs)

/-- A clamp leaves every register but those that note it. -/
theorem getF_tailClamped {f : Fld} (hf : f.reg ≠ .CMD_RING_STAT ∧ f.reg ≠ .CMD_STATUS) (u i n : Nat) {s : State} (h : swf 0 s.regs) :
    getF f u i (tailClamped n s) = getF f u i s :=
  ((OnlyRegs.refl (clampKeys n) h).tailClamped (List.Subset.refl _)).getF
    (by simp [regKey_ne hf.1, regKey_ne hf.2])

/-- A move of an index changes its own register, and those that note a clamp. -/
theorem onlyRegs_moveIndex (f : Fld) (n v last : Nat) {s : State} (h : swf 0 s.regs) :
    OnlyRegs (regKey f.reg 0 n :: clampKeys n) s (moveIndex f n v last s) := by
  have hrefl := OnlyRegs.refl (regKey f.reg 0 n :: clampKeys n) h
  rcases Nat.lt_or_ge (idxDiff last (getF f 0 n s)) (idxDiff v (getF f 0 n s)) with hpast | hin
  · rw [moveIndex_past hpast]
    refine OnlyRegs.tailClamped ?_ (List.subset_cons_self _ _)
    split
    · exact hrefl.setF List.mem_cons_self last
    · exact hrefl
  · rw [moveIndex_within hin]
    exact hrefl.setF List.mem_cons_self v

/-- Where an index stands after a move past its limit. -/
theorem getF_moveIndex_past {f : Fld} (hf : f.reg ≠ .CMD_RING_STAT ∧ f.reg ≠ .CMD_STATUS) (hw : f.lo + f.w ≤ 64) {n v last : Nat}
    {s : State} (h : swf 0 s.regs) (hlast : last < 2 ^ f.w) (hpast : idxDiff last (getF f 0 n s) < idxDiff v (getF f 0 n s)) :
    bitF F.CMD_RING_STAT_TAIL_CLAMP 0 n (moveIndex f n v last s) = true ∧
    getF f 0 n (moveIndex f n v last s) = if idxDiff v (getF f 0 n s) < 2 ^ 31 then last else getF f 0 n s := by
  rw [moveIndex_past hpast]
  split
  · have hregs : swf 0 (setF f 0 n last s).regs := swf_sput _ _ _ _ h
    refine ⟨bitF_tailClamped n hregs, (getF_tailClamped hf _ _ _ hregs).trans ?_⟩
    rw [getF_setF hw _ _ _ _ h, Nat.mod_eq_of_lt hlast]
  · exact ⟨bitF_tailClamped n h, getF_tailClamped hf _ _ _ h⟩

/-! ## CMD_DB_TAIL -/

/-- A write with host standing to an enabled ring acts as the doorbell it reaches. -/
theorem doorbell_enabled {n : Nat} {w : Who} {s : State} (hhost : w.host = true) (hen : bitF F.CMD_RING_CFG_EN 0 n s = true)
    (f : State → State) : doorbell n w f s = f s := by
  simp only [doorbell, hhost, hen, Bool.not_true, Bool.false_eq_true, if_false]

theorem dbTail_submission {n : Nat} {s : State} (hdir : bitF F.CMD_RING_CFG_DIR 0 n s = false) (v : Nat) :
    dbTail n v s = moveIndex F.CMD_DB_TAIL_TAIL n v ((getF F.CMD_DB_CQ_HEAD_CQ_HEAD 0 n s + ringSize n s) % 2 ^ 32) s :=
  if_neg (ne_true_of_eq_false hdir)

/-- Settles O47: TAIL moves to the value written, to the limit or not at all, and each of these lies within the size of CQ_HEAD. -/
theorem tailKeepsRoom : Obligations.TailKeepsRoom := by
  intro n v w s hs hhost hen hdir tail head size hroom
  have hsize : size < 2 ^ 32 := ringSize_lt n s
  have hlimit : idxDiff ((head + size) % 2 ^ 32) (tail s) = size - idxDiff (tail s) head := idxDiff_limit hsize hroom
  have hlast : (head + size) % 2 ^ 32 < 2 ^ 32 := Nat.mod_lt _ (by decide)
  let t := moveIndex F.CMD_DB_TAIL_TAIL n v.toNat ((head + size) % 2 ^ 32) s
  have honly : OnlyRegs (regKey .CMD_DB_TAIL 0 n :: clampKeys n) s t :=
    onlyRegs_moveIndex F.CMD_DB_TAIL_TAIL n _ _ hs.regs
  refine ⟨t, next_congr ((doorbell_enabled hhost hen _).trans (dbTail_submission hdir _)), ?_⟩
  rcases Nat.lt_or_ge (size - idxDiff (tail s) head) (idxDiff v.toNat (tail s)) with hpast | hin
  · obtain ⟨hclamp, htail⟩ : bitF F.CMD_RING_STAT_TAIL_CLAMP 0 n t = true ∧
        tail t = if idxDiff v.toNat (tail s) < 2 ^ 31 then (head + size) % 2 ^ 32 else tail s :=
      getF_moveIndex_past (by decide) (by decide) hs.regs hlast (hlimit ▸ hpast)
    refine ⟨?_, fun hin => absurd hin (Nat.not_le.mpr hpast), fun _ => ⟨hclamp, htail⟩, honly.kept, honly.frame⟩
    rw [htail]
    split
    · exact (idxDiff_add_self hsize head).le
    · exact hroom
  · have hmove : t = setF F.CMD_DB_TAIL_TAIL 0 n v.toNat s := moveIndex_within (Nat.le_trans hin hlimit.ge)
    have htail : tail t = v.toNat := by
      rw [hmove]
      exact (getF_setF (by decide) _ _ _ _ hs.regs).trans (Nat.mod_eq_of_lt v.isLt)
    refine ⟨?_, fun _ => htail, fun hpast => absurd hin (Nat.not_le.mpr hpast), honly.kept, honly.frame⟩
    rw [htail]
    exact idxDiff_within hsize hroom hin

end Sys2Proof.Machine
end

section
/-!
PROOFS. The abort of a descriptor reaches the arbiter of its target's ring in a cycle of CLK_MESH (R272, R273), not of CLK_ARITH (O46).
-/

namespace Sys2Proof.Machine

/-- An ABORT at index 1 of ring 0, aimed at index 0 of that ring. -/
def abortOfFirst : Desc := { Tests.desc0 11 0 .held with idx := 1 }

/-- Ring 0 in CLK_ARITH cycle 2, which begins cycle 1 of CLK_MESH: a NOP at index 0 and the ABORT of it, both fetched. -/
def abortFetched : State :=
  setF F.CMD_DB_HEAD_HEAD 0 0 2 (setF F.CMD_DB_TAIL_TAIL 0 0 2
    { Tests.flying [Tests.desc0 0 0 .held, abortOfFirst] Tests.ringed with cyc := 2 })

/-- The cycles in which the aborts that wait at the arbiter of ring 0 have arrived, in the state that an outcome answers. -/
def abortCycles : Host.Outcome State Fault Refusal → List Nat
  | .next s => (s.ring 0).aborts.map (·.cyc)
  | _ => []

/-- The ABORT may start, and its target has been submitted and fetched. -/
theorem abortFetched_ready :
    let s1 := putDesc 0 { abortOfFirst with st := .started } abortFetched
    let t := abortOfFirst.target
    getDesc 0 1 abortFetched = some abortOfFirst ∧ abortOfFirst.kind = 11 ∧ descRuns 0 abortOfFirst abortFetched = true ∧
    ringHost 0 abortFetched = true ∧
    (s1.ring t.1).aborts.any (fun a => decide (a.ring = 0) && decide (a.idx = 1)) = false ∧
    submitted t.1 t.2 s1 = true ∧ unfetched t.1 t.2 s1 = false := by
  decide +kernel

theorem abortCycles_abort : abortCycles (exec (.abort 0 1) abortFetched) = [1] := by decide +kernel

/-- Refutes O46: an ABORT in cycle 2 of CLK_ARITH reaches the arbiter in cycle 1 of CLK_MESH, where the statement has it in cycle 2. -/
theorem not_ringsRun : ¬ Obligations.RingsRun := by
  intro h
  obtain ⟨-, -, -, -, -, -, habort, -⟩ := h 0 abortFetched
  obtain ⟨hget, hkind, hruns, hhost, hnew, -, hfetched⟩ := abortFetched_ready
  have hstated := habort 1 abortOfFirst hget hkind hruns hhost hnew (Bool.and_eq_false_iff.mpr (.inr hfetched))
  have hcycles := abortCycles_abort.symm.trans (congrArg abortCycles hstated)
  exact absurd hcycles (by decide +kernel)

end Sys2Proof.Machine
end

section
/-!
PROOFS. The shelf (R276 to R280): staging a list, committing an entry, the reports of its participants, the close of its vote, and the
tick boundary that applies it (O49).
-/

namespace Sys2Proof.Machine

/-! ## CONFIG_STAGE and CONFIG_COMMIT -/

section
variable {n i : Nat} {d : Desc} {s : State} (hget : getDesc n i s = some d) (hruns : descRuns n d s = true)
  (hhost : ringHost n (putDesc n d.begun s) = true)
include hget hruns hhost

/-- A CONFIG_STAGE on a host ring reads its list of 24-byte entries. -/
theorem configStage_reads (hk : d.kind = 6) {g : Got} {t : State}
    (hgot : (descVia n d.begun (putDesc n d.begun s)).getRange (d.get 8 8) (24 * min 256 (d.get 0x10 2)) (putDesc n d.begun s) = (g, t)) :
    configStage n i s = descGo n d.begun g (fun v => shelfStage n i (d.get 0x12 1 % 16) ((d.get 0x13 1).testBit 0)
      (shelfList v (min 256 (d.get 0x10 2)))) t := by
  refine (withDesc_runs hget (by simp [hk]) hruns).trans ((if_neg (by simp [hhost])).trans ?_)
  exact congrArg (fun r : Got × State => descGo n d.begun r.1 _ r.2) hgot

/-- A CONFIG_COMMIT of a staged entry that is not committed, before its step, commits it. -/
theorem configCommit_commits (hk : d.kind = 7) :
    let s1 := putDesc n d.begun s
    let e := d.get 8 1 % 16
    let t := d.get 0xC 4
    let p := descPart n d.begun s1
    let x := shelfOf e s1
    x.commit = none → x.writes ≠ [] → t = 0xFFFFFFFF ∨ (∀ q, partStep p s1 = some q → q < t) →
    configCommit n i s = putShelf e { x with commit := some (n, i, p, t), reports := [], closed := false }
      (setF F.CMD_SHELF_TARGET_STEP 0 e t (setF F.CMD_SHELF_PART 0 e p (setF F.CMD_SHELF_STATE 0 e 2 s1))) := by
  intro s1 e t p x hfree hstaged hahead
  have hopen : (x.commit.isSome || x.writes.isEmpty) = false := by simp [hfree, hstaged]
  have hnew : ¬x.commit = some (n, i, p, t) := by simp [hfree]
  have htime : (decide (t ≠ 0xFFFFFFFF) && (match partStep p s1 with
      | some q => decide (t ≤ q)
      | none => false)) = false := by
    rcases hahead with hnow | hlater
    · simp [hnow]
    · cases hstep : partStep p s1 with
      | none => simp
      | some q => simp [hlater q hstep]
  refine (withDesc_runs hget (by simp [hk]) hruns).trans ((if_neg (by simp [hhost])).trans ((if_neg hnew).trans ?_))
  exact (if_neg (ne_true_of_eq_false hopen)).trans (if_neg (ne_true_of_eq_false htime))

end

/-! ## Reports and the vote -/

section
variable {e : Nat} {s : State}

/-- A participant of a committed entry that can answer and has not reported judges the writes of the entry. -/
theorem shelfReport_judges {q : Nat} (hcommit : (shelfOf e s).commit ≠ none) (hpart : (shelfOf e s).parts.contains q = true)
    (hup : partPresent q s = true) (hnew : (shelfOf e s).reports.any (fun r => decide (r.1 = q)) = false) :
    let x := shelfOf e s
    shelfReport e q s = putShelf e { x with reports := x.reports ++ [(q, shelfJudge q x.writes s, s.tick)] } s := by
  have hsome : (shelfOf e s).commit.isNone = false := Option.isNone_eq_false_iff.mpr (Option.isSome_iff_ne_none.mpr hcommit)
  simp only [shelfReport, hsome, hpart, hup, hnew, Bool.not_true, Bool.or_self, Bool.false_eq_true, if_false]

variable {n i p t : Nat} (hcommit : (shelfOf e s).commit = some (n, i, p, t))
include hcommit

/-- Every write of a committed entry is applied, the entry is free again, and its ring is told. -/
theorem shelfPut_applies (info : Nat) : shelfPut e info s = sendReport n i .completed 0xFFFF info
    (freeShelf e (incF F.CMD_CFG_APPLIED_COUNT 0 0 1 ((shelfOf e s).writes.foldl (fun z w => w.put z) s))) := by
  simp only [shelfPut, hcommit]

theorem abandonShelf_reports (cause info : Nat) : abandonShelf e cause info s = sendReport n i .cfgAbandoned cause info
    (incF F.CMD_CFG_ABANDONED_COUNT 0 0 1 (freeShelf e (setF F.CMD_SHELF_LAST_CAUSE 0 e cause s))) := by
  simp only [abandonShelf, hcommit]

/-- With every report in, the vote of an entry that waits for no step closes. -/
theorem shelfVoteClose_closes (hnow : t = 0xFFFFFFFF ∨ partRuns p s = false) (hall : (shelfOf e s).gathered s = true)
    (hopen : (shelfOf e s).closed = false) : shelfVoteClose e s = shelfClose e 0 none false s := by
  have hwait : (decide (t = 0xFFFFFFFF) || !partRuns p s) = true := by rcases hnow with h | h <;> simp [h]
  simp only [shelfVoteClose, hcommit, hwait, hall, hopen, Bool.not_false, Bool.and_self, if_true]

end

section
variable {e : Nat} {before : Option Nat} {s : State}

theorem shelfClose_ready (h : (shelfOf e s).verdict before s = none) (info : Nat) :
    shelfClose e info before false s = putShelf e { shelfOf e s with closed := true } s := by
  simp only [shelfClose, h, Bool.false_eq_true, if_false]

theorem shelfClose_against {cause k : Nat} (h : (shelfOf e s).verdict before s = some (cause, k)) (info : Nat) (now : Bool) :
    shelfClose e info before now s = abandonShelf e cause k s := by
  simp only [shelfClose, h]

end

/-- Settles O49: each command by what it finds of its entry: what is staged, who has reported, and what stands against it. -/
theorem shelfRuns : Obligations.ShelfRuns := by
  intro s
  refine ⟨fun n idx d hget hruns => ?_, fun e q => ?_, fun e n i p t => ?_, rfl, fun e n i p t hcommit => shelfPut_applies hcommit 0⟩
  · intro d1 s1 hhost
    exact ⟨fun v s2 hk hgot => next_congr (configStage_reads hget hruns hhost hk hgot),
      fun s2 hk hgot => next_congr (configStage_reads hget hruns hhost hk hgot),
      fun hk hfree hstaged hahead => next_congr (configCommit_commits hget hruns hhost hk hfree hstaged hahead)⟩
  · intro x hcommit hpart hup hnew
    exact next_congr (shelfReport_judges hcommit hpart hup hnew)
  · intro x hcommit hnow hall hopen
    have hclose := shelfVoteClose_closes hcommit hnow hall hopen
    exact ⟨fun hready => next_congr (hclose.trans (shelfClose_ready hready 0)),
      fun cause info hagainst => next_congr (hclose.trans ((shelfClose_against hagainst 0 false).trans
        (abandonShelf_reports hcommit cause info)))⟩

end Sys2Proof.Machine
end

section
/-!
PROOFS. Interrupts (R335), laser modules (R287), bypass pairs (R288), Halene ports (R290 to R294) and the links between dies (R323, R325):
each command by the state of what it names (O53).
-/

namespace Sys2Proof.Machine

/-! ## Interrupts -/

section
variable {iid : Nat} {s : State} (hbridge : slotPresent 14 s = true)
include hbridge

/-- A source whose map entry is disabled is noted. -/
theorem irq_disabled (hen : bitF F.D2D_IRQ_MAP_EN 0 iid s = false) : irq iid s = flagF F.D2D_IRQ_MAP_PENDING 0 iid s := by
  simp only [irq, hbridge, hen, Bool.not_true, Bool.false_eq_true, if_false]

/-- Interrupt identity 0 of a file is none. -/
theorem irq_unmapped (hen : bitF F.D2D_IRQ_MAP_EN 0 iid s = true) (hzero : getF F.D2D_IRQ_MAP_EIID 0 iid s = 0) : irq iid s = s := by
  simp only [irq, hbridge, hen, hzero, Bool.not_true, Bool.false_eq_true, if_false, if_true]

theorem irq_delivers (hen : bitF F.D2D_IRQ_MAP_EN 0 iid s = true) (heiid : getF F.D2D_IRQ_MAP_EIID 0 iid s ≠ 0) :
    irq iid s = incF F.D2D_IRQ_SENT_COUNT 0 0 1 { s with msis := s.msis ++
      [(min 95 (getF F.D2D_IRQ_MAP_HART 0 iid s), getF F.D2D_IRQ_MAP_FILE 0 iid s, getF F.D2D_IRQ_MAP_EIID 0 iid s)] } := by
  simp only [irq, hbridge, hen, heiid, Bool.not_true, Bool.false_eq_true, if_false, if_true]

end

/-! ## Bypass pairs -/

/-- Pair `k` switching, with the ports that it crosses down. -/
def bypassBegins (k : Nat) (close : Bool) (s : State) : State :=
  bypassBusy (k / 4) ([2 * k, 2 * k + 1].foldl (fun z n => if portState n z = 2 ∨ portState n z = 3 then portDown n 1 z else z)
    { s with grove := { s.grove with switching := lput s.grove.switching k close } })

section
variable {k : Nat} {close : Bool} {s : State}

theorem bypassSwitch_of_not_at_rest
    (h : (s.grove.switching.all (fun e => decide (e.1 ≠ k)) && decide (pairClosed k s = close)) = false) :
    bypassSwitch k close s = bypassBegins k close s := by
  rw [bypassSwitch, h]
  rfl

/-- A pair that stands otherwise, or that moves, begins to switch. -/
theorem bypassSwitch_begins (h : pairClosed k s = !close ∨ k ∈ s.grove.switching.map Prod.fst) :
    bypassSwitch k close s = bypassBegins k close s := by
  apply bypassSwitch_of_not_at_rest
  rcases h with hturn | hmoving
  · simp [hturn]
  · obtain ⟨e, hmem, hkey⟩ := List.mem_map.mp hmoving
    have hall : s.grove.switching.all (fun e => decide (e.1 ≠ k)) = false := List.all_eq_false.mpr ⟨e, hmem, by simp [hkey]⟩
    rw [hall, Bool.false_and]

theorem bypassOpen_held (h : inReset s = true) : bypassOpen k s = s := if_pos h

theorem bypassOpen_switches (h : inReset s = false) : bypassOpen k s = bypassSwitch k false s := if_neg (ne_true_of_eq_false h)

theorem bypassDone_rests (h : look s.grove.switching k = some close) : bypassDone k s = bypassAt k close s := by
  simp only [bypassDone, h]

end

/-! ## Ports -/

section
variable {n : Nat} {s : State}

/-- A port that waits for nothing trains, or fails with what stopped it (R293). -/
theorem portTrain_runs (hst : portState n s = 2 ∨ portState n s = 4) (hmay : mayTrain n s = true) (hlaser : laserOn (n / 4) s = true) :
    (∀ d q m, portTrain n (.up d q m) s = portUp n d.toNat q m s) ∧ portTrain n .noLight s = portDown n 1 s ∧
    portTrain n .lane s = portDown n 2 s ∧ portTrain n .budget s = portDown n 3 s ∧ portTrain n .peerKind s = portDown n 6 s := by
  have hgo : ¬(!(decide (portState n s = 2) || decide (portState n s = 4)) || !mayTrain n s || !laserOn (n / 4) s) = true := by
    simpa [hmay, hlaser, or_iff_not_imp_left] using hst
  exact ⟨fun d q m => if_neg hgo, if_neg hgo, if_neg hgo, if_neg hgo, if_neg hgo⟩

/-- An UP port goes down for what it lost, or for what it has replayed (R293). -/
theorem portFail_of_up (hup : portState n s = 3) :
    portFail n .lane s = portDown n 2 s ∧ portFail n .noLight s = portDown n 1 s ∧
    portFail n .laser s = (if laserOn (n / 4) s then s else portDown n 5 s) ∧
    portFail n .eightTimes s = (if (s.port n).eightTimes then portErrors n s else s) ∧
    portFail n .replays s =
      if (s.port n).tooMany (getF F.HAL_PORT_CFG_REPLAY_LIMIT n 0 s) s.tick then portErrors n s else s := by
  have hgo : ¬portState n s ≠ 3 := not_not_intro hup
  exact ⟨if_neg hgo, if_neg hgo, if_neg hgo, if_neg hgo, if_neg hgo⟩

/-- An UP or DOWN port retrains once its module emits (R292). -/
theorem portRetrain_retrains (h : portState n s = 3 ∨ portState n s = 4) :
    portRetrain n s = portDown n (if laserOn (n / 4) s then 7 else 5) s := by
  rw [portRetrain, if_pos h, apply_ite fun cause => portDown n cause s]

theorem clearRetired_retrains (h : portState n s = 5) :
    clearRetired n s = portDown n (if laserOn (n / 4) s then 7 else 5) (s.putPort n { s.port n with errorsAt := [] }) := by
  rw [clearRetired, if_neg (not_not_intro h), apply_ite fun cause => portDown n cause _]
  rfl

end

/-! ## Flits of a port -/

theorem Port.takes_iff (k : Port) (seq : Nat) (again : Bool) :
    k.takes seq again = true ↔ seq = k.rxSeq ∧ (k.discarding = false ∨ again = true) := by
  simp [Port.takes]

section
variable {n : Nat} {f : Flit} {s : State} (hup : portState n s = 3)
include hup

/-- A flit that cannot be checked is discarded, with those after it; a checked one is taken where it is the one that the port waits for
(R291). -/
theorem flitReceive_of_up :
    let s1 := flitCorrect F.HAL_PORT_CE_COUNT n ⟨5, 12 + n / 8, n, 0⟩ f.corrected s
    let k := s1.port n
    (f.bad = true → flitReceive n f s =
      incF F.HAL_PORT_BAD_COUNT n 0 1 (s1.putPort n { k with discarding := true, nak := true })) ∧
    (f.bad = false → k.takes f.seq f.again = true → flitReceive n f s = flitTake n f s1) ∧
    (f.bad = false → k.takes f.seq f.again = false → flitReceive n f s = s1) := by
  refine ⟨fun hbad => ?_, fun hgood htakes => ?_, fun hgood hother => ?_⟩
  · simp only [flitReceive, hup, hbad, ne_eq, not_true_eq_false, if_false, if_true]
  · simp only [flitReceive, hup, hgood, htakes, ne_eq, not_true_eq_false, Bool.false_eq_true, if_false, if_true]
  · simp only [flitReceive, hup, hgood, hother, ne_eq, not_true_eq_false, Bool.false_eq_true, if_false]

theorem flitReplay_of_up (q m : Nat) :
    let limit := getF F.HAL_PORT_CFG_REPLAY_LIMIT n 0 s
    let k := (s.port n).replay q limit s.tick
    let s1 := incF F.HAL_PORT_TX_COUNT n 0 (min 1024 m) (incF F.HAL_PORT_REPLAY_COUNT n 0 1 (replayMark n (s.putPort n k)))
    flitReplay n q m s = if k.eightTimes || k.tooMany limit s.tick then portErrors n s1 else s1 := if_neg (not_not_intro hup)

end

/-! ## Links between dies -/

/-- A link that trains between two dies that are not fenced comes UP at both ends, or goes DOWN (R325). -/
theorem linkTrain_runs {d l q m : Nat} {s : State} (hpeer : peerLink d l = some (q, m)) (hfar : q ≠ 15) (hnear : d ≠ 15)
    (hmain : s.pins.vmain = true) (hreset : inReset s = false) (hlink : linkState d l s = 1) (hd : dieState d s ≠ 1)
    (hq : dieState q s ≠ 1) :
    linkTrain d l .failed s = settleDie q (settleDie d (setBoth d l 0 1 s)) ∧
    ∀ (rate : Fin 2) (near far : DieInfo),
      let rated (u peer : Nat) (z : State) : State := setF F.D2D_LINK_STATUS_RATE u 0 rate.val (setF F.D2D_LINK_STATUS_PEER_SLOT u 0 peer z)
      linkTrain d l (.up rate near far) s = settleDie q (settleDie d (reportDie q far (reportDie d near
        (rated (linkUnit d l) q (rated (linkUnit q m) d (setBoth d l 2 0 s)))))) := by
  simp only [linkTrain, hpeer, hfar, hnear, hmain, hreset, hlink, hd, hq, Bool.not_true, Bool.false_eq_true, ne_eq, not_true_eq_false,
    or_self, if_false, implies_true, and_self]

section
variable {d l : Nat} {f : DFlit} {s : State} (hup : linkState d l s = 2)
include hup

theorem linkRetrain_retrains : linkRetrain d l s = setBoth d l 1 0 s := if_pos hup

/-- A flit that cannot be checked, and every later one until the sender replays, is counted as BAD; any other is delivered (R323). -/
theorem dflitReceive_of_up :
    let u := linkUnit d l
    let s1 := flitCorrect F.D2D_LINK_CE_COUNT u ⟨4, d, l, 0⟩ f.corrected s
    let k := s1.dlink u
    (f.bad = true → dflitReceive d l f s = senderReplays d l (senderSent d l false
      (incF F.D2D_LINK_BAD_COUNT u 0 1 (s1.putDlink u { k with discarding := true })))) ∧
    (f.bad = false → k.discarding = true → f.again = false →
      dflitReceive d l f s = senderSent d l false (incF F.D2D_LINK_BAD_COUNT u 0 1 s1)) ∧
    (f.bad = false → k.discarding = false ∨ f.again = true →
      dflitReceive d l f s = senderSent d l true (s1.putDlink u { k with discarding := false })) := by
  refine ⟨fun hbad => ?_, fun hgood hdiscards hnew => ?_, fun hgood hdelivers => ?_⟩
  · simp only [dflitReceive, hup, hbad, ne_eq, not_true_eq_false, if_false, if_true]
  · simp only [dflitReceive, hup, hgood, hdiscards, hnew, ne_eq, not_true_eq_false, Bool.false_eq_true, Bool.not_false, Bool.and_self,
      if_false, if_true]
  · have hnot := Bool.and_eq_false_iff.mpr (hdelivers.imp_right (congrArg not))
    simp only [dflitReceive, hup, hgood, hnot, ne_eq, not_true_eq_false, Bool.false_eq_true, if_false]

end

/-- Settles O53: each command by the state of the map entry, module, pair, port or link that it names. -/
theorem portsAndLinks : Obligations.PortsAndLinks := by
  intro s
  refine ⟨fun iid hbridge => ⟨fun hen => next_congr (irq_disabled hbridge hen),
      fun hen hzero => next_congr (irq_unmapped hbridge hen hzero), fun hen heiid => next_congr (irq_delivers hbridge hen heiid)⟩,
    fun i v => rfl, fun m => ⟨rfl, rfl, rfl, rfl, rfl, fun t => rfl, fun t w h => rfl⟩, fun k => ?_, fun n => ?_,
    fun d l q m hpeer hfar hnear => ?_⟩
  · exact ⟨fun h => next_congr (bypassSwitch_begins (close := true) h),
      fun hreset h => next_congr ((bypassOpen_switches hreset).trans (bypassSwitch_begins (close := false) h)),
      fun hreset => next_congr (bypassOpen_held hreset), fun close hlook => next_congr (bypassDone_rests hlook)⟩
  · refine ⟨fun hst hmay hlaser => ?_, fun hup => ?_, fun h => next_congr (portRetrain_retrains h),
      fun h => next_congr (clearRetired_retrains h), fun f hup => ?_, fun q m hup => next_congr (flitReplay_of_up hup q.toNat m)⟩
    · obtain ⟨htrained, hdark, hlane, hbudget, hkind⟩ := portTrain_runs hst hmay hlaser
      exact ⟨fun d q m => next_congr (htrained d q m), next_congr hdark, next_congr hlane, next_congr hbudget, next_congr hkind⟩
    · obtain ⟨hlane, hdark, hlaser, height, hreplays⟩ := portFail_of_up hup
      exact ⟨next_congr hlane, next_congr hdark, fun hoff => next_congr (hlaser.trans (if_neg (ne_true_of_eq_false hoff))),
        fun h => next_congr (height.trans (if_pos h)), fun h => next_congr (hreplays.trans (if_pos h))⟩
    · obtain ⟨hbad, htaken, hleft⟩ := flitReceive_of_up (f := f) hup
      refine ⟨fun h => next_congr (hbad h), fun hgood hseq hopen => next_congr (htaken hgood ((Port.takes_iff ..).mpr ⟨hseq, hopen⟩)),
        fun hgood hother => next_congr (hleft hgood (Bool.eq_false_iff.mpr fun htakes => ?_))⟩
      obtain ⟨hseq, hopen⟩ := (Port.takes_iff ..).mp htakes
      exact hother.elim (absurd hseq) fun ⟨hdiscards, hnew⟩ => by simp [hdiscards, hnew] at hopen
  · refine ⟨fun hmain hreset hlink hd hq => ?_, fun hup => next_congr (linkRetrain_retrains hup), fun f hup => ?_⟩
    · obtain ⟨hfailed, htrained⟩ := linkTrain_runs hpeer hfar hnear hmain hreset hlink hd hq
      exact ⟨next_congr hfailed, fun rate near far => next_congr (htrained rate near far)⟩
    · obtain ⟨hbad, hdiscarded, hdelivered⟩ := dflitReceive_of_up (f := f) hup
      exact ⟨fun h => next_congr (hbad h), fun hgood hdiscards hnew => next_congr (hdiscarded hgood hdiscards hnew),
        fun hgood h => next_congr (hdelivered hgood h)⟩

end Sys2Proof.Machine
end

section
/-!
PROOFS. Messages between packages (R295, R299, R300, R316, R328): how one passes a port, what acknowledges and reissues it, and how
diverted atomics go on (O54).
-/

namespace Sys2Proof.Machine

/-! ## At a port -/

/-- The flow of a message is named by its header alone. -/
theorem flow_come (m : Msg) (own : Nat) : (Diverted.come m).flow own = (m.hdr.src.val, m.hdr.dst.val, m.hdr.chan.val) := by
  cases m <;> rfl

theorem flowHeld_come (m : Msg) (s : State) : flowHeld (.come m) s = flowHeld (.come (.read m.hdr)) s := by
  simp only [flowHeld, flow_come, Msg.hdr]

/-- The state in which the receiving side of a header's flow has taken one more message, its 64th acknowledged at once (R299). -/
def tookMsg (h : MsgHdr) (s : State) : State :=
  let e := getRx h.src.val h.chan.val s
  putRx { e with expect := (h.e2e.toNat + 1) % 2048, owed := if 64 ≤ e.owed + 1 then 0 else e.owed + 1 } s

theorem takeE2e_expected {h : MsgHdr} {s : State} (hnum : (getRx h.src.val h.chan.val s).expect = h.e2e.toNat) :
    takeE2e h s = (true, tookMsg h s) := if_pos hnum.symm

/-- Whether a message that comes by port `n` meets no older I/O die: it is no ATOMIC, or the ports that it comes and goes by forward atomics
(R328). -/
def Direct (n : Nat) (m : Msg) (s : State) : Prop :=
  isAtomicMsg m = true → forwardsAtomics n s = true ∧ (m.hdr.dst.val = ownPkg s ∨ outForwards m.hdr.dst.val m.hdr.chan.val s = true)

theorem direct_of_not_atomic {n : Nat} {m : Msg} {s : State} (h : isAtomicMsg m = false) : Direct n m s :=
  fun hatomic => absurd hatomic (ne_true_of_eq_false h)

section
variable {n : Nat} {m : Msg} {h : MsgHdr} {s : State} (hhdr : m.hdr = h)
include hhdr

/-- A direct message of no held flow goes on at an UP port of a member (R300). -/
theorem arrive_passes (hmember : getF F.HAL_GROVE_STATUS_STATE 0 0 s = 2) (hup : getF F.HAL_PORT_STATUS_STATE n 0 s = 3)
    (hfree : flowHeld (.come (.read h)) s = false) (hdirect : Direct n m s) : arrive n m s = passMsg m s := by
  have hstays : (isAtomicMsg m &&
      !(forwardsAtomics n s && (decide (m.hdr.dst.val = ownPkg s) || outForwards m.hdr.dst.val m.hdr.chan.val s))) = false := by
    cases hatomic : isAtomicMsg m with
    | false => rfl
    | true =>
      obtain ⟨hin, hown | hout⟩ := hdirect hatomic
      · simp [hin, hown]
      · simp [hin, hout]
  have hflow : flowHeld (.come m) s = false := by rw [flowHeld_come, hhdr, hfree]
  simp only [arrive, hmember, hup, hstays, hflow, ne_eq, not_true_eq_false, or_self, Bool.or_self, Bool.false_eq_true,
    if_false]

/-- A message for another member is forwarded (R300). -/
theorem passMsg_forwards (hdst : h.dst.val ≠ ownPkg s) (hto : isMember h.dst.val s = true) :
    passMsg m s = incF F.HAL_FWD_BYTES_COUNT 0 0 m.bytes s := by
  simp only [passMsg, hhdr, hdst, hto, ne_eq, not_false_eq_true, if_true]

/-- A message for this package with the number expected is taken and served (R299). -/
theorem passMsg_serves (hdst : h.dst.val = ownPkg s) (hnum : (getRx h.src.val h.chan.val s).expect = h.e2e.toNat) :
    passMsg m s = serve m (tookMsg h s) := by
  simp only [passMsg, hhdr, hdst, takeE2e_expected hnum, ne_eq, not_true_eq_false, if_false, if_true]

end

section
variable {n : PortId} {h : MsgHdr}

/-- A message of bytes in one line arrives at its port. -/
theorem exec_msg_arrives (hok : MsgOk h = true) (data : BitVec 1024) (a : Atom) (step : BitVec 32) (key : BitVec 16) (s : State) :
    exec (.msgRead n h) s = .next (arrive n (.read h) s) ∧ exec (.msgWrite n h data) s = .next (arrive n (.write h data) s) ∧
    exec (.msgAtomic n h a step key) s = .next (arrive n (.atomic h a step key) s) := ⟨if_pos hok, if_pos hok, if_pos hok⟩

/-- One of bytes in two lines is ill formed (R295). -/
theorem exec_msg_illFormed (hill : MsgOk h = false) (data : BitVec 1024) (a : Atom) (step : BitVec 32) (key : BitVec 16) (s : State) :
    exec (.msgRead n h) s = badMsg ∧ exec (.msgWrite n h data) s = badMsg ∧ exec (.msgAtomic n h a step key) s = badMsg :=
  have hnot := ne_true_of_eq_false hill
  ⟨if_neg hnot, if_neg hnot, if_neg hnot⟩

end

/-- An answered request of another package leaves as a message (R295). -/
theorem leaveResp_leaves {id : Nat} {r : Req} {s : State} (hget : netGet id s = some r) (hst : r.st = .answered) {q slot bed : Nat}
    (hsrc : r.src = .pkg q slot bed) : leaveResp id s = sendMsg .mgt q id false (netDel id s) := by
  simp only [leaveResp, hget, hsrc, hst]

/-! ## Acknowledgement and reissue -/

section
variable {q chan : Nat} {s : State}

theorem e2eAck_frees {seq : Nat} (h : (getTx q chan s).held.any (fun x => decide (x.1 = seq)) = true) :
    let e := getTx q chan s
    e2eAck q chan seq s = putTx (sendWaiting { e with
      held := (e.held.dropWhile fun x => decide (x.1 ≠ seq)).drop 1, since := s.tick } s.tick) s := if_pos h

theorem e2eReissue_sends (hheld : (getTx q chan s).held.isEmpty = false)
    (hdue : (getTx q chan s).due = true ∨ (getTx q chan s).since + 250 ≤ s.tick) :
    let e := getTx q chan s
    e2eReissue q chan s = markLink (e.held.map Prod.snd)
      (incF F.HAL_REISSUE_COUNT 0 0 e.held.length (putTx { e with since := s.tick, due := false } s)) :=
  if_neg (by simpa [hheld, or_iff_not_imp_left] using hdue)

/-- With nothing held, or no reason to send it again yet, nothing is reissued. -/
theorem e2eReissue_rests (h : (getTx q chan s).held.isEmpty = true ∨ ((getTx q chan s).due = false ∧ s.tick < (getTx q chan s).since + 250)) :
    e2eReissue q chan s = s := if_pos (by simpa using h)

theorem e2eAckTimer_sends (h : (getRx q chan s).owed ≠ 0) :
    e2eAckTimer q chan s = putRx { getRx q chan s with owed := 0 } s := if_neg h

end

/-! ## Diverted atomics -/

theorem atomicDivert_passes {x : Diverted} {l : List Diverted} {s : State} (h : s.grove.diverted = x :: l) :
    atomicDivert s = releaseDiverted l (passDiverted x { s with grove := { s.grove with diverted := [] } }) := by
  simp only [atomicDivert, h]

/-- Settles O54: a message by its port, its flow and its destination; each other command by what is held for its flow. -/
theorem messagesPass : Obligations.MessagesPass := by
  intro s
  refine ⟨fun n h data a step key id st => ⟨exec_msg_illFormed (data := data) (a := a) (step := step) (key := key) (s := s),
      fun hok hmember hup hfree => ?_⟩,
    fun n id r hget hst q slot bed hsrc => next_congr (leaveResp_leaves hget hst hsrc),
    fun q chan seq => ⟨fun hheld => next_congr (e2eAck_frees hheld), fun hheld hdue => next_congr (e2eReissue_sends hheld hdue),
      fun hrests => next_congr (e2eReissue_rests hrests), fun howed => next_congr (e2eAckTimer_sends howed)⟩,
    fun m l hdiverted => next_congr (atomicDivert_passes hdiverted)⟩
  obtain ⟨hread, hwrite, hatomic⟩ := exec_msg_arrives (n := n) hok data a step key s
  refine ⟨fun hdst hto => ?_, fun hdst hnum => ?_⟩
  · have hforwards (m : Msg) (hhdr : m.hdr = h) (hdirect : Direct n m s) :
        (.next (arrive n m s) : Host.Outcome State Fault Refusal) = .next (incF F.HAL_FWD_BYTES_COUNT 0 0 m.bytes s) :=
      next_congr ((arrive_passes hhdr hmember hup hfree hdirect).trans (passMsg_forwards hhdr hdst hto))
    have hplain (m : Msg) (hhdr : m.hdr = h) (hm : isAtomicMsg m = false) := hforwards m hhdr (direct_of_not_atomic hm)
    exact ⟨hread.trans (hplain (.read h) rfl rfl), hwrite.trans (hplain (.write h data) rfl rfl),
      fun hgoes => hatomic.trans (hforwards (.atomic h a step key) rfl fun _ => hgoes),
      hplain (.resp h id st .none) rfl rfl, fun v => hplain (.resp h id st (.old v)) rfl rfl,
      fun v => hplain (.resp h id st (.line v)) rfl rfl⟩
  · have hserves (m : Msg) (hhdr : m.hdr = h) (hdirect : Direct n m s) :
        (.next (arrive n m s) : Host.Outcome State Fault Refusal) = .next (serve m (tookMsg h s)) :=
      next_congr ((arrive_passes hhdr hmember hup hfree hdirect).trans (passMsg_serves hhdr hdst hnum))
    have hplain (m : Msg) (hhdr : m.hdr = h) (hm : isAtomicMsg m = false) := hserves m hhdr (direct_of_not_atomic hm)
    exact ⟨hread.trans (hplain (.read h) rfl rfl), hwrite.trans (hplain (.write h data) rfl rfl),
      fun hgoes => hatomic.trans (hserves (.atomic h a step key) rfl fun _ => hgoes),
      fun d => hplain (.resp h id st d) rfl rfl⟩

end Sys2Proof.Machine
end

section
/-!
PROOFS. Membership of a grove (R302 to R309, R435): cards, charters, time, joining, leaving and the state epoch (O55).
-/

namespace Sys2Proof.Machine

/-! ## Cards -/

section
variable {n : Nat} {c : Card} {s t : State}
  (htaken : takeCtl n (if c.pkg = 0 then 512 + c.serial.toNat else c.pkg.toNat) c.counter.toNat (.card c) s = (true, t))
include htaken

/-- A card of another package is noted and judged (R304). -/
theorem card_of_other (hother : s.ident.isSome = false ∨ c.serial ≠ ownSerial s) : card n c s = judgeCard c (noteCard n c t) := by
  have hmine : (s.ident.isSome && decide (c.serial = ownSerial s)) = false := by
    rcases hother with hnone | hserial
    · rw [hnone, Bool.false_and]
    · rw [decide_eq_false hserial, Bool.and_false]
  simp only [card, hmine, htaken, Bool.false_and, Bool.not_true, Bool.false_eq_true, if_false]

/-- The own serial under another number excludes the package (R308). -/
theorem card_of_own_serial (hident : s.ident.isSome = true) (hserial : c.serial = ownSerial s) (hpkg : c.pkg.toNat ≠ ownPkg s) :
    card n c s = exclude 5 t := by
  have hmine : (s.ident.isSome && decide (c.serial = ownSerial s)) = true := by rw [hident, decide_eq_true hserial, Bool.true_and]
  simp only [card, hmine, hpkg, htaken, decide_false, Bool.and_false, Bool.false_and, Bool.not_true, Bool.false_eq_true, if_false, if_true]

end

theorem cardSend_floods {s : State} {n : PortId} (hup : portState n s = 3) : cardSend s = flood (.card (ownCard s)) s := by
  rw [cardSend, if_pos (List.any_eq_true.mpr ⟨n.val, List.mem_range.mpr n.isLt, decide_eq_true hup⟩)]

/-! ## Charters -/

/-- A charter of another author is held for adoption where none is held or in force (R306). -/
theorem charterIn_holds {h : CtlHdr} {c : Charter} {s t : State} (hother : c.author.serial ≠ ownSerial s)
    (hst : getF F.HAL_GROVE_STATUS_STATE 0 0 s = 1 ∨ getF F.HAL_GROVE_STATUS_STATE 0 0 s = 2)
    (htaken : takeCtl h.port (if h.src.val = 0 then 512 + c.author.serial.toNat else h.src.val) h.counter.toNat (.charter c) s = (true, t))
    (hnext : t.grove.next = none) (hnone : t.grove.charter = none) :
    charterIn h c s = { t with grove := { t.grove with next := some c } } := by
  have hjoins : (decide (getF F.HAL_GROVE_STATUS_STATE 0 0 s = 1) || decide (getF F.HAL_GROVE_STATUS_STATE 0 0 s = 2)) = true := by
    rcases hst with h1 | h2
    · rw [decide_eq_true h1, Bool.true_or]
    · rw [decide_eq_true h2, Bool.or_true]
  simp only [charterIn, hother, htaken, hjoins, hnext, hnone, Bool.not_true, Bool.or_self, Bool.false_eq_true, if_false]

/-- The author issues its charter 20 ms after the last new card (R305). -/
theorem charterIssue_floods {ws : List Wire} {s : State}
    (hst : getF F.HAL_GROVE_STATUS_STATE 0 0 s = 1 ∨ getF F.HAL_GROVE_STATUS_STATE 0 0 s = 2) (hauthor : isAuthor s = true)
    (hdue : s.grove.newAt + 500000 ≤ s.tick) :
    let c := makeCharter (ownCard s) (liveCards s) ws ((s.grove.next.map (·.seq)).getD (charterSeq s) + 1) s.tick
    charterIssue ws s = flood (.charter c) { s with grove := { s.grove with next := some c } } := by
  refine if_neg ?_
  rcases hst with h | h <;> simp [h, hauthor, hdue]

section
variable {c : Charter} {s : State} (hnext : s.grove.next = some c) (hdue : (s.tick + 2 ^ 32 - c.effective.toNat) % 2 ^ 32 < 2 ^ 31)
include hnext hdue

theorem charterEffective_adopts {m : Member} (h : c.members.find? (fun m => decide (m.serial = ownSerial s)) = some m) :
    charterEffective s = adopt c m s := by
  simp only [charterEffective, hnext, Nat.not_le.mpr hdue, h, if_false]

/-- A package that the charter leaves out is excluded (R305). -/
theorem charterEffective_excludes (h : c.members.find? (fun m => decide (m.serial = ownSerial s)) = none) :
    charterEffective s = exclude (outCause c s) s := by
  simp only [charterEffective, hnext, Nat.not_le.mpr hdue, h, if_false]

end

/-! ## Time -/

theorem timeExchange_measures {t : TimeF} {s : State} (hst : getF F.HAL_GROVE_STATUS_STATE 0 0 s = 2)
    (htk : bitF F.HAL_GROVE_STATUS_TIMEKEEPER 0 0 s = false) :
    let res := (t.there - t.back) / 2 + t.parent
    let off := res < -40000 ∨ 40000 < res
    let bad := if off ∧ s.grove.joinedAt + 2500000 ≤ s.tick then s.grove.residualBad + 1 else 0
    let s1 := setF F.HAL_TIME_STATUS_DPLL_LOCK 0 0 (if off then 0 else 1) (setF F.HAL_TIME_STATUS_RESIDUAL 0 0 (res % 2 ^ 32).toNat
      { s with grove := { s.grove with residual := res, residualBad := bad } })
    timeExchange t s = if 3 ≤ bad then exclude 2 s1 else s1 := by
  intro res off bad s1
  have hoff : (decide (tickPs < res) || decide (res < -tickPs)) = decide off := by
    rw [Bool.or_comm, ← Bool.decide_or]
    rfl
  have hbad : (if (decide off && decide (s.grove.joinedAt + 2500000 ≤ s.tick)) = true then s.grove.residualBad + 1 else 0) = bad := by
    simp only [← Bool.decide_and, decide_eq_true_eq, bad]
  simp only [timeExchange, hst, htk, ne_eq, not_true_eq_false, Bool.false_eq_true, or_self, if_false, hoff, hbad, decide_eq_true_eq, res]
  rfl

/-- EXT_TIME_CHANGE of the PPS input (R435). -/
theorem extTime_pps {s : State} (haux : s.pins.aux = true) (present : Bool) :
    extTime true present s = setF F.HAL_TIME_STATUS_EXT_PPS 0 0 (if present then 1 else 0) s := by
  simp only [extTime, haux, Bool.not_true, Bool.false_eq_true, if_false, if_true]

/-- EXT_TIME_CHANGE of the 10 MHz input: a timekeeper that loses it is in holdover (R302). -/
theorem extTime_10M {s : State} (haux : s.pins.aux = true) (present : Bool) :
    let s1 := setF F.HAL_TIME_STATUS_EXT_10M 0 0 (if present then 1 else 0) s
    extTime false present s = if present then setF F.HAL_TIME_STATUS_HOLDOVER 0 0 0 s1
      else if bitF F.HAL_TIME_STATUS_EXT_10M 0 0 s && bitF F.HAL_GROVE_STATUS_TIMEKEEPER 0 0 s then setF F.HAL_TIME_STATUS_HOLDOVER 0 0 1 s1
      else s1 := by
  simp only [extTime, haux, Bool.not_true, Bool.false_eq_true, if_false]

/-! ## Joining and leaving -/

theorem memberLost_loses {q : Nat} {s : State} (hmember : isMember q s = true) (hother : q ≠ ownPkg s)
    (hsilent : s.grove.cards.any (fun c => decide (c.card.pkg.toNat = q) && decide (c.tick + 250000 ≤ s.tick)) = true) :
    memberLost q s = lostMember q s := if_pos (by rw [hmember, decide_eq_true hother, hsilent]; rfl)

section
variable {s : State} (hforming : getF F.HAL_GROVE_STATUS_STATE 0 0 s ≠ 1) (hmember : getF F.HAL_GROVE_STATUS_STATE 0 0 s ≠ 2)
include hforming hmember

theorem joinGrove_excludes (h : healthy s = false) : joinGrove s = exclude 6 s := by
  simp only [joinGrove, hforming, hmember, h, or_self, Bool.not_false, if_false, if_true]

theorem joinGrove_begins (h : healthy s = true) : joinGrove s = setF F.HAL_GROVE_STATUS_EXCL_CAUSE 0 0 0
    (setF F.HAL_GROVE_STATUS_STATE 0 0 1 { s with grove := { s.grove with newAt := s.tick } }) := by
  simp only [joinGrove, hforming, hmember, h, or_self, Bool.not_true, Bool.false_eq_true, if_false]

end

/-- A STALE member on which no grove launch runs takes the grove's epoch (R309). -/
theorem adoptEpoch_takes {e : BitVec 64} {s : State} (hstale : bitF F.HAL_GROVE_STATUS_STALE 0 0 s = true)
    (hidle : ∀ p l, launchOf p s = some l → l.grove = false)
    (hepoch : ((tkCard s).map (·.epoch)).or (s.grove.charter.map fun c => c.author.epoch) = some e) :
    adoptEpoch s = setF F.HAL_GROVE_STATUS_STALE 0 0 0 (setF F.HAL_STATE_EPOCH_EPOCH 0 0 e.toNat s) := by
  have hbusy : ((List.range 32).any fun p => (launchOf p s).any (·.grove)) = false := by
    refine List.any_eq_false.mpr fun p _ hgrove => ?_
    obtain ⟨l, hl, hg⟩ := (Option.any_eq_true ..).mp hgrove
    exact absurd hg (ne_true_of_eq_false (hidle p l hl))
  simp only [adoptEpoch, hstale, hbusy, Option.orElse_eq_orElse, Option.orElse_eq_or, hepoch, Bool.not_true, Bool.or_self,
    Bool.false_eq_true, if_false]

/-- Settles O55: each command by the state of the package, and by what it takes, holds or has heard. -/
theorem groveMembership : Obligations.GroveMembership := by
  intro s st tk
  exact ⟨fun n c t htaken => ⟨fun hother => next_congr (card_of_other htaken hother),
      fun hident hserial hpkg => next_congr (card_of_own_serial htaken hident hserial hpkg)⟩,
    fun ⟨n, hup⟩ => next_congr (cardSend_floods hup),
    fun h c t hother hst htaken hnext hnone => next_congr (charterIn_holds hother hst htaken hnext hnone),
    fun ws hst hauthor hdue => next_congr (charterIssue_floods hst hauthor hdue),
    fun c hnext hdue => ⟨fun m hfound => next_congr (charterEffective_adopts hnext hdue hfound),
      fun hout => next_congr (charterEffective_excludes hnext hdue hout)⟩,
    fun t hst htk => next_congr (timeExchange_measures hst htk),
    fun present haux => ⟨next_congr (extTime_pps haux present), next_congr (extTime_10M haux present)⟩,
    fun q hmember hother hsilent => next_congr (memberLost_loses hmember hother hsilent),
    fun hforming hmember => ⟨fun h => next_congr (joinGrove_excludes hforming hmember h),
      fun h => next_congr (joinGrove_begins hforming hmember h)⟩,
    fun hmember => next_congr (if_pos hmember),
    fun e hstale hidle hepoch => next_congr (adoptEpoch_takes hstale hidle hepoch)⟩

end Sys2Proof.Machine
end

section
/-!
PROOFS. Grove launches (R310, R312 to R314, R380) and locked mode (R311): who is ready, what is agreed, and when a step slips or is
released (O56).
-/

namespace Sys2Proof.Machine

/-! ## READY -/

section
variable {h : CtlHdr} {r : ReadyF} {s t : State} (htaken : takeHdr h (.ready r) s = (true, t))
include htaken

theorem ready_notes (hmeant : r.refused = false) : ready h r s = noteReady r t := by
  simp only [ready, htaken, hmeant, Bool.not_true, Bool.false_and, Bool.false_eq_true, if_false]

/-- A refusal ends the unstarted launches of its digest that have sent their own READY (R310). -/
theorem ready_refused (hrefused : r.refused = true) :
    let t1 := noteReady r t
    let mine := (launchesOf r.digest t1).filter fun p =>
      (launchOf p t1).any fun l => !l.started && !l.stop && l.readyAt.isSome && l.span.contains r.src.val
    ready h r s = if mine = [] then t1
      else forgetReady r.digest (mine.foldl (fun y p => failLaunch p .featureMissing y) t1) := by
  intro t1 mine
  have hends : ready h r s = if (!mine.isEmpty) = true then
      forgetReady r.digest (mine.foldl (fun y p => failLaunch p .featureMissing y) t1) else t1 := by
    simp only [ready, htaken, hrefused, Bool.not_true, Bool.false_eq_true, if_false, Bool.true_and, mine, t1]
  rw [hends]
  cases mine with
  | nil => rfl
  | cons p ps => rfl

end

section
variable {p : Nat} {l : Launch} {s : State} (hl : launchOf p s = some l) (hwaits : l.started = false) (hgrove : l.grove = true)
  (hruns : l.stop = false)
include hl hwaits hgrove hruns

/-- A launch for which a READY has stayed away too long ends (R310). -/
theorem readyTimeout_ends {r : ReadyAt} {g : List ReadyAt} (hgot : (l.span.filterMap fun q => readyOf l.digest q s) = r :: g)
    (hmissing : (l.span.any fun q => (readyOf l.digest q s).isNone) = true)
    (hlate : ((r :: g).map (·.tick)).foldl min r.tick + getF F.HAL_GROVE_CFG_READY_10MS 0 0 s * 250000 ≤ s.tick) :
    readyTimeout p s = forgetReady l.digest (failLaunch p .groveExcluded s) := by
  have hfirst : (((r :: g).head?.map (·.tick)).getD 0) = r.tick := rfl
  simp only [readyTimeout, hl, hwaits, hgrove, hruns, hgot, hmissing, hfirst, Nat.not_lt.mpr hlate, List.isEmpty_cons, decide_false,
    Bool.not_true, Bool.or_self, Bool.false_eq_true, if_false]

/-- A launch that has every READY, at its tick, starts (R310). -/
theorem groveStart_starts (hsent : l.readyAt.isSome = true) (hall : (l.span.all fun q => (readyOf l.digest q s).isSome) = true)
    (hcome : groveT0 l s ≤ s.tick) (hmode : l.locked = true ∨ s.cyc % 64 = 0) (hnew : l.resumed = false) {m : Launch}
    (hgone : launchOf p (launchGo p (forgetReady l.digest s)) = some m) :
    groveStart p s = putLaunch p { m with stepTick := groveT0 l s } (launchGo p (forgetReady l.digest s)) := by
  have hnone : l.readyAt.isNone = false := Option.isNone_eq_false_iff.mpr hsent
  have hboundary : (!l.locked && decide (s.cyc % 64 ≠ 0)) = false := by rcases hmode with h | h <;> simp [h]
  simp only [groveStart, hl, hwaits, hgrove, hruns, hnone, hall, Nat.not_lt.mpr hcome, hboundary, hnew, hgone, decide_false, Bool.not_true,
    Bool.or_self, Bool.false_eq_true, if_false]

end

/-! ## AGREE and DIVERGE -/

/-- What a launch makes of a report of package `src` (R222, R313, R371). -/
def takeAgree (p : Nat) (l : Launch) (src : Nat) (f : AgreeF) (t : State) : State :=
  match f with
  | .short q d => takeShort p l src q.toNat d.toNat t
  | .fallback q g d => takeLateSet p l src q.toNat g.toNat d.toNat t
  | .saved q => keepReport p l ⟨src, q.toNat, 2, 0, 0⟩ t
  | .failed q => keepReport p l ⟨src, q.toNat, 3, 0, 0⟩ t

/-- A report of a package of the span is taken by the launch of its partition. -/
theorem agree_takes {h : CtlHdr} {p : PartId} {f : AgreeF} {s t : State} {l : Launch} (htaken : takeHdr h (.agree p f) s = (true, t))
    (hl : launchOf p t = some l) (hgrove : l.grove = true) (hspan : l.span.contains h.src.val = true) :
    agree h p f s = takeAgree p l h.src f t := by
  simp only [agree, Fin.ofNat_val_eq_self, htaken, hl, hgrove, hspan, Bool.not_true, Bool.or_self, Bool.false_eq_true, if_false]
  cases f <;> rfl

section
variable {p src q : Nat} {l : Launch} {t : State} (hstep : q = l.step)
include hstep

/-- A SHORT for the present step whose tick is not past is kept. -/
theorem takeShort_keeps {d : Nat} (h : l.endP (agreeA t) ≤ d) : takeShort p l src q d t = keepReport p l ⟨src, l.step, 0, d, 0⟩ t := by
  simp only [takeShort, hstep, Nat.not_lt.mpr h, if_true, if_false]

/-- One that comes after the decision of its tick is counted (R314). -/
theorem takeShort_late {d : Nat} (h : d < l.endP (agreeA t)) : takeShort p l src q d t = incF F.HAL_LATE_AGREE_COUNT 0 0 1 t := by
  simp only [takeShort, hstep, h, if_true, lateAgree, Bool.false_eq_true, if_false]

/-- A report that an undecided set of the present step is late is kept (R222). -/
theorem takeLateSet_keeps {g d : Nat} (h : l.fbSet q g d = none) : takeLateSet p l src q g d t = keepReport p l ⟨src, q, 1, g, d⟩ t := by
  have hbegan : l.began q = some l.stepTick := if_pos hstep
  have hpresent : ¬q < l.step := Nat.not_lt.mpr (Nat.le_of_eq hstep.symm)
  simp only [takeLateSet, h, hbegan, hpresent, false_and, if_false]

end

theorem diverge_ends {h : CtlHdr} {digest : BitVec 512} {step : BitVec 32} {tick : BitVec 64} {s t : State}
    (htaken : takeHdr h (.diverge digest step tick) s = (true, t)) :
    diverge h digest step tick s = (launchesOf digest t).foldl (fun y p => diverged p y) t := by
  simp only [diverge, htaken, if_true]

/-! ## Locked mode -/

/-- A member asks for locked mode of the timekeeper, which may be itself (R311). -/
theorem lock_asks {s : State} (hmember : getF F.HAL_GROVE_STATUS_STATE 0 0 s = 2) (hfree : bitF F.HAL_GROVE_STATUS_LOCKED 0 0 s = false) :
    lock .ask s = if bitF F.HAL_GROVE_STATUS_TIMEKEEPER 0 0 s then lockDecide (ownPkg s) s
      else flood (.lockAsk (Fin.ofNat 512 (ownPkg s))) s := by
  simp only [lock, hmember, hfree, ne_eq, not_true_eq_false, Bool.false_eq_true, or_self, if_false]

theorem lockEntry_enters {t : Nat} {s : State} (hset : s.grove.lockAt = some t) (hcome : t ≤ s.tick) : lockEntry s =
    lockLaunches (setF F.HAL_GROVE_STATUS_LOCKED 0 0 1 { s with grove := { s.grove with lockAt := none } }) := by
  simp only [lockEntry, hset, Nat.not_lt.mpr hcome, if_false]

theorem unlockAsk_asks {s : State} (hlocked : bitF F.HAL_GROVE_STATUS_LOCKED 0 0 s = true) :
    unlockAsk .ask s = settleUnlock { flood .unlock s with grove := { (flood .unlock s).grove with unlock := true } } := by
  simp only [unlockAsk, hlocked, Bool.not_true, Bool.false_eq_true, if_false, if_true]

/-- A step that is not ready at its first check drains the merging buffers and reports itself short (R312, R313). -/
theorem lockCheck_short {p : Nat} {l : Launch} {s : State} :
    let t := noteReadyTick p (runPoint p s)
    launchOf p t = some l → l.started = true → l.stop = false → l.locked = true → l.short = false → l.nextTick = none →
    l.endP (agreeA t) ≤ t.tick + agreeA t → stepReady p l t = false →
    lockCheck p s = sendShort p l (l.drainAll t) := by
  intro t hl hstarted hruns hlocked hfirst hnext hdue hnot
  simp only [t] at hl hdue hnot
  simp only [lockCheck, hl, hstarted, hruns, hlocked, hfirst, hnext, Nat.not_lt.mpr hdue, hnot, Option.isSome_none, decide_false,
    Bool.not_true, Bool.or_self, Bool.false_and, Bool.false_eq_true, if_false, t, Launch.drainAll]

section
variable {p : Nat} {l : Launch} {s : State} (hl : launchOf p (noteReadyTick p s) = some l) (hstarted : l.started = true)
  (hruns : l.stop = false) (hlocked : l.locked = true) (hdue : l.endP (agreeA (noteReadyTick p s)) ≤ (noteReadyTick p s).tick)
include hl hstarted hruns hlocked hdue

/-- At its tick P a step slips by σ where a SHORT for P is held (R313). -/
theorem lockStep_slips (hshort : l.shortSeen (l.endP (agreeA (noteReadyTick p s))) = true) :
    lockStep p s = slipStep p l (l.endP (agreeA (noteReadyTick p s))) (noteReadyTick p s) := by
  simp only [lockStep, hl, hstarted, hruns, hlocked, Nat.not_lt.mpr hdue, hshort, decide_false, Bool.not_true, Bool.or_self,
    Bool.false_eq_true, if_false, if_true]

/-- A step that is ready and not short is released at P. -/
theorem lockStep_releases (hnone : l.shortSeen (l.endP (agreeA (noteReadyTick p s))) = false)
    (hready : stepReady p l (noteReadyTick p s) = true) :
    let q := l.endP (agreeA (noteReadyTick p s))
    lockStep p s = releaseStep p q (some q) (fun v => decide (1 ≤ v)) (noteMargin l (noteReadyTick p s)) := by
  simp only [lockStep, hl, hstarted, hruns, hlocked, Nat.not_lt.mpr hdue, hnone, hready, decide_false, Bool.not_true, Bool.or_self,
    Bool.false_eq_true, if_false, if_true]

end

/-- Settles O56: each command by what it takes, and by the launch that it finds in its partition. -/
theorem groveLockstep : Obligations.GroveLockstep := by
  intro s
  refine ⟨fun h r t htaken => ⟨fun hmeant => next_congr (ready_notes htaken hmeant),
      fun hrefused => next_congr (ready_refused htaken hrefused)⟩,
    fun p l hl hwaits hgrove hruns => ⟨fun r g hgot hmissing hlate => ?_,
      fun hsent hall hcome hmode hnew m hgone => next_congr (groveStart_starts hl hwaits hgrove hruns hsent hall hcome hmode hnew hgone)⟩,
    fun h p f t l htaken hl hgrove hspan => ?_, fun h digest step tick t htaken => next_congr (diverge_ends htaken),
    fun hmember hfree => next_congr (lock_asks hmember hfree), fun t hset hcome => next_congr (lockEntry_enters hset hcome),
    fun hlocked => next_congr (unlockAsk_asks hlocked),
    fun p l hl hstarted hruns hlocked hfirst hnext hdue hnot =>
      next_congr (lockCheck_short hl hstarted hruns hlocked hfirst hnext hdue hnot),
    fun p l hl hstarted hruns hlocked hdue => ⟨fun hshort => next_congr (lockStep_slips hl hstarted hruns hlocked hdue hshort),
      fun hnone hready => next_congr (lockStep_releases hl hstarted hruns hlocked hdue hnone hready)⟩⟩
  · exact next_congr (readyTimeout_ends hl hwaits hgrove hruns hgot hmissing (hgot ▸ hlate))
  · have htakes := agree_takes htaken hl hgrove hspan
    refine ⟨fun q d hf hstep hopen => ?_, fun q d hf hstep hpast => ?_, fun q g d hf hstep hnew => ?_, fun q hf => ?_, fun q hf => ?_⟩
    all_goals subst hf
    · exact next_congr (htakes.trans (takeShort_keeps hstep hopen))
    · exact next_congr (htakes.trans (takeShort_late hstep hpast))
    · exact next_congr (htakes.trans (takeLateSet_keeps hstep hnew))
    · exact next_congr htakes
    · exact next_congr htakes

end Sys2Proof.Machine
end

section
/-!
PROOFS. One step of the block: which command it runs, and what every step keeps (O1, O4, O5, O6).
-/

namespace Sys2Proof.Machine

theorem step_cons {s : State} {c : Instr} {rest : List Instr} (h : s.pending = c :: rest) :
    step s = exec c { s with pending := rest } := by
  rw [step, h]

theorem step_nil {s : State} (h : s.pending = []) : step s = .next (cycle s) := by rw [step, h]

/-- Soundness does not speak of the queue. -/
theorem Sound.setPending {s : State} (h : Sound s) (q : List Instr) : Sound { s with pending := q } where
  __ := h

/-- Settles O1: the queue's front is the command run, and its rest stays. -/
theorem stepRunsFront : Obligations.StepRunsFront := fun _ _ _ => step_cons rfl

/-- Settles O4: by the queue; an idle step is a cycle, which keeps the state, and so does every command. -/
theorem soundnessKept : Obligations.SoundnessKept := by
  intro s t hs hstep
  cases hq : s.pending with
  | nil =>
    obtain rfl : cycle s = t := Host.Outcome.next.inj ((step_nil hq).symm.trans hstep)
    exact (keep_cycle s (Keep.refl s)).sound hs
  | cons c rest =>
    have hkeep : KeepAll { s with pending := rest } (exec c { s with pending := rest }) := keep_exec c _ (Keep.refl _)
    exact (hkeep t ((step_cons hq).symm.trans hstep)).sound (hs.setPending rest)

/-- Settles O5: every table of the reset state is empty, which is the canonical form of one that holds nothing. -/
theorem resetIsSound : Obligations.ResetIsSound := by
  constructor
  case log => exact Nat.zero_le _
  all_goals rfl

/-- Settles O6: a command that answers next keeps the state, the queue among it. -/
theorem queueLeftAlone : Obligations.QueueLeftAlone := fun c s t h => (keep_exec c s (Keep.refl s) t h).pending

end Sys2Proof.Machine
end

section
/-!
PROOFS. The guard code (R384 to R388) (O22). The columns other than nibble 33's are (1, P, f(P)) for distinct points P, where f is zero at
the origin alone; so no three columns are dependent, and the code corrects one nibble and detects two.
-/

namespace Sys2Proof.Machine

/-! ## GF(16) -/

theorem gmul_lt : ∀ a < 16, ∀ b < 16, gmul a b < 16 := by decide +kernel

theorem gmul_comm : ∀ a < 16, ∀ b < 16, gmul a b = gmul b a := by decide +kernel

theorem gmul_assoc : ∀ a < 16, ∀ b < 16, ∀ c < 16, gmul (gmul a b) c = gmul a (gmul b c) := by decide +kernel

theorem gmul_eq_zero : ∀ a < 16, ∀ b < 16, gmul a b = 0 → a = 0 ∨ b = 0 := by decide +kernel

theorem gdbl_xor : ∀ a < 16, ∀ b < 16, gdbl (a ^^^ b) = gdbl a ^^^ gdbl b := by decide +kernel

theorem gdbl_lt : ∀ a < 16, gdbl a < 16 := by decide +kernel

theorem gquad_lt : ∀ a < 16, ∀ b < 16, gquad a b < 16 := by decide +kernel

/-- f is zero at the origin alone. -/
theorem gquad_eq_zero : ∀ a < 16, ∀ b < 16, gquad a b = 0 → a = 0 ∧ b = 0 := by decide +kernel

theorem gmul_zero_left (b : Nat) : gmul 0 b = 0 := by simp [gmul, gdbl]

theorem gmul_zero_right (a : Nat) : gmul a 0 = 0 := by simp [gmul]

theorem gmul_one_right (a : Nat) : gmul a 1 = a := by simp [gmul, Nat.testBit]

theorem xor_lt_sixteen {a b : Nat} (ha : a < 16) (hb : b < 16) : a ^^^ b < 16 := Nat.xor_lt_two_pow (n := 4) ha hb

theorem gmul_xor_left {a b : Nat} (ha : a < 16) (hb : b < 16) (c : Nat) : gmul (a ^^^ b) c = gmul a c ^^^ gmul b c := by
  have h1 := gdbl_xor a ha b hb
  have h2 := gdbl_xor _ (gdbl_lt a ha) _ (gdbl_lt b hb)
  have h3 := gdbl_xor _ (gdbl_lt _ (gdbl_lt a ha)) _ (gdbl_lt _ (gdbl_lt b hb))
  have bit (p : Bool) (x y : Nat) : (if p then x ^^^ y else 0) = (if p then x else 0) ^^^ (if p then y else 0) := by
    cases p <;> simp
  simp only [gmul, h1, h2, h3, bit]
  ac_rfl

theorem gmul_xor_right {a b c : Nat} (ha : a < 16) (hb : b < 16) (hc : c < 16) :
    gmul a (b ^^^ c) = gmul a b ^^^ gmul a c := by
  rw [gmul_comm a ha _ (xor_lt_sixteen hb hc), gmul_xor_left hb hc, gmul_comm a ha b hb, gmul_comm a ha c hc]

/-- The elements of GF(16) (R384). -/
@[ext]
structure GF16 where
  val : Nat
  lt : val < 16

/-- The model's sum and product of GF(16), as a ring. -/
@[reducible] def GF16.commRing : CommRing GF16 :=
  letI : Add GF16 := ⟨fun a b => ⟨a.val ^^^ b.val, xor_lt_sixteen a.lt b.lt⟩⟩
  letI : Mul GF16 := ⟨fun a b => ⟨gmul a.val b.val, gmul_lt _ a.lt _ b.lt⟩⟩
  letI : Neg GF16 := ⟨id⟩
  letI : Zero GF16 := ⟨⟨0, by decide⟩⟩
  letI : One GF16 := ⟨⟨1, by decide⟩⟩
  CommRing.ofMinimalAxioms
    (add_assoc := fun _ _ _ => GF16.ext (Nat.xor_assoc ..))
    (zero_add := fun _ => GF16.ext (Nat.zero_xor _))
    (neg_add_cancel := fun _ => GF16.ext (Nat.xor_self _))
    (mul_assoc := fun a b c => GF16.ext (gmul_assoc _ a.lt _ b.lt _ c.lt))
    (mul_comm := fun a b => GF16.ext (gmul_comm _ a.lt _ b.lt))
    (one_mul := fun a => GF16.ext ((gmul_comm 1 (by decide) _ a.lt).trans (gmul_one_right _)))
    (left_distrib := fun a b c => GF16.ext (gmul_xor_right a.lt b.lt c.lt))

/-- Where a sum of multiples of two points of the quadric is the multiple of a third by the sum of the factors, f of the sum of the
two points is zero or a factor is. -/
theorem quadric_chord {R : Type} [CommRing R] (two : (2 : R) = 0) {k x y a b c d e f : R}
    (hA : (x + y) * e = x * a + y * c) (hB : (x + y) * f = x * b + y * d)
    (hQ : (x + y) * (e * e + e * f + k * (f * f)) = x * (a * a + a * b + k * (b * b)) + y * (c * c + c * d + k * (d * d))) :
    x * (y * ((a + c) * (a + c) + (a + c) * (b + d) + k * ((b + d) * (b + d)))) = 0 := by
  linear_combination -(x + y) * hQ + ((x + y) * e + (x * a + y * c) + (x + y) * f) * hA
    + ((x * a + y * c) + k * ((x + y) * f + (x * b + y * d))) * hB + x * y * (2 * a * c + a * d + c * b + 2 * k * b * d) * two

/-- No three points of the quadric are on a line (R385). -/
theorem gquad_chord {x y a b c d e f : Nat} (hx : x < 16) (hy : y < 16) (ha : a < 16) (hb : b < 16) (hc : c < 16) (hd : d < 16)
    (he : e < 16) (hf : f < 16) (hA : gmul (x ^^^ y) e = gmul x a ^^^ gmul y c) (hB : gmul (x ^^^ y) f = gmul x b ^^^ gmul y d)
    (hQ : gmul (x ^^^ y) (gquad e f) = gmul x (gquad a b) ^^^ gmul y (gquad c d)) :
    x = 0 ∨ y = 0 ∨ (a = c ∧ b = d) := by
  let _ := GF16.commRing
  have h : gmul x (gmul y (gquad (a ^^^ c) (b ^^^ d))) = 0 := congrArg GF16.val
    (quadric_chord (R := GF16) (GF16.ext rfl) (k := ⟨8, by decide⟩) (x := ⟨x, hx⟩) (y := ⟨y, hy⟩) (a := ⟨a, ha⟩) (b := ⟨b, hb⟩)
      (c := ⟨c, hc⟩) (d := ⟨d, hd⟩) (e := ⟨e, he⟩) (f := ⟨f, hf⟩) (GF16.ext hA) (GF16.ext hB) (GF16.ext hQ))
  have hq := gquad_lt _ (xor_lt_sixteen ha hc) _ (xor_lt_sixteen hb hd)
  rcases gmul_eq_zero x hx _ (gmul_lt y hy _ hq) h with h | h
  · exact .inl h
  rcases gmul_eq_zero y hy _ hq h with h | h
  · exact .inr (.inl h)
  · obtain ⟨h1, h2⟩ := gquad_eq_zero _ (xor_lt_sixteen ha hc) _ (xor_lt_sixteen hb hd) h
    exact .inr (.inr ⟨Nat.xor_eq_zero_iff.1 h1, Nat.xor_eq_zero_iff.1 h2⟩)

/-! ## Columns -/

/-- The columns but nibble 33's are points of the quadric. -/
theorem gcolumn_quadric : ∀ n < 36, n ≠ 33 →
    (gcolumn n).e1 < 16 ∧ (gcolumn n).e2 < 16 ∧ gcolumn n = ⟨1, (gcolumn n).e1, (gcolumn n).e2, gquad (gcolumn n).e1 (gcolumn n).e2⟩ := by
  decide +kernel

theorem gcolumn_inj : ∀ n < 36, ∀ m < 36,
    n ≠ 33 ∧ m ≠ 33 ∧ (gcolumn n).e1 = (gcolumn m).e1 ∧ (gcolumn n).e2 = (gcolumn m).e2 → n = m := by
  decide +kernel

theorem gcolumn_lt : ∀ n < 36, (gcolumn n).e0 < 16 ∧ (gcolumn n).e1 < 16 ∧ (gcolumn n).e2 < 16 ∧ (gcolumn n).e3 < 16 := by
  decide +kernel

/-! ## Finding a nibble -/

theorem findNibble_eq_none {s : G4} {k : Nat} (h : ∀ n < k, n ≠ 33 → G4.scale s.e0 (gcolumn n) ≠ s) : findNibble s k = none := by
  induction k with
  | zero => rfl
  | succ k ih =>
    have hk : ¬ (k ≠ 33 ∧ G4.scale s.e0 (gcolumn k) = s) := fun ⟨h1, h2⟩ => h k (Nat.lt_succ_self k) h1 h2
    simp [findNibble, ih fun n hn => h n (Nat.lt_succ_of_lt hn)]
    simpa using hk

theorem findNibble_eq_some {s : G4} {n k : Nat} (hn : n < k) (h33 : n ≠ 33) (hmatch : G4.scale s.e0 (gcolumn n) = s)
    (honly : ∀ m < k, m ≠ 33 → G4.scale s.e0 (gcolumn m) = s → m = n) : findNibble s k = some n := by
  induction k with
  | zero => cases hn
  | succ k ih =>
    rcases Nat.lt_succ_iff_lt_or_eq.1 hn with hlt | rfl
    · simp [findNibble, ih hlt fun m hm => honly m (Nat.lt_succ_of_lt hm)]
    · have hnone : findNibble s n = none :=
        findNibble_eq_none fun m hm h h' => absurd (honly m (Nat.lt_succ_of_lt hm) h h') hm.ne
      simp [findNibble, hnone, h33, hmatch]


theorem gmul_left_cancel {x a b : Nat} (hx : x < 16) (h0 : x ≠ 0) (ha : a < 16) (hb : b < 16) (h : gmul x a = gmul x b) : a = b := by
  have hz : gmul x (a ^^^ b) = 0 := by rw [gmul_xor_right hx ha hb, h, Nat.xor_self]
  exact Nat.xor_eq_zero_iff.1 ((gmul_eq_zero x hx _ (xor_lt_sixteen ha hb) hz).resolve_left h0)

/-! ## Multiples of a column -/

theorem scale_column {n : Nat} (hn : n < 36) (h33 : n ≠ 33) (x : Nat) : G4.scale x (gcolumn n) =
    ⟨x, gmul x (gcolumn n).e1, gmul x (gcolumn n).e2, gmul x (gquad (gcolumn n).e1 (gcolumn n).e2)⟩ := by
  obtain ⟨-, -, h⟩ := gcolumn_quadric n hn h33
  rw [h]
  simp [G4.scale, gmul_one_right]

theorem scale_column_33 (x : Nat) : G4.scale x (gcolumn 33) = ⟨0, 0, 0, x⟩ := by
  simp [gcolumn, G4.scale, gmul_zero_right, gmul_one_right]

/-- Equal multiples of two columns of the quadric are of one column. -/
theorem eq_of_scale_eq {n m x : Nat} (hn : n < 36) (hm : m < 36) (hn33 : n ≠ 33) (hm33 : m ≠ 33) (hx : x < 16) (h0 : x ≠ 0)
    (h1 : gmul x (gcolumn n).e1 = gmul x (gcolumn m).e1) (h2 : gmul x (gcolumn n).e2 = gmul x (gcolumn m).e2) : n = m := by
  obtain ⟨hn1, hn2, -⟩ := gcolumn_quadric n hn hn33
  obtain ⟨hm1, hm2, -⟩ := gcolumn_quadric m hm hm33
  exact gcolumn_inj n hn m hm ⟨hn33, hm33, gmul_left_cancel hx h0 hn1 hm1 h1, gmul_left_cancel hx h0 hn2 hm2 h2⟩

/-- One wrong nibble is found. -/
theorem guardDecode_scale {n x : Nat} (hn : n < 36) (h0 : x ≠ 0) (hx : x < 16) :
    guardDecode (G4.scale x (gcolumn n)) = .correct n x := by
  by_cases h33 : n = 33
  · subst h33
    simp [guardDecode, scale_column_33, h0]
  · rw [scale_column hn h33]
    have hfind : findNibble ⟨x, gmul x (gcolumn n).e1, gmul x (gcolumn n).e2, gmul x (gquad (gcolumn n).e1 (gcolumn n).e2)⟩ 36 = some n := by
      refine findNibble_eq_some hn h33 (scale_column hn h33 x) fun m hm hm33 h => ?_
      obtain ⟨-, h1, h2, -⟩ := G4.mk.inj ((scale_column hm hm33 x).symm.trans h)
      exact eq_of_scale_eq hm hn hm33 h33 hx h0 h1 h2
    simp [guardDecode, h0, hfind]

theorem G4.add_comm (a b : G4) : a.add b = b.add a := by simp [G4.add, Nat.xor_comm]

/-- What is decoded where no column but nibble 33's has the syndrome as its multiple, and nibble 33's has not. -/
theorem guardDecode_uncorrectable {s : G4} (h33 : s.e0 = 0 → ¬ (s.e1 = 0 ∧ s.e2 = 0))
    (hnone : s.e0 ≠ 0 → ∀ k < 36, k ≠ 33 → G4.scale s.e0 (gcolumn k) ≠ s) : guardDecode s = .uncorrectable := by
  by_cases h0 : s.e0 = 0
  · have hs : s ≠ ⟨0, 0, 0, 0⟩ := fun h => h33 h0 (by simp [h])
    simp [guardDecode, hs, h0, h33 h0]
  · have hs : s ≠ ⟨0, 0, 0, 0⟩ := fun h => h0 (by simp [h])
    simp [guardDecode, hs, h0, findNibble_eq_none (hnone h0)]

/-- Two wrong nibbles, one of them nibble 33, are reported. -/
theorem guardDecode_add_33 {m x y : Nat} (hm : m < 36) (hm33 : m ≠ 33) (hx0 : x ≠ 0) (hy0 : y ≠ 0) (hy : y < 16) :
    guardDecode ((G4.scale x (gcolumn 33)).add (G4.scale y (gcolumn m))) = .uncorrectable := by
  have hsum : (G4.scale x (gcolumn 33)).add (G4.scale y (gcolumn m)) =
      ⟨y, gmul y (gcolumn m).e1, gmul y (gcolumn m).e2, x ^^^ gmul y (gquad (gcolumn m).e1 (gcolumn m).e2)⟩ := by
    simp [scale_column hm hm33, scale_column_33, G4.add]
  rw [hsum]
  refine guardDecode_uncorrectable (fun h => absurd h hy0) fun _ k hk hk33 h => ?_
  obtain ⟨-, h1, h2, h3⟩ := G4.mk.inj ((scale_column hk hk33 y).symm.trans h)
  obtain rfl := eq_of_scale_eq hk hm hk33 hm33 hy hy0 h1 h2
  exact hx0 (by simpa using congrArg (· ^^^ gmul y (gquad (gcolumn k).e1 (gcolumn k).e2)) h3.symm)

/-- Two wrong nibbles other than nibble 33 are reported: no point of the quadric is on the line of two others. -/
theorem guardDecode_add {n m x y : Nat} (hn : n < 36) (hm : m < 36) (hn33 : n ≠ 33) (hm33 : m ≠ 33) (hnm : n ≠ m)
    (hx0 : x ≠ 0) (hx : x < 16) (hy0 : y ≠ 0) (hy : y < 16) :
    guardDecode ((G4.scale x (gcolumn n)).add (G4.scale y (gcolumn m))) = .uncorrectable := by
  obtain ⟨hn1, hn2, -⟩ := gcolumn_quadric n hn hn33
  obtain ⟨hm1, hm2, -⟩ := gcolumn_quadric m hm hm33
  rw [scale_column hn hn33, scale_column hm hm33, G4.add]
  refine guardDecode_uncorrectable (fun h ⟨h1, h2⟩ => hnm ?_) fun _ k hk hk33 h => ?_
  · obtain rfl := Nat.xor_eq_zero_iff.1 h
    exact eq_of_scale_eq hn hm hn33 hm33 hx hx0 (Nat.xor_eq_zero_iff.1 h1) (Nat.xor_eq_zero_iff.1 h2)
  · obtain ⟨hk1, hk2, -⟩ := gcolumn_quadric k hk hk33
    obtain ⟨-, h1, h2, h3⟩ := G4.mk.inj ((scale_column hk hk33 _).symm.trans h)
    rcases gquad_chord hx hy hn1 hn2 hm1 hm2 hk1 hk2 h1 h2 h3 with hz | hz | hz
    · exact hx0 hz
    · exact hy0 hz
    · exact hnm (gcolumn_inj n hn m hm ⟨hn33, hm33, hz⟩)

theorem guardDecode_pair {n m x y : Nat} (hn : n < 36) (hm : m < 36) (hnm : n ≠ m) (hx0 : x ≠ 0) (hx : x < 16) (hy0 : y ≠ 0)
    (hy : y < 16) : guardDecode ((G4.scale x (gcolumn n)).add (G4.scale y (gcolumn m))) = .uncorrectable := by
  by_cases hn33 : n = 33
  · subst hn33
    exact guardDecode_add_33 hm hnm.symm hx0 hy0 hy
  · by_cases hm33 : m = 33
    · subst hm33
      rw [G4.add_comm]
      exact guardDecode_add_33 hn hn33 hy0 hx0 hx
    · exact guardDecode_add hn hm hn33 hm33 hnm hx0 hx hy0 hy

/-! ## Syndromes -/

theorem nibbleOf_lt (w : BitVec 144) (n : Nat) : nibbleOf w n < 16 := (w.extractLsb' (4 * n) 4).isLt

theorem testBit_nibbleOf (w : BitVec 144) (n j : Nat) : (nibbleOf w n).testBit j = (decide (j < 4) && w.getLsbD (4 * n + j)) := by
  rw [nibbleOf, BitVec.testBit_toNat, BitVec.getLsbD_extractLsb']

theorem nibbleOf_xor (v w : BitVec 144) (n : Nat) : nibbleOf (v ^^^ w) n = nibbleOf v n ^^^ nibbleOf w n := by
  simp [nibbleOf, BitVec.extractLsb'_xor]

theorem G4.scale_xor {x y : Nat} (hx : x < 16) (hy : y < 16) (a : G4) : a.scale (x ^^^ y) = (a.scale x).add (a.scale y) := by
  simp [G4.scale, G4.add, gmul_xor_left hx hy]

theorem G4.add_add_add_comm (a b c d : G4) : (a.add b).add (c.add d) = (a.add c).add (b.add d) := by
  simp only [G4.add, G4.mk.injEq]
  refine ⟨?_, ?_, ?_, ?_⟩ <;> ac_rfl

theorem gsum_xor (v w : BitVec 144) (k : Nat) : gsum (v ^^^ w) k = (gsum v k).add (gsum w k) := by
  induction k with
  | zero => simp [gsum, G4.add]
  | succ n ih =>
    rw [gsum, ih, nibbleOf_xor, G4.scale_xor (nibbleOf_lt v n) (nibbleOf_lt w n), G4.add_add_add_comm]
    rfl

theorem nibbleOf_flip {x n : Nat} (hx : x < 16) (hn : n < 36) (k : Nat) (hk : k < 36) :
    nibbleOf (BitVec.ofNat 144 (x % 16) <<< (4 * n)) k = if k = n then x else 0 := by
  have hbit (j : Nat) (hj : 4 ≤ j) : x.testBit j = false :=
    Nat.testBit_lt_two_pow (Nat.lt_of_lt_of_le hx (Nat.pow_le_pow_right (n := 2) (by decide) hj))
  apply Nat.eq_of_testBit_eq
  intro j
  rw [testBit_nibbleOf, BitVec.getLsbD_shiftLeft, BitVec.getLsbD_ofNat, Nat.mod_eq_of_lt hx]
  by_cases hj : j < 4
  · rcases Nat.lt_trichotomy k n with h | rfl | h
    · simp [h.ne, show 4 * k + j < 4 * n from by omega]
    · simp [hj, show 4 * k + j < 144 from by omega, show j < 144 from by omega]
    · simp [h.ne', hbit (4 * k + j - 4 * n) (by omega)]
  · by_cases h : k = n <;> simp [hj, h, hbit j (by omega)]

theorem G4.scale_zero (a : G4) : a.scale 0 = ⟨0, 0, 0, 0⟩ := by simp [G4.scale, gmul_zero_left]

@[simp] theorem G4.add_zero (a : G4) : a.add ⟨0, 0, 0, 0⟩ = a := by simp [G4.add]

@[simp] theorem G4.zero_add (a : G4) : G4.add ⟨0, 0, 0, 0⟩ a = a := by simp [G4.add]

theorem gsum_flip {x n : Nat} (hx : x < 16) (hn : n < 36) (k : Nat) (hk : k ≤ 36) :
    gsum (BitVec.ofNat 144 (x % 16) <<< (4 * n)) k = if n < k then G4.scale x (gcolumn n) else ⟨0, 0, 0, 0⟩ := by
  induction k with
  | zero => rfl
  | succ k ih =>
    rw [gsum, ih (by omega), nibbleOf_flip hx hn k (by omega)]
    rcases Nat.lt_trichotomy n k with h | rfl | h
    · simp [h, h.ne', Nat.lt_succ_of_lt h, G4.scale_zero]
    · simp
    · simp [h.ne, show ¬ n < k from by omega, show ¬ n < k + 1 from by omega, G4.scale_zero]

theorem syndrome_flipNibble (w : BitVec 144) {x n : Nat} (hx : x < 16) (hn : n < 36) :
    syndrome (flipNibble w n x) = (syndrome w).add (G4.scale x (gcolumn n)) := by
  rw [syndrome, flipNibble, gsum_xor, gsum_flip hx hn 36 (Nat.le_refl _), if_pos hn]
  rfl

/-! ## The writer's codeword -/

theorem gsum_congr {v w : BitVec 144} {k : Nat} (h : ∀ n < k, nibbleOf v n = nibbleOf w n) : gsum v k = gsum w k := by
  induction k with
  | zero => rfl
  | succ k ih => rw [gsum, gsum, ih fun n hn => h n (Nat.lt_succ_of_lt hn), h k (Nat.lt_succ_self k)]

theorem gsum_lt (w : BitVec 144) {k : Nat} (hk : k ≤ 36) :
    (gsum w k).e0 < 16 ∧ (gsum w k).e1 < 16 ∧ (gsum w k).e2 < 16 ∧ (gsum w k).e3 < 16 := by
  induction k with
  | zero => simp [gsum]
  | succ k ih =>
    obtain ⟨h0, h1, h2, h3⟩ := ih (Nat.le_of_succ_le hk)
    obtain ⟨g0, g1, g2, g3⟩ := gcolumn_lt k hk
    have hn := nibbleOf_lt w k
    exact ⟨xor_lt_sixteen h0 (gmul_lt _ hn _ g0), xor_lt_sixteen h1 (gmul_lt _ hn _ g1), xor_lt_sixteen h2 (gmul_lt _ hn _ g2),
      xor_lt_sixteen h3 (gmul_lt _ hn _ g3)⟩

theorem nibbleOf_codeword_data (d : BitVec 128) {n : Nat} (hn : n < 32) : nibbleOf (codeword d) n = nibbleOf (d.setWidth 144) n := by
  apply Nat.eq_of_testBit_eq
  intro j
  rw [testBit_nibbleOf, testBit_nibbleOf, codeword, BitVec.getLsbD_append, BitVec.getLsbD_setWidth]
  by_cases hj : j < 4
  · simp [hj, show 4 * n + j < 128 from by omega, show 4 * n + j < 144 from by omega]
  · simp [hj]

theorem nibbleOf_codeword_check (d : BitVec 128) (n : Nat) : nibbleOf (codeword d) (32 + n) = (gcheck d).toNat / 16 ^ n % 16 := by
  apply Nat.eq_of_testBit_eq
  intro j
  have hdiv : (gcheck d).toNat / 16 ^ n = (gcheck d).toNat / 2 ^ (4 * n) := by rw [Nat.pow_mul]
  have hmod (v : Nat) : (v % 16).testBit j = (decide (j < 4) && v.testBit j) := Nat.testBit_mod_two_pow v 4 j
  rw [testBit_nibbleOf, codeword, BitVec.getLsbD_append, if_neg (by omega), hdiv, hmod,
    Nat.testBit_div_two_pow, BitVec.testBit_toNat, show 4 * (32 + n) + j - 128 = j + 4 * n from by omega]

theorem xor_xor_xor_cancel (a b c : Nat) : a ^^^ (a ^^^ b ^^^ c) ^^^ b = c := by
  rw [← Nat.xor_assoc, ← Nat.xor_assoc, Nat.xor_self, Nat.zero_xor, Nat.xor_comm b c, Nat.xor_assoc, Nat.xor_self, Nat.xor_zero]

/-- A codeword as written has the syndrome zero (R386, R387). -/
theorem syndrome_codeword (d : BitVec 128) : syndrome (codeword d) = ⟨0, 0, 0, 0⟩ := by
  have hdata : gsum (codeword d) 32 = gsum (d.setWidth 144) 32 := gsum_congr fun n hn => nibbleOf_codeword_data d hn
  obtain ⟨h0, h1, h2, h3⟩ := gsum_lt (d.setWidth 144) (k := 32) (by decide)
  have hcheck := nibbleOf_codeword_check d
  simp only [gcheck] at hcheck
  generalize gsum (d.setWidth 144) 32 = s at *
  have hc0 := xor_lt_sixteen (xor_lt_sixteen h0 h1) h2
  have hc1 := xor_lt_sixteen (xor_lt_sixteen h3 h1) (gmul_lt 8 (by decide) _ h2)
  have n0 : nibbleOf (codeword d) 32 = s.e0 ^^^ s.e1 ^^^ s.e2 := by rw [hcheck 0, BitVec.toNat_ofNat]; omega
  have n1 : nibbleOf (codeword d) 33 = s.e3 ^^^ s.e1 ^^^ gmul 8 s.e2 := by rw [hcheck 1, BitVec.toNat_ofNat]; omega
  have n2 : nibbleOf (codeword d) 34 = s.e1 := by rw [hcheck 2, BitVec.toNat_ofNat]; omega
  have n3 : nibbleOf (codeword d) 35 = s.e2 := by rw [hcheck 3, BitVec.toNat_ofNat]; omega
  have hgsum : syndrome (codeword d) = (((s.add (G4.scale (nibbleOf (codeword d) 32) (gcolumn 32))).add
      (G4.scale (nibbleOf (codeword d) 33) (gcolumn 33))).add (G4.scale (nibbleOf (codeword d) 34) (gcolumn 34))).add
      (G4.scale (nibbleOf (codeword d) 35) (gcolumn 35)) := hdata ▸ rfl
  rw [hgsum, n0, n1, n2, n3]
  simp [G4.scale, G4.add, gcolumn, gmul_zero_right, gmul_one_right, gmul_comm 8 (by decide) _ h2, xor_xor_xor_cancel]

/-- Settles O22: the syndrome of a changed codeword is the sum of the multiples of the columns of the nibbles changed. -/
theorem guardCode : Obligations.GuardCode := by
  intro d
  have hone (n x : Nat) (hn : n < 36) (hx : x < 16) : syndrome (flipNibble (codeword d) n x) = G4.scale x (gcolumn n) := by
    rw [syndrome_flipNibble _ hx hn, syndrome_codeword, G4.zero_add]
  refine ⟨by rw [syndrome_codeword]; rfl, fun n x hn h0 hx => ?_, fun n m x y hn hm hnm hx0 hx hy0 hy => ?_⟩
  · rw [hone n x hn hx, guardDecode_scale hn h0.ne' hx]
  · rw [syndrome_flipNibble _ hy hm, hone n x hn hx, guardDecode_pair hn hm hnm hx0.ne' hx hy0.ne' hy]

end Sys2Proof.Machine
end

section
/-!
PROOFS. Processor fills of the snoop filter (R332) (O28).
-/

namespace Sys2Proof.Machine

/-- The entries of a snoop filter in the set of a line, the least recently filled first (R332). -/
def snoopSet (k : Stack) (key : Nat) : List (Nat × Bool) := k.snoop.filter fun e => decide (filterSet e.1 = filterSet key)

section
variable {pa : Nat} {s : State} {h : Home} (hh : homeOf pa s = some h) (owned : Bool) (dirty : Option (BitVec 512))
include hh

/-- A set with room, or with the line in it, loses no line. -/
theorem backInvalidate_of_room
    (hroom : (snoopSet (s.stack h.stack) (h.addr / 64)).length < 16 ∨ (look (s.stack h.stack).snoop (h.addr / 64)).isSome) :
    backInvalidate pa owned dirty s = filterFill h.stack (h.addr / 64) owned s := by
  simp only [backInvalidate, hh]
  split
  · rfl
  · exact if_pos hroom.symm

/-- A full set without the line loses its least recently filled one, whose data is written where it is dirty. -/
theorem backInvalidate_of_full {e : Nat × Bool} {r : List (Nat × Bool)} (hset : snoopSet (s.stack h.stack) (h.addr / 64) = e :: r)
    (hfull : 16 ≤ (snoopSet (s.stack h.stack) (h.addr / 64)).length) (hmiss : look (s.stack h.stack).snoop (h.addr / 64) = none)
    {z : State} (hz : putHalf { h with addr := e.1 * 64 } 0 (paOfStack h.stack (e.1 * 64) s) dirty s = z) :
    let s1 := incF F.D2D_CXL_BISNP_COUNT 0 0 1 z
    backInvalidate pa owned dirty s = filterFill h.stack (h.addr / 64) owned
      (s1.putStack h.stack { s1.stack h.stack with snoop := ldel (s1.stack h.stack).snoop e.1 }) := by
  have hnot : ¬ ((look (s.stack h.stack).snoop (h.addr / 64)).isSome = true ∨
      (snoopSet (s.stack h.stack) (h.addr / 64)).length < 16) := by
    rw [hmiss]
    simpa using hfull
  subst hz
  simp only [backInvalidate, hh]
  split
  · next hnil => cases hset.symm.trans hnil
  · next hcons =>
    obtain ⟨rfl, rfl⟩ := List.cons.inj (hset.symm.trans hcons)
    exact if_neg hnot

end

/-- Settles O28: a fill whose set has room goes in; one whose set is full pushes the set's oldest line out first. -/
theorem processorFillsEnterFilter : Obligations.ProcessorFillsEnterFilter := by
  intro pa owned dirty s h hh
  refine ⟨fun hroom => next_congr (backInvalidate_of_room hh owned dirty hroom), fun e r hset hfull hmiss =>
    next_congr (backInvalidate_of_full hh owned dirty hset hfull hmiss ?_)⟩
  cases dirty with
  | none => rfl
  | some v => simp only [putHalf, Nat.add_zero, Nat.mul_div_cancel e.1 (by decide : 0 < 64)]

end Sys2Proof.Machine
end

section
/-!
PROOFS. QUIESCE, DORMANT and WAKE descriptors (R271, R376 to R379, R452), saves, commitment and rollback (R371, R374) (O51).
-/

namespace Sys2Proof.Machine

/-! ## A partition does not see the state of a descriptor -/

section
variable (n : Nat) (d : Desc) (s : State) (p : Nat)

@[simp] theorem part_putDesc : (putDesc n d s).part p = s.part p := rfl

@[simp] theorem heldLaunch_putDesc : heldLaunch p (putDesc n d s) = heldLaunch p s := rfl

@[simp] theorem heldStep_putDesc : heldStep p (putDesc n d s) = heldStep p s := rfl

@[simp] theorem heldSaved_putDesc : heldSaved p (putDesc n d s) = heldSaved p s := rfl

@[simp] theorem wakeRuns_putDesc (m i : Nat) : wakeRuns p m i (putDesc n d s) = wakeRuns p m i s := rfl

end

theorem heldLaunch_of_launch {p : Nat} {l : Launch} {s : State} (h : (s.part p).launch = some l) : heldLaunch p s = some l := by
  rw [heldLaunch, h]

/-! ## A descriptor that starts or goes on -/

/-- A descriptor that starts while its partition is in transition waits (R452). -/
theorem withPart_waits {n i kind : Nat} {ok : Desc → Bool} {f : Nat → Desc → State → State} {d : Desc} {s : State}
    (hget : getDesc n i s = some d) (hk : d.kind = kind) (hok : ok d = true) (hruns : descRuns n d s = true)
    (htrans : transitional (descPart n d s) s = true) (hst : d.st ≠ .started) :
    withPart n i kind ok f s = putDesc n { d with st := .waiting } s := by
  have hmeant : (decide (d.kind ≠ kind) || !ok d || !descRuns n d s) = false := by simp [hk, hok, hruns]
  have hwaits : (decide (d.st ≠ .started) && transitional (descPart n d s) s) = true := by simp [hst, htrans]
  rw [withPart, hget]
  exact (if_neg (ne_true_of_eq_false hmeant)).trans (if_pos hwaits)

/-- One that need not wait does what its kind does, as a started one. -/
theorem withPart_runs {n i kind : Nat} {ok : Desc → Bool} {d : Desc} {s : State} (hget : getDesc n i s = some d)
    (hruns : descRuns n d s = true) (hfree : transitional (descPart n d s) s = false ∨ d.st = .started) (hk : d.kind = kind)
    (hok : ok d = true) (f : Nat → Desc → State → State) :
    withPart n i kind ok f s = f (descPart n d s) d.begun (putDesc n d.begun s) := by
  have hmeant : (decide (d.kind ≠ kind) || !ok d || !descRuns n d s) = false := by simp [hk, hok, hruns]
  have hacts : (decide (d.st ≠ .started) && transitional (descPart n d s) s) = false := by
    rcases hfree with h | h <;> simp [h]
  rw [withPart, hget]
  exact (if_neg (ne_true_of_eq_false hmeant)).trans (if_neg (ne_true_of_eq_false hacts))

section
variable {n i : Nat} {d : Desc} {s : State} (hget : getDesc n i s = some d) (hruns : descRuns n d s = true)
  (hfree : transitional (descPart n d s) s = false ∨ d.st = .started)
include hget hruns hfree

/-! ## QUIESCE (R376) -/

theorem descQuiesce_idle (hk : d.kind = 8) (hhold : (s.part (descPart n d s)).hold = .none)
    (hlaunch : (s.part (descPart n d s)).launch = none) :
    descQuiesce n i s = finishDesc n i .completed 0xFFFF 0 (putDesc n d.begun s) := by
  rw [descQuiesce, withPart_runs hget hruns hfree hk rfl]
  simp only [part_putDesc, hhold, hlaunch, if_true, Option.isNone_none]

theorem descQuiesce_held (hk : d.kind = 8) (hhold : (s.part (descPart n d s)).hold ≠ .none) :
    descQuiesce n i s = finishDesc n i .completed 0xFFFF (heldStep (descPart n d s) s) (putDesc n d.begun s) := by
  rw [descQuiesce, withPart_runs hget hruns hfree hk rfl]
  simp only [part_putDesc, heldStep_putDesc, hhold, if_false]

/-! ## DORMANT (R377, R378) -/

section
variable (hk : d.kind = 9) (hform : d.form1 = false) (himaging : (s.part (descPart n d s)).imaging = none)
include hk hform himaging

theorem descRetain_retained (hhold : (s.part (descPart n d s)).hold = .retained) :
    descRetain n i s = retainedDone (descPart n d s) (putDesc n d.begun s) := by
  rw [descRetain, withPart_runs hget hruns hfree hk (by rw [hform]; rfl)]
  simp only [part_putDesc, himaging, hhold, Option.isSome_none, Bool.false_eq_true, if_false]

/-- A held partition whose point is saved is retained (R377). -/
theorem descRetain_saved {l : Launch} (hhold : (s.part (descPart n d s)).hold = .quiesce) (hl : heldLaunch (descPart n d s) s = some l)
    (hsaving : (s.part (descPart n d s)).saving = none) (hsaved : heldSaved (descPart n d s) s = true) :
    descRetain n i s = retainedDone (descPart n d s) (retainLaunch (descPart n d s) l (putDesc n d.begun s)) := by
  rw [descRetain, withPart_runs hget hruns hfree hk (by rw [hform]; rfl)]
  simp only [part_putDesc, heldLaunch_putDesc, heldSaved_putDesc, himaging, hhold, hl, hsaving, hsaved, Option.isSome_none,
    Bool.false_and, Bool.false_eq_true, if_false, if_true]

end

theorem descImage_held {l : Launch} (hk : d.kind = 9) (hform : d.form1 = true)
    (himaging : (s.part (descPart n d s)).imaging = none ∨ (s.part (descPart n d s)).imaging = some ⟨n, i⟩)
    (hhold : (s.part (descPart n d s)).hold = .quiesce) (hl : heldLaunch (descPart n d s) s = some l) :
    descImage n i s = imageNow (descPart n d s) n d.begun l (putDesc n d.begun s) := by
  have hmine : ((s.part (descPart n d s)).imaging.any fun r => decide (r ≠ ⟨n, i⟩)) = false := by
    rcases himaging with h | h <;> simp [h]
  rw [descImage, withPart_runs hget hruns hfree hk hform]
  simp only [part_putDesc, heldLaunch_putDesc, hmine, hhold, hl, Bool.false_eq_true, if_false]

/-! ## WAKE (R377, R379) -/

section
variable (hk : d.kind = 10) (hnew : wakeRuns (descPart n d s) n i s = false)
include hk hnew

theorem descWakeHold_releases (hform : d.wakeForm = 2) (hqueue : (s.part (descPart n d s)).queue.contains ⟨n, i⟩ = false)
    (hhold : (s.part (descPart n d s)).hold = .quiesce) :
    descWakeHold n i s = resumeHeld (descPart n d s) n i (putDesc n d.begun s) := by
  rw [descWakeHold, withPart_runs hget hruns hfree hk (decide_eq_true hform)]
  simp only [part_putDesc, wakeRuns_putDesc, hnew, hqueue, hhold, Bool.false_eq_true, if_false]

theorem descWakeImage_turns (hform : d.wakeForm = 1) :
    descWakeImage n i s = wakeAsLaunch (descPart n d s) n d.begun (imageChecks (descPart n d s) n { d with st := .waiting })
      (putDesc n d.begun s) := by
  rw [descWakeImage, withPart_runs hget hruns hfree hk (decide_eq_true hform)]
  simp only [wakeRuns_putDesc, hnew, Bool.false_eq_true, if_false]

/-- What a WAKE of a retained launch comes to, once its restore has come to `x`. -/
def wokenEnds (p n i : Nat) (x : Woken) (y : State) : State :=
  match x with
  | .wait => y
  | .ok => resumeHeld p n i y
  | .bad st => finishDesc n i st 0xFFFF 0 (wakeFailed p st y)

theorem descWakeRetention_ends {l : Launch} {x : Woken} {y : State} (hform : d.wakeForm = 0)
    (hqueue : (s.part (descPart n d s)).queue.contains ⟨n, i⟩ = false) (hhold : (s.part (descPart n d s)).hold = .retained)
    (hl : (s.part (descPart n d s)).launch = some l) (hwake : wakeHeld (descPart n d s) l (putDesc n d.begun s) = (x, y)) :
    descWakeRetention n i s = wokenEnds (descPart n d s) n i x y := by
  rw [descWakeRetention, withPart_runs hget hruns hfree hk (decide_eq_true hform)]
  simp only [part_putDesc, wakeRuns_putDesc, heldLaunch_putDesc, heldLaunch_of_launch hl, hnew, hqueue, hhold, hl, hwake,
    Bool.false_eq_true, if_false, Option.isNone_some]
  cases x <;> rfl

end

end

/-! ## Descriptors that wait for their partition (R452) -/

theorem descPartReady_acts {n i : Nat} {d : Desc} {s : State} (hget : getDesc n i s = some d) (hst : d.st = .waiting)
    (hfree : transitional (descPart n d s) s = false) : descPartReady n i s = partDesc n i s := by
  rw [descPartReady, hget]
  exact if_pos ⟨hst, by rw [hfree]; rfl⟩

theorem descPartReady_waits {n i : Nat} {d : Desc} {s : State} (hget : getDesc n i s = some d)
    (h : d.st ≠ .waiting ∨ transitional (descPart n d s) s = true) : descPartReady n i s = s := by
  rw [descPartReady, hget]
  refine if_neg fun ⟨hst, hfree⟩ => ?_
  rcases h with h | h
  · exact h hst
  · rw [h] at hfree
    cases hfree

/-! ## Saves (R371) -/

theorem quiesceSave_saves {b : Nat} {l : Launch} {s : State} (hl : launchOf (s.bed b).part s = some l) (hrun : (s.bed b).running = true)
    (hmay : maySave (s.bed b).part b l s = true) : quiesceSave b s = saveBed (s.bed b).part b l s := by
  simp only [quiesceSave, hl, hrun, hmay, Bool.and_self, if_true]

theorem saveComplete_ok {b : Nat} {s : State} (hsaving : (s.bed b).saving = true) (hok : saveAnswers b s = some .ok) :
    let s1 := askDone (.bsq b) 3 (askDone (.bsq b) 2 s)
    saveComplete b s = packageSaved (s.bed b).part (s1.putBed b { s1.bed b with saving := false, saved := true }) := by
  simp only [saveComplete, hsaving, hok, Bool.not_true, Bool.false_eq_true, if_false, if_true]

section
variable {p q : Nat} {l : Launch} {s : State} (hl : launchOf p s = some l) (hsaving : (s.part p).saving = some q)
include hl hsaving

theorem pointCommit_early (hover : (s.part p).saveOver = false) : pointCommit p s = s := by
  simp only [pointCommit, hl, hsaving, hover, Bool.not_false, if_true]

theorem pointCommit_failed (hover : (s.part p).saveOver = true) (hbad : (s.part p).saveBad = true) :
    pointCommit p s = s.putPart p { s.part p with saving := none } := by
  simp only [pointCommit, hl, hsaving, hover, hbad, Bool.not_true, Bool.true_or, Bool.false_eq_true, if_false, if_true]

/-- A point that every bed of the package has saved is committed where the launch is the package's own. -/
theorem pointCommit_commits (hover : (s.part p).saveOver = true) (hbad : (s.part p).saveBad = false) (hgrove : l.grove = false) :
    let k := s.part p
    pointCommit p s = notePoint p (freeSaveSlot k) q ((s.tick - k.saveAt) / 25)
      (s.putPart p { k with
        saving := none, committed := some (freeSaveSlot k, q), slotSteps := lput k.slotSteps (freeSaveSlot k) q }) := by
  simp only [pointCommit, hl, hsaving, hover, hbad, hgrove, Bool.not_true, Bool.false_and, Bool.or_self, Bool.false_eq_true, if_false]

end

/-! ## Rollback (R374, R375) -/

section
variable {p : Nat} {l : Launch} {st : Status} {s : State} (hl : launchOf p s = some l) (hhold : (s.part p).hold = .rolling)
  (hst : committedTo l s = some st)
include hl hhold hst

theorem rollback_unplaced (hplace : replace p l.beds s = none) : rollback p s = rollbackNone p l st s := by
  simp only [rollback, hl, hhold, hst, hplace]

theorem rollback_start {place : List (Nat × Nat)} (hplace : replace p l.beds s = some place) (hpoint : rollbackPoint p l s = none) :
    rollback p s = heldAt p l st place 0 0 (place.foldl (fun z e => restoreStart e.2 z)
      (restart p l place (l.bedList.foldl (fun z b => idleBed p b z) s))) := by
  simp only [rollback, hl, hhold, hst, hplace, hpoint]

end

/-- Settles O51: a descriptor by the hold of its partition, a save and its commitment by what its beds have come to, and a rollback by
its placement. -/
theorem heldPartitionsRun : Obligations.HeldPartitionsRun := by
  intro s
  refine ⟨fun n idx d hget hruns => ⟨fun hfree => ?_, fun htrans hst hk => next_congr (withPart_waits hget hk rfl hruns htrans hst),
      fun hst hfree => next_congr (descPartReady_acts hget hst hfree), fun h => next_congr (descPartReady_waits hget h)⟩,
    fun b l hl => ⟨fun hrun hmay => next_congr (quiesceSave_saves hl hrun hmay),
      fun hsaving hok => next_congr (saveComplete_ok hsaving hok)⟩,
    fun p l hl => ⟨fun q hsaving => ⟨fun hover => next_congr (pointCommit_early hl hsaving hover),
        fun hover hbad => next_congr (pointCommit_failed hl hsaving hover hbad),
        fun hover hbad hgrove => next_congr (pointCommit_commits hl hsaving hover hbad hgrove)⟩,
      fun st hhold hst => ⟨fun hplace => next_congr (rollback_unplaced hl hhold hst hplace),
        fun place hplace hpoint => next_congr (rollback_start hl hhold hst hplace hpoint)⟩⟩⟩
  refine ⟨fun hk hhold hlaunch => next_congr (descQuiesce_idle hget hruns hfree hk hhold hlaunch),
    fun hk hhold => next_congr (descQuiesce_held hget hruns hfree hk hhold),
    fun hk hform himaging hhold => next_congr (descRetain_retained hget hruns hfree hk hform himaging hhold),
    fun l hk hform himaging hhold hl hsaving hsaved =>
      next_congr (descRetain_saved hget hruns hfree hk hform himaging hhold hl hsaving hsaved),
    fun l hk hform himaging hhold hl => next_congr (descImage_held hget hruns hfree hk hform himaging hhold hl),
    fun hk hform hnew hqueue hhold => next_congr (descWakeHold_releases hget hruns hfree hk hnew hform hqueue hhold),
    fun hk hform hnew => next_congr (descWakeImage_turns hget hruns hfree hk hnew hform),
    fun l x y hk hform hnew hqueue hhold hl hwake => ?_⟩
  have hends : exec (.wakeRetention n idx) s = .next (wokenEnds (descPart n d s) n idx.toNat x y) :=
    next_congr (descWakeRetention_ends hget hruns hfree hk hnew hform hqueue hhold hl hwake)
  refine ⟨fun hx => ?_, fun hx => ?_, fun st hx => ?_⟩
  all_goals subst hx; exact hends

end Sys2Proof.Machine
end

section
/-!
PROOFS. Fenced and returning dies (R340 to R342), the requests of the host (R329, R334), and the guest die (R336 to R339) (O57).
-/

namespace Sys2Proof.Machine

/-! ## Fences -/

/-- DIE_FENCE acts on a die that may be fenced for the cause given (R324, R340). -/
theorem dieFence_of_cause {d : Nat} {why : FenceWhy} (h : (d < 12 ∧ why ≠ .power) ∨ d = 15 ∨ (d = 14 ∧ why = .link)) (s : State) :
    dieFence d why s = fenceDie d (fenceCode why).1 0 (fenceCode why).2 s := by
  have hok : ((decide (d < 12) && decide (why ≠ .power)) || decide (d = 15) || (decide (d = 14) && decide (why = .link))) = true := by
    simpa [or_assoc] using h
  exact if_pos hok

section
variable {d : Nat} {s : State} (h : dieState d s = 0 ∨ dieState d s = 4) (cause unit : Nat) (ordered : Bool)
include h

theorem fenceDie_now (hup : bitF F.MGT_ERR_STATUS_RESTARTING 0 0 s = false) :
    fenceDie d cause unit ordered s = fenceNow d cause unit ordered s := by
  rw [fenceDie, if_neg (by tauto), hup, if_neg Bool.false_ne_true]

theorem fenceDie_restarting (hdown : bitF F.MGT_ERR_STATUS_RESTARTING 0 0 s = true) : fenceDie d cause unit ordered s =
    setF F.D2D_FENCE_STATUS_BUSY 0 0 1 { s with mgt := { s.mgt with fences := s.mgt.fences ++ [(d, cause, ordered)] } } := by
  rw [fenceDie, if_neg (by tauto), if_pos hdown]

end

/-- A fenced die that is not in test returns (R342). -/
theorem fenceReturn_of_fenced {d : Nat} {s : State} (htest : (getF F.TAP_CTRL_DIE_EN 0 0 s).testBit d = false) (hfenced : dieState d s = 1) :
    fenceReturn d s = if d < 12 then plotReturn d s else if d = 15 then guestReturn s else s := by
  rw [fenceReturn, htest, if_neg Bool.false_ne_true, returnDie, if_neg (not_not_intro hfenced)]

section
variable {d l q m : Nat} {s : State} (hpeer : peerLink d l = some (q, m)) (hup : linkState d l s = 2)
include hpeer hup

/-- A failing link that is up takes its die with it where what is reported of it holds (R324). -/
theorem linkFailing_clock : linkFailing d l .clock s = fenceDie (failingDie d q) 2 l false s := by
  simp [linkFailing, hpeer, hup]

theorem linkFailing_eightTimes (h : (s.dlink (linkUnit d l)).eightTimes = true) :
    linkFailing d l .eightTimes s = fenceDie (failingDie d q) 3 l false s := by
  simp [linkFailing, hpeer, hup, h]

theorem linkFailing_replays (h : (s.dlink (linkUnit d l)).tooMany (getF F.D2D_LINK_CFG_RETRY_LIMIT (linkUnit d l) 0 s) s.tick = true) :
    linkFailing d l .replays s = fenceDie (failingDie d q) 3 l false s := by
  simp [linkFailing, hpeer, hup, h]

end

theorem cxlInvalidate_fenced {p : Nat} {s : State} (h : dieState p s = 1) (dirty : Nat) :
    let drop (st : Nat) (z : State) : State := z.putStack st { z.stack st with snoop := [] }
    cxlInvalidate p dirty s = incF F.D2D_CXL_LOST_COUNT 0 0 dirty (drop (2 * p + 1) (drop (2 * p) s)) :=
  if_neg (not_not_intro h)

/-! ## The guest site -/

/-- What a step of discovery comes to (R336, R337). -/
def discovered (g : GuestStep) (s : State) : State :=
  match g with
  | .bridged => guestGone 3 0 0 s
  | .empty => guestGone 2 0 0 s
  | .noRail => guestGone 2 1 0 s
  | .noTrain => guestGone 2 2 1 s
  | .noDesc => guestGone 2 3 4 s
  | .read d r => guestRead d r.val s

theorem guestDiscovery_runs {s : State} (hmain : s.pins.vmain = true) (hreset : inReset s = false) (hgone : dieState 15 s ≠ 0)
    (hfree : dieState 15 s ≠ 1) (g : GuestStep) : guestDiscovery g s = discovered g s := by
  have hruns : (!s.pins.vmain || inReset s || decide (dieState 15 s = 0) || decide (dieState 15 s = 1)) = false := by
    simp [hmain, hreset, hgone, hfree]
  cases g <;> exact if_neg (ne_true_of_eq_false hruns)

/-! ## Requests -/

theorem accessBytes_eq (n : Nat) (a : Option Atom) : accessBytes n a = (a.map Atom.bytes).getD n := by
  cases a <;> rfl

/-- An access within one line is made. -/
theorem exec_opsanAccess_line {o : OpsanF} (h : lineOk o.pa.toNat o.len = true) (s : State) :
    exec (.opsanAccess o) s = .next (opsanAccess o s) := if_pos h

theorem exec_pcieDma_line {d : DmaF} (h : DmaOk d = true) (s : State) : exec (.pcieDma d) s = .next (pcieDma d s) := if_pos h

theorem exec_guestRequest_line {g : GuestF} (h : lineOk g.va.toNat g.len = true) (s : State) :
    exec (.guestRequest g) s = .next (guestRequest g s) := if_pos h

theorem opsanAccess_noHost {o : OpsanF} {s : State} (h : dieState 14 s ≠ 0) : opsanAccess o s = s := if_pos h

/-- Through an aperture that is closed the access faults (R329; log entry 45). -/
theorem opsanAccess_closed {o : OpsanF} {s : State} (h : dieState 14 s = 0) (hclosed : aperture o.pa.toNat s = none) :
    opsanAccess o s = respond o.id .pageFault 0 s := by
  rw [opsanAccess, if_neg (not_not_intro h), hclosed]

theorem opsanAccess_open {o : OpsanF} {s : State} {pa : Nat} (h : dieState 14 s = 0) (hopen : aperture o.pa.toNat s = some pa) :
    opsanAccess o s = hostIssue (.opsan o.core) o.id pa (accessBytes o.len o.atom) o.write o.data o.atom (o.pa.toNat / 2 ^ 52 % 16)
      ⟨o.rel, o.acq, o.aq⟩ (releaseHeld s) := by
  rw [opsanAccess, if_neg (not_not_intro h), hopen]

theorem pcieDma_noHost {d : DmaF} {s : State} (h : dieState 14 s ≠ 0) : pcieDma d s = s := if_pos h

/-- An access that the device context does not permit faults (R334). -/
theorem pcieDma_refused {d : DmaF} {s : State} (h : dieState 14 s = 0) (hpa : d.pa = none) : pcieDma d s = respond d.id .pageFault 0 s := by
  rw [pcieDma, if_neg (not_not_intro h), hpa]

theorem pcieDma_permitted {d : DmaF} {s : State} {pa : BitVec 61} (h : dieState 14 s = 0) (hpa : d.pa = some pa) :
    pcieDma d s = hostIssue .pcie d.id pa.toNat d.len d.write d.data none 0 ⟨false, false, false⟩ s := by
  rw [pcieDma, if_neg (not_not_intro h), hpa]

section
variable {g : GuestF} {s : State} (hup : dieState 15 s = 0) (hnew : extFlying .guest g.id s = false)
  (hcredit : guestFlying s < s.guestField 0x1D 1 + 1)
include hup hnew hcredit

/-- A request of the guest within its credit is checked against the guest's range (R338). -/
theorem guestRequest_taken : guestRequest g s =
    if !inGuestRange g.va.toNat (accessBytes g.len g.atom) s then respond g.id .pageFault 0 s
    else
      let r : Req := ⟨s.nextId, .guest, hostWho, 0, 0, accessBytes g.len g.atom, g.write, g.data,
        BitVec.ofNat 128 (2 ^ accessBytes g.len g.atom - 1), g.atom, BitVec.allOnes 32, 0, .walking, .ok, 0, s.tick, false, false, false,
        some g.id, false, 0, [], false, ⟨false, false, false⟩⟩
      askXlt 32 (guestWait s.nextId g) { s with nextId := s.nextId + 1, net := s.net ++ [r] } := by
  have hfirst : (decide (dieState 15 s ≠ 0) || extFlying .guest g.id s || decide (s.guestField 0x1D 1 + 1 ≤ guestFlying s)) = false := by
    simp [hup, hnew, Nat.not_le.mpr hcredit]
  exact (if_neg (ne_true_of_eq_false hfirst)).trans rfl

end

/-- Settles O57: each command by the states of the dies that it meets. -/
theorem diesHostAndGuest : Obligations.DiesHostAndGuest := by
  intro s
  refine ⟨fun d why hcause hstate => ?_, fun d htest hfenced => ?_, fun d l q m hpeer hup => ?_,
    fun p dirty h => next_congr (cxlInvalidate_fenced h dirty), fun hmain hreset hgone hfree => ?_, fun ms us hup => ?_, fun o => ?_,
    fun d => ?_, fun g => ?_⟩
  · have hfence : exec (.dieFence d why) s = .next (fenceDie d (fenceCode why).1 0 (fenceCode why).2 s) :=
      next_congr (dieFence_of_cause hcause s)
    exact ⟨fun hup => hfence.trans (next_congr (fenceDie_now hstate _ _ _ hup)),
      fun hdown => hfence.trans (next_congr (fenceDie_restarting hstate _ _ _ hdown))⟩
  · have hreturn : exec (.fenceReturn d) s = .next (if d.val < 12 then plotReturn d s else if d.val = 15 then guestReturn s else s) :=
      next_congr (fenceReturn_of_fenced htest hfenced)
    refine ⟨fun h => hreturn.trans (next_congr (if_pos h)), fun h => hreturn.trans (next_congr ?_)⟩
    rw [if_neg (by omega), if_pos h]
  · exact ⟨next_congr (linkFailing_clock hpeer hup), fun h => next_congr (linkFailing_eightTimes hpeer hup h),
      fun h => next_congr (linkFailing_replays hpeer hup h)⟩
  · have hruns (g : GuestStep) : exec (.guestDiscovery g) s = .next (discovered g s) :=
      next_congr (guestDiscovery_runs hmain hreset hgone hfree g)
    exact ⟨hruns .bridged, hruns .empty, hruns .noRail, hruns .noTrain, hruns .noDesc, fun desc rate => hruns (.read desc rate)⟩
  · exact next_congr (if_neg (not_not_intro hup))
  · refine ⟨fun h => if_neg (ne_true_of_eq_false h), fun h hgone => (exec_opsanAccess_line h s).trans (next_congr (opsanAccess_noHost hgone)),
      fun h hup => ⟨fun hclosed => (exec_opsanAccess_line h s).trans (next_congr (opsanAccess_closed hup hclosed)), fun pa hopen => ?_⟩⟩
    rw [exec_opsanAccess_line h, opsanAccess_open hup hopen, accessBytes_eq]
  · have hok (pa : BitVec 61) (hpa : d.pa = some pa) : DmaOk d = lineOk pa.toNat d.len := by rw [DmaOk, hpa]
    refine ⟨fun hpa hup => (exec_pcieDma_line (by rw [DmaOk, hpa]) s).trans (next_congr (pcieDma_refused hup hpa)), fun pa hpa =>
      ⟨fun h hup => (exec_pcieDma_line ((hok pa hpa).trans h) s).trans (next_congr (pcieDma_permitted hup hpa)),
      fun h hgone => (exec_pcieDma_line ((hok pa hpa).trans h) s).trans (next_congr (pcieDma_noHost hgone)),
      fun h => if_neg (ne_true_of_eq_false ((hok pa hpa).trans h))⟩⟩
  · refine ⟨fun h => if_neg (ne_true_of_eq_false h), fun h hup hnew hcredit => ?_⟩
    rw [exec_guestRequest_line h, guestRequest_taken hup hnew hcredit, accessBytes_eq]
    intro n
    exact ⟨fun hout => next_congr (if_pos (by rw [hout]; rfl)), fun hin => next_congr (if_neg (by rw [hin]; simp))⟩

end Sys2Proof.Machine
end

section
/-!
PROOFS. Supplies and the reset land (R406, R407, R436), and the stages of boot (R408).
-/

namespace Sys2Proof.Machine

/-! ## Supplies -/

/-- The auxiliary supply that comes on begins boot at stage 1, with a trip not yet recovered from as its reason (R406, R407). -/
theorem auxOn_begins {s : State} (h : s.pins.aux = false) (strap : BitVec 2) :
    auxOn strap s = setF F.PWR_STATUS_TRIPPED 0 0 (if s.pins.tripHold then 1 else 0)
      (bootAt 1 (if s.pins.tripHold then 4 else 0) { State.reset with
        pending := s.pending, free := s.free, nextId := s.nextId, flash := s.flash, flashErr := s.flashErr,
        pins := { s.pins with aux := true, tripHold := false, thermTrip := false, perst0 := true, perst1 := true, strap := strap },
        i3c := ⟨0x58 + strap.setWidth 7, none, none, []⟩ }) := by
  exact if_neg (ne_true_of_eq_false h)

/-- The state with the main input gone. -/
def mainGone (s : State) : State := { s with pins := { s.pins with vmain := false } }

theorem mainLoss_early {s : State} (h : bootStage s < 6) : mainLoss s = mainGone s :=
  if_pos (by rw [decide_eq_true (show getF F.MGT_BOOT_STATUS_STAGE 0 0 s < 6 from h), Bool.or_true])

/-- From stage 6 on the converters turn off, and boot waits at stage 6 (R407). -/
theorem mainLoss_late {s : State} (haux : s.pins.aux = true) (h : 6 ≤ bootStage s) :
    mainLoss s = if bootStage s = 6 then convertersOff (mainGone s) else bootAt 6 2 (convertersOff (mainGone s)) := by
  have hnot : (!s.pins.aux || decide (getF F.MGT_BOOT_STATUS_STAGE 0 0 s < 6)) = false := by
    rw [haux, decide_eq_false (show ¬ getF F.MGT_BOOT_STATUS_STAGE 0 0 s < 6 from Nat.not_lt.mpr h)]
    rfl
  exact if_neg (ne_true_of_eq_false hnot)

/-! ## The reset land -/

/-- The release begins boot for RESET_INPUT, the dies leaving test at once where no scan is under way (R436, R450). -/
theorem resetRelease_begins {s : State} (hlow : s.pins.resetLow = true) (htrip : s.pins.tripHold = false) (scanning : Bool) :
    let s1 := { s with pins := { s.pins with resetLow := false }, tap := { s.tap with leaving := scanning } }
    resetRelease scanning s = bootAt 1 1 (if scanning then s1 else setF F.TAP_STATUS_RESET_TEST 0 0 0 s1) := by
  simp only [resetRelease, hlow, htrip, Bool.not_true, Bool.false_eq_true, if_false]

/-! ## Boot -/

/-- What a stage of boot does (R408). -/
def runStage (b : BootIn) (n : Nat) (s : State) : State :=
  match n with
  | 1 => toStage 2 s
  | 2 => toStage 3 (loadIndices (identityCheck b s))
  | 3 => pickSlot b.img.flashOk s 4
  | 4 => loadImage b.img b.keyOpen s
  | 5 => takeSettings b.img.flashOk s
  | 6 => if s.pins.vmain then toStage 7 (powerFlags (manageDies 1 (beginStacks s))) else s
  | 7 => if trained (beginStacks s) then toStage 8 (beginStacks s) else beginStacks s
  | 8 => if getF F.MGT_BOOT_STATUS_FAIL 0 0 s = 1 then s else writeTables s
  | 9 =>
    toStage 10 (if bitF F.HAL_GROVE_CFG_JOIN_AUTO 0 0 s && !s.grove.cards.isEmpty && decide (getF F.HAL_GROVE_STATUS_STATE 0 0 s = 0)
      then joinGrove s else s)
  | 10 => writeHandoff s
  | 11 => graftSettle b.img.flashOk (handOff s)
  | _ => s

/-- Out of reset, recovery and restart BOOT runs the stage in progress (R408). -/
theorem boot_runs {s : State} (hreset : inReset s = false) (hrecovery : bitF F.MGT_BOOT_STATUS_RECOVERY 0 0 s = false)
    (hrestart : bitF F.MGT_ERR_STATUS_RESTARTING 0 0 s = false) (b : BootIn) : boot b s = runStage b (bootStage s) s := by
  have hruns : (inReset s || bitF F.MGT_BOOT_STATUS_RECOVERY 0 0 s || bitF F.MGT_ERR_STATUS_RESTARTING 0 0 s) = false := by
    rw [hreset, hrecovery, hrestart]
    rfl
  exact (if_neg (ne_true_of_eq_false hruns)).trans rfl

/-- A member that has seen no card does not join at stage 9 (R408). -/
theorem runStage_alone {s : State} (h : s.grove.cards = []) (b : BootIn) : runStage b 9 s = toStage 10 s := by
  simp only [runStage, h, List.isEmpty_nil, Bool.not_true, Bool.and_false, Bool.false_and, Bool.false_eq_true, if_false]

end Sys2Proof.Machine
end

section
/-!
PROOFS. The firmware's commands and grafts (R417 to R420, R424), and the supplies, the reset land and boot before them (O59).
-/

namespace Sys2Proof.Machine

/-! ## One command at a time -/

/-- A command that another keeps waiting is noted alone (R427). -/
theorem secRun_busy {op : Nat} {s : State} (hbusy : s.mgt.secOp ≠ 0) (hother : s.mgt.secOp ≠ op) (f : State → State) :
    secRun op f s = flagF F.SEC_STATUS_BUSY_WRITE 0 0 s := by
  simp only [secRun, if_neg hother, secCmd, if_pos hbusy, flagF_mgt, decide_eq_false hother, Bool.false_and, Bool.false_eq_true, if_false]

/-- A command under way runs. -/
theorem secRun_runs {op : Nat} {s : State} (hop : s.mgt.secOp = op) (hruns : secRuns s = true) (f : State → State) :
    secRun op f s = f s := by
  simp only [secRun, hop, decide_true, hruns, Bool.and_true, if_true]

theorem secRead_ok {n v : Nat} {s z : State} (h : busReadRange .mgt secTag hostWho (secAddr s) n s = (.ok v, z))
    (f : Nat → State → State) : secRead n f s = f v (askDone .mgt secTag z) := by
  simp only [secRead, h]

section
variable {s : State} (hfree : s.mgt.resetTo = none)
include hfree

/-- Where no reset is ordered ACTIVATE and ABANDON_GRAFT are commands like the others. -/
theorem activate_of_no_reset (ok : Bool) : activate ok s = secRun 2 (fun s =>
    match slotIn 1 s with
    | none => secDone 14 s
    | some i => if ok then tryReset (orderReset 5 1 (secDone 0 (setSlot true i 2 0 s))) else secDone 8 (setSlot false i 2 0 s)) s :=
  if_neg (by rw [hfree]; exact Bool.false_ne_true)

theorem abandonGraft_of_no_reset (ok : Bool) : abandonGraft ok s = secRun 4 (fun s =>
    match slotIn 2 s with
    | none => secDone 14 s
    | some i => tryReset (endGraft ok i (secDone (if ok then 0 else 8) s))) s :=
  if_neg (by rw [hfree]; exact Bool.false_ne_true)

end

/-! ## The commands -/

section
variable {s : State} (hruns : secRuns s = true)
include hruns

theorem stageImage_writes {x : ImgIn} {v : Nat} {z : State} (hop : s.mgt.secOp = 1) (hnone : slotIn 2 s = none) (hflash : x.flashOk = true)
    (hread : busReadRange .mgt secTag hostWho (secAddr (s.putSlot (stageTarget s) FwSlot.empty)) (getF F.SEC_CMD_LEN_LEN 0 0 s)
      (s.putSlot (stageTarget s) FwSlot.empty) = (.ok v, z)) :
    let t := stageTarget s
    let w := (askDone .mgt secTag z).putSlot t (((askDone .mgt secTag z).slot t).put 0 (getF F.SEC_CMD_LEN_LEN 0 0 s) v)
    stageImage x s = secDone (verifySlot t x w) (setSlot true t (if verifySlot t x w = 0 then 1 else 5) 0 w) := by
  intro t w
  rw [stageImage, secRun_runs hop hruns]
  simp only [hnone, Option.isSome_none, Bool.false_eq_true, if_false]
  rw [secRead_ok hread, hflash]
  rfl

theorem activate_grafts {i : Nat} (hfree : s.mgt.resetTo = none) (hop : s.mgt.secOp = 2) (hslot : slotIn 1 s = some i) :
    activate true s = tryReset (orderReset 5 1 (secDone 0 (setSlot true i 2 0 s))) := by
  rw [activate_of_no_reset hfree, secRun_runs hop hruns]
  simp only [hslot, if_true]

section
variable {e : Nat} (hop : s.mgt.secOp = 3) (hslot : (slotIn 2 s).isSome = true) (hend : s.mgt.graftEnd = some e) (ok : Bool)
include hop hslot hend

theorem confirm_graft : confirm ok s =
    if e ≤ s.ownTick then secDone 0 (flagF F.SEC_STATUS_LATE_CONFIRM 0 0 s)
    else secDone 0 (graftSettle ok (setF F.SEC_GRAFT_HOST_DONE 0 0 1 s)) := by
  have hsome : (slotIn 2 s).isNone = false := by rw [← Option.not_isSome, hslot]; rfl
  rw [confirm, secRun_runs hop hruns]
  simp only [hsome, hend, Bool.false_eq_true, if_false, decide_eq_true_eq]

end

theorem abandonGraft_ends {i : Nat} (hfree : s.mgt.resetTo = none) (hop : s.mgt.secOp = 4) (hslot : slotIn 2 s = some i) (ok : Bool) :
    abandonGraft ok s = tryReset (endGraft ok i (secDone (if ok then 0 else 8) s)) := by
  rw [abandonGraft_of_no_reset hfree, secRun_runs hop hruns]
  simp only [hslot]

theorem writeSettings_stores {v : Nat} {z : State} (hop : s.mgt.secOp = 5) (hnewer : settingsNewer s = false)
    (hread : busReadRange .mgt secTag hostWho (secAddr s) 256 s = (.ok v, z)) :
    let w := askDone .mgt secTag z
    writeSettings true s = secDone 0 (storeSettings (writtenSettings v w) w) := by
  rw [writeSettings, secRun_runs hop hruns]
  simp only [hnewer, Bool.false_eq_true, if_false]
  rw [secRead_ok hread]
  rfl

theorem attest_quotes {sig : BitVec 79144} {ok : Bool} {v : Nat} {w z : State} (hop : s.mgt.secOp = 6) (hquote : s.mgt.quote = none)
    (hident : s.ident.isSome = true) (hkey : bitF F.SEC_STATUS_KEY_OK 0 0 s = true) (hroom : quoteBytes ≤ getF F.SEC_CMD_LEN_LEN 0 0 s)
    (hindex : reserveIndex ok s = (none, w)) (hread : busReadRange .mgt secTag hostWho (secAddr w) 32 w = (.ok v, z)) :
    attest sig ok s = formQuote sig v (askDone .mgt secTag z) := by
  have hsome : s.ident.isNone = false := by rw [← Option.not_isSome, hident]; rfl
  rw [attest, secRun_runs hop hruns]
  simp only [hquote, hsome, hkey, if_neg (Nat.not_lt.mpr hroom), hindex, Bool.not_true, Bool.false_eq_true, if_false]
  exact secRead_ok hread _

end

/-- A graft past its window is confirmed where it was healthy, else ends (R418, R419). -/
theorem graftWindowEnd_over {s : State} {i e : Nat} (hslot : graftSlot s = some i) (hend : s.mgt.graftEnd = some e) (hover : e ≤ s.ownTick)
    (ok : Bool) : graftWindowEnd ok s = if graftHealthy (e - 1) s then confirmGraft ok i s else tryReset (endGraft ok i s) := by
  simp only [graftWindowEnd, hslot, hend, if_neg (Nat.not_lt.mpr hover)]

/-- Settles O59: the supplies and the reset land by the stage they find boot in, BOOT by its stage, and the firmware's commands by the
one under way. -/
theorem supplyBootFirmware : Obligations.SupplyBootFirmware := by
  intro s
  refine ⟨fun strap haux => next_congr (auxOn_begins haux strap), rfl, rfl, fun haux => ⟨fun h => next_congr (mainLoss_early h), fun h => ?_,
    fun h => ?_⟩, fun haux => next_congr (if_pos haux), fun hlow htrip => ⟨next_congr (resetRelease_begins hlow htrip false),
    next_congr (resetRelease_begins hlow htrip true)⟩, fun b hreset hrecovery hrestart => ?_, fun x sig ok hfree => ⟨fun hbusy => ?_,
    fun hruns => ?_⟩, fun i e ok hslot hend hover => next_congr (graftWindowEnd_over hslot hend hover ok)⟩
  · exact next_congr ((mainLoss_late haux h.ge).trans (if_pos h))
  · exact next_congr ((mainLoss_late haux (Nat.le_of_lt h)).trans (if_neg (Nat.ne_of_gt h)))
  · have hboot {n : Nat} (h : bootStage s = n) : boot b s = runStage b n s := h ▸ boot_runs hreset hrecovery hrestart b
    exact ⟨fun h => next_congr (hboot h), fun h => next_congr (hboot h), fun h => next_congr (hboot h), fun h => next_congr (hboot h),
      fun h => next_congr (hboot h), fun h hmain => next_congr ((hboot h).trans (if_pos hmain)), fun h => next_congr (hboot h),
      fun h hfail => next_congr ((hboot h).trans (if_neg hfail)), fun h hcards => next_congr ((hboot h).trans (runStage_alone hcards b)),
      fun h => next_congr (hboot h), fun h => next_congr (hboot h), fun h => next_congr (hboot h)⟩
  · exact ⟨fun h => next_congr (secRun_busy hbusy h _),
      fun h => next_congr ((activate_of_no_reset hfree ok).trans (secRun_busy hbusy h _)), fun h => next_congr (secRun_busy hbusy h _),
      fun h => next_congr ((abandonGraft_of_no_reset hfree ok).trans (secRun_busy hbusy h _)),
      fun h => next_congr (secRun_busy hbusy h _), fun h => next_congr (secRun_busy hbusy h _)⟩
  · exact ⟨fun v z hop hnone hflash hread => next_congr (stageImage_writes hruns hop hnone hflash hread),
      fun i hop hslot => next_congr (activate_grafts hruns hfree hop hslot),
      fun e hop hslot hend => ⟨fun h => next_congr ((confirm_graft hruns hop hslot hend ok).trans (if_neg (Nat.not_le.mpr h))),
        fun h => next_congr ((confirm_graft hruns hop hslot hend ok).trans (if_pos h))⟩,
      fun i hop hslot => next_congr (abandonGraft_ends hruns hfree hop hslot ok),
      fun v z hop hnewer hread => next_congr (writeSettings_stores hruns hop hnewer hread),
      fun v w z hop hquote hident hkey hroom hindex hread =>
        next_congr (attest_quotes hruns hop hquote hident hkey hroom hindex hread)⟩

end Sys2Proof.Machine
end

section
/-!
PROOFS. The I3C sideband (R437, R438), recovery (R416, R439) and test access (R446 to R450) (O60).
-/

namespace Sys2Proof.Machine

/-! ## Other keys, whatever the form of the map -/

theorem sget_sput_of_ne {α : Type} [DecidableEq α] (d : α) (l : List (Nat × α)) {k j : Nat} (h : j ≠ k) (v : α) :
    sget d (sput d l k v) j = sget d l j := by
  induction l with
  | nil =>
    unfold sput
    split
    · rfl
    · simp [sget, h.symm]
  | cons a t ih =>
    obtain ⟨i, w⟩ := a
    unfold sput
    split
    · split <;> simp [sget, h.symm]
    · split
      · next hki => split <;> simp [sget, ← hki, h.symm]
      · simp [sget, ih]

theorem look_lput_same {α : Type} (l : List (Nat × α)) (k : Nat) (v : α) : look (lput l k v) k = some v := by
  induction l with
  | nil => simp [lput, look]
  | cons a t ih =>
    unfold lput
    split
    · simp [look]
    · next h => simp [look, h, ih]

/-- A field of another register than the one set reads as before, in any state. -/
theorem getF_setF_of_other_reg {f g : Fld} (h : g.reg ≠ f.reg) (k j u i x : Nat) (s : State) :
    getF g k j (setF f u i x s) = getF g k j s := by
  have hread : readReg g.reg k j (setF f u i x s) = readReg g.reg k j s := by
    simp only [readReg, setF, writeReg, sget_sput_of_ne _ _ (regKey_ne h u i k j)]
  rw [getF, hread, getF]

/-! ## Instructions (R448) -/

theorem inTest_congr {s t : State} (hen : dieEn t = dieEn s)
    (hreset : getF F.TAP_STATUS_RESET_TEST 0 0 t = getF F.TAP_STATUS_RESET_TEST 0 0 s) (d : Nat) : inTest d t = inTest d s := by
  simp only [inTest, hen, bitF, hreset]

/-- A die's test does not end by an instruction. -/
theorem inTest_tapLoad (e d code : Nat) (s : State) : inTest e (tapLoad d code s) = inTest e s := by
  unfold tapLoad
  dsimp only
  split
  · exact inTest_congr (getF_setF_of_other_reg (by decide) _ _ _ _ _ _) (getF_setF_of_other_reg (by decide) _ _ _ _ _ _) e
  · rfl

theorem tapOffers_tapLoad (e c d code : Nat) (s : State) : tapOffers e c (tapLoad d code s) = tapOffers e c s := by
  simp only [tapOffers, inTest_tapLoad]

theorem tapIr_tapLoad {code : Nat} (h : code < 256) (d : Nat) (s : State) : tapIr d (tapLoad d code s) = code := by
  have hir : (tapLoad d code s).tap.ir = lput s.tap.ir d (BitVec.ofNat 8 code) := by
    unfold tapLoad
    dsimp only
    split <;> rfl
  rw [tapIr, hir, look_lput_same, Option.getD_some, BitVec.toNat_ofNat, Nat.mod_eq_of_lt h]

section
variable {d code : Nat} {s : State} (hreach : tapReaches d s = true) (f : State → State)
include hreach

/-- An instruction that is available has its effect. -/
theorem tapDo_offered (hcode : code < 256) (h : tapOffers d code s = true) : tapDo d code f s = f (tapLoad d code s) := by
  have hacts : tapActs d (tapLoad d code s) = code := by
    rw [tapActs, tapIr_tapLoad hcode, tapOffers_tapLoad, if_pos h]
  simp only [tapDo, if_pos hreach, if_pos hacts]

/-- One that is not acts as BYPASS. -/
theorem tapDo_withheld (hcode : code < 256) (h : tapOffers d code s = false) (hbypass : code ≠ 0xFF) :
    tapDo d code f s = shiftOut 0 (tapLoad d code s) := by
  have hacts : tapActs d (tapLoad d code s) ≠ code := by
    rw [tapActs, tapIr_tapLoad hcode, tapOffers_tapLoad, h, if_neg Bool.false_ne_true]
    exact hbypass.symm
  simp only [tapDo, if_pos hreach, if_neg hacts]

theorem tapDo_bypass : tapDo d 0xFF f s = f (tapLoad d 0xFF s) := by
  have hacts : tapActs d (tapLoad d 0xFF s) = 0xFF := by
    rw [tapActs, tapIr_tapLoad (by decide), ite_self]
  simp only [tapDo, if_pos hreach, if_pos hacts]

end

/-- The state with an instruction loaded, in terms of its code. -/
theorem tapLoad_code (d : Nat) (code : BitVec 8) (s : State) : tapLoad d code.toNat s =
    let s1 := { s with tap := { s.tap with ir := lput s.tap.ir d code } }
    if d < 12 ∧ code ≠ 0x11 then setF F.TAP_PLOT_STATUS_STACK_PORTS d 0 0 s1 else s1 := by
  have hcode : code.toNat ≠ 0x11 ↔ code ≠ 0x11 := not_congr (BitVec.toNat_inj (y := 0x11#8))
  simp only [tapLoad, BitVec.ofNat_toNat, BitVec.setWidth_eq, hcode]

/-! ## The sideband -/

/-- With the auxiliary input what the board controller writes is served (R437). -/
theorem i3cServe_powered {s : State} (h : s.pins.aux = true) (f : State → State) : i3cServe f s = f s := if_pos h

theorem i3cRead_unlisted {off : Nat} {s : State} (h : inReset s = true ∨ 0x100000 ≤ off ∨ regAt .mgt 0 off = none) :
    i3cRead off s = i3cRespond (2 ^ 64 - 1) 8 s :=
  if_pos (by simpa [or_assoc] using h)

theorem i3cRead_listed {off : Nat} {s : State} (hreset : inReset s = false) (hoff : off < 0x100000)
    (hreg : (regAt .mgt 0 off).isSome = true) :
    let r := csrRead 12 (0x100000 + off) 8 s
    i3cRead off s = i3cRespond r.1 8 r.2 := by
  have hnot : (inReset s || decide (0x100000 ≤ off) || (regAt .mgt 0 off).isNone) = false := by
    rw [hreset, decide_eq_false (Nat.not_le.mpr hoff), ← Option.not_isSome, hreg]
    rfl
  exact if_neg (ne_true_of_eq_false hnot)

section
variable {off n : Nat} {s : State} (v : Nat)

theorem recoveryWrite_outside (h : inRecovery s = false) : recoveryWrite off n v s = i3cRespond 1 1 s :=
  if_pos (by rw [h]; rfl)

theorem recoveryWrite_takes (h : inRecovery s = true) (hroom : off + n ≤ slotBytes) :
    recoveryWrite off n v s = i3cRespond 0 1 (recoveryPut off n v s) := by
  rw [recoveryWrite, h, Bool.not_true, if_neg Bool.false_ne_true, if_neg (Nat.not_lt.mpr hroom)]

end

theorem recoveryDone_verifies {s : State} (h : inRecovery s = true) (len : Nat) (x : ImgIn) :
    recoveryDone len x s = i3cRespond (recover len x s).1 1 (recover len x s).2 := if_pos h

theorem tftpWrite_takes {data : List (BitVec 8)} {s : State} (h : inRecovery s = true) (hroom : data.length ≤ slotBytes) (x : ImgIn) :
    tftpWrite data x s =
      (recover data.length x (recoveryPut 0 data.length (fileBytes data) (s.putSlot 0 FwSlot.empty))).2 :=
  if_pos (by rw [h, decide_eq_true hroom]; rfl)

theorem exec_recoveryWrite_fits {n : Nat} (h : n ≤ 240) (off : BitVec 32) (data : BitVec 1920) (s : State) :
    exec (.recoveryWrite off n data) s = .next (i3cServe (recoveryWrite off.toNat n data.toNat) s) := if_pos h

/-- Settles O60: the sideband by what it asks, and an instruction by whether it is available in the die reached. -/
theorem sidebandAndTest : Obligations.SidebandAndTest := by
  intro s
  refine ⟨fun haux => ?_, fun off n data h => if_neg (Nat.not_le.mpr h),
    fun data x hrec hroom => next_congr (tftpWrite_takes hrec hroom x), fun d => ⟨rfl, rfl⟩, rfl,
    ⟨fun h => next_congr (if_neg (ne_true_of_eq_false h)), fun h => next_congr (if_pos h)⟩, fun d hreach => ?_⟩
  · have hserve (f : State → State) : i3cServe f s = f s := i3cServe_powered haux f
    refine ⟨next_congr (hserve _), next_congr (hserve _), fun off => ⟨fun h => next_congr ((hserve _).trans (i3cRead_unlisted h)),
        fun hreset hoff hreg => next_congr ((hserve _).trans (i3cRead_listed hreset hoff hreg))⟩,
      fun off n data hn => ⟨fun h => ?_, fun h hroom => ?_⟩,
      fun len x h => next_congr ((hserve _).trans (recoveryDone_verifies h _ x)), fun b => next_congr (hserve _), next_congr (hserve _),
      fun a => next_congr (hserve _)⟩
    · exact (exec_recoveryWrite_fits hn off data s).trans (next_congr ((hserve _).trans (recoveryWrite_outside _ h)))
    · exact (exec_recoveryWrite_fits hn off data s).trans (next_congr ((hserve _).trans (recoveryWrite_takes _ h hroom)))
  · intro loaded out cells
    have hload (code : BitVec 8) : tapLoad d code.toNat s = loaded code := tapLoad_code d code s
    have hdo {code : BitVec 8} (h : tapOffers d code.toNat s = true) (f : State → State) : tapDo d code.toNat f s = f (loaded code) := by
      rw [tapDo_offered hreach f code.isLt h, hload]
    have hnot {code : BitVec 8} (h : tapOffers d code.toNat s = false) (hbypass : code ≠ 0xFF) (f : State → State) :
        tapDo d code.toNat f s = shiftOut 0 (loaded code) := by
      rw [tapDo_withheld hreach f code.isLt h fun hcode => hbypass (BitVec.eq_of_toNat_eq hcode), hload]
    refine ⟨fun v p => next_congr (hdo (code := 0x01) rfl _), next_congr (hdo (code := 0x02) rfl _),
      next_congr ((tapDo_bypass hreach _).trans (congrArg _ (hload 0xFF))), fun h => ?_, fun h => ?_⟩
    · refine ⟨fun v p => next_congr (hdo (code := 0x00) h _), next_congr (hdo (code := 0x03) h _), next_congr (hdo (code := 0x04) h _),
        next_congr (hdo (code := 0x10) h _), next_congr (hdo (code := 0x12) h _), fun hplot ports => next_congr (hdo (code := 0x11) ?_ _)⟩
      exact Bool.and_eq_true_iff.mpr ⟨h, decide_eq_true hplot⟩
    · refine ⟨fun v p => next_congr (hnot (code := 0x00) h (by decide) _), next_congr (hnot (code := 0x03) h (by decide) _),
        next_congr (hnot (code := 0x04) h (by decide) _), next_congr (hnot (code := 0x10) h (by decide) _),
        next_congr (hnot (code := 0x12) h (by decide) _), fun ports => next_congr (hnot (code := 0x11) ?_ (by decide) _)⟩
      exact Bool.and_eq_false_iff.mpr (.inl h)

end Sys2Proof.Machine
end
